-- ==== Sys2Proof/Word.lean ====
section
/-!
DEFINITION. Words, bytes and bit fields: the plainest arithmetic of the model.
-/
namespace Sys2Proof

/-- A byte of a memory. -/
abbrev Byte := BitVec 8

/-- A 64-bit word: the widest register access, a sequence word. -/
abbrev Word := BitVec 64

/-- Bits `[lo + w - 1 : lo]` of `v` (R4). -/
def bits (v lo w : Nat) : Nat := v / 2 ^ lo % 2 ^ w

/-- Bit `i` of `v` as a truth value. -/
def bitAt (v i : Nat) : Bool := v / 2 ^ i % 2 == 1

/-- A truth value as a bit. -/
def b2n (b : Bool) : Nat := if b then 1 else 0

/-- `v` with bit `i` set to `b`. -/
def setBit (v i : Nat) (b : Bool) : Nat :=
  if bitAt v i = b then v else if b then v + 2 ^ i else v - 2 ^ i

/-- The least value not below `a` that is a multiple of `m`. -/
def roundUp (a m : Nat) : Nat := (a + m - 1) / m * m

/-- A `w`-bit two's-complement field as an integer (R9). -/
def sgn (w v : Nat) : Int := if v < 2 ^ (w - 1) then (v : Int) else (v : Int) - (2 : Int) ^ w

/-- An integer as a `w`-bit two's-complement field, modulo `2 ^ w`. -/
def unsgn (w : Nat) (i : Int) : Nat := (i % (2 : Int) ^ w).toNat

/-- `a` held to the range `[lo, hi]`. -/
def clampInt (lo hi a : Int) : Int := if a < lo then lo else if hi < a then hi else a

/-- The bytes of `v`, least significant first (R4). -/
def bytesOf : Nat → Nat → List Byte
  | 0, _ => []
  | n + 1, v => BitVec.ofNat 8 v :: bytesOf n (v / 256)

/-- The value of bytes given least significant first (R4). -/
def ofBytes : List Byte → Nat
  | [] => 0
  | b :: t => b.toNat + 256 * ofBytes t

end Sys2Proof
end

