-- ==== Sys2Proof/Syntax.lean ====
section
/-!
DEFINITION. The commands of the block: one constructor for every row of the table of operations and events, in the table's
order, with the row's operands. A command is what reaches the block from outside (a register write or read, a doorbell, a
packet, a pin edge) or one of the block's own steps at the moment it falls due; the operands carry only what comes from
outside the block or names the unit.
-/
namespace Sys2Proof

/-- The part of a 64-bit register that a write reaches (R15). -/
inductive Part where
  | low | high | whole
  deriving DecidableEq, Repr

/-- What one boot meets outside the block's own rules (R472 to R486): its time to READY or RECOVERY and the time at which the core PLL
locks, in µs; whether it locks, whether the crystal runs; whether the flash declares 8D-8D-8D operation, and its size in KB; the result of the unit
tests in the layout of DEV_UNITS; the pseudo-channels whose training fails twice; the Control Store copies that differ after the load, and
those that still differ after the rewrite. -/
structure BootResult where
  us : Nat
  lockUs : Nat
  lock : Bool
  xtal : Bool
  octal : Bool
  flashKb : Nat
  units : Nat
  trainFail : List Nat
  ucBad : Nat
  ucLost : Nat
  deriving DecidableEq, Repr


/-- The commands. -/
inductive Instr where
  /-- REGISTER_WRITE: a host write of `bytes` bytes of `v` at BAR0 offset `addr`. -/
  | registerWrite (addr : Nat) (bytes : Nat) (v : Word)
  /-- LOW_HALF_READ: a host read at the BAR0 offset in bits 27:0 of `addr`: of 4 bytes where the bits above are 0, else of as many bytes as they say. -/
  | lowHalfRead (addr : Nat)
  /-- HIGH_HALF_READ: a 32-bit host read at `addr`, the high half of a 64-bit register. -/
  | highHalfRead (addr : Nat)
  /-- HBM_WINDOW_ACCESS: a BAR4 window access at window offset `off`: a write of `data`, or a read of `len` bytes. -/
  | hbmWindowAccess (off : Nat) (len : Nat) (data : Option (List Byte))
  /-- SITE_COMMIT: a write of `v` to SITE_COMMIT of site `n`. -/
  | siteCommit (n : Nat) (v : Word)
  /-- PIN_TS_COMMIT: a write of `v` to PIN_TS_COMMIT of pin `p`. -/
  | pinTsCommit (p : Nat) (v : Word)
  /-- PIN_TF_COMMIT: a write of `v` to PIN_TF_COMMIT of pin `p`. -/
  | pinTfCommit (p : Nat) (v : Word)
  /-- WV_COMMIT: a write of `v` to WV_COMMIT of channel `w`. -/
  | wvCommit (w : Nat) (v : Word)
  /-- SITE_MEMBER_WRITE: a write of part `part` of SITE_MEMBERk of site `n`. -/
  | siteMemberWrite (n : Nat) (k : Nat) (part : Part) (v : Word)
  /-- DOZE_ENTRY: site `n` has been IDLE for SITE_DOZE_DELAY. -/
  | dozeEntry (n : Nat)
  /-- RUN: the RUN in tracker entry `e` reaches the Site Fabric. -/
  | run (e : Nat)
  /-- PREPARING_ENTRY: the oldest waiting RUN of site `n` acts. -/
  | preparingEntry (n : Nat)
  /-- PREPARATION_COMPLETE: site `n`'s member buffers are filled and its PLLs ready. -/
  | preparationComplete (n : Nat)
  /-- BURST_START_SEAM: 100 ns before site `n`'s start time. -/
  | burstStartSeam (n : Nat)
  /-- SITE_START: site `n`'s start time is reached. -/
  | siteStart (n : Nat)
  /-- EVENT_PIN_EDGE: an edge on pin EV`ev`. -/
  | eventPinEdge (ev : Nat) (rise : Bool)
  /-- ARM_TIMEOUT: site `n`'s arm timer expires. -/
  | armTimeout (n : Nat)
  /-- STOP_ABORT: the STOP in mode ABORT in entry `e` reaches the Site Fabric. -/
  | stopAbort (e : Nat)
  /-- STOP_PAUSE: the STOP in mode PAUSE in entry `e` reaches the Site Fabric. -/
  | stopPause (e : Nat)
  /-- RESUME: the RESUME in entry `e` reaches the Site Fabric. -/
  | resume (e : Nat)
  /-- RESUME_START: site `n`'s RESUME start time is reached. -/
  | resumeStart (n : Nat)
  /-- SEAM_AT_BOUNDARY: lane `l` reaches a boundary that asks for a seam. -/
  | seamAtBoundary (l : Nat)
  /-- VECTOR_LAUNCH: the launch time of lane `l`'s next vector. -/
  | vectorLaunch (l : Nat)
  /-- BURST_END: the last driven vector of site `n` ends. -/
  | burstEnd (n : Nat)
  /-- DRAIN_END: site `n`'s compare, capture and completion report have finished. -/
  | drainEnd (n : Nat)
  /-- CONDITION_CHANGE: the first condition events of site `n` that are due take effect. -/
  | conditionChange (n : Nat)
  /-- GRID_POINT: the grid point lane `l` holds for is reached. -/
  | gridPoint (l : Nat)
  /-- SEAM_DEADLINE: no seam came within SITE_SEAM_DEADLINE of site `n`'s seam clock. -/
  | seamDeadline (n : Nat)
  /-- UCODE_LOAD: the UCODE_RELOAD in mode LOAD in entry `e` acts on the container `bytes` read from the host. -/
  | ucodeLoad (e : Nat) (bytes : List Byte)
  /-- UCODE_VERIFY: the UCODE_RELOAD in mode VERIFY in entry `e` acts. -/
  | ucodeVerify (e : Nat)
  /-- UCODE_LOAD_COMPLETE: the load ends; bit k of `bad`: copy k differed at the first read-back, of `lost`: also at the second. -/
  | ucodeLoadComplete (bad : Nat) (lost : Nat)
  /-- COPY_VERIFY: the Steward has verified copy `k`; `bad`: it differed, `lost`: also after the rewrite. -/
  | copyVerify (k : Nat) (bad : Bool) (lost : Bool)
  /-- INTERRUPT_TAKE: sequencer `l` (a lane, or 320 + p the CSQ of pin `p`) takes its lowest pending interrupt at a yield point. -/
  | interruptTake (l : Nat)
  /-- HARD_STOP: sequencer `l` (a lane, or 320 + p) has not taken an interrupt within 256 microcycles. -/
  | hardStop (l : Nat)
  /-- HALT: lane `l` executes its word HALT. -/
  | halt (l : Nat)
  /-- EMIT: lane `l` executes its word EMIT. -/
  | emit (l : Nat)
  /-- EMITT: lane `l` executes its word EMITT. -/
  | emitt (l : Nat)
  /-- REPEAT: lane `l` executes its word REPEAT. -/
  | repeatW (l : Nat)
  /-- IDLE: lane `l` executes its word IDLE. -/
  | idleW (l : Nat)
  /-- LOOP: lane `l` executes its word LOOP. -/
  | loopW (l : Nat)
  /-- ENDLOOP: lane `l` executes its word ENDLOOP. -/
  | endloop (l : Nat)
  /-- CALL: lane `l` executes its word CALL. -/
  | call (l : Nat)
  /-- RET: lane `l` executes its word RET. -/
  | ret (l : Nat)
  /-- JUMP: lane `l` executes its word JUMP. -/
  | jump (l : Nat)
  /-- BRANCH: lane `l` executes its word BRANCH. -/
  | branch (l : Nat)
  /-- MATCH: lane `l` executes its word MATCH. -/
  | matchW (l : Nat)
  /-- MATCH_PASS_END: lane `l` reaches the end of a MATCH pass. -/
  | matchPassEnd (l : Nat)
  /-- WAITCOND: lane `l` executes its word WAITCOND. -/
  | waitcond (l : Nat)
  /-- WAITTRIG: lane `l` executes its word WAITTRIG. -/
  | waittrig (l : Nat)
  /-- WAITTIME: lane `l` executes its word WAITTIME. -/
  | waittime (l : Nat)
  /-- RDV: lane `l` executes its word RDV. -/
  | rdv (l : Nat)
  /-- DECISION_CYCLE: the decision cycle of lane `l`'s synchronised word. -/
  | decisionCycle (l : Nat)
  /-- WAIT_RELEASE: lane `l`'s waiting word releases. -/
  | waitRelease (l : Nat)
  /-- WAIT_TIMEOUT: lane `l`'s waiting word has emitted its count of K vectors. -/
  | waitTimeout (l : Nat)
  /-- SETC: lane `l` executes its word SETC. -/
  | setc (l : Nat)
  /-- MARK: lane `l` executes its word MARK. -/
  | markW (l : Nat)
  /-- STAMP: lane `l` executes its word STAMP. -/
  | stamp (l : Nat)
  /-- LATSRCH: lane `l` executes its word LATSRCH. -/
  | latsrch (l : Nat)
  /-- FAILMODE: lane `l` executes its word FAILMODE. -/
  | failmode (l : Nat)
  /-- SEAM: lane `l` executes its word SEAM. -/
  | seam (l : Nat)
  /-- PSTREAM: lane `l` executes its word PSTREAM. -/
  | pstream (l : Nat)
  /-- LDCNT: lane `l` executes its word LDCNT. -/
  | ldcnt (l : Nat)
  /-- BAD_OP: lane `l` meets a word with a reserved opcode. -/
  | badOp (l : Nat)
  /-- REFILL_REQUEST: the Stream Refill Unit issues its next request. -/
  | refillRequest
  /-- LINE_ARRIVAL: the oldest request of pin `p` is answered. -/
  | lineArrival (p : Nat)
  /-- TSET_LOAD: the TSET_LOAD in entry `e` writes its next image, read from the host. -/
  | tsetLoad (e : Nat) (image : List Byte)
  /-- EDGE_PLL_LOCK_LOSS: quadrant `q`'s edge PLL loses lock. -/
  | edgePllLockLoss (q : Nat)
  /-- PLL_READY: PLL `pll` becomes locked and realigned. -/
  | pllReady (pll : Nat)
  /-- PLL_RESTART_TIMEOUT: a restart of PLL `pll` is not ready within 80 µs. -/
  | pllRestartTimeout (pll : Nat)
  /-- STROBE: the strobe of pin `p`'s next judging slot closes with these comparator readings (CH, CL). -/
  | strobe (p : Nat) (reading : List (Bool × Bool)) (unstable : Bool)
  /-- FAIL_RECORD_TRANSFER: one cycle of the Fail Capture Unit. -/
  | failRecordTransfer
  /-- CAPTURE_BLOCK_WRITE: the oldest closed capture block is written. -/
  | captureBlockWrite
  /-- FR_SITE_CLEAR: a write of `v` to FR_SITE_CTRL of site `n`. -/
  | frSiteClear (n : Nat) (v : Word)
  /-- MEASURE: the MEASURE in entry `e` is checked and opens its job. -/
  | measure (e : Nat)
  /-- JOB_ARM: the job of entry `e` reaches its arm point. -/
  | jobArm (e : Nat)
  /-- QUALIFYING_EDGE: an edge on comparator input `i` (2 × pin, + 1 for CL) at `frac` units of 2⁻¹⁴ ns in this engine cycle. -/
  | qualifyingEdge (i : Nat) (rise : Bool) (frac : Nat)
  /-- JOB_END: the job of entry `e` reaches its end. -/
  | jobEnd (e : Nat)
  /-- JOB_ARM_TIMEOUT: the job of entry `e` has not armed within ARM_TMO. -/
  | jobArmTimeout (e : Nat)
  /-- WAVE_PLAY: the WAVE_PLAY in entry `e` is checked and acts. -/
  | wavePlay (e : Nat)
  /-- WAVE_PREPARATION_COMPLETE: channel `w`'s preparation ends. -/
  | wavePreparationComplete (w : Nat)
  /-- WAVE_START: channel `w`'s start point is reached. -/
  | waveStart (w : Nat)
  /-- SAMPLE_POINT: the next point of the sample clock; `adc` holds the code each ADC delivers, `cmp` the comparator inputs (2 × pin, + 1 for CL) that are high. -/
  | samplePoint (adc : List Int) (cmp : List Nat)
  /-- JUMP_REQUEST: a jump request reaches channel `w`. -/
  | jumpRequest (w : Nat)
  /-- WV_JUMP: a write of `v` to WV_JUMP of channel `w`. -/
  | wvJump (w : Nat) (v : Word)
  /-- WV_STREAM_WP: a write of `v` to WV_STREAM_WP of channel `w`. -/
  | wvStreamWp (w : Nat) (v : Word)
  /-- WAVE_STOP: the WAVE_STOP in entry `e` reaches its channel. -/
  | waveStop (e : Nat)
  /-- WAVE_PARK: channel `w` reaches its stop boundary. -/
  | wavePark (w : Nat)
  /-- WAVE_PLL_LOCK_LOSS: the wave PLL loses lock. -/
  | wavePllLockLoss
  /-- DAC_DISABLE: 1 µs after the DACs went to mid-code. -/
  | dacDisable
  /-- SLOT_ENABLE: a write of `v`, with EN set, to TA_SLOT_CTRL of slot `k`. -/
  | slotEnable (k : Nat) (v : Word)
  /-- SLOT_ARM: a write of `v`, with ARM set, to TA_SLOT_CTRL of slot `k`. -/
  | slotArm (k : Nat) (v : Word)
  /-- TA_FORCE: a write of `v` to TA_FORCE. -/
  | taForce (v : Word)
  /-- FIRING: slot `k` fires on its oldest event. -/
  | firing (k : Nat)
  /-- FORCED_FIRING: slot `k` has not fired for TA_SLOT_AUTO.US. -/
  | forcedFiring (k : Nat)
  /-- ACQUIRE: the ACQUIRE in entry `e` is checked and opens its acquisition. -/
  | acquire (e : Nat)
  /-- ACQUISITION_ARM: channel `w`'s acquisition reaches its arm point. -/
  | acquisitionArm (w : Nat)
  /-- ACQUISITION_END: channel `w`'s acquisition has its last output sample. -/
  | acquisitionEnd (w : Nat)
  /-- ACQUISITION_TIMEOUT: no trigger came within TMO of channel `w`'s arm point. -/
  | acquisitionTimeout (w : Nat)
  /-- SQ_TAIL: a 32-bit write of `v` to the SQ_TAIL doorbell of ring `r`. -/
  | sqTail (r : Nat) (v : Word)
  /-- CQ_HEAD: a 32-bit write of `v` to the CQ_HEAD doorbell of ring `r`. -/
  | cqHead (r : Nat) (v : Word)
  /-- CONTEXT_LOAD: a write of CMD LOAD for ring `r` to RG_CTX_CMD. -/
  | contextLoad (r : Nat)
  /-- CONTEXT_STORE: a write of CMD STORE for ring `r` to RG_CTX_CMD. -/
  | contextStore (r : Nat)
  /-- ENABLE: a write of CMD ENABLE for ring `r` to RG_CTX_CMD. -/
  | enable (r : Nat)
  /-- DISABLE: a write of CMD DISABLE for ring `r` to RG_CTX_CMD. -/
  | disable (r : Nat)
  /-- RESTART: a write of CMD RESTART for ring `r` to RG_CTX_CMD. -/
  | restart (r : Nat)
  /-- CONTEXT_COMMAND_COMPLETE: the context command in progress ends. -/
  | contextCommandComplete
  /-- TOKEN_WRITE: a 32-bit write of `v` to RG_TOKEN[t]. -/
  | tokenWrite (t : Nat) (v : Word)
  /-- DESCRIPTOR_READ: the Ring Engine reads ring `r`'s next pending descriptors; `data` holds what host memory answers, 64 bytes a number. -/
  | descriptorRead (r : Nat) (data : List Nat)
  /-- DISPATCH: the Ring Engine dispatches the next descriptor by class and round robin. -/
  | dispatch
  /-- HOST_READ_ERROR: a host read for the data of entry `e` returns an error or, with `fetch`, the read of ring `e`'s next descriptor does. -/
  | hostReadError (e : Nat) (fetch : Bool)
  /-- COMPLETION_REPORT: the Ring Engine takes the block's completion report of entry `e`. -/
  | completionReport (e : Nat)
  /-- COMPLETION_RECORD_WRITE: the Ring Engine writes the next record that waits for ring `r`. -/
  | completionRecordWrite (r : Nat)
  /-- MSIX_HOLDOFF_END: the holdoff of vector `vec` ends. -/
  | msixHoldoffEnd (vec : Nat)
  /-- TOKEN_WAIT_RELEASE: ring `r`'s held TOKEN_WAIT sees its token satisfied. -/
  | tokenWaitRelease (r : Nat)
  /-- TOKEN_WAIT_TIMEOUT: ring `r`'s held TOKEN_WAIT reaches its TMO_MS. -/
  | tokenWaitTimeout (r : Nat)
  /-- NOP: the NOP in entry `e`. -/
  | nop (e : Nat)
  /-- FENCE: the FENCE in entry `e`. -/
  | fence (e : Nat)
  /-- TOKEN_SET: the TOKEN_SET in entry `e`. -/
  | tokenSet (e : Nat)
  /-- TOKEN_WAIT: ring `r` reaches a TOKEN_WAIT. -/
  | tokenWait (r : Nat)
  /-- REG_WRITE: the REG_WRITE in entry `e` applies the next pairs of its list, read from the host, 16 bytes a number. -/
  | regWrite (e : Nat) (pairs : List Nat)
  /-- REG_READ: the REG_READ in entry `e` reads its next register. -/
  | regRead (e : Nat)
  /-- COPY_IN: the COPY_IN in entry `e` moves its next bytes, read from the host. -/
  | copyIn (e : Nat) (data : List Byte)
  /-- COPY_OUT: the COPY_OUT in entry `e` moves its next burst. -/
  | copyOut (e : Nat)
  /-- FILL: the FILL in entry `e` moves its next burst. -/
  | fill (e : Nat)
  /-- PE_XFER: the PE_XFER in entry `e` sends `tx`, and the companion's reply, if READY comes. -/
  | peXfer (e : Nat) (tx : List Byte) (reply : Option (List Byte))
  /-- PE_XFER_TIMEOUT: READY did not arrive for the PE_XFER in entry `e`. -/
  | peXferTimeout (e : Nat)
  /-- FAIL_FETCH: the FAIL_FETCH in entry `e` copies its next record; `err`: the store's code finds 0 no error, 1 one it corrects, 2 one it does not. -/
  | failFetch (e : Nat) (err : Nat)
  /-- CAPTURE_FETCH: the CAPTURE_FETCH in entry `e` copies its next block. -/
  | captureFetch (e : Nat)
  /-- CAL_REQUEST_GAPS: the CAL_REQUEST in mode GAPS in entry `e`. -/
  | calRequestGaps (e : Nat)
  /-- CAL_REQUEST_FORCE: the CAL_REQUEST in mode FORCE in entry `e`. -/
  | calRequestForce (e : Nat)
  /-- CAL_REQUEST_DISCARD: the CAL_REQUEST in mode DISCARD in entry `e`. -/
  | calRequestDiscard (e : Nat)
  /-- CAL_REPORT: the CAL_REPORT in entry `e` writes its next record. -/
  | calReport (e : Nat)
  /-- JOURNAL_READ: the JOURNAL_READ in entry `e` copies its next entry. -/
  | journalRead (e : Nat)
  /-- TWIN_CHECKPOINT: the TWIN_CHECKPOINT in entry `e`. -/
  | twinCheckpoint (e : Nat)
  /-- FUNCTION_LEVEL_RESET: a function-level reset reaches the Host Interface. -/
  | functionLevelReset
  /-- HBM_REQUEST_SERVICE: pseudo-channel `pc` serves its next request; `err`: 0 none, 1 a corrected error, 2 an uncorrectable one. -/
  | hbmRequestService (pc : Nat) (err : Nat)
  /-- REFRESH_ISSUE: pseudo-channel `pc` issues a REFpb. -/
  | refreshIssue (pc : Nat)
  /-- STACK_TEMPERATURE_READ: the controller reads stack `st`'s temperature report. -/
  | stackTemperatureRead (st : Nat) (report : Nat)
  /-- RETRAIN: pseudo-channel `pc` retrains. -/
  | retrain (pc : Nat) (ok : Bool)
  /-- OPPOINT_WRITE: a write of `v` to MC_CTRL that changes OPPOINT. -/
  | oppointWrite (v : Word)
  /-- OPPOINT_SWITCH: the stacks switch to the new operating point. -/
  | oppointSwitch
  /-- SELF_REFRESH_ENTRY: stack `st` has been idle for SR_IDLE_US. -/
  | selfRefreshEntry (st : Nat)
  /-- SELF_REFRESH_EXIT: stack `st` leaves self-refresh and reports its temperature. -/
  | selfRefreshExit (st : Nat) (report : Nat)
  /-- PATROL_SCRUB: the scrub reads its next word; `err` as for a request. -/
  | patrolScrub (err : Nat)
  /-- REFERENCE_LOSS: the reference has shown no edge for 1 µs. -/
  | referenceLoss
  /-- HOLDOVER_EXPIRY: no reference returned within 100 ms. -/
  | holdoverExpiry
  /-- CORE_PLL_LOCK_LOSS: the core PLL is lost. -/
  | corePllLockLoss
  /-- STEP_COMMIT: a write of `v` to BR_COMMIT. -/
  | stepCommit (v : Word)
  /-- PPS_PULSE: an edge on PPS_IN, `frac` ticks into the engine cycle. -/
  | ppsPulse (frac : Nat)
  /-- DISCIPLINE_HOLDOVER: 2.5 s without an accepted pulse. -/
  | disciplineHoldover
  /-- DISCIPLINE_MODE_WRITE: a write of `v` to BR_CTRL that changes MODE. -/
  | disciplineModeWrite (v : Word)
  /-- AGE_NOW_ADVANCE: a day of Bedrock time passes. -/
  | ageNowAdvance
  /-- PORT_ENABLE: a write of `v` to RN_PORT_CTRL of port `pt` that sets EN. -/
  | portEnable (pt : Nat) (v : Word)
  /-- TRAIN: a TRAIN block of a peer with RATE_MAX `peerRate` is received on port `pt` with block lock. -/
  | train (pt : Nat) (peerRate : Nat)
  /-- TRAINING_END: training of port `pt` at one rate ends; `lanes` have block lock, `fom` their figures of merit; the peer's usable lane mask and WIDTH_MAX. -/
  | trainingEnd (pt : Nat) (lanes : Nat) (fom : List Nat) (peerLanes : Nat) (peerWidth : Nat)
  /-- BLOCK_LOCK_LOSS: block lock is lost on every used lane of port `pt` for 1 µs. -/
  | blockLockLoss (pt : Nat)
  /-- FOM_SAMPLE: lane `lane` measures its FOM; `quiet`: its last 4,096 blocks were all IDLE or SKIP. -/
  | fomSample (lane : Nat) (fom : Nat) (quiet : Bool)
  /-- RATE_MAX_WRITE: a write of `v` to RN_PORT_CTRL of port `pt` that changes RATE_MAX. -/
  | rateMaxWrite (pt : Nat) (v : Word)
  /-- FRAME: the EOF of the frame of class PRIORITY or NORMAL with SEQ `seq` is received on port `pt`; `lanes`: what its lanes carried, lane 0 first, one number a lane, 66 bits a block, the oldest block lowest; `crcOk`: no transmission error damaged it; `elasticOk`: the elastic buffer held. -/
  | frame (pt : Nat) (pri : Bool) (seq : Nat) (crcOk : Bool) (elasticOk : Bool) (lanes : List Nat)
  /-- ACK: port `pt` receives an ACK of class PRIORITY or NORMAL that names `seq`. -/
  | ack (pt : Nat) (pri : Bool) (seq : Nat)
  /-- NAK: port `pt` receives a NAK of class PRIORITY or NORMAL that names `seq`. -/
  | nak (pt : Nat) (pri : Bool) (seq : Nat)
  /-- REPLAY_TIMEOUT: frames of port `pt` are unacknowledged for 8 µs. -/
  | replayTimeout (pt : Nat)
  /-- TIME_EXCHANGE_START: port `pt`, a downstream end, starts a time exchange. -/
  | timeExchangeStart (pt : Nat)
  /-- TREQ: port `pt` receives TREQ of exchange `n`. -/
  | treq (pt : Nat) (n : Nat)
  /-- TIME_EXCHANGE_COMPLETE: port `pt` has the packets of exchange `n`, TRSP stamped `t4`; `intact`: no block is missing, invalid or late. -/
  | timeExchangeComplete (pt : Nat) (n : Nat) (t2 : Nat) (turn : Nat) (dly : Nat) (t4 : Nat) (intact : Bool)
  /-- COND_PACKET: a COND packet is delivered on port `pt`. -/
  | condPacket (pt : Nat) (tag : Nat) (cond : Nat) (value : Bool) (t : Nat)
  /-- START_PACKET: a START packet is delivered on port `pt`. -/
  | startPacket (pt : Nat) (tag : Nat) (t : Nat)
  /-- HALT_PACKET: a HALT packet is delivered on port `pt`. -/
  | haltPacket (pt : Nat) (tag : Nat) (t : Nat)
  /-- MARK_PACKET: a MARK packet is delivered on port `pt`. -/
  | markPacket (pt : Nat) (tag : Nat) (marker : Nat) (t : Nat)
  /-- TRIG_PACKET: a TRIG packet is delivered on port `pt`. -/
  | trigPacket (pt : Nat) (tag : Nat) (slot : Nat) (t : Nat)
  /-- FAULT: FAULT blocks are received on port `pt`. -/
  | faultBlock (pt : Nat)
  /-- TWIN_ENABLE: a write of `v` to TW_CTRL that changes EN. -/
  | twinEnable (v : Word)
  /-- PAIRING: the twin port is UP and the parts have exchanged these. -/
  | pairing (peerImage : Nat) (peerDigest : Nat) (peerSerial : Nat) (peerPrefer : Bool) (peerSolo : Bool)
  /-- SEEK_TIMEOUT: SEEK_MS has passed with no peer. -/
  | seekTimeout
  /-- HEARTBEAT: a heartbeat is due. -/
  | heartbeat
  /-- HEARTBEAT_LOSS: MISS intervals pass without a frame, or FAULT arrives. -/
  | heartbeatLoss
  /-- LEASE_EXPIRY: the ownership lease runs out. -/
  | leaseExpiry
  /-- TWIN_PEER_ASSERTED: TWIN_PEER_L becomes asserted. -/
  | twinPeerAsserted
  /-- PEER_WAIT_TIMEOUT: TWIN_PEER_L stays asserted after heartbeat loss. -/
  | peerWaitTimeout
  /-- TAKEOVER: TWIN_PEER_L has been deasserted for 10 µs, or SWITCH_US has passed since; `skipped`: the descriptors that were not mirrored, as the host memory holds them, 64 bytes a number. -/
  | takeover (skipped : List Nat)
  /-- MIRROR_FRAME: a frame of twin traffic arrives: a mirrored doorbell, command, token write or descriptor, a heartbeat, a part of the sync copy. -/
  | mirrorFrame (kind : Nat) (a : Nat) (b : Nat) (c : Nat)
  /-- COMPLETION_NOTICE: the standby receives the notice of a completion: ring, index, completion slot, the 32-byte record. -/
  | completionNotice (ring : Nat) (idx : Nat) (slot : Nat) (record : Nat)
  /-- NOTICE_ACK: the primary receives the acknowledgement for entry `e`. -/
  | noticeAck (e : Nat)
  /-- SYNC_COMPLETE: the sync copy ends. -/
  | syncComplete
  /-- MODEL_STEP: Kiln takes the window powers of the 24 monitors in mW. -/
  | modelStep (mw : List Nat)
  /-- BOARD_SENSE_READ: the Board Sense master reads the sensor: two bytes, the first received the higher, or no answer or a bus held low. -/
  | boardSenseRead (raw : Option Nat)
  /-- BOUNDARY_WRITE: a host write of `v` to KL_BOUNDARY. -/
  | boundaryWrite (v : Word)
  /-- BOUNDARY_STALE: the boundary value is 10 s old. -/
  | boundaryStale
  /-- SLEEP_REQUEST: a write of `v` to KL_PSTATE. -/
  | sleepRequest (v : Word)
  /-- AUTO_SLEEP: AUTO_MS in READY without host access. -/
  | autoSleep
  /-- SLEEP_ENTRY: the entry conditions of ASLEEP hold. -/
  | sleepEntry
  /-- WAKE: a TLP to a BAR arrives in ASLEEP. -/
  | wake
  /-- PLL_IDLE_STOP: quadrant `q`'s edge PLL has had no need for PLL_IDLE_US. -/
  | pllIdleStop (q : Nat)
  /-- BALLAST_END: HOLD_S after the last burst. -/
  | ballastEnd
  /-- CALIBRATION_STEP: a Strop step on converter `conv` of a free unit completes: the mean of its readings and σ, in ticks unless the kind says otherwise. -/
  | calibrationStep (kind : Nat) (unit : Nat) (conv : Nat) (vals : List Int) (sigma : Nat)
  /-- OUT_RETRY: an OUT unit is retried. -/
  | outRetry (kind : Nat) (unit : Nat)
  /-- RESULT_AGED: a unit's result is older than MAX_AGE_H. -/
  | resultAged (kind : Nat) (unit : Nat)
  /-- FORCED_WINDOW_OPEN: a forced window opens for the site of pin `p`, or for pin `p` where it belongs to none. -/
  | forcedWindowOpen (p : Nat)
  /-- FORCED_WINDOW_END: the forced window of pin `p` ends. -/
  | forcedWindowEnd (p : Nat)
  /-- FAULT_EVENT: the Collector takes the sources raised in one engine cycle. -/
  | faultEvent
  /-- LOG_WRITE: the Collector's queue writes one record. -/
  | logWrite
  /-- EXIT: a write of `v`, with EXIT set, to FC_CTRL. -/
  | exit (v : Word)
  /-- REINIT: a write of `v`, with REINIT set, to FC_CTRL. -/
  | reinit (v : Word)
  /-- PARITY_ERROR: a parity error in the Collector. -/
  | parityError
  /-- FC_INJECT: a write of `v` to FC_INJECT. -/
  | fcInject (v : Word)
  /-- FC_ALIAS: a write of `v` to FC_ALIAS. -/
  | fcAlias (v : Word)
  /-- JOURNAL_WRITE: the Steward writes the oldest entry owed; whether the flash takes it. -/
  | journalWrite (ok : Bool)
  /-- COUNTER_WRAP: the oldest wrap of counter `i` acts. -/
  | counterWrap (i : Nat)
  /-- TL_CFG_WRITE: a write of `v` to TL_CFG[i]. -/
  | tlCfgWrite (i : Nat) (v : Word)
  /-- TL_CNT_WRITE: a write of `v` to TL_CNT[i]. -/
  | tlCntWrite (i : Nat) (part : Part) (v : Word)
  /-- SNAP: a write of `v`, with SNAP set, to TL_CTRL. -/
  | snap (v : Word)
  /-- USER_PAGE_SNAPSHOT: a write to offset 0xFF00 of user page `g`. -/
  | userPageSnapshot (g : Nat)
  /-- SAMPLE_CAPTURE: the sampler serves its oldest request. -/
  | sampleCapture
  /-- TL_SAMPLE_HI_READ: a read of TL_SAMPLE_HI. -/
  | tlSampleHiRead
  /-- POWER_ON: AON power-good starts boot with these outcomes. -/
  | powerOn (boot : BootResult)
  /-- FUNDAMENTAL_RESET: HX_PERST_L is asserted. -/
  | fundamentalReset (boot : BootResult)
  /-- WARM_RESET: a write of `v` to DEV_RESET. -/
  | warmReset (v : Word) (boot : BootResult)
  /-- WINDOW_READ: a write of `v`, CMD READ, to GD_WIN_CMD. -/
  | windowRead (v : Word)
  /-- WINDOW_PROGRAM: a write of `v`, CMD PROGRAM, to GD_WIN_CMD. -/
  | windowProgram (v : Word)
  /-- WINDOW_ERASE: a write of `v`, CMD ERASE, to GD_WIN_CMD. -/
  | windowErase (v : Word)
  /-- OTP_CUST: a write of `v`, CMD OTP_CUST, to GD_WIN_CMD. -/
  | otpCust (v : Word)
  /-- OTP_SEAL: a write of `v`, CMD OTP_SEAL, to GD_WIN_CMD. -/
  | otpSeal (v : Word)
  /-- WINDOW_COMMAND_COMPLETE: the flash reports the window command done. -/
  | windowCommandComplete (ok : Bool)
  /-- WINDOW_COMMAND_TIMEOUT: the window command is not done within 5 s. -/
  | windowCommandTimeout
  /-- EXTEST: an IEEE 1149.1 EXTEST drives the balls with `balls`. -/
  | extest (balls : Nat)
  /-- SUPPLY_REMOVAL: the supplies are removed. -/
  | supplyRemoval
  /-- HX_PERST_L_DEASSERTION: HX_PERST_L is deasserted. -/
  | hxPerstDeassertion
  /-- REFERENCE_RETURN: the selected reference shows edges again. -/
  | referenceReturn
  /-- TWIN_PEER_L_DEASSERTION: TWIN_PEER_L becomes deasserted. -/
  | twinPeerDeassertion
  /-- PEER_FAULT_CLEAR: IDLE blocks return in place of FAULT on port `pt`. -/
  | peerFaultClear (pt : Nat)
  /-- IMAGE_OPCODE: sequencer `l` (a lane, or 320 + p) runs one microword of an image's own routine. -/
  | imageOpcode (l : Nat)
  /-- KEEP_OPEN_ROW_CLOSE: a held row of bank `bank` of pseudo-channel `pc` is closed. -/
  | keepOpenRowClose (pc : Nat) (bank : Nat)
  /-- TRAINING_STEP_END: a training step of port `pt` ends. -/
  | trainingStepEnd (pt : Nat)
  deriving DecidableEq, Repr

end Sys2Proof
end

