-- ==== Sys2Proof/Decode.lean ====
section
/-!
DEFINITION. The command that a word spells by the bits of the table of operations: the table gives no row any bits (a command is
an access, a packet or an event, never a word), so no word spells one.
-/
namespace Sys2Proof

/-- The command that an `nbits`-bit word `w` spells: none, for the table gives no row an encoding. -/
def decodeTableWord (_nbits _w : Nat) : Option Instr := none

end Sys2Proof
end

