-- ==== Sys2Proof/Config.lean ====
section
/-!
DEFINITION. What the manual leaves to the part or leaves open: constants without a body, so that no proof can see a value.
-/
namespace Sys2Proof

/-- The `k`-th value that the manual leaves open (log entry 5): nothing is known of it. -/
opaque Config.freeValue : Nat → BitVec 128

/-- The `k`-th choice that the manual leaves open (log entry 5). -/
opaque Config.freeBool : Nat → Bool

/-- SHA-384 of a payload, as a 384-bit number (R93; log entry 6). -/
opaque Config.sha384 : List Byte → BitVec 384

/-- Whether an ECDSA P-384 signature over a header verifies under the key of a slot (R93; log entry 6). -/
opaque Config.ecdsaOk : (header signature key : List Byte) → Bool

/-- A Subsoil quantity in ticks as Strop forms it at boot for a band (R428): the unit's kind, its number, the converter, the band. -/
opaque Config.subsoil : (kind unit conv band : Nat) → Int

/-- What Colquel programmed into a byte of Subsoil (R484). -/
opaque Config.otp : Nat → Byte

/-- The shares S (R409): the part of monitor `m`'s power that goes to node `i`. -/
opaque Config.share : (i m : Nat) → Rat

/-- The conductances G (R409). -/
opaque Config.conduct : (i j : Nat) → Rat

/-- The heat capacities C (R409). -/
opaque Config.heatCap : Nat → Rat

/-- The limits of a monitor's reading and its maximum power, in mW (R408): least, most, maximum. -/
opaque Config.monLimit : Nat → Nat × Nat × Nat

end Sys2Proof
end

