-- ==== Sys2Proof/Machine/Tab.lean ====
section
/-!
DEFINITION. A table by number: memories, register fields and the records of the units. An entry that is not listed reads
as the default `d k`. The list is in ONE canonical form: keys strictly rising, no entry equal to its default.
-/
namespace Sys2Proof.Machine

/-- A sparse table. -/
abbrev Tab (α : Type) := List (Nat × α)

/-- The entry of key `n`. -/
def tget {α : Type} (d : Nat → α) : Tab α → Nat → α
  | [], n => d n
  | (k, v) :: t, n => if k = n then v else tget d t n

/-- The table without key `n`. -/
def tdrop {α : Type} (t : Tab α) (n : Nat) : Tab α := t.filter (fun c => c.1 != n)

/-- `(n, v)` put before the first greater key. -/
def tins {α : Type} (t : Tab α) (n : Nat) (v : α) : Tab α :=
  match t with
  | [] => [(n, v)]
  | (k, w) :: t => if n < k then (n, v) :: (k, w) :: t else (k, w) :: tins t n v

/-- The table with key `n` at `v`; the default is not listed. -/
def tset {α : Type} [DecidableEq α] (d : Nat → α) (t : Tab α) (n : Nat) (v : α) : Tab α :=
  if v = d n then tdrop t n else tins (tdrop t n) n v

/-- The canonical form, seen from the keys above `lo`. -/
def tcanonFrom {α : Type} [DecidableEq α] (d : Nat → α) : Nat → Tab α → Bool
  | _, [] => true
  | lo, (k, v) :: t => decide (lo ≤ k) && decide (v ≠ d k) && tcanonFrom d (k + 1) t

/-- The canonical form of a table. -/
def tcanon {α : Type} [DecidableEq α] (d : Nat → α) (t : Tab α) : Bool := tcanonFrom d 0 t

/-- The bytes of a memory, an unlisted one reading as `0`: pattern memory, host memory, buffers. -/
abbrev Mem := Tab Byte

/-- What an unlisted byte of a memory reads as (DESIGN CHOICE, log entry 3; unsafe: the manual gives no power-on contents). -/
def byte0 : Nat → Byte := fun _ => 0

/-- What an erased flash byte reads as (PRESUMED, log entry 4). -/
def byteF : Nat → Byte := fun _ => 0xFF

/-- `n` bytes from address `a`. -/
def readMem (d : Nat → Byte) (m : Mem) (a : Nat) : Nat → List Byte
  | 0 => []
  | n + 1 => tget d m a :: readMem d m (a + 1) n

/-- The bytes `bs` written from address `a`. -/
def writeMem (d : Nat → Byte) (m : Mem) (a : Nat) : List Byte → Mem
  | [] => m
  | b :: t => writeMem d (tset d m a b) (a + 1) t

end Sys2Proof.Machine
end

