-- ==== Sys2Proof/Machine/Records.lean ====
section
/-!
DEFINITION. The records of the units: what the manual gives a site, a sequencer, a pin, a stream, a ring, a descriptor in
flight and the other units beyond their register fields. A record that is not listed in its table is `{}`, its value at
reset. Times are local ticks of 2⁻¹⁴ ns (R6) unless a field says otherwise.
-/
namespace Sys2Proof.Machine

/-- A stream position (R150): entry, vector offset in the entry, and for a RUN entry the byte offset of the present record
and the vectors already drawn from it (R146). -/
structure Pos where
  entry : Nat := 0
  off : Nat := 0
  recb : Nat := 0
  sub : Nat := 0
  deriving DecidableEq, Repr

/-- A stream table entry (R145). -/
structure SEntry where
  count : Nat := 0
  addr : Nat := 0
  typ : Nat := 0
  code : Nat := 0
  phint : Bool := false
  side : Nat := 0
  hint : Nat := 0
  deriving DecidableEq, Repr

/-- A line of a Vector Line Buffer that is not free (R153): line `idx` of the data of `entry`; `arrived` when its data is in
the buffer, `drawn` when every vector of it has been drawn, `hint` for a page hint's line held apart (R157). -/
structure Line where
  used : Bool := false
  entry : Nat := 0
  idx : Nat := 0
  arrived : Bool := false
  drawn : Bool := false
  hint : Bool := false
  deriving DecidableEq, Repr

/-- What a hold belongs to: a loop counter, a MATCH, a call-stack depth (R158 to R161). -/
inductive HoldKind where
  | loop | pass | call
  deriving DecidableEq, Repr

/-- A hold of buffer lines: the slots of the lines it holds; a released hold holds none (R158 to R160). -/
structure Hold where
  kind : HoldKind
  id : Nat
  lines : List Nat
  pinned : Bool
  released : Bool
  deriving DecidableEq, Repr

/-- A refill request in flight: `n` lines from line `line` of entry `entry`'s data (R156). -/
structure Refill where
  entry : Nat
  line : Nat
  n : Nat
  hint : Bool
  deriving DecidableEq, Repr

/-- A control entry of a compare-side word (R131): the word's OP, ARG16 and ARG32. -/
structure Ctl where
  op : Nat
  a16 : Nat
  a32 : Nat
  deriving DecidableEq, Repr

/-- A vector in the Vector FIFO (R109): its pin code, its unit intervals for a BURST vector (R147), its timing set, the
word that emitted it, that word's flags, whether VCOUNT counts it (R120), the seam asked for at its start (1: R136, 2: R137),
the Bedrock time it waits for after an RDV (R58), the control entries and markers attached to it, whether it stands for
a stream error (R149), whether it ends its word or pass (R194), when it
entered the FIFO, the pin whose data came late for it (R111, R163), and the sequence word that emitted it. -/
structure Vec where
  code : Nat
  ui : Nat
  burst : Bool
  tset : Nat
  waddr : Nat
  op : Nat
  capt : Bool
  maskf : Bool
  stretch : Bool
  counts : Bool
  seam : Nat
  grid : Option Nat
  ctl : List Ctl
  marks : List Nat
  bad : Bool
  endMatch : Bool
  enter : Nat := 0
  late : Option Nat := none
  word : Nat := 0
  deriving DecidableEq, Repr

/-- A transition asked for on a drive line, before R179 and R180 are applied: the tick, the number of its vector, the line
(DE when `de`), the level. -/
structure Trans where
  at_ : Int
  vec : Nat
  de : Bool
  level : Bool
  deriving DecidableEq, Repr

/-- An event placed on a drive line (R185): coarse count of edge-clock periods, interpolator code, line, level. -/
structure Edge where
  coarse : Int
  code : Nat
  de : Bool
  level : Bool
  deriving DecidableEq, Repr

/-- The drive side of a pin: Vector FIFO, stream and buffer, formatter. `tNext` is the Bedrock time at which the vector at
the head of the FIFO begins. -/
structure Pin where
  tNext : Nat := 0
  fifo : List Vec := []
  pos : Pos := {}
  fetchE : Nat := 0
  fetchL : Nat := 0
  lines : Tab Line := []
  holds : List Hold := []
  marks : Tab Pos := []
  stk : List (Option Pos) := []
  ents : Tab (Option SEntry) := []
  hintOf : Option Nat := none
  /-- The hinted entry as it was read, the next line of its page to ask for and the end of the page (R157). -/
  hintEnt : Option SEntry := none
  hintLine : Nat := 0
  hintEnd : Nat := 0
  refills : List Refill := []
  /-- The vectors that the fetched records of the RUN entry under fetch cover, and the byte from which they count. -/
  runGot : Nat := 0
  runFrom : Nat := 0
  /-- Lines fetched before this position count as fetched again (PIN_STREAM_COUNT.REFETCH). -/
  again : Nat × Nat := (0, 0)
  rep : Option Vec := none
  /-- The vector placed last (EMIT_REPEAT of R76), and the vector driven last. -/
  lastVec : Option Vec := none
  prev : Option Vec := none
  prevDrv : Bool := false
  level : Option Bool := none
  vecNo : Nat := 0
  vcount : Nat := 0
  trans : List Trans := []
  cur : Bool × Bool := (false, false)
  lastDD : Option Int := none
  lastDE : Option Int := none
  placed : List Edge := []
  dd : Bool := false
  de : Bool := false
  once : Nat := 0
  /-- The codes that the trim converters DD_R, DD_F, DE_ON, DE_OFF, STB_H, STB_L carry, those that Strop holds for them, and whether an
  accepted result for the carried band awaits a seam (R186, R427, R439). -/
  trims : List Int := []
  trimNew : List Int := []
  trimOwed : Bool := false
  trimBand : Option Nat := none
  trimAt : Option Nat := none
  idleAt : Option Nat := none
  held : Bool := false
  forced : Bool := false
  pllLost : Bool := false
  /-- The pin's QPIN domain is off: its outputs are high-impedance (R492). -/
  domOff : Bool := false
  deriving DecidableEq, Repr

/-- What a sequencer is doing (the DSQ STATE of R140 and the holds of R112 to R130). -/
inductive Phase where
  /-- No burst. -/
  | stopped
  /-- The next word is to be taken. -/
  | ready
  /-- An emitting action places vectors. -/
  | emit
  /-- A synchronised word waits for its decision cycle. -/
  | sync
  /-- A waiting word emits K vectors (WAITCOND, WAITTRIG, WAITTIME). -/
  | wait
  /-- A waiting word has seen its release. -/
  | released
  /-- A waiting word has reached its count. -/
  | timedOut
  /-- MATCH has placed a pass and waits for its end. -/
  | passEnd
  /-- HALT was executed. -/
  | halted
  /-- An interrupt handler runs. -/
  | handler
  deriving DecidableEq, Repr

/-- What an emitting action emits (VEC of R76). -/
inductive EmitKind where
  | stream | side | repeat_ | idle | k
  deriving DecidableEq, Repr

/-- A program that sequencers run: the shared program of site `n` is lane `n`, the private program of pin `p` is lane
`64 + p` (R46, R47, R108). -/
structure Lane where
  phase : Phase := .stopped
  base : Nat := 0
  len : Nat := 0
  waddr : Nat := 0
  cnt : Tab Nat := []
  act : Nat := 0
  stack : List (Nat × Bool) := []
  gr : Tab Nat := []
  wait : Nat := 0
  complete : Bool := false
  /-- The time from which the sequencer can take its next word (word costs, R116). -/
  freeAt : Nat := 0
  /-- The emitting action in hand: kind, vectors still to place. -/
  kind : EmitKind := .stream
  left : Nat := 0
  /-- The passes of the present MATCH. -/
  passes : Nat := 0
  /-- The boundary S of the present synchronised group and the cycle at which its last word completes (R113). -/
  groupS : Option Nat := none
  groupAt : Nat := 0
  /-- What the words since that group have cost, in ticks (R114). -/
  costs : Nat := 0
  /-- What is attached to the next vector emitted; the seams of the boundaries before RDV holds apart: boundary and kind. -/
  seamNext : Nat := 0
  gridNext : Option Nat := none
  ctlNext : List Ctl := []
  marksNext : List Nat := []
  rests : List (Nat × Nat) := []
  /-- The Word Buffer (R46, R103): the words delivered, as runs (first word, words), and the window pages asked for. -/
  words : List (Nat × List Nat) := []
  pages : List Nat := []
  /-- Placing (R110): when the run in hand began to place, how many vectors it has placed since, whether room or data held it up, and
  the lowest pin whose data did. -/
  placeT : Nat := 0
  placeK : Nat := 0
  held : Bool := false
  heldData : Option Nat := none
  /-- Vectors that the present word has placed (R194). -/
  wordVecs : Nat := 0
  /-- The fault slot the lane has met; it takes effect at the boundary of the next vector (R141). -/
  fault : Option Nat := none
  /-- Vectors placed since the burst began. -/
  emitted : Nat := 0
  lastOp : Nat := 0
  firstAt : Option Nat := none
  /-- Pending interrupts (R83): kind and time of the raise. -/
  irqs : List (Nat × Nat) := []
  /-- The resume address of an interrupt (R85), whether the actions of a DISPATCH there are committed, the kind whose handler runs, and whether
  an IRET stands in the stitch in hand (R79). -/
  link : Option Nat := none
  linkY : Bool := false
  hand : Option Nat := none
  ret : Bool := false
  /-- Microcode (R74 to R81): the microword reached, none where the sequencer stands at its dispatch; the nano-words of the present stitch,
  not yet committed, oldest first; whether the microword reached is a yield point whose stitch is committed; the opcode whose meaning a
  blocking SITE action has (R76), whether the wait timer expired, whether the extension word was consumed, the timing set last selected. -/
  upc : Option Nat := none
  acc : List Nat := []
  yields : Bool := false
  asOp : Option Nat := none
  tmo : Bool := false
  skip : Bool := false
  tsel : Nat := 0
  deriving DecidableEq, Repr

/-- A condition event under way (R56): the engine cycle in which it takes effect, the hardware source code or, for a SETC
or span write, 256 plus the condition, the value, whether it is the change of span-wide conditions (R61), and the Bedrock time of the event. -/
structure CondEv where
  cycle : Nat
  src : Nat
  value : Bool
  span : Bool
  at_ : Nat
  deriving DecidableEq, Repr

/-- A site beyond its registers. -/
structure Site where
  idleSince : Nat := 0
  /-- The tracker entry of the RUN that holds the site, those of the STOPs accepted, that of the RESUME accepted. -/
  run : Option Nat := none
  stops : List Nat := []
  resume : Option Nat := none
  startSeam : Bool := false
  mode : Nat := 0
  start : Option Nat := none
  resumeAt : Option Nat := none
  /-- PREPARING: when it began, and whether a resource was stopped (R307). -/
  prepAt : Nat := 0
  woke : Bool := false
  /-- The RUN found the site in DOZE; the waking time of its result in µs (R307). -/
  dozed : Bool := false
  wakeUs : Nat := 0
  /-- The time in µs that the device took to leave ASLEEP for this RUN (R307). -/
  slept : Nat := 0
  armedAt : Nat := 0
  conds : List CondEv := []
  /-- The last changes of the conditions, newest first: engine cycle, the condition word before (R56, R115). -/
  condLog : List (Nat × Nat) := []
  /-- Whether group COND was pending before the staged write that reached it last (R19). -/
  condWas : Bool := false
  condAt : Option Nat := none
  seamClock : Option Nat := none
  seamNoted : Bool := false
  stale : Bool := false
  stretched : Bool := false
  pausePend : Bool := false
  /-- Why the site stopped: rank of R328 and status; VCOUNT at the halt. -/
  cause : Option (Nat × Nat) := none
  causeAt : Nat := 0
  ended : Bool := false
  endAt : Option Nat := none
  csqStop : Bool := false
  stretching : Nat := 0
  underPin : Option Nat := none
  once : Nat := 0
  fails : Nat := 0
  drops : Nat := 0
  matchNow : Bool := false
  lockNow : Bool := false
  anyfail : Bool := false
  /-- When a FAIL_STOP reaches the Site Fabric (R222). -/
  failStop : Option Nat := none
  condPend : Bool := false
  /-- Why a site that is PREPARING or ARMED goes back to IDLE at the end of this engine cycle: rank of R328 and status. -/
  early : Option (Nat × Nat) := none
  /-- When a span halt takes effect (R64); when the site last ended a rest as long as a forced window (R435). -/
  spanHalt : Option Nat := none
  rested : Nat := 0
  /-- When the drive of the last burst ended (R240). -/
  lastEnd : Nat := 0
  /-- The slots whose TRIG condition this burst has had (R279). -/
  trigs : Nat := 0
  deriving DecidableEq, Repr

/-- A descriptor in the Operation Tracker (R299): `id` gives the dispatch order, `desc` the 64 bytes as one number (R4).
`started` and `touched` are the points of R323. -/
structure Entry where
  id : Nat
  ring : Nat
  idx : Nat
  desc : Nat
  begun : Bool := false
  /-- Bedrock time of the dispatch, and the number of the first signal after it. -/
  born : Nat := 0
  /-- The engine cycle after the one in which a RUN reached the Site Fabric (R100). -/
  reach : Nat := 0
  sig0 : Nat := 0
  started : Bool := false
  touched : Bool := false
  stopping : Bool := false
  progress : Nat := 0
  due : Nat := 0
  done : Bool := false
  status : Nat := 0
  result : Nat := 0
  reported : Bool := false
  time : Nat := 0
  /-- The record waits for the twin's acknowledgement (R399). -/
  noticed : Bool := false
  acked : Bool := false
  mirrored : Bool := false
  /-- The completion slot and phase given with the notice (R399); on a standby, whether the entry stands for a descriptor that was not
  mirrored. -/
  slot : Option (Nat × Bool) := none
  gap : Bool := false
  /-- The entry whose record must be written first (R304: a STOP after the RUN it stopped). -/
  after : Option Nat := none
  deriving DecidableEq, Repr

/-! ## The compare side -/

/-- An entry of the elastic FIFO (R119, R194): the slot of its vector, what the vector carried, the code it acts as (R144), and
the word that emitted it, the strobe timing it was launched with (R172, R195): CMODE, opening and closing after S with the deskew, unit interval. -/
structure Exp where
  slot : Nat
  code : Nat
  acts : Nat
  ui : Nat
  tset : Nat
  waddr : Nat
  vcount : Nat
  capt : Bool
  maskf : Bool
  wordEnd : Bool
  word : Nat
  ctl : List Ctl
  cmode : Nat
  opens : Int
  closes : Int
  unit : Nat
  deriving DecidableEq, Repr

/-- A latency search in hand (R206, R207): its offset `o0`, window, marker length, the marker vectors taken, the readings of
every slot since (slot, the reading and the four of the unit intervals), and the last reading before it. -/
structure Search where
  o0 : Nat
  win : Nat
  len : Nat
  slot0 : Nat
  vcount0 : Nat
  marks : List Exp
  reads : List (Nat × List Nat)
  prev : Option Nat
  deriving DecidableEq, Repr

/-- A capture block (R224): first vector's VCOUNT and word, last vector's VCOUNT, whether it holds B vectors, the order of closing, the positions,
and GAP. -/
structure CapBlock where
  no : Nat
  pin : Nat
  site : Nat
  vcount : Nat
  waddr : Nat
  last : Nat
  burst : Bool
  data : List Nat
  gap : Bool
  deriving DecidableEq, Repr

/-- The Compare Sequencer of a pin. -/
structure Csq where
  exps : List Exp := []
  /-- The start times of the slots not yet used for a judgement (R193), and the number of the next real slot. -/
  slots : List (Nat × Nat) := []
  slotNo : Nat := 0
  nextSlot : Nat := 0
  /-- The start of the judging slot in hand. -/
  slotT : Nat := 0
  lastClose : Option Int := none
  lastS : Nat := 0
  lastPer : Nat := 0
  acc : Option Bool := none
  pub : Option Bool := none
  prevRead : Option Nat := none
  search : Option Search := none
  lossRun : Nat := 0
  mode : Nat := 0
  /-- Microcode (R73 to R87), as for a lane: `micro` while the CSQ runs an image's own microcode; the word it was dispatched on (R119, R131),
  whether that word is not complete, whether the pause in hand has been raised for it (R83), whether fails are masked, the readings of slots strobed and not judged (slot, readings, close). -/
  micro : Bool := false
  upc : Option Nat := none
  macc : List Nat := []
  yields : Bool := false
  freeAt : Nat := 0
  cur : Option Nat := none
  wordOpen : Bool := false
  irqs : List (Nat × Nat) := []
  paused : Bool := false
  /-- The word end came after its last vector was taken: it acts at once (R194). -/
  endNow : Bool := false
  link : Option Nat := none
  linkY : Bool := false
  hand : Option Nat := none
  ret : Bool := false
  /-- An ABORT has been raised: what the CSQ takes is discarded (R84). -/
  dead : Bool := false
  /-- The present fine strobe offset (R197); a RELEASE waits for the vector in hand (R211); the slot last used for a judgement (R198). -/
  fine : Int := 0
  relNext : Bool := false
  used : Option Nat := none
  maskOn : Bool := false
  samples : List (Nat × List Nat × Int) := []
  /-- The edges of the last strobe as coarse counts and interpolator codes (R185). -/
  placed : List (Int × Nat) := []
  cap : Option CapBlock := none
  gap : Bool := false
  once : Nat := 0
  deriving DecidableEq, Repr

/-- A fail record on its way (R213, R214): its site, pin, strobe close and 128 bits. -/
structure FailRec where
  site : Nat
  pin : Nat
  close : Int
  data : Nat
  deriving DecidableEq, Repr

/-- The fail records and capture blocks of a site (R215 to R217, R226): the records in the store, how many are in the spill
region, whether the burst has spilled, the run of drops in hand (its first record, its length, the strobe close of the first), the blocks written. -/
structure FailSite where
  store : List Nat := []
  spilled : Nat := 0
  spilling : Bool := false
  run : Option (Nat × Nat × Int) := none
  noted : Bool := false
  capNoted : Bool := false
  blocks : Nat := 0
  deriving DecidableEq, Repr

/-! ## The Control Store -/

/-- The Control Store (R71, R72): the image's microwords, nano-words, DSQ and CSQ dispatch tables, which every copy in service holds, and per
copy the words in which it differs (R97): key 4 × index + store (0 micro, 1 nano, 2 DSQ, 3 CSQ), the word in the copy.
`load`: the tracker entry of the load in hand, with the payload and slot to be written; `verify`: the tracker entry of the
verify in hand, the next copy, the copies lost and skipped. -/
structure CtlStore where
  micro : Tab Nat := []
  nano : Tab Nat := []
  dsq : Tab Nat := []
  csq : Tab Nat := []
  differs : Tab (List (Nat × Nat)) := []
  load : Option Nat := none
  payload : List (BitVec 8) := []
  slot : Nat := 0
  verify : Option Nat := none
  vnext : Nat := 0
  vlost : Nat := 0
  vskip : Nat := 0
  /-- When each copy was last verified, in local ticks; a copy to verify as soon as its cluster is idle (R89, R98). -/
  lastVerify : Tab Nat := []
  wanted : Nat := 0
  deriving DecidableEq, Repr

/-! ## Between the units -/

/-- An entry that the Steward owes the journal (R487): time and BOOTS of the event, KIND, the fault record, none while the
Collector has not yet recorded the event of source `src`, and DATA at its place in the entry. -/
structure Owed where
  t : Nat
  boots : Nat
  kind : Nat
  src : Nat
  record : Option Nat
  data : Nat
  deriving DecidableEq, Repr

/-- What one unit tells the others at a Bedrock time: an edge of an EV pin, a marker of a sequence program, a condition
change, a wave marker, a trigger firing. -/
inductive SigKind where
  | ev | mark | cond | wmark | trig
  deriving DecidableEq, Repr

/-- One signal: its running number, kind, time, unit (EV pin, site, channel, slot), index in the unit, level. -/
structure Signal where
  no : Nat
  kind : SigKind
  t : Nat
  unit : Nat
  idx : Nat
  level : Bool
  deriving DecidableEq, Repr

/-- The kinds of span packet (R385). -/
inductive PktKind where
  | cond | start | halt | mark | trig
  deriving DecidableEq, Repr

/-- A span packet: kind, TAG, ARG, origin time (R385). -/
structure SpanPkt where
  kind : PktKind
  tag : Nat
  arg : Nat
  t : Nat
  deriving DecidableEq, Repr

/-- A frame of twin traffic (R396, R399, R406): kind 0 SQ_TAIL (ring, value), 1 CQ_HEAD (ring, value), 2 context command (ring,
command, window), 3 token write (token, value), 4 descriptor (ring, index, its 64 bytes), 5 heartbeat, 6 completion notice (ring, index
and slot, its record), 7 acknowledgement of a notice (ring, index), 8 slot visible (completion ring, slot), 9 a ring context of the sync
copy (ring, window, indices), 10 digests (image, digest), 11 HBM bytes of the sync copy (address, length, bytes), 12 a token of the sync
copy (token, value). -/
structure Mirror where
  kind : Nat
  a : Nat
  b : Nat
  c : Nat
  deriving DecidableEq, Repr

/-- A frame sent and not acknowledged (R373): SEQ, when it was last sent and how often, its span packets or its twin traffic. -/
structure TxFrame where
  seq : Nat
  at_ : Nat
  sent : Nat
  pkts : List SpanPkt
  twin : List Mirror
  deriving DecidableEq, Repr

/-- A Rein port beyond its registers: the frames not acknowledged and the next SEQ of each class (PRIORITY, NORMAL), the SEQ expected
and whether frames are discarded until it comes, the packets sent or received in the last 1 µs; the rates that failed (a mask), the last
rate and width that trained, when the step in hand began, when the RATE_MAX write that waits was made, when DETECT
may go on; the time exchange: number, t₁, when the last began, the last 16 round trips accepted, how many in all; the answer last
sent (n, t₂, t₃); the blocks of the PRIORITY frame or the TIME slots last sent, lane by lane (R370). -/
structure RnPort where
  txP : List TxFrame := []
  txN : List TxFrame := []
  seqP : Nat := 0
  seqN : Nat := 0
  rxP : Nat := 0
  rxN : Nat := 0
  nakP : Bool := false
  nakN : Bool := false
  recent : List (SpanPkt × Nat) := []
  failed : Nat := 0
  good : Option (Nat × Nat) := none
  step : Option Nat := none
  pendAt : Option Nat := none
  detectAt : Nat := 0
  ex : Nat := 0
  t1 : Option Nat := none
  exAt : Option Nat := none
  rts : List Int := []
  accepts : Nat := 0
  answered : Option (Nat × Nat × Nat) := none
  out : List (List Nat) := []
  deriving DecidableEq, Repr

/-- A Rein lane beyond its registers (R374, R379): since when its FOM is below FOM_MIN, until when it makes no revert. -/
structure RnLane where
  lowAt : Option Nat := none
  calmTo : Nat := 0
  deriving DecidableEq, Repr

/-! ## The Ring Engine -/

/-- A ring (R289 to R297): its context (bases in units of 4 KB), state, indices and phase, whether its completion side is enabled,
the records written and not freed, the slots allotted to notices and not written, the slots freed in cycle `freedAt`; the descriptors
read and not dispatched (index, its 64 bytes or none where the read failed); since when a TOKEN_WAIT holds it; from which tracker
entry on, and up to which, the records are written in ring order (R325, R329, R403). -/
structure Ring where
  sqBase : Nat := 0
  sqLog : Nat := 4
  cqBase : Nat := 0
  cqLog : Nat := 4
  holdoff : Nat := 0
  window : Nat := 256
  weight : Nat := 1
  cls : Nat := 2
  vector : Nat := 0
  cq : Nat := 0
  restart : Nat := 0
  state : Nat := 0
  fetch : Nat := 0
  lastErr : Nat := 0
  tail : Nat := 0
  head : Nat := 0
  cqTail : Nat := 0
  phase : Bool := true
  cqOn : Bool := false
  unread : Nat := 0
  owed : Nat := 0
  freedAt : Nat := 0
  freed : Nat := 0
  descs : List (Nat × Option Nat) := []
  waitAt : Option Nat := none
  order : Option Nat := none
  orderTo : Option Nat := none
  /-- The engine cycle after the one in which the last record of its descriptors became visible (R315). -/
  recAt : Nat := 0
  deriving DecidableEq, Repr

/-- An MSI-X vector (R309): its pending bit, whether a request waits for the end of a holdoff, when that is, when the last message left. -/
structure MsiVec where
  pba : Bool := false
  req : Bool := false
  hold : Nat := 0
  sent : Option Nat := none
  deriving DecidableEq, Repr

/-- The changes of one token in one engine cycle (R310, R311): the cycle plus 1, the value before, the MMIO write, the TOKEN_SETs
(MODE ADD, VALUE) in their order, the notifications. -/
structure TokenCyc where
  cycle : Nat := 0
  before : Nat := 0
  mmio : Option Nat := none
  sets : List (Bool × Nat) := []
  notes : Nat := 0
  deriving DecidableEq, Repr

/-- What the function holds of PCI Express beyond BAR0 (R286, R309, R350): vendor, device, revision and class code, the MSI-X function
mask, the uncorrectable errors that AER has reported (log entry 36). -/
structure Pci where
  vendor : Nat := 0x1F3A
  device : Nat := 0x4256
  revision : Nat := 0xB1
  classCode : Nat := 0x11_8000
  msixMask : Bool := false
  aer : Nat := 0
  deriving DecidableEq, Repr

/-- The Ring Engine as a whole: the contexts on die, most recently used first (R290), per class the ring whose turn it is and the
descriptors of the turn (R298), BULK dispatches since BACKGROUND was served, when it may dispatch next, and per token the changes of
the last engine cycle in which it changed. -/
structure RingEng where
  cache : List Nat := []
  turn : Tab (Nat × Nat) := []
  bulk : Nat := 0
  freeAt : Nat := 0
  tokens : Tab TokenCyc := []
  /-- Enable Relaxed Ordering of the function's Device Control register (R321; log entry 87). -/
  relaxed : Bool := true
  deriving DecidableEq, Repr

/-! ## Twin pairs -/

/-- Twin pairing beyond its registers (R392 to R406): the mirror queue, descriptors mirrored since the last checkpoint; when SEEKING
began, when the heartbeat was lost, since when TWIN_PEER_L is asserted or deasserted, when TWIN_OWN_L was asserted for a takeover, when
the lease ends, when a frame was last received and a heartbeat last sent; on the standby the records acknowledged and not reported visible
(completion ring, slot, record), the notices of entries not yet free (ring, index, record), and per ring the next index to be mirrored
plus 1; the peer's image and digest after a reload, and whether this part's own reload waits for them. -/
structure Tw where
  queue : List Mirror := []
  since : Nat := 0
  seekAt : Nat := 0
  lostAt : Option Nat := none
  peerOnAt : Nat := 0
  peerOffAt : Nat := 0
  ownAt : Option Nat := none
  lease : Nat := 0
  rxAt : Nat := 0
  hbAt : Nat := 0
  acked : List (Nat × Nat × Nat) := []
  notes : List (Nat × Nat × Nat) := []
  next : Tab Nat := []
  peerDig : Option (Nat × Nat) := none
  reloaded : Bool := false
  deriving DecidableEq, Repr

/-! ## Time measurement -/

/-- An edge that an input has detected (R230, R235): T, input, polarity, converter, sequence count, whether it has no stamp. -/
structure Stamp where
  t : Nat
  inp : Nat
  fall : Bool
  cap : Bool
  seq : Nat
  lost : Bool
  deriving DecidableEq, Repr

/-- What a STAMP word selects (R241): from which T, the inputs (bit 0 CH, bit 1 CL), the edges, the number of stamps, 0 for no
limit. -/
structure StampSel where
  t : Nat
  inputs : Nat
  edge : Nat
  limit : Nat
  deriving DecidableEq, Repr

/-- An open job (R238 to R249): its entry, the inputs it holds, when it opened, whether the burst of its site ran then, whether it
waits for a PLL and the moment it was ready, its arm time, the selections of its STAMP words, the edges detected since it opened (oldest first), the
stamps lost, and how it ends: when, END, STATUS. -/
structure Job where
  e : Nat
  inputs : List Nat
  opened : Nat
  ran : Bool := false
  waitPll : Bool := false
  floor : Nat := 0
  arm : Option Nat := none
  sels : List StampSel := []
  edges : List Stamp := []
  lost : Nat := 0
  noted : Bool := false
  full : Bool := false
  stale : Bool := false
  stop : Option (Nat × Nat × Nat) := none
  deriving DecidableEq, Repr

/-- The TMU: open jobs, per input the T of its last qualifying edge plus 1 (R233), per group when its converter is free (R236),
the stamps that wait to be written with the cycle up to which the queue is drained (R248), and the inputs whose delay line is
out of service (R237). -/
structure Tmu where
  jobs : List Job := []
  lastEdge : Tab Nat := []
  ctdcFree : Tab Nat := []
  wq : List Nat := []
  wqAt : Nat := 0
  out : List Nat := []
  deriving DecidableEq, Repr

/-! ## Wave channels -/

/-- A sequence table entry (R254). -/
structure WEntry where
  addr : Nat
  len : Nat
  rep : Nat
  next : Nat
  jump : Nat
  jen : Bool
  fin : Bool
  deriving DecidableEq, Repr

/-- A granule fetched: its HBM address, its 64 samples of 16 bits (R251), the number of the request that read it. -/
structure Gran where
  addr : Nat
  data : List Nat
  no : Nat
  deriving DecidableEq, Repr

/-- A place on the path of plays: granule `gran` of play `rep` of entry `ent`; `pend`: the JEN entry just passed, for whose JUMP
the head is not yet held (R260). -/
structure Cur where
  ent : Nat
  rep : Nat
  gran : Nat
  pend : Option Nat
  /-- Behind the END: nothing follows but the jump of the last play. -/
  over_ : Bool := false
  deriving DecidableEq, Repr

/-- A wave channel beyond its registers (R253 to R269): the play's entry and mode, its table, where it stands (entry, play of the
entry, sample of the play), samples output since the start, granules played; the play FIFO, where the fetcher stands, the jump
head with its target and the JEN plays it still serves; latch, requests on their way; start, stops; the tone accumulator; the DAC's code and whether it is enabled, the marker level. -/
structure Wave where
  play : Option Nat := none
  mode : Nat := 0
  ents : List WEntry := []
  ent : Nat := 0
  rep : Nat := 0
  k : Nat := 0
  n : Nat := 0
  grans : Nat := 0
  jumps : Nat := 0
  ended : Bool := false
  cur : List Nat := []
  fifo : List Gran := []
  fet : Option Cur := none
  head : List Gran := []
  headTo : Option Nat := none
  headUses : Nat := 0
  /-- The rest of the head that the fetcher has not yet passed after a jump (R260). -/
  rest : List Gran := []
  latch : Bool := false
  reqs : List Nat := []
  /-- The first signal after the channel became ARMED (R267). -/
  armNo : Nat := 0
  toneAt : Option Nat := none
  ready : Option Nat := none
  start : Option Nat := none
  stops : List Nat := []
  stopMode : Option Nat := none
  acc : Nat := 0
  clipped : Bool := false
  emptied : Bool := false
  out : Int := 0
  dacOn : Bool := false
  offAt : Option Nat := none
  mark : Bool := false
  /-- The ADC's samples since it was last enabled, newest first, at most 1,048,576, the sample point of the newest, and whether
  older ones have been overwritten (R283). -/
  hist : List Int := []
  histAt : Nat := 0
  histFull : Bool := false
  deriving DecidableEq, Repr

/-! ## Trigger and acquisition -/

/-- An event of a slot (R274): firing sample, firing time, whether forced, forwarded, late. -/
structure TrigEv where
  n : Nat
  t : Nat
  forced : Bool
  remote : Bool
  late : Bool
  deriving DecidableEq, Repr

/-- A firing (R275): its slot and source, its event, its SEQ, whether a lower slot fired in the same sample. -/
structure Fire where
  slot : Nat
  src : Nat
  ev : TrigEv
  seq : Nat
  co : Bool
  deriving DecidableEq, Repr

/-- A trigger slot beyond its registers: the rising or entry side and the falling or exit side armed (R272), the last value
judged and the level last seen, the events not yet fired on, the first signal not yet looked at, when the auto timer started, the firings since
EN, the latest first. -/
structure Slot where
  up : Bool := false
  dn : Bool := false
  prev : Option Int := none
  level : Option Bool := none
  evs : List TrigEv := []
  sigAt : Nat := 0
  autoAt : Nat := 0
  fires : List Fire := []
  deriving DecidableEq, Repr

/-- An open acquisition (R281 to R285): its entry, arm point, whether armed, the winning firing and the slots of the mask that
fired with it, output samples written, missing, at full scale, and how it ends: END, STATUS. -/
structure Acq where
  e : Nat
  arm : Nat
  armed : Bool := false
  trig : Option Fire := none
  coinc : Nat := 0
  written : Nat := 0
  missing : Nat := 0
  ovr : Bool := false
  short : Bool := false
  stop : Option (Nat × Nat) := none
  deriving DecidableEq, Repr

/-! ## The Memory Controller -/

/-- Who made a memory request (R336), with its unit or tracker entry; a copy out or a fetch with the host address of its bytes. -/
inductive Requester where
  | stream (p : Nat) | entries (p : Nat) | prog (l : Nat) | ppt (p : Nat) | wave (w : Nat) | ctx (r : Nat) | copyIn (e : Nat)
  | copyOut (e dst : Nat) | fill (e : Nat) | window | spill (n : Nat) | capture (n : Nat) | failFetch (e dst : Nat)
  | capFetch (e dst : Nat) | result (e : Nat)
  deriving DecidableEq, Repr

/-- A memory request, cut at 1 KB (R336): `no` gives the order of issue. -/
structure Req where
  no : Nat
  write : Bool
  who : Requester
  addr : Nat
  len : Nat
  deriving DecidableEq, Repr

/-- A held row of a bank (R339): row, when it was opened, when it was last accessed. -/
structure Row where
  row : Nat
  openedAt : Nat
  lastAt : Nat
  deriving DecidableEq, Repr

/-- A pseudo-channel: its queues (R337), the refresh debt in 1/64 ns at `debtAt` (R341), held rows, activate trackers (R345),
retraining (R347). -/
structure Pc where
  reads : List Req := []
  writes : List Req := []
  draining : Bool := false
  debt64 : Nat := 0
  debtAt : Nat := 0
  urgent : Bool := false
  rows : Tab (Option Row) := []
  acts : Tab (List (Nat × Nat)) := []
  visits : Tab Nat := []
  /-- Requests that the watermark drain in hand, or the last one, has moved; per bank the end of a refresh that holds it. -/
  moved : Nat := 0
  bankTo : Tab Nat := []
  catchEnd : Nat := 0
  trainEnd : Nat := 0
  trainAt : Nat := 0
  /-- When the step in hand began, and for how many ticks of every 2,500 ns a step holds the pseudo-channel. -/
  trainFrom : Nat := 0
  trainHold : Nat := 0
  trainTemp : Int := 0
  trainFails : Nat := 0
  deriving DecidableEq, Repr

/-- The Memory Controller as a whole: order of requests, the 32-byte words that hold an uncorrectable error (R350), the scrub's
position and the start of its pass (R351), the window read whose bytes the host has (R350), the stacks lost to failed retrains (a mask, R347),
whether the contexts on die have been stored in this safe state and whether its records are lost (R330), per stack the last request, the entry to self-refresh with its temperature (R352) and when the
next report is due (R340), when the pending operating-point change was written (R348), the records lost in safe state (R330). -/
structure Mc where
  no : Nat := 0
  bad : List Nat := []
  scrub : Nat := 0
  lastReq : Tab Nat := []
  srAt : Tab Nat := []
  srTemp : Tab Int := []
  scrubAt : Nat := 0
  repDue : Tab Nat := []
  opAt : Nat := 0
  lost : Nat := 0
  winNo : Option Nat := none
  lostStacks : Nat := 0
  stored : Bool := false
  given : Bool := false
  deriving DecidableEq, Repr

/-! ## Bedrock -/

/-- A PLL that restarts (R356): attempts made and when the present one began. -/
structure Pll where
  starting : Bool := false
  tries : Nat := 0
  at_ : Nat := 0
  idleSince : Nat := 0
  deriving DecidableEq, Repr

/-- Bedrock beyond its registers (R353, R354, R360 to R365): whether the core PLL has locked since power-up, since when it holds over,
whether no reference is present; whether a pulse was accepted since the mode or HOLDOVER, whether the first pulse in ACQUIRE has come,
when the last was accepted (local ticks), those in a row within LOCK_NS; the servo's I; the Bedrock time at which the next day begins and
AGE_NOW as saved in flash; F_EFF where the present ramp began, when, where it goes, whether it is clamped. -/
structure Br where
  locked : Bool := false
  holdAt : Option Nat := none
  lossNow : Bool := false
  ppsAny : Bool := false
  stepped : Bool := false
  ppsAt : Nat := 0
  okRun : Nat := 0
  integ : Rat := 0
  dayAt : Nat := 0
  ageSaved : Nat := 0
  feff0 : Int := 0
  feffAt : Nat := 0
  target : Int := 0
  clamped : Bool := false
  deriving DecidableEq, Repr

/-! ## Kiln -/

/-- Kiln beyond its registers (R407 to R426): the node temperatures in °C as the model holds them; the latest accepted boundary value
(12-bit) and when; when the Board Sense master last read and its failures in a row; per monitor, bad or repeated windows in a row with the
last code and the good windows in a row of a faulty one; the quadrants whose PLL must not stop; when READY began without host access,
when the last burst ended, per quadrant the windows (power sum, count) for the ballast target; the thermal shutdown; the sleep
request; the supplies. -/
structure Kl where
  powered : Bool := false
  shut : Bool := false
  nodes : Tab Rat := []
  bound : Option (Nat × Nat) := none
  bsAt : Nat := 0
  bsRun : Nat := 0
  monCode : Tab Nat := []
  monSame : Tab Nat := []
  monGood : Tab Nat := []
  monBad : Nat := 0
  stepAt : Nat := 0
  hostAt : Nat := 0
  burstAt : Option Nat := none
  target : Tab (List (Nat × Nat)) := []
  reqSleep : Bool := false
  wokeUs : Nat := 0
  wakeFrom : Nat := 0
  deriving DecidableEq, Repr

/-! ## Strop -/

/-- A result kept (R430, R436): T of its acceptance, its values, its σ, its step from the kept value. -/
structure CalRes where
  t : Nat
  vals : List Int
  sigma : Nat
  step : Nat
  deriving DecidableEq, Repr

/-- A unit of Strop (R429 to R437): the results by band and converter (key 16 × band + converter), STATE, rejects in a row, rejects
and acceptances since boot, since when INIT or AGED, when OUT was last tried, the results held for the open CAL_REQUEST with its entry and
what became of the unit under it. -/
structure CalUnit where
  res : Tab (Option CalRes) := []
  state : Nat := 0
  run : Nat := 0
  rejects : Nat := 0
  accepts : Nat := 0
  since : Nat := 0
  triedAt : Nat := 0
  tried : Bool := false
  req : Option Nat := none
  held : Tab (Option CalRes) := []
  said : Option Bool := none
  /-- What a unit carries over into the present band from the band it left (R430): of EDGE the L of its converters and the P of the two pad steps, of
  COMP the L, of REIN and WAVE its values less Subsoil's. -/
  off : List Int := []
  /-- Of an input's TDC unit (R231, R232): the tap table and the path correction in use, the tick offsets of the 288 taps; whether the table was
  discarded while the input belonged to a job. -/
  taps : List Int := []
  path : Option Int := none
  dropped : Bool := false
  deriving DecidableEq, Repr

/-- An open forced window (R435): its pins, when it opened, its length in µs, the CAL_REQUEST that asked for it. -/
structure Window where
  pins : List Nat
  from_ : Nat
  len : Nat
  req : Option Nat
  deriving DecidableEq, Repr

/-! ## Tally -/

/-- Tally beyond its registers (R464 to R471): the events of the present engine cycle (event, instance, number), the wraps that wait to act
(counter, cycle), the sample requests (counter, cycle of the wrap), the cycle after which the sampler may serve again, the queue of sample
records, whether records are being dropped. -/
structure Tl where
  evs : List (Nat × Nat × Nat) := []
  wraps : List (Nat × Nat) := []
  reqs : List (Nat × Nat) := []
  freeAt : Nat := 0
  queue : List Nat := []
  dropping : Bool := false
  deriving DecidableEq, Repr

/-! ## The Fault Collector and the Ground Port -/

/-- The Fault Collector beyond its registers (R447, R451, R456, R457, R460, R461): the records that wait for the log and whether records are
being dropped; per source when the open window began plus 1 and its count, when the Steward last wrote an entry for it plus 1 and how many it
has suppressed; whether REINIT followed the parity error; the record and capture writes dropped in safe state and whether that moment has
passed; the FC_ fields that differ from their defaults as the early records of boot left them. -/
structure Fc where
  queue : List Nat := []
  dropping : Bool := false
  winAt : Tab Nat := []
  winCnt : Tab Nat := []
  jnAt : Tab Nat := []
  jnSkip : Tab Nat := []
  reinit : Bool := false
  drops : Nat := 0
  dropped : Bool := false
  image : Tab Nat := []
  /-- The engine cycle of the last event that qualified as a first fault, the record of the first such event in it, whether others followed. -/
  firstAt : Nat := 0
  firstNew : Option (Nat × Bool) := none
  deriving DecidableEq, Repr

/-- The Ground Port, the journal and the board's view of the part (R473, R478, R487, R489, R501): the window command in progress (0 none), its
address, length and time, and the journal entries that go before it; the place and SEQ of the next journal entry; whether HX_PERST_L is
asserted; whether DEV_RESET.KEY was written by a descriptor; the value that a boundary instruction drives on the balls. -/
structure Gd where
  op : Nat := 0
  addr : Nat := 0
  len : Nat := 0
  at_ : Nat := 0
  before : Nat := 0
  place : Nat := 0
  seq : Nat := 0
  perst : Bool := false
  keyed : Bool := false
  extest : Option Nat := none
  deriving DecidableEq, Repr

end Sys2Proof.Machine
end

