-- ==== Sys2Proof/Machine/RegMap.lean ====
section
/-!
DEFINITION. The names of the registers and of their fields, and for every field the columns of its field table: place,
access code, update class, default. The names are the register's and the field's names of the manual, joined by `_`.
-/
namespace Sys2Proof.Machine

/-- Access codes (R17). -/
inductive Access where
  | RO | RW | RW1C | WO
  deriving DecidableEq, Repr

/-- Update classes (R18): live, staged, idle-only. -/
inductive Cls where
  | L | S | I
  deriving DecidableEq, Repr

/-- The register blocks of R509 and R510. -/
inductive Block where
  | dev | gd | fc | kl | br | sp | tl | cs | rg | mc | tw | ta | tm | fr | site | rnlane | rnport | wv | mcpc | pin | oct
  deriving DecidableEq, Repr

/-- Every register of the manual; an indexed register is one name. -/
inductive Reg where
  | DEV_ID | DEV_REFUSED | DEV_UNITS | DEV_RESET | DEV_EV_CTRL
  | GD_STATUS | GD_TOPSOIL | GD_TS_REJECT | GD_WIN_ADDR | GD_WIN_CMD | GD_WIN_STATUS
  | FC_CTRL | FC_STATE | FC_FIRST0 | FC_FIRST1 | FC_SUMMARY | FC_SAFE_TIME | FC_ALIAS | FC_MODE | FC_IRQ
  | FC_LOG_IDX | FC_AON | FC_INJECT | FC_SRC_CFG | FC_SRC_STAT | FC_LOG_LO | FC_LOG_HI
  | KL_CTRL | KL_BOUNDARY | KL_BS_CFG | KL_STATUS | KL_TEMP | KL_BAND | KL_PSTATE | KL_BALLAST
  | KL_DOMAIN_P | KL_NODE_T
  | BR_CTRL | BR_STATUS | BR_TIME | BR_STEP | BR_COMMIT | BR_FCW | BR_AGE_RATE | BR_AGE_EPOCH | BR_AGE_NOW
  | BR_DISC | BR_FEFF | BR_SERVO | BR_PPS_LAST | BR_PPS_ERR
  | SP_CTRL | SP_LIMITS | SP_FORCE | SP_STATUS | SP_AUX
  | TL_CTRL | TL_STATUS | TL_OVF | TL_SAMPLE_LO | TL_SAMPLE_HI | TL_CFG | TL_CNT | TL_RELOAD | TL_SNAP
  | CS_STATUS | CS_IMAGE | CS_LOAD_ERR | CS_POLICY | CS_REPAIR | CS_DIGEST
  | RG_CTX_CMD | RG_STATUS | RG_WIN_BASE | RG_CTX_SQ | RG_CTX_CQ | RG_CTX_CTRL | RG_CTX_STATE | RG_CTX_IDX
  | RG_CTX_RESTART | RG_TOKEN | RG_MSIX_ADDR | RG_MSIX_DATA | RG_MSIX_CTRL
  | MC_CTRL | MC_STATUS | MC_TEMP | MC_ACT | MC_RETRAIN | MC_ERR
  | TW_CTRL | TW_TIMING | TW_LEASE | TW_STATUS | TW_SYNC_BASE | TW_SYNC_LEN | TW_SYNC_DONE
  | TA_STATUS | TA_SPAN | TA_FORCE | TA_SLOT_CTRL | TA_SLOT_LEVEL | TA_SLOT_COND | TA_SLOT_HOLDOFF
  | TA_SLOT_AUTO | TA_SLOT_STATUS | TA_SLOT_LAST
  | TM_STATUS | TM_CTDC_ROUTE
  | FR_STATUS | FR_SITE_QUOTA | FR_SITE_CTRL | FR_SITE_SPILL_BASE | FR_SITE_SPILL_SIZE | FR_SITE_CAP_BASE
  | FR_SITE_CAP_SIZE | FR_SITE_RECORDS | FR_SITE_DROPPED | FR_SITE_CAPTURED
  | SITE_CTRL | SITE_STATUS | SITE_COMMIT | SITE_MEMBER | SITE_PRIVATE | SITE_PPT_ADDR | SITE_GRID
  | SITE_EVENT | SITE_EV_DELAY | SITE_SPAN | SITE_SPAN_LAT | SITE_SPAN_CMASK | SITE_ARM_TIMEOUT | SITE_CSRC
  | SITE_STRETCH_MAX | SITE_SEAM_DEADLINE | SITE_DOZE_DELAY | SITE_COND | SITE_START_TIME | SITE_VCOUNT
  | RN_LANE_CTRL | RN_LANE_STATUS
  | RN_PORT_CTRL | RN_PORT_STATUS | RN_PORT_TIME | RN_PORT_TIMECAL | RN_PORT_PEER | RN_PORT_COUNT
  | WV_CTRL | WV_STATUS | WV_SEQ_BASE | WV_SEQ_LEN | WV_JUMP_SRC | WV_TONE_FTW | WV_TONE_PHASE
  | WV_TONE_LEVEL | WV_COMMIT | WV_JUMP | WV_STREAM_BASE | WV_STREAM_SIZE | WV_STREAM_WP | WV_STREAM_RP
  | WV_START_TIME
  | MC_PC_STATUS | MC_PC_COUNT
  | PIN_TS_PERIOD | PIN_TS_MODE | PIN_TS_DON | PIN_TS_DDAT | PIN_TS_DRET | PIN_TS_DOFF | PIN_TS_SOPEN
  | PIN_TS_SCLOSE | PIN_TS_COMMIT | PIN_TS_PENDING | PIN_TS_REJECT | PIN_TF_COMMIT | PIN_TF_DESKEW0
  | PIN_TF_DESKEW1 | PIN_TF_DESKEW2 | PIN_TF_STATUS | PIN_DSQ_STATUS | PIN_CSQ_STATUS | PIN_SEQ_CTRL
  | PIN_STREAM_BASE | PIN_STREAM_LEN | PIN_STREAM_CTRL | PIN_STREAM_STATUS | PIN_STREAM_COUNT
  | PIN_CMP_CTRL | PIN_CMP_FINE | PIN_CMP_STATUS | PIN_CMP_LOCK | PIN_FAIL_CTRL | PIN_FAIL_COUNT
  | PIN_FAIL_FIRST | PIN_FAIL_FIRST_ADDR | PIN_FAIL_FIRST_TIME | PIN_CAP_COUNT | PIN_TM_CTRL
  | PIN_TM_STATUS | PIN_TM_SEQ | PIN_CAL_STATUS
  | OCT_PEC_CTRL | OCT_PEC_STATUS
  deriving DecidableEq, Repr

/-- Every field of every register that is not reserved. -/
inductive Fld where
  | DEV_ID_VENDOR | DEV_ID_DEVICE | DEV_ID_STEPPING | DEV_ID_PACKAGE
  | DEV_REFUSED_VALID | DEV_REFUSED_MORE | DEV_REFUSED_KIND | DEV_REFUSED_ADDR
  | DEV_UNITS_FINAL | DEV_UNITS_MODE | DEV_UNITS_QPLL_OK | DEV_UNITS_CTDC_OK | DEV_UNITS_TAU_OK
  | DEV_UNITS_WAVE_OK | DEV_UNITS_REIN_OK | DEV_UNITS_HBM_OK | DEV_UNITS_OCT_OK
  | DEV_RESET_KEY
  | DEV_EV_CTRL_OUT | DEV_EV_CTRL_INVERT | DEV_EV_CTRL_OSRC | DEV_EV_CTRL_LEVEL | DEV_EV_CTRL_SITE
  | DEV_EV_CTRL_SEL
  | GD_STATUS_BOOT_MS | GD_STATUS_BOOTS | GD_STATUS_STAGE | GD_STATUS_WHY | GD_STATUS_OCTAL
  | GD_STATUS_UC_NONE | GD_STATUS_TS_NONE | GD_STATUS_FW_SLOT | GD_STATUS_UC_SLOT | GD_STATUS_TS_SLOT
  | GD_TOPSOIL_SEQ | GD_TOPSOIL_APPLIED | GD_TOPSOIL_REJECTED
  | GD_TS_REJECT_VALID | GD_TS_REJECT_INDEX
  | GD_WIN_ADDR_ADDR
  | GD_WIN_CMD_CMD | GD_WIN_CMD_LEN
  | GD_WIN_STATUS_BUSY | GD_WIN_STATUS_ERR | GD_WIN_STATUS_FLASH_KB
  | FC_CTRL_EXIT | FC_CTRL_REINIT | FC_CTRL_VECTOR | FC_CTRL_FIRST_MIN | FC_CTRL_IRQ_EN
  | FC_STATE_CAUSE | FC_STATE_CAUSE_CLASS | FC_STATE_CAUSE_INST | FC_STATE_EXIT_REF | FC_STATE_AON_LATCH
  | FC_STATE_LEGACY | FC_STATE_SAFE
  | FC_FIRST0_REC_LO
  | FC_FIRST1_REC_HI
  | FC_SUMMARY_BLOCK | FC_SUMMARY_ACTIVE_CLASS | FC_SUMMARY_STATUS_CLASS | FC_SUMMARY_FIRST_MORE
  | FC_SUMMARY_FIRST_VALID
  | FC_SAFE_TIME_T
  | FC_ALIAS_FATAL | FC_ALIAS_SEVERE | FC_ALIAS_MINOR | FC_ALIAS_NOTE | FC_ALIAS_SAFE
  | FC_ALIAS_FIRST_VALID | FC_ALIAS_FIRST_CLASS | FC_ALIAS_FIRST_SOURCE
  | FC_MODE_LEGACY
  | FC_IRQ_PENDING
  | FC_LOG_IDX_LOST | FC_LOG_IDX_NEXT
  | FC_AON_LATCH | FC_AON_COUNT
  | FC_INJECT_UKIND | FC_INJECT_INSTANCE | FC_INJECT_SOURCE
  | FC_SRC_CFG_WINDOW_MS | FC_SRC_CFG_N | FC_SRC_CFG_CLASS | FC_SRC_CFG_USED | FC_SRC_CFG_JOURNAL
  | FC_SRC_CFG_FAULT_L | FC_SRC_CFG_SAFE | FC_SRC_CFG_HALT | FC_SRC_CFG_IRQ
  | FC_SRC_STAT_COUNT | FC_SRC_STAT_WCOUNT | FC_SRC_STAT_ESCALATED | FC_SRC_STAT_ACTIVE
  | FC_SRC_STAT_STATUS
  | FC_LOG_LO_REC
  | FC_LOG_HI_REC
  | KL_CTRL_PLL_IDLE_US | KL_CTRL_BSRC | KL_CTRL_POLICY
  | KL_BOUNDARY_AGE_100MS | KL_BOUNDARY_T
  | KL_BS_CFG_PERIOD_MS | KL_BS_CFG_REG | KL_BS_CFG_ADDR
  | KL_STATUS_BAND_CHANGES | KL_STATUS_BS_FAIL | KL_STATUS_MON_FAULT | KL_STATUS_SLEEP_WAIT
  | KL_STATUS_BALLAST | KL_STATUS_DERATED | KL_STATUS_STALE | KL_STATUS_HBM_TRIP | KL_STATUS_HBM_SEVERE
  | KL_STATUS_TRIP | KL_STATUS_HOT | KL_STATUS_WARN | KL_STATUS_PSTATE
  | KL_TEMP_HBM | KL_TEMP_NODE | KL_TEMP_LOGIC | KL_TEMP_BOUND
  | KL_BAND_REGION
  | KL_PSTATE_AUTO_MS | KL_PSTATE_REQ | KL_PSTATE_STATE
  | KL_BALLAST_WINDOW_MS | KL_BALLAST_HOLD_S | KL_BALLAST_MAX_W
  | KL_DOMAIN_P_MW
  | KL_NODE_T_T
  | BR_CTRL_FAILOVER | BR_CTRL_MODE | BR_CTRL_REFSEL
  | BR_STATUS_PPS_REJ | BR_STATUS_PPS_ACC | BR_STATUS_XTAL_OK | BR_STATUS_REF_NOW | BR_STATUS_REF_LOSS
  | BR_STATUS_CLAMP | BR_STATUS_STEP_REF | BR_STATUS_MEM_READY | BR_STATUS_WAVE_READY
  | BR_STATUS_QPLL_READY | BR_STATUS_CORE_LOCK | BR_STATUS_DSTATE
  | BR_TIME_NS
  | BR_STEP_NS
  | BR_COMMIT_STEP
  | BR_FCW_PPT
  | BR_AGE_RATE_RATE
  | BR_AGE_EPOCH_DAYS
  | BR_AGE_NOW_DAYS
  | BR_DISC_PPT
  | BR_FEFF_PPT
  | BR_SERVO_LOCK_NS | BR_SERVO_TAU_S
  | BR_PPS_LAST_T
  | BR_PPS_ERR_NS
  | SP_CTRL_EN | SP_CTRL_AUTO_FORCE | SP_CTRL_PERIOD_S | SP_CTRL_MAX_AGE_H
  | SP_LIMITS_DELTA_MAX | SP_LIMITS_STEP_MAX | SP_LIMITS_SIGMA_MAX | SP_LIMITS_RETRIES
  | SP_FORCE_AFTER_S | SP_FORCE_WINDOW_US
  | SP_STATUS_REJECTS | SP_STATUS_FORCED | SP_STATUS_OUT | SP_STATUS_REQ_OPEN | SP_STATUS_FORCE_OPEN
  | SP_AUX_WAVE | SP_AUX_REIN
  | TL_CTRL_SNAP | TL_CTRL_SAMPLE_IRQ | TL_CTRL_VECTOR
  | TL_STATUS_SAMPLE_LOST | TL_STATUS_QUEUED
  | TL_OVF_WRAP
  | TL_SAMPLE_LO_REC_LO
  | TL_SAMPLE_HI_REC_HI
  | TL_CFG_SAMPLE | TL_CFG_CHAIN | TL_CFG_GROUP | TL_CFG_INST | TL_CFG_EVENT
  | TL_CNT_COUNT
  | TL_RELOAD_VALUE
  | TL_SNAP_COUNT
  | CS_STATUS_LOADED | CS_STATUS_BUSY | CS_STATUS_LOADS | CS_STATUS_COPY_OK
  | CS_IMAGE_BUILD | CS_IMAGE_MAJOR | CS_IMAGE_MINOR | CS_IMAGE_SLOT | CS_IMAGE_MWORDS | CS_IMAGE_NANOS
  | CS_LOAD_ERR_VALID | CS_LOAD_ERR_NANO | CS_LOAD_ERR_REASON | CS_LOAD_ERR_ADDR
  | CS_POLICY_SLOTS | CS_POLICY_VERIFY_MIN
  | CS_REPAIR_VALID | CS_REPAIR_LAST_COPY | CS_REPAIR_COUNT
  | CS_DIGEST_D
  | RG_CTX_CMD_BUSY | RG_CTX_CMD_CMD | RG_CTX_CMD_RING
  | RG_STATUS_DOORBELL_DROP | RG_STATUS_TRACKER_USED | RG_STATUS_CMD_ERR | RG_STATUS_HALTED_ANY
  | RG_WIN_BASE_ADDR
  | RG_CTX_SQ_BASE | RG_CTX_SQ_LOG2
  | RG_CTX_CQ_BASE | RG_CTX_CQ_LOG2
  | RG_CTX_CTRL_HOLDOFF | RG_CTX_CTRL_WINDOW | RG_CTX_CTRL_WEIGHT | RG_CTX_CTRL_CLASS | RG_CTX_CTRL_VECTOR
  | RG_CTX_CTRL_CQ
  | RG_CTX_STATE_INFLIGHT | RG_CTX_STATE_FETCH | RG_CTX_STATE_LAST_ERR | RG_CTX_STATE_STATE
  | RG_CTX_IDX_CQ_PHASE | RG_CTX_IDX_CQ_TAIL | RG_CTX_IDX_CQ_HEAD | RG_CTX_IDX_SQ_TAIL
  | RG_CTX_RESTART_INDEX
  | RG_TOKEN_VALUE
  | RG_MSIX_ADDR_ADDR
  | RG_MSIX_DATA_DATA
  | RG_MSIX_CTRL_MASK
  | MC_CTRL_SR_IDLE_US | MC_CTRL_SCRUB_H | MC_CTRL_KEEPOPEN | MC_CTRL_OPPOINT
  | MC_STATUS_DEFER_NS | MC_STATUS_RETRAIN | MC_STATUS_SR | MC_STATUS_OP_PENDING | MC_STATUS_OP_NOW
  | MC_STATUS_SCRUB_UE | MC_STATUS_UE | MC_STATUS_CE | MC_STATUS_CATCHUP
  | MC_TEMP_RBAND | MC_TEMP_REPORT | MC_TEMP_MODEL
  | MC_ACT_THRESH
  | MC_RETRAIN_INTERVAL_MS
  | MC_ERR_VALID | MC_ERR_MORE | MC_ERR_KIND | MC_ERR_ADDR
  | TW_CTRL_EN | TW_CTRL_PREFER | TW_CTRL_PORT | TW_CTRL_VECTOR
  | TW_TIMING_MISS | TW_TIMING_HB_US | TW_TIMING_SWITCH_US
  | TW_LEASE_SEEK_MS | TW_LEASE_LEASE_US
  | TW_STATUS_TAKEOVERS | TW_STATUS_DIVERGE | TW_STATUS_PEER_OWN | TW_STATUS_OWN
  | TW_STATUS_DIGEST_MISMATCH | TW_STATUS_DIVERGED | TW_STATUS_CONTENTION | TW_STATUS_TOOK_OVER
  | TW_STATUS_PEER_LOST | TW_STATUS_ROLE
  | TW_SYNC_BASE_ADDR
  | TW_SYNC_LEN_LEN
  | TW_SYNC_DONE_BYTES
  | TA_STATUS_COINCIDENT | TA_STATUS_ARMED | TA_STATUS_FIRED
  | TA_SPAN_LAT | TA_SPAN_TAG
  | TA_FORCE_SOFT
  | TA_SLOT_CTRL_EN | TA_SLOT_CTRL_ARM | TA_SLOT_CTRL_FWD | TA_SLOT_CTRL_MODE | TA_SLOT_CTRL_SRC
  | TA_SLOT_CTRL_COND | TA_SLOT_CTRL_EDGE | TA_SLOT_CTRL_SEL
  | TA_SLOT_LEVEL_B | TA_SLOT_LEVEL_A
  | TA_SLOT_COND_HYST | TA_SLOT_COND_DIST
  | TA_SLOT_HOLDOFF_SAMPLES
  | TA_SLOT_AUTO_US
  | TA_SLOT_STATUS_SEQ | TA_SLOT_STATUS_HELDOFF | TA_SLOT_STATUS_BADCFG | TA_SLOT_STATUS_LATE
  | TA_SLOT_STATUS_FORCED | TA_SLOT_STATUS_COINCIDENT | TA_SLOT_STATUS_FIRED | TA_SLOT_STATUS_ARMED
  | TA_SLOT_LAST_T
  | TM_STATUS_JOBS | TM_STATUS_HISTS
  | TM_CTDC_ROUTE_VALID | TM_CTDC_ROUTE_INPUT | TM_CTDC_ROUTE_PIN
  | FR_STATUS_UE | FR_STATUS_CE | FR_STATUS_USED
  | FR_SITE_QUOTA_RECORDS
  | FR_SITE_CTRL_CLEAR | FR_SITE_CTRL_SPILL_EN
  | FR_SITE_SPILL_BASE_ADDR
  | FR_SITE_SPILL_SIZE_RECORDS
  | FR_SITE_CAP_BASE_ADDR
  | FR_SITE_CAP_SIZE_BLOCKS
  | FR_SITE_RECORDS_COUNT
  | FR_SITE_DROPPED_BLOCKS | FR_SITE_DROPPED_RECORDS
  | FR_SITE_CAPTURED_COUNT
  | SITE_CTRL_DOZE_EN | SITE_CTRL_SPAN_ROLE | SITE_CTRL_UNDERRUN_POL
  | SITE_STATUS_EV_IGNORED | SITE_STATUS_CONFLICT | SITE_STATUS_STALE | SITE_STATUS_UNDERRUN
  | SITE_STATUS_RDV_MISS | SITE_STATUS_SPAN_LATE | SITE_STATUS_ARM_TIMEOUT | SITE_STATUS_STRETCHED
  | SITE_STATUS_STALE_ACTIVE | SITE_STATUS_STATE
  | SITE_COMMIT_COND
  | SITE_MEMBER_MASK
  | SITE_PRIVATE_MASK
  | SITE_PPT_ADDR_ADDR
  | SITE_GRID_PERIOD
  | SITE_EVENT_EDGE | SITE_EVENT_EV_SEL
  | SITE_EV_DELAY_DELAY
  | SITE_SPAN_SPAN_TAG
  | SITE_SPAN_LAT_LAT
  | SITE_SPAN_CMASK_CMASK
  | SITE_ARM_TIMEOUT_MS
  | SITE_CSRC_SRC
  | SITE_STRETCH_MAX_COUNT
  | SITE_SEAM_DEADLINE_NS
  | SITE_DOZE_DELAY_US
  | SITE_COND_C
  | SITE_START_TIME_T
  | SITE_VCOUNT_COUNT
  | RN_LANE_CTRL_EXCLUDE | RN_LANE_CTRL_RX_INV | RN_LANE_CTRL_TX_INV
  | RN_LANE_STATUS_REVERTS | RN_LANE_STATUS_SNAP | RN_LANE_STATUS_FOM | RN_LANE_STATUS_REVERTED
  | RN_LANE_STATUS_FROZEN | RN_LANE_STATUS_USED | RN_LANE_STATUS_LOCK
  | RN_PORT_CTRL_EN | RN_PORT_CTRL_UPSTREAM | RN_PORT_CTRL_FWD | RN_PORT_CTRL_FOM_MIN | RN_PORT_CTRL_ROLE
  | RN_PORT_CTRL_WIDTH_MAX | RN_PORT_CTRL_RATE_MAX
  | RN_PORT_STATUS_DEFER_US | RN_PORT_STATUS_REPLAYS | RN_PORT_STATUS_ELASTIC
  | RN_PORT_STATUS_PEER_FAULT_NOW | RN_PORT_STATUS_PEER_FAULT | RN_PORT_STATUS_LINK_LOSS
  | RN_PORT_STATUS_FALLBACK | RN_PORT_STATUS_RATE_PENDING | RN_PORT_STATUS_LANES | RN_PORT_STATUS_WIDTH_NOW
  | RN_PORT_STATUS_RATE_NOW | RN_PORT_STATUS_LSTATE
  | RN_PORT_TIME_THETA | RN_PORT_TIME_DELAY
  | RN_PORT_TIMECAL_TAU_MS | RN_PORT_TIMECAL_BOARD_ASYM
  | RN_PORT_PEER_ASYM | RN_PORT_PEER_REJECTS | RN_PORT_PEER_PEER_RATE | RN_PORT_PEER_PEER_LANES
  | RN_PORT_COUNT_FWD | RN_PORT_COUNT_NOMATCH | RN_PORT_COUNT_DUP
  | WV_CTRL_ADC_EN | WV_CTRL_DAC_EN | WV_CTRL_PARK
  | WV_STATUS_ENTRY | WV_STATUS_MERGED | WV_STATUS_UNDERRUN | WV_STATUS_BAD_ENTRY | WV_STATUS_EMPTY
  | WV_STATUS_CLIPPED | WV_STATUS_OVERRANGE | WV_STATUS_PLL_LOSS | WV_STATUS_JUMP_PENDING
  | WV_STATUS_TONE_PENDING | WV_STATUS_WP_RANGE | WV_STATUS_STATE
  | WV_SEQ_BASE_ADDR
  | WV_SEQ_LEN_ENTRIES
  | WV_JUMP_SRC_SRC | WV_JUMP_SRC_SITE | WV_JUMP_SRC_SEL
  | WV_TONE_FTW_FTW
  | WV_TONE_PHASE_PHASE
  | WV_TONE_LEVEL_OFFSET | WV_TONE_LEVEL_AMP
  | WV_COMMIT_TONE
  | WV_JUMP_REQ
  | WV_STREAM_BASE_ADDR
  | WV_STREAM_SIZE_GRANULES
  | WV_STREAM_WP_WP
  | WV_STREAM_RP_RP
  | WV_START_TIME_T
  | MC_PC_STATUS_DEBT_NS | MC_PC_STATUS_RBAND | MC_PC_STATUS_TRAINING | MC_PC_STATUS_CATCHUP_NOW
  | MC_PC_STATUS_NEXT_BANK
  | MC_PC_COUNT_NEIGHBOUR | MC_PC_COUNT_CATCHUPS | MC_PC_COUNT_UE | MC_PC_COUNT_CE
  | PIN_TS_PERIOD_PERIOD
  | PIN_TS_MODE_BURST | PIN_TS_MODE_CMODE | PIN_TS_MODE_FORMAT
  | PIN_TS_DON_T
  | PIN_TS_DDAT_T
  | PIN_TS_DRET_T
  | PIN_TS_DOFF_T
  | PIN_TS_SOPEN_T
  | PIN_TS_SCLOSE_T
  | PIN_TS_COMMIT_SET
  | PIN_TS_PENDING_SET
  | PIN_TS_REJECT_VALID | PIN_TS_REJECT_MORE | PIN_TS_REJECT_REASON | PIN_TS_REJECT_SET
  | PIN_TF_COMMIT_DESKEW
  | PIN_TF_DESKEW0_DDAT | PIN_TF_DESKEW0_DON
  | PIN_TF_DESKEW1_DOFF | PIN_TF_DESKEW1_DRET
  | PIN_TF_DESKEW2_SCLOSE | PIN_TF_DESKEW2_SOPEN
  | PIN_TF_STATUS_SPACING_COUNT | PIN_TF_STATUS_BAND | PIN_TF_STATUS_TRIM_PENDING
  | PIN_TF_STATUS_DESKEW_PENDING | PIN_TF_STATUS_SPACING | PIN_TF_STATUS_PLL_LOSS
  | PIN_DSQ_STATUS_WADDR | PIN_DSQ_STATUS_FSLOT | PIN_DSQ_STATUS_SDEPTH | PIN_DSQ_STATUS_LOOP_ACTIVE
  | PIN_DSQ_STATUS_PARTIAL | PIN_DSQ_STATUS_STARVED | PIN_DSQ_STATUS_DWELL | PIN_DSQ_STATUS_FAULT
  | PIN_DSQ_STATUS_STATE
  | PIN_CSQ_STATUS_PARTIAL | PIN_CSQ_STATUS_STATE
  | PIN_SEQ_CTRL_IDLE_CODE
  | PIN_STREAM_BASE_ADDR
  | PIN_STREAM_LEN_ENTRIES
  | PIN_STREAM_CTRL_HOLD_LINES
  | PIN_STREAM_STATUS_POS | PIN_STREAM_STATUS_HELD | PIN_STREAM_STATUS_PINNED
  | PIN_STREAM_STATUS_BAD_STREAM | PIN_STREAM_STATUS_BADCODE | PIN_STREAM_STATUS_STRETCHED
  | PIN_STREAM_STATUS_UNDERRUN
  | PIN_STREAM_COUNT_STRETCH_REPS | PIN_STREAM_COUNT_REFETCH
  | PIN_CMP_CTRL_LOSS_RUN | PIN_CMP_CTRL_ERRMAX | PIN_CMP_CTRL_OFFSET
  | PIN_CMP_FINE_F
  | PIN_CMP_STATUS_UNJUDGED | PIN_CMP_STATUS_CONTRA | PIN_CMP_STATUS_LOSS | PIN_CMP_STATUS_NOLOCK
  | PIN_CMP_STATUS_SKIP | PIN_CMP_STATUS_LSTATE | PIN_CMP_STATUS_OFFSET_NOW
  | PIN_CMP_LOCK_VCOUNT | PIN_CMP_LOCK_ERRS | PIN_CMP_LOCK_OFFSET
  | PIN_FAIL_CTRL_LIMIT | PIN_FAIL_CTRL_CAPALL | PIN_FAIL_CTRL_MODE
  | PIN_FAIL_COUNT_COUNT
  | PIN_FAIL_FIRST_VALID | PIN_FAIL_FIRST_VCOUNT
  | PIN_FAIL_FIRST_ADDR_SEQADDR
  | PIN_FAIL_FIRST_TIME_T
  | PIN_CAP_COUNT_DROPPED | PIN_CAP_COUNT_BLOCKS
  | PIN_TM_CTRL_CL_ROUTE | PIN_TM_CTRL_CH_ROUTE
  | PIN_TM_STATUS_LOST | PIN_TM_STATUS_NOJOB | PIN_TM_STATUS_CL_BUSY | PIN_TM_STATUS_CL_ROUTED
  | PIN_TM_STATUS_CL_TABLE | PIN_TM_STATUS_CL_DOWN | PIN_TM_STATUS_CH_BUSY | PIN_TM_STATUS_CH_ROUTED
  | PIN_TM_STATUS_CH_TABLE | PIN_TM_STATUS_CH_DOWN
  | PIN_TM_SEQ_CL_SEQ | PIN_TM_SEQ_CH_SEQ
  | PIN_CAL_STATUS_AGE_MIN | PIN_CAL_STATUS_SIGMA | PIN_CAL_STATUS_REJ_RUN | PIN_CAL_STATUS_TDC_CL
  | PIN_CAL_STATUS_TDC_CH | PIN_CAL_STATUS_COMP | PIN_CAL_STATUS_EDGE
  | OCT_PEC_CTRL_SAMPLE | OCT_PEC_CTRL_CLK
  | OCT_PEC_STATUS_XFERS | OCT_PEC_STATUS_NAKS | OCT_PEC_STATUS_TMOS | OCT_PEC_STATUS_BUSY
  deriving DecidableEq, Repr

/-- One row of a field table: the lowest bit, the width, how often the field repeats in the word and at which distance,
the access code, the update class, whether the default is marked img (R22), and the default. -/
structure FieldSpec where
  lo : Nat
  width : Nat
  rep : Nat
  step : Nat
  acc : Access
  cls : Cls
  img : Bool
  dflt : Nat
  deriving DecidableEq, Repr

/-- The field tables of the manual. -/
def Fld.spec : Fld → FieldSpec
  | .DEV_ID_VENDOR => ⟨48, 16, 1, 0, .RO, .L, false, 0x1F3A⟩
  | .DEV_ID_DEVICE => ⟨32, 16, 1, 0, .RO, .L, false, 0x4256⟩
  | .DEV_ID_STEPPING => ⟨24, 8, 1, 0, .RO, .L, false, 0xB1⟩
  | .DEV_ID_PACKAGE => ⟨16, 8, 1, 0, .RO, .L, false, 0x48⟩
  | .DEV_REFUSED_VALID => ⟨31, 1, 1, 0, .RW1C, .L, false, 0⟩
  | .DEV_REFUSED_MORE => ⟨30, 1, 1, 0, .RW1C, .L, false, 0⟩
  | .DEV_REFUSED_KIND => ⟨29, 1, 1, 0, .RO, .L, false, 0⟩
  | .DEV_REFUSED_ADDR => ⟨0, 28, 1, 0, .RO, .L, false, 0⟩
  | .DEV_UNITS_FINAL => ⟨63, 1, 1, 0, .RO, .L, false, 0⟩
  | .DEV_UNITS_MODE => ⟨60, 2, 1, 0, .RO, .L, false, 0⟩
  | .DEV_UNITS_QPLL_OK => ⟨56, 4, 1, 0, .RO, .L, false, 0⟩
  | .DEV_UNITS_CTDC_OK => ⟨48, 8, 1, 0, .RO, .L, false, 0⟩
  | .DEV_UNITS_TAU_OK => ⟨46, 1, 1, 0, .RO, .L, false, 0⟩
  | .DEV_UNITS_WAVE_OK => ⟨38, 8, 1, 0, .RO, .L, false, 0⟩
  | .DEV_UNITS_REIN_OK => ⟨34, 4, 1, 0, .RO, .L, false, 0⟩
  | .DEV_UNITS_HBM_OK => ⟨32, 2, 1, 0, .RO, .L, false, 0⟩
  | .DEV_UNITS_OCT_OK => ⟨0, 32, 1, 0, .RO, .L, false, 0⟩
  | .DEV_RESET_KEY => ⟨0, 16, 1, 0, .WO, .L, false, 0⟩
  | .DEV_EV_CTRL_OUT => ⟨31, 1, 1, 0, .RW, .L, true, 0⟩
  | .DEV_EV_CTRL_INVERT => ⟨30, 1, 1, 0, .RW, .L, true, 0⟩
  | .DEV_EV_CTRL_OSRC => ⟨28, 2, 1, 0, .RW, .L, true, 0⟩
  | .DEV_EV_CTRL_LEVEL => ⟨27, 1, 1, 0, .RW, .L, false, 0⟩
  | .DEV_EV_CTRL_SITE => ⟨8, 6, 1, 0, .RW, .L, true, 0⟩
  | .DEV_EV_CTRL_SEL => ⟨0, 5, 1, 0, .RW, .L, true, 0⟩
  | .GD_STATUS_BOOT_MS => ⟨48, 16, 1, 0, .RO, .L, false, 0⟩
  | .GD_STATUS_BOOTS => ⟨32, 16, 1, 0, .RO, .L, false, 0⟩
  | .GD_STATUS_STAGE => ⟨28, 4, 1, 0, .RO, .L, false, 0⟩
  | .GD_STATUS_WHY => ⟨26, 2, 1, 0, .RO, .L, false, 0⟩
  | .GD_STATUS_OCTAL => ⟨21, 1, 1, 0, .RO, .L, false, 0⟩
  | .GD_STATUS_UC_NONE => ⟨20, 1, 1, 0, .RO, .L, false, 0⟩
  | .GD_STATUS_TS_NONE => ⟨19, 1, 1, 0, .RO, .L, false, 0⟩
  | .GD_STATUS_FW_SLOT => ⟨18, 1, 1, 0, .RO, .L, false, 0⟩
  | .GD_STATUS_UC_SLOT => ⟨17, 1, 1, 0, .RO, .L, false, 0⟩
  | .GD_STATUS_TS_SLOT => ⟨16, 1, 1, 0, .RO, .L, false, 0⟩
  | .GD_TOPSOIL_SEQ => ⟨32, 32, 1, 0, .RO, .L, false, 0⟩
  | .GD_TOPSOIL_APPLIED => ⟨16, 16, 1, 0, .RO, .L, false, 0⟩
  | .GD_TOPSOIL_REJECTED => ⟨0, 16, 1, 0, .RO, .L, false, 0⟩
  | .GD_TS_REJECT_VALID => ⟨31, 1, 1, 0, .RW1C, .L, false, 0⟩
  | .GD_TS_REJECT_INDEX => ⟨0, 12, 1, 0, .RO, .L, false, 0⟩
  | .GD_WIN_ADDR_ADDR => ⟨0, 32, 1, 0, .RW, .L, false, 0⟩
  | .GD_WIN_CMD_CMD => ⟨29, 3, 1, 0, .WO, .L, false, 0⟩
  | .GD_WIN_CMD_LEN => ⟨0, 16, 1, 0, .WO, .L, false, 0⟩
  | .GD_WIN_STATUS_BUSY => ⟨31, 1, 1, 0, .RO, .L, false, 0⟩
  | .GD_WIN_STATUS_ERR => ⟨28, 3, 1, 0, .RW1C, .L, false, 0⟩
  | .GD_WIN_STATUS_FLASH_KB => ⟨0, 24, 1, 0, .RO, .L, false, 0⟩
  | .FC_CTRL_EXIT => ⟨31, 1, 1, 0, .WO, .L, false, 0⟩
  | .FC_CTRL_REINIT => ⟨30, 1, 1, 0, .WO, .L, false, 0⟩
  | .FC_CTRL_VECTOR => ⟨16, 11, 1, 0, .RW, .L, true, 0⟩
  | .FC_CTRL_FIRST_MIN => ⟨12, 2, 1, 0, .RW, .L, true, 1⟩
  | .FC_CTRL_IRQ_EN => ⟨0, 1, 1, 0, .RW, .L, true, 1⟩
  | .FC_STATE_CAUSE => ⟨54, 10, 1, 0, .RO, .L, false, 0⟩
  | .FC_STATE_CAUSE_CLASS => ⟨52, 2, 1, 0, .RO, .L, false, 0⟩
  | .FC_STATE_CAUSE_INST => ⟨32, 16, 1, 0, .RO, .L, false, 0⟩
  | .FC_STATE_EXIT_REF => ⟨3, 1, 1, 0, .RW1C, .L, false, 0⟩
  | .FC_STATE_AON_LATCH => ⟨2, 1, 1, 0, .RO, .L, false, 0⟩
  | .FC_STATE_LEGACY => ⟨1, 1, 1, 0, .RO, .L, false, 0⟩
  | .FC_STATE_SAFE => ⟨0, 1, 1, 0, .RO, .L, false, 0⟩
  | .FC_FIRST0_REC_LO => ⟨0, 64, 1, 0, .RO, .L, false, 0⟩
  | .FC_FIRST1_REC_HI => ⟨0, 64, 1, 0, .RO, .L, false, 0⟩
  | .FC_SUMMARY_BLOCK => ⟨48, 16, 1, 0, .RO, .L, false, 0⟩
  | .FC_SUMMARY_ACTIVE_CLASS => ⟨20, 4, 1, 0, .RO, .L, false, 0⟩
  | .FC_SUMMARY_STATUS_CLASS => ⟨16, 4, 1, 0, .RO, .L, false, 0⟩
  | .FC_SUMMARY_FIRST_MORE => ⟨1, 1, 1, 0, .RW1C, .L, false, 0⟩
  | .FC_SUMMARY_FIRST_VALID => ⟨0, 1, 1, 0, .RW1C, .L, false, 0⟩
  | .FC_SAFE_TIME_T => ⟨0, 64, 1, 0, .RO, .L, false, 0⟩
  | .FC_ALIAS_FATAL => ⟨31, 1, 1, 0, .RW1C, .L, false, 0⟩
  | .FC_ALIAS_SEVERE => ⟨30, 1, 1, 0, .RW1C, .L, false, 0⟩
  | .FC_ALIAS_MINOR => ⟨29, 1, 1, 0, .RW1C, .L, false, 0⟩
  | .FC_ALIAS_NOTE => ⟨28, 1, 1, 0, .RW1C, .L, false, 0⟩
  | .FC_ALIAS_SAFE => ⟨27, 1, 1, 0, .RO, .L, false, 0⟩
  | .FC_ALIAS_FIRST_VALID => ⟨15, 1, 1, 0, .RO, .L, false, 0⟩
  | .FC_ALIAS_FIRST_CLASS => ⟨12, 2, 1, 0, .RO, .L, false, 0⟩
  | .FC_ALIAS_FIRST_SOURCE => ⟨0, 10, 1, 0, .RO, .L, false, 0⟩
  | .FC_MODE_LEGACY => ⟨0, 1, 1, 0, .RO, .L, true, 0⟩
  | .FC_IRQ_PENDING => ⟨0, 1, 1, 0, .RW1C, .L, false, 0⟩
  | .FC_LOG_IDX_LOST => ⟨32, 32, 1, 0, .RO, .L, false, 0⟩
  | .FC_LOG_IDX_NEXT => ⟨0, 8, 1, 0, .RO, .L, false, 0⟩
  | .FC_AON_LATCH => ⟨31, 1, 1, 0, .RW1C, .L, false, 0⟩
  | .FC_AON_COUNT => ⟨0, 16, 1, 0, .RO, .L, false, 0⟩
  | .FC_INJECT_UKIND => ⟨26, 4, 1, 0, .WO, .L, false, 0⟩
  | .FC_INJECT_INSTANCE => ⟨10, 16, 1, 0, .WO, .L, false, 0⟩
  | .FC_INJECT_SOURCE => ⟨0, 10, 1, 0, .WO, .L, false, 0⟩
  | .FC_SRC_CFG_WINDOW_MS => ⟨20, 22, 1, 0, .RW, .L, true, 0xEA60⟩
  | .FC_SRC_CFG_N => ⟨12, 8, 1, 0, .RW, .L, true, 8⟩
  | .FC_SRC_CFG_CLASS => ⟨10, 2, 1, 0, .RO, .L, false, 0⟩
  | .FC_SRC_CFG_USED => ⟨9, 1, 1, 0, .RO, .L, false, 0⟩
  | .FC_SRC_CFG_JOURNAL => ⟨4, 1, 1, 0, .RW, .L, true, 0⟩
  | .FC_SRC_CFG_FAULT_L => ⟨3, 1, 1, 0, .RW, .L, true, 0⟩
  | .FC_SRC_CFG_SAFE => ⟨2, 1, 1, 0, .RW, .L, true, 0⟩
  | .FC_SRC_CFG_HALT => ⟨1, 1, 1, 0, .RW, .L, true, 0⟩
  | .FC_SRC_CFG_IRQ => ⟨0, 1, 1, 0, .RW, .L, true, 0⟩
  | .FC_SRC_STAT_COUNT => ⟨32, 32, 1, 0, .RO, .L, false, 0⟩
  | .FC_SRC_STAT_WCOUNT => ⟨24, 8, 1, 0, .RO, .L, false, 0⟩
  | .FC_SRC_STAT_ESCALATED => ⟨2, 1, 1, 0, .RW1C, .L, false, 0⟩
  | .FC_SRC_STAT_ACTIVE => ⟨1, 1, 1, 0, .RO, .L, false, 0⟩
  | .FC_SRC_STAT_STATUS => ⟨0, 1, 1, 0, .RW1C, .L, false, 0⟩
  | .FC_LOG_LO_REC => ⟨0, 64, 1, 0, .RO, .L, false, 0⟩
  | .FC_LOG_HI_REC => ⟨0, 64, 1, 0, .RO, .L, false, 0⟩
  | .KL_CTRL_PLL_IDLE_US => ⟨16, 16, 1, 0, .RW, .L, true, 0x3E8⟩
  | .KL_CTRL_BSRC => ⟨1, 1, 1, 0, .RW, .L, true, 1⟩
  | .KL_CTRL_POLICY => ⟨0, 1, 1, 0, .RW, .L, true, 0⟩
  | .KL_BOUNDARY_AGE_100MS => ⟨16, 12, 1, 0, .RO, .L, false, 0⟩
  | .KL_BOUNDARY_T => ⟨0, 12, 1, 0, .RW, .L, false, 0x5F0⟩
  | .KL_BS_CFG_PERIOD_MS => ⟨24, 8, 1, 0, .RW, .L, true, 0x64⟩
  | .KL_BS_CFG_REG => ⟨16, 8, 1, 0, .RW, .L, true, 0⟩
  | .KL_BS_CFG_ADDR => ⟨0, 7, 1, 0, .RW, .L, true, 0x48⟩
  | .KL_STATUS_BAND_CHANGES => ⟨48, 16, 1, 0, .RO, .L, false, 0⟩
  | .KL_STATUS_BS_FAIL => ⟨32, 16, 1, 0, .RO, .L, false, 0⟩
  | .KL_STATUS_MON_FAULT => ⟨13, 1, 1, 0, .RW1C, .L, false, 0⟩
  | .KL_STATUS_SLEEP_WAIT => ⟨12, 1, 1, 0, .RO, .L, false, 0⟩
  | .KL_STATUS_BALLAST => ⟨11, 1, 1, 0, .RO, .L, false, 0⟩
  | .KL_STATUS_DERATED => ⟨10, 1, 1, 0, .RO, .L, false, 0⟩
  | .KL_STATUS_STALE => ⟨9, 1, 1, 0, .RO, .L, false, 1⟩
  | .KL_STATUS_HBM_TRIP => ⟨8, 1, 1, 0, .RO, .L, false, 0⟩
  | .KL_STATUS_HBM_SEVERE => ⟨7, 1, 1, 0, .RO, .L, false, 0⟩
  | .KL_STATUS_TRIP => ⟨6, 1, 1, 0, .RO, .L, false, 0⟩
  | .KL_STATUS_HOT => ⟨5, 1, 1, 0, .RO, .L, false, 0⟩
  | .KL_STATUS_WARN => ⟨4, 1, 1, 0, .RO, .L, false, 0⟩
  | .KL_STATUS_PSTATE => ⟨0, 2, 1, 0, .RO, .L, false, 2⟩
  | .KL_TEMP_HBM => ⟨48, 12, 1, 0, .RO, .L, false, 0⟩
  | .KL_TEMP_NODE => ⟨36, 6, 1, 0, .RO, .L, false, 0⟩
  | .KL_TEMP_LOGIC => ⟨24, 12, 1, 0, .RO, .L, false, 0⟩
  | .KL_TEMP_BOUND => ⟨0, 12, 1, 0, .RO, .L, false, 0x5F0⟩
  | .KL_BAND_REGION => ⟨0, 4, 6, 4, .RO, .L, false, 0⟩
  | .KL_PSTATE_AUTO_MS => ⟨16, 16, 1, 0, .RW, .L, true, 0⟩
  | .KL_PSTATE_REQ => ⟨4, 2, 1, 0, .RW, .L, false, 2⟩
  | .KL_PSTATE_STATE => ⟨0, 2, 1, 0, .RO, .L, false, 2⟩
  | .KL_BALLAST_WINDOW_MS => ⟨20, 12, 1, 0, .RW, .L, true, 0x3E8⟩
  | .KL_BALLAST_HOLD_S => ⟨8, 12, 1, 0, .RW, .L, true, 0x258⟩
  | .KL_BALLAST_MAX_W => ⟨0, 8, 1, 0, .RW, .L, true, 8⟩
  | .KL_DOMAIN_P_MW => ⟨0, 32, 1, 0, .RO, .L, false, 0⟩
  | .KL_NODE_T_T => ⟨0, 12, 1, 0, .RO, .L, false, 0⟩
  | .BR_CTRL_FAILOVER => ⟨7, 1, 1, 0, .RW, .L, true, 1⟩
  | .BR_CTRL_MODE => ⟨4, 2, 1, 0, .RW, .L, true, 0⟩
  | .BR_CTRL_REFSEL => ⟨0, 2, 1, 0, .RW, .I, true, 0⟩
  | .BR_STATUS_PPS_REJ => ⟨48, 16, 1, 0, .RO, .L, false, 0⟩
  | .BR_STATUS_PPS_ACC => ⟨32, 16, 1, 0, .RO, .L, false, 0⟩
  | .BR_STATUS_XTAL_OK => ⟨18, 1, 1, 0, .RO, .L, false, 0⟩
  | .BR_STATUS_REF_NOW => ⟨16, 2, 1, 0, .RO, .L, false, 0⟩
  | .BR_STATUS_REF_LOSS => ⟨15, 1, 1, 0, .RW1C, .L, false, 0⟩
  | .BR_STATUS_CLAMP => ⟨14, 1, 1, 0, .RW1C, .L, false, 0⟩
  | .BR_STATUS_STEP_REF => ⟨13, 1, 1, 0, .RW1C, .L, false, 0⟩
  | .BR_STATUS_MEM_READY => ⟨10, 2, 1, 0, .RO, .L, false, 0⟩
  | .BR_STATUS_WAVE_READY => ⟨9, 1, 1, 0, .RO, .L, false, 0⟩
  | .BR_STATUS_QPLL_READY => ⟨5, 4, 1, 0, .RO, .L, false, 0⟩
  | .BR_STATUS_CORE_LOCK => ⟨4, 1, 1, 0, .RO, .L, false, 0⟩
  | .BR_STATUS_DSTATE => ⟨0, 2, 1, 0, .RO, .L, false, 0⟩
  | .BR_TIME_NS => ⟨0, 64, 1, 0, .RO, .L, false, 0⟩
  | .BR_STEP_NS => ⟨0, 32, 1, 0, .RW, .I, false, 0⟩
  | .BR_COMMIT_STEP => ⟨0, 1, 1, 0, .WO, .L, false, 0⟩
  | .BR_FCW_PPT => ⟨0, 32, 1, 0, .RW, .L, true, 0⟩
  | .BR_AGE_RATE_RATE => ⟨0, 16, 1, 0, .RW, .L, true, 0⟩
  | .BR_AGE_EPOCH_DAYS => ⟨0, 32, 1, 0, .RW, .L, true, 0⟩
  | .BR_AGE_NOW_DAYS => ⟨0, 32, 1, 0, .RO, .L, false, 0⟩
  | .BR_DISC_PPT => ⟨0, 32, 1, 0, .RO, .L, false, 0⟩
  | .BR_FEFF_PPT => ⟨0, 32, 1, 0, .RO, .L, false, 0⟩
  | .BR_SERVO_LOCK_NS => ⟨16, 16, 1, 0, .RW, .L, true, 0x32⟩
  | .BR_SERVO_TAU_S => ⟨0, 16, 1, 0, .RW, .L, true, 0x64⟩
  | .BR_PPS_LAST_T => ⟨0, 64, 1, 0, .RO, .L, false, 0⟩
  | .BR_PPS_ERR_NS => ⟨0, 32, 1, 0, .RO, .L, false, 0⟩
  | .SP_CTRL_EN => ⟨31, 1, 1, 0, .RW, .L, true, 1⟩
  | .SP_CTRL_AUTO_FORCE => ⟨30, 1, 1, 0, .RW, .L, true, 0⟩
  | .SP_CTRL_PERIOD_S => ⟨16, 14, 1, 0, .RW, .L, true, 0x3C⟩
  | .SP_CTRL_MAX_AGE_H => ⟨0, 16, 1, 0, .RW, .L, true, 0xA8⟩
  | .SP_LIMITS_DELTA_MAX => ⟨20, 12, 1, 0, .RW, .L, true, 0x666⟩
  | .SP_LIMITS_STEP_MAX => ⟨12, 8, 1, 0, .RW, .L, true, 0xA4⟩
  | .SP_LIMITS_SIGMA_MAX => ⟨4, 8, 1, 0, .RW, .L, true, 0x21⟩
  | .SP_LIMITS_RETRIES => ⟨0, 4, 1, 0, .RW, .L, true, 3⟩
  | .SP_FORCE_AFTER_S => ⟨16, 16, 1, 0, .RW, .L, true, 0xE10⟩
  | .SP_FORCE_WINDOW_US => ⟨0, 16, 1, 0, .RW, .L, true, 0xC8⟩
  | .SP_STATUS_REJECTS => ⟨48, 16, 1, 0, .RO, .L, false, 0⟩
  | .SP_STATUS_FORCED => ⟨32, 16, 1, 0, .RO, .L, false, 0⟩
  | .SP_STATUS_OUT => ⟨8, 12, 1, 0, .RO, .L, false, 0⟩
  | .SP_STATUS_REQ_OPEN => ⟨1, 1, 1, 0, .RO, .L, false, 0⟩
  | .SP_STATUS_FORCE_OPEN => ⟨0, 1, 1, 0, .RO, .L, false, 0⟩
  | .SP_AUX_WAVE => ⟨12, 3, 8, 3, .RO, .L, false, 0⟩
  | .SP_AUX_REIN => ⟨0, 3, 4, 3, .RO, .L, false, 0⟩
  | .TL_CTRL_SNAP => ⟨31, 1, 1, 0, .WO, .L, false, 0⟩
  | .TL_CTRL_SAMPLE_IRQ => ⟨30, 1, 1, 0, .RW, .L, true, 0⟩
  | .TL_CTRL_VECTOR => ⟨0, 11, 1, 0, .RW, .L, true, 0⟩
  | .TL_STATUS_SAMPLE_LOST => ⟨32, 32, 1, 0, .RO, .L, false, 0⟩
  | .TL_STATUS_QUEUED => ⟨0, 7, 1, 0, .RO, .L, false, 0⟩
  | .TL_OVF_WRAP => ⟨0, 64, 1, 0, .RW1C, .L, false, 0⟩
  | .TL_SAMPLE_LO_REC_LO => ⟨0, 64, 1, 0, .RO, .L, false, 0⟩
  | .TL_SAMPLE_HI_REC_HI => ⟨0, 64, 1, 0, .RO, .L, false, 0⟩
  | .TL_CFG_SAMPLE => ⟨31, 1, 1, 0, .RW, .L, false, 0⟩
  | .TL_CFG_CHAIN => ⟨30, 1, 1, 0, .RW, .L, false, 0⟩
  | .TL_CFG_GROUP => ⟨24, 4, 1, 0, .RW, .L, true, 0⟩
  | .TL_CFG_INST => ⟨8, 16, 1, 0, .RW, .L, true, 0xFFFF⟩
  | .TL_CFG_EVENT => ⟨0, 8, 1, 0, .RW, .L, true, 1⟩
  | .TL_CNT_COUNT => ⟨0, 48, 1, 0, .RW, .L, false, 0⟩
  | .TL_RELOAD_VALUE => ⟨0, 48, 1, 0, .RW, .L, false, 0⟩
  | .TL_SNAP_COUNT => ⟨0, 48, 1, 0, .RO, .L, false, 0⟩
  | .CS_STATUS_LOADED => ⟨63, 1, 1, 0, .RO, .L, false, 0⟩
  | .CS_STATUS_BUSY => ⟨62, 1, 1, 0, .RO, .L, false, 0⟩
  | .CS_STATUS_LOADS => ⟨40, 8, 1, 0, .RO, .L, false, 0⟩
  | .CS_STATUS_COPY_OK => ⟨0, 32, 1, 0, .RO, .L, false, 0⟩
  | .CS_IMAGE_BUILD => ⟨48, 16, 1, 0, .RO, .L, false, 0⟩
  | .CS_IMAGE_MAJOR => ⟨40, 8, 1, 0, .RO, .L, false, 0⟩
  | .CS_IMAGE_MINOR => ⟨32, 8, 1, 0, .RO, .L, false, 0⟩
  | .CS_IMAGE_SLOT => ⟨28, 2, 1, 0, .RO, .L, false, 0⟩
  | .CS_IMAGE_MWORDS => ⟨12, 15, 1, 0, .RO, .L, false, 0⟩
  | .CS_IMAGE_NANOS => ⟨0, 12, 1, 0, .RO, .L, false, 0⟩
  | .CS_LOAD_ERR_VALID => ⟨31, 1, 1, 0, .RW1C, .L, false, 0⟩
  | .CS_LOAD_ERR_NANO => ⟨30, 1, 1, 0, .RO, .L, false, 0⟩
  | .CS_LOAD_ERR_REASON => ⟨16, 4, 1, 0, .RO, .L, false, 0⟩
  | .CS_LOAD_ERR_ADDR => ⟨0, 14, 1, 0, .RO, .L, false, 0⟩
  | .CS_POLICY_SLOTS => ⟨16, 2, 1, 0, .RW, .L, true, 3⟩
  | .CS_POLICY_VERIFY_MIN => ⟨0, 16, 1, 0, .RW, .L, true, 0x3C⟩
  | .CS_REPAIR_VALID => ⟨31, 1, 1, 0, .RW1C, .L, false, 0⟩
  | .CS_REPAIR_LAST_COPY => ⟨16, 5, 1, 0, .RO, .L, false, 0⟩
  | .CS_REPAIR_COUNT => ⟨0, 16, 1, 0, .RO, .L, false, 0⟩
  | .CS_DIGEST_D => ⟨0, 64, 1, 0, .RO, .L, false, 0⟩
  | .RG_CTX_CMD_BUSY => ⟨31, 1, 1, 0, .RO, .L, false, 0⟩
  | .RG_CTX_CMD_CMD => ⟨16, 4, 1, 0, .WO, .L, false, 0⟩
  | .RG_CTX_CMD_RING => ⟨0, 16, 1, 0, .RW, .L, false, 0⟩
  | .RG_STATUS_DOORBELL_DROP => ⟨32, 16, 1, 0, .RO, .L, false, 0⟩
  | .RG_STATUS_TRACKER_USED => ⟨16, 16, 1, 0, .RO, .L, false, 0⟩
  | .RG_STATUS_CMD_ERR => ⟨1, 1, 1, 0, .RW1C, .L, false, 0⟩
  | .RG_STATUS_HALTED_ANY => ⟨0, 1, 1, 0, .RO, .L, false, 0⟩
  | .RG_WIN_BASE_ADDR => ⟨20, 17, 1, 0, .RW, .L, false, 0⟩
  | .RG_CTX_SQ_BASE => ⟨12, 52, 1, 0, .RW, .L, false, 0⟩
  | .RG_CTX_SQ_LOG2 => ⟨0, 5, 1, 0, .RW, .L, false, 4⟩
  | .RG_CTX_CQ_BASE => ⟨12, 52, 1, 0, .RW, .L, false, 0⟩
  | .RG_CTX_CQ_LOG2 => ⟨0, 5, 1, 0, .RW, .L, false, 4⟩
  | .RG_CTX_CTRL_HOLDOFF => ⟨52, 10, 1, 0, .RW, .L, false, 0⟩
  | .RG_CTX_CTRL_WINDOW => ⟨36, 16, 1, 0, .RW, .L, false, 0x100⟩
  | .RG_CTX_CTRL_WEIGHT => ⟨32, 4, 1, 0, .RW, .L, false, 1⟩
  | .RG_CTX_CTRL_CLASS => ⟨28, 2, 1, 0, .RW, .L, false, 2⟩
  | .RG_CTX_CTRL_VECTOR => ⟨16, 11, 1, 0, .RW, .L, false, 0⟩
  | .RG_CTX_CTRL_CQ => ⟨0, 16, 1, 0, .RW, .L, false, 0⟩
  | .RG_CTX_STATE_INFLIGHT => ⟨32, 16, 1, 0, .RO, .L, false, 0⟩
  | .RG_CTX_STATE_FETCH => ⟨12, 20, 1, 0, .RO, .L, false, 0⟩
  | .RG_CTX_STATE_LAST_ERR => ⟨4, 8, 1, 0, .RO, .L, false, 0⟩
  | .RG_CTX_STATE_STATE => ⟨0, 3, 1, 0, .RO, .L, false, 0⟩
  | .RG_CTX_IDX_CQ_PHASE => ⟨60, 1, 1, 0, .RO, .L, false, 1⟩
  | .RG_CTX_IDX_CQ_TAIL => ⟨40, 20, 1, 0, .RO, .L, false, 0⟩
  | .RG_CTX_IDX_CQ_HEAD => ⟨20, 20, 1, 0, .RO, .L, false, 0⟩
  | .RG_CTX_IDX_SQ_TAIL => ⟨0, 20, 1, 0, .RO, .L, false, 0⟩
  | .RG_CTX_RESTART_INDEX => ⟨0, 20, 1, 0, .RW, .L, false, 0⟩
  | .RG_TOKEN_VALUE => ⟨0, 32, 1, 0, .RW, .L, false, 0⟩
  | .RG_MSIX_ADDR_ADDR => ⟨0, 64, 1, 0, .RW, .L, false, 0⟩
  | .RG_MSIX_DATA_DATA => ⟨0, 32, 1, 0, .RW, .L, false, 0⟩
  | .RG_MSIX_CTRL_MASK => ⟨0, 1, 1, 0, .RW, .L, false, 1⟩
  | .MC_CTRL_SR_IDLE_US => ⟨16, 16, 1, 0, .RW, .L, true, 0x3E8⟩
  | .MC_CTRL_SCRUB_H => ⟨8, 8, 1, 0, .RW, .L, true, 0x18⟩
  | .MC_CTRL_KEEPOPEN => ⟨1, 1, 1, 0, .RW, .L, true, 1⟩
  | .MC_CTRL_OPPOINT => ⟨0, 1, 1, 0, .RW, .I, true, 0⟩
  | .MC_STATUS_DEFER_NS => ⟨32, 32, 1, 0, .RO, .L, false, 0⟩
  | .MC_STATUS_RETRAIN => ⟨10, 2, 1, 0, .RO, .L, false, 0⟩
  | .MC_STATUS_SR => ⟨8, 2, 1, 0, .RO, .L, false, 0⟩
  | .MC_STATUS_OP_PENDING => ⟨7, 1, 1, 0, .RO, .L, false, 0⟩
  | .MC_STATUS_OP_NOW => ⟨6, 1, 1, 0, .RO, .L, false, 0⟩
  | .MC_STATUS_SCRUB_UE => ⟨3, 1, 1, 0, .RW1C, .L, false, 0⟩
  | .MC_STATUS_UE => ⟨2, 1, 1, 0, .RW1C, .L, false, 0⟩
  | .MC_STATUS_CE => ⟨1, 1, 1, 0, .RW1C, .L, false, 0⟩
  | .MC_STATUS_CATCHUP => ⟨0, 1, 1, 0, .RW1C, .L, false, 0⟩
  | .MC_TEMP_RBAND => ⟨28, 2, 2, 32, .RO, .L, false, 0⟩
  | .MC_TEMP_REPORT => ⟨16, 12, 2, 32, .RO, .L, false, 0⟩
  | .MC_TEMP_MODEL => ⟨0, 12, 2, 32, .RO, .L, false, 0⟩
  | .MC_ACT_THRESH => ⟨0, 16, 1, 0, .RW, .L, true, 0x800⟩
  | .MC_RETRAIN_INTERVAL_MS => ⟨0, 16, 1, 0, .RW, .L, true, 0x64⟩
  | .MC_ERR_VALID => ⟨63, 1, 1, 0, .RW1C, .L, false, 0⟩
  | .MC_ERR_MORE => ⟨62, 1, 1, 0, .RW1C, .L, false, 0⟩
  | .MC_ERR_KIND => ⟨60, 2, 1, 0, .RO, .L, false, 0⟩
  | .MC_ERR_ADDR => ⟨5, 32, 1, 0, .RO, .L, false, 0⟩
  | .TW_CTRL_EN => ⟨31, 1, 1, 0, .RW, .I, true, 0⟩
  | .TW_CTRL_PREFER => ⟨30, 1, 1, 0, .RW, .I, true, 0⟩
  | .TW_CTRL_PORT => ⟨28, 2, 1, 0, .RW, .I, true, 3⟩
  | .TW_CTRL_VECTOR => ⟨16, 11, 1, 0, .RW, .L, true, 0⟩
  | .TW_TIMING_MISS => ⟨24, 8, 1, 0, .RW, .I, true, 8⟩
  | .TW_TIMING_HB_US => ⟨12, 12, 1, 0, .RW, .I, true, 0x14⟩
  | .TW_TIMING_SWITCH_US => ⟨0, 12, 1, 0, .RW, .I, true, 0x32⟩
  | .TW_LEASE_SEEK_MS => ⟨16, 16, 1, 0, .RW, .I, true, 0x1F4⟩
  | .TW_LEASE_LEASE_US => ⟨0, 16, 1, 0, .RW, .I, true, 0xFA⟩
  | .TW_STATUS_TAKEOVERS => ⟨32, 16, 1, 0, .RO, .L, false, 0⟩
  | .TW_STATUS_DIVERGE => ⟨16, 16, 1, 0, .RO, .L, false, 0⟩
  | .TW_STATUS_PEER_OWN => ⟨15, 1, 1, 0, .RO, .L, false, 0⟩
  | .TW_STATUS_OWN => ⟨14, 1, 1, 0, .RO, .L, false, 0⟩
  | .TW_STATUS_DIGEST_MISMATCH => ⟨13, 1, 1, 0, .RW1C, .L, false, 0⟩
  | .TW_STATUS_DIVERGED => ⟨12, 1, 1, 0, .RW1C, .L, false, 0⟩
  | .TW_STATUS_CONTENTION => ⟨11, 1, 1, 0, .RW1C, .L, false, 0⟩
  | .TW_STATUS_TOOK_OVER => ⟨10, 1, 1, 0, .RW1C, .L, false, 0⟩
  | .TW_STATUS_PEER_LOST => ⟨9, 1, 1, 0, .RW1C, .L, false, 0⟩
  | .TW_STATUS_ROLE => ⟨0, 3, 1, 0, .RO, .L, false, 0⟩
  | .TW_SYNC_BASE_ADDR => ⟨10, 27, 1, 0, .RW, .I, false, 0⟩
  | .TW_SYNC_LEN_LEN => ⟨10, 27, 1, 0, .RW, .I, false, 0⟩
  | .TW_SYNC_DONE_BYTES => ⟨0, 64, 1, 0, .RO, .L, false, 0⟩
  | .TA_STATUS_COINCIDENT => ⟨32, 16, 1, 0, .RO, .L, false, 0⟩
  | .TA_STATUS_ARMED => ⟨16, 16, 1, 0, .RO, .L, false, 0⟩
  | .TA_STATUS_FIRED => ⟨0, 16, 1, 0, .RO, .L, false, 0⟩
  | .TA_SPAN_LAT => ⟨16, 16, 1, 0, .RW, .I, true, 0xC8⟩
  | .TA_SPAN_TAG => ⟨0, 16, 1, 0, .RW, .I, false, 0⟩
  | .TA_FORCE_SOFT => ⟨0, 16, 1, 0, .WO, .L, false, 0⟩
  | .TA_SLOT_CTRL_EN => ⟨31, 1, 1, 0, .RW, .L, false, 0⟩
  | .TA_SLOT_CTRL_ARM => ⟨30, 1, 1, 0, .WO, .L, false, 0⟩
  | .TA_SLOT_CTRL_FWD => ⟨29, 1, 1, 0, .RW, .I, false, 0⟩
  | .TA_SLOT_CTRL_MODE => ⟨26, 2, 1, 0, .RW, .I, false, 0⟩
  | .TA_SLOT_CTRL_SRC => ⟨22, 4, 1, 0, .RW, .I, false, 0⟩
  | .TA_SLOT_CTRL_COND => ⟨20, 2, 1, 0, .RW, .I, false, 0⟩
  | .TA_SLOT_CTRL_EDGE => ⟨18, 2, 1, 0, .RW, .I, false, 0⟩
  | .TA_SLOT_CTRL_SEL => ⟨0, 14, 1, 0, .RW, .I, false, 0⟩
  | .TA_SLOT_LEVEL_B => ⟨16, 16, 1, 0, .RW, .I, false, 0⟩
  | .TA_SLOT_LEVEL_A => ⟨0, 16, 1, 0, .RW, .I, false, 0⟩
  | .TA_SLOT_COND_HYST => ⟨16, 12, 1, 0, .RW, .I, true, 0x10⟩
  | .TA_SLOT_COND_DIST => ⟨0, 6, 1, 0, .RW, .I, false, 0⟩
  | .TA_SLOT_HOLDOFF_SAMPLES => ⟨0, 32, 1, 0, .RW, .I, false, 0⟩
  | .TA_SLOT_AUTO_US => ⟨0, 32, 1, 0, .RW, .I, false, 0⟩
  | .TA_SLOT_STATUS_SEQ => ⟨32, 32, 1, 0, .RO, .L, false, 0⟩
  | .TA_SLOT_STATUS_HELDOFF => ⟨16, 16, 1, 0, .RO, .L, false, 0⟩
  | .TA_SLOT_STATUS_BADCFG => ⟨6, 1, 1, 0, .RO, .L, false, 0⟩
  | .TA_SLOT_STATUS_LATE => ⟨5, 1, 1, 0, .RW1C, .L, false, 0⟩
  | .TA_SLOT_STATUS_FORCED => ⟨4, 1, 1, 0, .RO, .L, false, 0⟩
  | .TA_SLOT_STATUS_COINCIDENT => ⟨3, 1, 1, 0, .RW1C, .L, false, 0⟩
  | .TA_SLOT_STATUS_FIRED => ⟨2, 1, 1, 0, .RW1C, .L, false, 0⟩
  | .TA_SLOT_STATUS_ARMED => ⟨1, 1, 1, 0, .RO, .L, false, 0⟩
  | .TA_SLOT_LAST_T => ⟨0, 64, 1, 0, .RO, .L, false, 0⟩
  | .TM_STATUS_JOBS => ⟨32, 10, 1, 0, .RO, .L, false, 0⟩
  | .TM_STATUS_HISTS => ⟨0, 6, 1, 0, .RO, .L, false, 0⟩
  | .TM_CTDC_ROUTE_VALID => ⟨15, 1, 4, 16, .RO, .L, false, 0⟩
  | .TM_CTDC_ROUTE_INPUT => ⟨8, 1, 4, 16, .RO, .L, false, 0⟩
  | .TM_CTDC_ROUTE_PIN => ⟨0, 8, 4, 16, .RO, .L, false, 0⟩
  | .FR_STATUS_UE => ⟨33, 1, 1, 0, .RW1C, .L, false, 0⟩
  | .FR_STATUS_CE => ⟨32, 1, 1, 0, .RW1C, .L, false, 0⟩
  | .FR_STATUS_USED => ⟨0, 20, 1, 0, .RO, .L, false, 0⟩
  | .FR_SITE_QUOTA_RECORDS => ⟨0, 20, 1, 0, .RW, .I, true, 0x2000⟩
  | .FR_SITE_CTRL_CLEAR => ⟨1, 1, 1, 0, .WO, .I, false, 0⟩
  | .FR_SITE_CTRL_SPILL_EN => ⟨0, 1, 1, 0, .RW, .I, true, 1⟩
  | .FR_SITE_SPILL_BASE_ADDR => ⟨4, 33, 1, 0, .RW, .I, false, 0⟩
  | .FR_SITE_SPILL_SIZE_RECORDS => ⟨0, 33, 1, 0, .RW, .I, false, 0⟩
  | .FR_SITE_CAP_BASE_ADDR => ⟨6, 31, 1, 0, .RW, .I, false, 0⟩
  | .FR_SITE_CAP_SIZE_BLOCKS => ⟨0, 31, 1, 0, .RW, .I, false, 0⟩
  | .FR_SITE_RECORDS_COUNT => ⟨0, 48, 1, 0, .RO, .L, false, 0⟩
  | .FR_SITE_DROPPED_BLOCKS => ⟨32, 32, 1, 0, .RO, .L, false, 0⟩
  | .FR_SITE_DROPPED_RECORDS => ⟨0, 32, 1, 0, .RO, .L, false, 0⟩
  | .FR_SITE_CAPTURED_COUNT => ⟨0, 48, 1, 0, .RO, .L, false, 0⟩
  | .SITE_CTRL_DOZE_EN => ⟨7, 1, 1, 0, .RW, .L, true, 1⟩
  | .SITE_CTRL_SPAN_ROLE => ⟨5, 2, 1, 0, .RW, .I, false, 0⟩
  | .SITE_CTRL_UNDERRUN_POL => ⟨4, 1, 1, 0, .RW, .I, true, 0⟩
  | .SITE_STATUS_EV_IGNORED => ⟨32, 32, 1, 0, .RO, .L, false, 0⟩
  | .SITE_STATUS_CONFLICT => ⟨15, 1, 1, 0, .RW1C, .L, false, 0⟩
  | .SITE_STATUS_STALE => ⟨14, 1, 1, 0, .RW1C, .L, false, 0⟩
  | .SITE_STATUS_UNDERRUN => ⟨13, 1, 1, 0, .RW1C, .L, false, 0⟩
  | .SITE_STATUS_RDV_MISS => ⟨12, 1, 1, 0, .RW1C, .L, false, 0⟩
  | .SITE_STATUS_SPAN_LATE => ⟨11, 1, 1, 0, .RW1C, .L, false, 0⟩
  | .SITE_STATUS_ARM_TIMEOUT => ⟨10, 1, 1, 0, .RW1C, .L, false, 0⟩
  | .SITE_STATUS_STRETCHED => ⟨9, 1, 1, 0, .RW1C, .L, false, 0⟩
  | .SITE_STATUS_STALE_ACTIVE => ⟨8, 1, 1, 0, .RO, .L, false, 0⟩
  | .SITE_STATUS_STATE => ⟨0, 3, 1, 0, .RO, .L, false, 0⟩
  | .SITE_COMMIT_COND => ⟨0, 1, 1, 0, .WO, .L, false, 0⟩
  | .SITE_MEMBER_MASK => ⟨0, 64, 1, 0, .RW, .I, false, 0⟩
  | .SITE_PRIVATE_MASK => ⟨0, 64, 1, 0, .RW, .I, false, 0⟩
  | .SITE_PPT_ADDR_ADDR => ⟨4, 33, 1, 0, .RW, .I, false, 0⟩
  | .SITE_GRID_PERIOD => ⟨0, 48, 1, 0, .RW, .I, false, 0⟩
  | .SITE_EVENT_EDGE => ⟨3, 2, 1, 0, .RW, .I, false, 0⟩
  | .SITE_EVENT_EV_SEL => ⟨0, 3, 1, 0, .RW, .I, false, 0⟩
  | .SITE_EV_DELAY_DELAY => ⟨0, 32, 1, 0, .RW, .I, true, 0x4B0⟩
  | .SITE_SPAN_SPAN_TAG => ⟨0, 16, 1, 0, .RW, .I, false, 0⟩
  | .SITE_SPAN_LAT_LAT => ⟨0, 16, 1, 0, .RW, .I, false, 0⟩
  | .SITE_SPAN_CMASK_CMASK => ⟨0, 32, 1, 0, .RW, .S, false, 0⟩
  | .SITE_ARM_TIMEOUT_MS => ⟨0, 32, 1, 0, .RW, .I, true, 0⟩
  | .SITE_CSRC_SRC => ⟨0, 8, 8, 8, .RW, .S, false, 0⟩
  | .SITE_STRETCH_MAX_COUNT => ⟨0, 32, 1, 0, .RW, .I, true, 0x1000⟩
  | .SITE_SEAM_DEADLINE_NS => ⟨0, 32, 1, 0, .RW, .L, true, 0x3B9ACA00⟩
  | .SITE_DOZE_DELAY_US => ⟨0, 32, 1, 0, .RW, .L, true, 0x2710⟩
  | .SITE_COND_C => ⟨0, 32, 1, 0, .RO, .L, false, 0⟩
  | .SITE_START_TIME_T => ⟨0, 64, 1, 0, .RO, .L, false, 0⟩
  | .SITE_VCOUNT_COUNT => ⟨0, 48, 1, 0, .RO, .L, false, 0⟩
  | .RN_LANE_CTRL_EXCLUDE => ⟨2, 1, 1, 0, .RW, .I, true, 0⟩
  | .RN_LANE_CTRL_RX_INV => ⟨1, 1, 1, 0, .RW, .I, true, 0⟩
  | .RN_LANE_CTRL_TX_INV => ⟨0, 1, 1, 0, .RW, .I, true, 0⟩
  | .RN_LANE_STATUS_REVERTS => ⟨48, 16, 1, 0, .RO, .L, false, 0⟩
  | .RN_LANE_STATUS_SNAP => ⟨32, 12, 1, 0, .RO, .L, false, 0⟩
  | .RN_LANE_STATUS_FOM => ⟨16, 12, 1, 0, .RO, .L, false, 0⟩
  | .RN_LANE_STATUS_REVERTED => ⟨4, 1, 1, 0, .RW1C, .L, false, 0⟩
  | .RN_LANE_STATUS_FROZEN => ⟨3, 1, 1, 0, .RO, .L, false, 0⟩
  | .RN_LANE_STATUS_USED => ⟨2, 1, 1, 0, .RO, .L, false, 0⟩
  | .RN_LANE_STATUS_LOCK => ⟨1, 1, 1, 0, .RO, .L, false, 0⟩
  | .RN_PORT_CTRL_EN => ⟨31, 1, 1, 0, .RW, .L, true, 0⟩
  | .RN_PORT_CTRL_UPSTREAM => ⟨30, 1, 1, 0, .RW, .I, true, 0⟩
  | .RN_PORT_CTRL_FWD => ⟨29, 1, 1, 0, .RW, .I, true, 1⟩
  | .RN_PORT_CTRL_FOM_MIN => ⟨16, 12, 1, 0, .RW, .L, true, 0x400⟩
  | .RN_PORT_CTRL_ROLE => ⟨8, 2, 1, 0, .RW, .I, true, 0⟩
  | .RN_PORT_CTRL_WIDTH_MAX => ⟨4, 2, 1, 0, .RW, .I, true, 2⟩
  | .RN_PORT_CTRL_RATE_MAX => ⟨0, 2, 1, 0, .RW, .L, true, 3⟩
  | .RN_PORT_STATUS_DEFER_US => ⟨48, 16, 1, 0, .RO, .L, false, 0⟩
  | .RN_PORT_STATUS_REPLAYS => ⟨32, 16, 1, 0, .RO, .L, false, 0⟩
  | .RN_PORT_STATUS_ELASTIC => ⟨22, 1, 1, 0, .RW1C, .L, false, 0⟩
  | .RN_PORT_STATUS_PEER_FAULT_NOW => ⟨20, 1, 1, 0, .RO, .L, false, 0⟩
  | .RN_PORT_STATUS_PEER_FAULT => ⟨19, 1, 1, 0, .RW1C, .L, false, 0⟩
  | .RN_PORT_STATUS_LINK_LOSS => ⟨18, 1, 1, 0, .RW1C, .L, false, 0⟩
  | .RN_PORT_STATUS_FALLBACK => ⟨17, 1, 1, 0, .RW1C, .L, false, 0⟩
  | .RN_PORT_STATUS_RATE_PENDING => ⟨16, 1, 1, 0, .RO, .L, false, 0⟩
  | .RN_PORT_STATUS_LANES => ⟨12, 4, 1, 0, .RO, .L, false, 0⟩
  | .RN_PORT_STATUS_WIDTH_NOW => ⟨8, 2, 1, 0, .RO, .L, false, 0⟩
  | .RN_PORT_STATUS_RATE_NOW => ⟨4, 2, 1, 0, .RO, .L, false, 0⟩
  | .RN_PORT_STATUS_LSTATE => ⟨0, 3, 1, 0, .RO, .L, false, 0⟩
  | .RN_PORT_TIME_THETA => ⟨32, 32, 1, 0, .RO, .L, false, 0⟩
  | .RN_PORT_TIME_DELAY => ⟨0, 32, 1, 0, .RO, .L, false, 0⟩
  | .RN_PORT_TIMECAL_TAU_MS => ⟨16, 16, 1, 0, .RW, .L, true, 0xA⟩
  | .RN_PORT_TIMECAL_BOARD_ASYM => ⟨0, 16, 1, 0, .RW, .L, true, 0⟩
  | .RN_PORT_PEER_ASYM => ⟨32, 32, 1, 0, .RO, .L, false, 0⟩
  | .RN_PORT_PEER_REJECTS => ⟨16, 16, 1, 0, .RO, .L, false, 0⟩
  | .RN_PORT_PEER_PEER_RATE => ⟨14, 2, 1, 0, .RO, .L, false, 0⟩
  | .RN_PORT_PEER_PEER_LANES => ⟨10, 4, 1, 0, .RO, .L, false, 0⟩
  | .RN_PORT_COUNT_FWD => ⟨32, 32, 1, 0, .RO, .L, false, 0⟩
  | .RN_PORT_COUNT_NOMATCH => ⟨16, 16, 1, 0, .RO, .L, false, 0⟩
  | .RN_PORT_COUNT_DUP => ⟨0, 16, 1, 0, .RO, .L, false, 0⟩
  | .WV_CTRL_ADC_EN => ⟨7, 1, 1, 0, .RW, .I, true, 1⟩
  | .WV_CTRL_DAC_EN => ⟨6, 1, 1, 0, .RW, .I, true, 1⟩
  | .WV_CTRL_PARK => ⟨5, 1, 1, 0, .RW, .I, true, 1⟩
  | .WV_STATUS_ENTRY => ⟨52, 12, 1, 0, .RO, .L, false, 0⟩
  | .WV_STATUS_MERGED => ⟨16, 16, 1, 0, .RO, .L, false, 0⟩
  | .WV_STATUS_UNDERRUN => ⟨15, 1, 1, 0, .RW1C, .L, false, 0⟩
  | .WV_STATUS_BAD_ENTRY => ⟨14, 1, 1, 0, .RW1C, .L, false, 0⟩
  | .WV_STATUS_EMPTY => ⟨13, 1, 1, 0, .RW1C, .L, false, 0⟩
  | .WV_STATUS_CLIPPED => ⟨12, 1, 1, 0, .RW1C, .L, false, 0⟩
  | .WV_STATUS_OVERRANGE => ⟨11, 1, 1, 0, .RW1C, .L, false, 0⟩
  | .WV_STATUS_PLL_LOSS => ⟨10, 1, 1, 0, .RW1C, .L, false, 0⟩
  | .WV_STATUS_JUMP_PENDING => ⟨9, 1, 1, 0, .RO, .L, false, 0⟩
  | .WV_STATUS_TONE_PENDING => ⟨8, 1, 1, 0, .RO, .L, false, 0⟩
  | .WV_STATUS_WP_RANGE => ⟨3, 1, 1, 0, .RW1C, .L, false, 0⟩
  | .WV_STATUS_STATE => ⟨0, 3, 1, 0, .RO, .L, false, 0⟩
  | .WV_SEQ_BASE_ADDR => ⟨4, 33, 1, 0, .RW, .I, false, 0⟩
  | .WV_SEQ_LEN_ENTRIES => ⟨0, 13, 1, 0, .RW, .I, false, 1⟩
  | .WV_JUMP_SRC_SRC => ⟨16, 3, 1, 0, .RW, .I, false, 0⟩
  | .WV_JUMP_SRC_SITE => ⟨8, 6, 1, 0, .RW, .I, false, 0⟩
  | .WV_JUMP_SRC_SEL => ⟨0, 5, 1, 0, .RW, .I, false, 0⟩
  | .WV_TONE_FTW_FTW => ⟨0, 48, 1, 0, .RW, .S, false, 0⟩
  | .WV_TONE_PHASE_PHASE => ⟨0, 16, 1, 0, .RW, .S, false, 0⟩
  | .WV_TONE_LEVEL_OFFSET => ⟨16, 12, 1, 0, .RW, .S, false, 0⟩
  | .WV_TONE_LEVEL_AMP => ⟨0, 11, 1, 0, .RW, .S, false, 0⟩
  | .WV_COMMIT_TONE => ⟨0, 1, 1, 0, .WO, .L, false, 0⟩
  | .WV_JUMP_REQ => ⟨0, 1, 1, 0, .WO, .L, false, 0⟩
  | .WV_STREAM_BASE_ADDR => ⟨7, 30, 1, 0, .RW, .I, false, 0⟩
  | .WV_STREAM_SIZE_GRANULES => ⟨0, 32, 1, 0, .RW, .I, false, 0⟩
  | .WV_STREAM_WP_WP => ⟨0, 32, 1, 0, .RW, .L, false, 0⟩
  | .WV_STREAM_RP_RP => ⟨0, 32, 1, 0, .RO, .L, false, 0⟩
  | .WV_START_TIME_T => ⟨0, 64, 1, 0, .RO, .L, false, 0⟩
  | .MC_PC_STATUS_DEBT_NS => ⟨32, 32, 1, 0, .RO, .L, false, 0⟩
  | .MC_PC_STATUS_RBAND => ⟨10, 2, 1, 0, .RO, .L, false, 0⟩
  | .MC_PC_STATUS_TRAINING => ⟨9, 1, 1, 0, .RO, .L, false, 0⟩
  | .MC_PC_STATUS_CATCHUP_NOW => ⟨8, 1, 1, 0, .RO, .L, false, 0⟩
  | .MC_PC_STATUS_NEXT_BANK => ⟨0, 6, 1, 0, .RO, .L, false, 0⟩
  | .MC_PC_COUNT_NEIGHBOUR => ⟨48, 16, 1, 0, .RO, .L, false, 0⟩
  | .MC_PC_COUNT_CATCHUPS => ⟨32, 16, 1, 0, .RO, .L, false, 0⟩
  | .MC_PC_COUNT_UE => ⟨16, 16, 1, 0, .RO, .L, false, 0⟩
  | .MC_PC_COUNT_CE => ⟨0, 16, 1, 0, .RO, .L, false, 0⟩
  | .PIN_TS_PERIOD_PERIOD => ⟨0, 32, 1, 0, .RW, .S, false, 0x28000⟩
  | .PIN_TS_MODE_BURST => ⟨8, 1, 1, 0, .RW, .S, false, 0⟩
  | .PIN_TS_MODE_CMODE => ⟨4, 2, 1, 0, .RW, .S, false, 0⟩
  | .PIN_TS_MODE_FORMAT => ⟨0, 3, 1, 0, .RW, .S, false, 6⟩
  | .PIN_TS_DON_T => ⟨0, 32, 1, 0, .RW, .S, false, 0⟩
  | .PIN_TS_DDAT_T => ⟨0, 32, 1, 0, .RW, .S, false, 0⟩
  | .PIN_TS_DRET_T => ⟨0, 32, 1, 0, .RW, .S, false, 0⟩
  | .PIN_TS_DOFF_T => ⟨0, 32, 1, 0, .RW, .S, false, 0⟩
  | .PIN_TS_SOPEN_T => ⟨0, 32, 1, 0, .RW, .S, false, 0x14000⟩
  | .PIN_TS_SCLOSE_T => ⟨0, 32, 1, 0, .RW, .S, false, 0x14000⟩
  | .PIN_TS_COMMIT_SET => ⟨0, 32, 1, 0, .WO, .L, false, 0⟩
  | .PIN_TS_PENDING_SET => ⟨0, 32, 1, 0, .RO, .L, false, 0⟩
  | .PIN_TS_REJECT_VALID => ⟨31, 1, 1, 0, .RW1C, .L, false, 0⟩
  | .PIN_TS_REJECT_MORE => ⟨30, 1, 1, 0, .RW1C, .L, false, 0⟩
  | .PIN_TS_REJECT_REASON => ⟨16, 3, 1, 0, .RO, .L, false, 0⟩
  | .PIN_TS_REJECT_SET => ⟨0, 5, 1, 0, .RO, .L, false, 0⟩
  | .PIN_TF_COMMIT_DESKEW => ⟨0, 1, 1, 0, .WO, .L, false, 0⟩
  | .PIN_TF_DESKEW0_DDAT => ⟨16, 16, 1, 0, .RW, .S, true, 0⟩
  | .PIN_TF_DESKEW0_DON => ⟨0, 16, 1, 0, .RW, .S, true, 0⟩
  | .PIN_TF_DESKEW1_DOFF => ⟨16, 16, 1, 0, .RW, .S, true, 0⟩
  | .PIN_TF_DESKEW1_DRET => ⟨0, 16, 1, 0, .RW, .S, true, 0⟩
  | .PIN_TF_DESKEW2_SCLOSE => ⟨16, 16, 1, 0, .RW, .S, true, 0⟩
  | .PIN_TF_DESKEW2_SOPEN => ⟨0, 16, 1, 0, .RW, .S, true, 0⟩
  | .PIN_TF_STATUS_SPACING_COUNT => ⟨32, 32, 1, 0, .RO, .L, false, 0⟩
  | .PIN_TF_STATUS_BAND => ⟨20, 4, 1, 0, .RO, .L, false, 0⟩
  | .PIN_TF_STATUS_TRIM_PENDING => ⟨15, 1, 1, 0, .RO, .L, false, 0⟩
  | .PIN_TF_STATUS_DESKEW_PENDING => ⟨14, 1, 1, 0, .RO, .L, false, 0⟩
  | .PIN_TF_STATUS_SPACING => ⟨1, 1, 1, 0, .RW1C, .L, false, 0⟩
  | .PIN_TF_STATUS_PLL_LOSS => ⟨0, 1, 1, 0, .RW1C, .L, false, 0⟩
  | .PIN_DSQ_STATUS_WADDR => ⟨32, 32, 1, 0, .RO, .L, false, 0⟩
  | .PIN_DSQ_STATUS_FSLOT => ⟨25, 4, 1, 0, .RO, .L, false, 0⟩
  | .PIN_DSQ_STATUS_SDEPTH => ⟨20, 5, 1, 0, .RO, .L, false, 0⟩
  | .PIN_DSQ_STATUS_LOOP_ACTIVE => ⟨12, 8, 1, 0, .RO, .L, false, 0⟩
  | .PIN_DSQ_STATUS_PARTIAL => ⟨7, 1, 1, 0, .RW1C, .L, false, 0⟩
  | .PIN_DSQ_STATUS_STARVED => ⟨6, 1, 1, 0, .RW1C, .L, false, 0⟩
  | .PIN_DSQ_STATUS_DWELL => ⟨5, 1, 1, 0, .RW1C, .L, false, 0⟩
  | .PIN_DSQ_STATUS_FAULT => ⟨4, 1, 1, 0, .RW1C, .L, false, 0⟩
  | .PIN_DSQ_STATUS_STATE => ⟨0, 3, 1, 0, .RO, .L, false, 0⟩
  | .PIN_CSQ_STATUS_PARTIAL => ⟨7, 1, 1, 0, .RW1C, .L, false, 0⟩
  | .PIN_CSQ_STATUS_STATE => ⟨0, 2, 1, 0, .RO, .L, false, 0⟩
  | .PIN_SEQ_CTRL_IDLE_CODE => ⟨0, 4, 1, 0, .RW, .I, true, 4⟩
  | .PIN_STREAM_BASE_ADDR => ⟨4, 33, 1, 0, .RW, .I, false, 0⟩
  | .PIN_STREAM_LEN_ENTRIES => ⟨0, 32, 1, 0, .RW, .I, false, 0⟩
  | .PIN_STREAM_CTRL_HOLD_LINES => ⟨0, 11, 1, 0, .RW, .I, true, 0x400⟩
  | .PIN_STREAM_STATUS_POS => ⟨32, 32, 1, 0, .RO, .L, false, 0⟩
  | .PIN_STREAM_STATUS_HELD => ⟨20, 12, 1, 0, .RO, .L, false, 0⟩
  | .PIN_STREAM_STATUS_PINNED => ⟨8, 8, 1, 0, .RO, .L, false, 0⟩
  | .PIN_STREAM_STATUS_BAD_STREAM => ⟨3, 1, 1, 0, .RW1C, .L, false, 0⟩
  | .PIN_STREAM_STATUS_BADCODE => ⟨2, 1, 1, 0, .RW1C, .L, false, 0⟩
  | .PIN_STREAM_STATUS_STRETCHED => ⟨1, 1, 1, 0, .RW1C, .L, false, 0⟩
  | .PIN_STREAM_STATUS_UNDERRUN => ⟨0, 1, 1, 0, .RW1C, .L, false, 0⟩
  | .PIN_STREAM_COUNT_STRETCH_REPS => ⟨32, 32, 1, 0, .RO, .L, false, 0⟩
  | .PIN_STREAM_COUNT_REFETCH => ⟨0, 32, 1, 0, .RO, .L, false, 0⟩
  | .PIN_CMP_CTRL_LOSS_RUN => ⟨20, 8, 1, 0, .RW, .I, true, 0⟩
  | .PIN_CMP_CTRL_ERRMAX => ⟨16, 4, 1, 0, .RW, .I, true, 0⟩
  | .PIN_CMP_CTRL_OFFSET => ⟨0, 12, 1, 0, .RW, .I, true, 0⟩
  | .PIN_CMP_FINE_F => ⟨0, 16, 1, 0, .RW, .I, true, 0⟩
  | .PIN_CMP_STATUS_UNJUDGED => ⟨32, 16, 1, 0, .RO, .L, false, 0⟩
  | .PIN_CMP_STATUS_CONTRA => ⟨23, 1, 1, 0, .RW1C, .L, false, 0⟩
  | .PIN_CMP_STATUS_LOSS => ⟨22, 1, 1, 0, .RW1C, .L, false, 0⟩
  | .PIN_CMP_STATUS_NOLOCK => ⟨21, 1, 1, 0, .RW1C, .L, false, 0⟩
  | .PIN_CMP_STATUS_SKIP => ⟨20, 1, 1, 0, .RW1C, .L, false, 0⟩
  | .PIN_CMP_STATUS_LSTATE => ⟨12, 3, 1, 0, .RO, .L, false, 0⟩
  | .PIN_CMP_STATUS_OFFSET_NOW => ⟨0, 12, 1, 0, .RO, .L, false, 0⟩
  | .PIN_CMP_LOCK_VCOUNT => ⟨16, 48, 1, 0, .RO, .L, false, 0⟩
  | .PIN_CMP_LOCK_ERRS => ⟨12, 4, 1, 0, .RO, .L, false, 0⟩
  | .PIN_CMP_LOCK_OFFSET => ⟨0, 12, 1, 0, .RO, .L, false, 0⟩
  | .PIN_FAIL_CTRL_LIMIT => ⟨16, 16, 1, 0, .RW, .I, true, 0x100⟩
  | .PIN_FAIL_CTRL_CAPALL => ⟨4, 1, 1, 0, .RW, .I, true, 0⟩
  | .PIN_FAIL_CTRL_MODE => ⟨0, 4, 1, 0, .RW, .I, true, 0⟩
  | .PIN_FAIL_COUNT_COUNT => ⟨0, 48, 1, 0, .RO, .L, false, 0⟩
  | .PIN_FAIL_FIRST_VALID => ⟨63, 1, 1, 0, .RO, .L, false, 0⟩
  | .PIN_FAIL_FIRST_VCOUNT => ⟨0, 48, 1, 0, .RO, .L, false, 0⟩
  | .PIN_FAIL_FIRST_ADDR_SEQADDR => ⟨0, 32, 1, 0, .RO, .L, false, 0⟩
  | .PIN_FAIL_FIRST_TIME_T => ⟨0, 64, 1, 0, .RO, .L, false, 0⟩
  | .PIN_CAP_COUNT_DROPPED => ⟨32, 32, 1, 0, .RO, .L, false, 0⟩
  | .PIN_CAP_COUNT_BLOCKS => ⟨0, 32, 1, 0, .RO, .L, false, 0⟩
  | .PIN_TM_CTRL_CL_ROUTE => ⟨2, 2, 1, 0, .RW, .I, true, 0⟩
  | .PIN_TM_CTRL_CH_ROUTE => ⟨0, 2, 1, 0, .RW, .I, true, 0⟩
  | .PIN_TM_STATUS_LOST => ⟨32, 32, 1, 0, .RO, .L, false, 0⟩
  | .PIN_TM_STATUS_NOJOB => ⟨16, 16, 1, 0, .RO, .L, false, 0⟩
  | .PIN_TM_STATUS_CL_BUSY => ⟨11, 1, 1, 0, .RO, .L, false, 0⟩
  | .PIN_TM_STATUS_CL_ROUTED => ⟨10, 1, 1, 0, .RO, .L, false, 0⟩
  | .PIN_TM_STATUS_CL_TABLE => ⟨9, 1, 1, 0, .RO, .L, false, 0⟩
  | .PIN_TM_STATUS_CL_DOWN => ⟨8, 1, 1, 0, .RO, .L, false, 0⟩
  | .PIN_TM_STATUS_CH_BUSY => ⟨3, 1, 1, 0, .RO, .L, false, 0⟩
  | .PIN_TM_STATUS_CH_ROUTED => ⟨2, 1, 1, 0, .RO, .L, false, 0⟩
  | .PIN_TM_STATUS_CH_TABLE => ⟨1, 1, 1, 0, .RO, .L, false, 0⟩
  | .PIN_TM_STATUS_CH_DOWN => ⟨0, 1, 1, 0, .RO, .L, false, 0⟩
  | .PIN_TM_SEQ_CL_SEQ => ⟨32, 32, 1, 0, .RO, .L, false, 0⟩
  | .PIN_TM_SEQ_CH_SEQ => ⟨0, 32, 1, 0, .RO, .L, false, 0⟩
  | .PIN_CAL_STATUS_AGE_MIN => ⟨48, 16, 1, 0, .RO, .L, false, 0xFFFF⟩
  | .PIN_CAL_STATUS_SIGMA => ⟨40, 8, 1, 0, .RO, .L, false, 0⟩
  | .PIN_CAL_STATUS_REJ_RUN => ⟨32, 8, 1, 0, .RO, .L, false, 0⟩
  | .PIN_CAL_STATUS_TDC_CL => ⟨12, 3, 1, 0, .RO, .L, false, 0⟩
  | .PIN_CAL_STATUS_TDC_CH => ⟨8, 3, 1, 0, .RO, .L, false, 0⟩
  | .PIN_CAL_STATUS_COMP => ⟨4, 3, 1, 0, .RO, .L, false, 0⟩
  | .PIN_CAL_STATUS_EDGE => ⟨0, 3, 1, 0, .RO, .L, false, 0⟩
  | .OCT_PEC_CTRL_SAMPLE => ⟨2, 1, 1, 0, .RW, .I, true, 0⟩
  | .OCT_PEC_CTRL_CLK => ⟨0, 2, 1, 0, .RW, .I, true, 1⟩
  | .OCT_PEC_STATUS_XFERS => ⟨32, 32, 1, 0, .RO, .L, false, 0⟩
  | .OCT_PEC_STATUS_NAKS => ⟨16, 16, 1, 0, .RO, .L, false, 0⟩
  | .OCT_PEC_STATUS_TMOS => ⟨1, 15, 1, 0, .RO, .L, false, 0⟩
  | .OCT_PEC_STATUS_BUSY => ⟨0, 1, 1, 0, .RO, .L, false, 0⟩

/-- One register card: the offset in its block, how many registers the card names and at which distance, the width in
bits, and the fields. -/
structure RegSpec where
  reg : Reg
  off : Nat
  count : Nat
  step : Nat
  width : Nat
  fields : List Fld
  deriving DecidableEq, Repr

/-- The register cards of the block: identity and global control. -/
def devRegs : List RegSpec :=
  [⟨.DEV_ID, 0x0, 1, 8, 64, [.DEV_ID_VENDOR, .DEV_ID_DEVICE, .DEV_ID_STEPPING, .DEV_ID_PACKAGE]⟩,
   ⟨.DEV_REFUSED, 0x40, 1, 4, 32, [.DEV_REFUSED_VALID, .DEV_REFUSED_MORE, .DEV_REFUSED_KIND, .DEV_REFUSED_ADDR]⟩,
   ⟨.DEV_UNITS, 0x48, 1, 8, 64, [.DEV_UNITS_FINAL, .DEV_UNITS_MODE, .DEV_UNITS_QPLL_OK, .DEV_UNITS_CTDC_OK, .DEV_UNITS_TAU_OK, .DEV_UNITS_WAVE_OK, .DEV_UNITS_REIN_OK, .DEV_UNITS_HBM_OK, .DEV_UNITS_OCT_OK]⟩,
   ⟨.DEV_RESET, 0x58, 1, 4, 32, [.DEV_RESET_KEY]⟩,
   ⟨.DEV_EV_CTRL, 0x80, 8, 4, 32, [.DEV_EV_CTRL_OUT, .DEV_EV_CTRL_INVERT, .DEV_EV_CTRL_OSRC, .DEV_EV_CTRL_LEVEL, .DEV_EV_CTRL_SITE, .DEV_EV_CTRL_SEL]⟩]

/-- The register cards of the block: Steward mailbox and Ground Port. -/
def gdRegs : List RegSpec :=
  [⟨.GD_STATUS, 0x0, 1, 8, 64, [.GD_STATUS_BOOT_MS, .GD_STATUS_BOOTS, .GD_STATUS_STAGE, .GD_STATUS_WHY, .GD_STATUS_OCTAL, .GD_STATUS_UC_NONE, .GD_STATUS_TS_NONE, .GD_STATUS_FW_SLOT, .GD_STATUS_UC_SLOT, .GD_STATUS_TS_SLOT]⟩,
   ⟨.GD_TOPSOIL, 0x8, 1, 8, 64, [.GD_TOPSOIL_SEQ, .GD_TOPSOIL_APPLIED, .GD_TOPSOIL_REJECTED]⟩,
   ⟨.GD_TS_REJECT, 0x10, 1, 4, 32, [.GD_TS_REJECT_VALID, .GD_TS_REJECT_INDEX]⟩,
   ⟨.GD_WIN_ADDR, 0x20, 1, 4, 32, [.GD_WIN_ADDR_ADDR]⟩,
   ⟨.GD_WIN_CMD, 0x24, 1, 4, 32, [.GD_WIN_CMD_CMD, .GD_WIN_CMD_LEN]⟩,
   ⟨.GD_WIN_STATUS, 0x28, 1, 4, 32, [.GD_WIN_STATUS_BUSY, .GD_WIN_STATUS_ERR, .GD_WIN_STATUS_FLASH_KB]⟩]

/-- The register cards of the block: Fault Collector. -/
def fcRegs : List RegSpec :=
  [⟨.FC_CTRL, 0x0, 1, 4, 32, [.FC_CTRL_EXIT, .FC_CTRL_REINIT, .FC_CTRL_VECTOR, .FC_CTRL_FIRST_MIN, .FC_CTRL_IRQ_EN]⟩,
   ⟨.FC_STATE, 0x8, 1, 8, 64, [.FC_STATE_CAUSE, .FC_STATE_CAUSE_CLASS, .FC_STATE_CAUSE_INST, .FC_STATE_EXIT_REF, .FC_STATE_AON_LATCH, .FC_STATE_LEGACY, .FC_STATE_SAFE]⟩,
   ⟨.FC_FIRST0, 0x10, 1, 8, 64, [.FC_FIRST0_REC_LO]⟩,
   ⟨.FC_FIRST1, 0x18, 1, 8, 64, [.FC_FIRST1_REC_HI]⟩,
   ⟨.FC_SUMMARY, 0x20, 1, 8, 64, [.FC_SUMMARY_BLOCK, .FC_SUMMARY_ACTIVE_CLASS, .FC_SUMMARY_STATUS_CLASS, .FC_SUMMARY_FIRST_MORE, .FC_SUMMARY_FIRST_VALID]⟩,
   ⟨.FC_SAFE_TIME, 0x28, 1, 8, 64, [.FC_SAFE_TIME_T]⟩,
   ⟨.FC_ALIAS, 0x30, 1, 4, 32, [.FC_ALIAS_FATAL, .FC_ALIAS_SEVERE, .FC_ALIAS_MINOR, .FC_ALIAS_NOTE, .FC_ALIAS_SAFE, .FC_ALIAS_FIRST_VALID, .FC_ALIAS_FIRST_CLASS, .FC_ALIAS_FIRST_SOURCE]⟩,
   ⟨.FC_MODE, 0x34, 1, 4, 32, [.FC_MODE_LEGACY]⟩,
   ⟨.FC_IRQ, 0x38, 1, 4, 32, [.FC_IRQ_PENDING]⟩,
   ⟨.FC_LOG_IDX, 0x40, 1, 8, 64, [.FC_LOG_IDX_LOST, .FC_LOG_IDX_NEXT]⟩,
   ⟨.FC_AON, 0x48, 1, 4, 32, [.FC_AON_LATCH, .FC_AON_COUNT]⟩,
   ⟨.FC_INJECT, 0x50, 1, 4, 32, [.FC_INJECT_UKIND, .FC_INJECT_INSTANCE, .FC_INJECT_SOURCE]⟩,
   ⟨.FC_SRC_CFG, 0x2000, 1024, 8, 64, [.FC_SRC_CFG_WINDOW_MS, .FC_SRC_CFG_N, .FC_SRC_CFG_CLASS, .FC_SRC_CFG_USED, .FC_SRC_CFG_JOURNAL, .FC_SRC_CFG_FAULT_L, .FC_SRC_CFG_SAFE, .FC_SRC_CFG_HALT, .FC_SRC_CFG_IRQ]⟩,
   ⟨.FC_SRC_STAT, 0x4000, 1024, 8, 64, [.FC_SRC_STAT_COUNT, .FC_SRC_STAT_WCOUNT, .FC_SRC_STAT_ESCALATED, .FC_SRC_STAT_ACTIVE, .FC_SRC_STAT_STATUS]⟩,
   ⟨.FC_LOG_LO, 0x8000, 256, 16, 64, [.FC_LOG_LO_REC]⟩,
   ⟨.FC_LOG_HI, 0x8008, 256, 16, 64, [.FC_LOG_HI_REC]⟩]

/-- The register cards of the block: Kiln. -/
def klRegs : List RegSpec :=
  [⟨.KL_CTRL, 0x0, 1, 4, 32, [.KL_CTRL_PLL_IDLE_US, .KL_CTRL_BSRC, .KL_CTRL_POLICY]⟩,
   ⟨.KL_BOUNDARY, 0x8, 1, 4, 32, [.KL_BOUNDARY_AGE_100MS, .KL_BOUNDARY_T]⟩,
   ⟨.KL_BS_CFG, 0xc, 1, 4, 32, [.KL_BS_CFG_PERIOD_MS, .KL_BS_CFG_REG, .KL_BS_CFG_ADDR]⟩,
   ⟨.KL_STATUS, 0x10, 1, 8, 64, [.KL_STATUS_BAND_CHANGES, .KL_STATUS_BS_FAIL, .KL_STATUS_MON_FAULT, .KL_STATUS_SLEEP_WAIT, .KL_STATUS_BALLAST, .KL_STATUS_DERATED, .KL_STATUS_STALE, .KL_STATUS_HBM_TRIP, .KL_STATUS_HBM_SEVERE, .KL_STATUS_TRIP, .KL_STATUS_HOT, .KL_STATUS_WARN, .KL_STATUS_PSTATE]⟩,
   ⟨.KL_TEMP, 0x18, 1, 8, 64, [.KL_TEMP_HBM, .KL_TEMP_NODE, .KL_TEMP_LOGIC, .KL_TEMP_BOUND]⟩,
   ⟨.KL_BAND, 0x20, 1, 4, 32, [.KL_BAND_REGION]⟩,
   ⟨.KL_PSTATE, 0x24, 1, 4, 32, [.KL_PSTATE_AUTO_MS, .KL_PSTATE_REQ, .KL_PSTATE_STATE]⟩,
   ⟨.KL_BALLAST, 0x28, 1, 4, 32, [.KL_BALLAST_WINDOW_MS, .KL_BALLAST_HOLD_S, .KL_BALLAST_MAX_W]⟩,
   ⟨.KL_DOMAIN_P, 0x100, 24, 4, 32, [.KL_DOMAIN_P_MW]⟩,
   ⟨.KL_NODE_T, 0x200, 48, 4, 32, [.KL_NODE_T_T]⟩]

/-- The register cards of the block: Bedrock. -/
def brRegs : List RegSpec :=
  [⟨.BR_CTRL, 0x0, 1, 4, 32, [.BR_CTRL_FAILOVER, .BR_CTRL_MODE, .BR_CTRL_REFSEL]⟩,
   ⟨.BR_STATUS, 0x8, 1, 8, 64, [.BR_STATUS_PPS_REJ, .BR_STATUS_PPS_ACC, .BR_STATUS_XTAL_OK, .BR_STATUS_REF_NOW, .BR_STATUS_REF_LOSS, .BR_STATUS_CLAMP, .BR_STATUS_STEP_REF, .BR_STATUS_MEM_READY, .BR_STATUS_WAVE_READY, .BR_STATUS_QPLL_READY, .BR_STATUS_CORE_LOCK, .BR_STATUS_DSTATE]⟩,
   ⟨.BR_TIME, 0x10, 1, 8, 64, [.BR_TIME_NS]⟩,
   ⟨.BR_STEP, 0x18, 1, 4, 32, [.BR_STEP_NS]⟩,
   ⟨.BR_COMMIT, 0x1c, 1, 4, 32, [.BR_COMMIT_STEP]⟩,
   ⟨.BR_FCW, 0x20, 1, 4, 32, [.BR_FCW_PPT]⟩,
   ⟨.BR_AGE_RATE, 0x24, 1, 4, 32, [.BR_AGE_RATE_RATE]⟩,
   ⟨.BR_AGE_EPOCH, 0x28, 1, 4, 32, [.BR_AGE_EPOCH_DAYS]⟩,
   ⟨.BR_AGE_NOW, 0x2c, 1, 4, 32, [.BR_AGE_NOW_DAYS]⟩,
   ⟨.BR_DISC, 0x30, 1, 4, 32, [.BR_DISC_PPT]⟩,
   ⟨.BR_FEFF, 0x34, 1, 4, 32, [.BR_FEFF_PPT]⟩,
   ⟨.BR_SERVO, 0x38, 1, 4, 32, [.BR_SERVO_LOCK_NS, .BR_SERVO_TAU_S]⟩,
   ⟨.BR_PPS_LAST, 0x40, 1, 8, 64, [.BR_PPS_LAST_T]⟩,
   ⟨.BR_PPS_ERR, 0x48, 1, 4, 32, [.BR_PPS_ERR_NS]⟩]

/-- The register cards of the block: Strop. -/
def spRegs : List RegSpec :=
  [⟨.SP_CTRL, 0x0, 1, 4, 32, [.SP_CTRL_EN, .SP_CTRL_AUTO_FORCE, .SP_CTRL_PERIOD_S, .SP_CTRL_MAX_AGE_H]⟩,
   ⟨.SP_LIMITS, 0x4, 1, 4, 32, [.SP_LIMITS_DELTA_MAX, .SP_LIMITS_STEP_MAX, .SP_LIMITS_SIGMA_MAX, .SP_LIMITS_RETRIES]⟩,
   ⟨.SP_FORCE, 0x8, 1, 4, 32, [.SP_FORCE_AFTER_S, .SP_FORCE_WINDOW_US]⟩,
   ⟨.SP_STATUS, 0x10, 1, 8, 64, [.SP_STATUS_REJECTS, .SP_STATUS_FORCED, .SP_STATUS_OUT, .SP_STATUS_REQ_OPEN, .SP_STATUS_FORCE_OPEN]⟩,
   ⟨.SP_AUX, 0x18, 1, 8, 64, [.SP_AUX_WAVE, .SP_AUX_REIN]⟩]

/-- The register cards of the block: Tally. -/
def tlRegs : List RegSpec :=
  [⟨.TL_CTRL, 0x0, 1, 4, 32, [.TL_CTRL_SNAP, .TL_CTRL_SAMPLE_IRQ, .TL_CTRL_VECTOR]⟩,
   ⟨.TL_STATUS, 0x8, 1, 8, 64, [.TL_STATUS_SAMPLE_LOST, .TL_STATUS_QUEUED]⟩,
   ⟨.TL_OVF, 0x10, 1, 8, 64, [.TL_OVF_WRAP]⟩,
   ⟨.TL_SAMPLE_LO, 0x20, 1, 8, 64, [.TL_SAMPLE_LO_REC_LO]⟩,
   ⟨.TL_SAMPLE_HI, 0x28, 1, 8, 64, [.TL_SAMPLE_HI_REC_HI]⟩,
   ⟨.TL_CFG, 0x100, 64, 8, 32, [.TL_CFG_SAMPLE, .TL_CFG_CHAIN, .TL_CFG_GROUP, .TL_CFG_INST, .TL_CFG_EVENT]⟩,
   ⟨.TL_CNT, 0x400, 64, 8, 64, [.TL_CNT_COUNT]⟩,
   ⟨.TL_RELOAD, 0x600, 64, 8, 64, [.TL_RELOAD_VALUE]⟩,
   ⟨.TL_SNAP, 0x800, 64, 8, 64, [.TL_SNAP_COUNT]⟩]

/-- The register cards of the block: Control Store. -/
def csRegs : List RegSpec :=
  [⟨.CS_STATUS, 0x0, 1, 8, 64, [.CS_STATUS_LOADED, .CS_STATUS_BUSY, .CS_STATUS_LOADS, .CS_STATUS_COPY_OK]⟩,
   ⟨.CS_IMAGE, 0x8, 1, 8, 64, [.CS_IMAGE_BUILD, .CS_IMAGE_MAJOR, .CS_IMAGE_MINOR, .CS_IMAGE_SLOT, .CS_IMAGE_MWORDS, .CS_IMAGE_NANOS]⟩,
   ⟨.CS_LOAD_ERR, 0x10, 1, 4, 32, [.CS_LOAD_ERR_VALID, .CS_LOAD_ERR_NANO, .CS_LOAD_ERR_REASON, .CS_LOAD_ERR_ADDR]⟩,
   ⟨.CS_POLICY, 0x18, 1, 4, 32, [.CS_POLICY_SLOTS, .CS_POLICY_VERIFY_MIN]⟩,
   ⟨.CS_REPAIR, 0x1c, 1, 4, 32, [.CS_REPAIR_VALID, .CS_REPAIR_LAST_COPY, .CS_REPAIR_COUNT]⟩,
   ⟨.CS_DIGEST, 0x40, 6, 8, 64, [.CS_DIGEST_D]⟩]

/-- The register cards of the block: Ring Engine. -/
def rgRegs : List RegSpec :=
  [⟨.RG_CTX_CMD, 0x0, 1, 4, 32, [.RG_CTX_CMD_BUSY, .RG_CTX_CMD_CMD, .RG_CTX_CMD_RING]⟩,
   ⟨.RG_STATUS, 0x8, 1, 8, 64, [.RG_STATUS_DOORBELL_DROP, .RG_STATUS_TRACKER_USED, .RG_STATUS_CMD_ERR, .RG_STATUS_HALTED_ANY]⟩,
   ⟨.RG_WIN_BASE, 0x10, 1, 8, 64, [.RG_WIN_BASE_ADDR]⟩,
   ⟨.RG_CTX_SQ, 0x100, 1, 8, 64, [.RG_CTX_SQ_BASE, .RG_CTX_SQ_LOG2]⟩,
   ⟨.RG_CTX_CQ, 0x108, 1, 8, 64, [.RG_CTX_CQ_BASE, .RG_CTX_CQ_LOG2]⟩,
   ⟨.RG_CTX_CTRL, 0x110, 1, 8, 64, [.RG_CTX_CTRL_HOLDOFF, .RG_CTX_CTRL_WINDOW, .RG_CTX_CTRL_WEIGHT, .RG_CTX_CTRL_CLASS, .RG_CTX_CTRL_VECTOR, .RG_CTX_CTRL_CQ]⟩,
   ⟨.RG_CTX_STATE, 0x118, 1, 8, 64, [.RG_CTX_STATE_INFLIGHT, .RG_CTX_STATE_FETCH, .RG_CTX_STATE_LAST_ERR, .RG_CTX_STATE_STATE]⟩,
   ⟨.RG_CTX_IDX, 0x120, 1, 8, 64, [.RG_CTX_IDX_CQ_PHASE, .RG_CTX_IDX_CQ_TAIL, .RG_CTX_IDX_CQ_HEAD, .RG_CTX_IDX_SQ_TAIL]⟩,
   ⟨.RG_CTX_RESTART, 0x128, 1, 4, 32, [.RG_CTX_RESTART_INDEX]⟩,
   ⟨.RG_TOKEN, 0x4000, 4096, 4, 32, [.RG_TOKEN_VALUE]⟩,
   ⟨.RG_MSIX_ADDR, 0x8000, 2048, 16, 64, [.RG_MSIX_ADDR_ADDR]⟩,
   ⟨.RG_MSIX_DATA, 0x8008, 2048, 16, 32, [.RG_MSIX_DATA_DATA]⟩,
   ⟨.RG_MSIX_CTRL, 0x800c, 2048, 16, 32, [.RG_MSIX_CTRL_MASK]⟩]

/-- The register cards of the block: Memory Controller. -/
def mcRegs : List RegSpec :=
  [⟨.MC_CTRL, 0x0, 1, 4, 32, [.MC_CTRL_SR_IDLE_US, .MC_CTRL_SCRUB_H, .MC_CTRL_KEEPOPEN, .MC_CTRL_OPPOINT]⟩,
   ⟨.MC_STATUS, 0x8, 1, 8, 64, [.MC_STATUS_DEFER_NS, .MC_STATUS_RETRAIN, .MC_STATUS_SR, .MC_STATUS_OP_PENDING, .MC_STATUS_OP_NOW, .MC_STATUS_SCRUB_UE, .MC_STATUS_UE, .MC_STATUS_CE, .MC_STATUS_CATCHUP]⟩,
   ⟨.MC_TEMP, 0x10, 1, 8, 64, [.MC_TEMP_RBAND, .MC_TEMP_REPORT, .MC_TEMP_MODEL]⟩,
   ⟨.MC_ACT, 0x18, 1, 4, 32, [.MC_ACT_THRESH]⟩,
   ⟨.MC_RETRAIN, 0x1c, 1, 4, 32, [.MC_RETRAIN_INTERVAL_MS]⟩,
   ⟨.MC_ERR, 0x20, 1, 8, 64, [.MC_ERR_VALID, .MC_ERR_MORE, .MC_ERR_KIND, .MC_ERR_ADDR]⟩]

/-- The register cards of the block: twin pairing. -/
def twRegs : List RegSpec :=
  [⟨.TW_CTRL, 0x0, 1, 4, 32, [.TW_CTRL_EN, .TW_CTRL_PREFER, .TW_CTRL_PORT, .TW_CTRL_VECTOR]⟩,
   ⟨.TW_TIMING, 0x8, 1, 4, 32, [.TW_TIMING_MISS, .TW_TIMING_HB_US, .TW_TIMING_SWITCH_US]⟩,
   ⟨.TW_LEASE, 0xc, 1, 4, 32, [.TW_LEASE_SEEK_MS, .TW_LEASE_LEASE_US]⟩,
   ⟨.TW_STATUS, 0x10, 1, 8, 64, [.TW_STATUS_TAKEOVERS, .TW_STATUS_DIVERGE, .TW_STATUS_PEER_OWN, .TW_STATUS_OWN, .TW_STATUS_DIGEST_MISMATCH, .TW_STATUS_DIVERGED, .TW_STATUS_CONTENTION, .TW_STATUS_TOOK_OVER, .TW_STATUS_PEER_LOST, .TW_STATUS_ROLE]⟩,
   ⟨.TW_SYNC_BASE, 0x18, 1, 8, 64, [.TW_SYNC_BASE_ADDR]⟩,
   ⟨.TW_SYNC_LEN, 0x20, 1, 8, 64, [.TW_SYNC_LEN_LEN]⟩,
   ⟨.TW_SYNC_DONE, 0x28, 1, 8, 64, [.TW_SYNC_DONE_BYTES]⟩]

/-- The register cards of the block: Trigger and Acquisition Unit. -/
def taRegs : List RegSpec :=
  [⟨.TA_STATUS, 0x0, 1, 8, 64, [.TA_STATUS_COINCIDENT, .TA_STATUS_ARMED, .TA_STATUS_FIRED]⟩,
   ⟨.TA_SPAN, 0x8, 1, 4, 32, [.TA_SPAN_LAT, .TA_SPAN_TAG]⟩,
   ⟨.TA_FORCE, 0xc, 1, 4, 32, [.TA_FORCE_SOFT]⟩,
   ⟨.TA_SLOT_CTRL, 0x100, 16, 64, 32, [.TA_SLOT_CTRL_EN, .TA_SLOT_CTRL_ARM, .TA_SLOT_CTRL_FWD, .TA_SLOT_CTRL_MODE, .TA_SLOT_CTRL_SRC, .TA_SLOT_CTRL_COND, .TA_SLOT_CTRL_EDGE, .TA_SLOT_CTRL_SEL]⟩,
   ⟨.TA_SLOT_LEVEL, 0x104, 16, 64, 32, [.TA_SLOT_LEVEL_B, .TA_SLOT_LEVEL_A]⟩,
   ⟨.TA_SLOT_COND, 0x108, 16, 64, 32, [.TA_SLOT_COND_HYST, .TA_SLOT_COND_DIST]⟩,
   ⟨.TA_SLOT_HOLDOFF, 0x10c, 16, 64, 32, [.TA_SLOT_HOLDOFF_SAMPLES]⟩,
   ⟨.TA_SLOT_AUTO, 0x110, 16, 64, 32, [.TA_SLOT_AUTO_US]⟩,
   ⟨.TA_SLOT_STATUS, 0x118, 16, 64, 64, [.TA_SLOT_STATUS_SEQ, .TA_SLOT_STATUS_HELDOFF, .TA_SLOT_STATUS_BADCFG, .TA_SLOT_STATUS_LATE, .TA_SLOT_STATUS_FORCED, .TA_SLOT_STATUS_COINCIDENT, .TA_SLOT_STATUS_FIRED, .TA_SLOT_STATUS_ARMED]⟩,
   ⟨.TA_SLOT_LAST, 0x120, 16, 64, 64, [.TA_SLOT_LAST_T]⟩]

/-- The register cards of the block: TMU. -/
def tmRegs : List RegSpec :=
  [⟨.TM_STATUS, 0x0, 1, 8, 64, [.TM_STATUS_JOBS, .TM_STATUS_HISTS]⟩,
   ⟨.TM_CTDC_ROUTE, 0x40, 8, 8, 64, [.TM_CTDC_ROUTE_VALID, .TM_CTDC_ROUTE_INPUT, .TM_CTDC_ROUTE_PIN]⟩]

/-- The register cards of the block: Fail Capture Unit. -/
def frRegs : List RegSpec :=
  [⟨.FR_STATUS, 0x0, 1, 8, 64, [.FR_STATUS_UE, .FR_STATUS_CE, .FR_STATUS_USED]⟩,
   ⟨.FR_SITE_QUOTA, 0x1000, 64, 64, 32, [.FR_SITE_QUOTA_RECORDS]⟩,
   ⟨.FR_SITE_CTRL, 0x1004, 64, 64, 32, [.FR_SITE_CTRL_CLEAR, .FR_SITE_CTRL_SPILL_EN]⟩,
   ⟨.FR_SITE_SPILL_BASE, 0x1008, 64, 64, 64, [.FR_SITE_SPILL_BASE_ADDR]⟩,
   ⟨.FR_SITE_SPILL_SIZE, 0x1010, 64, 64, 64, [.FR_SITE_SPILL_SIZE_RECORDS]⟩,
   ⟨.FR_SITE_CAP_BASE, 0x1018, 64, 64, 64, [.FR_SITE_CAP_BASE_ADDR]⟩,
   ⟨.FR_SITE_CAP_SIZE, 0x1020, 64, 64, 64, [.FR_SITE_CAP_SIZE_BLOCKS]⟩,
   ⟨.FR_SITE_RECORDS, 0x1028, 64, 64, 64, [.FR_SITE_RECORDS_COUNT]⟩,
   ⟨.FR_SITE_DROPPED, 0x1030, 64, 64, 64, [.FR_SITE_DROPPED_BLOCKS, .FR_SITE_DROPPED_RECORDS]⟩,
   ⟨.FR_SITE_CAPTURED, 0x1038, 64, 64, 64, [.FR_SITE_CAPTURED_COUNT]⟩]

/-- The register cards of the block: SITE[n]. -/
def siteRegs : List RegSpec :=
  [⟨.SITE_CTRL, 0x0, 1, 4, 32, [.SITE_CTRL_DOZE_EN, .SITE_CTRL_SPAN_ROLE, .SITE_CTRL_UNDERRUN_POL]⟩,
   ⟨.SITE_STATUS, 0x8, 1, 8, 64, [.SITE_STATUS_EV_IGNORED, .SITE_STATUS_CONFLICT, .SITE_STATUS_STALE, .SITE_STATUS_UNDERRUN, .SITE_STATUS_RDV_MISS, .SITE_STATUS_SPAN_LATE, .SITE_STATUS_ARM_TIMEOUT, .SITE_STATUS_STRETCHED, .SITE_STATUS_STALE_ACTIVE, .SITE_STATUS_STATE]⟩,
   ⟨.SITE_COMMIT, 0x10, 1, 4, 32, [.SITE_COMMIT_COND]⟩,
   ⟨.SITE_MEMBER, 0x20, 4, 8, 64, [.SITE_MEMBER_MASK]⟩,
   ⟨.SITE_PRIVATE, 0x40, 4, 8, 64, [.SITE_PRIVATE_MASK]⟩,
   ⟨.SITE_PPT_ADDR, 0x60, 1, 8, 64, [.SITE_PPT_ADDR_ADDR]⟩,
   ⟨.SITE_GRID, 0x68, 1, 8, 64, [.SITE_GRID_PERIOD]⟩,
   ⟨.SITE_EVENT, 0x70, 1, 4, 32, [.SITE_EVENT_EDGE, .SITE_EVENT_EV_SEL]⟩,
   ⟨.SITE_EV_DELAY, 0x74, 1, 4, 32, [.SITE_EV_DELAY_DELAY]⟩,
   ⟨.SITE_SPAN, 0x78, 1, 4, 32, [.SITE_SPAN_SPAN_TAG]⟩,
   ⟨.SITE_SPAN_LAT, 0x7c, 1, 4, 32, [.SITE_SPAN_LAT_LAT]⟩,
   ⟨.SITE_SPAN_CMASK, 0x80, 1, 4, 32, [.SITE_SPAN_CMASK_CMASK]⟩,
   ⟨.SITE_ARM_TIMEOUT, 0x84, 1, 4, 32, [.SITE_ARM_TIMEOUT_MS]⟩,
   ⟨.SITE_CSRC, 0x88, 4, 8, 64, [.SITE_CSRC_SRC]⟩,
   ⟨.SITE_STRETCH_MAX, 0xa8, 1, 4, 32, [.SITE_STRETCH_MAX_COUNT]⟩,
   ⟨.SITE_SEAM_DEADLINE, 0xac, 1, 4, 32, [.SITE_SEAM_DEADLINE_NS]⟩,
   ⟨.SITE_DOZE_DELAY, 0xb0, 1, 4, 32, [.SITE_DOZE_DELAY_US]⟩,
   ⟨.SITE_COND, 0xb8, 1, 4, 32, [.SITE_COND_C]⟩,
   ⟨.SITE_START_TIME, 0xc0, 1, 8, 64, [.SITE_START_TIME_T]⟩,
   ⟨.SITE_VCOUNT, 0xc8, 1, 8, 64, [.SITE_VCOUNT_COUNT]⟩]

/-- The register cards of the block: Rein lane. -/
def rnlaneRegs : List RegSpec :=
  [⟨.RN_LANE_CTRL, 0x0, 1, 4, 32, [.RN_LANE_CTRL_EXCLUDE, .RN_LANE_CTRL_RX_INV, .RN_LANE_CTRL_TX_INV]⟩,
   ⟨.RN_LANE_STATUS, 0x8, 1, 8, 64, [.RN_LANE_STATUS_REVERTS, .RN_LANE_STATUS_SNAP, .RN_LANE_STATUS_FOM, .RN_LANE_STATUS_REVERTED, .RN_LANE_STATUS_FROZEN, .RN_LANE_STATUS_USED, .RN_LANE_STATUS_LOCK]⟩]

/-- The register cards of the block: Rein port. -/
def rnportRegs : List RegSpec :=
  [⟨.RN_PORT_CTRL, 0x0, 1, 4, 32, [.RN_PORT_CTRL_EN, .RN_PORT_CTRL_UPSTREAM, .RN_PORT_CTRL_FWD, .RN_PORT_CTRL_FOM_MIN, .RN_PORT_CTRL_ROLE, .RN_PORT_CTRL_WIDTH_MAX, .RN_PORT_CTRL_RATE_MAX]⟩,
   ⟨.RN_PORT_STATUS, 0x8, 1, 8, 64, [.RN_PORT_STATUS_DEFER_US, .RN_PORT_STATUS_REPLAYS, .RN_PORT_STATUS_ELASTIC, .RN_PORT_STATUS_PEER_FAULT_NOW, .RN_PORT_STATUS_PEER_FAULT, .RN_PORT_STATUS_LINK_LOSS, .RN_PORT_STATUS_FALLBACK, .RN_PORT_STATUS_RATE_PENDING, .RN_PORT_STATUS_LANES, .RN_PORT_STATUS_WIDTH_NOW, .RN_PORT_STATUS_RATE_NOW, .RN_PORT_STATUS_LSTATE]⟩,
   ⟨.RN_PORT_TIME, 0x10, 1, 8, 64, [.RN_PORT_TIME_THETA, .RN_PORT_TIME_DELAY]⟩,
   ⟨.RN_PORT_TIMECAL, 0x18, 1, 4, 32, [.RN_PORT_TIMECAL_TAU_MS, .RN_PORT_TIMECAL_BOARD_ASYM]⟩,
   ⟨.RN_PORT_PEER, 0x20, 1, 8, 64, [.RN_PORT_PEER_ASYM, .RN_PORT_PEER_REJECTS, .RN_PORT_PEER_PEER_RATE, .RN_PORT_PEER_PEER_LANES]⟩,
   ⟨.RN_PORT_COUNT, 0x28, 1, 8, 64, [.RN_PORT_COUNT_FWD, .RN_PORT_COUNT_NOMATCH, .RN_PORT_COUNT_DUP]⟩]

/-- The register cards of the block: wave channel. -/
def wvRegs : List RegSpec :=
  [⟨.WV_CTRL, 0x0, 1, 4, 32, [.WV_CTRL_ADC_EN, .WV_CTRL_DAC_EN, .WV_CTRL_PARK]⟩,
   ⟨.WV_STATUS, 0x8, 1, 8, 64, [.WV_STATUS_ENTRY, .WV_STATUS_MERGED, .WV_STATUS_UNDERRUN, .WV_STATUS_BAD_ENTRY, .WV_STATUS_EMPTY, .WV_STATUS_CLIPPED, .WV_STATUS_OVERRANGE, .WV_STATUS_PLL_LOSS, .WV_STATUS_JUMP_PENDING, .WV_STATUS_TONE_PENDING, .WV_STATUS_WP_RANGE, .WV_STATUS_STATE]⟩,
   ⟨.WV_SEQ_BASE, 0x10, 1, 8, 64, [.WV_SEQ_BASE_ADDR]⟩,
   ⟨.WV_SEQ_LEN, 0x18, 1, 4, 32, [.WV_SEQ_LEN_ENTRIES]⟩,
   ⟨.WV_JUMP_SRC, 0x1c, 1, 4, 32, [.WV_JUMP_SRC_SRC, .WV_JUMP_SRC_SITE, .WV_JUMP_SRC_SEL]⟩,
   ⟨.WV_TONE_FTW, 0x20, 1, 8, 64, [.WV_TONE_FTW_FTW]⟩,
   ⟨.WV_TONE_PHASE, 0x28, 1, 4, 32, [.WV_TONE_PHASE_PHASE]⟩,
   ⟨.WV_TONE_LEVEL, 0x2c, 1, 4, 32, [.WV_TONE_LEVEL_OFFSET, .WV_TONE_LEVEL_AMP]⟩,
   ⟨.WV_COMMIT, 0x30, 1, 4, 32, [.WV_COMMIT_TONE]⟩,
   ⟨.WV_JUMP, 0x34, 1, 4, 32, [.WV_JUMP_REQ]⟩,
   ⟨.WV_STREAM_BASE, 0x40, 1, 8, 64, [.WV_STREAM_BASE_ADDR]⟩,
   ⟨.WV_STREAM_SIZE, 0x48, 1, 4, 32, [.WV_STREAM_SIZE_GRANULES]⟩,
   ⟨.WV_STREAM_WP, 0x4c, 1, 4, 32, [.WV_STREAM_WP_WP]⟩,
   ⟨.WV_STREAM_RP, 0x50, 1, 4, 32, [.WV_STREAM_RP_RP]⟩,
   ⟨.WV_START_TIME, 0x58, 1, 8, 64, [.WV_START_TIME_T]⟩]

/-- The register cards of the block: MC_PC. -/
def mcpcRegs : List RegSpec :=
  [⟨.MC_PC_STATUS, 0x0, 1, 8, 64, [.MC_PC_STATUS_DEBT_NS, .MC_PC_STATUS_RBAND, .MC_PC_STATUS_TRAINING, .MC_PC_STATUS_CATCHUP_NOW, .MC_PC_STATUS_NEXT_BANK]⟩,
   ⟨.MC_PC_COUNT, 0x8, 1, 8, 64, [.MC_PC_COUNT_NEIGHBOUR, .MC_PC_COUNT_CATCHUPS, .MC_PC_COUNT_UE, .MC_PC_COUNT_CE]⟩]

/-- The register cards of the block: PIN[n]. -/
def pinRegs : List RegSpec :=
  [⟨.PIN_TS_PERIOD, 0x0, 32, 64, 32, [.PIN_TS_PERIOD_PERIOD]⟩,
   ⟨.PIN_TS_MODE, 0x4, 32, 64, 32, [.PIN_TS_MODE_BURST, .PIN_TS_MODE_CMODE, .PIN_TS_MODE_FORMAT]⟩,
   ⟨.PIN_TS_DON, 0x8, 32, 64, 32, [.PIN_TS_DON_T]⟩,
   ⟨.PIN_TS_DDAT, 0xc, 32, 64, 32, [.PIN_TS_DDAT_T]⟩,
   ⟨.PIN_TS_DRET, 0x10, 32, 64, 32, [.PIN_TS_DRET_T]⟩,
   ⟨.PIN_TS_DOFF, 0x14, 32, 64, 32, [.PIN_TS_DOFF_T]⟩,
   ⟨.PIN_TS_SOPEN, 0x18, 32, 64, 32, [.PIN_TS_SOPEN_T]⟩,
   ⟨.PIN_TS_SCLOSE, 0x1c, 32, 64, 32, [.PIN_TS_SCLOSE_T]⟩,
   ⟨.PIN_TS_COMMIT, 0x800, 1, 4, 32, [.PIN_TS_COMMIT_SET]⟩,
   ⟨.PIN_TS_PENDING, 0x804, 1, 4, 32, [.PIN_TS_PENDING_SET]⟩,
   ⟨.PIN_TS_REJECT, 0x808, 1, 4, 32, [.PIN_TS_REJECT_VALID, .PIN_TS_REJECT_MORE, .PIN_TS_REJECT_REASON, .PIN_TS_REJECT_SET]⟩,
   ⟨.PIN_TF_COMMIT, 0x80c, 1, 4, 32, [.PIN_TF_COMMIT_DESKEW]⟩,
   ⟨.PIN_TF_DESKEW0, 0x810, 1, 4, 32, [.PIN_TF_DESKEW0_DDAT, .PIN_TF_DESKEW0_DON]⟩,
   ⟨.PIN_TF_DESKEW1, 0x814, 1, 4, 32, [.PIN_TF_DESKEW1_DOFF, .PIN_TF_DESKEW1_DRET]⟩,
   ⟨.PIN_TF_DESKEW2, 0x818, 1, 4, 32, [.PIN_TF_DESKEW2_SCLOSE, .PIN_TF_DESKEW2_SOPEN]⟩,
   ⟨.PIN_TF_STATUS, 0x820, 1, 8, 64, [.PIN_TF_STATUS_SPACING_COUNT, .PIN_TF_STATUS_BAND, .PIN_TF_STATUS_TRIM_PENDING, .PIN_TF_STATUS_DESKEW_PENDING, .PIN_TF_STATUS_SPACING, .PIN_TF_STATUS_PLL_LOSS]⟩,
   ⟨.PIN_DSQ_STATUS, 0x3000, 1, 8, 64, [.PIN_DSQ_STATUS_WADDR, .PIN_DSQ_STATUS_FSLOT, .PIN_DSQ_STATUS_SDEPTH, .PIN_DSQ_STATUS_LOOP_ACTIVE, .PIN_DSQ_STATUS_PARTIAL, .PIN_DSQ_STATUS_STARVED, .PIN_DSQ_STATUS_DWELL, .PIN_DSQ_STATUS_FAULT, .PIN_DSQ_STATUS_STATE]⟩,
   ⟨.PIN_CSQ_STATUS, 0x3008, 1, 8, 64, [.PIN_CSQ_STATUS_PARTIAL, .PIN_CSQ_STATUS_STATE]⟩,
   ⟨.PIN_SEQ_CTRL, 0x3010, 1, 4, 32, [.PIN_SEQ_CTRL_IDLE_CODE]⟩,
   ⟨.PIN_STREAM_BASE, 0x3100, 1, 8, 64, [.PIN_STREAM_BASE_ADDR]⟩] ++
  [⟨.PIN_STREAM_LEN, 0x3108, 1, 4, 32, [.PIN_STREAM_LEN_ENTRIES]⟩,
   ⟨.PIN_STREAM_CTRL, 0x310c, 1, 4, 32, [.PIN_STREAM_CTRL_HOLD_LINES]⟩,
   ⟨.PIN_STREAM_STATUS, 0x3110, 1, 8, 64, [.PIN_STREAM_STATUS_POS, .PIN_STREAM_STATUS_HELD, .PIN_STREAM_STATUS_PINNED, .PIN_STREAM_STATUS_BAD_STREAM, .PIN_STREAM_STATUS_BADCODE, .PIN_STREAM_STATUS_STRETCHED, .PIN_STREAM_STATUS_UNDERRUN]⟩,
   ⟨.PIN_STREAM_COUNT, 0x3118, 1, 8, 64, [.PIN_STREAM_COUNT_STRETCH_REPS, .PIN_STREAM_COUNT_REFETCH]⟩,
   ⟨.PIN_CMP_CTRL, 0x3200, 1, 4, 32, [.PIN_CMP_CTRL_LOSS_RUN, .PIN_CMP_CTRL_ERRMAX, .PIN_CMP_CTRL_OFFSET]⟩,
   ⟨.PIN_CMP_FINE, 0x3204, 1, 4, 32, [.PIN_CMP_FINE_F]⟩,
   ⟨.PIN_CMP_STATUS, 0x3208, 1, 8, 64, [.PIN_CMP_STATUS_UNJUDGED, .PIN_CMP_STATUS_CONTRA, .PIN_CMP_STATUS_LOSS, .PIN_CMP_STATUS_NOLOCK, .PIN_CMP_STATUS_SKIP, .PIN_CMP_STATUS_LSTATE, .PIN_CMP_STATUS_OFFSET_NOW]⟩,
   ⟨.PIN_CMP_LOCK, 0x3210, 1, 8, 64, [.PIN_CMP_LOCK_VCOUNT, .PIN_CMP_LOCK_ERRS, .PIN_CMP_LOCK_OFFSET]⟩,
   ⟨.PIN_FAIL_CTRL, 0x3280, 1, 4, 32, [.PIN_FAIL_CTRL_LIMIT, .PIN_FAIL_CTRL_CAPALL, .PIN_FAIL_CTRL_MODE]⟩,
   ⟨.PIN_FAIL_COUNT, 0x3288, 1, 8, 64, [.PIN_FAIL_COUNT_COUNT]⟩,
   ⟨.PIN_FAIL_FIRST, 0x3290, 1, 8, 64, [.PIN_FAIL_FIRST_VALID, .PIN_FAIL_FIRST_VCOUNT]⟩,
   ⟨.PIN_FAIL_FIRST_ADDR, 0x3298, 1, 4, 32, [.PIN_FAIL_FIRST_ADDR_SEQADDR]⟩,
   ⟨.PIN_FAIL_FIRST_TIME, 0x32a0, 1, 8, 64, [.PIN_FAIL_FIRST_TIME_T]⟩,
   ⟨.PIN_CAP_COUNT, 0x32a8, 1, 8, 64, [.PIN_CAP_COUNT_DROPPED, .PIN_CAP_COUNT_BLOCKS]⟩,
   ⟨.PIN_TM_CTRL, 0x3300, 1, 4, 32, [.PIN_TM_CTRL_CL_ROUTE, .PIN_TM_CTRL_CH_ROUTE]⟩,
   ⟨.PIN_TM_STATUS, 0x3308, 1, 8, 64, [.PIN_TM_STATUS_LOST, .PIN_TM_STATUS_NOJOB, .PIN_TM_STATUS_CL_BUSY, .PIN_TM_STATUS_CL_ROUTED, .PIN_TM_STATUS_CL_TABLE, .PIN_TM_STATUS_CL_DOWN, .PIN_TM_STATUS_CH_BUSY, .PIN_TM_STATUS_CH_ROUTED, .PIN_TM_STATUS_CH_TABLE, .PIN_TM_STATUS_CH_DOWN]⟩,
   ⟨.PIN_TM_SEQ, 0x3310, 1, 8, 64, [.PIN_TM_SEQ_CL_SEQ, .PIN_TM_SEQ_CH_SEQ]⟩,
   ⟨.PIN_CAL_STATUS, 0x3400, 1, 8, 64, [.PIN_CAL_STATUS_AGE_MIN, .PIN_CAL_STATUS_SIGMA, .PIN_CAL_STATUS_REJ_RUN, .PIN_CAL_STATUS_TDC_CL, .PIN_CAL_STATUS_TDC_CH, .PIN_CAL_STATUS_COMP, .PIN_CAL_STATUS_EDGE]⟩]

/-- The register cards of the block: OCT[k]. -/
def octRegs : List RegSpec :=
  [⟨.OCT_PEC_CTRL, 0x0, 1, 4, 32, [.OCT_PEC_CTRL_SAMPLE, .OCT_PEC_CTRL_CLK]⟩,
   ⟨.OCT_PEC_STATUS, 0x8, 1, 8, 64, [.OCT_PEC_STATUS_XFERS, .OCT_PEC_STATUS_NAKS, .OCT_PEC_STATUS_TMOS, .OCT_PEC_STATUS_BUSY]⟩]

/-- The register cards of a block. -/
def Block.regs : Block → List RegSpec
  | .dev => devRegs
  | .gd => gdRegs
  | .fc => fcRegs
  | .kl => klRegs
  | .br => brRegs
  | .sp => spRegs
  | .tl => tlRegs
  | .cs => csRegs
  | .rg => rgRegs
  | .mc => mcRegs
  | .tw => twRegs
  | .ta => taRegs
  | .tm => tmRegs
  | .fr => frRegs
  | .site => siteRegs
  | .rnlane => rnlaneRegs
  | .rnport => rnportRegs
  | .wv => wvRegs
  | .mcpc => mcpcRegs
  | .pin => pinRegs
  | .oct => octRegs

end Sys2Proof.Machine
end

