-- ==== Sys2Proof/Machine/Sources.lean ====
section
/-!
DEFINITION. The catalogue of fault sources (R443, R444): every source that a chapter lists, with its class. A source that
is not listed is unused.
-/
namespace Sys2Proof.Machine

/-- The listed sources: source number, class (0 NOTE, 1 MINOR, 2 SEVERE, 3 FATAL). -/
def catalogue : List (Nat × Nat) :=
  [(0x000, 3), (0x001, 0), (0x002, 0), (0x040, 0), (0x041, 1), (0x042, 3), (0x043, 2), (0x044, 3),
   (0x045, 0), (0x046, 1), (0x047, 1), (0x048, 0), (0x080, 0), (0x081, 1), (0x082, 1), (0x083, 2),
   (0x084, 3), (0x085, 0), (0x086, 0), (0x0C0, 0), (0x0C1, 1), (0x0C2, 2), (0x0C3, 2), (0x0C4, 0),
   (0x0C5, 1), (0x0C6, 1), (0x100, 0), (0x101, 1), (0x102, 2), (0x103, 2), (0x104, 2), (0x140, 0),
   (0x141, 0), (0x142, 1), (0x143, 1), (0x150, 0), (0x180, 0), (0x181, 2), (0x182, 1), (0x183, 1)] ++
  [(0x184, 0), (0x185, 2), (0x186, 1), (0x187, 3), (0x1C0, 0), (0x1C1, 0), (0x1C2, 1), (0x1C3, 1),
   (0x1C4, 2), (0x1C5, 0), (0x1C8, 1), (0x1C9, 1), (0x1CA, 1), (0x1CB, 1), (0x1CC, 1), (0x1CD, 1),
   (0x1CE, 1), (0x1CF, 1), (0x1D0, 1), (0x1D1, 1), (0x1D2, 1), (0x1D3, 0), (0x1D4, 0), (0x1D8, 0),
   (0x1D9, 1), (0x200, 0), (0x201, 0), (0x208, 2), (0x240, 0), (0x241, 0), (0x242, 0), (0x243, 0),
   (0x244, 0), (0x245, 0), (0x246, 0), (0x247, 1), (0x280, 0), (0x281, 0), (0x282, 1), (0x283, 2)] ++
  [(0x284, 0), (0x2C0, 0), (0x2C1, 1), (0x2C2, 0), (0x2C3, 0), (0x2C4, 2), (0x2C5, 0), (0x2E0, 0),
   (0x2E1, 1), (0x2E2, 0), (0x2E3, 0), (0x300, 0), (0x301, 1), (0x302, 1), (0x303, 1), (0x304, 0),
   (0x305, 1), (0x306, 0), (0x307, 1), (0x308, 1), (0x309, 0), (0x30A, 0), (0x340, 1), (0x341, 1),
   (0x342, 1), (0x343, 0), (0x344, 2), (0x345, 3), (0x380, 1), (0x381, 1), (0x382, 1), (0x383, 1),
   (0x384, 2), (0x385, 0), (0x386, 0), (0x3C0, 0)]

/-- The class of source `s`, or none where it is unused. -/
def srcClass (s : Nat) : Option Nat := (catalogue.find? (fun e => e.1 == s)).map (·.2)

end Sys2Proof.Machine
end

