-- ==== Sys2Proof/Machine/State.lean ====
section
/-!
DEFINITION. The state of the block as plain data, the reasons a step can stop, and the state after reset. The register
fields are one table (`regs`); a staged field has its active copy in `active` (R18, R19). The commands that wait stand in
`pending`, first in, first out.
-/
namespace Sys2Proof.Machine

/-- Why a step stops with a fault. -/
inductive Fault where
  /-- Raised by every meaning whose command names a unit, a width or a part that the manual says does not exist (pin 256,
  site 64). Safe: the block has no such input. -/
  | noSuchUnit
  deriving DecidableEq, Repr

/-- Why a command has no meaning. -/
inductive Refusal where
  /-- Raised by `exec` alone, for a command that is not modelled. Safe. -/
  | notModelled (mnemonic : String)
  deriving DecidableEq, Repr

/-- A fault source raised (R443, R444): source number, instance, unit kind, engine cycle. -/
structure Raise where
  src : Nat
  inst : Nat
  ukind : Nat
  cycle : Nat
  deriving DecidableEq, Repr

/-- What has happened in one engine cycle, for the rules about two things in the same cycle: the cycle; the status bits that events
have set in it (R17: field, place, mask); the staged fields written in it with the shadow value before (R19); the first refusal in it,
KIND, ADDR and whether others followed (R21). -/
structure Cyc where
  at_ : Nat := 0
  sets : List (Fld × Nat × Nat) := []
  staged : List (Fld × Nat × Nat) := []
  refused : Option (Nat × Nat × Bool) := none
  deriving DecidableEq, Repr

/-- The memories: pattern memory, the host memory that the device has written, the flash, Subsoil (one-time programmable),
the flash window buffer, and per pin the Vector Line Buffer (131,072 bytes) and the Entry Store (2,048 bytes). -/
structure Mems where
  hbm : Mem
  host : Mem
  flash : Mem
  otp : Mem
  win : Mem
  vlb : Mem
  ents : Mem
  deriving DecidableEq, Repr

/-- The block but for its memories and its queue. -/
structure Dev where
  /-- Local time in ticks of 2⁻¹⁴ ns (R6), an engine cycle being 16,384. -/
  now : Nat := 0
  /-- Bedrock time T less local time (R8, R357). -/
  bedOff : Int := 0
  /-- How many open values have been taken (log entry 5). -/
  free : Nat := 0
  regs : Tab Nat := []
  active : Tab Nat := []
  /-- Pending high-half latches, the latched value plus 1, by register (R14). -/
  latch : Tab Nat := []
  /-- The last engine cycle in which something was set, staged or refused, and what. -/
  cyc : Cyc := {}
  /-- The bytes that the last host read returned, and whether they were poisoned (R350). -/
  readData : List Byte := []
  poisoned : Bool := false
  /-- The last read of host memory that the device has made: address and bytes (R289, R302). -/
  asked : Option (Nat × Nat) := none
  /-- PCI Express. -/
  pci : Pci := {}
  raised : List Raise := []
  /-- What the Steward owes the journal, oldest first (R456, R487). -/
  journal : List Owed := []
  sites : Tab Site := []
  lanes : Tab Lane := []
  pins : Tab Pin := []
  cs : CtlStore := {}
  csqs : Tab Csq := []
  /-- The octet fail queues and capture queues (R214, R226), oldest first. -/
  failQ : Tab (List FailRec) := []
  capQ : Tab (List CapBlock) := []
  failSites : Tab FailSite := []
  capNo : Nat := 0
  /-- What the units have told each other (the number of the next signal, the last ones), the effect times of the firings of the TAU slots, and the levels of EV0 to EV7. -/
  sigNo : Nat := 0
  signals : List Signal := []
  trigAt : Tab (List Nat) := []
  evLevel : Nat := 0
  /-- The pseudo-channels, the Memory Controller, the edge PLLs 0 to 3 and the wave PLL 4, Bedrock. -/
  pcs : Tab Pc := []
  mc : Mc := {}
  tmu : Tmu := {}
  /-- The wave channels, the last sample point taken (plus 1), the trigger slots, the open acquisitions by channel. -/
  waves : Tab Wave := []
  sampleAt : Nat := 0
  slots : Tab Slot := []
  acqs : Tab (Option Acq) := []
  /-- Rein ports and lanes, twin pairing, the rings, the Ring Engine, the MSI-X vectors. -/
  ports : Tab RnPort := []
  lanesRn : Tab RnLane := []
  tw : Tw := {}
  rings : Tab Ring := []
  ringEng : RingEng := {}
  vectors : Tab MsiVec := []
  plls : Tab Pll := []
  /-- Kiln, and Strop's units (key 512 × kind + unit). -/
  kl : Kl := {}
  tl : Tl := {}
  /-- The Fault Collector, the Ground Port, and per EV pin that drives the changes of its level, newest first, with their Bedrock times (R498). -/
  fc : Fc := {}
  gd : Gd := {}
  evOut : Tab (List (Nat × Bool)) := []
  /-- A boot that waits for the core PLL to lock (R366, R472), and what each pin-electronics port sent last (R494). -/
  booting : Option BootResult := none
  pec : Tab (List Byte) := []
  cal : Tab CalUnit := []
  windows : List Window := []
  br : Br := {}
  tracker : List Entry := []
  nextId : Nat := 0
  deriving DecidableEq, Repr

/-- The state. -/
structure State where
  pending : List Instr
  mem : Mems
  dev : Dev
  deriving DecidableEq, Repr

/-- The class default of the source configuration bits (R444): IRQ from MINOR, HALT and FAULT_L from SEVERE, SAFE and
JOURNAL for FATAL. -/
def srcDefault (s least : Nat) : Nat :=
  match srcClass s with
  | some c => if least ≤ c then 1 else 0
  | none => 0

/-- The default of instance `i` of field `f` (the Default columns; SITE_CSRC0 maps C0 to C2; the source catalogue). -/
def Fld.dfltAt (f : Fld) (i : Nat) : Nat :=
  match f with
  | .SITE_CSRC_SRC => if i % 32 < 3 then i % 32 + 1 else 0
  | .FC_SRC_CFG_CLASS => (srcClass i).getD 0
  | .FC_SRC_CFG_USED => if (srcClass i).isSome then 1 else 0
  | .FC_SRC_CFG_IRQ => srcDefault i 1
  | .FC_SRC_CFG_HALT => srcDefault i 2
  | .FC_SRC_CFG_FAULT_L => srcDefault i 2
  | .FC_SRC_CFG_SAFE => srcDefault i 3
  | .FC_SRC_CFG_JOURNAL => srcDefault i 3
  | _ => f.spec.dflt

/-- The key of instance `i` of field `f` in the tables of register fields. -/
def fkey (f : Fld) (i : Nat) : Nat := i * 1024 + f.ctorIdx

/-- The memories with nothing listed: what a byte then reads as is log entries 3 and 4. -/
def Mems.blank : Mems := { hbm := [], host := [], flash := [], otp := [], win := [], vlb := [], ents := [] }

/-- The block right after reset: every register field at its Default column (`Fld.dfltAt`), every record empty, no command
waiting. -/
def State.reset : State := { pending := [], mem := Mems.blank, dev := {} }

end Sys2Proof.Machine
end

