-- ==== Sys2Proof/Machine/Blocks.lean ====
section
/-!
DEFINITION. The blocks of a Rein lane (R369, R370, R372, R385): CRC-32C, the coding of control and data blocks, frames as blocks, the
striping of a stream over the lanes of a port, TIME slots, and the receiver's way back from lanes to frames.
-/
namespace Sys2Proof.Machine

/-- One bit of CRC-32C, least significant first. -/
def crcBit (c : BitVec 32) : BitVec 32 := if c.getLsbD 0 then (c >>> 1) ^^^ 0x82F63B78#32 else c >>> 1

/-- One byte. -/
def crcByte (c : BitVec 32) (b : Byte) : BitVec 32 :=
  crcBit (crcBit (crcBit (crcBit (crcBit (crcBit (crcBit (crcBit (c ^^^ b.setWidth 32))))))))

/-- CRC-32C of bytes (the Castagnoli polynomial, reflected, ones before and after; log entry 30). -/
def crc32c (bs : List Byte) : Nat := ((bs.foldl crcByte 0xFFFFFFFF#32) ^^^ 0xFFFFFFFF#32).toNat

/-! ## Blocks: 66 bits, the sync header in bits 65:64 (R369) -/

/-- A control block of TYPE `ty`. -/
def ctlBlock (ty payload : Nat) : Nat := 2 * 2 ^ 64 + ty * 2 ^ 56 + payload % 2 ^ 56

/-- A data block. -/
def dataBlock (v : Nat) : Nat := 1 * 2 ^ 64 + v % 2 ^ 64

/-- TYPE of a control block; none for a data block and for an invalid header. -/
def blockType (b : Nat) : Option Nat := if b / 2 ^ 64 = 2 then some (bits b 56 8) else none

/-- The TYPE values that a stream is aligned and read by. -/
def Blk.IDLE : Nat := 0x1E
def Blk.SKIP : Nat := 0x2D
def Blk.SOF : Nat := 0x4B
def Blk.EOF : Nat := 0x55
def Blk.TIME : Nat := 0x87
def Blk.ACK : Nat := 0x66
def Blk.NAK : Nat := 0x78

/-- The blocks of one lane as one number spells them, 66 bits a block, the oldest lowest. -/
def laneBlocks (v : Nat) : List Nat := if v = 0 then [] else (List.range (v.log2 / 66 + 1)).map (fun k => bits v (66 * k) 66)

/-! ## Striping (R370) -/

/-- Block `j` of a stream travels on lane `j mod w` in slot `⌊j / w⌋`: what lane `i` carries of the stream. -/
def laneOf (w i : Nat) (stream : List Nat) : List Nat :=
  (List.range ((stream.length + w - 1) / w)).map (fun slot => stream.getD (slot * w + i) (ctlBlock Blk.IDLE 0))

/-- The stream over the `w` lanes of a port. -/
def stripe (w : Nat) (stream : List Nat) : List (List Nat) := (List.range w).map (fun i => laneOf w i stream)

/-- Slots of TIME blocks: on lane 0, with IDLE on the port's other lanes. -/
def timeSlots (w : Nat) (time : List Nat) : List (List Nat) :=
  (List.range w).map (fun i => if i = 0 then time else time.map (fun _ => ctlBlock Blk.IDLE 0))

/-- Where a lane's first SKIP stands. -/
def skipAt (lane : List Nat) : Option Nat := lane.findIdx? (fun b => blockType b == some Blk.SKIP)

/-- The lanes aligned on their SKIP sets: each drops what it holds ahead of the latest lane. None where the lanes differ by more than 8
block times or only some of them show a SKIP; lanes that show none stand in step (log entry 88). -/
def align (lanes : List (List Nat)) : Option (List (List Nat)) :=
  let at_ := lanes.filterMap skipAt
  if at_ = [] then some lanes
  else
    let lo := at_.foldl min (at_.headD 0)
    let hi := at_.foldl max 0
    if at_.length = lanes.length ∧ hi ≤ lo + 8 then some (lanes.map (fun l => l.drop ((skipAt l).getD 0 - lo))) else none

/-- The stream of aligned lanes: slot by slot, the slots of a SKIP set or a TIME block left out, an IDLE or reserved block discarded. -/
def unstripe (lanes : List (List Nat)) : List Nat :=
  let n := (lanes.map List.length).foldl min ((lanes.headD []).length)
  (List.range n).flatMap (fun k =>
    let slot := lanes.map (fun l => l.getD k 0)
    if blockType (slot.headD 0) = some Blk.SKIP ∨ blockType (slot.headD 0) = some Blk.TIME then []
    else slot.filter (fun b => b / 2 ^ 64 == 1 || blockType b == some Blk.SOF || blockType b == some Blk.EOF))

/-- An ACK or NAK block of a class with SEQ `seq` (R369). -/
def replyBlock (ty : Nat) (pri : Bool) (seq : Nat) : Nat := ctlBlock ty (b2n pri * 2 ^ 55 + seq % 4096 * 2 ^ 43)

/-- A block that ends the freeze of a lane: neither IDLE nor SKIP (R379). -/
def stirs (b : Nat) : Bool := blockType b != some Blk.IDLE && blockType b != some Blk.SKIP

/-! ## Frames (R372) -/

/-- A frame as it is received: class PRIORITY, SEQ, whether the CRC and LEN are right, its data blocks. -/
structure RxFrame where
  pri : Bool
  seq : Nat
  ok : Bool
  data : List Nat
  deriving DecidableEq, Repr

/-- The payload of an SOF block. -/
def sofPayload (pri : Bool) (seq len : Nat) : Nat := b2n pri * 2 ^ 55 + seq % 4096 * 2 ^ 43 + (len - 1) % 32 * 2 ^ 38

/-- CRC-32C over the SOF payload and the data blocks, each least significant byte first (log entry 88). -/
def frameCrc (payload : Nat) (data : List Nat) : Nat := crc32c (bytesOf 7 payload ++ data.flatMap (bytesOf 8))

/-- The blocks of a frame. -/
def frameBlocks (pri : Bool) (seq : Nat) (data : List Nat) : List Nat :=
  let s := sofPayload pri seq data.length
  [ctlBlock Blk.SOF s] ++ data.map dataBlock ++ [ctlBlock Blk.EOF (frameCrc s data * 2 ^ 24)]

/-- The frame that SOF block `sof`, these data blocks and EOF block `eof` make. -/
def rxFrame (sof : Nat) (data : List Nat) (eof : Nat) : RxFrame :=
  let s := sof % 2 ^ 56
  ⟨bitAt sof 55, bits sof 43 12, frameCrc s data == bits eof 24 32 && data.length == bits sof 38 5 + 1, data⟩

/-- An SOF block met and the data blocks after it. -/
abbrev OpenFrame := Nat × List Nat

/-- The frames of a stream, in the order of their EOF blocks. A PRIORITY frame may begin inside a NORMAL one, which goes on after it. -/
def framesOf : Option OpenFrame → Option OpenFrame → List Nat → List RxFrame
  | _, _, [] => []
  | n, p, b :: t =>
    if blockType b = some Blk.SOF then
      if bitAt b 55 then framesOf n (some (b, [])) t else framesOf (some (b, [])) p t
    else if blockType b = some Blk.EOF then
      match p, n with
      | some f, _ => rxFrame f.1 f.2 b :: framesOf n none t
      | none, some f => rxFrame f.1 f.2 b :: framesOf none none t
      | none, none => framesOf none none t
    else
      match p, n with
      | some f, _ => framesOf n (some (f.1, f.2 ++ [b % 2 ^ 64])) t
      | none, some f => framesOf (some (f.1, f.2 ++ [b % 2 ^ 64])) none t
      | none, none => framesOf none none t

/-- The frames that the lanes of a port bring; none where the lanes cannot be aligned. -/
def laneFrames (lanes : List (List Nat)) : List RxFrame :=
  match align lanes with
  | some l => framesOf none none (unstripe l)
  | none => []

/-! ## Span packets (R385) -/

/-- PTYPE of a packet kind. -/
def PktKind.code : PktKind → Nat
  | .cond => 1
  | .start => 2
  | .halt => 3
  | .mark => 4
  | .trig => 5

/-- The data blocks of a packet: bits 63:0, then bits 127:64 (log entry 88). -/
def SpanPkt.blocks (k : SpanPkt) : List Nat := [k.kind.code + k.tag % 65536 * 2 ^ 40 + k.arg % 256 * 2 ^ 56, k.t % 2 ^ 64]

/-- A span packet as its two data blocks say; none for a reserved PTYPE. -/
def pktOf (lo t : Nat) : Option SpanPkt :=
  let k (x : PktKind) : Option SpanPkt := some ⟨x, bits lo 40 16, bits lo 56 8, t % 2 ^ 64⟩
  match lo % 256 with
  | 1 => k .cond
  | 2 => k .start
  | 3 => k .halt
  | 4 => k .mark
  | 5 => k .trig
  | _ => none

/-- The packets of a PRIORITY frame's data blocks, two blocks each. -/
def pktsOf : List Nat → List SpanPkt
  | lo :: t :: l => (pktOf lo t).toList ++ pktsOf l
  | _ => []

end Sys2Proof.Machine
end

