-- ==== Sys2Proof/Machine/Ops.lean ====
section
/-!
DEFINITION. The named operations that the meanings share: register fields and records, time, open values, raising a fault
source, completing a descriptor, and the shape of a meaning's outcome.
-/
namespace Sys2Proof

/-- A 64-bit register of value `old` written in part (R15). -/
def Part.onto (p : Part) (old v : Nat) : Nat :=
  match p with
  | .low => old / 2 ^ 32 * 2 ^ 32 + v % 2 ^ 32
  | .high => v % 2 ^ 32 * 2 ^ 32 + old % 2 ^ 32
  | .whole => v % 2 ^ 64

namespace Machine

/-! ## Subsoil -/

/-- What an unlisted byte of Subsoil reads as (R484): what Colquel programmed, the CUSTOMER region unprogrammed. -/
def otpByte (a : Nat) : Byte := if 0x70 ≤ a ∧ a < 0xB0 then 0 else Config.otp a

/-- One engine cycle, 1 ns, in ticks (R6). -/
def cycleTicks : Nat := 16384

/-! ## Register fields -/

/-- Instance `i` of field `f`: what the register holds, for a staged field its shadow (R19). -/
def Dev.rd (d : Dev) (f : Fld) (i : Nat) : Nat := tget (fun _ => f.dfltAt i) d.regs (fkey f i)

/-- Instance `i` of field `f` set to `v`, cut to the field's width. -/
def Dev.wr (d : Dev) (f : Fld) (i v : Nat) : Dev :=
  { d with regs := tset (fun _ => f.dfltAt i) d.regs (fkey f i) (v % 2 ^ f.spec.width) }

/-- The active copy of a staged field (R18). -/
def Dev.act (d : Dev) (f : Fld) (i : Nat) : Nat := tget (fun _ => f.dfltAt i) d.active (fkey f i)

/-- The shadow of a staged field moves to the active copy (R18). -/
def Dev.move (d : Dev) (f : Fld) (i : Nat) : Dev :=
  { d with active := tset (fun _ => f.dfltAt i) d.active (fkey f i) (d.rd f i) }

/-- Whether a one-bit field is 1. -/
def Dev.on (d : Dev) (f : Fld) (i : Nat) : Bool := d.rd f i == 1

/-- The engine cycle. -/
def Dev.cycle (d : Dev) : Nat := d.now / cycleTicks

/-- What has happened in the present engine cycle. -/
def Dev.cycNow (d : Dev) : Cyc := if d.cyc.at_ = d.cycle then d.cyc else { at_ := d.cycle }

/-- The bits of instance `i` of field `f` that events have set in this engine cycle: a clear leaves them (R17). -/
def Dev.justSet (d : Dev) (f : Fld) (i : Nat) : Nat :=
  (d.cycNow.sets.filter (fun x => x.1 == f && x.2.1 == i)).foldl (fun m x => m ||| x.2.2) 0

/-- An event sets the bits `m` of instance `i` of field `f`: the field becomes `v`. -/
def Dev.setTo (d : Dev) (f : Fld) (i v m : Nat) : Dev :=
  { d.wr f i v with cyc := { d.cycNow with sets := (f, i, m) :: d.cycNow.sets } }

/-- A one-bit field set. -/
def Dev.set1 (d : Dev) (f : Fld) (i : Nat) : Dev := d.setTo f i 1 1

/-- A one-bit field cleared. -/
def Dev.clr (d : Dev) (f : Fld) (i : Nat) : Dev := d.wr f i 0

/-- A one-bit field cleared by software: a bit that an event has set in the same engine cycle stays (R17). -/
def Dev.clrBy (d : Dev) (f : Fld) (i : Nat) : Dev := d.wr f i (d.rd f i &&& d.justSet f i)

/-- A staged field is about to be written: the shadow before this engine cycle is kept for a seam in it (R19). -/
def Dev.stage (d : Dev) (f : Fld) (i : Nat) : Dev :=
  if d.cycNow.staged.any (fun x => x.1 == f && x.2.1 == i) then d
  else { d with cyc := { d.cycNow with staged := (f, i, d.rd f i) :: d.cycNow.staged } }

/-- The pending latch of the 64-bit register at BAR0 offset `a` ends (R14). -/
def Dev.unlatchAt (d : Dev) (a : Nat) : Dev := { d with latch := tset (fun _ => 0) d.latch a 0 }

/-- A counter that saturates, raised by `n`. -/
def Dev.count (d : Dev) (f : Fld) (i n : Nat) : Dev := d.wr f i (min (d.rd f i + n) (2 ^ f.spec.width - 1))

/-! ## Records -/

/-- Site `n`. -/
def Dev.site (d : Dev) (n : Nat) : Site := tget (fun _ => {}) d.sites n
/-- Site `n` changed by `f`. -/
def Dev.upSite (d : Dev) (n : Nat) (f : Site → Site) : Dev :=
  { d with sites := tset (fun _ => {}) d.sites n (f (d.site n)) }
/-- Lane `l`. -/
def Dev.lane (d : Dev) (l : Nat) : Lane := tget (fun _ => {}) d.lanes l
/-- Lane `l` changed by `f`. -/
def Dev.upLane (d : Dev) (l : Nat) (f : Lane → Lane) : Dev :=
  { d with lanes := tset (fun _ => {}) d.lanes l (f (d.lane l)) }
/-- Pin `p`. -/
def Dev.pin (d : Dev) (p : Nat) : Pin := tget (fun _ => {}) d.pins p
/-- Pin `p` changed by `f`. -/
def Dev.upPin (d : Dev) (p : Nat) (f : Pin → Pin) : Dev :=
  { d with pins := tset (fun _ => {}) d.pins p (f (d.pin p)) }

/-- The Compare Sequencer of pin `p`. -/
def Dev.csq (d : Dev) (p : Nat) : Csq := tget (fun _ => {}) d.csqs p
/-- The Compare Sequencer of pin `p` changed by `f`. -/
def Dev.upCsq (d : Dev) (p : Nat) (f : Csq → Csq) : Dev :=
  { d with csqs := tset (fun _ => {}) d.csqs p (f (d.csq p)) }
/-- The fail records of site `n`. -/
def Dev.failSite (d : Dev) (n : Nat) : FailSite := tget (fun _ => {}) d.failSites n
/-- The fail records of site `n` changed by `f`. -/
def Dev.upFailSite (d : Dev) (n : Nat) (f : FailSite → FailSite) : Dev :=
  { d with failSites := tset (fun _ => {}) d.failSites n (f (d.failSite n)) }

/-- Pseudo-channel `c`. -/
def Dev.pc (d : Dev) (c : Nat) : Pc := tget (fun _ => {}) d.pcs c
/-- Pseudo-channel `c` changed by `f`. -/
def Dev.upPc (d : Dev) (c : Nat) (f : Pc → Pc) : Dev := { d with pcs := tset (fun _ => {}) d.pcs c (f (d.pc c)) }
/-- PLL `q`. -/
def Dev.pll (d : Dev) (q : Nat) : Pll := tget (fun _ => {}) d.plls q
/-- PLL `q` changed by `f`. -/
def Dev.upPll (d : Dev) (q : Nat) (f : Pll → Pll) : Dev := { d with plls := tset (fun _ => {}) d.plls q (f (d.pll q)) }

/-- Wave channel `w`. -/
def Dev.wave (d : Dev) (w : Nat) : Wave := tget (fun _ => {}) d.waves w
/-- Wave channel `w` changed by `f`. -/
def Dev.upWave (d : Dev) (w : Nat) (f : Wave → Wave) : Dev := { d with waves := tset (fun _ => {}) d.waves w (f (d.wave w)) }
/-- Trigger slot `k`. -/
def Dev.slot (d : Dev) (k : Nat) : Slot := tget (fun _ => {}) d.slots k
/-- Trigger slot `k` changed by `f`. -/
def Dev.upSlot (d : Dev) (k : Nat) (f : Slot → Slot) : Dev := { d with slots := tset (fun _ => {}) d.slots k (f (d.slot k)) }
/-- The acquisition open on channel `w`. -/
def Dev.acq (d : Dev) (w : Nat) : Option Acq := tget (fun _ => none) d.acqs w
/-- The acquisition of channel `w` set. -/
def Dev.setAcq (d : Dev) (w : Nat) (a : Option Acq) : Dev := { d with acqs := tset (fun _ => none) d.acqs w a }

/-- Rein port `p`. -/
def Dev.port (d : Dev) (p : Nat) : RnPort := tget (fun _ => {}) d.ports p
/-- Rein port `p` changed by `f`. -/
def Dev.upPort (d : Dev) (p : Nat) (f : RnPort → RnPort) : Dev := { d with ports := tset (fun _ => {}) d.ports p (f (d.port p)) }
/-- Rein lane `l`. -/
def Dev.rnLane (d : Dev) (l : Nat) : RnLane := tget (fun _ => {}) d.lanesRn l
/-- Rein lane `l` changed by `f`. -/
def Dev.upRnLane (d : Dev) (l : Nat) (f : RnLane → RnLane) : Dev := { d with lanesRn := tset (fun _ => {}) d.lanesRn l (f (d.rnLane l)) }
/-- Ring `r`; a ring never written completes into ring 0. -/
def Dev.ring (d : Dev) (r : Nat) : Ring := tget (fun _ => {}) d.rings r
/-- Ring `r` changed by `f`. -/
def Dev.upRing (d : Dev) (r : Nat) (f : Ring → Ring) : Dev := { d with rings := tset (fun _ => {}) d.rings r (f (d.ring r)) }
/-- MSI-X vector `v`. -/
def Dev.vec (d : Dev) (v : Nat) : MsiVec := tget (fun _ => {}) d.vectors v
/-- MSI-X vector `v` changed by `f`. -/
def Dev.upVec (d : Dev) (v : Nat) (f : MsiVec → MsiVec) : Dev := { d with vectors := tset (fun _ => {}) d.vectors v (f (d.vec v)) }

/-- The Strop unit `u` of kind `k`. -/
def Dev.calUnit (d : Dev) (k u : Nat) : CalUnit := tget (fun _ => {}) d.cal (k * 512 + u)
/-- The Strop unit `u` of kind `k` changed by `f`. -/
def Dev.upCal (d : Dev) (k u : Nat) (f : CalUnit → CalUnit) : Dev :=
  { d with cal := tset (fun _ => {}) d.cal (k * 512 + u) (f (d.calUnit k u)) }
/-- Kiln changed by `f`. -/
def Dev.upKl (d : Dev) (f : Kl → Kl) : Dev := { d with kl := f d.kl }

/-- The device reads `n` bytes of host memory at `a` (R32); what the host answers is an operand of the command. -/
def Dev.ask (d : Dev) (a n : Nat) : Dev := { d with asked := some (a, n) }

/-- Event `ev` of Tally occurs `n` times on unit `i` in this engine cycle (R464, R465). -/
def Dev.tally (d : Dev) (ev i n : Nat) : Dev :=
  if n = 0 then d else { d with tl := { d.tl with evs := d.tl.evs ++ [(ev, i, n)] } }

/-! ## Time -/

/-- `n` nanoseconds in ticks. -/
def ns (n : Nat) : Nat := n * 16384
/-- `n` microseconds in ticks. -/
def us (n : Nat) : Nat := n * 16384000
/-- `n` milliseconds in ticks. -/
def ms (n : Nat) : Nat := n * 16384000000
/-- `n` seconds in ticks. -/
def secs (n : Nat) : Nat := n * 16384000000000

/-- Bedrock time T (R8); where a negative step is larger than the count, T stands at 0 until local time has caught up (log entry 72). -/
def Dev.bed (d : Dev) : Nat := ((d.now : Int) + d.bedOff).toNat

/-- One engine cycle passes (R6; log entry 2). -/
def Dev.tick (d : Dev) : Dev := { d with now := d.now + cycleTicks }

/-! ## Open values -/

/-- The next open value of `w` bits (log entry 5). -/
def Dev.openVal (d : Dev) (w : Nat) : Nat := (Config.freeValue d.free).toNat % 2 ^ w

/-- The next open choice. -/
def Dev.openBit (d : Dev) : Bool := Config.freeBool d.free

/-- The open value has been taken. -/
def Dev.took (d : Dev) : Dev := { d with free := d.free + 1 }

/-! ## Fault sources -/

/-- Source `s` raised for instance `i` by a unit of kind `k` (R443). -/
def Dev.raiseK (d : Dev) (s i k : Nat) : Dev :=
  { d with raised := d.raised ++ [⟨s, i, k, d.cycle⟩] }

/-- Source `s` raised for instance `i`. -/
def Dev.raise (d : Dev) (s i : Nat) : Dev := d.raiseK s i 0

/-- The Steward owes the journal an entry of `kind` (R487) whose REC is the record of the event of `src` just raised. -/
def Dev.oweFault (d : Dev) (kind src data : Nat) : Dev :=
  { d with journal := d.journal ++ [⟨d.bed, d.rd .GD_STATUS_BOOTS 0, kind, src, none, data⟩] }

/-- The Steward owes the journal an entry of `kind` with no fault record. -/
def Dev.owe (d : Dev) (kind data : Nat) : Dev :=
  { d with journal := d.journal ++ [⟨d.bed, d.rd .GD_STATUS_BOOTS 0, kind, 0, some 0, data⟩] }

/-! ## Rein and twin frames sent -/

/-- Port `p` is UP and sends frames: none in safe state (R389). -/
def Dev.sends (d : Dev) (p : Nat) : Bool := d.rd .RN_PORT_STATUS_LSTATE p == 4 && !d.on .FC_STATE_SAFE 0

/-- Port `p` is UP with ROLE SPAN and carries span packets (R387). -/
def Dev.spanPort (d : Dev) (p : Nat) : Bool :=
  d.sends p && d.rd .RN_PORT_CTRL_ROLE p == 0 && d.on .RN_PORT_CTRL_FWD p

/-- A packet as its 16 bytes tell it: the low 64 bits of its time. -/
def SpanPkt.low (k : SpanPkt) : SpanPkt := { k with t := k.t % 2 ^ 64 }

/-- The lanes of port `p`. -/
def portLanes (p : Nat) : List Nat := (List.range 4).map (· + 4 * p)

/-- The lanes of port `p` that carry its traffic. -/
def Dev.usedLanes (d : Dev) (p : Nat) : List Nat := (portLanes p).filter (d.on .RN_LANE_STATUS_USED)

/-- The width of port `p`: how many lanes carry its traffic. -/
def Dev.width (d : Dev) (p : Nat) : Nat := (d.usedLanes p).length

/-- A kept PRIORITY frame as the lanes of a port of width `w` carry it (R370, R372). -/
def TxFrame.lanes (f : TxFrame) (w : Nat) : List (List Nat) := stripe w (frameBlocks true f.seq (f.pkts.flatMap SpanPkt.blocks))

/-- Packet `k` leaves on port `p` in a PRIORITY frame; the transmitter keeps its last 64 (R373, R387). -/
def Dev.sendOn (d : Dev) (p : Nat) (k : SpanPkt) : Dev :=
  (d.upPort p (fun P =>
    let f : TxFrame := ⟨P.seqP, d.now, 1, [k.low], []⟩
    let l := P.txP ++ [f]
    { P with txP := l.drop (l.length - 64), seqP := (P.seqP + 1) % 4096, out := f.lanes (d.width p)
             recent := (k.low, d.now) :: P.recent.filter (fun x => decide (d.now < x.2 + us 1)) })).count .RN_PORT_COUNT_FWD p 1 |>.tally 0x50 p 1

/-- Packet `k` leaves on every span port but `but` (R387). -/
def Dev.sendSpan (d : Dev) (k : SpanPkt) (but : Option Nat) : Dev :=
  ((List.range 4).filter (fun p => d.spanPort p && but != some p)).foldl (fun d p => d.sendOn p k) d

/-- This part originates a span packet (R387). -/
def Dev.originate (d : Dev) (k : SpanPkt) : Dev := d.sendSpan k none

/-- The twin port (R390). -/
def Dev.twinPort (d : Dev) : Nat := d.rd .TW_CTRL_PORT 0
/-- ROLE of TW_STATUS. -/
def Dev.role (d : Dev) : Nat := d.rd .TW_STATUS_ROLE 0

/-- The frames of the mirror queue leave while the twin port is UP and keeps fewer than 64 (R373). -/
def Dev.twinPump : Nat → Dev → Dev
  | 0, d => d
  | f + 1, d =>
    let p := d.twinPort
    if !d.sends p ∨ 64 ≤ (d.port p).txN.length then d
    else match d.tw.queue with
      | [] => d
      | q :: t =>
        Dev.twinPump f ((({ d with tw := { d.tw with queue := t } } : Dev).upPort p (fun P =>
          { P with txN := P.txN ++ [⟨P.seqN, d.now, 1, [], [q]⟩], seqN := (P.seqN + 1) % 4096 })).tally 0x50 p 1)

/-- Twin traffic is queued for the twin port. -/
def Dev.twinSend (d : Dev) (q : Mirror) : Dev := Dev.twinPump 64 { d with tw := { d.tw with queue := d.tw.queue ++ [q] } }

/-- The primary mirrors `q` to its standby (R396). -/
def Dev.mirror (d : Dev) (kind a b c : Nat) : Dev := if d.role = 3 then d.twinSend ⟨kind, a, b, c⟩ else d

/-! ## Register writes -/

/-- The event of a refusal, kept for a clear of the same engine cycle (R20, R21). -/
def Dev.refusedEvent (d : Dev) (kind addr : Nat) : Dev :=
  { d.raise 0x150 0 with
    cyc := { d.cycNow with refused := some (match d.cycNow.refused with | some r => (r.1, r.2.1, true) | none => (kind, addr, false)) } }

/-- A refusal is recorded (R20, R21): kind 0 IDLE_ONLY, 1 WIDTH. -/
def Dev.refuse (d0 : Dev) (kind addr : Nat) : Dev :=
  let d := d0.refusedEvent kind addr
  if d.on .DEV_REFUSED_VALID 0 then d.set1 .DEV_REFUSED_MORE 0
  else (((d.set1 .DEV_REFUSED_VALID 0).clr .DEV_REFUSED_MORE 0).wr .DEV_REFUSED_KIND 0 kind).wr .DEV_REFUSED_ADDR 0 addr

/-- Software has cleared DEV_REFUSED.VALID: MORE goes with it, and a refusal of the same engine cycle is recorded anew (R21). -/
def Dev.refusedCleared (d : Dev) : Dev :=
  match d.cycNow.refused with
  | some r => (((d.wr .DEV_REFUSED_VALID 0 1).wr .DEV_REFUSED_MORE 0 (b2n r.2.2)).wr .DEV_REFUSED_KIND 0 r.1).wr .DEV_REFUSED_ADDR 0 r.2.1
  | none => d.clr .DEV_REFUSED_MORE 0

/-- The 78-bit Bedrock time nearest to now whose low 64 bits are `v` (R8). -/
def Dev.fullTime (d : Dev) (v : Nat) : Nat :=
  let b := d.bed
  let t := b / 2 ^ 64 * 2 ^ 64 + v
  if t + 2 ^ 63 < b then t + 2 ^ 64 else if b + 2 ^ 63 < t ∧ 2 ^ 64 ≤ t then t - 2 ^ 64 else t

/-! ## The shape of an outcome -/

/-- A command that names only units the part has runs; another has no meaning. -/
def guardUnit (ok : Bool) (s : State) : Host.Outcome State Fault Refusal :=
  if ok then .next s else .fault .noSuchUnit

/-- The state with the block changed by `f`; the memories and the queue stay. -/
def State.onDev (s : State) (f : Dev → Dev) : State := { s with dev := f s.dev }

/-- The state with the block changed by `f`, which may read the memories; they and the queue stay. -/
def State.onDevM (s : State) (f : Mems → Dev → Dev) : State := { s with dev := f s.mem s.dev }

/-- One change of a memory; a write to host memory with its Relaxed Ordering attribute (R321). -/
inductive Put where
  | hbm (a : Nat) (bs : List Byte) | host (a : Nat) (bs : List Byte) (relaxed : Bool) | flash (a : Nat) (bs : List Byte)
  | otp (a : Nat) (bs : List Byte) | win (a : Nat) (bs : List Byte) | vlb (a : Nat) (bs : List Byte)
  | ents (a : Nat) (bs : List Byte)
  /-- The bytes of a Vector Line Buffer are lost: the pin (R65). -/
  | lose (p : Nat)
  /-- The QCORE domain of a pin goes off: its Vector Line Buffer and its Entry Store are lost (R31). -/
  | dark (p : Nat)
  /-- A flash sector is erased: address and length (R489). -/
  | erase (a len : Nat)
  /-- Pattern memory, the buffers and the window buffer lose their contents (R476). -/
  | loseHbm

/-- The memories after one change; pin `p`'s buffer is bytes 131,072 p on of `vlb`. -/
def Mems.put (m : Mems) : Put → Mems
  | .hbm a bs => { m with hbm := writeMem byte0 m.hbm a bs }
  | .host a bs _ => { m with host := writeMem byte0 m.host a bs }
  | .flash a bs => { m with flash := writeMem byteF m.flash a bs }
  | .otp a bs => { m with otp := writeMem otpByte m.otp a bs }
  | .win a bs => { m with win := writeMem byte0 m.win a bs }
  | .vlb a bs => { m with vlb := writeMem byte0 m.vlb a bs }
  | .ents a bs => { m with ents := writeMem byte0 m.ents a bs }
  | .lose p => { m with vlb := m.vlb.filter (fun c => c.1 / 131072 != p) }
  | .dark p => { m with vlb := m.vlb.filter (fun c => c.1 / 131072 != p), ents := m.ents.filter (fun c => c.1 / 2048 != p) }
  | .erase a len => { m with flash := m.flash.filter (fun c => decide (c.1 < a) || decide (a + len ≤ c.1)) }
  | .loseHbm => { m with hbm := [], win := [], vlb := [], ents := [] }

/-- The state with the block changed and the memory changes made in order; the queue stays. -/
def State.onMem (s : State) (f : Mems → Dev → List Put × Dev) : State :=
  let r := f s.mem s.dev
  { s with mem := r.1.foldl Mems.put s.mem, dev := r.2 }

/-- The COMMON and HOST domains are off: the device is ASLEEP (R31). -/
def Dev.asleep (d : Dev) : Bool := d.rd .KL_STATUS_PSTATE 0 == 1

/-- What a unit of those domains does: nothing in ASLEEP. -/
def Dev.core (f : Dev → Dev) (d : Dev) : Dev := if d.asleep then d else f d

/-- The same with changes of the memories. -/
def Dev.coreM (f : Dev → List Put × Dev) (d : Dev) : List Put × Dev := if d.asleep then ([], d) else f d

/-- `f` over a list of units, in order. -/
def Dev.each (d : Dev) (l : List Nat) (f : Dev → Nat → Dev) : Dev := l.foldl f d

end Machine
end Sys2Proof
end

