-- ==== Sys2Proof/Machine/Tracker.lean ====
section
/-!
DEFINITION. The Operation Tracker (R299) as the blocks see it: reading a descriptor's fields (R300, R302), completing it,
and the STATUS values (R306).
-/
namespace Sys2Proof.Machine

/-! ## STATUS values (R306) -/

def Status.OK : Nat := 0x00
def Status.DEFERRED_OK : Nat := 0x01
def Status.WITHDRAWN : Nat := 0x02
def Status.ABORTED_PARTIAL : Nat := 0x03
def Status.TAKEOVER : Nat := 0x04
def Status.BAD_DESC : Nat := 0x10
def Status.HOST_ERR : Nat := 0x11
def Status.TOKEN_TMO : Nat := 0x12
def Status.INVALID : Nat := 0x20
def Status.BUSY : Nat := 0x21
def Status.UNIT_DOWN : Nat := 0x22
def Status.TIMEOUT : Nat := 0x23
def Status.LATE_START : Nat := 0x24
def Status.NO_DATA : Nat := 0x25
def Status.OVERRUN : Nat := 0x26
def Status.MEM_ERR : Nat := 0x27
def Status.PE_NAK : Nat := 0x28
def Status.PE_TMO : Nat := 0x29
def Status.UNDERRUN : Nat := 0x30
def Status.RDV_MISS : Nat := 0x31
def Status.SPAN_LATE : Nat := 0x32
def Status.FAIL_STOP : Nat := 0x33
def Status.BAD_STREAM : Nat := 0x34
/-- The status of sequencer fault slot `v` (R140, R306): the two STACK slots share one. -/
def Status.seqFault (v : Nat) : Nat := if v ≤ 4 then 0x37 + v else 0x36 + v
def Status.UCODE_REJECT : Nat := 0x48
def Status.UCODE_FAIL : Nat := 0x49
def Status.CAL_REJECT : Nat := 0x50

/-! ## Descriptor fields -/

/-- OP (R300). -/
def descOp (desc : Nat) : Nat := bits desc 0 8
/-- A bit of FLAGS: 0 ORDERED, 1 IRQ, 2 NOTIFY_TOKEN, 3 MIRROR_SKIP. -/
def descFlag (desc i : Nat) : Bool := bitAt desc (8 + i)
/-- TARGET. -/
def descTarget (desc : Nat) : Nat := bits desc 16 16
/-- TAG. -/
def descTag (desc : Nat) : Nat := bits desc 32 32
/-- NTOKEN. -/
def descNtoken (desc : Nat) : Nat := bits desc 496 12
/-- `w` bits from bit `lo` of the field at byte `b` of the body (R302). -/
def descField (desc b lo w : Nat) : Nat := bits desc (8 * b + lo) w

/-! ## Entries -/

/-- The entry with number `e`, if the tracker holds it. -/
def Dev.entry? (d : Dev) (e : Nat) : Option Entry := d.tracker.find? (fun x => x.id == e)

/-- Entry `e` changed by `f`. -/
def Dev.upEntry (d : Dev) (e : Nat) (f : Entry → Entry) : Dev :=
  { d with tracker := d.tracker.map (fun x => if x.id = e then f x else x) }

/-- The descriptor of entry `e`, while its block has not reported it done. -/
def Dev.open? (d : Dev) (e op : Nat) : Option Entry :=
  match d.entry? e with
  | some x => if descOp x.desc == op && !x.done then some x else none
  | none => none

/-- The block has done with entry `e`: STATUS and RESULT stand, the completion report is due (R304). A second finish of one
entry changes nothing (R328: a cause after the status is decided changes nothing). -/
def Dev.finish (d : Dev) (e status result : Nat) : Dev :=
  d.upEntry e (fun x => if x.done then x else { x with done := true, status := status, result := result })

/-- Entry `e` has begun: its block has taken it. -/
def Dev.begin_ (d : Dev) (e : Nat) : Dev := d.upEntry e (fun x => { x with begun := true })

/-- Entry `e` has started (R323). -/
def Dev.start (d : Dev) (e : Nat) : Dev := d.upEntry e (fun x => { x with begun := true, started := true })

/-- Entry `e` has touched pins (R323). -/
def Dev.touch (d : Dev) (e : Nat) : Dev :=
  d.upEntry e (fun x => { x with begun := true, started := true, touched := true })

/-- The Ring Engine takes the block's completion report of entry `e` (R32, R305). -/
def Dev.report (d : Dev) (e : Nat) : Dev :=
  d.upEntry e (fun x => if x.done && !x.reported then { x with reported := true, time := d.bed } else x)

/-- What a descriptor stopped in mid-course has done, as RESULT gives it (R307, R324): TSET_LOAD counts images. -/
def Entry.doneSoFar (x : Entry) : Nat := if descOp x.desc = 0x24 then x.progress * 2 ^ 96 else x.result

/-- What the last pair of a REG_WRITE waits for, as `due` keeps it: 8 × (time of the write + 1) + `k`, `k` 1 for the operating point, 2 + p for
the rate of port p. -/
def Dev.dueFor (d : Dev) (k : Nat) : Nat := 8 * (d.now + 1) + k

/-- Training step `k` ended at local time `t`: the REG_WRITEs whose last pair waited for it have waited until then (R308). -/
def Dev.stepOver (d : Dev) (k t : Nat) : Dev :=
  { d with tracker := d.tracker.map (fun x => if x.due % 8 = k ∧ descOp x.desc = 0x08 ∧ !x.done then
      { x with due := 0, status := Status.DEFERRED_OK
               result := x.result / 2 ^ 32 * 2 ^ 32 + min (x.result % 2 ^ 32 + (t - (x.due / 8 - 1)) / cycleTicks) (2 ^ 32 - 1) } else x) }

/-- RESULT with `v` at bit `lo`; `w` is the field's width and a larger count saturates (R307). -/
def resAt (v lo w : Nat) : Nat := min v (2 ^ w - 1) * 2 ^ lo

/-! ## The service mode and the pattern memory in service -/

/-- LOCAL mode (R39, R41). -/
def Dev.localMode (d : Dev) : Bool := d.rd .DEV_UNITS_MODE 0 == 1

/-- The end of the pattern memory in service (R40): 36 GB for each stack in service. -/
def Dev.memEnd (d : Dev) : Nat :=
  let ok := d.rd .DEV_UNITS_HBM_OK 0
  (b2n (bitAt ok 0) + b2n (bitAt ok 1)) * 0x9_0000_0000

/-- The start of the ring context table, the last 8 MB of it (R290). -/
def Dev.ctxBase (d : Dev) : Nat := d.memEnd - 0x80_0000

/-- `len` bytes at `a` lie in pattern memory in service and not in the ring context table. -/
def Dev.hbmOk (d : Dev) (a len : Nat) : Bool := decide (a + len ≤ d.ctxBase)

end Sys2Proof.Machine
end

