-- ==== Sys2Proof/Machine/Operands.lean ====
section
/-!
DEFINITION. What a command's operands name: the pins of a site, the pins of a program, the site of a pin, the word a
sequencer is at and its fields, whether a block counts as running (R20), and the requests that units make of the memory.
-/
namespace Sys2Proof.Machine

/-! ## Sites, pins, programs -/

/-- Pin `p` is a member of site `n` (R43). -/
def Dev.isMember (d : Dev) (n p : Nat) : Bool := bitAt (d.rd .SITE_MEMBER_MASK (n * 4 + p / 64)) (p % 64)

/-- Pin `p` has its PRIVATE bit set in site `n` (R46). -/
def Dev.isPrivate (d : Dev) (n p : Nat) : Bool := bitAt (d.rd .SITE_PRIVATE_MASK (n * 4 + p / 64)) (p % 64)

/-- The pins that four 64-bit masks name, lowest first. -/
def maskPins (f : Nat → Nat) : List Nat :=
  (List.range 4).flatMap (fun k => let m := f k; if m = 0 then [] else ((List.range 64).filter (bitAt m)).map (· + 64 * k))

/-- The member pins of site `n`, lowest first. -/
def Dev.members (d : Dev) (n : Nat) : List Nat := maskPins (fun k => d.rd .SITE_MEMBER_MASK (n * 4 + k))

/-- The members with their PRIVATE bit set, as a mask. -/
def Dev.privMask (d : Dev) (n k : Nat) : Nat := d.rd .SITE_MEMBER_MASK (n * 4 + k) &&& d.rd .SITE_PRIVATE_MASK (n * 4 + k)

/-- The members that follow the shared program (R46). -/
def Dev.sharedPins (d : Dev) (n : Nat) : List Nat := maskPins (fun k => d.rd .SITE_MEMBER_MASK (n * 4 + k) ^^^ d.privMask n k)

/-- The members that run their own program (R47). -/
def Dev.privatePins (d : Dev) (n : Nat) : List Nat := maskPins (d.privMask n)

/-- The site that pin `p` belongs to (R43). -/
def Dev.siteOf (d : Dev) (p : Nat) : Option Nat := (List.range 64).find? (fun n => d.isMember n p)

/-- SITE_STATUS.STATE of site `n` (R49). -/
def Dev.siteState (d : Dev) (n : Nat) : Nat := d.rd .SITE_STATUS_STATE n

def SiteState.EMPTY : Nat := 0
def SiteState.IDLE : Nat := 1
def SiteState.DOZE : Nat := 2
def SiteState.PREPARING : Nat := 3
def SiteState.ARMED : Nat := 4
def SiteState.RUNNING : Nat := 5
def SiteState.PAUSED : Nat := 6
def SiteState.DRAINING : Nat := 7

/-- Site `n` counts as running (R45). -/
def Dev.siteRunning (d : Dev) (n : Nat) : Bool := decide (3 ≤ d.siteState n)

/-- Pin `p`'s site counts as running. -/
def Dev.pinRunning (d : Dev) (p : Nat) : Bool :=
  match d.siteOf p with
  | some n => d.siteRunning n
  | none => false

/-- The octet of pin `p` is in service (R23, R39). -/
def Dev.octOk (d : Dev) (p : Nat) : Bool := bitAt (d.rd .DEV_UNITS_OCT_OK 0) (p / 8)

/-- The edge PLL of pin `p`'s quadrant is ready (R30). -/
def Dev.pllOk (d : Dev) (p : Nat) : Bool := bitAt (d.rd .BR_STATUS_QPLL_READY 0) (p / 64)

/-- The site a lane belongs to: lane `n` below 64 is the shared program of site `n`, lane `64 + p` pin `p`'s own. -/
def Dev.laneSite (d : Dev) (l : Nat) : Option Nat := if l < 64 then some l else d.siteOf (l - 64)

/-- The pins that run a lane. -/
def Dev.lanePins (d : Dev) (l : Nat) : List Nat := if l < 64 then d.sharedPins l else [l - 64]

/-- The lanes of site `n`: the shared program, then the private programs. -/
def Dev.siteLanes (d : Dev) (n : Nat) : List Nat := n :: (d.privatePins n).map (· + 64)

/-- The pin whose boundaries a lane's synchronised words use: its lowest (R516 leaves it open where periods differ). -/
def Dev.lanePin (d : Dev) (l : Nat) : Option Nat := (d.lanePins l).head?

/-! ## The sequence word (R104) -/

/-- OP, bits [63:58]. -/
def wOp (w : Nat) : Nat := bits w 58 6
/-- TSET, bits [57:53]. -/
def wTset (w : Nat) : Nat := bits w 53 5
/-- SEAMOK, bit 52. -/
def wSeamok (w : Nat) : Bool := bitAt w 52
/-- STRETCH, bit 51. -/
def wStretch (w : Nat) : Bool := bitAt w 51
/-- CAPT, bit 50. -/
def wCapt (w : Nat) : Bool := bitAt w 50
/-- MASKF, bit 49. -/
def wMaskf (w : Nat) : Bool := bitAt w 49
/-- XW, bit 48. -/
def wXw (w : Nat) : Bool := bitAt w 48
/-- ARG16, bits [47:32]. -/
def wA16 (w : Nat) : Nat := bits w 32 16
/-- ARG32, bits [31:0]. -/
def wA32 (w : Nat) : Nat := bits w 0 32

/-- Word `a` as the Word Buffer holds it (R103). -/
def Lane.wordAt (L : Lane) (a : Nat) : Option Nat :=
  (L.words.find? (fun r => decide (r.1 ≤ a) && decide (a < r.1 + r.2.length))).bind (fun r => r.2[a - r.1]?)

/-- Word `a` of lane `l`'s program has been delivered (R103); in LOCAL mode the program stands in a buffer of the part (R48). -/
def Dev.held (d : Dev) (l a : Nat) : Bool := d.localMode || ((d.lane l).wordAt a).isSome

/-- Word `a` of lane `l`'s program (R102): from its Word Buffer, in LOCAL mode from the Vector Line Buffer of the pin (R48). -/
def Dev.word (m : Mems) (d : Dev) (l a : Nat) : Nat :=
  let L := d.lane l
  if d.localMode then
    match d.lanePin l with
    | some p => ofBytes (readMem byte0 m.vlb (p * 131072 + L.base + 8 * a) 8)
    | none => 0
  else (L.wordAt a).getD 0

/-- Word `w` with opcode `op` in place of its own (R76: a SITE action has the meaning of the instruction it serves). -/
def withOp (w op : Nat) : Nat := op * 2 ^ 58 + w % 2 ^ 58

/-- The word that lane `l` is at. -/
def Dev.curWord (m : Mems) (d : Dev) (l : Nat) : Nat :=
  let w := Dev.word m d l (d.lane l).waddr
  match (d.lane l).upc, (d.lane l).asOp with
  | some _, some op => withOp w op
  | _, _ => w

/-- XARG32, bits [31:0] of the extension word (R105). -/
def Dev.xarg (m : Mems) (d : Dev) (l : Nat) : Nat := wA32 (Dev.word m d l ((d.lane l).waddr + 1))

/-- The address of the word after the present word and its extension word. -/
def nextWaddr (w a : Nat) : Nat := if wXw w then a + 2 else a + 1

/-- The page of the window that word `t` lies in is held while the current word is `a` (R103). -/
def inWindow (len a t : Nat) : Bool :=
  let pa := a / 256
  let pt := t / 256
  if pt < 8 then true
  else if a < 2048 then decide (pt ≤ 10) && decide (pt * 256 < len)
  else decide (pa ≤ pt + 5) && decide (pt ≤ pa + 2)

/-- What a transfer of control to `t` meets (R104): the fault slot 2 (BAD_TARGET) or 3 (FAR_TARGET), or none. -/
def targetFault (len a t : Nat) : Option Nat :=
  if len ≤ t then some 2
  else if inWindow len a t then none
  else some 3

/-! ## Interleaving (R335) -/

/-- Stack `s` is in service. -/
def Dev.stackOk (d : Dev) (s : Nat) : Bool := bitAt (d.rd .DEV_UNITS_HBM_OK 0) s

/-- The pseudo-channels in use. -/
def Dev.pcOk (d : Dev) (c : Nat) : Bool := d.stackOk (c / 32)

/-- The pseudo-channel of an HBM address. -/
def Dev.pcOf (d : Dev) (a : Nat) : Nat :=
  match d.stackOk 0, d.stackOk 1 with
  | true, true => bits a 10 6 ^^^ bits a 16 6
  | true, false => bits a 10 5 ^^^ bits a 15 5
  | _, _ => 32 + (bits a 10 5 ^^^ bits a 15 5)

/-- The bank of an HBM address. -/
def Dev.bankOf (d : Dev) (a : Nat) : Nat := if d.stackOk 0 && d.stackOk 1 then bits a 16 6 else bits a 15 6

/-- The row of an HBM address. -/
def Dev.rowOf (d : Dev) (a : Nat) : Nat := if d.stackOk 0 && d.stackOk 1 then bits a 22 15 else bits a 21 15

/-! ## Requests (R336) -/

/-- The class of a requester: 0 STREAM, 1 HOST. -/
def Requester.cls : Requester → Nat
  | .stream _ | .entries _ | .prog _ | .ppt _ | .wave _ => 0
  | _ => 1

/-- The keep-open hint of a requester. -/
def Requester.hint : Requester → Bool
  | .stream _ | .entries _ | .prog _ | .ppt _ | .wave _ | .ctx _ => false
  | _ => true

/-- The pieces of a request that lie within 1 KB each (at most `fuel`). -/
def cut1k : Nat → Nat → Nat → List (Nat × Nat)
  | 0, _, _ => []
  | k + 1, a, len =>
    if len = 0 then []
    else
      let n := min len (1024 - a % 1024)
      (a, n) :: cut1k k (a + n) (len - n)

/-- The write queue that takes a write at `a` holds 64 requests: the requester waits (R338). -/
def Dev.writeFull (d : Dev) (a : Nat) : Bool := decide (64 ≤ (d.pc (d.pcOf a)).writes.length)

/-- One request enters the queue of its pseudo-channel; behind the first 64 of a kind it is not yet accepted (R337, R338). -/
def Dev.hbm1 (d : Dev) (w : Bool) (who : Requester) (a n : Nat) : Dev :=
  let c := d.pcOf a
  let r : Req := ⟨d.mc.no, w, who, a, n⟩
  let d1 := { d with mc := { d.mc with no := d.mc.no + 1, lastReq := tset (fun _ => 0) d.mc.lastReq (c / 32) d.now } }
  d1.upPc c (fun P => if w then { P with writes := P.writes ++ [r] } else { P with reads := P.reads ++ [r] })

/-- A unit asks the Memory Controller for `len` bytes at `a`; in LOCAL mode no unit does. -/
def Dev.hbm (d : Dev) (w : Bool) (who : Requester) (a len : Nat) : Dev :=
  if d.localMode then d else (cut1k (len / 1024 + 2) a len).foldl (fun d x => d.hbm1 w who x.1 x.2) d

/-! ## The Word Buffer (R46, R103) -/

/-- The window pages of a program of `len` words that are held while the current word is `a`. -/
def windowPages (len a : Nat) : List Nat :=
  let p := a / 256
  (if a < 2048 then [8, 9, 10] else (List.range 8).map (fun k => p + k - 5)).filter (fun q => decide (8 ≤ q) && decide (256 * q < len))

/-- The Site Fabric asks for window page `q` of lane `l`'s program. -/
def Dev.askPage (d : Dev) (l q : Nat) : Dev :=
  let L := d.lane l
  (d.upLane l (fun L => { L with pages := L.pages ++ [q] })).hbm false (.prog l) (L.base + 2048 * q) (8 * min 256 (L.len - 256 * q))

/-- The window of lane `l` follows its current word: pages that leave it are gone, pages that enter it are asked for. -/
def Dev.fillWindow (d : Dev) (l : Nat) : Dev :=
  let L := d.lane l
  let want := windowPages L.len L.waddr
  if d.localMode || L.pages == want then d
  else (want.filter (fun q => !L.pages.contains q)).foldl (fun d q => d.askPage l q)
    (d.upLane l (fun L => { L with pages := L.pages.filter want.contains
                                   words := L.words.filter (fun r => decide (r.1 < 2048) || want.contains (r.1 / 256)) }))

/-- `bs` read at address `a` are delivered to the Word Buffer of lane `l`, unless their page has left the window meanwhile. -/
def Lane.deliver (L : Lane) (a : Nat) (bs : List Byte) : Lane :=
  let w := (a - L.base) / 8
  if L.base ≤ a ∧ (w < 2048 ∨ L.pages.contains (w / 256)) then
    { L with words := (w, (List.range (bs.length / 8)).map (fun k => ofBytes ((bs.drop (8 * k)).take 8))) :: L.words } else L

/-- Every word that preparation loads is there: the home region and pages 8 to 10 (R103). -/
def Dev.homeLoaded (d : Dev) (l : Nat) : Bool :=
  d.localMode || (List.range (min (d.lane l).len 2816)).all (fun a => ((d.lane l).wordAt a).isSome)

/-! ## What a sequencer reads of the Control Store (R71, R72, R97) -/

/-- Word `a` of a store (0 micro, 1 nano, 2 DSQ table, 3 CSQ table) as copy `k` delivers it. -/
def CtlStore.read (c : CtlStore) (k store a : Nat) : Nat :=
  match (tget (fun _ => []) c.differs k).find? (fun x => x.1 == 4 * a + store) with
  | some x => x.2
  | none => tget (fun _ => 0) (match store with | 0 => c.micro | 1 => c.nano | 2 => c.dsq | _ => c.csq) a

/-- Copy `k` holds the image word for word. -/
def CtlStore.same (c : CtlStore) (k : Nat) : Bool := (tget (fun _ => []) c.differs k).isEmpty

/-- The copy that lane `l` is read from: its lowest pin's (log entry 73). -/
def Dev.laneCopy (d : Dev) (l : Nat) : Nat := ((d.lanePin l).getD 0) / 8

/-- The loaded image is SSI 4.2, Colquel's own: the manual gives the effect of its routines, not their microwords (log entry 25). -/
def Dev.ssiImage (d : Dev) : Bool :=
  d.rd .CS_IMAGE_SLOT 0 == 0 && d.rd .CS_IMAGE_MAJOR 0 == 4 && d.rd .CS_IMAGE_MINOR 0 == 2

/-- The sequencers of lane `l` run SSI 4.2 unchanged: its words have the meanings of "Sequence programs and the instruction set". -/
def Dev.native (d : Dev) (l : Nat) : Bool := d.ssiImage && (d.lanePins l).all (fun p => d.cs.same (p / 8))

/-- The Compare Sequencer of pin `p` runs SSI 4.2 unchanged. -/
def Dev.nativeCsq (d : Dev) (p : Nat) : Bool := d.ssiImage && d.cs.same (p / 8)

end Sys2Proof.Machine
end

