-- ==== Sys2Proof/Machine/Streams.lean ====
section
/-!
DEFINITION. Pin streams (R142 to R162): stream entries and codings, the Vector Line Buffer, holds, repositioning, and the
drawing of a vector. A function that reads a buffer takes the memories; none writes them.
-/
namespace Sys2Proof.Machine

/-- The pin codes (R142). -/
def Code.X : Nat := 4
def Code.K : Nat := 7
def Code.T : Nat := 9
def Code.B : Nat := 15

/-- What drawing a vector gives. -/
inductive Draw where
  /-- A vector: code, side value, unit intervals, whether from a BURST entry. -/
  | ok (code side ui : Nat) (burst : Bool)
  /-- Its data is not in the buffer yet. -/
  | missing
  /-- A stream error (R149). -/
  | bad
  deriving DecidableEq, Repr

/-- A stream entry from its 16 bytes (R145). -/
def sentryOf (v : Nat) : SEntry :=
  { count := bits v 96 32, addr := bits v 65 31 * 64, typ := bits v 60 4, code := bits v 56 4,
    phint := bitAt v 55, side := bits v 52 2, hint := bits v 0 32 }

/-- The entries of pin `p`'s table (R145, R162). -/
def Dev.streamLen (d : Dev) (p : Nat) : Nat :=
  let n := d.rd .PIN_STREAM_LEN_ENTRIES p
  if d.localMode then min n 128 else n

/-- The HBM address of entry `e` of pin `p`'s table. -/
def Dev.entryAddr (d : Dev) (p e : Nat) : Nat := d.rd .PIN_STREAM_BASE_ADDR p * 16 + 16 * e

/-- Entry `e` of pin `p` as its Entry Store holds it (R154, R162). -/
def Dev.sentry (m : Mems) (d : Dev) (p e : Nat) : Option SEntry :=
  if d.localMode then some (sentryOf (ofBytes (readMem byte0 m.ents (p * 2048 + 16 * e) 16)))
  else tget (fun _ => none) (d.pin p).ents e

/-- The bytes of data of an entry, but for a RUN entry, whose length its records give (R145, R149). -/
def SEntry.size (e : SEntry) : Nat :=
  match e.typ with
  | 0 => (e.count + 1) / 2
  | 1 => e.count
  | 4 => e.count
  | _ => 0

/-- The byte of the entry's data that the vector at `pos` begins in. -/
def SEntry.byteAt (e : SEntry) (pos : Pos) : Nat :=
  match e.typ with
  | 0 => pos.off / 2
  | 2 => pos.recb
  | _ => pos.off

/-- The entry is in error as a whole: reserved TYPE, COUNT 0, data or the entry itself outside (R149). -/
def Dev.sentryBad (d : Dev) (p i : Nat) (e : SEntry) : Bool :=
  decide (4 < e.typ) || e.count == 0 ||
    (if d.localMode then e.typ != 3 && decide (131072 < e.addr + e.size)
     else !d.hbmOk (d.entryAddr p i) 16 || (e.typ != 3 && !d.hbmOk e.addr e.size))

/-- The slot that holds line `l` of entry `e`'s data, arrived. -/
def Pin.slotOf (P : Pin) (e l : Nat) : Option (Nat × Line) :=
  P.lines.find? (fun s => s.2.used && !s.2.hint && s.2.entry == e && s.2.idx == l)

/-- Byte `b` of entry `e`'s data from the buffer: none while its line has not arrived. -/
def Dev.bufByte (m : Mems) (d : Dev) (p i : Nat) (e : SEntry) (b : Nat) : Option Nat :=
  if d.localMode then some (tget byte0 m.vlb (p * 131072 + e.addr + b)).toNat
  else match (d.pin p).slotOf i (b / 64) with
    | some (slot, l) => if l.arrived then some (tget byte0 m.vlb (p * 131072 + slot * 64 + b % 64)).toNat else none
    | none => none

/-- The position after one vector of an entry; `run` is the length of the present run record (R146). -/
def SEntry.next (e : SEntry) (pos : Pos) (run : Nat) : Pos :=
  if e.count ≤ pos.off + 1 then { entry := pos.entry + 1 }
  else if e.typ = 2 then
    if run ≤ pos.sub + 1 then { pos with off := pos.off + 1, recb := pos.recb + 2, sub := 0 }
    else { pos with off := pos.off + 1, sub := pos.sub + 1 }
  else { pos with off := pos.off + 1 }

/-- The vector at the pin's position and the position after it. -/
def Dev.peek (m : Mems) (d : Dev) (p : Nat) : Draw × Pos :=
  let pos := (d.pin p).pos
  if d.streamLen p ≤ pos.entry then (.bad, pos)
  else match d.sentry m p pos.entry with
    | none => (.missing, pos)
    | some e =>
      if d.sentryBad p pos.entry e then (.bad, pos)
      else match e.typ with
        | 3 => (.ok e.code e.side 0 false, e.next pos 0)
        | 2 =>
          let a := e.addr + pos.recb
          if (if d.localMode then decide (131072 < a + 2) else !d.hbmOk a 2) then (.bad, pos)
          else match d.bufByte m p pos.entry e pos.recb, d.bufByte m p pos.entry e (pos.recb + 1) with
            | some lo, some hi =>
              let r := lo + 256 * hi
              (.ok (bits r 12 4) (bits r 10 2) 0 false, e.next pos (bits r 0 10 + 1))
            | _, _ => (.missing, pos)
        | t =>
          match d.bufByte m p pos.entry e (e.byteAt pos) with
          | none => (.missing, pos)
          | some b =>
            if t = 0 then (.ok (if pos.off % 2 = 0 then b % 16 else b / 16) 0 0 false, e.next pos 0)
            else if t = 1 then (.ok (b % 16) (bits b 4 2) 0 false, e.next pos 0)
            else (.ok Code.B e.side b true, e.next pos 0)

/-! ## Holds and lines (R153, R158 to R161) -/

/-- Some hold holds the line in slot `k`. -/
def Pin.covered (P : Pin) (k : Nat) : Bool := P.holds.any (fun h => h.lines.contains k)

/-- The lines held now (PIN_STREAM_STATUS.HELD); a line held by several holds counts once (R161). -/
def Pin.heldLines (P : Pin) : Nat := (P.lines.filter (fun s => P.covered s.1)).length

/-- The lines free for a refill (R153). -/
def Pin.freeLines (P : Pin) : Nat := 2048 - (P.lines.filter (fun s => s.2.used)).length

/-- Lines drawn to the end that no hold holds are freed. -/
def Pin.reap (P : Pin) : Pin :=
  { P with lines := P.lines.filter (fun s => !(s.2.drawn && !P.covered s.1)) }

/-- The most lines a pin may hold (PIN_STREAM_CTRL, values above 1,024 act as 1,024). -/
def Dev.holdMax (d : Dev) (p : Nat) : Nat := min (d.rd .PIN_STREAM_CTRL_HOLD_LINES p) 1024

/-- A hold that still takes the lines drawn from: a loop's or a pass's, neither pinned nor released (R158, R159). -/
def Hold.grows (h : Hold) : Bool := h.kind != .call && !h.pinned && !h.released

/-- The holds not yet pinned are released (R159). -/
def Pin.release (P : Pin) : Pin :=
  Pin.reap { P with holds := P.holds.map (fun h => if h.grows then { h with lines := [], released := true } else h) }

/-- The pin draws from the line in slot `k`: the growing holds take it, or are released where it would be one line more than
`mx` (R158, R159). -/
def Pin.growHolds (P : Pin) (mx k : Nat) : Pin :=
  if !P.holds.any (fun h => h.grows && !h.lines.contains k) then P
  else if P.covered k || decide (P.heldLines < mx) then
    { P with holds := P.holds.map (fun h => if h.grows && !h.lines.contains k then { h with lines := k :: h.lines } else h) }
  else P.release

/-- The pin has drawn the vector at its position and stands at `pos'`: the line it leaves is drawn, freed unless held. -/
def Dev.drewAt (m : Mems) (d : Dev) (p : Nat) (pos' : Pos) : Dev :=
  if d.localMode then d.upPin p (fun P => { P with pos := pos' })
  else
    let mx := d.holdMax p
    match d.sentry m p (d.pin p).pos.entry with
    | none => d.upPin p (fun P => { P with pos := pos' })
    | some e =>
      d.upPin p (fun P =>
        if e.typ = 3 then { P with pos := pos' }
        else
          let l := e.byteAt P.pos / 64
          let last : Bool := pos'.entry != P.pos.entry
          let left : Bool := last || e.byteAt pos' / 64 != l
          let P1 := match P.slotOf P.pos.entry l with
            | some s => P.growHolds mx s.1
            | none => P
          if left then
            Pin.reap { P1 with pos := pos', lines := P1.lines.map (fun s =>
              if s.2.used && !s.2.hint && s.2.entry == P.pos.entry && (s.2.idx == l || last && decide (l ≤ s.2.idx))
              then (s.1, { s.2 with drawn := true }) else s) }
          else { P1 with pos := pos' })

/-- The line number of a position in entry `e`. -/
def SEntry.lineOf (e : Option SEntry) (pos : Pos) : Nat :=
  match e with
  | some e => if e.typ = 3 then 0 else e.byteAt pos / 64
  | none => 0

/-- The vectors that the run records of `bytes` cover (R146). -/
def runVectors : List Byte → Nat
  | lo :: hi :: t => bits (lo.toNat + 256 * hi.toNat) 0 10 + 1 + runVectors t
  | _ => 0

/-- Where a walk along the stream through the lines in the buffer stands: the line it reaches first that is not there, the
vectors that the passed records of its RUN entry cover, the byte they count from, the slots passed. -/
structure Walk where
  entry : Nat
  line : Nat
  got : Nat := 0
  from_ : Nat := 0
  slots : List Nat := []

/-- The walk goes on for at most `k` lines and entries. -/
def Pin.walk (m : Mems) (P : Pin) (p : Nat) : Nat → Walk → Walk
  | 0, w => w
  | k + 1, w =>
    match tget (fun _ => none) P.ents w.entry with
    | none => w
    | some e =>
      if e.typ = 3 ∨ (e.typ = 2 ∧ e.count ≤ w.got) ∨ (e.typ ≠ 2 ∧ e.size ≤ 64 * w.line)
      then P.walk m p k { entry := w.entry + 1, line := 0, slots := w.slots }
      else match P.slotOf w.entry w.line with
        | none => w
        | some (s, l) =>
          let skip := w.from_ - 64 * w.line
          let more := if e.typ = 2 ∧ l.arrived then runVectors (readMem byte0 m.vlb (p * 131072 + s * 64 + skip) (64 - skip)) else 0
          P.walk m p k { w with line := w.line + 1, got := w.got + more, slots := w.slots ++ [s] }

/-- The walk from the pin's position. -/
def Dev.walkPin (m : Mems) (d : Dev) (p : Nat) : Walk :=
  let P := d.pin p
  P.walk m p 4096 { entry := P.pos.entry, line := SEntry.lineOf (d.sentry m p P.pos.entry) P.pos,
                    got := P.pos.off - P.pos.sub, from_ := P.pos.recb }

/-- A LOOP or a MATCH begins a hold at the pin's position, of the line that contains the mark (R158, R159). -/
def Dev.addHold (m : Mems) (d : Dev) (p : Nat) (k : HoldKind) (id : Nat) : Dev :=
  let mx := d.holdMax p
  let l := SEntry.lineOf (d.sentry m p (d.pin p).pos.entry) (d.pin p).pos
  d.upPin p (fun P =>
    let new := fun (ls : List Nat) => { P with holds := ⟨k, id, ls, false, false⟩ :: P.holds }
    match P.slotOf P.pos.entry l with
    | some (s, ln) =>
      if !ln.arrived then new []
      else if P.covered s || decide (P.heldLines < mx) then new [s]
      else (new []).release
    | none => new [])

/-- A CALL's hold of the lines already fetched from the position on; none where they would exceed HOLD_LINES (R160). -/
def Dev.addCallHold (m : Mems) (d : Dev) (p id : Nat) : Dev :=
  let P := d.pin p
  let ls := (Dev.walkPin m d p).slots.filter (fun k => (tget (fun _ => ({} : Line)) P.lines k).arrived)
  let P' := { P with holds := ⟨.call, id, ls, false, false⟩ :: P.holds }
  if P'.heldLines ≤ d.holdMax p then d.upPin p (fun _ => P')
  else d.upPin p (fun Q => { Q with holds := ⟨.call, id, [], false, true⟩ :: Q.holds })

/-- The holds of kind `k` and number `id` end (R161). -/
def Dev.endHold (d : Dev) (p : Nat) (k : HoldKind) (id : Nat) : Dev :=
  d.upPin p (fun P => Pin.reap { P with holds := P.holds.filter (fun h => !(h.kind == k && h.id == id)) })

/-- A hold not released becomes pinned at the first return (R158). -/
def Dev.pinHold (d : Dev) (p : Nat) (k : HoldKind) (id : Nat) : Dev :=
  d.upPin p (fun P => { P with holds := P.holds.map (fun h =>
    if h.kind = k ∧ h.id = id ∧ !h.released then { h with pinned := true } else h) })

/-! ## Entries and page hints (R154, R157) -/

/-- The free slots of a buffer, lowest first. -/
def Pin.freeSlots (P : Pin) : List Nat :=
  (List.range 2048).filter (fun s => !(tget (fun _ => ({} : Line)) P.lines s).used)

/-- `n` lines of entry `e`'s data from line `l` take slots and are asked for. -/
def Pin.request (P : Pin) (e l n : Nat) (hint : Bool) : Pin :=
  let slots := P.freeSlots.take n
  let lines := (slots.zip (List.range slots.length)).foldl (fun t s =>
    tset (fun _ => ({} : Line)) t s.1
      { used := true, entry := e, idx := l + s.2, arrived := false, drawn := false, hint := hint }) P.lines
  { P with lines := lines, refills := P.refills ++ [⟨e, l, slots.length, hint⟩] }

/-- The entry in which a hold not released begins: its mark's, a CALL's saved position's. -/
def Pin.holdFrom (P : Pin) (h : Hold) : Option Nat :=
  if h.released then none
  else match h.kind with
    | .call => (P.stk.reverse[h.id]?).join.map (·.entry)
    | _ => some (tget (fun _ => {}) P.marks h.id).entry

/-- The first entry that the Entry Store keeps: a body that is held keeps its entries, as far as the position's own entry has room beside them
(R154, R158; log entry 89). -/
def Pin.entryBase (P : Pin) : Nat :=
  ((P.holds.filterMap P.holdFrom).filter (fun k => decide (P.pos.entry < k + 127))).foldl min P.pos.entry

/-- The Entry Store with entry `i`: 128 entries, those that a held body and the position need first; of those behind them the farthest give way
(R154). -/
def Pin.putEntry (P : Pin) (i : Nat) (e : SEntry) : Pin :=
  let t := tset (fun _ => none) P.ents i (some e)
  let front := t.filter (fun x => decide (P.entryBase ≤ x.1) && decide (x.1 < P.entryBase + 128))
  let back := t.filter (fun x => decide (x.1 < P.entryBase))
  { P with ents := back.drop (back.length - (128 - front.length)) ++ front }

/-- No page is hinted. -/
def Pin.dropHint (P : Pin) : Pin :=
  { P with hintOf := none, hintEnt := none, hintLine := 0, hintEnd := 0, lines := P.lines.filter (fun s => !s.2.hint)
           refills := P.refills.filter (fun r => !r.hint) }

/-- Entry `i` is copied into the Entry Store; a page hint in it begins the fetch of the first 64 lines of the hinted entry, which is read for
it, of a RUN entry no more than COUNT records take (R157); a hint beyond the stream or to an entry in error fetches nothing (log entry 80). -/
def Dev.copyEntry (m : Mems) (d : Dev) (p i : Nat) : Dev :=
  let ld := fun k => sentryOf (ofBytes (readMem byte0 m.hbm (d.entryAddr p k) 16))
  let e := ld i
  let h := ld e.hint
  let n := if h.typ = 3 ∨ d.sentryBad p e.hint h then 0 else min 64 (((if h.typ = 2 then 2 * h.count else h.size) + 63) / 64)
  let hints : Bool := e.phint && decide (e.hint < d.streamLen p) && !d.sentryBad p i e
  let d1 := (d.upPin p (fun P =>
    let P1 := P.putEntry i e
    if hints then { P1.dropHint with hintOf := some e.hint, hintEnt := some h, hintEnd := n } else P1)).hbm false (.entries p) (d.entryAddr p i) 16
  if hints then d1.hbm false (.entries p) (d.entryAddr p e.hint) 16 else d1

/-! ## Repositioning (R151, R157, R159) -/

/-- The hinted page joins the buffer at a move to the start of its entry, and is dropped at any other (R157). -/
def Pin.useHint (P : Pin) (pos : Pos) : Pin :=
  if P.hintOf == some pos.entry && pos.off == 0 then
    { P with
      hintOf := none, hintEnt := none, hintLine := 0, hintEnd := 0
      lines := (P.lines.filter (fun s => !(s.2.hint && (P.slotOf s.2.entry s.2.idx).isSome))).map (fun s =>
        (s.1, { s.2 with hint := false }))
      refills := P.refills.map (fun r => { r with hint := false }) }
  else P.dropHint

/-- The stream of pin `p` is moved to `pos` (R151): a return whose hold is unreleased keeps the buffer (R158); any other
move drops what is not held, and the refill goes on from the first line that is not in the buffer (R157). `back` names the
hold of a return; the lines that a return without a hold fetches count as fetched again. The refetch of an unpinned body begins here, as
ENDLOOP executes its return, in every iteration (R159; log entry 81). A return whose hold stands causes no fetch, of the entry neither (R158). -/
def Dev.repos (m : Mems) (d : Dev) (p : Nat) (pos : Pos) (back : Option (HoldKind × Nat)) : Dev :=
  if d.localMode then d.upPin p (fun P => { P with pos := pos })
  else
    let holds : Bool := match back with
      | some k => (d.pin p).holds.any (fun h => h.kind == k.1 && h.id == k.2 && !h.released)
      | none => false
    let keep : Bool := holds && (match back with | some k => k.1 != .call | none => false)
    let d1 := d.upPin p (fun P =>
      let P1 := if keep then P
        else { P with lines := P.lines.filter (fun s => s.2.hint || P.covered s.1), refills := P.refills.filter (·.hint) }
      { P1.useHint pos with pos := pos, again := if back.isSome && !holds then (P.fetchE, P.fetchL) else (0, 0) })
    let there : Bool := keep && (tget (fun _ => none) (d1.pin p).ents pos.entry).isSome
    let d2 := if pos.entry < d1.streamLen p ∧ !there then Dev.copyEntry m d1 p pos.entry else d1
    let w := Dev.walkPin m d2 p
    d2.upPin p (fun P =>
      { P with
        lines := P.lines.map (fun s => if w.slots.contains s.1 then (s.1, { s.2 with drawn := false }) else s)
        fetchE := w.entry
        fetchL := w.line
        runGot := w.got
        runFrom := w.from_ })

/-! ## Refill (R154 to R157) -/

/-- The lines of an entry's data that are still to be fetched from line `l` on; a RUN entry asks for no more than records of one vector each would
take for the vectors that are left, the first of them at byte `from_`. -/
def SEntry.linesFrom (e : SEntry) (l got from_ : Nat) : Nat :=
  match e.typ with
  | 3 => 0
  | 2 => if e.count ≤ got then 0 else (from_ - 64 * l + 2 * (e.count - got) + 63) / 64
  | _ => (e.size + 63) / 64 - l

/-- The Entry Store holds at most 128 entries, of a held body and from the position on (R154). -/
def Dev.entryRoom (d : Dev) (p : Nat) : Bool := decide ((d.pin p).fetchE < (d.pin p).entryBase + 128)

/-- The refill goes on from the first line that is not in the buffer. -/
def Dev.toWalk (m : Mems) (d : Dev) (p : Nat) : Dev :=
  let w := Dev.walkPin m d p
  d.upPin p (fun P => { P with fetchE := w.entry, fetchL := w.line, runGot := w.got, runFrom := w.from_ })

/-- The next lines of the hinted page are asked for, 16 at a time. -/
def Dev.refillHint (d : Dev) (p : Nat) (h : SEntry) : Dev :=
  let P := d.pin p
  let n := min 16 (P.hintEnd - P.hintLine)
  (d.upPin p (fun P => { P.request (P.hintOf.getD 0) P.hintLine n true with hintLine := P.hintLine + n })).hbm false (.stream p)
    (h.addr + 64 * P.hintLine) (64 * n)

/-- Lines of a hinted page are still to be asked for. -/
def Pin.hints (P : Pin) : Option SEntry := if P.hintLine < P.hintEnd then P.hintEnt else none

/-- The refill of pin `p` goes on to its next request: entries reached are copied, entries without data passed over, and at
most 16 lines asked for, where 16 are free. -/
def Dev.refillPin (m : Mems) (p : Nat) : Nat → Dev → Dev
  | 0, d => d
  | k + 1, d =>
    let P := d.pin p
    match P.hints with
    | some h => d.refillHint p h
    | none =>
    if d.streamLen p ≤ P.fetchE || !d.entryRoom p then d
    else
      match tget (fun _ => none) P.ents P.fetchE with
      | none => Dev.refillPin m p k (Dev.toWalk m (Dev.copyEntry m d p P.fetchE) p)
      | some e =>
        let d1 := d
        if d1.sentryBad p P.fetchE e then d1
        else
          let n := min 16 (e.linesFrom P.fetchL P.runGot P.runFrom)
          if n = 0 then
            Dev.refillPin m p k (d1.upPin p (fun Q =>
              { Q with fetchE := Q.fetchE + 1, fetchL := 0, runGot := 0, runFrom := 0 }))
          else if e.typ = 2 && P.refills.any (fun r => r.entry == P.fetchE && !r.hint) then d1
          else
            let d2 := (d1.upPin p (fun Q => { Q.request Q.fetchE Q.fetchL n false with fetchL := Q.fetchL + n })).hbm false (.stream p) (e.addr + 64 * P.fetchL) (64 * n)
            if P.fetchE < P.again.1 || (P.fetchE = P.again.1 && P.fetchL < P.again.2)
            then (d2.count .PIN_STREAM_COUNT_REFETCH p n).tally 0x31 p n else d2

/-- A pin has something to fetch and 16 free lines (R156). -/
def Dev.mayRefill (d : Dev) (p : Nat) : Bool :=
  let P := d.pin p
  !d.localMode && d.pinRunning p && d.siteState ((d.siteOf p).getD 0) != SiteState.DRAINING && decide (16 ≤ P.freeLines) &&
    (P.hints.isSome || decide (P.fetchE < d.streamLen p) && d.entryRoom p &&
    !(match tget (fun _ => none) P.ents P.fetchE with
      | some e => d.sentryBad p P.fetchE e || (e.typ == 2 && P.refills.any (fun r => r.entry == P.fetchE && !r.hint))
      | none => false))

/-- How many vectors lie between the pin's position and its refill (R156); a RUN entry counts its fetched records. -/
def Dev.ahead (d : Dev) (p : Nat) : Nat :=
  let P := d.pin p
  let full := ((List.range 128).map (· + P.pos.entry)).filter (· < P.fetchE)
  let cnt := fun i => match tget (fun _ => none) P.ents i with | some e => e.count | none => 0
  let part := match tget (fun _ => none) P.ents P.fetchE with
    | some e => match e.typ with
      | 0 => min e.count (P.fetchL * 128)
      | 2 => min e.count P.runGot
      | 3 => 0
      | _ => min e.count (P.fetchL * 64)
    | none => 0
  (full.map cnt).sum + part - P.pos.off

/-- The pin's stream is prepared (R155): fetched to its end or no room, and every request answered. A full Entry Store leaves no room either
(log entry 78). -/
def Dev.pinPrepared (d : Dev) (p : Nat) : Bool :=
  d.localMode || ((d.pin p).refills.isEmpty && !d.mayRefill p)

/-- The lines of the oldest request arrive: `a` is the entry's data address; the buffer takes 64 bytes for each. -/
def arriveLines (m : Mems) (P : Pin) (p a : Nat) (r : Refill) : Nat → Mem → Mem
  | 0, v => v
  | k + 1, v =>
    let l := r.line + k
    let v' := arriveLines m P p a r k v
    match P.lines.find? (fun s => s.2.used && s.2.entry == r.entry && s.2.idx == l && s.2.hint == r.hint) with
    | some s => writeMem byte0 v' (p * 131072 + s.1 * 64) (readMem byte0 m.hbm (a + 64 * l) 64)
    | none => v'

/-- The pin after its oldest request is answered: the lines have arrived, a RUN entry's records are counted. -/
def Dev.arrived (m : Mems) (d : Dev) (p : Nat) (r : Refill) (a typ : Nat) : Dev :=
  d.upPin p (fun P =>
    let from_ := max P.runFrom (64 * r.line)
    let got := if typ = 2 && !r.hint && r.entry == P.fetchE
      then runVectors (readMem byte0 m.hbm (a + from_) (64 * (r.line + r.n) - from_)) else 0
    { P with
      refills := P.refills.drop 1
      runGot := P.runGot + got
      lines := P.lines.map (fun s =>
        if s.2.used && s.2.entry == r.entry && s.2.hint == r.hint && decide (r.line ≤ s.2.idx) && decide (s.2.idx < r.line + r.n)
        then (s.1, { s.2 with arrived := true }) else s) })

end Sys2Proof.Machine
end

