-- ==== Sys2Proof/Machine/Formatter.lean ====
section
/-!
DEFINITION. The Timing Formatter (R169 to R190): timing sets and their checks, the groups that move at seams, trims, the
transitions a vector asks for, the events placed on DD and DE, and idle codes.
-/
namespace Sys2Proof.Machine

/-! ## Timing sets -/

/-- The key of timing set `k` of pin `p` in the PIN_TS fields. -/
def tsKey (p k : Nat) : Nat := p * 32 + k

/-- PERIOD of the active set `k` of pin `p`. -/
def Dev.period (d : Dev) (p k : Nat) : Nat := d.act .PIN_TS_PERIOD_PERIOD (tsKey p k)

/-- The edges within PERIOD − 1,800 of one another (R173). -/
def within (a b per : Nat) : Bool := decide (a + 1800 ≤ b + per) && decide (b + 1800 ≤ a + per)

/-- The drive rule of a FORMAT (R176): what order 4 checks. -/
def formatRule (fmt per don ddat dret : Nat) : Bool :=
  match fmt with
  | 1 | 2 | 5 => decide (ddat + 1800 ≤ dret) && decide (dret + 1800 ≤ ddat + per)
  | 3 => decide (don + 1800 ≤ ddat) && decide (ddat + 1800 ≤ dret) && decide (dret + 1800 ≤ don + per)
  | 4 => within ddat dret per
  | _ => true

/-- The first check of R173 that the values of a set fail, as REASON; 0 where all hold. -/
def tsReason (per fmt cm burst don ddat dret doff sopen sclose : Nat) : Nat :=
  let top := per + 8191
  let ui := per / 4
  if fmt = 7 || cm = 3 then 1
  else if per < 8192 then 2
  else if top < don || top < ddat || top < dret || top < doff || top < sopen || top < sclose then 3
  else if !formatRule fmt per don ddat dret || !within don doff per then 4
  else if cm = 2 && !(decide (sopen ≤ sclose) && decide (sclose + 1800 ≤ sopen + per)) then 5
  else if burst = 1 && (32768 < per || per % 8 ≠ 0 || top < ddat + 3 * ui || (cm ≠ 0 && top < sopen + 3 * ui)) then 6
  else 0

/-- The fields of a timing set, one commit group (R171). -/
def tsFields : List Fld :=
  [.PIN_TS_PERIOD_PERIOD, .PIN_TS_MODE_BURST, .PIN_TS_MODE_CMODE, .PIN_TS_MODE_FORMAT, .PIN_TS_DON_T, .PIN_TS_DDAT_T,
   .PIN_TS_DRET_T, .PIN_TS_DOFF_T, .PIN_TS_SOPEN_T, .PIN_TS_SCLOSE_T]

/-- REASON of the shadow of set `k` of pin `p`. -/
def Dev.tsCheck (d : Dev) (p k : Nat) : Nat :=
  let r := fun f => d.rd f (tsKey p k)
  tsReason (r .PIN_TS_PERIOD_PERIOD) (r .PIN_TS_MODE_FORMAT) (r .PIN_TS_MODE_CMODE) (r .PIN_TS_MODE_BURST)
    (r .PIN_TS_DON_T) (r .PIN_TS_DDAT_T) (r .PIN_TS_DRET_T) (r .PIN_TS_DOFF_T) (r .PIN_TS_SOPEN_T) (r .PIN_TS_SCLOSE_T)

/-- Whether group TSk of pin `p` is pending (R171). -/
def Dev.tsPending (d : Dev) (p k : Nat) : Bool := bitAt (d.rd .PIN_TS_PENDING_SET p) k

/-- A rejection is recorded (R173): the first keeps its set and reason, a later one sets MORE. -/
def Dev.tsRejected (d : Dev) (p k reason : Nat) : Dev :=
  let d := d.raise 0x200 p
  if d.on .PIN_TS_REJECT_VALID p then d.set1 .PIN_TS_REJECT_MORE p
  else (((d.set1 .PIN_TS_REJECT_VALID p).clr .PIN_TS_REJECT_MORE p).wr .PIN_TS_REJECT_REASON p reason).wr .PIN_TS_REJECT_SET p k

/-- Group TSk of pin `p` moves, if it is pending and its shadow meets the checks (R172, R173). -/
def Dev.moveSet (d : Dev) (p k : Nat) : Dev :=
  if d.tsPending p k then
    let d1 := d.wr .PIN_TS_PENDING_SET p (setBit (d.rd .PIN_TS_PENDING_SET p) k false)
    let r := d.tsCheck p k
    if r = 0 then tsFields.foldl (fun d f => d.move f (tsKey p k)) d1 else d1.tsRejected p k r
  else d

/-- The deskew fields, group DESKEW (R171). -/
def deskewFields : List Fld :=
  [.PIN_TF_DESKEW0_DDAT, .PIN_TF_DESKEW0_DON, .PIN_TF_DESKEW1_DOFF, .PIN_TF_DESKEW1_DRET, .PIN_TF_DESKEW2_SCLOSE,
   .PIN_TF_DESKEW2_SOPEN]

/-- Group DESKEW of pin `p` moves if it is pending. -/
def Dev.moveDeskew (d : Dev) (p : Nat) : Dev :=
  if d.on .PIN_TF_STATUS_DESKEW_PENDING p then
    deskewFields.foldl (fun d f => d.move f p) (d.clr .PIN_TF_STATUS_DESKEW_PENDING p)
  else d

/-- The sets that TSET_LOADs under way write on pin `p`: their groups do not move meanwhile (R174). -/
def Dev.loadingSets (d : Dev) (p : Nat) : Nat → Bool := fun k =>
  d.tracker.any (fun x => descOp x.desc == 0x24 && x.started && !x.done &&
    decide (descTarget x.desc ≤ p) && decide (p < descTarget x.desc + descField x.desc 20 0 16) &&
    bitAt (descField x.desc 16 0 32) k)

/-- The pending groups of pin `p` move together (R172). -/
def Dev.movePending (d : Dev) (p : Nat) : Dev :=
  (((List.range 32).filter (fun k => !d.loadingSets p k)).foldl (fun d k => d.moveSet p k) d).moveDeskew p

/-- Pin `p` takes its pending trims (R188): its converters carry the band that Strop holds for it. -/
def Dev.takeTrims (d : Dev) (p : Nat) : Dev :=
  match (d.pin p).trimBand with
  | some b =>
    ((d.wr .PIN_TF_STATUS_BAND p b).clr .PIN_TF_STATUS_TRIM_PENDING p).upPin p
      (fun P => { P with trimBand := none, trimOwed := false, trimAt := some d.now, trims := P.trimNew })
  | none => d

/-- `f`, a seam's transfer, acts on the shadows as they were before the staged writes of this engine cycle; those writes then stand in the
shadows and their groups await the following seam (R19). The COND group of site `n` is pending beyond the transfer if it was written
in this cycle. -/
def Dev.withSeam (d : Dev) (n : Nat) (f : Dev → Dev) : Dev :=
  let st := d.cycNow.staged
  if st = [] then f d
  else
    let cond : Bool := st.any (fun x => (x.1 == .SITE_CSRC_SRC && x.2.1 / 32 == n) || (x.1 == .SITE_SPAN_CMASK_CMASK && x.2.1 == n))
    let d1 := st.foldl (fun e x => e.wr x.1 x.2.1 x.2.2) d
    let d2 := f (if cond then d1.upSite n (fun S => { S with condPend := S.condWas }) else d1)
    let d3 := st.foldl (fun e x =>
      if x.1 = .PIN_TS_PENDING_SET then e.wr x.1 x.2.1 ((e.rd x.1 x.2.1 ||| (d.rd x.1 x.2.1 &&& ((2 ^ 32 - 1) ^^^ x.2.2))) |||
        ((List.range 32).filter (fun k => st.any (fun y => tsFields.contains y.1 && y.2.1 == tsKey x.2.1 k))).foldl (fun m k => setBit m k true) 0)
      else e.wr x.1 x.2.1 (d.rd x.1 x.2.1)) d2
    if cond then d3.upSite n (fun S => { S with condPend := true }) else d3

/-- The COND group of site `n` moves (R19, R188). -/
def Dev.moveCond (d : Dev) (n : Nat) : Dev :=
  let d1 := (List.range 32).foldl (fun d c => d.move .SITE_CSRC_SRC (n * 32 + c)) d
  (d1.move .SITE_SPAN_CMASK_CMASK n).upSite n (fun S => { S with condPend := false })

/-- SEAMP of site `n` (R187): something awaits a seam. -/
def Dev.seamp (d : Dev) (n : Nat) : Bool :=
  (d.site n).condPend || (d.members n).any (fun p =>
    d.rd .PIN_TS_PENDING_SET p != 0 || d.on .PIN_TF_STATUS_DESKEW_PENDING p || d.on .PIN_TF_STATUS_TRIM_PENDING p)

/-! ## Transitions and events -/

/-- The pin's deskew for an edge (R186). -/
def Dev.deskew (d : Dev) (f : Fld) (p : Nat) : Int := clampInt (-8192) 8191 (sgn 16 (d.act f p))

/-- An edge of the active set `k` of pin `p`, with its deskew (R170). -/
def Dev.edge (d : Dev) (f sk : Fld) (p k : Nat) : Int := (d.act f (tsKey p k) : Int) + d.deskew sk p

/-- A coarse count and a code for a tick count (R185). -/
def interp (t : Int) : Int × Nat :=
  let c := ((t % 8192).toNat + 1) / 2
  if c = 4096 then (t / 8192 + 1, 0) else (t / 8192, c)

/-- The tick at which an event placed so falls. -/
def Edge.tick (e : Edge) : Int := e.coarse * 8192 + 2 * e.code

/-- A transition put in its place in time order, behind earlier vectors' at the same tick (R179); of one vector's at the same tick the one
asked for last stands (log entry 82). -/
def insTrans (x : Trans) : List Trans → List Trans
  | [] => [x]
  | y :: t => if y.at_ < x.at_ ∨ (y.at_ = x.at_ ∧ y.vec ≤ x.vec) then y :: insTrans x t else x :: y :: t

/-- The pin with transition `x` asked for. -/
def Pin.ask (P : Pin) (at_ : Int) (de level : Bool) : Pin := { P with trans := insTrans (Trans.mk at_ P.vecNo de level) P.trans }

/-- What settling transitions changes: the pin, and how many events were moved. -/
def Pin.settle1 (P : Pin) (x : Trans) (rest : List Trans) (dead : Bool) : Pin × Nat :=
  if rest.any (fun y => y.at_ == x.at_ && y.de == x.de) then (P, 0)
  else if (if x.de then P.cur.2 else P.cur.1) = x.level then (P, 0)
  else if dead then (P, 0)
  else
    let last := if x.de then P.lastDE else P.lastDD
    let t := match last with
      | some l => max x.at_ (l + 1800)
      | none => x.at_
    let i := interp t
    let P1 : Pin := { P with placed := P.placed ++ [Edge.mk i.1 i.2 x.de x.level] }
    let P2 : Pin := if x.de then { P1 with cur := (P.cur.1, x.level), lastDE := some t }
      else { P1 with cur := (x.level, P.cur.2), lastDD := some t }
    (P2, if t = x.at_ then 0 else 1)

/-- The transitions before `hz` are settled in time order (R179, R180); the rest may still meet earlier ones. -/
def settleTo (hz : Int) (dead : Bool) : List Trans → Pin → Pin × Nat
  | [], P => ({ P with trans := [] }, 0)
  | x :: rest, P =>
    if x.at_ < hz then
      let r := P.settle1 x rest dead
      let r2 := settleTo hz dead rest r.1
      (r2.1, r.2 + r2.2)
    else ({ P with trans := x :: rest }, 0)

/-- The placed events up to `t` have happened on the lines. -/
def Pin.happen (P : Pin) (t : Int) : Pin :=
  let now := P.placed.filter (fun e => decide (e.tick ≤ t))
  { P with
    dd := now.foldl (fun l e => if e.de then l else e.level) P.dd
    de := now.foldl (fun l e => if e.de then e.level else l) P.de
    placed := P.placed.filter (fun e => !decide (e.tick ≤ t)) }

/-- Moved events are counted and noted, the source once per burst and pin (R180). -/
def Dev.spacing (d : Dev) (p n : Nat) : Dev :=
  if n = 0 then d
  else
    let d1 := (d.count .PIN_TF_STATUS_SPACING_COUNT p n).set1 .PIN_TF_STATUS_SPACING p
    if bitAt (d.pin p).once 1 then d1
    else (d1.upPin p (fun P => { P with once := setBit P.once 1 true })).raise 0x201 p

/-- Pin `p` settles what it asked for before `hz`; a pin whose quadrant has lost its edge PLL or whose
octet is out of service places nothing (R39, R192). -/
def Dev.settle (d : Dev) (p : Nat) (hz : Int) : Dev :=
  let P := d.pin p
  let r := settleTo hz (P.pllLost || !d.octOk p) P.trans P
  (d.upPin p (fun _ => r.1.happen d.bed)).spacing p r.2

/-! ## The drive of a vector -/

/-- The code a vector acts as, and whether it is one that R144 turns into X. -/
def actsAs (code : Nat) (bOk : Bool) (level : Option Bool) : Nat × Bool :=
  if code = 13 ∨ code = 14 then (Code.X, true)
  else if code = Code.B ∧ !bOk then (Code.X, true)
  else if (code = Code.K ∨ code = Code.T) ∧ level.isNone then (Code.X, false)
  else (code, false)

/-- The DD transitions of a driving vector of value `D` in a FORMAT (R176): edge (0 DON, 1 DDAT, 2 DRET) and level. -/
def ddEvents (fmt : Nat) (D : Bool) : List (Nat × Bool) :=
  match fmt with
  | 0 => [(1, D)]
  | 1 => if D then [(1, true), (2, false)] else [(1, false)]
  | 2 => if D then [(1, true)] else [(1, false), (2, true)]
  | 3 => [(0, !D), (1, D), (2, !D)]
  | 4 => if D then [(1, true)] else [(2, false)]
  | _ => []

/-- A B vector's transitions for unit intervals `k` to 3 (R183). -/
def askBurst (t0 : Int) (ui : Nat) (v : Nat) : Nat → Pin → Pin
  | 0, P => P
  | n + 1, P =>
    let k := 3 - n
    let u := bits v (2 * k) 2
    let t := t0 + (k * ui : Nat)
    let P1 := if u < 2 then (P.ask t false (u == 1)).ask t true true else P.ask t true false
    askBurst t0 ui v n P1

/-- The drive level a B vector leaves: its last D0 or D1 (R183). -/
def burstLevel (v : Nat) (lvl : Option Bool) : Option Bool :=
  (List.range 4).foldl (fun l k => if bits v (2 * k) 2 < 2 then some (bits v (2 * k) 2 == 1) else l) lvl

/-- Pin `p` formats vector `v` that begins at `S` (R175 to R178, R183, R184). A K vector makes no event, whatever the DE state (log entry 104).
`rep`: a stretch repetition, which changes no drive level. -/
def Dev.format (d : Dev) (p : Nat) (v : Vec) (S : Nat) (rep : Bool) : Dev :=
  let k := v.tset
  let P := d.pin p
  let burstOn := d.act .PIN_TS_MODE_BURST (tsKey p k) == 1
  let a := actsAs v.code (v.burst && burstOn) P.level
  let fmt := d.act .PIN_TS_MODE_FORMAT (tsKey p k)
  let at_ := fun (x : Int) => (S : Int) + x
  let don := at_ (d.edge .PIN_TS_DON_T .PIN_TF_DESKEW0_DON p k)
  let ddat := at_ (d.edge .PIN_TS_DDAT_T .PIN_TF_DESKEW0_DDAT p k)
  let dret := at_ (d.edge .PIN_TS_DRET_T .PIN_TF_DESKEW1_DRET p k)
  let doff := at_ (d.edge .PIN_TS_DOFF_T .PIN_TF_DESKEW1_DOFF p k)
  let when_ := fun (i : Nat) => if i = 0 then don else if i = 1 then ddat else dret
  let lvl := P.level.getD false
  let drv := a.1 == 0 || a.1 == 1 || a.1 == Code.T || (a.1 == Code.K && P.prevDrv)
  let D := if a.1 = 0 then false else if a.1 = 1 then true else if a.1 = Code.T then !lvl else lvl
  let P1 : Pin :=
    if a.1 = Code.B then
      let Q := askBurst ddat (d.period p k / 4) v.ui 4 P
      { Q with level := if rep then P.level else burstLevel v.ui P.level, prevDrv := decide (bits v.ui 6 2 < 2) }
    else if fmt = 5 then
      let Q := ((P.ask don true true).ask ddat false true).ask dret false false
      { Q with level := if !rep && (a.1 == 0 || a.1 == 1 || a.1 == Code.T) then some D else P.level, prevDrv := drv }
    else if a.1 = Code.K ∧ (fmt = 0 ∨ fmt = 4 ∨ fmt = 6) then P
    else if fmt = 6 then { P.ask doff true false with prevDrv := drv }
    else if drv then
      let Q := (ddEvents fmt D).foldl (fun Q e => Q.ask (when_ e.1) false e.2) (P.ask don true true)
      { Q with level := if rep then P.level else some D, prevDrv := true }
    else { P.ask doff true false with prevDrv := false }
  let d1 := d.upPin p (fun _ => { P1 with vecNo := P1.vecNo + 1, prev := some v })
  if a.2 then
    let d2 := d1.set1 .PIN_STREAM_STATUS_BADCODE p
    if bitAt P.once 0 then d2 else (d2.upPin p (fun Q => { Q with once := setBit Q.once 0 true })).raise 0x1D8 p
  else d1

/-- Pin `p` holds DE deasserted (R39, R192, R457): what it had asked for and has not happened by now is gone. -/
def Dev.deOff (d : Dev) (p : Nat) : Dev :=
  d.upPin p (fun P0 => let P := P0.happen d.bed
    { P with trans := [], placed := [], de := false, cur := (P.dd, false) })

/-- A part in this twin role holds DE deasserted on every pin (R395). -/
def heldRole (r : Nat) : Bool := r == 1 || r == 2 || r == 4 || r == 6

/-- DE is held deasserted on every pin: safe state, or the twin role (R395, R457). -/
def Dev.pinsHeld (d : Dev) : Bool := d.on .FC_STATE_SAFE 0 || heldRole d.role

/-- The idle code that pin `p` drives: a stored value that names no drive acts as X (PIN_SEQ_CTRL). -/
def Dev.idleCode (d : Dev) (p : Nat) : Nat := let c := d.rd .PIN_SEQ_CTRL_IDLE_CODE p; if c < 2 then c else Code.X

/-- Pin `p` asks for its idle code at tick `t` (R517); a pin that is held deasserted, or whose domain is off, asks for nothing. -/
def Dev.askIdle (d : Dev) (p : Nat) (t : Int) : Dev :=
  let c := d.idleCode p
  if d.pinsHeld || (d.pin p).domOff then d
  else d.upPin p (fun P =>
    if c = 0 then (P.ask t true true).ask t false false
    else if c = 1 then (P.ask t true true).ask t false true
    else P.ask t true false)

/-- Pin `p` drives its idle code at tick `t` (R190, R517). -/
def Dev.idleAt (d : Dev) (p : Nat) (t : Int) : Dev := (d.askIdle p t).settle p (t + 1)

/-- Pin `p` drives its idle code from the next engine cycle on (R517). -/
def Dev.driveIdle (d : Dev) (p : Nat) : Dev := d.idleAt p (d.bed + cycleTicks)

/-- The QPIN domain of pin `p` goes off: DD and DE are high-impedance and what the pin had asked for is gone; or on: the pin drives its idle code
(R31, R492, R517). -/
def Dev.pinDomain (d : Dev) (p : Nat) (off : Bool) : Dev :=
  if off == (d.pin p).domOff then d
  else if off then (d.deOff p).upPin p (fun P => { P with domOff := true, ents := [], lines := [] })
  else (d.upPin p (fun P => { P with domOff := false })).driveIdle p

/-- The state of a pin at the start of a burst: the stream at entry 0, the buffer empty, the drive level by the idle code
(R143, R145). -/
def Dev.startPin (d : Dev) (p : Nat) : Dev :=
  let c := d.idleCode p
  d.upPin p (fun P =>
    { P with
      fifo := [], pos := {}, fetchE := 0, fetchL := 0, lines := [], holds := [], marks := [], stk := [], ents := []
      hintOf := none, hintEnt := none, hintLine := 0, hintEnd := 0, lastVec := none, refills := [], runGot := 0, runFrom := 0, again := (0, 0), rep := none, prev := none
      prevDrv := decide (c < 2)
      level := if c = 0 then some false else if c = 1 then some true else none
      vcount := 0, once := 0, idleAt := none, held := false, tNext := 0 })

end Sys2Proof.Machine
end

