-- ==== Sys2Proof/Machine/Flags.lean ====
section
/-!
DEFINITION. Site conditions (R56, R57, R61), signals between the units, and the sequencer status bits (R140).
-/
namespace Sys2Proof.Machine

/-- The engine cycle, in Bedrock time, at or after tick `t`. -/
def cycleAfter (t : Nat) : Nat := (t + cycleTicks - 1) / cycleTicks

/-! ## Event pins that drive (R498) -/

/-- EV pin `e` drives `lvl` from Bedrock time `t` on; later changes asked for before are gone. -/
def Dev.evPut (d : Dev) (e t : Nat) (lvl : Bool) : Dev :=
  { d with evOut := tset (fun _ => []) d.evOut e (((t, lvl != d.on .DEV_EV_CTRL_INVERT e) ::
      (tget (fun _ => []) d.evOut e).filter (fun x => decide (x.1 < t))).take 16) }

/-- The level that EV pin `e` drives at Bedrock time `t`, none where it does not drive. -/
def Dev.evDriven (d : Dev) (e t : Nat) : Option Bool :=
  if d.on .DEV_EV_CTRL_OUT e then ((tget (fun _ => []) d.evOut e).find? (fun x => decide (x.1 ≤ t))).map (·.2) else none

/-- The pulse of EV pin `e` for an unforced firing at `t`: 100 ns from `t` + 80 ns; a firing during a pulse lengthens it. -/
def Dev.evPulse (d : Dev) (e t : Nat) : Dev :=
  let high := fun (x : Nat) => (d.evDriven e x).map (fun b => b != d.on .DEV_EV_CTRL_INVERT e) == some true
  let fall := ((tget (fun _ => []) d.evOut e).head?.map (·.1)).getD 0
  if high t then (if fall < t + ns 100 then d.evPut e fall true |>.evPut e (t + ns 100) false else d)
  else (d.evPut e (t + ns 80) true).evPut e (t + ns 180) false

/-- What a signal does to the event pins that drive it. -/
def Dev.evSignal (d : Dev) (k : SigKind) (t unit idx : Nat) (level : Bool) : Dev :=
  ((List.range 8).filter (d.on .DEV_EV_CTRL_OUT)).foldl (fun d e =>
    let sel := d.rd .DEV_EV_CTRL_SEL e
    match k, d.rd .DEV_EV_CTRL_OSRC e with
    | .cond, 1 => if d.rd .DEV_EV_CTRL_SITE e = unit ∧ sel = idx then d.evPut e (t + ns 20) level else d
    | .wmark, 2 => if sel % 8 = unit then d.evPut e (t + ns 20) level else d
    | .trig, 3 => if sel % 16 = unit then d.evPulse e t else d
    | _, _ => d) d

/-- DEV_EV_CTRL of pin `e` has been written: a field write takes effect at once, a SOFT level 20 ns later. -/
def Dev.evWrite (d : Dev) (e : Nat) : Dev :=
  let sel := d.rd .DEV_EV_CTRL_SEL e
  if !d.on .DEV_EV_CTRL_OUT e then { d with evOut := tset (fun _ => []) d.evOut e [] }
  else match d.rd .DEV_EV_CTRL_OSRC e with
    | 0 => d.evPut e (d.bed + ns 20) (d.on .DEV_EV_CTRL_LEVEL e)
    | 1 => d.evPut e d.bed (bitAt (d.rd .SITE_COND_C (d.rd .DEV_EV_CTRL_SITE e)) sel)
    | 2 => d.evPut e d.bed (d.wave (sel % 8)).mark
    | _ => d.evPut e d.bed false

/-- The delay from a firing of slot `k` to its effect: 96 ns, LAT for a forwarded or forwarding slot (R280). -/
def Dev.trigDelay (d : Dev) (k : Nat) : Nat :=
  if d.on .TA_SLOT_CTRL_FWD k || d.rd .TA_SLOT_CTRL_SRC k == 6 then ns (d.rd .TA_SPAN_LAT 0) else ns 96

/-- The reference time of a jump request by signal `g`, if it is one of channel `w`'s source (R257). -/
def Dev.jumpRef (d : Dev) (w : Nat) (g : Signal) : Option Nat :=
  let sel := d.rd .WV_JUMP_SRC_SEL w
  match d.rd .WV_JUMP_SRC_SRC w with
  | 1 => if g.kind == .cond && g.unit == d.rd .WV_JUMP_SRC_SITE w && g.idx == sel && g.level then some g.t else none
  | 2 => if g.kind == .trig && g.unit == sel % 16 then some (g.t + d.trigDelay (sel % 16)) else none
  | 3 => if g.kind == .ev && g.unit == sel % 8 && g.level then some (g.t + ns 96) else none
  | _ => none

/-- A jump request with reference time `t` is on its way to channel `w`: it arrives at the first sample point at or after `t` + 16 ns. -/
def Dev.askJump (d : Dev) (w t : Nat) : Dev := d.upWave w (fun W => { W with reqs := W.reqs ++ [roundUp (t + ns 16) 8192] })

/-- A unit tells the others. -/
def Dev.signal (d : Dev) (k : SigKind) (t unit idx : Nat) (level : Bool) : Dev :=
  let g : Signal := ⟨d.sigNo, k, t, unit, idx, level⟩
  let d1 := { d.evSignal k t unit idx level with sigNo := d.sigNo + 1, signals := g :: d.signals }
  (List.range 8).foldl (fun d w => match d.jumpRef w g with | some r => d.askJump w r | none => d) d1

/-- The SPAN_ROLE of site `n` is not LOCAL (R61). -/
def Dev.inSpan (d : Dev) (n : Nat) : Bool := d.rd .SITE_CTRL_SPAN_ROLE n != 0

/-- Condition `c` of site `n` is span-wide (R61). -/
def Dev.spanWide (d : Dev) (n c : Nat) : Bool := d.inSpan n && bitAt (d.act .SITE_SPAN_CMASK_CMASK n) c

/-- The conditions of site `n` that the active COND group maps to source `src` (R56). -/
def Dev.mapped (d : Dev) (n src : Nat) : List Nat :=
  if src = 0 then [] else (List.range 32).filter (fun c => d.act .SITE_CSRC_SRC (n * 32 + c) == src)

/-- A condition event enters site `n`'s queue. -/
def Dev.queueCond (d : Dev) (n : Nat) (e : CondEv) : Dev :=
  d.upSite n (fun S => { S with conds := S.conds ++ [e] })

/-- A span-wide change of condition `c` at origin time `t` (R61): the packet, and the change here at `t` plus SPAN_LAT. -/
def Dev.spanCond (d : Dev) (n c : Nat) (v : Bool) (t : Nat) : Dev :=
  (d.originate ⟨.cond, d.rd .SITE_SPAN_SPAN_TAG n, c + 32 * b2n v, t⟩).queueCond n
    ⟨cycleAfter (t + ns (d.rd .SITE_SPAN_LAT_LAT n)), 256 + c, v, true, t⟩

/-- A hardware source of site `n` changes at Bedrock time `t` (R56, R61). MATCH and LOCK are levels over the site's pins (R204, R212): of
several values at one time the last, which sees every pin's change at that time, stands. -/
def Dev.postCond (d : Dev) (n src : Nat) (v : Bool) (t : Nat) : Dev :=
  let d0 := if src = 2 ∨ src = 3 then d.upSite n (fun S => { S with conds := S.conds.filter (fun e => !(e.src == src && e.at_ == t)) }) else d
  let d1 := d0.queueCond n ⟨cycleAfter (t + ns 96), src, v, false, t⟩
  ((d.mapped n src).filter (d.spanWide n)).foldl (fun d c => d.spanCond n c v t) d1

/-- SETC writes condition `c` at `t` (R128, R61). -/
def Dev.postSetc (d : Dev) (n c : Nat) (v : Bool) (t : Nat) : Dev :=
  if d.spanWide n c then d.spanCond n c v t
  else d.queueCond n ⟨cycleAfter (t + ns 96), 256 + c, v, false, t⟩

/-- The conditions that an event changes in the cycle in which it takes effect. -/
def Dev.condsOf (d : Dev) (n : Nat) (e : CondEv) : List Nat :=
  if e.span then [e.src - 256]
  else if 256 ≤ e.src then [e.src - 256]
  else (d.mapped n e.src).filter (fun c => !d.spanWide n c)

/-- The condition word after the events `es` of one cycle: a set wins over a clear (R57). -/
def Dev.condWord (d : Dev) (n : Nat) (es : List CondEv) : Nat :=
  let clr := (es.filter (fun e => !e.value)).foldl (fun w e => (d.condsOf n e).foldl (fun w c => setBit w c false) w)
    (d.rd .SITE_COND_C n)
  (es.filter (·.value)).foldl (fun w e => (d.condsOf n e).foldl (fun w c => setBit w c true) w) clr

/-- The events of the first cycle that is due for site `n` take effect in that cycle (R56, R57). -/
def Dev.applyConds (d : Dev) (n : Nat) : Dev :=
  let due := (d.site n).conds.filter (fun e => decide (e.cycle ≤ d.bed / cycleTicks))
  match due with
  | [] => d
  | e :: t =>
    let c := t.foldl (fun c x => min c x.cycle) e.cycle
    let es := due.filter (fun x => x.cycle == c)
    let old := d.rd .SITE_COND_C n
    let new := d.condWord n es
    let d1 := (d.upSite n (fun S => { S with conds := S.conds.filter (fun x => x.cycle != c),
                                              condLog := ((c, old) :: S.condLog).take 64 })).wr .SITE_COND_C n new
    ((List.range 32).filter (fun i => bitAt old i != bitAt new i)).foldl
      (fun d i => d.signal .cond (c * cycleTicks) n i (bitAt new i)) d1

/-- The queued events of site `n` up to engine cycle `cy`, cycle by cycle, on the condition word. -/
def Dev.condTo (d : Dev) (n cy : Nat) : Nat → Nat
  | 0 => d.rd .SITE_COND_C n
  | k + 1 =>
    let due := (d.site n).conds.filter (fun e => decide (e.cycle ≤ cy))
    match due with
    | [] => d.rd .SITE_COND_C n
    | e :: t =>
      let c := t.foldl (fun c x => min c x.cycle) e.cycle
      Dev.condTo ((d.upSite n (fun S => { S with conds := S.conds.filter (fun x => x.cycle != c) })).wr .SITE_COND_C n
        (d.condWord n (due.filter (fun x => x.cycle == c)))) n cy k

/-- The conditions of site `n` as they stand in engine cycle `cy`: every change that takes effect in it or before, and none later, whether or
not its CONDITION_CHANGE has been commanded (R56, R115). -/
def Dev.condAt (d : Dev) (n cy : Nat) : Nat :=
  match ((d.site n).condLog.filter (fun x => decide (cy < x.1))).getLast? with
  | some x => x.2
  | none => d.condTo n cy (d.site n).conds.length

/-- Condition `c` of site `n` in the engine cycle of Bedrock time `t`. -/
def Dev.cond (d : Dev) (n c t : Nat) : Bool := bitAt (d.condAt n (t / cycleTicks)) c

/-! ## Sequencer status -/

/-- A DSQ of every pin of lane `l` records fault slot `v` (R140). -/
def Dev.dsqFault (d : Dev) (l v : Nat) : Dev :=
  (d.lanePins l).foldl (fun d p =>
    let d1 := if d.on .PIN_DSQ_STATUS_FAULT p then d
      else (d.set1 .PIN_DSQ_STATUS_FAULT p).wr .PIN_DSQ_STATUS_FSLOT p v
    let d2 := if v = 7 then d1.set1 .PIN_DSQ_STATUS_DWELL p else d1
    if v = 8 then d2.set1 .PIN_DSQ_STATUS_STARVED p else d2) d

/-- The DSQs of lane `l` set PARTIAL where the word was incomplete (R87). -/
def Dev.dsqPartial (d : Dev) (l : Nat) : Dev :=
  if (d.lane l).complete then d else (d.lanePins l).foldl (fun d p => d.set1 .PIN_DSQ_STATUS_PARTIAL p) d

/-- The CSQ of pin `p` sets PARTIAL where its entry was incomplete (R87). -/
def Dev.csqPartial (d : Dev) (p : Nat) : Dev := if (d.csq p).wordOpen then d.set1 .PIN_CSQ_STATUS_PARTIAL p else d

/-- DSQ STATE of a lane's pins (R140). -/
def Dev.dsqState (d : Dev) (l : Nat) : Nat :=
  let L := d.lane l
  if L.hand.isSome then 5
  else match L.phase with
    | .stopped => 0
    | .halted => if 64 ≤ l then 4 else 1
    | .wait => 2
    | .handler => 5
    | _ => if ((d.lanePin l).map (fun p => ((d.pin p).fifo.head?.bind (·.grid)).isSome)).getD false then 3 else 1

end Sys2Proof.Machine
end

