-- ==== Sys2Proof/Machine/Halts.lean ====
section
/-!
DEFINITION. How a site stops (R49, R51, R52, R83, R84, R141, R328): abandoning a preparation, draining a running site, the
result of its RUN.
-/
namespace Sys2Proof.Machine

/-- RESULT of a RUN (R307): VCOUNT, fails, drops, waking time, flags STRETCHED, TIMING_STALE and WOKE. -/
def Dev.runResult (d : Dev) (n : Nat) : Nat :=
  let S := d.site n
  resAt (d.rd .SITE_VCOUNT_COUNT n) 80 48 + resAt S.fails 48 32 + resAt S.drops 24 24 +
    resAt (S.slept + S.wakeUs) 8 16 + b2n S.stretched + 2 * b2n S.stale + 4 * b2n (S.woke || S.slept != 0)

/-- Lane `l` is stopped and its counters, stack, registers and flags are lost (R108). -/
def Dev.stopLane (d : Dev) (l : Nat) : Dev := d.upLane l (fun L => { phase := .stopped, waddr := L.waddr })

/-- The sequencers and pins of site `n` are stopped: programs and buffers are discarded. -/
def Dev.clearSite (d : Dev) (n : Nat) : Dev :=
  let d1 := (d.siteLanes n).foldl (fun d l => d.stopLane l) d
  (d1.members n).foldl (fun d p => d.startPin p) d1

/-- Site `n` goes to IDLE and is free for other work; its pins take the trims that still await a seam (R190). A seam clock runs on (R70). -/
def Dev.toIdle (d0 : Dev) (n : Nat) : Dev :=
  let d := (d0.members n).foldl (fun d p => d.takeTrims p) d0
  (d.wr .SITE_STATUS_STATE n SiteState.IDLE).upSite n (fun S =>
    { S with idleSince := d.now, run := none, stops := [], startSeam := false, failStop := none, start := none, resumeAt := none, cause := none, endAt := none, ended := false,
             pausePend := false, stretching := 0, underPin := none, csqStop := false, early := none })

/-- A preparing or armed site returns to IDLE without touching pins; its RUN completes with `status` (R49, R328). -/
def Dev.abandon (d : Dev) (n status : Nat) : Dev :=
  let res := ((d.wr .SITE_VCOUNT_COUNT n 0).runResult n)
  let d1 := match (d.site n).run with
    | some e => d.finish e status res
    | none => d
  let d2 := (d.site n).stops.foldl (fun e x => (e.finish x Status.OK (resAt 0 80 48)).upEntry x (fun y => { y with after := (d.site n).run })) d1
  (d2.clearSite n).toIdle n

/-- A cause of R328 reaches site `n` before vector 0: the site goes back to IDLE at the end of the engine cycle, and of the causes of one cycle the
one that stands higher decides. -/
def Dev.stopSoon (d : Dev) (n rank status : Nat) : Dev :=
  d.upSite n (fun S => { S with early := match S.early with
    | some (r, s) => if rank < r then some (rank, status) else some (r, s)
    | none => some (rank, status) })

/-- The sites stopped in this engine cycle before vector 0 go back to IDLE (R49, R141, R328). -/
def Dev.earlyStops (d : Dev) : Dev :=
  (d.sites.filter (fun x => x.2.early.isSome)).foldl (fun d x => match x.2.early with
    | some (_, st) => d.abandon x.1 st
    | none => d) d

/-- An interrupt of kind `k` is raised for lane `l` (R83). -/
def Dev.raiseIrq (d : Dev) (l k : Nat) : Dev := d.upLane l (fun L => { L with irqs := L.irqs ++ [(k, d.now)] })

/-- An interrupt of kind `k` is raised for the CSQ of pin `p` (R83). -/
def Dev.raiseCsq (d : Dev) (p k : Nat) : Dev := d.upCsq p (fun C => { C with irqs := C.irqs ++ [(k, d.now)] })

/-- The drive side of pin `p` makes no more slots for now (R196). -/
def Dev.driveStopped (d : Dev) (n p : Nat) : Bool :=
  let st := d.siteState n
  st == SiteState.DRAINING || st == SiteState.PAUSED ||
    (d.isPrivate n p && (d.lane (64 + p)).phase == .halted && (d.pin p).fifo.isEmpty)

/-- Judgements are owed: vectors that the CSQ has not taken, or a search whose marker is complete. -/
def Csq.owes (C : Csq) : Bool :=
  !C.exps.isEmpty || (match C.search with | some q => decide (q.len ≤ q.marks.length) | none => false)

/-- The start of pin `p`'s next judging slot, real or virtual (R195, R196). -/
def Dev.slotStart (d : Dev) (n p : Nat) : Option Nat :=
  let C := d.csq p
  match C.slots.find? (fun s => s.1 == C.nextSlot) with
  | some s => some s.2
  | none =>
    if d.driveStopped n p && C.owes && C.slotNo != 0 && decide (C.slotNo ≤ C.nextSlot) then
      some (C.lastS + (C.nextSlot + 1 - C.slotNo) * C.lastPer)
    else none

/-- An entry waits for the end of a search whose marker it follows. -/
def Csq.waits (C : Csq) (e : Exp) : Bool :=
  match C.search with
  | some q => q.len ≤ q.marks.length && q.slot0 ≤ e.slot
  | none => false

/-- The entry at the head of pin `p`'s elastic FIFO is at the compare offset: its judging slot has begun. -/
def Dev.expHere (d : Dev) (n p : Nat) : Option Exp :=
  let C := d.csq p
  match C.exps with
  | e :: _ =>
    let j := e.slot + d.rd .PIN_CMP_STATUS_OFFSET_NOW p
    if !C.waits e && (decide (j < C.nextSlot) || (j == C.nextSlot && ((d.slotStart n p).map (fun S => decide (S ≤ d.bed))).getD false)) then some e
    else none
  | [] => none

/-- The CSQ of pin `p` stops at once: an ABORT is raised for it and its judgements and fail writes are discarded (R52, R83, R84); LSTATE stays
(log entry 108). SSI 4.2's is in a routine while an entry is at the compare offset (log entry 25). -/
def Dev.abortCsq (d : Dev) (p : Nat) : Dev :=
  (d.upCsq p (fun C => { C with exps := [], search := none, dead := true,
                                wordOpen := C.wordOpen || (!C.micro && (d.siteOf p).any (fun n => (d.expHere n p).isSome)) })).raiseCsq p 0

/-- The Vector FIFO of a pin is emptied (R84); the vectors launched stand. -/
def Dev.dropFifo (d : Dev) (p : Nat) : Dev := d.upPin p (fun P => { P with fifo := [], rep := none })

/-- A running or paused site goes to DRAINING with an ABORT (R83, R84): `rank` and `status` decide its RUN (R328), `now_`
stops the CSQs at once (R52). The drive ends where the vector launched last ends. -/
def Dev.drain (d : Dev) (n rank status : Nat) (now_ : Bool) : Dev :=
  let end_ := match d.lanePin n with
    | some p => if d.siteState n = SiteState.PAUSED then d.bed else max d.bed (d.pin p).tNext
    | none => d.bed
  let d1 := (d.siteLanes n).foldl (fun d l => d.raiseIrq l 0) d
  let d2 := (d1.members n).foldl (fun d p => d.dropFifo p) d1
  let d3 := if now_ then (d2.members n).foldl (fun d p => d.abortCsq p) d2 else d2
  (d3.wr .SITE_STATUS_STATE n SiteState.DRAINING).upSite n (fun S =>
    { S with cause := some (rank, status), causeAt := d.cycle, endAt := some end_, csqStop := now_, pausePend := false })

/-- Site `n` is stopped by a cause of R328: before vector 0 its RUN completes with `early` at the end of the engine cycle; while it runs or is paused it
drains; on a site already draining, a halt that stops the CSQs at once stops them (R52), and a cause of lower rank in the same engine
cycle decides the status. -/
def Dev.stopSite (d : Dev) (n rank status early : Nat) (now_ : Bool) : Dev :=
  let st := d.siteState n
  if st = SiteState.PREPARING || st = SiteState.ARMED then d.stopSoon n rank early
  else if st = SiteState.RUNNING || st = SiteState.PAUSED then d.drain n rank status now_
  else if st = SiteState.DRAINING then
    let S := d.site n
    let d1 := if now_ ∧ !S.csqStop then ((d.members n).foldl (fun d p => d.abortCsq p) d).upSite n (fun S => { S with csqStop := true }) else d
    match S.cause with
    | some (r, _) =>
      if S.causeAt = d.cycle ∧ rank < r then d1.upSite n (fun S => { S with cause := some (rank, status) }) else d1
    | none => d1
  else d

/-- The stop of a site by a STOP or a recovery: ABORTED_PARTIAL, or WITHDRAWN before vector 0. -/
def Dev.abortSite (d : Dev) (n rank : Nat) (now_ : Bool) : Dev :=
  d.stopSite n rank Status.ABORTED_PARTIAL Status.WITHDRAWN now_

/-- Octet `k` goes out of service (R39): its bit clears until the next boot, its pins hold DE deasserted, and a site with a
member in it halts (R328). -/
def Dev.octetDown (d : Dev) (k : Nat) : Dev :=
  let pins := (List.range 8).map (· + 8 * k)
  let d1 := d.wr .DEV_UNITS_OCT_OK 0 (setBit (d.rd .DEV_UNITS_OCT_OK 0) k false)
  let d2 := ((List.range 64).filter (fun n => pins.any (d.isMember n))).foldl (fun d n => d.abortSite n 3 true) d1
  pins.foldl (fun d p => d.deOff p) d2

/-- Source `s` of site `n` raised for pin `p`; several sequencers of one site in one engine cycle are one event, against the lowest pin
(R140). -/
def Dev.raiseLow (d : Dev) (n s p : Nat) : Dev :=
  let same := fun (r : Raise) => r.src == s && r.cycle == d.cycle && d.isMember n r.inst
  if d.raised.any same then { d with raised := d.raised.map (fun r => if same r then { r with inst := min r.inst p } else r) }
  else d.raise s p

/-- A member pin of a site's lane meets fault slot `v` (R140): its source is raised for the lane's lowest pin and the site
halts with the slot's status. -/
def Dev.seqFaultNow (d : Dev) (l v : Nat) : Dev :=
  match d.laneSite l with
  | some n =>
    let d1 := (d.dsqFault l v).raiseLow n (0x1C7 + v) ((d.lanePin l).getD 0)
    d1.stopSite n 1 (Status.seqFault v) (Status.seqFault v) false
  | none => d

/-- A NOTE slot (12, 13) is recorded once per burst and site (R140). -/
def Dev.seqNote (d : Dev) (l v : Nat) : Dev :=
  match d.laneSite l with
  | some n =>
    if bitAt (d.site n).once v then
      (if d.raised.any (fun r => r.src == 0x1C7 + v && r.cycle == d.cycle && d.isMember n r.inst)
        then d.raiseLow n (0x1C7 + v) ((d.lanePin l).getD 0) else d)
    else (d.upSite n (fun S => { S with once := setBit S.once v true })).raise (0x1C7 + v) ((d.lanePin l).getD 0)
  | none => d

/-- A missed rendezvous (R59). -/
def Dev.rdvMissNow (d : Dev) (n : Nat) : Dev :=
  ((d.raise 0x1C3 n).set1 .SITE_STATUS_RDV_MISS n).stopSite n 2 Status.RDV_MISS Status.WITHDRAWN false

/-- Site `n` is halted by a span halt or a late span packet (R64, R386). -/
def Dev.spanStop (d : Dev) (n : Nat) : Dev :=
  ((d.set1 .SITE_STATUS_SPAN_LATE n).stopSite n 2 Status.SPAN_LATE Status.SPAN_LATE false).upSite n (fun S => { S with spanHalt := none })

/-- A late span packet reaches site `n` (R64): the site halts and a span halt is sent. -/
def Dev.spanLate (d : Dev) (n : Nat) : Dev :=
  ((d.raise 0x1C4 n).spanStop n).originate ⟨.halt, d.rd .SITE_SPAN_SPAN_TAG n, 0, d.bed⟩

/-- The span halt of site `n` takes effect by Bedrock time `t` (R64). -/
def Dev.spanHaltDue (d : Dev) (n t : Nat) : Bool :=
  match (d.site n).spanHalt with
  | some c => decide (c ≤ t)
  | none => false

/-- The span halts that are due take effect. -/
def Dev.spanHalts (d : Dev) : Dev :=
  ((List.range 64).filter (fun n => d.spanHaltDue n d.bed)).foldl (fun d n => d.spanStop n) d

/-- The code by which a lane remembers a missed rendezvous until its boundary (R59). -/
def missCode : Nat := 100

/-- The fault that lane `l` has met takes effect. -/
def Dev.laneFaultNow (d : Dev) (l v : Nat) : Dev :=
  if v = missCode then (match d.laneSite l with | some n => d.rdvMissNow n | none => d) else d.seqFaultNow l v

/-- The pins of a list whose next vector, at the head of the FIFO, is a stream error (R149). -/
def Dev.badHeads (d : Dev) (ps : List Nat) : List Nat := ps.filter (fun p => ((d.pin p).fifo.head?.map (·.bad)).getD false)

/-- A stream error of the pins `ps` of site `n` (R149). -/
def Dev.streamError (d : Dev) (n : Nat) (ps : List Nat) : Dev :=
  let d1 := ps.foldl (fun d p => d.set1 .PIN_STREAM_STATUS_BAD_STREAM p) d
  (d1.raiseLow n 0x1D9 (ps.headD 0)).stopSite n 2 Status.BAD_STREAM Status.BAD_STREAM false

/-- Before vector 0, a stream error at the head of a FIFO of site `n` takes effect at once (R141, R149). -/
def Dev.earlyError (d : Dev) (n : Nat) : Dev :=
  let bad := d.badHeads (d.members n)
  if (d.siteState n = SiteState.PREPARING ∨ d.siteState n = SiteState.ARMED) ∧ bad ≠ [] then d.streamError n bad else d

/-- Lane `l` meets fault `v`: it takes effect at the boundary where the word would have emitted its first vector; where that
is vector 0 of the burst, at once (R141). -/
def Dev.laneFault (d : Dev) (l v : Nat) : Dev :=
  let first : Bool := (d.lane l).emitted == 0 && decide (d.siteState ((d.laneSite l).getD 0) ≤ SiteState.ARMED)
  let d1 := d.upLane l (fun L => { L with fault := some v })
  if first then d1.laneFaultNow l v else d1

end Sys2Proof.Machine
end

