-- ==== Sys2Proof/Machine/Memory.lean ====
section
/-!
DEFINITION. The Memory Controller's shared operations (R334 to R352): waiting requests, refresh debt
and bands, activates, the operating point, self-refresh, and the waking of a preparing site's resources.
-/
namespace Sys2Proof.Machine

/-! ## Queues -/

/-- Requests of `who` that wait: reads not yet served, writes that their queue has not yet accepted (R32, R338). -/
def Dev.unseen (d : Dev) (f : Requester → Bool) : Bool :=
  d.pcs.any (fun c => c.2.reads.any (fun r => f r.who) || (c.2.writes.drop 64).any (fun r => f r.who))

/-- Requests of `who` that wait to be served. -/
def Dev.waiting (d : Dev) (f : Requester → Bool) : Bool :=
  d.pcs.any (fun c => c.2.reads.any (fun r => f r.who) || c.2.writes.any (fun r => f r.who))

/-! ## Refresh -/

/-- tREFI of a refresh band in ns (R340). -/
def trefi (b : Nat) : Nat := if b = 0 then 3900 else if b = 1 then 1950 else 975

/-- The band that a refresh temperature selects from band `b` (R340). -/
def bandStep (b : Nat) (t : Int) : Nat :=
  if 1520 < t then 2
  else if b = 2 ∧ 1496 < t then 2
  else if 1360 < t then 1
  else if 1 ≤ b ∧ 1336 < t then 1
  else 0

/-- Stack `s` is in self-refresh. -/
def Dev.inSR (d : Dev) (s : Nat) : Bool := bitAt (d.rd .MC_STATUS_SR 0) s

/-- The refresh temperature of stack `s` (R340). -/
def Dev.refreshTemp (d : Dev) (s : Nat) : Int :=
  let m := sgn 12 (d.rd .MC_TEMP_MODEL s)
  if d.inSR s then m else max m (sgn 12 (d.rd .MC_TEMP_REPORT s))

/-- The refresh debt of pseudo-channel `c` in 1/64 ns (R341). -/
def Dev.debt64 (d : Dev) (c : Nat) : Nat :=
  let P := d.pc c
  if d.inSR (c / 32) then P.debt64 else P.debt64 + (d.now - P.debtAt) * 64 / cycleTicks

/-- The debt becomes `v`. -/
def Dev.setDebt (d : Dev) (c v : Nat) : Dev := d.upPc c (fun P => { P with debt64 := v, debtAt := d.now })

/-- Pseudo-channel `c` meets a band with interval `t` (R343): beyond 8 intervals it catches up; the REFabs close its rows (R339), and a retraining
step in progress is repeated behind them. -/
def Dev.catchUp (d : Dev) (c t : Nat) : Dev :=
  let D := d.debt64 c
  if D ≤ 8 * t * 64 then d
  else
    let n := (D + t * 64 - 1) / (t * 64) - 4
    let d1 := (d.setDebt c (D - n * t * 64)).upPc c (fun P =>
      { P with catchEnd := d.now + ns (400 * n), rows := []
               trainEnd := if d.now < P.trainEnd then P.trainEnd + ns (400 * n) else P.trainEnd
               trainFrom := if d.now < P.trainEnd then d.now + ns (400 * n) else P.trainFrom })
    ((d1.raise 0x184 c).set1 .MC_STATUS_CATCHUP 0).count .MC_PC_COUNT_CATCHUPS c 1 |>.tally 0x22 c (400 * n)

/-- The refresh band of stack `s` is judged anew (R340, R343). -/
def Dev.judgeBand (d : Dev) (s : Nat) : Dev :=
  let b := d.rd .MC_TEMP_RBAND s
  let b' := bandStep b (d.refreshTemp s)
  if b' = b then d
  else
    let pcs := (List.range 32).map (· + 32 * s)
    let d1 := pcs.foldl (fun d c => d.wr .MC_PC_STATUS_RBAND c b') (d.wr .MC_TEMP_RBAND s b')
    if b < b' ∧ !d.inSR s ∧ d.stackOk s then pcs.foldl (fun d c => d.catchUp c (trefi b')) d1 else d1

/-- The least count of a list of tracked rows. -/
def leastCount : List (Nat × Nat) → Nat
  | [] => 0
  | x :: t => t.foldl (fun m y => min m y.2) x.2

/-- A row's count after an activate, in a table of at most 32 rows (R345). -/
def trackRow (t : List (Nat × Nat)) (row : Nat) : List (Nat × Nat) :=
  if t.any (·.1 == row) then t.map (fun e => if e.1 = row then (row, e.2 + 1) else e)
  else if t.length < 32 then t ++ [(row, 1)]
  else
    let m := leastCount t
    match t.findIdx? (fun e => e.2 == m) with
    | some i => t.set i (row, m + 1)
    | none => t

/-- A refresh holds bank `b` of pseudo-channel `c` for an open time of at most 200 ns and closes its row (R339, R341, R345). -/
def Dev.holdBank (d : Dev) (c b : Nat) : Dev :=
  (d.upPc c (fun P => { P with bankTo := tset (fun _ => 0) P.bankTo b (d.now + ns (d.openVal 8 % 201)), rows := tset (fun _ => none) P.rows b none })).took

/-- A refresh holds bank `b` of pseudo-channel `c`. -/
def Dev.bankHeld (d : Dev) (c b : Nat) : Bool := decide (d.now < tget (fun _ => 0) (d.pc c).bankTo b)

/-- Bank `b` of pseudo-channel `c` activates `row`; at the threshold its neighbours are refreshed, whose own activates are not tracked, and the
row's count is the least of the other 31 entries, 0 for one not in use (R345; log entry 95). -/
def Dev.activate (d : Dev) (c b row : Nat) : Dev :=
  let t := trackRow (tget (fun _ => []) (d.pc c).acts b) row
  let lim := max 256 (d.rd .MC_ACT_THRESH 0)
  let hit := t.any (fun e => e.1 == row && decide (lim ≤ e.2))
  let rest := t.filter (fun e => e.1 != row)
  let least := if rest.length < 31 then 0 else leastCount rest
  let t' := if hit then t.map (fun e => if e.1 = row then (row, least) else e) else t
  let d1 := d.upPc c (fun P => { P with acts := tset (fun _ => []) P.acts b t' })
  if hit then (d1.holdBank c b).count .MC_PC_COUNT_NEIGHBOUR c 1 else d1

/-- An access to address `a` on behalf of `hint` (R339): a row held open serves it, another is closed. -/
def Dev.access (d : Dev) (a : Nat) (hint : Bool) : Dev :=
  let c := d.pcOf a
  let b := d.bankOf a
  let row := d.rowOf a
  let keep : Bool := hint && d.on .MC_CTRL_KEEPOPEN 0
  let open_ := tget (fun _ => none) (d.pc c).rows b
  let d1 := if open_.map (·.row) = some row then d else (d.activate c b row).tally 0x23 c 1
  let at_ := match open_ with
    | some r => if r.row = row then r.openedAt else d.now
    | none => d.now
  d1.upPc c (fun P => { P with rows := tset (fun _ => none) P.rows b (if keep then some ⟨row, at_, d.now⟩ else none) })

/-! ## Self-refresh and operating point -/

/-- No site and no wave channel counts as running: the controller is idle (R348). -/
def Dev.mcIdle (d : Dev) : Bool :=
  !(List.range 64).any d.siteRunning && !(List.range 8).any (fun w => decide (2 ≤ d.rd .WV_STATUS_STATE w))

/-- Every pseudo-channel of stack `s` leaves self-refresh with no debt and cleared trackers (R352). -/
def Dev.freshStack (d : Dev) (s : Nat) : Dev :=
  ((List.range 32).map (· + 32 * s)).foldl (fun d c =>
    (d.setDebt c 0).upPc c (fun P => { P with acts := [], visits := [], rows := [], bankTo := [], urgent := false })) d

/-- Stack `s` enters self-refresh. -/
def Dev.enterSR (d : Dev) (s : Nat) : Dev :=
  if d.inSR s || !d.stackOk s then d
  else
    let t := d.refreshTemp s
    let d1 := d.wr .MC_STATUS_SR 0 (setBit (d.rd .MC_STATUS_SR 0) s true)
    { d1 with mc := { d1.mc with srAt := tset (fun _ => 0) d1.mc.srAt s d.now, srTemp := tset (fun _ => 0) d1.mc.srTemp s t } }

/-- Pseudo-channel `c` retrains for `t` ns in steps that hold it for `h` ticks of every 2,500 ns. -/
def Dev.trainFor (d : Dev) (c t h : Nat) : Dev :=
  let T := d.refreshTemp (c / 32)
  d.upPc c (fun P => { P with trainEnd := d.now + ns t, trainAt := d.now, trainFrom := d.now, trainHold := h, trainTemp := T })

/-- A retrain of pseudo-channel `c` begins: it ends within 50 µs, its steps hold the pseudo-channel for at most 500 ns with 2 µs of traffic between,
both open otherwise (R347). -/
def Dev.beginTrain (d : Dev) (c : Nat) : Dev :=
  (d.trainFor c (d.openVal 16 % 50000) (ns (d.took.openVal 16 % 501))).took.took

/-- The stack reports its temperature on leaving self-refresh, before any traffic (R340). -/
def Dev.reported (d : Dev) (s report : Nat) : Dev :=
  ({ d with mc := { d.mc with repDue := tset (fun _ => 0) d.mc.repDue s (d.now + ms 1) } } : Dev).wr .MC_TEMP_REPORT s report

/-- The patrol scrub goes on where it stopped when the last stack leaves self-refresh: its pass began that much later (R351). -/
def Dev.scrubOn (d : Dev) (s : Nat) : Dev :=
  if d.rd .MC_STATUS_SR 0 = 0 then { d with mc := { d.mc with scrubAt := d.mc.scrubAt + (d.now - tget (fun _ => 0) d.mc.srAt s) } } else d

/-- Stack `s` leaves self-refresh with the temperature `report` (R340, R352): with a retrain that holds it, at most 50 µs, where it was long or the
temperature moved by 8 °C. -/
def Dev.leaveSR (d0 : Dev) (s report : Nat) : Dev :=
  if !d0.inSR s then d0
  else
    let d := d0.reported s report
    let d1 := ((d.wr .MC_STATUS_SR 0 (setBit (d.rd .MC_STATUS_SR 0) s false)).freshStack s).scrubOn s
    let iv := d.rd .MC_RETRAIN_INTERVAL_MS 0
    let long : Bool := iv != 0 && decide (ms iv < d.now - tget (fun _ => 0) d.mc.srAt s)
    let dt := d1.refreshTemp s - tget (fun _ => 0) d.mc.srTemp s
    let d2 := d1.judgeBand s
    if long || decide (128 ≤ dt) || decide (dt ≤ -128) then
      (((List.range 32).map (· + 32 * s)).foldl (fun (d : Dev) c => d.trainFor c (d2.openVal 16 % 50000) (us 50)) d2).took
    else d2

/-- A change of the operating point is pending from the write on (R348). -/
def Dev.opWritten (d : Dev) : Dev :=
  if d.on .MC_STATUS_OP_PENDING 0 then d
  else if d.rd .MC_CTRL_OPPOINT 0 = d.rd .MC_STATUS_OP_NOW 0 then d
  else { d.set1 .MC_STATUS_OP_PENDING 0 with mc := { d.mc with opAt := d.now } }

/-- A site or a wave channel enters PREPARING at LOW: the controller writes FULL (R349). -/
def Dev.opFull (d : Dev) : Dev :=
  if d.on .MC_CTRL_OPPOINT 0 || d.on .MC_STATUS_OP_NOW 0 then (d.clr .MC_CTRL_OPPOINT 0).opWritten else d

/-! ## Waking a preparing site (R30, R307) -/

/-- What site `n`'s preparation needs is there: its edge PLLs, memory out of self-refresh and at FULL. -/
def Dev.awake (d : Dev) (n : Nat) : Bool :=
  (d.members n).all d.pllOk &&
    (d.localMode || (!d.on .MC_STATUS_OP_PENDING 0 && !d.on .MC_STATUS_OP_NOW 0 && d.rd .MC_STATUS_SR 0 == 0))

/-- The preparation of site `n` waited `t` ticks for what it woke (R307): whole µs, the rounding of a part being open. -/
def Dev.wakeTook (d : Dev) (n t : Nat) : Dev :=
  let v := t / us 1 + (if t % us 1 = 0 then 0 else d.openVal 1)
  (d.upSite n (fun S => { S with wakeUs := max S.wakeUs v })).took

/-- A resource became ready: every site that waited for one and has all now has waited until this moment (R307). -/
def Dev.wakeNote (d : Dev) : Dev :=
  (List.range 64).foldl (fun d n =>
    let S := d.site n
    if d.siteState n = SiteState.PREPARING ∧ S.woke ∧ S.wakeUs = 0 ∧ d.awake n
    then d.wakeTook n (d.now - S.prepAt) else d) d

/-- The edge PLL of quadrant `q` is asked for (R356, R425). -/
def Dev.startPll (d : Dev) (q : Nat) : Dev :=
  let ready := if q < 4 then bitAt (d.rd .BR_STATUS_QPLL_READY 0) q else d.on .BR_STATUS_WAVE_READY 0
  let ok := if q < 4 then bitAt (d.rd .DEV_UNITS_QPLL_OK 0) q else d.rd .DEV_UNITS_WAVE_OK 0 != 0
  if ready || !ok || (d.pll q).starting then d
  else d.upPll q (fun P => { P with starting := true, tries := 0, at_ := d.now })

/-- The quadrants with a member of site `n`. -/
def Dev.quads (d : Dev) (n : Nat) : List Nat := (List.range 4).filter (fun q => (d.members n).any (fun p => p / 64 == q))

end Sys2Proof.Machine
end

