-- ==== Sys2Proof/Machine/Compare.lean ====
section
/-!
DEFINITION. Compare, elastic latency and fail capture (R193 to R226): the elastic FIFO, readings and judgement, match
results, the latency search, fail records and capture blocks, and their store, spill and capture region.
-/
namespace Sys2Proof.Machine

/-! ## Entering the elastic FIFO -/

/-- The entry of vector `v` of pin `p`, launched with the active sets as they stand (R172, R194). -/
def Dev.expOf (d : Dev) (p : Nat) (v : Vec) (slot vcount : Nat) : Exp :=
  let k := v.tset
  let on : Bool := v.burst && d.act .PIN_TS_MODE_BURST (tsKey p k) == 1
  { slot := slot, code := v.code
    acts := if v.code = 13 ∨ v.code = 14 ∨ (v.code = Code.B ∧ !on) then Code.X else v.code
    ui := v.ui, tset := k, waddr := v.waddr, vcount := vcount, capt := v.capt, maskf := v.maskf, wordEnd := v.endMatch, word := v.word
    ctl := v.ctl, cmode := d.act .PIN_TS_MODE_CMODE (tsKey p k)
    opens := d.edge .PIN_TS_SOPEN_T .PIN_TF_DESKEW2_SOPEN p k
    closes := d.edge .PIN_TS_SCLOSE_T .PIN_TF_DESKEW2_SCLOSE p k
    unit := d.period p k / 4 }

/-- A slot of pin `p` begins at `S` and lasts `per` (R193). -/
def Dev.pushSlot (d : Dev) (p S per : Nat) : Dev :=
  d.upCsq p (fun C => { C with slots := C.slots ++ [(C.slotNo, S)], slotNo := C.slotNo + 1, lastS := S, lastPer := per })

/-- Vector `v` enters pin `p`'s elastic FIFO at its slot; after an ABORT of its CSQ nothing does (R84). -/
def Dev.pushExp (d : Dev) (p : Nat) (v : Vec) (S per vcount : Nat) : Dev :=
  let e := d.expOf p v (d.csq p).slotNo vcount
  (d.pushSlot p S per).upCsq p (fun C => if C.dead then C else { C with exps := C.exps ++ [e] })

/-! ## Fail records (R213, R214, R217) -/

/-- The bits of a fail record. -/
def failBits (vcount pin site expect actual tset kind seq : Nat) : Nat :=
  vcount % 2 ^ 48 * 2 ^ 80 + pin % 256 * 2 ^ 72 + site % 64 * 2 ^ 66 + expect % 16 * 2 ^ 62 + actual % 4 * 2 ^ 60 +
    tset % 32 * 2 ^ 55 + kind % 8 * 2 ^ 52 + seq % 2 ^ 32

/-- A record of site `n` with this strobe close is dropped (R217): counted, and noted once per burst; drops run on until their mark is placed
(log entry 109). -/
def Dev.dropRec (d : Dev) (n rec_ : Nat) (close : Int) : Dev :=
  let F := d.failSite n
  let d1 := (d.count .FR_SITE_DROPPED_RECORDS n 1).upSite n (fun S => { S with drops := S.drops + 1 })
  let d2 := d1.upFailSite n (fun F => { F with noted := true, run := match F.run with
    | some (r, k, c) => if close < c ∨ (close = c ∧ bits rec_ 72 8 < bits r 72 8) then some (rec_, k + 1, close) else some (r, k + 1, c)
    | none => some (rec_, 1, close) })
  if F.noted then d2 else d2.raise 0x242 n

/-- A record enters the fail queue of its octet; a full queue drops it (R214). -/
def Dev.queueRec (d : Dev) (n p : Nat) (close : Int) (rec_ : Nat) : Dev :=
  let q := tget (fun _ => []) d.failQ (p / 8)
  if q.length < 64 then { d with failQ := tset (fun _ => []) d.failQ (p / 8) (q ++ [⟨n, p, close, rec_⟩]) }
  else d.dropRec n rec_ close

/-! ## Conditions of the compare side -/

/-- The Bedrock tick of a strobe close. -/
def closeTick (c : Int) : Nat := c.toNat

/-- LOCK of site `n` (R212): every member pin out of NONE is LOCKED or HELD, and there is one. -/
def Dev.lockLevel (d : Dev) (n : Nat) : Bool :=
  let st := (d.members n).map (fun p => d.rd .PIN_CMP_STATUS_LSTATE p)
  let act := st.filter (· != 0)
  !act.isEmpty && act.all (fun x => x == 2 || x == 3)

/-- Pin `p`'s search state becomes `v` at a strobe close (R212). -/
def Dev.setLstate (d : Dev) (n p v : Nat) (close : Int) : Dev :=
  if d.rd .PIN_CMP_STATUS_LSTATE p = v then d
  else
    let d1 := d.wr .PIN_CMP_STATUS_LSTATE p v
    d1.postCond n 3 (d1.lockLevel n) (closeTick close)

/-- MATCH of site `n` (R204). -/
def Dev.matchLevel (d : Dev) (n : Nat) : Bool :=
  let st := (d.members n).filterMap (fun p => (d.csq p).pub)
  !st.isEmpty && st.all id

/-- Pin `p` publishes its match result at a strobe close (R203, R204). -/
def Dev.publish (d : Dev) (n p : Nat) (close : Int) : Dev :=
  match (d.csq p).acc with
  | none => d
  | some b =>
    let d1 := d.upCsq p (fun C => { C with pub := some b, acc := none })
    d1.postCond n 2 (d1.matchLevel n) (closeTick close)

/-! ## Readings (R199, R200, R201) -/

/-- The reading of the comparators (CH, CL). -/
def readOf (r : Bool × Bool) : Nat := if r.1 && r.2 then 3 else if r.1 then 2 else if r.2 then 0 else 1

/-- Whether an acting code takes a reading as an ordinary vector. -/
def readCode (c : Nat) : Bool := c == 2 || c == 3 || c == 5 || c == 6 || c == 8 || c == 10 || c == 11 || c == 12

/-- Whether an entry carries an expectation that is judged (R201). -/
def Exp.expects (e : Exp) : Bool :=
  e.cmode != 0 && ((readCode e.acts && e.acts != 8) || (e.acts == Code.B && (List.range 4).any (fun k => 2 ≤ bits e.ui (2 * k) 2)))

/-- A code judged against a reading, `prev` the previous reading: whether it passes or matches (R201). -/
def passes (code r : Nat) (prev : Option Nat) : Bool :=
  match code with
  | 2 => r == 0
  | 3 => r == 2
  | 5 => r == 1
  | 6 => r == 0 || r == 2
  | 10 => (r == 0 || r == 2) && (match prev with | some q => q != 3 && q != r | none => true)
  | 11 => r == 0
  | 12 => r == 2
  | _ => true

/-- The first failing unit interval of a B vector (R202). -/
def burstFail (ui : Nat) (rs : List Nat) : Option Nat :=
  (List.range 4).find? (fun k => (bits ui (2 * k) 2 == 2 && rs.getD k 1 != 0) || (bits ui (2 * k) 2 == 3 && rs.getD k 1 != 2))

/-- What a strobe on the timing of `m` gives: the reading, UNSTABLE where an input changed within a window (R200), and the samples of the four
unit intervals; nothing with CMODE = OFF. The states given are, of a slot that samples unit intervals, the four samples, the first of them at the
opening, else the state at the opening; then, of a window, those after it. -/
def slotRead (m : Exp) (rd : List (Bool × Bool)) (unstable burst : Bool) : List Nat :=
  if m.cmode = 0 then []
  else
    let r0 := rd.getD 0 (false, false)
    let moved : Bool := m.cmode == 2 && (unstable || (if burst then rd.drop 4 else rd).any (· != r0))
    (if moved then 3 else readOf r0) :: (List.range 4).map (fun k => readOf (rd.getD k (false, false)))

/-- The readings that vector `e` takes of them: four for a B vector, else one (R202, R224). -/
def Exp.readings (e : Exp) (rs : List Nat) : List Nat :=
  if rs = [] ∨ e.cmode = 0 then [] else if e.acts = Code.B then rs.drop 1 else rs.take 1

/-- The strobes at slot start `S` with fine offset `F`, opening and close of each (R181, R183): one, or one for each unit interval. -/
def Exp.strobes (e : Exp) (S : Nat) (F : Int) (burst : Bool) : List (Int × Int) :=
  let o := (S : Int) + e.opens + F
  if burst then (List.range 4).map (fun k => (o + (k * e.unit : Nat), o + (k * e.unit : Nat)))
  else if e.cmode = 2 then [(o, (S : Int) + e.closes + F)]
  else [(o, o)]

/-- The close of the last of them as they are asked for. -/
def lastCloseOf (l : List (Int × Int)) : Int := (l.getLast?.map (·.2)).getD 0

/-- Strobes are placed (R182, R185): one too near the close of the last is moved with its length, and counted; the edges are held as coarse counts
and codes. -/
def Dev.strobeAt (d : Dev) (p : Nat) (l : List (Int × Int)) : Dev × Int :=
  l.foldl (fun a oc =>
    let last := (a.1.csq p).lastClose
    let mv : Int := match last with | some c => max 0 (c + 1800 - oc.1) | none => 0
    let d1 := if mv = 0 then a.1 else a.1.spacing p 1
    (d1.upCsq p (fun C => { C with lastClose := some (oc.2 + mv)
                                   placed := C.placed ++ [interp (oc.1 + mv)] ++ (if oc.1 = oc.2 then [] else [interp (oc.2 + mv)]) }), oc.2 + mv))
    (d.upCsq p (fun C => { C with placed := [] }), lastCloseOf l)

/-- CH and CL both asserted at a reading (R200). -/
def Dev.contra (d : Dev) (p : Nat) (rd : List (Bool × Bool)) : Dev :=
  if rd.any (fun r => r.1 && r.2) then
    let d1 := d.set1 .PIN_CMP_STATUS_CONTRA p
    if bitAt (d.csq p).once 1 then d1
    else (d1.upCsq p (fun C => { C with once := setBit C.once 1 true })).raise 0x245 p
  else d

/-- A vector with an expectation is left unjudged (R198, R209). -/
def Dev.unjudged (d : Dev) (p : Nat) (e : Exp) : Dev := if e.expects then d.count .PIN_CMP_STATUS_UNJUDGED p 1 else d

/-! ## Capture (R224 to R226) -/

/-- A capture block of site `n` is dropped (R226). -/
def Dev.dropBlock (d : Dev) (n p : Nat) : Dev :=
  let d1 := ((d.count .FR_SITE_DROPPED_BLOCKS n 1).count .PIN_CAP_COUNT_DROPPED p 1).upSite n (fun S => { S with drops := S.drops + 1 })
  let d2 := (d1.upCsq p (fun C => { C with gap := true })).upFailSite n (fun F => { F with capNoted := true })
  if (d.failSite n).capNoted then d2 else d2.raise 0x243 n

/-- Pin `p`'s open block closes and enters its octet's queue of 8 (R225, R226). -/
def Dev.closeCap (d : Dev) (p : Nat) : Dev :=
  match (d.csq p).cap with
  | none => d
  | some b =>
    let d1 := d.upCsq p (fun C => { C with cap := none })
    let q := tget (fun _ => []) d.capQ (p / 8)
    if d.localMode || decide (8 ≤ q.length) then d1.dropBlock b.site p
    else
      let b' := { b with gap := (d.csq p).gap, no := d.capNo }
      { d1.upCsq p (fun C => { C with gap := false }) with
        capNo := d.capNo + 1, capQ := tset (fun _ => []) d1.capQ (p / 8) (q ++ [b']) }

/-- The CSQ of pin `p` has taken a reading (R201). -/
def Dev.tookReading (d : Dev) (p : Nat) (r : Option Nat) : Dev :=
  if r.isSome then d.upCsq p (fun C => { C with prevRead := r }) else d

/-- A captured vector's readings enter the pin's block (R224, R225). -/
def Dev.capture (d : Dev) (n p : Nat) (e : Exp) (rs : List Nat) : Dev :=
  let isB : Bool := e.acts == Code.B
  let want : Bool := rs != [] && (e.acts == 8 || (e.expects && (e.capt || d.on .PIN_FAIL_CTRL_CAPALL p)))
  if !want then d
  else
    let d1 := match (d.csq p).cap with
      | some b => if b.last + 1 = e.vcount ∧ b.burst = isB then d else d.closeCap p
      | none => d
    let b := match (d1.csq p).cap with
      | some b => { b with last := e.vcount, data := b.data ++ rs }
      | none => ⟨0, p, n, e.vcount, e.waddr, e.vcount, isB, rs, false⟩
    let d2 := d1.upCsq p (fun C => { C with cap := some b })
    if 192 ≤ b.data.length then d2.closeCap p else d2

/-! ## Judging a vector -/

/-- A fail of entry `e` with ACTUAL `a` at `close` (R205, R221 to R223). -/
def Dev.failNow (d : Dev) (n p : Nat) (e : Exp) (a : Nat) (close : Int) : Dev :=
  let c := d.rd .PIN_FAIL_COUNT_COUNT p
  let first : Bool := !d.on .PIN_FAIL_FIRST_VALID p
  let d1 := (d.wr .PIN_FAIL_COUNT_COUNT p (c + 1)).upSite n (fun S => { S with fails := S.fails + 1 }) |>.tally 0x11 n 1
  let d2 := if first then
      (((d1.set1 .PIN_FAIL_FIRST_VALID p).wr .PIN_FAIL_FIRST_VCOUNT p e.vcount).wr .PIN_FAIL_FIRST_ADDR_SEQADDR p e.waddr).wr
        .PIN_FAIL_FIRST_TIME_T p (closeTick close)
    else d1
  let d3 := if (d.site n).anyfail then d2
    else (d2.upSite n (fun S => { S with anyfail := true })).postCond n 1 true (closeTick close)
  let m := (d.csq p).mode
  let write : Bool :=
    if m = 1 then first
    else if m = 2 then decide (c < max 1 (d.rd .PIN_FAIL_CTRL_LIMIT p))
    else m != 3
  let d4 := if write then
      d3.queueRec n p close (failBits e.vcount p n e.code a e.tset (b2n first) e.waddr)
    else d3
  if m = 4 then d4.upSite n (fun S => { S with failStop := some (S.failStop.getD (closeTick close + ns 96)) }) else d4

/-- The lock of pin `p` is lost at entry `e` (R210). -/
def Dev.loseLock (d : Dev) (n p : Nat) (e : Exp) (a : Nat) (close : Int) : Dev :=
  let d1 := d.queueRec n p close (failBits e.vcount p n e.code a e.tset 5 e.waddr)
  ((d1.set1 .PIN_CMP_STATUS_LOSS p).raise 0x241 p).setLstate n p 5 close

/-- The row of failing vectors of a LOCKED pin (R210). -/
def Dev.countLoss (d : Dev) (n p : Nat) (e : Exp) (a : Nat) (failed : Bool) (close : Int) : Dev :=
  if d.rd .PIN_CMP_STATUS_LSTATE p = 2 ∧ !e.maskf ∧ e.acts ≠ 11 ∧ e.acts ≠ 12 then
    let k := if failed then (d.csq p).lossRun + 1 else 0
    let d1 := d.upCsq p (fun C => { C with lossRun := k })
    let lim := d.rd .PIN_CMP_CTRL_LOSS_RUN p
    if lim ≠ 0 ∧ lim ≤ k then d1.loseLock n p e a close else d1
  else d

/-- Entry `e` of pin `p` is judged by the readings `rs` at `close` (R201 to R203); the reading before is the last one taken, of a B vector that of its
last unit interval (log entry 105). -/
def Dev.judge (d : Dev) (n p : Nat) (e : Exp) (rs : List Nat) (close : Int) : Dev :=
  if rs = [] ∨ !(readCode e.acts || e.acts == Code.B) then d
  else
    let prev := (d.csq p).prevRead
    let last := rs.getLast?
    let d0 := (d.capture n p e rs).upCsq p (fun C => { C with prevRead := last })
    if e.acts = 11 ∨ e.acts = 12 then
      let ok := passes e.acts (rs.getD 0 1) prev
      d0.upCsq p (fun C => { C with acc := some ((C.acc.getD true) && ok) })
    else if !e.expects then d0
    else
      let bad := if e.acts = Code.B then burstFail e.ui rs
        else if passes e.acts (rs.getD 0 1) prev then none else some (rs.getD 0 1)
      match bad with
      | some a =>
        let d1 := if e.maskf then d0 else d0.failNow n p e a close
        d1.countLoss n p e a true close
      | none => d0.countLoss n p e 0 false close

/-! ## The latency search (R206 to R211) -/

/-- The largest candidate of a search. -/
def Search.top (q : Search) : Nat := min (q.o0 + q.win - 1) 4095

/-- The readings at slot `j` of a search. -/
def Search.at_ (q : Search) (j : Nat) : List Nat := ((q.reads.find? (fun r => r.1 == j)).map (·.2)).getD []

/-- The failing marker vectors at candidate `o` (R207); one whose slot had passed before the search could read it fails (log entry 83). -/
def Search.errs (q : Search) (o : Nat) : List Exp → Option Nat → Nat
  | [], _ => 0
  | e :: t, prev =>
    let rs := e.readings (q.at_ (e.slot + o))
    let bad : Bool := e.cmode != 0 && (if e.acts = Code.B then (burstFail e.ui rs).isSome
      else readCode e.acts && e.acts != 8 && (rs == [] || !passes e.acts (rs.getD 0 1) prev))
    b2n bad + Search.errs q o t (rs.getLast?)

/-- The search of pin `p` ends without a lock (R209). -/
def Dev.noLock (d : Dev) (n p : Nat) (q : Search) (close : Int) : Dev :=
  let tset := (q.marks.head?.map (·.tset)).getD 0
  let d1 := (d.upCsq p (fun C => { C with search := none })).queueRec n p close (failBits q.vcount0 p n 0 0 tset 4 q.top)
  ((d1.set1 .PIN_CMP_STATUS_NOLOCK p).raise 0x240 p).setLstate n p 4 close

/-- The search of pin `p` locks at offset `o` with `k` failing marker vectors (R208). -/
def Dev.lockAt (d : Dev) (n p : Nat) (q : Search) (o k : Nat) (close : Int) : Dev :=
  let tset := (q.marks.head?.map (·.tset)).getD 0
  let lastR := (q.marks.getLast?.map (fun e => (e.readings (q.at_ (e.slot + o))).getLast?)).join
  let d1 := (d.upCsq p (fun C => { C with search := none, lossRun := 0, prevRead := lastR })).queueRec n p close
    (failBits q.vcount0 p n 0 0 tset 3 (o + k * 4096))
  let d2 := (((d1.wr .PIN_CMP_STATUS_OFFSET_NOW p o).wr .PIN_CMP_LOCK_OFFSET p o).wr .PIN_CMP_LOCK_ERRS p k).wr .PIN_CMP_LOCK_VCOUNT p
    q.vcount0
  d2.setLstate n p 2 close

/-- The search takes the reading of slot `j`, of a slot that samples unit intervals that of the last; a candidate may complete (R207 to R209). -/
def Dev.searchSlot (d : Dev) (n p j : Nat) (rs : List Nat) (burst : Bool) (close : Int) : Dev :=
  match (d.csq p).search with
  | none => d
  | some q0 =>
    let q := { q0 with reads := q0.reads ++ [(j, rs)] }
    let d1 := (d.upCsq p (fun C => { C with search := some q })).tookReading p (if burst then rs.getLast? else rs.head?)
    if q.marks.length < q.len then d1
    else
      let lastSlot := (q.marks.getLast?.map (·.slot)).getD 0
      let o := j - lastSlot
      if j < lastSlot + q.o0 then d1
      else
        let k := q.errs o q.marks q.prev
        if q.top < o then d1.noLock n p q close
        else if k ≤ d.rd .PIN_CMP_CTRL_ERRMAX p then d1.lockAt n p q o k close
        else if q.top ≤ o then d1.noLock n p q close
        else d1

/-- A STAMP word acts on pin `p` at slot start `t` (R241): it selects for the pin's open SEQUENCE job; without one it counts in NOJOB
and is noted once per burst. -/
def Dev.stampWord (d : Dev) (p a n t : Nat) : Dev :=
  let mine := fun (j : Job) => j.stop.isNone && j.inputs == [2 * p, 2 * p + 1] && (match d.entry? j.e with
    | some x => descField x.desc 48 4 3 == 4
    | none => false)
  if d.tmu.jobs.any mine then
    { d with tmu := { d.tmu with jobs := d.tmu.jobs.map (fun j =>
        if mine j then { j with sels := j.sels ++ [⟨t, bits a 0 2, bits a 2 2, n⟩] } else j) } }
  else
    let d1 := d.count .PIN_TM_STATUS_NOJOB p 1
    if bitAt (d1.csq p).once 2 then d1 else (d1.upCsq p (fun C => { C with once := setBit C.once 2 true })).raise 0x280 (2 * p + b2n (bits a 0 2 == 2))

/-- A control entry acts (R131, R132, R206, R211, R221, R241); `e` is the vector it is attached to. The second part: o returns
to PIN_CMP_CTRL.OFFSET from the next vector. -/
def Dev.ctlAct (d : Dev) (n p : Nat) (e : Exp) (t : Int) (c : Ctl) : Dev :=
  let a := c.a16
  if c.op = 0x19 then d.stampWord p a c.a32 (d.csq p).slotT
  else if c.op = 0x1C then d.upCsq p (fun C => { C with mode := bits a 0 4 })
  else
    let st := d.rd .PIN_CMP_STATUS_LSTATE p
    match bits a 14 2 with
    | 0 =>
      let q : Search := { o0 := d.rd .PIN_CMP_STATUS_OFFSET_NOW p, win := bits a 0 13, len := c.a32, slot0 := e.slot, vcount0 := e.vcount
                          marks := [], reads := [], prev := (d.csq p).prevRead }
      (d.upCsq p (fun C => { C with search := some q })).setLstate n p 1 t
    | 1 => if st = 2 then d.setLstate n p 3 t else d
    | _ => (d.upCsq p (fun C => { C with search := none })).setLstate n p 0 t

/-- Whether an entry's control entries release the lock: then o returns after it (R211). -/
def Exp.releases (e : Exp) : Bool := e.ctl.any (fun c => c.op == 0x1B && bits c.a16 14 2 == 2)

/-- Entry `e` is taken at `close` with the readings `rs`; `behind`: its judging slot has passed (R198). Codes l and h stay out of the match accumulator
(log entry 106). SSI 4.2's routine of it is complete (R82). -/
def Dev.takeExp (d : Dev) (n p : Nat) (e : Exp) (rs : List Nat) (close : Int) (behind : Bool) : Dev :=
  let d1 := e.ctl.foldl (fun d c => d.ctlAct n p e close c) d
  let st := d1.rd .PIN_CMP_STATUS_LSTATE p
  let skip := fun (d : Dev) =>
    let d3 := (d.unjudged p e).set1 .PIN_CMP_STATUS_SKIP p
    if bitAt (d3.csq p).once 0 then d3 else (d3.upCsq p (fun C => { C with once := setBit C.once 0 true })).raise 0x244 p
  let d2 :=
    match (d1.csq p).search with
    | some q =>
      if q.slot0 ≤ e.slot ∧ q.marks.length < q.len then
        (if behind then skip d1 else d1.capture n p e rs).upCsq p (fun C => { C with search := some { q with marks := q.marks ++ [e] } })
      else if behind then skip d1 else d1.judge n p e rs close
    | none =>
      if st = 4 ∨ st = 5 then (if behind then d1.unjudged p e else ((d1.capture n p e rs).tookReading p rs.getLast?).unjudged p e)
      else if behind then skip d1
      else d1.judge n p e rs close
  let d3 := (if e.wordEnd then d2.publish n p close else d2).upCsq p (fun C => { C with wordOpen := C.micro && C.wordOpen })
  if e.releases then d3.wr .PIN_CMP_STATUS_OFFSET_NOW p (d3.rd .PIN_CMP_CTRL_OFFSET p) else d3

/-! ## The slots -/

/-- The entries whose judging slots have passed are taken (R198), at most `k`. -/
def Dev.takeBehind (d : Dev) (n p j : Nat) (close : Int) : Nat → Dev
  | 0 => d
  | k + 1 =>
    match (d.csq p).exps with
    | [] => d
    | e :: t =>
      if e.slot + d.rd .PIN_CMP_STATUS_OFFSET_NOW p < j ∧ !(d.csq p).waits e then
        Dev.takeBehind ((d.upCsq p (fun C => { C with exps := t })).takeExp n p e [] close true) n p j close k
      else d

/-- The marker that rules the strobes once entry `e` has been taken: an ARM among its control entries makes it the marker, a RELEASE ends the
search (R206, R211). -/
def Exp.marker (e : Exp) (m : Option Exp) : Option Exp :=
  e.ctl.foldl (fun m c => if c.op = 0x1B then (match bits c.a16 14 2 with | 0 => some e | 1 => m | _ => none) else m) m

/-- The entry that the CSQ of pin `p` takes in slot `j`: SSI 4.2 takes the head of the elastic FIFO there; an image's microcode may reach the entry
later than its slot (R198). -/
def Dev.slotHead (d : Dev) (p j : Nat) : Option Exp :=
  let C := d.csq p
  ((if C.micro then C.exps else C.exps.take 1).find? (fun e => e.slot + d.rd .PIN_CMP_STATUS_OFFSET_NOW p == j)).filter (fun e => !C.waits e)

/-- The timing of the strobe in slot `j` and whether a search reads it: a search's marker set rules it, else the vector judged there
(R195, R206). -/
def Dev.slotExp (d : Dev) (p j : Nat) : Option (Exp × Bool) :=
  let m := (d.csq p).search.bind (fun q => q.marks.head?)
  match d.slotHead p j with
  | some e => match e.marker m with
    | some x => some (x, true)
    | none => some (e, false)
  | none => m.map (fun x => (x, true))

/-- Slot `j` samples unit intervals: a B vector is judged there, or a search with a B vector among its marker reads it (R183, R207). -/
def Dev.slotBurst (d : Dev) (p j : Nat) (m : Exp) (search : Bool) : Bool :=
  m.cmode != 0 && (((d.slotHead p j).map (fun e => e.acts == Code.B)).getD false ||
    (search && (match (d.csq p).search with | some q => q.marks.any (fun e => e.acts == Code.B) | none => false)))

/-- A word end that came after its last vector was taken acts at the start of the next slot (R194; log entry 107). -/
def Dev.lateEnd (d : Dev) (n p : Nat) (close : Int) : Dev :=
  if (d.csq p).endNow then (d.upCsq p (fun C => { C with endNow := false })).publish n p close else d

/-- A paused site's CSQ takes PAUSE once it has judged every vector driven before the pause (R83). -/
def Dev.csqPause (d : Dev) (n p : Nat) : Dev :=
  if d.siteState n = SiteState.PAUSED ∧ (d.csq p).exps = [] ∧ !(d.csq p).paused then
    (d.upCsq p (fun C => { C with paused := true })).raiseCsq p 1
  else d

/-- What the CSQ of pin `p` does with the readings of slot `j`: SSI 4.2 takes the entry there; an image's own microcode finds them when it
judges (R76). -/
def Dev.slotTake (d : Dev) (n p j : Nat) (rs : List Nat) (close : Int) : Dev :=
  if (d.csq p).micro then d.upCsq p (fun C => { C with samples := ((j, rs, close) :: C.samples).take 4096 })
  else match d.slotHead p j with
    | some e => (d.upCsq p (fun C => { C with exps := C.exps.drop 1 })).takeExp n p e (e.readings rs) close false
    | none => d

/-- The strobe of pin `p`'s next judging slot closes (R195 to R210). -/
def Dev.strobe (d : Dev) (p : Nat) (rd : List (Bool × Bool)) (unstable : Bool) : Dev :=
  match d.siteOf p with
  | none => d
  | some n =>
    match d.slotStart n p with
    | none => d
    | some S =>
      let j := (d.csq p).nextSlot
      let F := (d.csq p).fine
      let done := fun (d : Dev) => (d.upCsq p (fun C => { C with nextSlot := j + 1, slots := C.slots.filter (fun s => decide (j < s.1)) })).csqPause n p
      if d.bed < S then d
      else
        let d0 := (d.upCsq p (fun C => { C with slotT := S })).lateEnd n p S
        let d1 := if (d0.csq p).micro then d0 else d0.takeBehind n p j S 4096
        match d1.slotExp p j with
        | none => done (d1.slotTake n p j [] S)
        | some (m, search) =>
          let burst := d1.slotBurst p j m search
          let oc := m.strobes S F burst
          if (d.bed : Int) < lastCloseOf oc then d
          else
            let takes : Bool := m.cmode != 0 && (search || readCode m.acts || m.acts == Code.B)
            let r := if takes then d1.strobeAt p oc else (d1, lastCloseOf oc)
            let rs := if takes then slotRead m rd unstable burst else []
            let seen := if burst then rd.take 4 else if m.cmode = 2 then rd else rd.take 1
            let d2 := if takes then r.1.contra p seen else r.1
            done ((d2.slotTake n p j rs r.2).searchSlot n p j rs burst r.2)

/-- The compare side of pin `p` at the start of a burst (R197, R221, R223). -/
def Dev.csqStart (d : Dev) (p : Nat) : Dev :=
  let m := d.rd .PIN_FAIL_CTRL_MODE p
  let d1 := d.upCsq p (fun C => { gap := C.gap, mode := if 4 < m then 0 else m, micro := C.micro, upc := C.upc, macc := C.macc, yields := C.yields
                                  freeAt := C.freeAt, cur := C.cur, wordOpen := C.wordOpen, irqs := C.irqs, link := C.link, linkY := C.linkY, hand := C.hand
                                  ret := C.ret, dead := C.dead, maskOn := C.maskOn, fine := sgn 16 (d.rd .PIN_CMP_FINE_F p) })
  let d2 := (((d1.wr .PIN_CMP_STATUS_OFFSET_NOW p (d.rd .PIN_CMP_CTRL_OFFSET p)).wr .PIN_CMP_STATUS_LSTATE p 0).wr
    .PIN_CMP_STATUS_UNJUDGED p 0).wr .PIN_FAIL_COUNT_COUNT p 0
  (((d2.clr .PIN_FAIL_FIRST_VALID p).wr .PIN_FAIL_FIRST_VCOUNT p 0).wr .PIN_FAIL_FIRST_ADDR_SEQADDR p 0).wr .PIN_FAIL_FIRST_TIME_T p 0

/-! ## The Fail Record Store (R215 to R217) -/

/-- Store records in use. -/
def Dev.frUsed (d : Dev) : Nat := (d.failSites.map (fun f => f.2.store.length)).sum

/-- The store share of site `n`. -/
def Dev.quota (d : Dev) (n : Nat) : Nat := min (d.rd .FR_SITE_QUOTA_RECORDS n) 524288

/-- The spill of site `n` is in use (R215, R216). -/
def Dev.spillOn (d : Dev) (n : Nat) : Bool := d.on .FR_SITE_CTRL_SPILL_EN n && !d.localMode

/-- Where a record of site `n` goes: the store, the spill, or nowhere (R216). -/
inductive FrPlace where
  | store | spill | none
  deriving DecidableEq, Repr

/-- The place of the next record of site `n`; `ks`, `kp`: whether the last place of the store share and of the spill region may be taken. -/
def Dev.frPlace (d : Dev) (n : Nat) (ks kp : Bool) : FrPlace :=
  let F := d.failSite n
  if !F.spilling && decide (F.store.length + b2n (!ks) < d.quota n) && decide (d.frUsed < 524288) then .store
  else if d.spillOn n && decide (F.spilled + b2n (!kp) < d.rd .FR_SITE_SPILL_SIZE_RECORDS n) then .spill
  else .none

/-- A record of site `n` takes place `pl`. -/
def Dev.putRec (d : Dev) (n rec_ : Nat) (close : Int) (pl : FrPlace) : List Put × Dev :=
  let F := d.failSite n
  let cnt := fun (d : Dev) => d.wr .FR_SITE_RECORDS_COUNT n (d.rd .FR_SITE_RECORDS_COUNT n + 1)
  match pl with
  | .store => ([], cnt (d.upFailSite n (fun F => { F with store := F.store ++ [rec_] })))
  | .spill =>
    let a := d.rd .FR_SITE_SPILL_BASE_ADDR n * 16 + 16 * F.spilled
    ([.hbm a (bytesOf 16 rec_)], (cnt (d.upFailSite n (fun F => { F with spilled := F.spilled + 1, spilling := true }))).hbm true (.spill n) a 16)
  | .none => ([], d.dropRec n rec_ close)

/-- The mark of the run of drops of site `n` takes its place, a kept one if needed; a run without a place is counted only (R217). -/
def Dev.putMark (d : Dev) (n : Nat) : List Put × Dev :=
  match (d.failSite n).run with
  | none => ([], d)
  | some (r, k, c) =>
    let d1 := d.upFailSite n (fun F => { F with run := none })
    match d.frPlace n true true with
    | .none => ([], d1)
    | pl => d1.putRec n (failBits (bits r 80 48) (bits r 72 8) (bits r 66 6) (bits r 62 4) (bits r 60 2) (bits r 55 5) 2 k) c pl

/-- A run of drops of the record's site comes before it in the sequence (R214, R217). -/
def Dev.runBefore (d : Dev) (r : FailRec) : Bool :=
  match (d.failSite r.site).run with
  | some (x, _, c) => decide (c < r.close) || (c == r.close && decide (bits x 72 8 < r.pin))
  | none => false

/-- A record leaves its queue for the store, the spill or nowhere; where it finds a place behind a run of drops, the mark goes before it
(R215 to R217). A mark that took an ordinary place leaves it the kept one of the same region, so that one place still is a mark's. -/
def Dev.placeRec (d : Dev) (r : FailRec) : List Put × Dev :=
  let pl := d.frPlace r.site false false
  if d.runBefore r ∧ pl ≠ .none then
    let a := d.putMark r.site
    let mk := d.frPlace r.site true true
    let b := a.2.putRec r.site r.data r.close (a.2.frPlace r.site (decide (mk = .store)) (decide (mk = .spill)))
    (a.1 ++ b.1, b.2)
  else d.putRec r.site r.data r.close pl

/-- The record with the earliest strobe close, the lower pin among equals (R214). -/
def earliest : List FailRec → Option FailRec
  | [] => none
  | r :: t => some (t.foldl (fun m x => if x.close < m.close ∨ (x.close = m.close ∧ x.pin < m.pin) then x else m) r)

/-- `k` records move. -/
def Dev.transfer : Nat → List Put → Dev → List Put × Dev
  | 0, w, d => (w, d)
  | k + 1, w, d =>
    match earliest (d.failQ.flatMap (·.2)) with
    | none => (w, d)
    | some r =>
      let q := tget (fun _ => []) d.failQ (r.pin / 8)
      let d1 := { d with failQ := tset (fun _ => []) d.failQ (r.pin / 8) (q.erase r) }
      let x := d1.placeRec r
      Dev.transfer k (w ++ x.1) x.2

/-- The oldest closed block. -/
def oldestBlock : List CapBlock → Option CapBlock
  | [] => none
  | b :: t => some (t.foldl (fun m x => if x.no < m.no then x else m) b)

/-- The bits of a capture block (R224). -/
def CapBlock.bits_ (b : CapBlock) : Nat :=
  (b.data.zip (List.range b.data.length)).foldl (fun v x => v + x.1 % 4 * 2 ^ (128 + 2 * x.2)) 0 +
    b.vcount % 2 ^ 48 * 2 ^ 80 + b.pin % 256 * 2 ^ 72 + b.site % 64 * 2 ^ 66 + b2n b.gap * 2 ^ 65 + b2n b.burst * 2 ^ 64 +
    b.data.length % 256 * 2 ^ 56 + b.waddr % 2 ^ 32

/-- The oldest closed block is written (R226). -/
def Dev.writeBlock (d : Dev) : List Put × Dev :=
  match oldestBlock (d.capQ.flatMap (·.2)) with
  | none => ([], d)
  | some b =>
    let q := tget (fun _ => []) d.capQ (b.pin / 8)
    let d1 := { d with capQ := tset (fun _ => []) d.capQ (b.pin / 8) (q.erase b) }
    let k := (d.failSite b.site).blocks
    if k < d.rd .FR_SITE_CAP_SIZE_BLOCKS b.site then
      let a := d.rd .FR_SITE_CAP_BASE_ADDR b.site * 64 + 64 * k
      let d2 := (d1.upFailSite b.site (fun F => { F with blocks := F.blocks + 1 })).wr .FR_SITE_CAPTURED_COUNT b.site (k + 1)
      ([.hbm a (bytesOf 64 b.bits_)], (d2.count .PIN_CAP_COUNT_BLOCKS b.pin 1).hbm true (.capture b.site) a 64)
    else ([], d1.dropBlock b.site b.pin)

/-- The records and capture blocks of site `n` are discarded (R218). -/
def Dev.frClear (d : Dev) (n : Nat) : Dev :=
  ((d.upFailSite n (fun _ => {})).wr .FR_SITE_RECORDS_COUNT n 0).wr .FR_SITE_CAPTURED_COUNT n 0

/-! ## The end of a burst -/

/-- Every member's judgements are made, and nothing of the site waits in a queue (R49, R52, R219). -/
def Dev.compareDone (d : Dev) (n : Nat) : Bool :=
  (d.members n).all (fun p => (d.csq p).exps.isEmpty &&
    (match (d.csq p).search with | some q => decide (q.marks.length < q.len) | none => true))

/-- What of site `n` waits in the queues. -/
def Dev.queuesEmpty (d : Dev) (n : Nat) : Bool :=
  d.failQ.all (fun q => q.2.all (fun r => r.site != n)) && d.capQ.all (fun q => q.2.all (fun b => b.site != n))

/-- The end of the drain: searches that cannot complete end (R206), open blocks close (R225). -/
def Dev.closeOut (d : Dev) (n : Nat) : Dev :=
  (d.members n).foldl (fun d p =>
    let d1 := match (d.csq p).search with
      | some q => if (d.site n).csqStop then d.upCsq p (fun C => { C with search := none }) else d.noLock n p q d.bed
      | none => d
    (d1.lateEnd n p d.bed).closeCap p) d

/-! ## The commands -/

/-- STROBE. -/
def execStrobe (p : Nat) (reading : List (Bool × Bool)) (unstable : Bool) (s : State) : Host.Outcome State Fault Refusal :=
  guardUnit (decide (p < 256)) (s.onDev (fun d => d.strobe p reading unstable))

/-- FAIL_RECORD_TRANSFER (R214). -/
def execFailRecordTransfer (s : State) : Host.Outcome State Fault Refusal :=
  guardUnit true (s.onMem (fun _ d => Dev.transfer 4 [] d))

/-- CAPTURE_BLOCK_WRITE (R226). -/
def execCaptureBlockWrite (s : State) : Host.Outcome State Fault Refusal :=
  guardUnit true (s.onMem (fun _ d => d.writeBlock))

end Sys2Proof.Machine
end

