-- ==== Sys2Proof/Machine/Sequencer.lean ====
section
/-!
DEFINITION. What the meanings of the sequence words share (R102 to R141): taking a word, completing it, transfers of
control, placing vectors in the Vector FIFOs, the boundary S and the decision cycle.
-/
namespace Sys2Proof.Machine

/-! ## Boundaries -/

/-- The Bedrock time at which the vector after those in pin `p`'s FIFO would begin. -/
def Dev.pinS (d : Dev) (p : Nat) : Nat :=
  (d.pin p).fifo.foldl (fun t v => (v.grid.getD t) + d.period p v.tset) (d.pin p).tNext

/-- S of the next vector of lane `l` (R112), known once the site has its start time. A word behind an RDV with no vector between has the grid point as its S
(log entry 93). -/
def Dev.laneS (d : Dev) (l : Nat) : Option Nat :=
  match d.laneSite l, d.lanePin l with
  | some n, some p =>
    if (d.site n).start.isSome then some ((d.lane l).gridNext.getD (d.pinS p)) else none
  | _, _ => none

/-- The first tick of the decision cycle of boundary `S`: the engine cycle that contains S − 32 ns (R112). -/
def decisionAt (S : Nat) : Nat := (S - ns 32) / cycleTicks * cycleTicks

/-! ## Words -/

/-- The entry of OP `op` in the DSQ dispatch table that lane `l` reads (R77). -/
def Dev.dsqEntry (d : Dev) (l op : Nat) : Nat := d.cs.read (d.laneCopy l) 2 op

/-- OP `op` is valid in the DSQ table that lane `l` reads (R77). -/
def Dev.opValid (d : Dev) (l op : Nat) : Bool := bitAt (d.dsqEntry l op) 15

/-- A site's sequencers execute words in these states. -/
def Dev.laneLive (d : Dev) (l : Nat) : Bool :=
  match d.laneSite l with
  | some n => (d.siteState n == SiteState.PREPARING || d.siteState n == SiteState.ARMED || d.siteState n == SiteState.RUNNING)
      && (decide (l < 64) || (d.isMember n (l - 64) && d.isPrivate n (l - 64)))
  | none => false

/-- The time at which the vector at the heads of site `n`'s FIFOs begins, while the site waits for a known start: vectors
leave the FIFO from 12 ns before it, and a STOP discards them (R51, R109). -/
def Dev.startsAt (d : Dev) (n : Nat) : Option Nat :=
  if d.siteState n = SiteState.PREPARING ∨ d.siteState n = SiteState.ARMED then (d.site n).start
  else if d.siteState n = SiteState.PAUSED then (d.site n).resumeAt
  else none

/-- A resumed site's sequencers go on when its first vector launches, 12 ns before it begins (R50, R109). -/
def Dev.resuming (d : Dev) (n : Nat) : Bool :=
  d.siteState n == SiteState.PAUSED && ((d.site n).resumeAt.map (fun t => decide (t ≤ d.bed + ns 12))).getD false

/-- The sequencer of lane `l` fills its FIFOs; from the raise of an ABORT on its emissions are discarded (R84). -/
def Dev.laneFeeds (d : Dev) (l : Nat) : Bool :=
  (d.laneLive l || ((d.laneSite l).map d.resuming).getD false) && !(d.lane l).irqs.any (·.1 == 0) && (d.lane l).hand != some 0

/-- The vectors of `fifo`, the first of which begins at `t`, that have not launched (R109). -/
def Dev.unlaunched (d : Dev) (p t : Nat) : List Vec → Nat
  | [] => 0
  | v :: r => if v.seam = 0 ∧ v.grid.isNone ∧ t ≤ d.bed + ns 12 then d.unlaunched p (t + d.period p v.tset) r else r.length + 1

/-- The Vector FIFO of pin `p` holds this many vectors (R109). -/
def Dev.fifoLevel (d : Dev) (p : Nat) : Nat :=
  match (d.siteOf p).bind d.startsAt with
  | some t => d.unlaunched p t (d.pin p).fifo
  | none => (d.pin p).fifo.length

/-- Lane `l` can take its next word now: the sequencer stands at a dispatch of SSI 4.2 and the word has been delivered (R103). -/
def Dev.canTake (d : Dev) (l : Nat) : Bool :=
  let L := d.lane l
  d.laneFeeds l && L.phase == .ready && L.fault.isNone && L.upc.isNone && decide (L.freeAt ≤ d.bed) && decide (L.waddr < L.len) &&
    d.held l L.waddr

/-- Lane `l` takes the word with opcode `op`, if that is its next word and the sequencer runs SSI 4.2: an extension word beyond the program
is BAD_TARGET (R105), one not yet delivered is waited for (R103); otherwise `f` is what the word does. -/
def onWord (op : Nat) (f : Mems → Dev → Nat → Nat → Dev) (m : Mems) (d : Dev) (l : Nat) : Dev :=
  if d.canTake l then
    let w := Dev.curWord m d l
    if wOp w = op ∧ d.opValid l op ∧ d.native l then
      let d1 := d.upLane l (fun L => { L with complete := false })
      if wXw w then
        if (d.lane l).len ≤ (d.lane l).waddr + 1 then d1.laneFault l 2
        else if d.held l ((d.lane l).waddr + 1) then f m d1 l w else d
      else f m d1 l w
    else d
  else d

/-- The blocking action of a routine of the image is done: the microword passes to NEXT (R80), the next microword a microcycle later (R73). -/
def Dev.microDone (d : Dev) (l : Nat) : Dev :=
  d.upLane l (fun L => { L with phase := .ready, left := 0, wait := 0, asOp := none, yields := false, freeAt := max L.freeAt (d.bed + cycleTicks)
                                upc := L.upc.map (fun a => bits (d.cs.read (d.laneCopy l) 0 a) 7 14) })

/-- The last vector that lane `l`'s word has placed ends the word (R194). Where it has left the FIFO already, its entry in the elastic FIFO
carries the mark, and where that is taken too, the CSQ acts on it at once; `pub` publishes. -/
def Dev.markWordEnd (d : Dev) (l : Nat) : Dev :=
  if (d.lane l).wordVecs = 0 then d
  else (d.lanePins l).foldl (fun d p =>
    if (d.pin p).fifo ≠ [] then
      d.upPin p (fun P => { P with fifo := P.fifo.dropLast ++ (P.fifo.getLast?.map (fun v => { v with endMatch := true })).toList })
    else d.upCsq p (fun C => { C with exps := C.exps.dropLast ++ (C.exps.getLast?.map (fun e => { e with wordEnd := true })).toList
                                      endNow := C.exps.isEmpty })) d

/-- Lane `l` continues at word `t`; a program run past its end is BAD_TARGET (R104). The word took `cost` microcycles, and
one more for an extension word (R116). A word with SEAMOK that emits no vector asks for its seam at the boundary of the next vector
(R136; log entry 77). -/
def Dev.wordTo (d : Dev) (l w t cost : Nat) : Dev :=
  if (d.lane l).upc.isSome then d.microDone l
  else
  let d1 := (d.upLane l (fun L =>
    { L with phase := .ready, complete := true, waddr := t, left := 0, wait := 0, wordVecs := 0
             freeAt := d.bed + (cost + b2n (wXw w)) * cycleTicks, costs := L.costs + (cost + b2n (wXw w)) * cycleTicks
             seamNext := if wSeamok w && L.seamNext == 0 then 1 else L.seamNext })).fillWindow l
  if (d.lane l).len ≤ t then d1.laneFault l 2 else d1

/-- The word is complete and the next word follows. -/
def Dev.wordDone (d : Dev) (l w cost : Nat) : Dev := d.wordTo l w (nextWaddr w (d.lane l).waddr) cost

/-- Control passes to word `t` (R104). -/
def Dev.wordJump (d : Dev) (l w t cost : Nat) : Dev :=
  match targetFault (d.lane l).len (d.lane l).waddr t with
  | some v => d.laneFault l v
  | none => d.wordTo l w t cost

/-! ## Placing vectors -/

/-- The vector that lane `l` emits with code `code` (R119): what its word and the pending attachments give it. -/
def Lane.vecOf (L : Lane) (w code ui tset : Nat) (burst bad : Bool) : Vec :=
  { code := code, ui := ui, burst := burst, tset := tset, waddr := L.waddr, op := wOp w, capt := wCapt w, maskf := wMaskf w
    stretch := wStretch w, counts := true, seam := L.seamNext, grid := L.gridNext, ctl := L.ctlNext, marks := L.marksNext
    bad := bad, endMatch := L.left == 1 && L.kind != .k || L.left == 1 && wOp w == 0x1D && L.asOp.isNone
    enter := L.placeT + L.placeK / 4 * cycleTicks, late := L.heldData, word := w }

/-- Pin `p` draws and places one vector of the action in hand; none while its data is missing. Only a vector drawn from the stream can be in error
(R149; log entry 102). An image that repeats before any vector
of the burst repeats the idle code (log entry 74). -/
def Dev.placePin (m : Mems) (w : Nat) (L : Lane) (p : Nat) (d : Dev) : Option Dev :=
  let P := d.pin p
  let push := fun (d : Dev) (v : Vec) => d.upPin p (fun P => { P with fifo := P.fifo ++ [v], lastVec := some v })
  let draw := fun (keep : Bool) =>
    match Dev.peek m d p with
    | (.missing, _) => none
    | (.bad, _) => some (push d (L.vecOf w Code.X 0 (wTset w) false true))
    | (.ok code side ui burst, pos) =>
      let k := if L.kind = .side then (wTset w + side) % 32 else wTset w
      let v := L.vecOf w code ui k burst false
      let d1 := push (Dev.drewAt m d p pos) v
      some (if keep then d1.upPin p (fun P => { P with rep := some v }) else d1)
  let idle := L.vecOf w (d.idleCode p) 0 (wTset w) false false
  match L.kind with
  | .stream => draw false
  | .side => draw false
  | .repeat_ =>
    if L.upc.isSome then
      some (push d (match P.lastVec with
        | some r => L.vecOf w r.code r.ui r.tset r.burst false
        | none => idle))
    else match P.rep with
    | some r => some (push d (L.vecOf w r.code r.ui r.tset r.burst false))
    | none => draw true
  | .idle => some (push d idle)
  | .k => some (push d (L.vecOf w Code.K 0 (wTset w) false false))

/-- Every pin of the lane places its vector, or none does. -/
def Dev.placePins (m : Mems) (w : Nat) (L : Lane) : List Nat → Dev → Option Dev
  | [], d => some d
  | p :: t, d =>
    match Dev.placePin m w L p d with
    | some d1 => Dev.placePins m w L t d1
    | none => none

/-- What an emitting word costs beside ⌈N/4⌉ (R116): MATCH 3, SEAM 2, the others 1. -/
def emitBase (op : Nat) : Nat := if op = 0x10 then 3 else if op = 0x1D then 2 else 1

/-- The cost of an emitting word (R116): MATCH pays 3 + ⌈L/4⌉ a pass, SEAM 2 + ⌈N/4⌉, the others 1 + ⌈N/4⌉. -/
def emitCost (op n : Nat) : Nat := emitBase op + (n + 3) / 4

/-- The pins of a lane whose next vector's data is missing (R163). -/
def Dev.missing (m : Mems) (d : Dev) (l : Nat) : List Nat :=
  (d.lanePins l).filter (fun p => (Dev.peek m d p).1 == .missing)

/-- The emitting action of lane `l` has placed its last vector. -/
def Dev.placed (d : Dev) (l w : Nat) : Dev :=
  let op := wOp w
  let d1 := (d.lanePins l).foldl (fun d p => d.upPin p (fun P => { P with rep := none })) d
  if (d1.lane l).upc.isSome ∧ (d1.lane l).asOp.isNone then d1.microDone l
  else if op = 0x10 then d1.upLane l (fun L => { L with phase := .passEnd })
  else if op = 0x11 ∨ op = 0x12 ∨ op = 0x13 then d1.upLane l (fun L => { L with phase := .wait })
  else
    let L0 := d1.lane l
    (d1.wordDone l w 0).upLane l (fun L => { L with freeAt := max L0.freeAt L.freeAt, costs := L0.costs })

/-- Lane `l` places vectors while its FIFOs have room and its data is there (R109, R110): at most `k`, four to an engine cycle. -/
def Dev.place (m : Mems) (l : Nat) : Nat → Dev → Dev
  | 0, d => d
  | k + 1, d =>
    let L := d.lane l
    if L.phase = .emit ∧ L.left ≠ 0 ∧ d.laneFeeds l then
      let w := Dev.curWord m d l
      if ((d.lanePin l).map d.fifoLevel).getD 64 < 64 then
        match Dev.placePins m (Dev.word m d l L.waddr) L (d.lanePins l) d with
        | none => d.upLane l (fun L => { L with held := true, heldData := (Dev.missing m d l).head? })
        | some d1 =>
          let d2 := d1.upLane l (fun L =>
            { L with left := L.left - 1, emitted := L.emitted + 1, wordVecs := L.wordVecs + 1, lastOp := wOp w, seamNext := 0, gridNext := none
                     ctlNext := [], marksNext := [], placeK := L.placeK + 1
                     freeAt := max L.freeAt (L.placeT + (L.placeK / 4 + 1) * cycleTicks) })
          if L.left = 1 then d2.placed l w else Dev.place m l k d2
      else d.upLane l (fun L => { L with held := true, heldData := none })
    else d

/-- Lane `l`, held up by room or data, goes on placing from Bedrock time `t` (R109, R110); before vector 0 a stream error at the head of a
FIFO acts at once. -/
def Dev.feed (m : Mems) (d : Dev) (l t : Nat) : Dev :=
  let d1 := Dev.place m l 64 (d.upLane l (fun L =>
    if L.held then { L with held := false, placeT := max t (L.placeT + L.placeK / 4 * cycleTicks), placeK := 0 } else L))
  match d.laneSite l with
  | some n => d1.earlyError n
  | none => d1

/-- Lane `l` begins an emitting action of `n` vectors whose first may enter the FIFO at `t`. -/
def Dev.emitFrom (m : Mems) (d : Dev) (l : Nat) (kind : EmitKind) (n t : Nat) : Dev :=
  Dev.feed m (d.upLane l (fun L => { L with phase := .emit, kind := kind, left := n, placeT := t, placeK := 0, held := false, heldData := none })) l t

/-- Lane `l` executes an emitting word of `n` vectors; of none, the word is done at once (R118). The test of a MATCH comes after the pass. -/
def Dev.emitN (m : Mems) (d : Dev) (l w : Nat) (kind : EmitKind) (n : Nat) : Dev :=
  if n = 0 then d.wordDone l w (if wOp w = 0x1D then 2 else 1)
  else
    let test := if wOp w = 0x10 then 2 else 0
    let c := (emitCost (wOp w) n - test + b2n (wXw w)) * cycleTicks
    Dev.emitFrom m (d.upLane l (fun L => { L with freeAt := d.bed + c, costs := L.costs + c })) l kind n
      (d.bed + (emitBase (wOp w) - test + b2n (wXw w)) * cycleTicks)

/-! ## Synchronised words -/

/-- When lane `l`'s synchronised word acts for boundary `S`: the first of a group in the decision cycle, a later one after the
word before it (R113). -/
def Dev.actAt (d : Dev) (l S : Nat) : Nat :=
  let L := d.lane l
  if L.groupS = some S then max L.groupAt L.freeAt else decisionAt S

/-- Lane `L` reaches the group of boundary `S` late (R114): after the group's decision cycle, or with less than c + 12 ns from the boundary of the
group before, c the cost of the words between. -/
def Lane.reachedLate (L : Lane) (S : Nat) : Bool :=
  decide (decisionAt S + cycleTicks ≤ L.freeAt) || (match L.groupS with | some S1 => decide (S < S1 + L.costs + ns 12) | none => false)

/-- The group of word `w` is reached late or cannot complete by S − 20 ns (R113, R114); a word with an extension word costs one more. -/
def Dev.dwells (d : Dev) (l w S : Nat) : Bool :=
  let L := d.lane l
  (L.groupS != some S && L.reachedLate S) ||
    decide (S < d.actAt l S + (2 + b2n (wXw w && wOp w != 0x10)) * cycleTicks + ns 20)

/-- The word of the group has acted. -/
def Dev.groupNext (d : Dev) (l w S : Nat) : Dev :=
  let a := d.actAt l S
  d.upLane l (fun L => { L with groupS := some S, groupAt := a + (2 + b2n (wXw w && wOp w != 0x10)) * cycleTicks })

/-- A synchronised word of lane `l` is done: the words that follow count from here (R114). -/
def Dev.groupDone (d : Dev) (l : Nat) : Dev := d.upLane l (fun L => { L with costs := 0 })

/-- Lane `l` holds its synchronised word for the decision cycle. -/
def Dev.hold (d : Dev) (l : Nat) : Dev := d.upLane l (fun L => { L with phase := .sync, wait := 0, firstAt := none })

end Sys2Proof.Machine
end

