-- ==== Sys2Proof/Machine/Words.lean ====
section
/-!
DEFINITION. The meanings of the sequence words (R118 to R135), of the decision cycle and of the waits. A word command names
the program (lane) that executes its next word; it acts where that word has the command's opcode and the sequencer is free
to take it (log entry 10).
-/
namespace Sys2Proof.Machine

/-- The sequence-word commands name a lane: a site's shared program or a pin's own. -/
def laneOk (l : Nat) : Bool := decide (l < 320)

/-- The shape of a word command. -/
def wordStep (op : Nat) (f : Mems → Dev → Nat → Nat → Dev) (l : Nat) (s : State) : Host.Outcome State Fault Refusal :=
  guardUnit (laneOk l) (s.onDevM (fun m d => onWord op f m d l))

/-! ## Emitting (R118) -/

def wEmit (m : Mems) (d : Dev) (l w : Nat) : Dev := Dev.emitN m d l w .stream (wA32 w)
/-- EMIT (R118). -/
def execEmit (l : Nat) (s : State) : Host.Outcome State Fault Refusal := wordStep 0x01 wEmit l s

def wEmitt (m : Mems) (d : Dev) (l w : Nat) : Dev := Dev.emitN m d l w .side (wA32 w)
/-- EMITT (R118). -/
def execEmitt (l : Nat) (s : State) : Host.Outcome State Fault Refusal := wordStep 0x02 wEmitt l s

def wRepeat (m : Mems) (d : Dev) (l w : Nat) : Dev :=
  Dev.emitN m ((d.lanePins l).foldl (fun d p => d.upPin p (fun P => { P with rep := none })) d) l w .repeat_ (wA32 w)
/-- REPEAT (R118). -/
def execRepeat (l : Nat) (s : State) : Host.Outcome State Fault Refusal := wordStep 0x03 wRepeat l s

def wIdle (m : Mems) (d : Dev) (l w : Nat) : Dev := Dev.emitN m d l w .idle (wA32 w)
/-- IDLE (R118). -/
def execIdle (l : Nat) (s : State) : Host.Outcome State Fault Refusal := wordStep 0x04 wIdle l s

/-! ## Loops, calls, jumps (R121 to R125) -/

/-- Counter `c` of a lane. -/
def Lane.counter (L : Lane) (c : Nat) : Nat := tget (fun _ => 0) L.cnt c
/-- Register `r` of a lane. -/
def Lane.reg (L : Lane) (r : Nat) : Nat := tget (fun _ => 0) L.gr r
/-- Counter `c` set. -/
def Dev.setCnt (d : Dev) (l c v : Nat) : Dev := d.upLane l (fun L => { L with cnt := tset (fun _ => 0) L.cnt c (v % 2 ^ 32) })
/-- Register `r` set. -/
def Dev.setGr (d : Dev) (l r v : Nat) : Dev := d.upLane l (fun L => { L with gr := tset (fun _ => 0) L.gr r (v % 2 ^ 32) })
/-- ACTIVE of counter `c`. -/
def Dev.setAct (d : Dev) (l c : Nat) (b : Bool) : Dev := d.upLane l (fun L => { L with act := setBit L.act c b })

/-- Every pin of the lane marks its stream's position under `k` (R121, R152). -/
def Dev.markPins (d : Dev) (l k : Nat) : Dev :=
  (d.lanePins l).foldl (fun d p => d.upPin p (fun P => { P with marks := tset (fun _ => {}) P.marks k P.pos })) d

/-- Every pin of the lane returns to mark `k`; a hold not released is pinned (R122, R158). -/
def Dev.returnPins (m : Mems) (d : Dev) (l k : Nat) (kind : HoldKind) : Dev :=
  (d.lanePins l).foldl (fun d p =>
    (Dev.repos m d p (tget (fun _ => {}) (d.pin p).marks k) (some (kind, k))).pinHold p kind k) d

/-- The holds of kind `kind` and number `k` end on every pin of the lane (R161). -/
def Dev.endHolds (d : Dev) (l k : Nat) (kind : HoldKind) : Dev :=
  (d.lanePins l).foldl (fun d p => d.endHold p kind k) d

/-- LOOP (R121). -/
def wLoop (m : Mems) (d : Dev) (l w : Nat) : Dev :=
  let c := bits (wA16 w) 0 3
  if bitAt (d.lane l).act c then d.laneFault l 6
  else
    let n := if bitAt (wA16 w) 3 then (d.lane l).reg (bits (wA16 w) 4 2) else wA32 w
    let d1 := if n = 0 then d.seqNote l 12 else d
    let d2 := ((d1.setCnt l c (max n 1)).setAct l c true).markPins l c
    let d3 := (d2.lanePins l).foldl (fun d p => Dev.addHold m d p .loop c) d2
    d3.wordDone l w 2
/-- LOOP. -/
def execLoop (l : Nat) (s : State) : Host.Outcome State Fault Refusal := wordStep 0x08 wLoop l s

/-- ENDLOOP (R122). -/
def wEndloop (m : Mems) (d : Dev) (l w : Nat) : Dev :=
  let c := bits (wA16 w) 0 3
  let L := d.lane l
  if !bitAt L.act c then d.laneFault l 6
  else if 1 < L.counter c then
    match targetFault L.len L.waddr (wA32 w) with
    | some v => d.laneFault l v
    | none => (Dev.returnPins m (d.setCnt l c (L.counter c - 1)) l c .loop).wordTo l w (wA32 w) 2
  else (((d.setCnt l c 0).setAct l c false).endHolds l c .loop).wordDone l w 2
/-- ENDLOOP. -/
def execEndloop (l : Nat) (s : State) : Host.Outcome State Fault Refusal := wordStep 0x09 wEndloop l s

/-- CALL (R123). -/
def wCall (m : Mems) (d : Dev) (l w : Nat) : Dev :=
  let L := d.lane l
  if 16 ≤ L.stack.length then d.laneFault l 4
  else match targetFault L.len L.waddr (wA32 w) with
    | some v => d.laneFault l v
    | none =>
      let x := Dev.xarg m d l
      let depth := L.stack.length
      let d1 := d.upLane l (fun L => { L with stack := (nextWaddr w L.waddr, wXw w) :: L.stack })
      let d2 := (d.lanePins l).foldl (fun d p =>
        let d' := d.upPin p (fun P => { P with stk := (if wXw w then some P.pos else none) :: P.stk })
        if wXw w then Dev.repos m (Dev.addCallHold m d' p depth) p { entry := x } none else d') d1
      d2.wordTo l w (wA32 w) 2
/-- CALL. -/
def execCall (l : Nat) (s : State) : Host.Outcome State Fault Refusal := wordStep 0x0A wCall l s

/-- RET (R123). -/
def wRet (m : Mems) (d : Dev) (l w : Nat) : Dev :=
  let L := d.lane l
  match L.stack with
  | [] => d.laneFault l 5
  | (t, saved) :: rest =>
    match targetFault L.len L.waddr t with
    | some v => d.laneFault l v
    | none =>
      let d1 := d.upLane l (fun L => { L with stack := rest })
      let d2 := (d.lanePins l).foldl (fun d p =>
        let P := d.pin p
        let d' := d.upPin p (fun P => { P with stk := P.stk.drop 1 })
        match P.stk.head?.join with
        | some pos => if saved then (Dev.repos m d' p pos (some (.call, rest.length))).endHold p .call rest.length else d'
        | none => d') d1
      d2.wordTo l w t 2
/-- RET. -/
def execRet (l : Nat) (s : State) : Host.Outcome State Fault Refusal := wordStep 0x0B wRet l s

/-- JUMP (R124). -/
def wJump (_m : Mems) (d : Dev) (l w : Nat) : Dev := d.wordJump l w (wA32 w) 2
/-- JUMP. -/
def execJump (l : Nat) (s : State) : Host.Outcome State Fault Refusal := wordStep 0x0C wJump l s

/-- BRANCH (R125): on a register or counter at once, on a site condition in its decision cycle. -/
def wBranch (_m : Mems) (d : Dev) (l w : Nat) : Dev :=
  let a := wA16 w
  let go := fun (t : Bool) => if t == bitAt a 5 then d.wordJump l w (wA32 w) 2 else d.wordDone l w 2
  match bits a 6 2 with
  | 0 => d.hold l
  | 1 => go ((d.lane l).reg (bits a 0 2) == 0)
  | 2 => go ((d.lane l).counter (bits a 0 3) == 0)
  | _ => d.laneFault l 11
/-- BRANCH. -/
def execBranch (l : Nat) (s : State) : Host.Outcome State Fault Refusal := wordStep 0x0D wBranch l s

/-! ## MATCH (R130, R152) -/

/-- MATCH begins its first pass; a pass length of 0 is BAD_ARG. -/
def wMatch (m : Mems) (d : Dev) (l w : Nat) : Dev :=
  let n := bits (wA32 w) 0 16
  if n = 0 then d.laneFault l 11
  else
    let d1 := (d.upLane l (fun L => { L with passes := 1 })).markPins l 8
    let d2 := (d1.lanePins l).foldl (fun d p => Dev.addHold m d p .pass 8) d1
    Dev.emitN m d2 l w .stream n
/-- MATCH. -/
def execMatch (l : Nat) (s : State) : Host.Outcome State Fault Refusal := wordStep 0x10 wMatch l s

/-- Lane `l` is at a decision for boundary `S` that is due, with its word. -/
def Dev.dueS (m : Mems) (d : Dev) (l : Nat) (ph : Phase → Bool) : Option (Nat × Nat) :=
  let L := d.lane l
  match d.laneS l with
  | some S =>
    if d.laneLive l && ph L.phase && L.fault.isNone && decide (d.actAt l S ≤ d.bed) then some (S, Dev.curWord m d l) else none
  | none => none

/-- The end of a MATCH pass (R130): the condition is tested in the decision cycle. The extension word was paid with the first pass (R116);
the words between two pass ends count 3 + ⌈L/4⌉ (R114). -/
def Dev.matchEnd (m : Mems) (d : Dev) (l : Nat) : Dev :=
  match Dev.dueS m d l (· == .passEnd) with
  | none => d
  | some (S, w) =>
    if d.dwells l w S then d.laneFault l 7
    else
      let n := (d.laneSite l).getD 0
      let a := wA16 w
      let max_ := bits (wA32 w) 16 16
      let len := bits (wA32 w) 0 16
      let d0 := d.groupNext l w S
      let at_ := (d0.lane l).groupAt
      let once := fun (d : Dev) => d.upLane l (fun L => { L with freeAt := at_, costs := 0 })
      if d.cond n (bits a 0 5) (d.actAt l S) == bitAt a 5 then once ((d0.endHolds l 8 .pass).wordDone l w 2)
      else if max_ = 0 ∨ (d.lane l).passes < max_ then
        let d1 := (Dev.returnPins m d0 l 8 .pass).upLane l (fun L =>
          { L with passes := L.passes + 1, freeAt := at_ + emitCost 0x10 len * cycleTicks, costs := emitCost 0x10 len * cycleTicks })
        Dev.emitFrom m d1 l .stream len (at_ + cycleTicks)
      else
        let d1 := d0.endHolds l 8 .pass
        if wXw w then once (d1.wordJump l w (Dev.xarg m d l) 2) else d1.laneFault l 10
/-- MATCH_PASS_END. -/
def execMatchPassEnd (l : Nat) (s : State) : Host.Outcome State Fault Refusal :=
  guardUnit (laneOk l) (s.onDevM (fun m d => Dev.matchEnd m d l))

/-! ## Waiting words and the decision cycle (R112 to R115, R126 to R129) -/

def wWaitcond (_m : Mems) (d : Dev) (l _w : Nat) : Dev := d.hold l
/-- WAITCOND (R126): the word holds for its first decision cycle. -/
def execWaitcond (l : Nat) (s : State) : Host.Outcome State Fault Refusal := wordStep 0x11 wWaitcond l s

def wWaittrig (_m : Mems) (d : Dev) (l _w : Nat) : Dev := d.hold l
/-- WAITTRIG (R126). -/
def execWaittrig (l : Nat) (s : State) : Host.Outcome State Fault Refusal := wordStep 0x12 wWaittrig l s

def wWaittime (_m : Mems) (d : Dev) (l _w : Nat) : Dev := d.hold l
/-- WAITTIME (R126). -/
def execWaittime (l : Nat) (s : State) : Host.Outcome State Fault Refusal := wordStep 0x13 wWaittime l s

def wRdv (_m : Mems) (d : Dev) (l _w : Nat) : Dev := d.hold l
/-- RDV (R58, R126): the word holds for its decision cycle, where it takes its grid point. -/
def execRdv (l : Nat) (s : State) : Host.Outcome State Fault Refusal := wordStep 0x14 wRdv l s

def wSetc (_m : Mems) (d : Dev) (l _w : Nat) : Dev := d.hold l
/-- SETC (R128): the word holds for its decision cycle, where it writes. -/
def execSetc (l : Nat) (s : State) : Host.Outcome State Fault Refusal := wordStep 0x18 wSetc l s

def wMark (_m : Mems) (d : Dev) (l _w : Nat) : Dev := d.hold l
/-- MARK (R129): the word holds for its decision cycle, where it sends its marker. -/
def execMark (l : Nat) (s : State) : Host.Outcome State Fault Refusal := wordStep 0x1A wMark l s

/-- The grid point an RDV waits for (R58 to R60): none where it is missed. -/
def gridPointOf (start per S : Nat) (named : Bool) (k : Nat) : Option Nat :=
  if per = 0 then none
  else if named then
    if k = 0 ∨ start + k * per < S then none else some (start + k * per)
  else some (start + max 1 ((S - start + per - 1) / per) * per)

/-- The WAITTIME target of a word (R126). -/
def waitTarget (start w : Nat) : Nat := start + ns (wA16 w * 2 ^ 32 + wA32 w)

/-- Whether a waiting word sees its release in the decision cycle for `S`; `first` is its first decision (R126). -/
def Dev.releases (d : Dev) (n w S a first : Nat) : Bool :=
  let arg := wA16 w
  match wOp w with
  | 0x11 => d.cond n (bits arg 0 5) a == bitAt arg 5
  | 0x12 => (tget (fun _ => []) d.trigAt (bits arg 0 4)).any (fun t =>
      decide (first / cycleTicks ≤ cycleAfter t) && decide (cycleAfter t ≤ a / cycleTicks))
  | _ => decide (waitTarget ((d.site n).start.getD 0) w ≤ S)

/-- One decision of a waiting word: release, timeout, or one more K vector (R126, R127). -/
def Dev.waitDecide (m : Mems) (d : Dev) (l n w S a : Nat) : Dev :=
  let first := (d.lane l).firstAt.getD a
  let d0 := if wOp w = 0x13 && (d.lane l).firstAt.isNone && decide (waitTarget ((d.site n).start.getD 0) w < S)
    then d.seqNote l 13 else d
  let d1 := d0.upLane l (fun L => { L with firstAt := some first })
  if d.releases n w S a first then d1.upLane l (fun L => { L with phase := .released })
  else if (wOp w = 0x11 ∨ wOp w = 0x12) ∧ wA32 w ≠ 0 ∧ wA32 w ≤ (d.lane l).wait then
    d1.upLane l (fun L => { L with phase := .timedOut })
  else
    Dev.emitFrom m (d1.upLane l (fun L => { L with wait := L.wait + 1 })) l .k 1 a

/-- A marker of site `n` at `S` (R129, R385). -/
def Dev.marker (d : Dev) (n l k S : Nat) : Dev :=
  if d.inSpan n then
    let lat := ns (d.rd .SITE_SPAN_LAT_LAT n)
    if l < 64 then d.signal .mark (S + lat) n k true
    else (d.originate ⟨.mark, d.rd .SITE_SPAN_SPAN_TAG n, k, S⟩).signal .mark (S + lat) n k true
  else d.signal .mark S n k true

/-- No vector begins on the pins of lane `l` before Bedrock time `g`: the last events of the vectors launched are placed (R178). -/
def Dev.restPins (d : Dev) (l g : Nat) : Dev :=
  (d.lanePins l).foldl (fun d p => if (d.pin p).fifo = [] then d.settle p ((g : Int) - 8192) else d) d

/-- What a synchronised word does in its decision cycle (R112): a MARK is sent there, to take effect at S. At an RDV that holds, the seam asked for
before, and an image's markers, belong to the boundary before the hold. -/
def Dev.decideWord (m : Mems) (d : Dev) (l w S a : Nat) : Dev :=
  let n := (d.laneSite l).getD 0
  let arg := wA16 w
  match wOp w with
  | 0x0D => if d.cond n (bits arg 0 5) a == bitAt arg 5 then d.wordJump l w (wA32 w) 2 else d.wordDone l w 2
  | 0x18 => (d.postSetc n (bits arg 0 5) (bitAt arg 5) a).wordDone l w 2
  | 0x1A => (d.marker n l (bits arg 0 4) S).wordDone l w 2
  | 0x14 =>
    match gridPointOf ((d.site n).start.getD 0) (d.rd .SITE_GRID_PERIOD n) S (bitAt arg 0) (wA32 w) with
    | none => d.laneFault l missCode
    | some g =>
      if g = S then d.wordDone l w 2
      else
        let d1 := (d.lane l).marksNext.foldl (fun d k => d.marker n l k S) d
        ((d1.upLane l (fun L => { L with gridNext := some g, rests := L.rests ++ (if L.seamNext = 0 then [] else [(S, L.seamNext)]), seamNext := 0
                                         marksNext := [] })).restPins l g).wordDone l w 2
  | _ => Dev.waitDecide m d l n w S a

/-- DECISION_CYCLE (R112 to R115). -/
def Dev.decision (m : Mems) (d : Dev) (l : Nat) : Dev :=
  match Dev.dueS m d l (fun p => p == .sync || p == .wait) with
  | none => d
  | some (S, w) =>
    if (d.lane l).phase = .sync ∧ d.dwells l w S then d.laneFault l 7
    else (Dev.decideWord m (d.groupNext l w S) l w S (d.actAt l S)).groupDone l
/-- DECISION_CYCLE. -/
def execDecisionCycle (l : Nat) (s : State) : Host.Outcome State Fault Refusal :=
  guardUnit (laneOk l) (s.onDevM (fun m d => Dev.decision m d l))

/-- WAIT_RELEASE (R126): the next word follows. -/
def Dev.waitRelease (m : Mems) (d : Dev) (l : Nat) : Dev :=
  if d.laneLive l ∧ (d.lane l).phase = .released then
    ((if (d.lane l).upc.isSome then d else d.markWordEnd l).wordDone l (Dev.curWord m d l) 2).groupDone l
  else d
/-- WAIT_RELEASE. -/
def execWaitRelease (l : Nat) (s : State) : Host.Outcome State Fault Refusal :=
  guardUnit (laneOk l) (s.onDevM (fun m d => Dev.waitRelease m d l))

/-- WAIT_TIMEOUT (R127): the word continues at XARG32, or is WAIT_TMO. -/
def Dev.waitTimeout (m : Mems) (d : Dev) (l : Nat) : Dev :=
  if d.laneLive l ∧ (d.lane l).phase = .timedOut ∧ (d.lane l).fault.isNone then
    let w := Dev.curWord m d l
    if (d.lane l).upc.isSome then (d.upLane l (fun L => { L with tmo := true })).microDone l
    else if wXw w then ((d.markWordEnd l).wordJump l w (Dev.xarg m d l) 2).groupDone l else d.laneFault l 9
  else d
/-- WAIT_TIMEOUT. -/
def execWaitTimeout (l : Nat) (s : State) : Host.Outcome State Fault Refusal :=
  guardUnit (laneOk l) (s.onDevM (fun m d => Dev.waitTimeout m d l))

/-- The shared program of site `n` has halted, and its last vector ends by `T` (R48): a private pin begins no vector there. -/
def Dev.endedBy (d : Dev) (n l T : Nat) : Bool :=
  64 ≤ l && (d.lane n).phase == .halted && ((d.lanePin n).map (fun q => decide (d.pinS q ≤ T))).getD false

/-- The grid point at which the next vector of lane `l` begins, where all before it have been launched. -/
def Dev.holdsTo (d : Dev) (l : Nat) : Option Nat :=
  match (d.lanePin l).bind (fun p => (d.pin p).fifo.head?) with
  | some v => v.grid
  | none => (d.lane l).gridNext

/-- The next vector of lane `l` waits for a grid point: the last events of the vectors before are placed (R178). -/
def Dev.holdHead (d : Dev) (l : Nat) : Dev :=
  match d.holdsTo l with
  | some g => (d.lanePins l).foldl (fun d p => d.settle p ((g : Int) - 8192)) d
  | none => d

/-! ## Compare-side words (R131, R132) -/

/-- A control entry is attached to the next vector. -/
def Dev.attach (d : Dev) (l w : Nat) : Dev :=
  (d.upLane l (fun L => { L with ctlNext := L.ctlNext ++ [⟨wOp w, wA16 w, wA32 w⟩] })).wordDone l w 1

/-- STAMP: reserved edges are BAD_ARG. -/
def wStamp (_m : Mems) (d : Dev) (l w : Nat) : Dev := if bits (wA16 w) 2 2 = 3 then d.laneFault l 11 else d.attach l w
/-- STAMP (R132, R241). -/
def execStamp (l : Nat) (s : State) : Host.Outcome State Fault Refusal := wordStep 0x19 wStamp l s

/-- LATSRCH: a reserved action, or for ARM a window or marker length outside 1 to 4,096, is BAD_ARG. -/
def latsrchBad (w : Nat) : Bool :=
  let act := bits (wA16 w) 14 2
  let win := bits (wA16 w) 0 13
  act == 3 || (act == 0 && (win == 0 || decide (4096 < win) || wA32 w == 0 || decide (4096 < wA32 w)))
def wLatsrch (_m : Mems) (d : Dev) (l w : Nat) : Dev := if latsrchBad w then d.laneFault l 11 else d.attach l w
/-- LATSRCH (R132, R206). -/
def execLatsrch (l : Nat) (s : State) : Host.Outcome State Fault Refusal := wordStep 0x1B wLatsrch l s

/-- FAILMODE: a reserved mode is BAD_ARG (R221). -/
def wFailmode (_m : Mems) (d : Dev) (l w : Nat) : Dev := if 4 < bits (wA16 w) 0 4 then d.laneFault l 11 else d.attach l w
/-- FAILMODE (R132). -/
def execFailmode (l : Nat) (s : State) : Host.Outcome State Fault Refusal := wordStep 0x1C wFailmode l s

/-! ## SEAM, PSTREAM, LDCNT, HALT, reserved opcodes -/

/-- SEAM (R137): a seam before the first settle vector, then ARG32 K vectors. -/
def wSeam (m : Mems) (d : Dev) (l w : Nat) : Dev :=
  Dev.emitN m (d.upLane l (fun L => { L with seamNext := 2 })) l w .k (wA32 w)
/-- SEAM. -/
def execSeam (l : Nat) (s : State) : Host.Outcome State Fault Refusal := wordStep 0x1D wSeam l s

/-- PSTREAM (R133, R151). -/
def wPstream (m : Mems) (d : Dev) (l w : Nat) : Dev :=
  ((d.lanePins l).foldl (fun d p => Dev.repos m d p { entry := wA32 w } none) d).wordDone l w 2
/-- PSTREAM. -/
def execPstream (l : Nat) (s : State) : Host.Outcome State Fault Refusal := wordStep 0x20 wPstream l s

/-- LDCNT (R134). -/
def wLdcnt (_m : Mems) (d : Dev) (l w : Nat) : Dev :=
  let a := wA16 w
  let c := bits a 0 3
  let r := bits a 0 2
  match bits a 8 3 with
  | 0 => (d.setCnt l c (wA32 w)).wordDone l w 1
  | 1 => (d.setCnt l c ((d.lane l).reg (bits a 4 2))).wordDone l w 1
  | 2 => (d.setGr l r (wA32 w)).wordDone l w 1
  | 3 => (d.setGr l r ((d.lane l).reg r + wA32 w)).wordDone l w 1
  | 4 => (((d.setCnt l c 0).setAct l c false).endHolds l c .loop).wordDone l w 1
  | _ => d.laneFault l 11
/-- LDCNT. -/
def execLdcnt (l : Nat) (s : State) : Host.Outcome State Fault Refusal := wordStep 0x21 wLdcnt l s

/-- Lane `l` has halted and every vector of it has been launched: the markers that an image's last words sent take effect at the end of the last
vector, where the next would begin (R129); a private pin goes to its idle code 1 ns after it (R48, R190). -/
def Dev.tailActs (d : Dev) (l : Nat) : Dev :=
  match d.laneSite l, d.lanePin l with
  | some n, some p =>
    if (d.lane l).phase = .halted ∧ (d.pin p).fifo = [] then
      let S := (d.pin p).tNext
      let d1 := (d.lane l).marksNext.foldl (fun d k => d.marker n l k S) d
      let d2 := d1.upLane l (fun L => { L with marksNext := [], seamNext := L.rests.foldl (fun k r => max k r.2) L.seamNext, rests := [] })
      if 64 ≤ l then d2.idleAt p (S + ns 1 : Nat) else d2
    else d
  | _, _ => d

/-- HALT (R48, R135): the sequencer stops. -/
def wHalt (_m : Mems) (d : Dev) (l w : Nat) : Dev :=
  (d.upLane l (fun L =>
    { L with phase := .halted, complete := true, left := 0, wait := 0, fault := none, gridNext := none
             freeAt := d.bed + (2 + b2n (wXw w)) * cycleTicks })).tailActs l
/-- HALT. -/
def execHalt (l : Nat) (s : State) : Host.Outcome State Fault Refusal := wordStep 0x00 wHalt l s

/-- The opcodes of SSI 4.2 (R116). -/
def ssiOps : List Nat :=
  [0x00, 0x01, 0x02, 0x03, 0x04, 0x08, 0x09, 0x0A, 0x0B, 0x0C, 0x0D, 0x10, 0x11, 0x12, 0x13, 0x14, 0x18, 0x19, 0x1A, 0x1B, 0x1C,
   0x1D, 0x20, 0x21]

end Sys2Proof.Machine
end

