-- ==== Sys2Proof/Machine/Sites.lean ====
section
/-!
DEFINITION. Sites (R43 to R70): membership, states, the RUN, STOP and RESUME descriptors, starting, seams, the launch of
vectors with underruns and stretches, and the end of a burst.
-/
namespace Sys2Proof.Machine

/-- Site numbers. -/
def siteOk (n : Nat) : Bool := decide (n < 64)

/-! ## Membership and commits -/

/-- The state after a change of site `n`'s masks (R49). -/
def Dev.memberState (d : Dev) (n : Nat) : Dev :=
  let none_ : Bool := (List.range 4).all (fun k => d.rd .SITE_MEMBER_MASK (n * 4 + k) == 0)
  let st := d.siteState n
  if none_ then (if st = SiteState.IDLE ∨ st = SiteState.DOZE then d.wr .SITE_STATUS_STATE n SiteState.EMPTY else d)
  else if st = SiteState.EMPTY then
    (d.wr .SITE_STATUS_STATE n SiteState.IDLE).upSite n (fun S => { S with idleSince := d.now })
  else d

/-- A write of mask `v` to SITE_MEMBERk of site `n` (R20, R43, R44, R45, R49). -/
def Dev.writeMember (d : Dev) (n k v addr : Nat) : Dev :=
  let old := d.rd .SITE_MEMBER_MASK (n * 4 + k)
  if v = old then d
  else if d.siteRunning n && !d.on .FC_STATE_SAFE 0 then d.refuse 0 addr
  else
    let taken := fun (j : Nat) => !bitAt old j && bitAt v j &&
      (List.range 64).any (fun m => m != n && bitAt (d.rd .SITE_MEMBER_MASK (m * 4 + k)) j)
    let bad := (List.range 64).filter taken
    let v' := bad.foldl (fun w j => setBit w j false) v
    let d1 := (d.wr .SITE_MEMBER_MASK (n * 4 + k) v').memberState n
    if bad = [] then d1 else (d1.set1 .SITE_STATUS_CONFLICT n).raise 0x1C0 n

/-- A write to SITE_COMMIT (R19). -/
def Dev.siteCommit (d : Dev) (n v : Nat) : Dev :=
  if bitAt v 0 && !d.siteRunning n && (d.site n).condPend then d.moveCond n else d

/-- A write to PIN_TS_COMMIT (R19, R172). -/
def Dev.tsCommit (d : Dev) (p v : Nat) : Dev :=
  if d.pinRunning p then d else ((List.range 32).filter (bitAt v)).foldl (fun d k => d.moveSet p k) d

/-- A write to PIN_TF_COMMIT (R19, R172). -/
def Dev.tfCommit (d : Dev) (p v : Nat) : Dev := if !d.pinRunning p && bitAt v 0 then d.moveDeskew p else d

/-- DOZE_ENTRY (R65, R108): the member buffers lose their contents, the sequencers their counters, stack and registers. -/
def Dev.doze (d : Dev) (n : Nat) : List Put × Dev :=
  if d.siteState n = SiteState.IDLE ∧ d.on .SITE_CTRL_DOZE_EN n ∧
      (d.site n).idleSince + us (d.rd .SITE_DOZE_DELAY_US n) ≤ d.now then
    ((d.members n).map Put.lose, (d.siteLanes n).foldl (fun d l => d.stopLane l) ((d.members n).foldl (fun d p => d.startPin p) (d.wr .SITE_STATUS_STATE n SiteState.DOZE)))
  else ([], d)
/-- DOZE_ENTRY. -/
def execDozeEntry (n : Nat) (s : State) : Host.Outcome State Fault Refusal :=
  guardUnit (siteOk n) (s.onMem (fun _ => Dev.coreM (fun d => d.doze n)))

/-! ## Descriptors aimed at a site (R317) -/

/-- RUN, STOP, RESUME, FAIL_FETCH and CAPTURE_FETCH for site `n`. -/
def Entry.aimed (x : Entry) (n : Nat) : Bool :=
  [0x21, 0x22, 0x23, 0x40, 0x41].contains (descOp x.desc) && descTarget x.desc == n

/-- An earlier descriptor of the same ring aimed at the same site has not acted (R317). -/
def Dev.behind (d : Dev) (x : Entry) : Bool :=
  d.tracker.any (fun y => y.ring == x.ring && decide (y.id < x.id) && y.aimed (descTarget x.desc) && !y.started && !y.done)

/-- Site `n`'s role asks for another start mode (R63). -/
def roleBad (role start : Nat) : Bool := role == 3 || (role == 0 && start == 3) || (role != 0 && start != 3)

/-- Why the RUN `x` does not start, before PREPARING (R39, R47, R49, R60, R62, R63, R95, R303, R384). -/
def Dev.runRefused (d : Dev) (n : Nat) (x : Entry) : Option Nat :=
  let role := d.rd .SITE_CTRL_SPAN_ROLE n
  let per := d.rd .SITE_GRID_PERIOD n
  if d.siteState n = SiteState.EMPTY then some Status.INVALID
  else if roleBad role (descField x.desc 20 0 2) then some Status.INVALID
  else if role ≠ 0 ∧ d.rd .SITE_SPAN_LAT_LAT n < 200 then some Status.INVALID
  else if per ≠ 0 ∧ per < 1638400 then some Status.INVALID
  else if (d.sharedPins n).isEmpty then some Status.INVALID
  else if descField x.desc 16 0 32 = 0 ∨ descField x.desc 8 0 64 % 8 ≠ 0 then some Status.INVALID
  else if (d.members n).any (fun p => !d.octOk p) then some Status.UNIT_DOWN
  else if !d.on .CS_STATUS_LOADED 0 then some Status.UNIT_DOWN
  else if role ≠ 0 ∧ d.rd .BR_CTRL_MODE 0 = 2 ∧ d.rd .BR_STATUS_DSTATE 0 ≠ 2 then some Status.UNIT_DOWN
  else none

/-- Kiln refuses new bursts (R418). -/
def Dev.hot (d : Dev) : Bool := d.on .KL_STATUS_HOT 0 || d.on .KL_STATUS_HBM_SEVERE 0

/-- Why the RUN `x` does not start now, Kiln's refusal included (R418). -/
def Dev.runStatus (d : Dev) (n : Nat) (x : Entry) : Option Nat :=
  match d.runRefused n x with
  | some st => some st
  | none => if d.hot then some Status.UNIT_DOWN else none

/-- The RUN in entry `e` reaches the Site Fabric: an EMPTY site refuses it; a site that is neither IDLE nor DOZE, and a microcode load, make it wait
in the tracker (R49, R100). A unit that is down is judged a cycle later, behind a reload that reaches in this one (R100). -/
def Dev.runReach (d : Dev) (e : Nat) : Dev :=
  match d.open? e 0x21 with
  | some x =>
    let n := descTarget x.desc
    let st := d.siteState n
    let waits := (d.begin_ e).upEntry e (fun x => { x with reach := d.cycle + 1 })
    if st = SiteState.EMPTY then d.finish e Status.INVALID 0
    else if (st = SiteState.IDLE ∨ st = SiteState.DOZE) ∧ d.cs.load.isNone then
      match d.runStatus n x with
      | some v => if v = Status.UNIT_DOWN then waits else d.finish e v 0
      | none => waits
    else waits
  | none => d
/-- RUN. -/
def execRun (e : Nat) (s : State) : Host.Outcome State Fault Refusal :=
  guardUnit true (s.onDev (fun d => d.runReach e))

/-! ## PREPARING -/

/-- What holds a RUN of site `n` in the tracker: a microcode load (R100), a copy into a member's buffer (R162), a fetch that
reads (R228), a forced window (R435), a verify of a member's copy (R98). -/
def Dev.runHeld (d : Dev) (n : Nat) : Bool :=
  d.cs.load.isSome || (d.cs.verify.isSome && (d.members n).any (fun p => p / 8 == d.cs.vnext)) ||
  d.tracker.any (fun y => !y.done && y.started &&
    ((descOp y.desc == 0x10 && descField y.desc 28 0 2 != 0 && d.isMember n (descTarget y.desc)) ||
     ((descOp y.desc == 0x40 || descOp y.desc == 0x41) && descTarget y.desc == n))) ||
  (d.members n).any (fun p => (d.pin p).forced)

/-- The oldest RUN or fetch that waits for site `n` and may take it now (R317, R318): a RUN that something holds lets the others act; not in the
engine cycle in which it reached, so that a reload of that cycle goes before it (R100). -/
def Dev.nextRun (d : Dev) (n : Nat) : Option Entry :=
  d.tracker.find? (fun x => x.aimed n && !x.done && !x.started && (descOp x.desc == 0x21 || descOp x.desc == 0x40 || descOp x.desc == 0x41)
    && x.begun && decide (x.reach ≤ d.cycle) && !d.behind x && (descOp x.desc != 0x21 || !d.runHeld n))

/-- The Private Program Table entry of pin `p` (R47, R48). -/
def Dev.pptEntry (m : Mems) (d : Dev) (n p : Nat) : Nat :=
  if d.localMode then ofBytes (readMem byte0 m.vlb (p * 131072) 16)
  else ofBytes (readMem byte0 m.hbm (d.rd .SITE_PPT_ADDR_ADDR n * 16 + 16 * p) 16)
/-- Its ADDR. -/
def pptAddr (v : Nat) : Nat := bits v 3 34 * 8
/-- Its LENGTH. -/
def pptLen (v : Nat) : Nat := bits v 64 32

/-- A private program of site `n` fails an address check (R47, R48). -/
def Dev.privBad (m : Mems) (d : Dev) (n p : Nat) : Bool :=
  let v := Dev.pptEntry m d n p
  let a := pptAddr v
  let len := pptLen v
  if d.localMode then len == 0 || decide (a < 16) || decide (131072 < a + 8 * len)
  else !d.hbmOk (d.rd .SITE_PPT_ADDR_ADDR n * 16) 4096 || len == 0 || !d.hbmOk a (8 * len)

/-- The spill or capture region of site `n` lies outside (R215). -/
def Dev.frBad (d : Dev) (n : Nat) : Bool :=
  !d.localMode &&
    ((d.on .FR_SITE_CTRL_SPILL_EN n && d.rd .FR_SITE_SPILL_SIZE_RECORDS n != 0 &&
        !d.hbmOk (d.rd .FR_SITE_SPILL_BASE_ADDR n * 16) (16 * d.rd .FR_SITE_SPILL_SIZE_RECORDS n)) ||
     (d.rd .FR_SITE_CAP_SIZE_BLOCKS n != 0 &&
        !d.hbmOk (d.rd .FR_SITE_CAP_BASE_ADDR n * 64) (64 * d.rd .FR_SITE_CAP_SIZE_BLOCKS n)))

/-- An address check of the RUN `x` fails during preparation (R47, R215, R303). -/
def Dev.prepBad (m : Mems) (d : Dev) (n : Nat) (x : Entry) : Bool :=
  let a := descField x.desc 8 0 64
  let len := 8 * descField x.desc 16 0 32
  (if d.localMode then decide (131072 < a + len) else !d.hbmOk a len) || d.frBad n || (d.privatePins n).any (Dev.privBad m d n)

/-- A lane begins at word 0 of its program; the home region and pages 8 to 10 are asked for (R103). Sequencers that do not run SSI 4.2 begin at
microword 0 (R78). -/
def Dev.startLane (d : Dev) (l a len : Nat) : Dev :=
  ((d.upLane l (fun _ => { phase := .ready, base := a, len := len, freeAt := d.bed, upc := if d.native l then none else some 0 })).hbm
    false (.prog l) a (8 * min len 2048)).fillWindow l

/-- The Compare Sequencer of pin `p` as its site enters PREPARING: one that does not run SSI 4.2 begins at microword 1 (R78). -/
def Dev.startCsq (d : Dev) (p : Nat) : Dev :=
  let micro := !d.nativeCsq p
  d.upCsq p (fun C => { gap := C.gap, micro := micro, upc := if micro then some 1 else none, freeAt := d.bed, wordOpen := true })

/-- The length of a forced window in µs (SP_FORCE.WINDOW_US). -/
def Dev.windowUs (d : Dev) : Nat := max 160 (d.rd .SP_FORCE_WINDOW_US 0)

/-- What preparation wakes (R30, R37, R307, R349, R425): edge PLLs, the memory's operating point. -/
def Dev.wakeFor (d : Dev) (n : Nat) : Dev :=
  let d1 := (d.quads n).foldl (fun d q => d.startPll q) d
  if d1.localMode then d1 else d1.opFull

/-- The Private Program Table entries of site `n`'s private pins are asked for, where the table lies in the memory (R47, R336). -/
def Dev.askTable (d : Dev) (n : Nat) : Dev :=
  let a := d.rd .SITE_PPT_ADDR_ADDR n * 16
  if d.localMode ∨ !d.hbmOk a 4096 then d else (d.privatePins n).foldl (fun d p => d.hbm false (.ppt p) (a + 16 * p) 16) d

/-- Site `n` enters PREPARING for the RUN `x` (R46, R47, R49, R218). -/
def Dev.prepare (m : Mems) (d : Dev) (n : Nat) (x : Entry) : Dev :=
  let dozing := d.siteState n = SiteState.DOZE
  let d0 := (d.wr .SITE_STATUS_STATE n SiteState.PREPARING).start x.id
  let d1 := ((d0.wr .SITE_COND_C n 0).upKl (fun K => { K with wokeUs := 0 })).wakeFor n
  let d2 := d1.upSite n (fun S => { idleSince := S.idleSince, conds := S.conds, condPend := S.condPend, spanHalt := S.spanHalt, lastEnd := S.lastEnd, seamClock := S.seamClock, seamNoted := S.seamNoted, rested := if S.idleSince + us d.windowUs ≤ d.now then d.now else S.rested, run := some x.id, mode := descField x.desc 20 0 2
                                    prepAt := d.now, woke := dozing || !d1.awake n, dozed := dozing, slept := d.kl.wokeUs })
  let d3 := (((d2.frClear n).wr .FR_SITE_DROPPED_BLOCKS n 0).wr .FR_SITE_DROPPED_RECORDS n 0).askTable n
  if Dev.prepBad m d3 n x then d3.abandon n Status.INVALID
  else
    let d4 := d3.startLane n (descField x.desc 8 0 64) (descField x.desc 16 0 32)
    let d5 := (d3.privatePins n).foldl (fun d p =>
      let v := Dev.pptEntry m d3 n p
      d.startLane (64 + p) (pptAddr v) (pptLen v)) d4
    (d3.members n).foldl (fun d p => (d.startPin p).startCsq p) d5

/-- PREPARING_ENTRY: a waiting RUN acts. -/
def Dev.preparing (m : Mems) (d : Dev) (n : Nat) : Dev :=
  if d.siteState n = SiteState.IDLE ∨ d.siteState n = SiteState.DOZE then
    match d.nextRun n with
    | some x =>
      if descOp x.desc ≠ 0x21 then d
      else match d.runStatus n x with
        | some st => d.finish x.id st 0
        | none => Dev.prepare m d n x
    | none => d
  else d
/-- PREPARING_ENTRY. -/
def execPreparingEntry (n : Nat) (s : State) : Host.Outcome State Fault Refusal :=
  guardUnit (siteOk n) (s.onDevM (fun m d => Dev.preparing m d n))

/-! ## Starting -/

/-- Site `n`'s start time is set: its pins' vector 0 begins then (R48, R169). -/
def Dev.setStart (d : Dev) (n t : Nat) : Dev :=
  (d.members n).foldl (fun d p => d.upPin p (fun P => { P with tNext := t })) (d.upSite n (fun S => { S with start := some t }))

/-- Site `n` becomes ARMED; the arm timer starts (R49, R55). -/
def Dev.arm (d : Dev) (n : Nat) : Dev :=
  (d.wr .SITE_STATUS_STATE n SiteState.ARMED).upSite n (fun S => { S with armedAt := d.now })

/-- The soonest start (R53): 200 ns from now, in whole nanoseconds. -/
def Dev.soonest (d : Dev) : Nat := roundUp (d.bed + ns 200) cycleTicks

/-- START_TIME of a RUN or RESUME, rounded up to a whole nanosecond (R303). -/
def Dev.startTime (d : Dev) (v : Nat) : Nat := roundUp (d.fullTime v) cycleTicks

/-- Preparation of site `n` is complete: its start by START and role (R53, R54, R62, R63). -/
def Dev.prepared (d : Dev) (n : Nat) (x : Entry) : Dev :=
  let role := d.rd .SITE_CTRL_SPAN_ROLE n
  let t := d.startTime (descField x.desc 24 0 64)
  match descField x.desc 20 0 2 with
  | 0 => d.setStart n d.soonest
  | 1 => if t < d.bed + ns 200 then d.abandon n Status.LATE_START else (d.arm n).setStart n t
  | 2 => d.arm n
  | _ =>
    if role = 1 then
      let named := descField x.desc 20 2 1 = 1
      if named ∧ t < d.bed + ns 200 then d.abandon n Status.LATE_START
      else
        let b := if named then t else d.soonest
        ((d.arm n).originate ⟨.start, d.rd .SITE_SPAN_SPAN_TAG n, 0, b⟩).setStart n (b + ns (d.rd .SITE_SPAN_LAT_LAT n))
    else d.arm n

/-- How long site `n` took to leave DOZE (R66): an open time, no longer than its preparation and 150 µs. -/
def Dev.leftDoze (d : Dev) (n : Nat) : Dev :=
  let S := d.site n
  if S.dozed then d.took.wakeTook n (d.openVal 64 % (min (d.now - S.prepAt) (us 150) + 1)) else d

/-- PREPARATION_COMPLETE (R30, R53, R103, R155). -/
def Dev.prepComplete (d : Dev) (n : Nat) : Dev :=
  let S := d.site n
  match S.run.bind d.entry? with
  | some x =>
    if d.siteState n = SiteState.PREPARING ∧ S.early.isNone ∧ S.start.isNone ∧ (d.members n).all d.pinPrepared ∧ (d.siteLanes n).all d.homeLoaded ∧ d.awake n then
      let bad := d.badHeads (d.members n)
      if bad = [] then (d.leftDoze n).prepared n x else d.streamError n bad
    else d
  | none => d
/-- PREPARATION_COMPLETE. -/
def execPreparationComplete (n : Nat) (s : State) : Host.Outcome State Fault Refusal :=
  guardUnit (siteOk n) (s.onDev (fun d => d.prepComplete n))

/-- A seam of site `n` ends its seam clock (R70). -/
def Dev.endSeamClock (d : Dev) (n : Nat) : Dev :=
  (d.clr .SITE_STATUS_STALE_ACTIVE n).upSite n (fun S => { S with seamClock := none, seamNoted := false })

/-- A seam at which every member takes all that is pending (R189, R190). -/
def Dev.fullSeam (d : Dev) (n : Nat) : Dev :=
  ((d.withSeam n (fun d =>
    let d1 := (d.members n).foldl (fun d p => (d.movePending p).takeTrims p) d
    if (d1.site n).condPend then d1.moveCond n else d1)).endSeamClock n).tally 0x13 n 1

/-- The seam at the start of a burst (R189). -/
def Dev.startSeam (d : Dev) (n : Nat) : Dev :=
  match (d.site n).start with
  | some t =>
    if (d.siteState n = SiteState.PREPARING ∨ d.siteState n = SiteState.ARMED) ∧ (d.site n).early.isNone ∧ !(d.site n).startSeam ∧ t ≤ d.bed + ns 100 then
      (d.fullSeam n).upSite n (fun S => { S with startSeam := true })
    else d
  | none => d
/-- BURST_START_SEAM. -/
def execBurstStartSeam (n : Nat) (s : State) : Host.Outcome State Fault Refusal :=
  guardUnit (siteOk n) (s.onDev (fun d => d.startSeam n))

/-- Vector 0 of site `n` begins at `t` (R48, R57, R197, R223). -/
def Dev.startBurst (d : Dev) (n t : Nat) : Dev :=
  let d1 := ((d.wr .SITE_STATUS_STATE n SiteState.RUNNING).wr .SITE_START_TIME_T n t).wr .SITE_VCOUNT_COUNT n 0
  let d2 := match (d.site n).run with | some e => d1.touch e | none => d1
  let d3 := (d2.members n).foldl (fun d p => d.csqStart p) ((d2.wr .SITE_COND_C n 0))
  (List.range 8).foldl (fun d e => d.postCond n (0x30 + e) (bitAt d.evLevel e) t) d3

/-- SITE_START. -/
def Dev.siteStart (d : Dev) (n : Nat) : Dev :=
  match (d.site n).start with
  | some t =>
    if (d.siteState n = SiteState.PREPARING ∨ d.siteState n = SiteState.ARMED) ∧ (d.site n).early.isNone ∧ t ≤ d.bed then
      let d1 := d.startSeam n
      let bad := d1.badHeads (d1.members n)
      if bad = [] then d1.startBurst n t else d1.streamError n bad
    else d
  | none => d
/-- SITE_START. -/
def execSiteStart (n : Nat) (s : State) : Host.Outcome State Fault Refusal :=
  guardUnit (siteOk n) (s.onDev (fun d => d.siteStart n))

/-- The edge qualifies for SITE_EVENT of site `n` (EDGE encoding). -/
def Dev.edgeQualifies (d : Dev) (n ev : Nat) (rise : Bool) : Bool :=
  d.rd .SITE_EVENT_EV_SEL n == ev &&
    (match d.rd .SITE_EVENT_EDGE n with | 1 => !rise | 2 => true | _ => rise)

/-- What an event edge stamped `t` means to site `n` (R54, R56). -/
def Dev.siteEdge (d : Dev) (n ev : Nat) (rise : Bool) (t : Nat) : Dev :=
  let d1 := if d.siteState n = SiteState.EMPTY then d else d.postCond n (0x30 + ev) rise t
  if d.edgeQualifies n ev rise then
    if d.siteState n ≠ SiteState.ARMED then d1.count .SITE_STATUS_EV_IGNORED n 1
    else if (d.site n).mode = 2 ∧ (d.site n).start.isNone then
      d1.setStart n (t + ns (max 1000 (d.rd .SITE_EV_DELAY_DELAY n)))
    else d1
  else d1

/-- EVENT_PIN_EDGE (R54, R497): the stamp is the whole nanosecond. -/
def Dev.evEdge (d : Dev) (ev : Nat) (rise : Bool) : Dev :=
  let t := d.bed / cycleTicks * cycleTicks
  let d1 := { d with evLevel := setBit d.evLevel ev rise }
  (List.range 64).foldl (fun d n => d.siteEdge n ev rise t) (d1.signal .ev t ev 0 rise)
/-- EVENT_PIN_EDGE. -/
def execEventPinEdge (ev : Nat) (rise : Bool) (s : State) : Host.Outcome State Fault Refusal :=
  guardUnit (decide (ev < 8)) (s.onDev (Dev.core (fun d => d.evEdge ev rise)))

/-- ARM_TIMEOUT (R55). -/
def Dev.armTimeout (d : Dev) (n : Nat) : Dev :=
  let t := d.rd .SITE_ARM_TIMEOUT_MS n
  if d.siteState n = SiteState.ARMED ∧ (d.site n).early.isNone ∧ t ≠ 0 ∧ (d.site n).armedAt + ms t ≤ d.now then
    ((d.set1 .SITE_STATUS_ARM_TIMEOUT n).raise 0x1C5 n).abandon n Status.TIMEOUT
  else d
/-- ARM_TIMEOUT. -/
def execArmTimeout (n : Nat) (s : State) : Host.Outcome State Fault Refusal :=
  guardUnit (siteOk n) (s.onDev (fun d => d.armTimeout n))

/-! ## STOP and RESUME (R50, R51, R304) -/

/-- RESULT of a STOP (R307). -/
def Dev.stopResult (d : Dev) (n : Nat) : Nat := resAt (d.rd .SITE_VCOUNT_COUNT n) 80 48

/-- A STOP finds its site preparing or armed: the RUN is withdrawn at the end of the engine cycle, the STOP completes after it (R51). -/
def Dev.stopEarly (d : Dev) (n e : Nat) : Dev :=
  ((d.start e).stopSoon n 5 Status.WITHDRAWN).upSite n (fun S => { S with stops := S.stops ++ [e] })

/-- The STOP in entry `e`, if it may act now (R317). -/
def Dev.stopOf (d : Dev) (e mode : Nat) : Option Entry :=
  match d.open? e 0x22 with
  | some x => if x.started || d.behind x || descField x.desc 8 0 1 != mode then none else some x
  | none => none

/-- A STOP in ABORT mode acts; from the start time on it finds the site RUNNING (R51). -/
def Dev.stopAbort (d0 : Dev) (e : Nat) : Dev :=
  match d0.stopOf e 0 with
  | none => d0
  | some x =>
    let n := descTarget x.desc
    let d := d0.siteStart n
    let st := d.siteState n
    if st = SiteState.PREPARING ∨ st = SiteState.ARMED then d.stopEarly n e
    else if st = SiteState.RUNNING ∨ st = SiteState.PAUSED ∨ st = SiteState.DRAINING then
      ((d.start e).abortSite n 5 false).upSite n (fun S => { S with stops := S.stops ++ [e] })
    else (d.start e).finish e Status.OK (d.stopResult n)
/-- STOP_ABORT. -/
def execStopAbort (e : Nat) (s : State) : Host.Outcome State Fault Refusal :=
  guardUnit true (s.onDev (fun d => d.stopAbort e))

/-- A STOP in PAUSE mode acts (R50): on a running site it waits for the next seam; a site with private pins or a span role refuses it. -/
def Dev.stopPause (d0 : Dev) (e : Nat) : Dev :=
  match d0.stopOf e 1 with
  | none => d0
  | some x =>
    let n := descTarget x.desc
    let d := d0.siteStart n
    let st := d.siteState n
    if st = SiteState.PREPARING ∨ st = SiteState.ARMED then d.stopEarly n e
    else if !(d.privatePins n).isEmpty || d.inSpan n then (d.start e).finish e Status.INVALID 0
    else if st = SiteState.RUNNING then
      (d.start e).upSite n (fun S => { S with stops := S.stops ++ [e], pausePend := true })
    else if st = SiteState.DRAINING then (d.start e).upSite n (fun S => { S with stops := S.stops ++ [e] })
    else (d.start e).finish e Status.OK (d.stopResult n)
/-- STOP_PAUSE. -/
def execStopPause (e : Nat) (s : State) : Host.Outcome State Fault Refusal :=
  guardUnit true (s.onDev (fun d => d.stopPause e))

/-- A RESUME acts (R50, R303, R418); while an earlier RESUME has not begun its vector, or a forced window holds the site (R435),
it waits. -/
def Dev.resumeReach (d : Dev) (e : Nat) : Dev :=
  match d.open? e 0x23 with
  | none => d
  | some x =>
    let n := descTarget x.desc
    let mode := descField x.desc 8 0 2
    let t := d.startTime (descField x.desc 16 0 64)
    if x.started || d.behind x || (d.members n).any (fun p => (d.pin p).forced) then d
    else if d.siteState n ≠ SiteState.PAUSED ∨ 2 ≤ mode then d.finish e Status.INVALID 0
    else if (d.site n).resume.isSome then d
    else if d.hot then d.finish e Status.UNIT_DOWN 0
    else if mode = 1 ∧ t < d.bed + ns 200 then d.finish e Status.LATE_START 0
    else (d.touch e).upSite n (fun S => { S with resume := some e, resumeAt := some (if mode = 1 then t else d.soonest) })
/-- RESUME. -/
def execResume (e : Nat) (s : State) : Host.Outcome State Fault Refusal :=
  guardUnit true (s.onDev (fun d => d.resumeReach e))

/-- RESUME_START (R50, R138, R169, R196): the next vector of every member begins at the start time, in the slot after the last real one; a grid
point it waited for is not waited for again. SSI 4.2's PAUSE handlers return. -/
def Dev.resumeStart (d : Dev) (n : Nat) : Dev :=
  match (d.site n).resumeAt with
  | some t =>
    if d.siteState n = SiteState.PAUSED ∧ t ≤ d.bed then
      let d1 := d.wr .SITE_STATUS_STATE n SiteState.RUNNING
      let d2 := (d1.members n).foldl (fun d p =>
        (d.upPin p (fun P => { P with tNext := t, fifo := match P.fifo with | v :: r => { v with grid := none } :: r | [] => [] })).upCsq p (fun C =>
          { C with paused := false, irqs := if C.micro then C.irqs else C.irqs.filter (fun i => i.1 != 1), hand := if C.micro then C.hand else none, nextSlot := if C.owes then max C.nextSlot C.slotNo else C.slotNo, slots := [] })) d1
      let d3 := match (d.site n).resume with
        | some e => d2.finish e Status.OK (t % 2 ^ 64 * 2 ^ 64)
        | none => d2
      ((d3.siteLanes n).foldl (fun d l => if d.native l then d.upLane l (fun L =>
          { L with irqs := L.irqs.filter (fun i => i.1 != 1), link := none, hand := none, gridNext := none, rests := L.rests.map (fun r => (t, r.2)) })
        else d.upLane l (fun L => { L with gridNext := none, rests := L.rests.map (fun r => (t, r.2)) })) d3).upSite n
        (fun S => { S with resume := none, resumeAt := none })
    else d
  | none => d
/-- RESUME_START. -/
def execResumeStart (n : Nat) (s : State) : Host.Outcome State Fault Refusal :=
  guardUnit (siteOk n) (s.onDev (fun d => d.resumeStart n))

/-! ## Seams in a burst (R136 to R138, R188) -/

/-- The STOPs of site `n` that asked for a pause complete when it is PAUSED (R304). -/
def Dev.pauseDone (d : Dev) (n : Nat) : Dev :=
  let es := (d.site n).stops
  (es.foldl (fun d e => d.finish e Status.OK (d.stopResult n)) d).upSite n (fun S => { S with stops := [], pausePend := false })

/-- Site `n` pauses: what its last vectors asked for is placed (R178), and a CSQ that owes no judgement takes PAUSE (R83). -/
def Dev.pauseSite (d : Dev) (n l : Nat) : Dev :=
  let d1 := ((d.raiseIrq l 1).wr .SITE_STATUS_STATE n SiteState.PAUSED).pauseDone n
  (d1.members n).foldl (fun d p => (d.settle p (((d.pin p).tNext + 2 ^ 40 : Nat))).csqPause n p) d1

/-- A seam of lane `l` at its next boundary; `at_`: a vector begins there. It acts from 12 ns before the boundary on, when the vector
launches (log entry 84). -/
def Dev.seamNow (d : Dev) (n l : Nat) (at_ : Bool) : Dev :=
  let d2 := ((d.withSeam n (fun d =>
    let d1 := (d.lanePins l).foldl (fun d p =>
      let d' := d.movePending p
      match (d.pin p).fifo.head? with
      | some v => if at_ ∧ (v.code = Code.X ∨ v.code = Code.K) then d'.takeTrims p else d'
      | none => d') d
    if l < 64 ∧ (d1.site n).condPend then d1.moveCond n else d1)).endSeamClock n).tally 0x13 n 1
  if l < 64 ∧ (d.site n).pausePend then d2.pauseSite n l else d2

/-- A seam of kind `k` (1: R136, where something awaits it; 2: R137) of lane `l`. -/
def Dev.seamIf (d : Dev) (n l k : Nat) (at_ : Bool) : Dev :=
  if k = 2 ∨ d.seamp n ∨ (l < 64 ∧ (d.site n).pausePend) then d.seamNow n l at_ else d

/-- The vectors at the heads of lane `l`'s FIFOs changed by `f`. -/
def Dev.upHeads (d : Dev) (l : Nat) (f : Vec → Vec) : Dev :=
  (d.lanePins l).foldl (fun d p => d.upPin p (fun P => { P with fifo := match P.fifo with
    | v :: t => f v :: t
    | [] => [] })) d

/-- The seams of lane `l` asked for at the boundaries before RDV holds, where every vector before the hold has been launched (R136, R137). -/
def Dev.restSeams (d : Dev) (n l : Nat) : Dev :=
  let due := (d.lane l).rests.filter (fun r => decide (r.1 ≤ d.bed + ns 12))
  if due = [] ∨ (((d.lanePin l).bind (fun p => (d.pin p).fifo.head?)).map (·.grid.isNone)).getD false then d
  else due.foldl (fun d r => if d.siteState n = SiteState.RUNNING then d.seamIf n l r.2 false else d)
    (d.upLane l (fun L => { L with rests := L.rests.filter (fun r => decide (d.bed + ns 12 < r.1)) }))

/-- SEAM_AT_BOUNDARY: a seam asked for at the boundary before an RDV hold, at the start of the next vector, or at the end of the last vector of a
halted program (R136, R137). -/
def Dev.seamAt (d0 : Dev) (l : Nat) : Dev :=
  match d0.laneSite l, d0.lanePin l with
  | some n, some p =>
    if d0.siteState n ≠ SiteState.RUNNING ∨ d0.bed + ns 12 < (d0.pin p).tNext then d0
    else
    let d := d0.restSeams n l
    if d.siteState n ≠ SiteState.RUNNING then d
    else match (d.pin p).fifo.head? with
    | some v =>
      if v.seam ≠ 0 ∧ v.grid.isNone then (d.upHeads l (fun v => { v with seam := 0 })).seamIf n l v.seam true
      else d
    | none =>
      let k := (d.lane l).seamNext
      if (d.lane l).phase = .halted ∧ k ≠ 0 then (d.upLane l (fun L => { L with seamNext := 0 })).seamIf n l k false else d
  | _, _ => d0
/-- SEAM_AT_BOUNDARY. -/
def execSeamAtBoundary (l : Nat) (s : State) : Host.Outcome State Fault Refusal :=
  guardUnit (laneOk l) (s.onDev (fun d => d.seamAt l))

/-- SEAM_DEADLINE (R70): the clock runs on where the site has gone IDLE without a seam. -/
def Dev.seamDeadline (d : Dev) (n : Nat) : Dev :=
  match (d.site n).seamClock with
  | some c =>
    if !(d.site n).seamNoted ∧ c + ns (d.rd .SITE_SEAM_DEADLINE_NS n) ≤ d.now then
      ((d.raise 0x1C1 n).set1 .SITE_STATUS_STALE n).upSite n (fun S => { S with stale := true, seamNoted := true })
    else d
  | none => d
/-- SEAM_DEADLINE. -/
def execSeamDeadline (n : Nat) (s : State) : Host.Outcome State Fault Refusal :=
  guardUnit (siteOk n) (s.onDev (fun d => d.seamDeadline n))

/-- CONDITION_CHANGE (R56, R57, R61). -/
def execConditionChange (n : Nat) (s : State) : Host.Outcome State Fault Refusal :=
  guardUnit (siteOk n) (s.onDev (Dev.core (fun d => d.applyConds n)))

/-! ## Launch (R109 to R111, R119, R120, R163 to R167) -/

/-- GRID_POINT (R58, R169): the pins holding at an RDV begin their next vector at the grid point; not where the site has ended by then (R48). A
seam of the boundary before the hold comes first. -/
def Dev.gridPoint (d0 : Dev) (l : Nat) : Dev :=
  let d := d0.seamAt l
  match (d.lanePin l).bind (fun p => (d.pin p).fifo.head?.bind (·.grid)) with
  | some g =>
    let n := (d.laneSite l).getD 64
    if d.siteState n = SiteState.RUNNING ∧ g ≤ d.bed + ns 12 ∧ !d.endedBy n l g then
      let d1 := d.holdHead l
      (d1.lanePins l).foldl (fun d p => d.upPin p (fun P =>
        { P with tNext := g, fifo := match P.fifo with
            | v :: t => { v with grid := none } :: t
            | [] => [] })) d1
    else d
  | none => d
/-- GRID_POINT. -/
def execGridPoint (l : Nat) (s : State) : Host.Outcome State Fault Refusal :=
  guardUnit (laneOk l) (s.onDev (fun d => d.gridPoint l))

/-- Pin `p` launches vector `v`: the formatter and the elastic FIFO take it, the next vector begins a period later. -/
def Dev.launchPin (d : Dev) (p : Nat) (v : Vec) : Dev :=
  let S := (d.pin p).tNext
  let per := d.period p v.tset
  let d1 := (d.pushExp p v S per (d.pin p).vcount).format p v S false
  (d1.upPin p (fun P => { P with fifo := P.fifo.drop 1, tNext := S + per, vcount := P.vcount + 1 })).settle p ((S + per : Nat) - 8192)

/-- Lane `l` of site `n` launches the vectors at the heads of its pins' FIFOs. -/
def Dev.launchAll (m : Mems) (d : Dev) (n l : Nat) (v : Vec) (S : Nat) : Dev :=
  let d1 := (d.lanePins l).foldl (fun d p => match (d.pin p).fifo.head? with
    | some x => d.launchPin p x
    | none => d) d
  let d2 := v.marks.foldl (fun d k => d.marker n l k S) d1
  let d3 := if l < 64 then (d2.wr .SITE_VCOUNT_COUNT n (d2.rd .SITE_VCOUNT_COUNT n + 1)).tally 0x10 n 1 else d2
  let d4 := if l < 64 ∧ (d.site n).stretching ≠ 0 then
      (d3.set1 .SITE_STATUS_STRETCHED n).upSite n (fun S => { S with stretching := 0, stretched := true, underPin := none })
    else d3
  ((Dev.feed m d4 l (S - ns 12)).holdHead l).tailActs l

/-- A repetition of the vector before on pin `p` (R165); before any vector, of the idle code for a period of set `k`, the underrunning word's
(log entry 103). -/
def Dev.repeatPin (d : Dev) (p k : Nat) : Dev :=
  let S := (d.pin p).tNext
  match (d.pin p).prev with
  | some v =>
    let per := d.period p v.tset
    let d1 := (d.pushSlot p S per).format p (if v.code = Code.B then v else { v with code := Code.K }) S true
    (d1.upPin p (fun P => { P with tNext := S + per })).settle p ((S + per : Nat) - 8192)
  | none =>
    let per := d.period p k
    ((d.pushSlot p S per).upPin p (fun P => { P with tNext := S + per })).settle p ((S + per : Nat) - 8192)

/-- An underrun of lane `l` of site `n` whose lowest missing pin is `p` (R67 to R69, R163 to R165). -/
def Dev.underrun (d : Dev) (n l p w : Nat) : Dev :=
  let S := d.site n
  let may : Bool := l < 64 && d.on .SITE_CTRL_UNDERRUN_POL n && wStretch w && (d.privatePins n).isEmpty && !d.inSpan n &&
    decide (S.stretching < d.rd .SITE_STRETCH_MAX_COUNT n)
  if may then
    let q := S.underPin.getD p
    let d1 := if S.stretching = 0 then d.raiseIrq l 2 else d
    let d2 := (d1.lanePins l).foldl (fun d p => d.repeatPin p (wTset w)) d1
    ((d2.set1 .PIN_STREAM_STATUS_STRETCHED q).count .PIN_STREAM_COUNT_STRETCH_REPS q 1 |>.tally 0x12 n 1).upSite n
      (fun S => { S with stretching := S.stretching + 1, underPin := some q })
  else
    (((d.set1 .PIN_STREAM_STATUS_UNDERRUN (S.underPin.getD p)).set1 .SITE_STATUS_UNDERRUN n).raise 0x1C2 n).stopSite n 2 Status.UNDERRUN Status.WITHDRAWN false

/-- FAIL_STOP reaches the Site Fabric by Bedrock time `t` (R222). -/
def Dev.failStopDue (d : Dev) (n t : Nat) : Bool :=
  match (d.site n).failStop with
  | some c => decide (c ≤ t)
  | none => false

/-- What halts a site at a boundary (R111, R141, R149, R163): a sequencer fault, a stream error of pins, data missing on a pin for a word. -/
inductive Cause where
  | fault (v : Nat) | bad (ps : List Nat) | data (p w : Nat)
  deriving DecidableEq, Repr

/-- What stands against the launch of lane `l`'s vector of boundary `T`: it is in error, or has entered the FIFO after its launch time, or is not
there because the word before it met a fault, its data is missing or its word has not been executed. -/
def Dev.boundaryCause (m : Mems) (d : Dev) (l T : Nat) : Option Cause :=
  let L := d.lane l
  match (d.lanePin l).bind (fun p => (d.pin p).fifo.head?) with
  | some v =>
    let bad := d.badHeads (d.lanePins l)
    if v.grid.isSome then none
    else if bad ≠ [] then some (.bad bad)
    else if (T - ns 12) / cycleTicks < v.enter / cycleTicks then some (match v.late with | some p => .data p v.word | none => .fault 8)
    else none
  | none =>
    match L.fault with
    | some v => some (.fault v)
    | none =>
      match L.phase with
      | .emit =>
        if L.kind = .k ∨ L.kind = .idle then none else (Dev.missing m d l).head?.map (fun p => .data p (Dev.curWord m d l))
      | .ready =>
        if L.upc.isSome ∧ L.heldData.isSome then (Dev.missing m d l).head?.map (fun p => .data p (Dev.curWord m d l))
        else if T < L.freeAt + ns 12 ∨ (L.upc.isNone ∧ !d.held l L.waddr) then some (.fault 8) else none
      | _ => none

/-- The boundary at which the next vector of lane `l` begins: where it has not been placed after an RDV, the grid point. -/
def Dev.nextAt (d : Dev) (l p : Nat) : Nat :=
  if (d.pin p).fifo = [] then (d.lane l).gridNext.getD (d.pin p).tNext else (d.pin p).tNext

/-- The pins of lane `l`, which wait for a grid point with nothing placed, have reached it. -/
def Dev.toGrid (d : Dev) (l : Nat) : Dev :=
  match (d.lanePin l).map (fun p => (d.pin p).fifo), (d.lane l).gridNext with
  | some [], some g => ((d.lanePins l).foldl (fun d p => d.upPin p (fun P => { P with tNext := g })) d).upLane l (fun L => { L with gridNext := none })
  | _, _ => d

/-- A cause of lane `l` takes effect on site `n` at its boundary, after an RDV the grid point (R141, R163 to R165). -/
def Dev.applyCause (d : Dev) (n l : Nat) (c : Cause) : Dev :=
  match c with
  | .fault v => (d.toGrid l).laneFaultNow l v
  | .bad ps => (d.toGrid l).streamError n ps
  | .data p w => (d.toGrid l).underrun n l p w

/-- Lane `l` halts site `n` at boundary `T`; a cause of another lane that meets its own in the same engine cycle is raised as well, and the first in
rank decides (R140, R167, R328). -/
def Dev.boundaryHalt (m : Mems) (d : Dev) (n l T : Nat) (c : Cause) : Dev :=
  let d1 := d.applyCause n l c
  if d1.siteState n = SiteState.RUNNING then d1
  else ((d.siteLanes n).filter (fun k => k != l && ((d.lanePin k).map (fun p =>
      decide (d.nextAt k p ≤ d.bed + ns 12) && (d.nextAt k p - ns 12) / cycleTicks == (T - ns 12) / cycleTicks)).getD false)).foldl (fun e k =>
    match Dev.boundaryCause m d k (((d.lanePin k).map (d.nextAt k)).getD T) with
    | some c => e.applyCause n k c
    | none => e) d1

/-- In the 12 ns before site `n` begins at `t` the vectors only leave the FIFO; the start drives them (R51, R109). A vector not there at its launch
time is a starvation at once (R111, R141), which ends a resumed site's drive at `t`; the pin whose data is missing then is the one that underruns at
the start (R163). -/
def Dev.preLaunch (m : Mems) (d : Dev) (n l t : Nat) : Dev :=
  let d1 := Dev.feed m d l d.bed
  if d1.siteState n ≠ d.siteState n ∨ (d1.site n).early.isSome then d1
  else match Dev.boundaryCause m d1 l t with
    | some (.fault v) => (d1.laneFaultNow l v).upSite n (fun S => { S with endAt := S.endAt.map (max t) })
    | some (.data p _) => d1.upSite n (fun S => { S with underPin := some (match S.underPin with | some q => min p q | none => p) })
    | _ => d1

/-- VECTOR_LAUNCH. -/
def Dev.launch (m : Mems) (d : Dev) (l : Nat) : Dev :=
  match d.laneSite l, d.lanePin l with
  | some n, some p =>
    let T := d.nextAt l p
    match d.startsAt n with
    | some t => if t ≤ d.bed + ns 12 then Dev.preLaunch m d n l t else d
    | none =>
    if d.siteState n ≠ SiteState.RUNNING ∨ d.bed + ns 12 < T ∨ d.endedBy n l T then d
    else if d.failStopDue n (T - ns 12) then d.stopSite n 2 Status.FAIL_STOP Status.WITHDRAWN false
    else if d.spanHaltDue n (T - ns 12) then d.spanStop n
    else
      let d1 := Dev.feed m d l d.bed
      match Dev.boundaryCause m d1 l T with
      | some c => Dev.boundaryHalt m d1 n l T c
      | none =>
        match (d1.pin p).fifo.head? with
        | some v => if v.seam ≠ 0 ∨ v.grid.isSome then d1 else Dev.launchAll m d1 n l v T
        | none => d1
  | _, _ => d
/-- VECTOR_LAUNCH. -/
def execVectorLaunch (l : Nat) (s : State) : Host.Outcome State Fault Refusal :=
  guardUnit (laneOk l) (s.onDevM (fun m d => Dev.launch m d l))

/-! ## The end of a burst (R48, R49, R52, R135, R190) -/

/-- The shared program has halted and the last vector of the shared pins has ended (R48, R135). -/
def Dev.programEnded (d : Dev) (n : Nat) : Bool :=
  match d.lanePin n with
  | some p => (d.lane n).phase == .halted && (d.pin p).fifo.isEmpty && decide ((d.pin p).tNext ≤ d.bed)
  | none => false

/-- The drive of site `n` has ended at `t`: the DSQs stop, but for an image's microcode on its way to the yield point at which it takes the ABORT or in
its handler (R83, R84); the seam, the idle codes 1 ns after each pin's end (R48, R190). -/
def Dev.endDrive (d : Dev) (n t : Nat) : Dev :=
  let d1 := (d.privatePins n).foldl (fun d p => d.dropFifo p) d
  let d2 := (d1.siteLanes n).foldl (fun d l => d.upLane l (fun L =>
    if L.upc.isSome && (L.hand == some 0 || L.irqs.any (·.1 == 0)) then L else { L with phase := .stopped, fault := none })) d1
  let d3 := (d2.members n).foldl (fun d p =>
    d.idleAt p (max t (d.pin p).tNext + ns 1 : Nat)) d2
  (d3.fullSeam n).upSite n (fun S => { S with ended := true, endAt := some t, lastEnd := t })

/-- BURST_END: a running site first makes the seam that its program asked for at its end (R136). A fail stop reaches a paused site too
(R222). -/
def Dev.burstEnd (d : Dev) (n : Nat) : Dev :=
  let st := d.siteState n
  if st = SiteState.DRAINING ∧ !(d.site n).ended then
    match (d.site n).endAt with
    | some t => if t ≤ d.bed then d.endDrive n t else d
    | none => d
  else if (st = SiteState.RUNNING ∨ st = SiteState.PAUSED) ∧ d.failStopDue n d.bed then d.stopSite n 2 Status.FAIL_STOP Status.WITHDRAWN false
  else if st = SiteState.RUNNING ∧ d.programEnded n then
    let d1 := d.seamAt n
    if d1.siteState n = SiteState.RUNNING then
      (d1.wr .SITE_STATUS_STATE n SiteState.DRAINING).endDrive n (((d1.lanePin n).map (fun p => (d1.pin p).tNext)).getD d1.bed)
    else d1
  else d
/-- BURST_END. -/
def execBurstEnd (n : Nat) (s : State) : Host.Outcome State Fault Refusal :=
  guardUnit (siteOk n) (s.onDev (fun d => d.burstEnd n))

/-- The RUN of a drained site completes, its report is taken, the site is IDLE and its sequencers' values are lost; the STOPs follow (R49, R108,
R304, R328); one that had not yet taken its ABORT loses its routine there (R87). A STOP-mode fail judged while no halt had decided the status gives FAIL_STOP (R222). -/
def Dev.drained (d : Dev) (n : Nat) : Dev :=
  let S := d.site n
  let st := match S.cause with
    | some (_, s) => s
    | none => if S.failStop.isSome then Status.FAIL_STOP else Status.OK
  let d1 := match S.run with
    | some e => (d.finish e st (d.runResult n)).report e
    | none => d
  let d2 := S.stops.foldl (fun d e => (d.finish e Status.OK (d.stopResult n)).upEntry e (fun x => { x with after := S.run })) d1
  let d3 := match S.resume with
    | some e => d2.finish e Status.ABORTED_PARTIAL 0
    | none => d2
  let d4 := (d3.siteLanes n).foldl (fun d l => if (d.lane l).irqs.any (·.1 == 0) then d.dsqPartial l else d) d3
  (((d4.siteLanes n).foldl (fun d l => d.stopLane l) d4).upSite n (fun S => { S with resume := none })).toIdle n

/-- DRAIN_END (R49, R52, R206, R217, R219, R225). -/
def Dev.drainEnd (d : Dev) (n : Nat) : List Put × Dev :=
  if d.siteState n = SiteState.DRAINING ∧ (d.site n).ended ∧ d.compareDone n then
    let d1 := d.closeOut n
    if d1.queuesEmpty n then
      let r := d1.putMark n
      (r.1, r.2.drained n)
    else ([], d1)
  else ([], d)
/-- DRAIN_END. -/
def execDrainEnd (n : Nat) (s : State) : Host.Outcome State Fault Refusal :=
  guardUnit (siteOk n) (s.onMem (fun _ d => d.drainEnd n))

/-! ## Streams, timing-set loads, clears -/

/-- How long pin `p`'s buffered data lasts (R156): vectors ahead at the present period; before the first vector that of timing set 0, and
lines asked for count (log entry 79). -/
def Dev.runsOut (d : Dev) (p : Nat) : Nat :=
  d.ahead p * d.period p (((d.pin p).prev.map (·.tset)).getD 0)

/-- The pin that the Stream Refill Unit serves next (R156). -/
def Dev.refillNext (d : Dev) : Option Nat :=
  match (List.range 256).filter d.mayRefill with
  | [] => none
  | p :: t => some (t.foldl (fun m q => if d.runsOut q < d.runsOut m then q else m) p)

/-- REFILL_REQUEST. -/
def Dev.refill (m : Mems) (d : Dev) : Dev :=
  match d.refillNext with
  | none => d
  | some p =>
    Dev.refillPin m p 256 d
/-- REFILL_REQUEST. -/
def execRefillRequest (s : State) : Host.Outcome State Fault Refusal :=
  guardUnit true (s.onDevM (fun m d => Dev.refill m d))

/-- The lane that pin `p` runs. -/
def Dev.laneOf (d : Dev) (p : Nat) : Nat :=
  match d.siteOf p with
  | some n => if d.isPrivate n p then 64 + p else n
  | none => 64 + p

/-- The stretch of lane `l` has ended: a request not yet taken is withdrawn (R85); SSI 4.2's STRETCH handler returns. -/
def Dev.withdrawStretch (m : Mems) (d : Dev) (l : Nat) : Dev :=
  if (Dev.missing m d l).isEmpty then
    let back : Bool := d.native l && (d.lane l).hand == some 2
    d.upLane l (fun L => { L with irqs := L.irqs.filter (fun i => i.1 != 2), link := if back then none else L.link, hand := if back then none else L.hand })
  else d

/-- LINE_ARRIVAL (R153, R156): the oldest request of pin `p`, once the memory has served it. -/
def Dev.lineArrival (m : Mems) (d : Dev) (p : Nat) : List Put × Dev :=
  match (d.pin p).refills with
  | [] => ([], d)
  | r :: _ =>
    match (if r.hint then (d.pin p).hintEnt else tget (fun _ => none) (d.pin p).ents r.entry) with
    | none => ([], d.upPin p (fun P => { P with refills := P.refills.drop 1 }))
    | some e =>
      let a := e.addr
      let waits : Bool := d.pcs.any (fun c => c.2.reads.any (fun q => q.who == .stream p && decide (a + 64 * r.line ≤ q.addr) &&
        decide (q.addr < a + 64 * (r.line + r.n))))
      if waits then ([], d)
      else
        let puts := (List.range r.n).filterMap (fun k =>
          ((d.pin p).lines.find? (fun s => s.2.used && s.2.entry == r.entry && s.2.idx == r.line + k && s.2.hint == r.hint)).map (fun s =>
            Put.vlb (p * 131072 + s.1 * 64) (readMem byte0 m.hbm (a + 64 * (r.line + k)) 64)))
        let d1 := (Dev.arrived m d p r a e.typ).tally 0x30 p r.n
        let m1 := puts.foldl Mems.put m
        (puts, Dev.withdrawStretch m1 (Dev.feed m1 d1 (d.laneOf p) d1.bed) (d.laneOf p))
/-- LINE_ARRIVAL. -/
def execLineArrival (p : Nat) (s : State) : Host.Outcome State Fault Refusal :=
  guardUnit (decide (p < 256)) (s.onMem (fun m d => Dev.lineArrival m d p))

/-- A set image written to the shadow of set `k` of pin `p` (R174). -/
def Dev.setImage (d0 : Dev) (p k : Nat) (img : List Byte) : Dev :=
  let d := (tsFields.foldl (fun d f => d.stage f (tsKey p k)) d0).stage .PIN_TS_PENDING_SET p
  let w := fun i => ofBytes ((img.drop (4 * i)).take 4)
  let i := tsKey p k
  let d1 := ((((d.wr .PIN_TS_PERIOD_PERIOD i (w 0)).wr .PIN_TS_MODE_FORMAT i (w 1)).wr .PIN_TS_MODE_CMODE i (bits (w 1) 4 2)).wr
    .PIN_TS_MODE_BURST i (bits (w 1) 8 1)).wr .PIN_TS_DON_T i (w 2)
  let d2 := ((((d1.wr .PIN_TS_DDAT_T i (w 3)).wr .PIN_TS_DRET_T i (w 4)).wr .PIN_TS_DOFF_T i (w 5)).wr .PIN_TS_SOPEN_T i (w 6)).wr
    .PIN_TS_SCLOSE_T i (w 7)
  d2.wr .PIN_TS_PENDING_SET p (setBit (d2.rd .PIN_TS_PENDING_SET p) k true)

/-- TSET_LOAD writes its next image (R174, R303, R307). -/
def Dev.tsetLoad (d : Dev) (e : Nat) (img : List Byte) : Dev :=
  match d.open? e 0x24 with
  | none => d
  | some x =>
    let first := descTarget x.desc
    let sets := (List.range 32).filter (bitAt (descField x.desc 16 0 32))
    let pins := descField x.desc 20 0 16
    if sets = [] ∨ pins = 0 ∨ 256 < first + pins then d.finish e Status.INVALID 0
    else
      let i := x.progress
      let p := first + i / sets.length
      let d1 := (((d.ask (descField x.desc 8 0 64 + 32 * i) 32).start e).setImage p (sets.getD (i % sets.length) 0) img).upEntry e (fun x => { x with progress := i + 1 })
      let lastOfPin : Bool := (i + 1) % sets.length == 0
      let ended : Bool := i + 1 == pins * sets.length
      let d2 := if lastOfPin ∧ descField x.desc 22 0 1 = 1 then d1.tsCommit p (descField x.desc 16 0 32) else d1
      if ended then d2.finish e Status.OK ((i + 1) * 2 ^ 96) else d2
/-- TSET_LOAD. -/
def execTsetLoad (e : Nat) (image : List Byte) (s : State) : Host.Outcome State Fault Refusal :=
  guardUnit true (s.onDev (fun d => d.tsetLoad e image))

/-- A write to FR_SITE_CTRL of site `n` (R20, R218). -/
def Dev.frCtrl (d : Dev) (n v : Nat) : Dev :=
  let change : Bool := bitAt v 1 || (b2n (bitAt v 0) != d.rd .FR_SITE_CTRL_SPILL_EN n)
  if !change then d
  else if d.siteRunning n && !d.on .FC_STATE_SAFE 0 then d.refuse 0 (0xD_1004 + 0x40 * n)
  else
    let d1 := d.wr .FR_SITE_CTRL_SPILL_EN n (bits v 0 1)
    if bitAt v 1 then d1.frClear n else d1

end Sys2Proof.Machine
end

