-- ==== Sys2Proof/Machine/ControlStore.lean ====
section
/-!
DEFINITION. The Control Store (R71 to R101): containers and their checks, the load-time proof, loads and verifies.
-/
namespace Sys2Proof.Machine

/-! ## The microcode image (R74 to R77, R92) -/

/-- `n` numbers of `k` bytes each. -/
def numbers (k : Nat) : Nat → List Byte → List Nat
  | 0, _ => []
  | n + 1, bs => ofBytes (bs.take k) :: numbers k n (bs.drop k)

/-- A payload taken apart. -/
structure Image where
  build : Nat
  major : Nat
  minor : Nat
  micro : List Nat
  nano : List Nat
  dsq : List Nat
  csq : List Nat

/-- The counts M and N of a payload's manifest. -/
def payM (b : List Byte) : Nat := ofBytes ((b.drop 4).take 2)
def payN (b : List Byte) : Nat := ofBytes ((b.drop 6).take 2)

/-- The sections of a payload. -/
def imageOf (b : List Byte) : Image :=
  let M := payM b
  let N := payN b
  { build := ofBytes (b.take 2), major := ofBytes ((b.drop 2).take 1), minor := ofBytes ((b.drop 3).take 1)
    micro := numbers 4 M (b.drop 64), nano := numbers 24 N (b.drop (64 + 4 * M))
    dsq := numbers 2 64 (b.drop (64 + 4 * M + 24 * N)), csq := numbers 2 64 (b.drop (64 + 4 * M + 24 * N + 128)) }

/-- MODE, CSEL, NEXT and NANO of a microword (R74). -/
def mwMode (w : Nat) : Nat := bits w 0 2
def mwCsel (w : Nat) : Nat := bits w 2 5
def mwNext (w : Nat) : Nat := bits w 7 14
def mwNano (w : Nat) : Nat := bits w 21 11

/-- A yield point: mode DISPATCH or YIELD. -/
def mwYields (w : Nat) : Bool := decide (2 ≤ mwMode w)

/-- A rejection: REASON, the failing word where the check names one, and whether it is a nano-word. -/
structure Reject where
  reason : Nat
  addr : Option Nat
  nano : Bool
  deriving DecidableEq, Repr

/-- Check 1: the section sizes and counts. -/
def sectionOk (b : List Byte) : Bool :=
  decide (64 ≤ b.length) && decide (26 ≤ payM b) && decide (payM b ≤ 16384) && decide (1 ≤ payN b) && decide (payN b ≤ 2048) &&
    b.length == 64 + 4 * payM b + 24 * payN b + 256

/-- Check 2 of a microword. -/
def microFieldOk (w : Nat) : Bool :=
  match mwMode w with
  | 1 => decide (mwCsel w < 0x12) && mwNext w % 2 == 0
  | 2 => mwCsel w == 0 && mwNext w == 0
  | _ => mwCsel w == 0

/-- The action fields of the DSQ half but for SITE and VEC: SEQW, STRM, COP, SOP, ROP, CND, FLT (R76). -/
def nanoOther (v : Nat) : Bool :=
  bits v 185 3 != 0 || bits v 182 3 != 0 || bits v 176 3 != 0 || bits v 173 3 != 0 || bits v 168 3 != 0 || bits v 162 4 != 0 ||
    bits v 152 4 != 0

/-- The DSQ half acts. -/
def nanoDsq (v : Nat) : Bool := nanoOther v || bits v 188 4 != 0 || bits v 156 4 != 0 || bits v 160 2 != 0

/-- The CSQ half acts beside JUDGE: FAILM, LSR, OFS, PUB, STMP. -/
def nanoCsqOther (v : Nat) : Bool :=
  bits v 88 4 != 0 || bits v 84 4 != 0 || bits v 80 4 != 0 || bits v 76 4 != 0 || bits v 72 4 != 0

/-- Check 2 of a nano-word. -/
def nanoFieldOk (v : Nat) : Bool :=
  decide (bits v 188 4 ≤ 4) && decide (bits v 185 3 ≤ 5) && decide (bits v 182 3 ≤ 3) && decide (bits v 176 3 ≤ 5) &&
    decide (bits v 173 3 ≤ 3) && decide (bits v 168 3 ≤ 5) && decide (bits v 162 4 ≤ 3) && decide (bits v 160 2 ≤ 2) &&
    decide (bits v 156 4 ≤ 8) && bits v 144 8 == 0 && decide (bits v 92 4 ≤ 2) && decide (bits v 88 4 ≤ 3) &&
    decide (bits v 84 4 ≤ 3) && decide (bits v 80 4 ≤ 2) && decide (bits v 76 4 ≤ 2) && decide (bits v 72 4 ≤ 3) &&
    bits v 64 8 == 0 && bits v 0 16 == 0 && !(nanoDsq v && (nanoCsqOther v || bits v 92 4 != 0))

/-- How many blocking values a nano-word carries: VEC, the waits of SITE, JUDGE. -/
def nanoBlocks (v : Nat) : Nat :=
  b2n (bits v 188 4 != 0) + b2n (bits v 156 4 != 0 && decide (bits v 156 4 ≤ 4)) + b2n (bits v 92 4 != 0)

/-- Check 4 of a nano-word (R80). -/
def nanoBlockOk (v : Nat) : Bool :=
  nanoBlocks v == 0 ||
    (nanoBlocks v == 1 && !nanoOther v && !nanoCsqOther v && decide (bits v 156 4 ≤ 4))

/-- The index of the first element that fails `p`. -/
def firstBad (p : Nat → Bool) (l : List Nat) : Option Nat := l.findIdx? (fun x => !p x)

/-- Check 2 (FIELD): the manifest, the microwords, the nano-words, the tables. -/
def checkField (b : List Byte) (I : Image) : Option Reject :=
  if ofBytes ((b.drop 8).take 56) ≠ 0 then some ⟨6, none, false⟩
  else match firstBad microFieldOk I.micro with
    | some a => some ⟨6, some a, false⟩
    | none => match firstBad nanoFieldOk I.nano with
      | some a => some ⟨6, some a, true⟩
      | none => if (I.dsq ++ I.csq).any (fun e => bitAt e 14) then some ⟨6, none, false⟩ else none

/-- Check 3 (RANGE). -/
def checkRange (I : Image) : Option Reject :=
  let M := I.micro.length
  let ok := fun w => decide (mwNano w < I.nano.length) && decide (mwNext w < M) && (mwMode w != 1 || decide (mwNext w + 1 < M))
  match firstBad ok I.micro with
  | some a => some ⟨7, some a, false⟩
  | none => if (I.dsq ++ I.csq).any (fun e => bitAt e 15 && decide (M ≤ bits e 0 14)) then some ⟨7, none, false⟩ else none

/-- Check 4 (BLOCKING). -/
def checkBlocking (I : Image) : Option Reject :=
  match firstBad nanoBlockOk I.nano with
  | some a => some ⟨8, some a, true⟩
  | none =>
    let N := I.nano.toArray
    match firstBad (fun w => mwMode w == 3 || nanoBlocks (N.getD (mwNano w) 0) == 0) I.micro with
    | some a => some ⟨8, some a, false⟩
    | none => none

/-! ### The micro-control graph without the edges that leave yield points (R91) -/

/-- The successors of a microword in that graph. -/
def mwSucc (w : Nat) : List Nat :=
  match mwMode w with
  | 0 => [mwNext w]
  | 1 => [mwNext w, mwNext w + 1]
  | _ => []

/-- One round: a word is known to reach only yield points when all its successors are; with the longest yield-free run. -/
def depthRound (M : Array Nat) (D : Array Nat) : Array Nat :=
  M.map (fun w =>
    let ds := (mwSucc w).map (fun a => D.getD a 0)
    if mwYields w then 1 else if ds.any (· == 0) then 0 else 1 + ds.foldl max 0)

/-- Rounds until nothing changes: depth(m), 0 for a word from which a cycle is reached. -/
def depths (M : Array Nat) : Nat → Array Nat → Array Nat
  | 0, D => D
  | k + 1, D =>
    let D' := depthRound M D
    if D' = D then D else depths M k D'

/-- The walk from `a` through words from which a cycle is reached. -/
def walk (M D : Array Nat) : Nat → Nat → List Nat
  | 0, _ => []
  | k + 1, a =>
    a :: (match (mwSucc (M.getD a 0)).find? (fun x => D.getD x 0 == 0) with
      | some x => walk M D k x
      | none => [])

/-- The lowest address on the cycle that the walk from `a` runs into. -/
def cycleLow (M D : Array Nat) (a : Nat) : Nat :=
  let n := M.size
  let c := (walk M D (n + 1) a).getLastD a
  let w := walk M D (n + 1) c
  let loop := c :: (w.drop 1).takeWhile (· != c)
  loop.foldl min c

/-- Checks 5 and 6 (CYCLE, LENGTH): LENGTH names the first node of the longest path, of equally long ones the lowest (R91; log entry 101). -/
def checkGraph (I : Image) : Option Reject :=
  let M := I.micro.toArray
  let D := depths M M.size (M.map (fun _ => 0))
  match D.toList.findIdx? (· == 0) with
  | some a => some ⟨9, some (cycleLow M D a), false⟩
  | none =>
    let top := D.toList.foldl max 0
    if 64 < top then some ⟨10, D.toList.findIdx? (· == top), false⟩ else none

/-- The structural checks in order (R90): the first that fails. -/
def checkPayload (b : List Byte) : Option Reject :=
  if !sectionOk b then some ⟨5, none, false⟩
  else
    let I := imageOf b
    (checkField b I).or ((checkRange I).or ((checkBlocking I).or (checkGraph I)))

/-! ## Containers (R93, R480) -/

/-- The key slot that a container names. -/
def conSlot (c : List Byte) : Nat := ofBytes ((c.drop 7).take 1)
/-- SEQ of a container. -/
def conSeq (c : List Byte) : Nat := ofBytes ((c.drop 12).take 4)
/-- LENGTH of a container. -/
def conLen (c : List Byte) : Nat := ofBytes ((c.drop 8).take 4)
/-- The payload of a container. -/
def conPayload (c : List Byte) : List Byte := (c.drop 256).take (conLen c)

/-- The key hash that Subsoil holds for a slot (R484). -/
def keyHash (m : Mems) (slot : Nat) : Nat := ofBytes (readMem otpByte m.otp (if slot = 0 then 0x40 else 0x70) 48)

/-- Slot `slot` is programmed: the vendor's always, the customer's once its hash is not all zero (R93, R484). -/
def slotProgrammed (m : Mems) (slot : Nat) : Bool := slot == 0 || (slot == 1 && keyHash m 1 != 0)

/-- The checks of R93 on a container of TYPE `typ`, the slots of `slots` permitted: the REASON of the first that fails. A key
that Subsoil does not hold fails as its signature (R480). -/
def conCheck (m : Mems) (typ slots : Nat) (c : List Byte) : Option Nat :=
  let slot := conSlot c
  let key := (c.drop 64).take 96
  if c.length < 256 ∨ ofBytes (c.take 4) ≠ 0x574C4150 ∨ ofBytes ((c.drop 4).take 1) ≠ 1 ∨ ofBytes ((c.drop 5).take 1) ≠ typ ∨
      ofBytes ((c.drop 6).take 1) ≠ 0 ∨ c.length < 256 + conLen c then some 1
  else if 2 ≤ slot ∨ !bitAt slots slot ∨ !slotProgrammed m slot then some 2
  else if (Config.sha384 (conPayload c)).toNat ≠ ofBytes ((c.drop 16).take 48) then some 3
  else if (Config.sha384 key).toNat ≠ keyHash m slot ∨ !Config.ecdsaOk (c.take 160) ((c.drop 160).take 96) key then some 4
  else none

/-- Why a microcode container is rejected, if it is. -/
def ucodeReject (m : Mems) (slots : Nat) (c : List Byte) : Option Reject :=
  match conCheck m 2 slots c with
  | some r => some ⟨r, none, false⟩
  | none => checkPayload (conPayload c)

/-! ## Loads (R94 to R96, R100, R101) -/

/-- RESULT of a rejection (R307). -/
def rejectResult (reason nano addr : Nat) : Nat := reason * 2 ^ 60 + nano * 2 ^ 59 + addr * 2 ^ 45

/-- DATA of an IMAGE entry (R487). -/
def imageData (typ reason addr nano : Nat) (reload : Bool) : Nat :=
  typ * 2 ^ 248 + reason * 2 ^ 244 + addr * 2 ^ 230 + nano * 2 ^ 229 + b2n reload * 2 ^ 228

/-- A rejection is recorded (R90, R96); where the check names no word, ADDR is open. -/
def Dev.rejectImage (d : Dev) (r : Reject) (reload : Bool) : Nat × Dev :=
  let a := r.addr.getD (d.openVal 14)
  let d1 := ((((d.took.set1 .CS_LOAD_ERR_VALID 0).wr .CS_LOAD_ERR_NANO 0 (b2n r.nano)).wr .CS_LOAD_ERR_REASON 0 r.reason).wr
    .CS_LOAD_ERR_ADDR 0 a).raise 0x100 0
  (a, d1.oweFault 6 0x100 (imageData 2 r.reason a (b2n r.nano) reload))

/-- Copy `k` is repaired: it matched after its rewrite (R94, R98). -/
def Dev.copyRepaired (d : Dev) (k : Nat) : Dev :=
  (((d.raise 0x101 k).set1 .CS_REPAIR_VALID 0).wr .CS_REPAIR_LAST_COPY 0 k).count .CS_REPAIR_COUNT 0 1

/-- Copy `k` is lost: its octet goes out of service (R94, R96). -/
def Dev.copyLost (d : Dev) (k : Nat) (reload : Bool) : Dev :=
  let d1 := (((d.raise 0x102 k).set1 .CS_REPAIR_VALID 0).wr .CS_REPAIR_LAST_COPY 0 k).octetDown k
  (d1.wr .CS_STATUS_COPY_OK 0 (setBit (d1.rd .CS_STATUS_COPY_OK 0) k false)).oweFault 6 0x102 (imageData 2 0 0 0 reload)

/-- LOADED: every copy in service holds the image, and there is one; with none, R95. -/
def Dev.judgeLoaded (d : Dev) (reload : Bool) : Dev :=
  let ok := d.rd .CS_STATUS_COPY_OK 0
  let oct := d.rd .DEV_UNITS_OCT_OK 0
  if ok = 0 then ((d.clr .CS_STATUS_LOADED 0).raise 0x103 0).oweFault 6 0x103 (imageData 2 0 0 0 reload)
  else d.wr .CS_STATUS_LOADED 0 (b2n ((List.range 32).all (fun k => !bitAt oct k || bitAt ok k)))

/-- The verified payload becomes what every copy holds (R72, R92). -/
def Dev.takeImage (d : Dev) (b : List Byte) (slot : Nat) : Dev :=
  let I := imageOf b
  let tab := fun (l : List Nat) => (l.zip (List.range l.length)).foldl (fun t x => tset (fun _ => 0) t x.2 x.1) ([] : Tab Nat)
  let g := (Config.sha384 b).toNat
  let d1 := { d with cs := { d.cs with micro := tab I.micro, nano := tab I.nano, dsq := tab I.dsq, csq := tab I.csq, differs := [] } }
  let d2 := (List.range 6).foldl (fun d k => d.wr .CS_DIGEST_D k (bits g (64 * k) 64)) d1
  (((((d2.wr .CS_IMAGE_BUILD 0 I.build).wr .CS_IMAGE_MAJOR 0 I.major).wr .CS_IMAGE_MINOR 0 I.minor).wr .CS_IMAGE_SLOT 0 slot).wr
    .CS_IMAGE_MWORDS 0 I.micro.length).wr .CS_IMAGE_NANOS 0 I.nano.length

/-- An image is written to every copy and read back (R94, R95): bit k of `bad`: copy k differed once, of `lost`: twice. -/
def Dev.install (d : Dev) (b : List Byte) (slot bad lost : Nat) (reload : Bool) : Dev :=
  let oct := d.rd .DEV_UNITS_OCT_OK 0
  let ks := (List.range 32).filter (bitAt oct)
  let d1 := (d.takeImage b slot).wr .CS_STATUS_COPY_OK 0 oct
  let d2 := ks.foldl (fun d k =>
    if bitAt bad k then (if bitAt lost k then d.copyLost k reload else d.copyRepaired k) else d) d1
  let d3 : Dev := { d2 with cs := { d2.cs with lastVerify := ks.foldl (fun t k => tset (fun _ => 0) t k d2.now) d2.cs.lastVerify, wanted := 0 } }
  let d4 := d3.judgeLoaded reload
  if d4.rd .CS_STATUS_COPY_OK 0 = 0 then d4 else d4.count .CS_STATUS_LOADS 0 1

/-- Some site counts as running. -/
def Dev.anyRunning (d : Dev) : Bool := (List.range 64).any d.siteRunning

/-- A UCODE_RELOAD of `mode` in entry `e` that has not begun; a load or verify in progress holds it. -/
def Dev.reload? (d : Dev) (e mode : Nat) : Option Entry :=
  match d.open? e 0x50 with
  | some x => if x.started || d.cs.load.isSome || d.cs.verify.isSome || descField x.desc 20 0 1 != mode then none else some x
  | none => none

/-- UCODE_LOAD (R90, R93, R96, R100). -/
def Dev.ucodeLoad (m : Mems) (d : Dev) (e : Nat) (bytes : List Byte) : Dev :=
  match d.reload? e 0 with
  | none => d
  | some x =>
    if d.anyRunning then d.finish e Status.BUSY 0
    else
      let c := bytes.take (descField x.desc 16 0 32)
      let d := d.ask (descField x.desc 8 0 64) (descField x.desc 16 0 32)
      match ucodeReject m (d.rd .CS_POLICY_SLOTS 0) c with
      | some r =>
        let a := (d.start e).rejectImage r true
        a.2.finish e Status.UCODE_REJECT (rejectResult r.reason (b2n r.nano) a.1)
      | none =>
        let d1 := (d.start e).set1 .CS_STATUS_BUSY 0
        { d1 with cs := { d1.cs with load := some e, payload := conPayload c, slot := conSlot c } }
/-- UCODE_LOAD. -/
def execUcodeLoad (e : Nat) (bytes : List Byte) (s : State) : Host.Outcome State Fault Refusal :=
  guardUnit true (s.onDevM (fun m d => Dev.ucodeLoad m d e bytes))

/-- UCODE_LOAD_COMPLETE (R72, R92, R94 to R96, R101). -/
def Dev.ucodeDone (d : Dev) (bad lost : Nat) : Dev :=
  match d.cs.load with
  | none => d
  | some e =>
    let down := d.rd .DEV_UNITS_OCT_OK 0
    let d1 := (d.install d.cs.payload d.cs.slot bad lost true).clr .CS_STATUS_BUSY 0
    let d2 := { d1 with cs := { d1.cs with load := none, payload := [] } }
    let mask := down - d2.rd .DEV_UNITS_OCT_OK 0
    let st := if d2.rd .CS_STATUS_COPY_OK 0 = 0 then Status.UCODE_FAIL else Status.OK
    d2.finish e st (mask * 2 ^ 96)
/-- UCODE_LOAD_COMPLETE. -/
def execUcodeLoadComplete (bad lost : Nat) (s : State) : Host.Outcome State Fault Refusal :=
  guardUnit true (s.onDev (fun d => d.ucodeDone bad lost))

/-! ## Verifies (R98, R99) -/

/-- The cluster of copy `k` is idle. -/
def Dev.clusterIdle (d : Dev) (k : Nat) : Bool := (List.range 8).all (fun i => !d.pinRunning (8 * k + i))

/-- The verify in hand passes over the copies that are not in service or hold no image (R95) and, skipping them, those not idle; at its end it
completes. -/
def Dev.verifyOn : Nat → Dev → Dev
  | 0, d => d
  | f + 1, d =>
    match d.cs.verify with
    | none => d
    | some e =>
      let k := d.cs.vnext
      if 32 ≤ k then
        let d1 := { d with cs := { d.cs with verify := none } }.clr .CS_STATUS_BUSY 0
        let st := if d1.rd .CS_STATUS_COPY_OK 0 = 0 then Status.UCODE_FAIL else Status.OK
        d1.finish e st (d.cs.vlost * 2 ^ 96 + d.cs.vskip * 2 ^ 64)
      else if !bitAt (d.rd .DEV_UNITS_OCT_OK 0) k || !bitAt (d.rd .CS_STATUS_COPY_OK 0) k then Dev.verifyOn f { d with cs := { d.cs with vnext := k + 1 } }
      else if !d.clusterIdle k then
        Dev.verifyOn f { d with cs := { d.cs with vnext := k + 1, vskip := setBit d.cs.vskip k true } }
      else d

/-- UCODE_VERIFY (R99): the copies are verified in turn. -/
def Dev.ucodeVerify (d : Dev) (e : Nat) : Dev :=
  match d.reload? e 1 with
  | none => d
  | some _ =>
    let d1 := (d.start e).set1 .CS_STATUS_BUSY 0
    Dev.verifyOn 33 { d1 with cs := { d1.cs with verify := some e, vnext := 0, vlost := 0, vskip := 0 } }
/-- UCODE_VERIFY. -/
def execUcodeVerify (e : Nat) (s : State) : Host.Outcome State Fault Refusal :=
  guardUnit true (s.onDev (fun d => d.ucodeVerify e))

/-- Copy `k` is due for a verify: asked for by a hard stop, the interval has passed, or the verify in hand has reached it. -/
def Dev.verifyDue (d : Dev) (k : Nat) : Bool :=
  let iv := d.rd .CS_POLICY_VERIFY_MIN 0
  bitAt d.cs.wanted k || (d.cs.verify.isSome && d.cs.vnext == k) ||
    (iv != 0 && decide (tget (fun _ => 0) d.cs.lastVerify k + secs (60 * iv) ≤ d.now))

/-- COPY_VERIFY (R72, R94, R97 to R99): the read-back differs where the copy does, or where the command says so; the rewrite restores the image,
unless it differs again. A verify that no descriptor asked for is logged with the reload bit 0 (log entry 76). -/
def Dev.copyVerify (d : Dev) (k : Nat) (bad0 lost : Bool) : Dev :=
  let bad : Bool := bad0 || !d.cs.same k
  if d.verifyDue k ∧ bitAt (d.rd .CS_STATUS_COPY_OK 0) k ∧ d.clusterIdle k ∧ d.cs.load.isNone then
    let d1 := { d with cs := { d.cs with lastVerify := tset (fun _ => 0) d.cs.lastVerify k d.now, wanted := setBit d.cs.wanted k false, differs := tset (fun _ => []) d.cs.differs k [] } }
    let d2 := if bad && lost then (d1.copyLost k d1.cs.verify.isSome).judgeLoaded d1.cs.verify.isSome
      else if bad then d1.copyRepaired k else d1
    if d2.cs.verify.isSome ∧ d2.cs.vnext = k then
      Dev.verifyOn 33 { d2 with cs := { d2.cs with vnext := k + 1, vlost := setBit d2.cs.vlost k (bad && lost) } }
    else d2
  else d
/-- COPY_VERIFY. -/
def execCopyVerify (k : Nat) (bad lost : Bool) (s : State) : Host.Outcome State Fault Refusal :=
  guardUnit (decide (k < 32)) (s.onDev (Dev.core (fun d => d.copyVerify k bad lost)))

end Sys2Proof.Machine
end

