-- ==== Sys2Proof/Machine/RegFile.lean ====
section
/-!
DEFINITION. Registers as words (R13 to R21, R509, R510): the place of a register card in BAR0, the word that a register's
fields spell, and the write of a word, each field judged by its own access code and update class.
-/
namespace Sys2Proof.Machine

/-- The blocks of R509 and R510, in the order of their addresses. -/
def allBlocks : List Block :=
  [.dev, .gd, .fc, .kl, .br, .sp, .tl, .cs, .rg, .mc, .tw, .ta, .tm, .fr, .site, .rnlane, .rnport, .wv, .mcpc, .pin, .oct]

/-- Base, stride and number of a block's instances (R509, R510). -/
def Block.place : Block → Nat × Nat × Nat
  | .dev => (0x0_0000, 0x1_0000, 1) | .gd => (0x1_0000, 0x1_0000, 1) | .fc => (0x2_0000, 0x1_0000, 1)
  | .kl => (0x3_0000, 0x1_0000, 1) | .br => (0x4_0000, 0x1_0000, 1) | .sp => (0x5_0000, 0x1_0000, 1)
  | .tl => (0x6_0000, 0x1_0000, 1) | .cs => (0x7_0000, 0x1_0000, 1) | .rg => (0x8_0000, 0x1_0000, 1)
  | .mc => (0x9_0000, 0x1_0000, 1) | .tw => (0xA_0000, 0x1_0000, 1) | .ta => (0xB_0000, 0x1_0000, 1)
  | .tm => (0xC_0000, 0x1_0000, 1) | .fr => (0xD_0000, 0x1_0000, 1) | .site => (0x10_0000, 0x1000, 64)
  | .rnlane => (0x20_0000, 0x1000, 16) | .rnport => (0x21_0000, 0x1000, 4) | .wv => (0x30_0000, 0x1_0000, 8)
  | .mcpc => (0x40_0000, 0x1000, 64) | .pin => (0x100_0000, 0x4000, 256) | .oct => (0x200_0000, 0x4000, 32)

/-- One register: its block, the instance of the block, its card, its index on the card. -/
structure RegAt where
  blk : Block
  bi : Nat
  card : RegSpec
  ix : Nat
  deriving DecidableEq, Repr

/-- The number of the register among those of its name. -/
def RegAt.inst (r : RegAt) : Nat := r.bi * r.card.count + r.ix
/-- The register's BAR0 offset. -/
def RegAt.addr (r : RegAt) : Nat := r.blk.place.1 + r.bi * r.blk.place.2.1 + r.card.off + r.ix * r.card.step

/-- The card of register `r` in block `b`. -/
def Block.card (b : Block) (r : Reg) : RegSpec := (b.regs.find? (fun c => c.reg == r)).getD ⟨r, 0, 1, 0, 32, []⟩

/-- Register `r`, index `ix`, of instance `bi` of block `b`. -/
def regAt (b : Block) (r : Reg) (bi ix : Nat) : RegAt := ⟨b, bi, b.card r, ix⟩

/-- The fields of a register with their repetitions: field, instance, lowest bit. -/
def RegAt.parts (r : RegAt) : List (Fld × Nat × Nat) :=
  r.card.fields.flatMap (fun f => (List.range f.spec.rep).map (fun j => (f, r.inst * f.spec.rep + j, f.spec.lo + f.spec.step * j)))

/-- The word that the register's fields spell, a write-only field as 0 (R16, R17). -/
def Dev.regWord (d : Dev) (r : RegAt) : Nat :=
  (r.parts.map (fun x => if x.1.spec.acc = .WO then 0 else d.rd x.1 x.2.1 * 2 ^ x.2.2)).sum

/-- What a write of `v` to part `p` of the register does to one field: the block, and whether the field refuses it (R17 to R20). -/
def Dev.writePart (p : Part) (v old : Nat) (running : Bool) (a : Dev × Bool) (x : Fld × Nat × Nat) : Dev × Bool :=
  let sp := x.1.spec
  let new := bits (p.onto old v) x.2.2 sp.width
  let ones := bits (p.onto 0 v) x.2.2 sp.width
  match sp.acc with
  | .RO => a
  | .RW1C => (a.1.wr x.1 x.2.1 (a.1.rd x.1 x.2.1 &&& (((2 ^ sp.width - 1) ^^^ ones) ||| a.1.justSet x.1 x.2.1)), a.2)
  | .WO => (a.1, a.2 || (sp.cls == .I && running && ones != 0))
  | .RW =>
    if sp.cls == .I && running then (a.1, a.2 || new != a.1.rd x.1 x.2.1)
    else (a.1.wr x.1 x.2.1 new, a.2)

/-- Part `p` of register `r` written with `v` while the block runs or not; a write with a refused field is one refusal
(log entry 21). In safe state every block counts as idle but REFSEL's (R458). -/
def Dev.writeReg (d : Dev) (r : RegAt) (p : Part) (v : Nat) (running : Bool) : Dev :=
  let run := running && (!d.on .FC_STATE_SAFE 0 || r.card.reg == .BR_CTRL)
  let a := r.parts.foldl (Dev.writePart p v (d.regWord r) run) (d, false)
  if a.2 then a.1.refuse 0 (r.addr + (if p = .high then 4 else 0)) else a.1

/-- Whether a write of `v` to part `p` sets bits in the write-only field `f` of register `r`: those bits. -/
def wroteBits (f : Fld) (p : Part) (v : Nat) : Nat := bits (p.onto 0 v) f.spec.lo f.spec.width

end Sys2Proof.Machine
end

