-- ==== Sys2Proof/Machine/Tmu.lean ====
section
/-!
DEFINITION. Time measurement (R229 to R249): jobs, edges and stamps, pairing and results, summaries, the routing of inputs to
capacitor converters.
-/
namespace Sys2Proof.Machine

/-! ## The fields of a job (R238, R302) -/

/-- The body of a MEASURE. -/
structure JobSpec where
  kind : Nat
  arm : Nat
  aIn : Nat
  aEdge : Nat
  bUse : Bool
  bIn : Nat
  bEdge : Nat
  hbm : Bool
  site : Nat
  marker : Nat
  trig : Nat
  qty : Nat
  width : Nat
  low : Int
  dest : Nat
  gate : Nat
  tmo : Nat
  count : Nat
  size : Nat
  armTime : Nat

/-- The fields of entry `x`. -/
def jobSpec (x : Entry) : JobSpec :=
  let f := descField x.desc
  { kind := f 48 0 4, arm := f 48 4 3, aIn := 2 * descTarget x.desc + f 48 7 1, aEdge := f 48 8 2, bUse := f 48 10 1 == 1
    bIn := 2 * f 48 16 8 + f 48 11 1, bEdge := f 48 12 2, hbm := f 48 14 1 == 1, site := f 48 24 6, marker := f 52 0 4
    trig := f 52 4 4, qty := f 52 8 3, width := f 52 12 20, low := sgn 64 (f 16 0 64), dest := f 24 0 64, gate := f 32 0 48
    tmo := f 38 0 16, count := f 40 0 32, size := f 44 0 32, armTime := f 8 0 64 }

/-- What is formed: the KIND, for a HISTOGRAM its quantity's (7: HIGH). -/
def JobSpec.what (j : JobSpec) : Nat :=
  if j.kind = 5 then (match j.qty with | 0 => 1 | 1 => 2 | 2 => 7 | _ => 4) else j.kind

/-- Input B takes part. -/
def JobSpec.usesB (j : JobSpec) : Bool := j.bUse && (j.what == 0 || j.what == 1 || j.what == 4)

/-- The inputs that the job holds; a SEQUENCE job both of pin A (R241). -/
def JobSpec.inputs (j : JobSpec) : List Nat :=
  if j.arm = 4 then [j.aIn / 2 * 2, j.aIn / 2 * 2 + 1]
  else if j.usesB && j.bIn != j.aIn then [j.aIn, j.bIn] else [j.aIn]

/-- The MEASURE is INVALID (R238); a destination in HBM must lie in pattern memory and outside the ring contexts (R290). -/
def Dev.jobInvalid (d : Dev) (j : JobSpec) : Bool :=
  decide (6 < j.kind) || decide (4 < j.arm) || (j.arm != 4 && (j.aEdge == 3 || (j.usesB && j.bEdge == 3))) ||
    (j.kind == 5 && (decide (3 < j.qty) || j.width == 0)) || (j.gate == 0 && j.count == 0) ||
    ((j.what == 1 || j.what == 4) && !j.bUse) || (j.arm != 4 && j.usesB && j.aIn == j.bIn && j.aEdge == j.bEdge) ||
    ((j.what == 3 || j.what == 7) && j.aEdge == 2) || (j.arm == 4 && j.kind != 0) || j.dest % 64 != 0 ||
    decide (j.size < (if j.kind = 5 then 16448 else 64)) || (j.hbm && !d.localMode && !d.hbmOk j.dest j.size)

/-! ## Inputs -/

/-- A field of input `i`, which is CH of its pin when even. -/
def inpFld (ch cl : Fld) (i : Nat) : Fld := if i % 2 = 0 then ch else cl

/-- Input `i` is down (R237). -/
def Dev.inpDown (d : Dev) (i : Nat) : Bool := d.on (inpFld .PIN_TM_STATUS_CH_DOWN .PIN_TM_STATUS_CL_DOWN i) (i / 2)
/-- Input `i` is routed to a capacitor converter. -/
def Dev.inpCap (d : Dev) (i : Nat) : Bool := d.on (inpFld .PIN_TM_STATUS_CH_ROUTED .PIN_TM_STATUS_CL_ROUTED i) (i / 2)
/-- Input `i` belongs to an open job. -/
def Dev.inpBusy (d : Dev) (i : Nat) : Bool := d.tmu.jobs.any (fun j => j.inputs.contains i)

/-! ## Conversion (R231, R232) -/

/-- The band region of a unit (R414). -/
def calRegion (k u : Nat) : Nat := match k with | 0 => u / 64 | 2 => u / 64 | 3 => 5 | 4 => 4 | _ => u / 128
/-- The present band of a unit's region. -/
def Dev.calBandOf (d : Dev) (k u : Nat) : Nat := d.rd .KL_BAND_REGION (calRegion k u)
/-- The kept result of converter `c` for band `b`. -/
def CalUnit.at_ (U : CalUnit) (b c : Nat) : Option CalRes := tget (fun _ => none) U.res (16 * b + c)

/-- Input `i` converts with the tap table and the path correction of the present band from now on, where there are such; only while it belongs to no
job (R232). Of a TDC result the values from the fifth on are the table, of a COMP result the second is the path correction. -/
def Dev.loadTaps (d : Dev) (i : Nat) : Dev :=
  if d.inpBusy i then d
  else
    let path := ((d.calUnit 2 (i / 2)).at_ (d.calBandOf 2 (i / 2)) (i % 2)).map (fun r => r.vals.getD 1 0)
    let tab := ((d.calUnit 1 i).at_ (d.calBandOf 1 i) 0).map (fun r => r.vals.drop 4)
    d.upCal 1 i (fun U => { U with taps := tab.getD (if U.dropped then [] else U.taps), path := if path.isSome then path else U.path, dropped := false })

/-- The conversion of an edge that input `i` catches in the present engine cycle. A delay line catches it in period `raw` / 288 of the edge clock, at
tap `raw` % 288: T is the period's coarse count, the tap's table entry and the path correction. A capacitor TDC gives the fraction of the
cycle in ticks itself. An entry or a correction that nothing has measured is open (log entry 20). -/
def Dev.convert (d : Dev) (i raw : Nat) : Int × Dev :=
  if d.inpCap i then (((d.bed / cycleTicks * cycleTicks + raw % cycleTicks : Nat) : Int), d)
  else
    let U := d.calUnit 1 i
    let e : Int := match U.taps[raw % 288]? with | some x => x | none => ((d.openVal 13 : Nat) : Int)
    let c : Int := match U.path with | some x => x | none => ((d.took.openVal 14 : Nat) : Int) - 8192
    ((((2 * (d.bed / cycleTicks) + raw / 288 % 2) * 8192 : Nat) : Int) + e + c,
      if (U.taps[raw % 288]?).isSome && U.path.isSome then d else d.took.took)

/-! ## Routes -/

/-- The route slots of group `g`: index `4 g + s`. -/
def Dev.slotFree (d : Dev) (g : Nat) : Option Nat :=
  ((List.range 4).map (· + 4 * g)).find? (fun s => !d.on .TM_CTDC_ROUTE_VALID s)

/-- The slot that serves input `i`. -/
def Dev.slotFor (d : Dev) (i : Nat) : Option Nat :=
  ((List.range 4).map (· + 4 * (i / 64))).find? (fun s => d.on .TM_CTDC_ROUTE_VALID s &&
    d.rd .TM_CTDC_ROUTE_INPUT s == i % 2 && d.rd .TM_CTDC_ROUTE_PIN s == i / 2)

/-- The route of input `i` is judged anew, while it belongs to no job (R237): by its ROUTE field, whether its delay line is in
service, the free slots of its group. The source 0x282 is raised where AUTO routes. -/
def Dev.route1 (d : Dev) (i : Nat) : Dev :=
  if d.inpBusy i then d
  else
    let p := i / 2
    let r := d.rd (inpFld .PIN_TM_CTRL_CH_ROUTE .PIN_TM_CTRL_CL_ROUTE i) p
    let out : Bool := d.tmu.out.contains i
    let want : Bool := r == 2 || (r != 1 && out)
    let rf := inpFld .PIN_TM_STATUS_CH_ROUTED .PIN_TM_STATUS_CL_ROUTED i
    let df := inpFld .PIN_TM_STATUS_CH_DOWN .PIN_TM_STATUS_CL_DOWN i
    let down := fun (d : Dev) => if d.on df p then d else (d.set1 df p).raise 0x283 i
    let d1 := match d.inpCap i, want, d.slotFor i with
      | true, false, some s => (d.clr .TM_CTDC_ROUTE_VALID s).clr rf p
      | _, _, _ => d
    if d1.inpCap i then d1.clr df p
    else if want then
      match (if bitAt (d1.rd .DEV_UNITS_CTDC_OK 0) (i / 64) then d1.slotFree (i / 64) else none) with
      | some s =>
        let d2 := (((d1.set1 .TM_CTDC_ROUTE_VALID s).wr .TM_CTDC_ROUTE_INPUT s (i % 2)).wr .TM_CTDC_ROUTE_PIN s p).set1 rf p
        (if r = 2 then d2 else d2.raise 0x282 i).clr df p
      | none => if out then down d1 else d1.clr df p
    else if out then down d1 else d1.clr df p

/-- The route of input `i` is judged anew; a slot that it frees serves another input of its group that waits for one (R237). -/
def Dev.route (d : Dev) (i : Nat) : Dev :=
  let d1 := d.route1 i
  if d.inpCap i && !d1.inpCap i then
    ((List.range 64).map (· + 64 * (i / 64))).foldl (fun d k => if d.inpCap k then d else d.route1 k) d1
  else d1

/-! ## Jobs -/

/-- The job of entry `e`. -/
def Dev.job? (d : Dev) (e : Nat) : Option Job := d.tmu.jobs.find? (fun j => j.e == e)
/-- The job of entry `e` changed by `f`. -/
def Dev.upJob (d : Dev) (e : Nat) (f : Job → Job) : Dev :=
  { d with tmu := { d.tmu with jobs := d.tmu.jobs.map (fun j => if j.e = e then f j else j) } }

/-- The job closes: its inputs are free (R239). -/
def Dev.closeJob (d : Dev) (j : Job) (hist : Bool) : Dev :=
  let d1 : Dev := { d with tmu := { d.tmu with jobs := d.tmu.jobs.filter (fun k => k.e != j.e) } }
  let d2 := j.inputs.foldl (fun d i => d.clr (inpFld .PIN_TM_STATUS_CH_BUSY .PIN_TM_STATUS_CL_BUSY i) (i / 2)) d1
  let d3 := d2.wr .TM_STATUS_JOBS 0 (d2.rd .TM_STATUS_JOBS 0 - 1)
  let d4 := if hist then d3.wr .TM_STATUS_HISTS 0 (d3.rd .TM_STATUS_HISTS 0 - 1) else d3
  j.inputs.foldl (fun d i => (d.loadTaps i).route i) d4

/-- An earlier MEASURE waits for an input of `inputs` or, for a histogram, for a unit (R318). -/
def Dev.measureAhead (d : Dev) (x : Entry) (s : JobSpec) : Bool :=
  d.tracker.any (fun y => descOp y.desc == 0x30 && decide (y.id < x.id) && !y.done && !y.begun &&
    ((jobSpec y).inputs.any s.inputs.contains || ((jobSpec y).kind == 5 && s.kind == 5)))

/-- Strop holds input `i` back from a MEASURE: a forced window of its pin, or a step of a CAL_REQUEST in mode FORCE (R435, R440). -/
def Dev.calHolds (d : Dev) (i : Nat) : Bool :=
  (d.pin (i / 2)).forced || [1, 5].any (fun k =>
    match (d.calUnit k i).req with
    | some e => (d.calUnit k i).said.isNone && ((d.entry? e).map (fun x => descField x.desc 8 4 2 == 1)).getD false
    | none => false)

/-- MEASURE (R230, R237 to R239, R241). -/
def Dev.measure (d : Dev) (e : Nat) : Dev :=
  match d.open? e 0x30 with
  | none => d
  | some x =>
    let s := jobSpec x
    let ins := s.inputs
    if x.begun then d
    else if d.jobInvalid s then d.finish e Status.INVALID 0
    else if (s.hbm && d.localMode) || ins.any d.inpDown ||
        ins.any (fun i => !d.octOk (i / 2) || !bitAt (d.rd .DEV_UNITS_QPLL_OK 0) (i / 128)) then d.finish e Status.UNIT_DOWN 0
    else if s.arm = 1 ∧ d.fullTime s.armTime < x.born + ns 500 then d.finish e Status.LATE_START 0
    else if ins.any d.inpBusy || ins.any d.calHolds || d.measureAhead x s || (s.kind == 5 && decide (32 ≤ d.rd .TM_STATUS_HISTS 0)) then d
    else
      let ready : Bool := ins.all (fun i => d.pllOk (i / 2))
      let n := d.siteOf (s.aIn / 2)
      let j : Job := { e := e, inputs := ins, opened := d.bed, waitPll := !ready
                       ran := (n.map (fun n => decide (SiteState.RUNNING ≤ d.siteState n))).getD false }
      let d1 : Dev := { d.begin_ e with tmu := { d.tmu with jobs := d.tmu.jobs ++ [j] } }
      let d2 := ins.foldl (fun d i =>
        ((d.set1 (inpFld .PIN_TM_STATUS_CH_BUSY .PIN_TM_STATUS_CL_BUSY i) (i / 2)).wr
          (inpFld .PIN_TM_SEQ_CH_SEQ .PIN_TM_SEQ_CL_SEQ i) (i / 2) 0).startPll (i / 128)) d1
      let d3 := d2.wr .TM_STATUS_JOBS 0 (d2.rd .TM_STATUS_JOBS 0 + 1)
      if s.kind = 5 then d3.wr .TM_STATUS_HISTS 0 (d3.rd .TM_STATUS_HISTS 0 + 1) else d3
/-- MEASURE. -/
def execMeasure (e : Nat) (s : State) : Host.Outcome State Fault Refusal :=
  guardUnit true (s.onDev (fun d => d.measure e))

/-! ## Edges taken -/

/-- An edge selection takes an edge (R229). -/
def edgeSel (sel : Nat) (fall : Bool) : Bool := match sel with | 0 => !fall | 1 => fall | 2 => true | _ => false

/-- The edge is one of A's. -/
def JobSpec.isA (s : JobSpec) (e : Stamp) : Bool := e.inp == s.aIn && edgeSel s.aEdge e.fall
/-- The edge is one of B's. -/
def JobSpec.isB (s : JobSpec) (e : Stamp) : Bool := s.usesB && e.inp == s.bIn && edgeSel s.bEdge e.fall

/-- The STAMP words attached to vectors that the CSQ of pin `p`, running SSI 4.2, has not yet taken: each acts from the start of its vector's slot on
(R241). -/
def Dev.stampsDue (d : Dev) (p : Nat) : List StampSel :=
  let C := d.csq p
  if C.micro then []
  else C.exps.flatMap (fun e =>
    match C.slots.find? (fun s => s.1 == e.slot + d.rd .PIN_CMP_STATUS_OFFSET_NOW p) with
    | some (_, S) => (e.ctl.filter (fun c => c.op == 0x19)).map (fun c => ⟨S, bits c.a16 0 2, bits c.a16 2 2, c.a32⟩)
    | none => [])

/-- The selection in force at `t` (R241). -/
def Job.selAt (j : Job) (t : Nat) : Option StampSel := (j.sels.filter (fun s => decide (s.t ≤ t))).getLast?

/-- How many edges have been stamped under the selection that began at `t`. -/
def Job.under (j : Job) (t : Nat) : Nat :=
  (j.edges.filter (fun e => !e.lost && (j.selAt e.t).any (fun q => q.t == t))).length

/-- The job's input detects such an edge (R230, R241, R243). -/
def Job.detects (j : Job) (s : JobSpec) (e : Stamp) : Bool :=
  if s.arm = 4 then
    match j.selAt e.t with
    | some q => bitAt q.inputs (e.inp % 2) && edgeSel q.edge e.fall && (q.limit == 0 || decide (j.under q.t < q.limit))
    | none => false
  else s.isA e || s.isB e || ((s.what == 3 || s.what == 7) && e.inp == s.aIn)

/-- The edges that the job takes: at or after its arm time, below its gate (R240). -/
def Job.pool (j : Job) (s : JobSpec) : List Stamp :=
  match j.arm with
  | none => []
  | some a => j.edges.filter (fun e => decide (a ≤ e.t) && (s.gate == 0 || decide (e.t < a + ns s.gate)))

/-! ## Results (R242 to R245) -/

/-- What a job has formed. -/
structure Formed where
  vals : List Int := []
  unres : Nat := 0
  orphan : Nat := 0
  lost : Nat := 0
  ignored : Nat := 0

/-- A list put in order by `le`. -/
def insertBy {α : Type} (le : α → α → Bool) (x : α) : List α → List α
  | [] => [x]
  | y :: t => if le y x then y :: insertBy le x t else x :: y :: t

/-- Insertion sort, stable. -/
def sortBy {α : Type} (le : α → α → Bool) (l : List α) : List α := l.foldl (fun acc x => insertBy le x acc) []

/-- The pairing of INTERVAL (R242): stamps with their role (false a start) in the order of (q, role, T), `Q` the quantum. -/
def intervals (Q : Nat) : List (Bool × Nat) → Option Nat → Formed → Formed
  | [], _, F => F
  | (false, t) :: r, pend, F =>
    match pend with
    | none => intervals Q r (some t) F
    | some _ => intervals Q r pend { F with ignored := F.ignored + 1 }
  | (true, t) :: r, pend, F =>
    match pend with
    | none => intervals Q r none { F with orphan := F.orphan + 1 }
    | some a =>
      if t / Q = a / Q then intervals Q r none { F with vals := F.vals ++ [0], unres := F.unres + 1 }
      else intervals Q r none { F with vals := F.vals ++ [(t : Int) - a] }

/-- The order of (q, role, T). -/
def ivlLe (Q : Nat) (x y : Bool × Nat) : Bool :=
  decide (x.2 / Q < y.2 / Q) || (x.2 / Q == y.2 / Q && (b2n x.1 < b2n y.1 || (x.1 == y.1 && decide (x.2 ≤ y.2))))

/-- PERIOD (R243). -/
def periods : List Stamp → Formed → Formed
  | a :: b :: r, F =>
    if !a.lost && !b.lost && b.seq == (a.seq + 1) % 2 ^ 32 then periods (b :: r) { F with vals := F.vals ++ [(b.t : Int) - a.t] }
    else periods (b :: r) { F with lost := F.lost + 1 }
  | _, F => F

/-- DUTY (R243): `sel` the start polarity; the edges of A in order. -/
def duties (sel : Nat) : List Stamp → Formed → Formed
  | a :: r, F =>
    if edgeSel sel a.fall then
      match r.find? (fun e => edgeSel sel e.fall) with
      | none => F
      | some _ =>
        match r with
        | f :: c :: _ =>
          if !edgeSel sel f.fall && edgeSel sel c.fall && !a.lost && !f.lost && !c.lost && f.seq == (a.seq + 1) % 2 ^ 32 &&
              c.seq == (f.seq + 1) % 2 ^ 32 && decide (a.t < c.t) then
            duties sel r { F with vals := F.vals ++ [(((f.t - a.t) * 2 ^ 32 / (c.t - a.t) : Nat) : Int)] }
          else duties sel r { F with lost := F.lost + 1 }
        | _ => duties sel r { F with lost := F.lost + 1 }
    else duties sel r F
  | [], F => F

/-- HIGH (R245): a start edge to the next opposite edge. -/
def highs (sel : Nat) : List Stamp → Formed → Formed
  | a :: r, F =>
    if edgeSel sel a.fall && r.any (fun e => !edgeSel sel e.fall) then
      match r with
      | f :: _ =>
        if !edgeSel sel f.fall && !a.lost && !f.lost && f.seq == (a.seq + 1) % 2 ^ 32 then
          highs sel r { F with vals := F.vals ++ [(f.t : Int) - a.t] }
        else highs sel r { F with lost := F.lost + 1 }
      | [] => F
    else highs sel r F
  | [], F => F

/-- The pairs of SKEW (R244): edges of A and B of one SEQ; where A and B are edges of one input, whose SEQ counts both, by their order (log entry
31). -/
def skewPairs (one : Bool) (as bs : List Stamp) : List (Stamp × Stamp) :=
  if one then as.zip bs else as.filterMap (fun a => (bs.find? (fun b => b.seq == a.seq)).map (fun b => (a, b)))

/-- SKEW (R244). -/
def skews (one : Bool) (as bs : List Stamp) : Formed :=
  let ps := skewPairs one as bs
  let ok := ps.filter (fun q => !q.1.lost && !q.2.lost)
  { vals := ok.map (fun q => (q.2.t : Int) - q.1.t), lost := ps.length - ok.length, orphan := as.length + bs.length - 2 * ps.length }

/-- What a job's edges form. -/
def Dev.formed (d : Dev) (s : JobSpec) (pool : List Stamp) : Formed :=
  let as := pool.filter s.isA
  let bs := pool.filter s.isB
  match s.what with
  | 1 =>
    let Q := if d.inpCap s.aIn || d.inpCap s.bIn then 64 else 32
    let all := (as.filter (!·.lost)).map (fun e => (false, e.t)) ++ (bs.filter (!·.lost)).map (fun e => (true, e.t))
    intervals Q (sortBy (ivlLe Q) all) none {}
  | 2 => periods as {}
  | 3 => duties s.aEdge (pool.filter (fun e => e.inp == s.aIn)) {}
  | 7 => highs s.aEdge (pool.filter (fun e => e.inp == s.aIn)) {}
  | 4 => skews (s.aIn == s.bIn) as bs
  | _ => { vals := (pool.filter (!·.lost)).map (fun e => (e.t : Int)) }

/-! ## Arming (R240, R241) -/

/-- The signal that a MARKER or TRIGGER arm waits for: the first after the dispatch. -/
def Dev.firstSignal (d : Dev) (x : Entry) (k : SigKind) (unit idx : Nat) : Option Nat :=
  ((d.signals.reverse.find? (fun g => decide (x.sig0 ≤ g.no) && g.kind == k && g.unit == unit && g.idx == idx))).map (·.t)

/-- The arm time of a job, once it is known. -/
def Dev.armOf (d : Dev) (x : Entry) (s : JobSpec) (j : Job) : Option Nat :=
  match s.arm with
  | 0 => some (roundUp (x.born + ns 500) cycleTicks)
  | 1 => some (d.fullTime s.armTime)
  | 2 => d.firstSignal x .mark s.site s.marker
  | 3 => d.firstSignal x .trig s.trig 0
  | _ => j.sels.head?.map (·.t)

/-- An edge of the job has no stamp: counted, noted once per job (R236, R248). -/
def Dev.jobLost (d : Dev) (e i n : Nat) : Dev :=
  if n = 0 then d
  else
    let d1 := (d.upJob e (fun j => { j with lost := j.lost + n, noted := true })).count .PIN_TM_STATUS_LOST (i / 2) n
    if (d.job? e).any (·.noted) then d1 else d1.raise 0x281 i

/-- Of input `i`'s stamps before the arm was known, all but the last 64 have left the history (R234). -/
def forget (i : Nat) (l : List Stamp) : List Stamp :=
  let mine := fun (e : Stamp) => e.inp == i && !e.lost
  let n := (l.filter mine).length
  (l.foldl (fun (a : List Stamp × Nat) e =>
    if mine e then (a.1 ++ [if a.2 + 64 < n then { e with lost := true } else e], a.2 + 1) else (a.1 ++ [e], a.2)) ([], 0)).1

/-- The write queue drained up to now: at most 4 stamps an engine cycle (R248). -/
def Dev.drainStamps (d : Dev) : Dev :=
  { d with tmu := { d.tmu with wq := d.tmu.wq.drop (4 * (d.cycle - d.tmu.wqAt)), wqAt := d.cycle } }

/-- A STAMP job's stamp of input `i` passes to the write queue, or is lost: the queue or the destination is full. -/
def Dev.queueStamp (d : Dev) (s : JobSpec) (j : Job) (i : Nat) : Bool × Dev :=
  let d1 := d.drainStamps
  let room : Bool := decide (16 * ((j.pool s).filter (!·.lost)).length + 80 ≤ s.size)
  if !room then (true, d1.upJob j.e (fun j => { j with full := true }))
  else if 64 ≤ (d1.tmu.wq.filter (· == i)).length then (true, d1)
  else (false, { d1 with tmu := { d1.tmu with wq := d1.tmu.wq ++ [i] } })

/-- An edge of the history enters the pool of job `j`; of a STAMP job through the write queue. -/
def Dev.takeStamp (s : JobSpec) (j : Job) (a : List Stamp × Dev) (e : Stamp) : List Stamp × Dev :=
  if s.kind = 0 ∧ !e.lost then
    let q := a.2.queueStamp s { j with edges := a.1 } e.inp
    (a.1 ++ [{ e with lost := q.1 }], q.2)
  else (a.1 ++ [e], a.2)

/-- COUNT results have been formed by the first so many edges of the pool (R240). -/
def Dev.countAt (d : Dev) (s : JobSpec) (pool : List Stamp) : Option Nat :=
  if s.count = 0 then none
  else (List.range (pool.length + 1)).find? (fun k => decide (s.count ≤ (d.formed s (pool.take k)).vals.length))

/-- The job arms at `t`: the edges of its history from then on are its first; a COUNT that they complete ends it at the stamp that completes it
(R234, R240, R248). -/
def Dev.armJob (d : Dev) (x : Entry) (s : JobSpec) (j : Job) (t : Nat) : Dev :=
  let ja := { j with arm := some t }
  let pool := ({ ja with edges := j.inputs.foldl (fun l i => forget i l) j.edges }.pool s)
  let a := pool.foldl (Dev.takeStamp s ja) ([], (d.start x.id).upJob x.id (fun j => { j with arm := some t }))
  let k := d.countAt s a.1
  let es := match k with | some k => a.1.take k | none => a.1
  let d1 := a.2.upJob x.id (fun j => { j with edges := es, stop := k.map (fun _ => ((es.getLast?.map (·.t)).getD t + ns 40, 1, Status.OK)) })
  j.inputs.foldl (fun d i => d.jobLost x.id i (es.filter (fun e => e.inp == i && e.lost)).length) d1

/-- Stamps in the order of T, those of one T as they came (R235). -/
def Stamp.upTo (x y : Stamp) : Bool := decide (x.t ≤ y.t)

/-- The burst of pin `p`'s site has ended since job `j` opened (R240). -/
def Dev.burstOver (d : Dev) (p : Nat) (j : Job) : Bool :=
  match d.siteOf p with
  | none => j.ran
  | some n =>
    let st := d.siteState n
    (j.ran || decide (j.opened ≤ d.rd .SITE_START_TIME_T n)) &&
      (st == SiteState.EMPTY || st == SiteState.IDLE || st == SiteState.DOZE || (st == SiteState.DRAINING && (d.site n).ended))

/-- An edge at `t` comes behind the end of the burst that ends a SEQUENCE job. -/
def Dev.afterBurst (d : Dev) (s : JobSpec) (j : Job) (t : Nat) : Bool :=
  s.arm == 4 && d.burstOver (s.aIn / 2) j && (match d.siteOf (s.aIn / 2) with | some n => decide ((d.site n).lastEnd < t) | none => false)

/-- Job `j` may still use an edge at `t`: it has not ended, or COUNT ended it with a later stamp, the decision being due 40 ns after it (R240). -/
def Job.mayUse (j : Job) (t : Nat) : Bool :=
  match j.stop with
  | none => true
  | some (e, 1, _) => decide (t + ns 40 < e)
  | some _ => false

/-- The job of entry `e` ends unarmed with `st`: JOB_END writes its summary and completes it. The manual gives no END for this: it is open (log entry
31). -/
def Dev.failJob (d : Dev) (e st : Nat) : Dev := (d.upJob e (fun j => { j with stop := some (d.bed, d.openVal 2, st) })).took

/-- JOB_ARM. -/
def Dev.jobArm (d : Dev) (e : Nat) : Dev :=
  match d.open? e 0x30, d.job? e with
  | some x, some j =>
    let s := jobSpec x
    if j.arm.isSome || j.stop.isSome then d
    else match d.armOf x s j with
      | none => d
      | some t0 =>
        if j.waitPll then
          if s.arm = 1 ∧ t0 ≤ d.bed then d.failJob j.e Status.LATE_START else d
        else
          let t := max t0 j.floor
          if d.bed < t then d else d.armJob x s j t
  | _, _ => d
/-- JOB_ARM. -/
def execJobArm (e : Nat) (s : State) : Host.Outcome State Fault Refusal :=
  guardUnit true (s.onDev (fun d => d.jobArm e))

/-! ## An edge (R229 to R236, R248) -/

/-- An edge detected for job `j`. Every detected edge takes a sequence count; behind the job's end it is not used; COUNT ends the job at the first stamp,
in the order of T, that completes it (R230, R235, R240). -/
def Dev.takeEdge (d : Dev) (x : Entry) (s : JobSpec) (j : Job) (e0 : Stamp) : Dev :=
  let i := e0.inp
  let f := inpFld .PIN_TM_SEQ_CH_SEQ .PIN_TM_SEQ_CL_SEQ i
  let cap := d.inpCap i
  let busy : Bool := cap && decide (e0.t < tget (fun _ => 0) d.tmu.ctdcFree (i / 64))
  let d0 : Dev := { d with tmu := { d.tmu with
    lastEdge := tset (fun _ => 0) d.tmu.lastEdge i (e0.t + 1)
    ctdcFree := if cap && !busy then tset (fun _ => 0) d.tmu.ctdcFree (i / 64) (e0.t + ns 100) else d.tmu.ctdcFree } }
  let d1 := d0.wr f (i / 2) (d.rd f (i / 2) + 1)
  if !j.mayUse e0.t || d.afterBurst s j e0.t then d1.tally 0x40 i (b2n (!busy))
  else
    let e1 : Stamp := { e0 with cap := cap, seq := d.rd f (i / 2), lost := busy }
    let inPool : Bool := !({ j with edges := [e1] }.pool s).isEmpty
    let q := if s.kind = 0 ∧ inPool ∧ !busy then d1.queueStamp s j i else (busy, d1)
    let e2 : Stamp := { e1 with lost := q.1 }
    let es := insertBy Stamp.upTo e2 j.edges
    let d2 := (q.2.upJob x.id (fun j => { j with edges := es })).tally 0x40 i (b2n (!e2.lost))
    let d3 := if inPool && e2.lost then d2.jobLost x.id i 1 else d2
    let pool := { j with edges := es }.pool s
    match d.countAt s pool with
    | some k => d3.upJob x.id (fun j =>
        { j with edges := pool.take k, stop := some (((pool.take k).getLast?.map (·.t)).getD e0.t + ns 40, 1, Status.OK) })
    | none => d3

/-- QUALIFYING_EDGE: the operand is what the converter caught (log entry 20). An input detects while it belongs to a job (R230), outside the dead
time (R233). -/
def Dev.edgeAt (d : Dev) (i : Nat) (rise : Bool) (raw : Nat) : Dev :=
  match d.tmu.jobs.find? (fun j => j.inputs.contains i) with
  | none => d
  | some j =>
    match d.open? j.e 0x30 with
    | none => d
    | some x =>
      let s := jobSpec x
      let c := d.convert i raw
      let t := c.1.toNat
      let e : Stamp := ⟨t, i, !rise, false, 0, false⟩
      let jd := if s.arm = 4 then { j with sels := j.sels ++ d.stampsDue (s.aIn / 2) } else j
      if !d.pllOk (i / 2) || !jd.detects s e || decide (t + 1 < tget (fun _ => 0) d.tmu.lastEdge i + cycleTicks) then d
      else c.2.takeEdge x s j e
/-- QUALIFYING_EDGE. -/
def execQualifyingEdge (i : Nat) (rise : Bool) (raw : Nat) (s : State) : Host.Outcome State Fault Refusal :=
  guardUnit (decide (i < 512)) (s.onDev (fun d => d.edgeAt i rise raw))

/-! ## Summaries (R246, R247) -/

/-- The integer square root: bits from `k - 1` down to 0. -/
def isqrt (n : Nat) : Nat → Nat → Nat
  | 0, r => r
  | k + 1, r => if (r + 2 ^ k) * (r + 2 ^ k) ≤ n then isqrt n k (r + 2 ^ k) else isqrt n k r

/-- `a / b` to the nearest integer; a tie goes up where `up`. -/
def nearest (a : Int) (b : Nat) (up : Bool) : Int :=
  let q := a / (b : Int)
  let r := a % (b : Int)
  if (b : Int) < 2 * r ∨ ((b : Int) = 2 * r ∧ up) then q + 1 else q

/-- `a / b` down, or up where `up` and it is not exact (the manual gives no rounding there). -/
def eitherWay (a : Int) (b : Nat) (up : Bool) : Int := a / (b : Int) + (if a % (b : Int) ≠ 0 ∧ up then 1 else 0)

/-- The figures of a summary: MIN, MAX, MEAN, SIGMA. -/
structure Figures where
  mn : Int
  mx : Int
  mean : Int
  sigma : Nat

/-- The sum of `f` over a list. -/
def sumBy {α : Type} (f : α → Int) (l : List α) : Int := l.foldl (fun a x => a + f x) 0

/-- The figures of results `x`: the manual does not say which standard deviation nor how it and MEAN are rounded, so `b1` chooses
the divisor N or N − 1, `b2` and `b3` the rounding (log entry 5). -/
def figures (x : List Int) (b1 b2 b3 : Bool) : Figures :=
  let n := x.length
  let S := sumBy id x
  let V := (n : Int) * sumBy (fun v => v * v) x - S * S
  let den := if b1 && decide (1 < n) then n * (n - 1) else n * n
  let q := V.toNat * 2 ^ 40
  let r := isqrt (q / den) 128 0
  { mn := x.foldl min (x.headD 0), mx := x.foldl max (x.headD 0), mean := eitherWay (S * 2 ^ 20) n b2
    sigma := if r * r * den ≠ q ∧ b3 then r + 1 else r }

/-- The fit of FREQUENCY over the stamps `l`, first stamp first (R246). -/
def fitOf (l : List Stamp) (b1 b2 : Bool) : Figures :=
  let e0 := l.headD ⟨0, 0, false, false, 0, false⟩
  let ks := l.map (fun e => ((((e.seq + 2 ^ 32 - e0.seq) % 2 ^ 32 : Nat) : Int), (e.t : Int) - (e0.t : Int)))
  let n : Int := l.length
  let sk := sumBy (·.1) ks
  let st := sumBy (·.2) ks
  let num := n * sumBy (fun p => p.1 * p.2) ks - sk * st
  let D := n * sumBy (fun p => p.1 * p.1) ks - sk * sk
  let res := ks.map (fun p => n * D * p.2 - (D * st - num * sk) - n * num * p.1)
  let den := (n * D).toNat
  let q := (sumBy (fun r => r * r) res).toNat * 2 ^ 40
  let qd := l.length * den * den
  let r := isqrt (q / qd) 128 0
  { mn := nearest (res.foldl min (res.headD 0)) den b1, mx := nearest (res.foldl max (res.headD 0)) den b1
    mean := nearest (num * 2 ^ 20) D.toNat b1, sigma := if r * r * qd ≠ q ∧ b2 then r + 1 else r }

/-- A stamp's 16 bytes (R235); `lost`: edges were lost since the stamp written before. -/
def Stamp.word (e : Stamp) (lost : Bool) : Nat :=
  (e.t / cycleTicks % 2 ^ 64) * 2 ^ 64 + e.t % cycleTicks * 2 ^ 50 + e.inp / 2 * 2 ^ 42 + e.inp % 2 * 2 ^ 41 + b2n e.fall * 2 ^ 40 +
    b2n e.cap * 2 ^ 38 + b2n lost * 2 ^ 37 + e.seq

/-- The stamps of a STAMP job in T order, those of A before those of B, with their LOST marks. -/
def stampBytes (s : JobSpec) (pool : List Stamp) : List Byte :=
  let le := fun (x y : Stamp) => decide (x.t < y.t) || (x.t == y.t && (s.isA x || !s.isA y))
  let marked := pool.foldl (fun (a : List (Stamp × Bool) × List Nat) e =>
    if e.lost then (a.1, e.inp :: a.2) else (a.1 ++ [(e, a.2.contains e.inp)], a.2.filter (· != e.inp))) ([], [])
  (sortBy (fun x y => le x.1 y.1) marked.1).flatMap (fun e => bytesOf 16 (e.1.word e.2))

/-- The bin counts of a histogram, with UNDER and OVER (R245). -/
def binOf (s : JobSpec) (x : Int) : Int := (x - s.low) / (s.width : Int)
/-- Bin `k`'s count. -/
def binCount (s : JobSpec) (vals : List Int) (k : Nat) : Nat := min ((vals.filter (fun x => binOf s x == (k : Int))).length) (2 ^ 32 - 1)

/-- A count of the summary. -/
def sat32 (n : Nat) : Nat := min n (2 ^ 32 - 1)

/-- The job ends with END `code` and STATUS `st`: the summary and the completion (R246, R247, R249). -/
def Dev.endJob (d : Dev) (x : Entry) (j : Job) (code st : Nat) : List Put × Dev :=
  let s := jobSpec x
  let pool := j.pool s
  let F := d.formed s pool
  let good := pool.filter (!·.lost)
  let n := F.vals.length
  let few : Bool := s.kind == 6 && decide (n < 3)
  let b := fun k => Config.freeBool (d.free + k)
  let v := fun k => (Config.freeValue (d.free + k)).toNat % 2 ^ 64
  let G : Figures :=
    if s.kind = 0 then ⟨0, 0, 0, 0⟩
    else if few ∨ n = 0 then ⟨(v 3 : Nat), (v 4 : Nat), (v 5 : Nat), v 6⟩
    else if s.kind = 6 then fitOf good (b 0) (b 1) else figures F.vals (b 0) (b 1) (b 2)
  let lost := j.lost + F.lost
  let d1 := ({ d with free := d.free + 8 } : Dev).count .PIN_TM_STATUS_LOST (s.aIn / 2) F.lost
  let under := (F.vals.filter (fun y => decide (binOf s y < 0))).length
  let above := (F.vals.filter (fun y => decide (4096 ≤ binOf s y))).length
  let first := match good.head? with
    | some e => e.t % 2 ^ 64
    | none => v 7
  let flags := b2n (F.unres != 0) + 2 * b2n (F.orphan != 0) + 4 * b2n (lost != 0) + 8 * b2n j.full + 16 * b2n (good.any (·.cap)) +
    32 * b2n j.stale + 128 * code
  let sum := unsgn 64 G.mn * 2 ^ 448 + unsgn 64 G.mx * 2 ^ 384 + unsgn 64 G.mean * 2 ^ 320 + G.sigma % 2 ^ 64 * 2 ^ 256 +
    (if s.kind = 5 then sat32 under * 2 ^ 32 + sat32 above else first) * 2 ^ 192 + sat32 n * 2 ^ 160 + sat32 F.unres * 2 ^ 128 +
    sat32 F.orphan * 2 ^ 96 + sat32 lost * 2 ^ 64 + sat32 F.ignored * 2 ^ 32 + flags * 2 ^ 16 + s.kind * 2 ^ 12
  let body := if s.kind = 0 then stampBytes s pool
    else if s.kind = 5 then (List.range 4096).flatMap (fun k => bytesOf 4 (binCount s F.vals k)) else []
  let bytes := bytesOf 64 sum ++ body
  let d2 := if s.hbm then d1.hbm true (.result x.id) s.dest bytes.length else d1
  let status := if st = Status.OK ∧ few then Status.NO_DATA else st
  let value := if s.kind = 0 then first else unsgn 64 G.mean
  let d3 := d2.finish x.id status (value * 2 ^ 64 + sat32 n * 2 ^ 32 + flags * 2 ^ 16 + min F.orphan 65535)
  (if s.hbm then [.hbm (s.dest + 64) body, .hbm s.dest (bytesOf 64 sum)]
    else [.host (s.dest + 64) body d.ringEng.relaxed, .host s.dest (bytesOf 64 sum) false], d3.closeJob j (s.kind == 5))

/-- JOB_END (R240): a SEQUENCE job uses no edge behind the end of the burst. -/
def Dev.jobEnd (d : Dev) (e : Nat) : List Put × Dev :=
  match d.open? e 0x30, d.job? e with
  | some x, some j =>
    let s := jobSpec x
    match j.stop with
    | some (t, code, st) => if t ≤ d.bed then d.endJob x j code st else ([], d)
    | none =>
      if s.gate ≠ 0 ∧ (j.arm.map (fun a => decide (a + ns s.gate + ns 40 ≤ d.bed))).getD false then d.endJob x j 0 Status.OK
      else if s.arm = 4 ∧ d.burstOver (s.aIn / 2) j then d.endJob x { j with edges := j.edges.filter (fun e => !d.afterBurst s j e.t) } 2 Status.OK
      else ([], d)
  | _, _ => ([], d)
/-- JOB_END. -/
def execJobEnd (e : Nat) (s : State) : Host.Outcome State Fault Refusal :=
  guardUnit true (s.onMem (fun _ d => d.jobEnd e))

/-- JOB_ARM_TIMEOUT (R240, R247): END is open (log entry 31). -/
def Dev.jobTimeout (d : Dev) (e : Nat) : List Put × Dev :=
  match d.open? e 0x30, d.job? e with
  | some x, some j =>
    let s := jobSpec x
    if j.arm.isNone ∧ j.stop.isNone ∧ s.tmo ≠ 0 ∧ x.born + ms s.tmo ≤ d.bed then
      (d.took.raise 0x284 s.aIn).endJob x j (d.openVal 2) Status.TIMEOUT
    else ([], d)
  | _, _ => ([], d)
/-- JOB_ARM_TIMEOUT. -/
def execJobArmTimeout (e : Nat) (s : State) : Host.Outcome State Fault Refusal :=
  guardUnit true (s.onMem (fun _ d => d.jobTimeout e))

/-! ## Ends from outside -/

/-- The job of entry `e` is ended early (R249): armed, JOB_END follows with END 0b11; not started, it is withdrawn (R324). -/
def Dev.stopJob (d : Dev) (e st : Nat) : Dev :=
  match d.open? e 0x30, d.job? e with
  | some x, some j =>
    if j.arm.isSome ∨ st ≠ Status.WITHDRAWN then
      d.upJob e (fun j => { j with stop := some (j.stop.getD (d.bed, 3, st)) })
    else (d.finish e Status.WITHDRAWN 0).closeJob j ((jobSpec x).kind == 5)
  | _, _ => d

/-- The jobs with an input in quadrant `q` lose their PLL (R192, R249). -/
def Dev.jobsPllLost (d : Dev) (q : Nat) : Dev :=
  (d.tmu.jobs.filter (fun j => j.inputs.any (fun i => i / 128 == q))).foldl (fun d j => d.stopJob j.e Status.UNIT_DOWN) d

/-- A PLL became ready: the jobs that waited for it arm no earlier than now; a TIME that passed is late (R239). -/
def Dev.jobsPllReady (d : Dev) : Dev :=
  (d.tmu.jobs.filter (fun j => j.waitPll && j.inputs.all (fun i => d.pllOk (i / 2)))).foldl (fun d j =>
    match d.open? j.e 0x30 with
    | some x =>
      let s := jobSpec x
      if s.arm = 1 ∧ d.fullTime s.armTime < d.bed then d.failJob j.e Status.LATE_START
      else d.upJob j.e (fun j => { j with waitPll := false, floor := d.bed })
    | none => d) d

end Sys2Proof.Machine
end

