-- ==== Sys2Proof/Machine/Wave.lean ====
section
/-!
DEFINITION. Wave channels (R250 to R270): sequence tables and fetching, plays, jumps, tones, streams, markers, starts and stops.
-/
namespace Sys2Proof.Machine

def WvState.OFF : Nat := 0
def WvState.IDLE : Nat := 1
def WvState.PREPARING : Nat := 2
def WvState.ARMED : Nat := 3
def WvState.PLAYING : Nat := 4

/-- The state of channel `w`. -/
def Dev.wvState (d : Dev) (w : Nat) : Nat := d.rd .WV_STATUS_STATE w
/-- Channel `w` is in service. -/
def Dev.wvOk (d : Dev) (w : Nat) : Bool := bitAt (d.rd .DEV_UNITS_WAVE_OK 0) w
/-- Channel `w` counts as running (R253). -/
def Dev.wvRunning (d : Dev) (w : Nat) : Bool := decide (2 ≤ d.wvState w)

/-- The first sample point at or after `t` (R250). -/
def pointAfter (t : Nat) : Nat := roundUp t 8192

/-! ## The tone (R263) -/

/-- π in units of 2⁻¹²⁸. -/
def piFix : Nat := 1069028584064966747859680373161870783300

/-- The terms of the sine series from the one after `term` on: `x2` the square of the angle, all in units of 2⁻¹²⁸. -/
def sinTerms (x2 : Nat) : Nat → Nat → Nat → Int → Int
  | 0, _, _, acc => acc
  | f + 1, i, term, acc =>
    let t := term * x2 / 2 ^ 128 / ((2 * i) * (2 * i + 1))
    sinTerms x2 f (i + 1) t (if i % 2 = 1 then acc - (t : Int) else acc + (t : Int))

/-- The sine of a quarter turn's `x / 2⁴⁶`, in units of 2⁻¹²⁸. -/
def sinQuarter (x : Nat) : Int :=
  let a := piFix * x / 2 ^ 47
  sinTerms (a * a / 2 ^ 128) 30 1 a a

/-- The sine of `u / 2⁴⁸` turn, in units of 2⁻¹²⁸. -/
def sinTurn (u : Nat) : Int :=
  let r := u % 2 ^ 46
  match u / 2 ^ 46 % 4 with
  | 0 => sinQuarter r
  | 1 => sinQuarter (2 ^ 46 - r)
  | 2 => -sinQuarter r
  | _ => -sinQuarter (2 ^ 46 - r)

/-- The code of a tone before the clip: no dyadic turn makes a tie, so the rounding is to the nearest. -/
def toneCode (amp phase : Nat) (offset : Int) (acc : Nat) : Int :=
  offset + (2 * (amp : Int) * sinTurn ((acc + phase * 2 ^ 32) % 2 ^ 48) + 2 ^ 128) / 2 ^ 129

/-- The fields of group TONE. -/
def toneFields : List Fld := [.WV_TONE_FTW_FTW, .WV_TONE_PHASE_PHASE, .WV_TONE_LEVEL_OFFSET, .WV_TONE_LEVEL_AMP]

/-- Group TONE of channel `w` moves if it is pending (R264). -/
def Dev.moveTone (d : Dev) (w : Nat) : Dev :=
  if d.on .WV_STATUS_TONE_PENDING w then toneFields.foldl (fun d f => d.move f w) (d.clr .WV_STATUS_TONE_PENDING w) else d

/-- WV_COMMIT (R264): the group moves while the channel does not count as running. -/
def Dev.wvCommit (d : Dev) (w v : Nat) : Dev := if bitAt v 0 ∧ !d.wvRunning w then d.moveTone w else d

/-! ## Segments and the fetcher (R254 to R260) -/

/-- A sequence table entry from its 16 bytes. -/
def wentryOf (v : Nat) : WEntry :=
  { addr := bits v 98 30 * 128, len := bits v 72 24, rep := bits v 56 16, next := bits v 44 12, jump := bits v 32 12, jen := bitAt v 31
    fin := bitAt v 30 }

/-- The table of channel `w` in HBM. -/
def Dev.wtable (m : Mems) (d : Dev) (w : Nat) : List WEntry :=
  (List.range (d.rd .WV_SEQ_LEN_ENTRIES w)).map (fun k =>
    wentryOf (ofBytes (readMem byte0 m.hbm (d.rd .WV_SEQ_BASE_ADDR w * 16 + 16 * k) 16)))

/-- The 64 samples of the granule at `a`. -/
def granData (m : Mems) (a : Nat) : List Nat := (List.range 64).map (fun k => ofBytes (readMem byte0 m.hbm (a + 2 * k) 2))

/-- Entry `e` of the table copied. -/
def Wave.entry (W : Wave) (e : Nat) : WEntry := W.ents.getD e ⟨0, 1, 1, 0, 0, false, true⟩

/-- The place after `c` on the NEXT path; none behind the END, but for the jump that the last play may still take (R260). -/
def Wave.after (W : Wave) (c : Cur) : Option Cur :=
  let e := W.entry c.ent
  if c.gran + 1 < e.len then some { c with gran := c.gran + 1 }
  else
    let pend := if e.jen then some c.ent else none
    if e.rep = 0 then some ⟨c.ent, 0, 0, pend, false⟩
    else if c.rep + 1 < e.rep then some ⟨c.ent, c.rep + 1, 0, pend, false⟩
    else if e.fin then (if e.jen then some ⟨c.ent, c.rep, c.gran, pend, true⟩ else none)
    else some ⟨e.next, 0, 0, pend, false⟩

/-- The first granules on the path from `c`, at most `n`, the first of them read by request `no`. -/
def Wave.path (m : Mems) (W : Wave) : Nat → Nat → Cur → List Gran
  | 0, _, _ => []
  | n + 1, no, c =>
    let a := (W.entry c.ent).addr + 128 * c.gran
    let g : Gran := ⟨a, granData m a, no⟩
    match W.after c with
    | none => [g]
    | some c' => if c'.over_ then [g] else g :: W.path m n (no + 1) c'

/-- The head is loaded for target `j`, by requests from `no` on: the first 512 granules of the path from there; the addresses to be read. -/
def Wave.loadHead (m : Mems) (W : Wave) (no j : Nat) : Wave × List Nat :=
  let h := W.path m 512 no ⟨j, 0, 0, none, false⟩
  ({ W with head := h, headTo := some j, headUses := 1 }, h.map (·.addr))

/-- The fetcher passes the JEN play it has reached, if the head is its target's or free (R260). -/
def Wave.passJen (m : Mems) (W : Wave) (no : Nat) : Option (Wave × List Nat) :=
  match W.fet with
  | some c =>
    match c.pend with
    | none => some (W, [])
    | some e =>
      let j := (W.entry e).jump
      let W1 := { W with fet := if c.over_ then none else some { c with pend := none } }
      if W.headTo = some j ∧ W.headUses ≠ 0 then some ({ W1 with headUses := W.headUses + 1 }, [])
      else if W.headUses = 0 then some (W1.loadHead m no j)
      else none
  | none => none

/-- The fetcher fills the FIFO (4,096 granules) along the NEXT path, from what is left of the head that a jump took, then from memory, by requests
from `no` on: at most `f` granules; the addresses to be read. -/
def Wave.fetch (m : Mems) (no : Nat) : Nat → Wave → List Nat → Wave × List Nat
  | 0, W, rq => (W, rq)
  | f + 1, W, rq =>
    if 4096 ≤ W.fifo.length then (W, rq)
    else match W.passJen m (no + rq.length) with
      | none => (W, rq)
      | some (W1, r1) =>
        match W1.fet with
        | none => (W1, rq ++ r1)
        | some c =>
          let a := (W1.entry c.ent).addr + 128 * c.gran
          let g := W1.rest.headD ⟨a, granData m a, no + rq.length + r1.length⟩
          let W2 := { W1 with fifo := W1.fifo ++ [g], fet := W1.after c, rest := W1.rest.drop 1 }
          Wave.fetch m no f W2 (rq ++ r1 ++ (if W1.rest.isEmpty then [a] else []))

/-- Channel `w` fetches along its table, at most `f` granules (log entry 97). -/
def Dev.wvFetch (m : Mems) (d : Dev) (w f : Nat) : Dev :=
  let r := Wave.fetch m d.mc.no f (d.wave w) []
  r.2.foldl (fun d a => d.hbm false (.wave w) a 128) (d.upWave w (fun _ => r.1))

/-- A stream channel fetches while RP ≠ WP and the FIFO has room (R265). -/
def Dev.wvStreamFetch (m : Mems) (w : Nat) : Nat → Dev → Dev
  | 0, d => d
  | f + 1, d =>
    let rp := d.rd .WV_STREAM_RP_RP w
    if rp = d.rd .WV_STREAM_WP_WP w ∨ 4096 ≤ (d.wave w).fifo.length then d
    else
      let a := d.rd .WV_STREAM_BASE_ADDR w * 128 + 128 * rp
      let d1 := (d.upWave w (fun W => { W with fifo := W.fifo ++ [⟨a, granData m a, d.mc.no⟩] })).hbm false (.wave w) a 128
      let nx := if rp + 1 = d.rd .WV_STREAM_SIZE_GRANULES w then 0 else rp + 1
      Dev.wvStreamFetch m w f (d1.wr .WV_STREAM_RP_RP w nx)

/-- The jump to entry `j` is taken (R258, R260): the FIFO is discarded, the channel plays on from the head. -/
def Dev.wvJumpTo (m : Mems) (d : Dev) (w j : Nat) : Dev :=
  let W := d.wave w
  let src := if W.headTo = some j ∧ W.headUses ≠ 0 then W.head else []
  let d1 := d.upWave w (fun W => { W with fifo := [], fet := some ⟨j, 0, 0, none, false⟩, head := [], headTo := none, headUses := 0, rest := src })
  Dev.wvFetch m d1 w (if src.isEmpty then 512 else src.length + 8)

/-! ## Markers (R266) -/

/-- The marker level of channel `w` is `lvl` from sample point `P` on. -/
def Dev.wvMark (d : Dev) (w : Nat) (lvl : Bool) (P : Nat) : Dev :=
  if (d.wave w).mark = lvl then d
  else
    let d1 := (d.upWave w (fun W => { W with mark := lvl })).signal .wmark P w 0 lvl
    ((List.range 64).filter (fun n => d1.siteState n != SiteState.EMPTY)).foldl
      (fun d n => d.postCond n (0x10 + w) lvl P) d1

/-! ## The end of a play (R253, R269) -/

/-- RESULT of a WAVE_PLAY. -/
def Dev.wvResult (d : Dev) (w code : Nat) : Nat :=
  let W := d.wave w
  (if d.wvState w = WvState.PLAYING then d.rd .WV_START_TIME_T w * 2 ^ 64 else 0) + min W.grans (2 ^ 40 - 1) * 2 ^ 24 +
    min W.jumps 4095 * 2 ^ 12 + code * 2 ^ 8

/-- Channel `w` goes to `st` with no play; where it leaves PLAYING its jump latch is cleared (R259). -/
def Dev.wvClear (d : Dev) (w st : Nat) : Dev :=
  let was : Bool := d.wvState w == WvState.PLAYING
  ((if was then d.clr .WV_STATUS_JUMP_PENDING w else d).wr .WV_STATUS_STATE w st).upWave w (fun W =>
    { latch := W.latch && !was, out := W.out, dacOn := W.dacOn, offAt := W.offAt, mark := W.mark, hist := W.hist, histAt := W.histAt, histFull := W.histFull
      ent := W.ent, reqs := W.reqs })

/-- The play of channel `w` ends at `P` with END `code` and STATUS `status` and the channel goes to `st`; the output parks, at mid-code
where `mid`; the WAVE_STOPs that asked for it complete (R268, R269). -/
def Dev.wvEnd (d : Dev) (w code status st P : Nat) (mid : Bool) : Dev :=
  let W := d.wave w
  let d1 := match W.play with
    | some e => d.finish e status (d.wvResult w code)
    | none => d
  let d2 := W.stops.foldl (fun d e => d.finish e Status.OK 0) d1
  let park0 : Bool := mid || d.on .WV_CTRL_PARK w
  ((d2.wvMark w false P).wvClear w st).upWave w (fun W => if park0 then { W with out := 0 } else W)

/-- The play of a channel not yet PLAYING is withdrawn, with END `code` (R253, R269, R324). -/
def Dev.wvWithdraw (d : Dev) (w code status : Nat) : Dev :=
  let W := d.wave w
  let d1 := match W.play with
    | some e => d.finish e status (d.wvResult w code)
    | none => d
  (W.stops.foldl (fun d e => d.finish e Status.OK 0) d1).wvClear w WvState.IDLE

/-- A fault, safe state or a ring's recovery stops the play of channel `w` (R323, R453): a play that has touched its output parks
at the next granule boundary with END 0b0011. -/
def Dev.wvStopFault (d : Dev) (w : Nat) : Dev :=
  if d.wvState w = WvState.PLAYING then
    d.upWave w (fun W => { W with stopMode := some 2 })
  else if d.wvRunning w then d.wvWithdraw w 3 Status.WITHDRAWN
  else d

/-- Every DAC goes to mid-code and is disabled 1 µs later; the channels go to OFF, their plays end with `code` and `status`
(R270). -/
def Dev.wvAllOff (d : Dev) (code status : Nat) : Dev :=
  (List.range 8).foldl (fun d w =>
    let P := pointAfter d.bed
    let d1 := if d.wvState w = WvState.PLAYING then d.wvEnd w code status WvState.OFF P true
      else if d.wvRunning w then d.wvWithdraw w code (if status = Status.UNIT_DOWN then status else Status.WITHDRAWN) else d
    (d1.wvClear w WvState.OFF).upWave w (fun W => { W with out := 0, offAt := if W.dacOn then some (P + us 1) else W.offAt })) d

/-- Channel `w` is IDLE at mid-code if it is in service with DAC_EN = 1, and not in safe state (R253, R457, R459). -/
def Dev.wvWake (d : Dev) (w : Nat) : Dev :=
  if d.wvOk w ∧ d.on .WV_CTRL_DAC_EN w ∧ d.wvState w = WvState.OFF ∧ !d.on .FC_STATE_SAFE 0 then
    (d.wr .WV_STATUS_STATE w WvState.IDLE).upWave w (fun W => { W with out := 0, dacOn := true, offAt := none })
  else d

/-- A channel with DAC_EN or ADC_EN needs the wave PLL: it starts if it stands (R356, R425); in safe state nothing needs it. -/
def Dev.wvClock (d : Dev) : Dev :=
  if (List.range 8).any (fun w => d.wvOk w && (d.on .WV_CTRL_DAC_EN w || d.on .WV_CTRL_ADC_EN w)) && !d.on .FC_STATE_SAFE 0 then d.startPll 4 else d

/-- The DACs after a wake: those enabled start at mid-code (R31, R253). -/
def Dev.wvRise (d : Dev) : Dev :=
  (List.range 8).foldl (fun d w => if d.wvOk w && d.on .WV_CTRL_DAC_EN w && d.wvState w == WvState.IDLE then
    d.upWave w (fun W => { W with out := 0, dacOn := true, offAt := none }) else d) d.wvClock

/-- The WAVE domain goes off: every DAC is disabled (R31). -/
def Dev.wvDark (d : Dev) : Dev := (List.range 8).foldl (fun d w => d.upWave w (fun W => { W with out := 0, dacOn := false, offAt := none })) d

/-- DAC_EN of channel `w` has been written (R253). -/
def Dev.wvDacEn (d : Dev) (w : Nat) : Dev :=
  if d.on .WV_CTRL_DAC_EN w then d.wvClock.wvWake w
  else if d.wvState w = WvState.IDLE then
    (d.wr .WV_STATUS_STATE w WvState.OFF).upWave w (fun W => { W with dacOn := false, offAt := none })
  else d

/-- The wave PLL starts anew: the channels have no history (R283). -/
def Dev.noHistory (d : Dev) : Dev := (List.range 8).foldl (fun d w => d.upWave w (fun W => { W with hist := [], histFull := false })) d

/-- ADC_EN of channel `w` has been written: a disabled channel has no history (R283). -/
def Dev.wvAdcEn (d : Dev) (w : Nat) : Dev :=
  if d.on .WV_CTRL_ADC_EN w then d.wvClock else d.upWave w (fun W => { W with hist := [], histFull := false })

/-! ## WAVE_PLAY (R253 to R255, R267) -/

/-- A segment of the table, or FIRST, is out of range (R255). -/
def Dev.tableBad (d : Dev) (l : List WEntry) (first : Nat) : Bool :=
  l.isEmpty || decide (4096 < l.length) || decide (l.length ≤ first) ||
    l.any (fun e => e.len == 0 || decide (l.length ≤ e.next) || decide (l.length ≤ e.jump) || decide (d.memEnd < e.addr + 128 * e.len))

/-- A range of the play lies in the ring context table or its table or stream beyond the memory (R290). -/
def Dev.playInvalid (d : Dev) (w mode : Nat) (l : List WEntry) : Bool :=
  if mode = 0 then
    !d.hbmOk (d.rd .WV_SEQ_BASE_ADDR w * 16) (16 * d.rd .WV_SEQ_LEN_ENTRIES w) ||
      l.any (fun e => decide (e.addr + 128 * e.len ≤ d.memEnd) && !d.hbmOk e.addr (128 * e.len))
  else if mode = 2 then
    d.rd .WV_STREAM_SIZE_GRANULES w == 0 || !d.hbmOk (d.rd .WV_STREAM_BASE_ADDR w * 128) (128 * d.rd .WV_STREAM_SIZE_GRANULES w)
  else mode == 3

/-- An earlier WAVE_PLAY waits for channel `w` (R318). -/
def Dev.playAhead (d : Dev) (x : Entry) : Bool :=
  d.tracker.any (fun y => descOp y.desc == 0x38 && descTarget y.desc == descTarget x.desc && decide (y.id < x.id) && !y.done && !y.begun)

/-- The channel enters PREPARING for the play of entry `x`: its table is copied and its buffers fill. -/
def Dev.wvPrepare (m : Mems) (d : Dev) (w mode : Nat) (x : Entry) (l : List WEntry) : Dev :=
  let first := descField x.desc 16 4 12
  let d1 := ((d.start x.id).wr .WV_STATUS_STATE w WvState.PREPARING).wr .WV_STATUS_ENTRY w (if mode = 0 then first else 0)
  let d2 := (d1.startPll 4).wr .WV_STATUS_MERGED w 0
  let d3 := if d2.localMode then d2 else d2.opFull
  let d4 := d3.upWave w (fun W => { out := W.out, dacOn := W.dacOn, hist := W.hist, histAt := W.histAt, histFull := W.histFull, reqs := W.reqs, latch := W.latch
                                    play := some x.id, mode := mode, ents := l, ent := first
                                    fet := if mode = 0 then some ⟨first, 0, 0, none, false⟩ else none })
  if mode = 0 then
    Dev.wvFetch m d4 w 4096
  else if mode = 2 then Dev.wvStreamFetch m w 4096 d4 else d4

/-- The sequence table of a SEGMENT play is read, where it lies in the memory (R255, R336). -/
def Dev.askSeq (d : Dev) (w mode : Nat) : Dev :=
  let a := d.rd .WV_SEQ_BASE_ADDR w * 16
  let n := 16 * min 4096 (d.rd .WV_SEQ_LEN_ENTRIES w)
  if mode = 0 ∧ d.hbmOk a n then d.hbm false (.wave w) a n else d

/-- WAVE_PLAY. -/
def Dev.wavePlay (m : Mems) (d : Dev) (e : Nat) : Dev :=
  match d.open? e 0x38 with
  | none => d
  | some x =>
    let w := descTarget x.desc
    let mode := descField x.desc 16 0 2
    let l := if mode = 0 then Dev.wtable m d w else []
    if x.begun then d
    else if mode = 3 then d.finish e Status.INVALID 0
    else if d.wvState w = WvState.OFF ∨ !d.wvOk w ∨ (d.localMode ∧ mode ≠ 1) then d.finish e Status.UNIT_DOWN 0
    else if d.wvState w ≠ WvState.IDLE ∨ d.playAhead x then d
    else if mode = 0 ∧ d.tableBad l (descField x.desc 16 4 12) then
      (((d.askSeq w mode).start e).finish e Status.BAD_STREAM 0 |>.set1 .WV_STATUS_BAD_ENTRY w).raise 0x2C0 w
    else if d.playInvalid w mode l then (d.askSeq w mode).finish e Status.INVALID 0
    else Dev.wvPrepare m (d.askSeq w mode) w mode x l
/-- WAVE_PLAY. -/
def execWavePlay (e : Nat) (s : State) : Host.Outcome State Fault Refusal :=
  guardUnit true (s.onDevM (fun m d => Dev.wavePlay m d e))

/-- A read of channel `w` still waits in the memory's queues: any, or request `no`, which brings a granule. -/
def Dev.wvWaits (d : Dev) (w : Nat) (no : Option Nat) : Bool :=
  d.pcs.any (fun c => c.2.reads.any (fun r => r.who == .wave w && (match no with | some n => r.no == n | none => true)))

/-- What channel `w`'s preparation waits for is there. -/
def Dev.wvAwake (d : Dev) (w : Nat) : Bool :=
  d.on .BR_STATUS_WAVE_READY 0 && !d.wvWaits w none &&
    (d.localMode || (!d.on .MC_STATUS_OP_PENDING 0 && !d.on .MC_STATUS_OP_NOW 0 && ((d.wave w).mode == 1 || d.rd .MC_STATUS_SR 0 == 0)))

/-- WAVE_PREPARATION_COMPLETE (R267). -/
def Dev.wvPrepared (d : Dev) (w : Nat) : Dev :=
  match (d.wave w).play.bind d.entry? with
  | none => d
  | some x =>
    if d.wvState w ≠ WvState.PREPARING ∨ (d.wave w).start.isSome ∨ !d.wvAwake w then d
    else
      let soon := pointAfter (d.bed + ns 200)
      let t := d.fullTime (descField x.desc 8 0 64)
      match descField x.desc 16 2 2 with
      | 0 => d.upWave w (fun W => { W with start := some soon })
      | 1 => if t < d.bed + ns 200 then d.wvWithdraw w 0 Status.LATE_START
             else (d.wr .WV_STATUS_STATE w WvState.ARMED).upWave w (fun W => { W with start := some (pointAfter t) })
      | _ => (d.wr .WV_STATUS_STATE w WvState.ARMED).upWave w (fun W => { W with armNo := d.sigNo })
/-- WAVE_PREPARATION_COMPLETE. -/
def execWavePreparationComplete (w : Nat) (s : State) : Host.Outcome State Fault Refusal :=
  guardUnit (decide (w < 8)) (s.onDev (fun d => d.wvPrepared w))

/-- Whether an edge of level `rise` is one of EDGE (encoded as in SITE_EVENT). -/
def edgeIs (edge : Nat) (rise : Bool) : Bool := match edge with | 1 => !rise | 2 => true | _ => rise

/-- The start that a COND or EVENT play has been given: the arrival point of its first signal since it was ARMED (R257, R267). -/
def Dev.wvTriggered (d : Dev) (w : Nat) (x : Entry) : Option Nat :=
  let W := d.wave w
  let f := fun lo n => descField x.desc 16 lo n
  let g := (d.signals.reverse).find? (fun g => decide (W.armNo ≤ g.no) &&
    (if f 2 2 = 2 then g.kind == .cond && g.unit == f 16 6 && g.idx == f 22 5 && g.level
     else g.kind == .ev && g.unit == f 27 3 && edgeIs (f 30 2) g.level))
  g.map (fun g => pointAfter (g.t + (if f 2 2 = 2 then 0 else ns 96) + ns 16))

/-- WAVE_START (R259, R264, R267): at its start point the channel enters PLAYING. -/
def Dev.waveStart (d : Dev) (w : Nat) : Dev :=
  let st := d.wvState w
  match (d.wave w).play.bind d.entry? with
  | none => d
  | some x =>
    let start := match (d.wave w).start with
      | some t => some t
      | none => if st = WvState.ARMED then d.wvTriggered w x else none
    match start with
    | none => d
    | some t =>
      if (st = WvState.PREPARING ∨ st = WvState.ARMED) ∧ t < d.bed + cycleTicks then
        ((((d.touch x.id).wr .WV_STATUS_STATE w WvState.PLAYING).wr .WV_START_TIME_T w t).clr .WV_STATUS_JUMP_PENDING w |>.withSeam 64 (fun d => d.moveTone w)).upWave w
          (fun W => { W with start := some t, latch := false, acc := 0 })
      else if st = WvState.ARMED then d.upWave w (fun W => { W with start := some t })
      else d
/-- WAVE_START. -/
def execWaveStart (w : Nat) (s : State) : Host.Outcome State Fault Refusal :=
  guardUnit (decide (w < 8)) (s.onDev (fun d => d.waveStart w))

/-! ## Jump requests (R257, R259, R264) -/

/-- A request arrives at channel `w` at sample point `P`: it sets the latch or merges into it (before the start of a play, only for the latch's
clear at the start to take it); a tone with its group pending remembers it; a stream ignores it. -/
def Dev.jumpArrives (d : Dev) (w P : Nat) : Dev :=
  let W := d.wave w
  match (if W.play.isNone then 0 else W.mode) with
  | 0 =>
    if d.wvState w = WvState.PLAYING ∧ P < W.start.getD 0 then d
    else if W.latch then d.count .WV_STATUS_MERGED w 1
    else (d.set1 .WV_STATUS_JUMP_PENDING w).upWave w (fun W => { W with latch := true })
  | 1 =>
    if d.wvState w = WvState.PLAYING ∧ W.start.getD 0 ≤ P ∧ d.on .WV_STATUS_TONE_PENDING w ∧ W.toneAt.isNone then d.upWave w (fun W => { W with toneAt := some P })
    else d
  | _ => d

/-- JUMP_REQUEST: the earliest request that arrives by now; one of the start point or later waits for the entry into PLAYING. -/
def Dev.jumpRequest (d : Dev) (w : Nat) : Dev :=
  let W := d.wave w
  match W.reqs.min? with
  | some P =>
    if d.bed + cycleTicks ≤ P ∨ (d.wvState w ≠ WvState.PLAYING ∧ W.start.any (fun t => decide (t ≤ P))) then d
    else (d.upWave w (fun W => { W with reqs := W.reqs.erase P })).jumpArrives w P
  | none => d
/-- JUMP_REQUEST. -/
def execJumpRequest (w : Nat) (s : State) : Host.Outcome State Fault Refusal :=
  guardUnit (decide (w < 8)) (s.onDev (fun d => d.jumpRequest w))

/-- WV_JUMP: REQ written 1 makes a request of this engine cycle. -/
def Dev.wvJump (d : Dev) (w v : Nat) : Dev := if bitAt v 0 then d.askJump w (d.bed / cycleTicks * cycleTicks) else d

/-- WV_STREAM_WP (R265). -/
def Dev.wvStreamWp (m : Mems) (d : Dev) (w v : Nat) : Dev :=
  if d.rd .WV_STREAM_SIZE_GRANULES w ≤ v then (d.set1 .WV_STATUS_WP_RANGE w).raise 0x2C5 w
  else
    let d1 := d.wr .WV_STREAM_WP_WP w v
    if d1.wvRunning w ∧ (d1.wave w).mode = 2 then Dev.wvStreamFetch m w 4096 d1 else d1

/-! ## Stops (R268) -/

/-- WAVE_STOP. -/
def Dev.waveStop (d : Dev) (e : Nat) : Dev :=
  match d.open? e 0x39 with
  | none => d
  | some x =>
    let w := descTarget x.desc
    if x.begun then d
    else
      let d1 := (d.tracker.filter (fun y => descOp y.desc == 0x38 && descTarget y.desc == w && decide (y.id < x.id) && !y.done && !y.begun)).foldl
        (fun d y => d.finish y.id Status.WITHDRAWN 0) d
      let d2 := d1.touch e
      let mode := descField x.desc 8 0 1
      if d.wvState w = WvState.PLAYING then
        d2.upWave w (fun W => { W with stops := W.stops ++ [e]
                                       stopMode := some (match W.stopMode with | some 2 => 2 | some 0 => 0 | _ => if W.mode = 0 then mode else 0) })
      else if d.wvRunning w then (d2.wvWithdraw w 1 Status.WITHDRAWN).finish e Status.OK 0
      else d2.finish e Status.OK 0
/-- WAVE_STOP. -/
def execWaveStop (e : Nat) (s : State) : Host.Outcome State Fault Refusal :=
  guardUnit true (s.onDev (fun d => d.waveStop e))

/-- The play of channel `w` is at the boundary where it parks: behind its END, at a play's end, at a granule's. -/
def Wave.atPark (W : Wave) : Bool :=
  W.ended || (match W.stopMode with
    | some 1 => W.k == 0
    | some _ => W.n % 64 == 0
    | none => false)

/-- How a play that parks completes: END and STATUS (R269, R324). -/
def Wave.parkEnd (W : Wave) : Nat × Nat :=
  match W.stopMode with
  | some 2 => (3, Status.ABORTED_PARTIAL)
  | some _ => (1, Status.OK)
  | none => (0, Status.OK)

/-- The play of channel `w` parks at sample point `P`. -/
def Dev.wvPark (d : Dev) (w P : Nat) : Dev :=
  let r := if (d.wave w).ended then (0, Status.OK) else (d.wave w).parkEnd
  d.wvEnd w r.1 r.2 WvState.IDLE P false

/-- WAVE_PARK. -/
def Dev.wavePark (d : Dev) (w : Nat) : Dev :=
  if d.wvState w = WvState.PLAYING ∧ (d.wave w).atPark then d.wvPark w (pointAfter d.bed) else d
/-- WAVE_PARK. -/
def execWavePark (w : Nat) (s : State) : Host.Outcome State Fault Refusal :=
  guardUnit (decide (w < 8)) (s.onDev (fun d => d.wavePark w))

/-! ## One sample (R250, R256, R258, R262 to R266) -/

/-- A sample is missing at its point (R262). -/
def Dev.wvUnderrun (d : Dev) (w P : Nat) : Dev :=
  ((d.set1 .WV_STATUS_UNDERRUN w).raise 0x2C1 w).wvEnd w 2 Status.UNDERRUN WvState.IDLE P true

/-- The play of an entry is over: what follows on the path (R256). -/
def Dev.wvPlayEnd (d : Dev) (w : Nat) (jump : Option Nat) : Dev :=
  let W := d.wave w
  let e := W.entry W.ent
  let go := fun (ent rep : Nat) => (d.upWave w (fun W => { W with ent := ent, rep := rep, k := 0 })).wr .WV_STATUS_ENTRY w ent
  match jump with
  | some j => go j 0
  | none =>
    if e.rep = 0 then go W.ent 0
    else if W.rep + 1 < e.rep then go W.ent (W.rep + 1)
    else if e.fin then d.upWave w (fun W => { W with ended := true, k := 0 })
    else go e.next 0

/-- One sample of a SEGMENT play. -/
def Dev.segSample (m : Mems) (d : Dev) (w P : Nat) : Dev :=
  let W := d.wave w
  let e := W.entry W.ent
  let L := 64 * e.len
  let occ := max L 512
  let starts : Bool := W.k % 64 == 0 && decide (W.k < L)
  match (if starts then W.fifo.head? else some ⟨0, W.cur, 0⟩) with
  | none => d.wvUnderrun w P
  | some g =>
    if starts && d.wvWaits w (some g.no) then d.wvUnderrun w P
    else
      let d1 := if starts then
          (d.upWave w (fun W => { W with cur := g.data, fifo := W.fifo.drop 1 })).wvMark w (bitAt (g.data.headD 0) 0) P
        else if W.k = L then d.wvMark w false P else d
      let d2 := if W.k < L then d1.upWave w (fun X => { X with out := sgn 12 (bits (X.cur.getD (W.k % 64) 0) 4 12) }) else d1
      let decides : Bool := W.k == occ - 64 && e.jen
      let taken : Bool := decides && W.latch
      let d3 := if taken then
          Dev.wvJumpTo m ((d2.clr .WV_STATUS_JUMP_PENDING w).upWave w (fun X => { X with latch := false, jumps := X.jumps + 1, toneAt := some e.jump })) w e.jump
        else if decides then Dev.wvFetch m (d2.upWave w (fun X => { X with headUses := X.headUses - 1 })) w 4
        else if starts then Dev.wvFetch m d2 w 2 else d2
      let d4 := d3.upWave w (fun X => { X with k := W.k + 1, n := W.n + 1, grans := X.grans + b2n ((W.n + 1) % 64 == 0) })
      if W.k + 1 = occ then
        let j := (d4.wave w).toneAt
        (d4.upWave w (fun X => { X with toneAt := none })).wvPlayEnd w j
      else d4

/-- One sample of a TONE play. -/
def Dev.toneSample (d : Dev) (w P : Nat) : Dev :=
  let W := d.wave w
  let seam : Bool := W.n % 64 == 0 && (match W.toneAt with | some a => decide (a < P) | none => false)
  let d1 := if seam then (d.withSeam 64 (fun d => d.moveTone w)).upWave w (fun X => { X with acc := 0, toneAt := none }) else d
  let acc := (d1.wave w).acc
  let c := toneCode (d1.act .WV_TONE_LEVEL_AMP w) (d1.act .WV_TONE_PHASE_PHASE w) (sgn 12 (d1.act .WV_TONE_LEVEL_OFFSET w)) acc
  let clip : Bool := decide (c < -2048) || decide (2047 < c)
  let d2 := if clip then
      (let dc := d1.set1 .WV_STATUS_CLIPPED w
       if W.clipped then dc else dc.raise 0x2C3 w) else d1
  d2.upWave w (fun X => { X with out := clampInt (-2048) 2047 c, acc := (acc + d1.act .WV_TONE_FTW_FTW w) % 2 ^ 48, n := W.n + 1
                                 clipped := X.clipped || clip, grans := X.grans + b2n ((W.n + 1) % 64 == 0) })

/-- One sample of a STREAM play. -/
def Dev.streamSample (m : Mems) (d : Dev) (w P : Nat) : Dev :=
  let W := d.wave w
  let step := fun (d : Dev) (played : Bool) => d.upWave w (fun X => { X with n := W.n + 1, grans := X.grans + b2n (played && (W.n + 1) % 64 == 0) })
  if W.n % 64 = 0 then
    match W.fifo with
    | g :: t =>
      if d.wvWaits w (some g.no) then (if W.cur.isEmpty && W.emptied then step d false else d.wvUnderrun w P)
      else
        let d1 := (d.upWave w (fun X => { X with cur := g.data, fifo := t, out := sgn 12 (bits (g.data.headD 0) 4 12) })).wvMark w
          (bitAt (g.data.headD 0) 0) P
        step (Dev.wvStreamFetch m w 2 d1) true
    | [] =>
      if d.rd .WV_STREAM_RP_RP w = d.rd .WV_STREAM_WP_WP w then
        let d1 := ((d.set1 .WV_STATUS_EMPTY w).upWave w (fun X => { X with cur := [], emptied := true })).wvMark w false P
        step (if W.emptied then d1 else d1.raise 0x2C2 w) false
      else d.wvUnderrun w P
  else if W.cur.isEmpty then step d false
  else step (d.upWave w (fun X => { X with out := sgn 12 (bits (X.cur.getD (W.n % 64) 0) 4 12) })) true

/-- What channel `w`'s DAC does at sample point `P`. -/
def Dev.wvSample (m : Mems) (d : Dev) (w P : Nat) : Dev :=
  let W := d.wave w
  if d.wvState w ≠ WvState.PLAYING ∨ P < W.start.getD 0 then d
  else if W.atPark then d.wvPark w P
  else match W.mode with
    | 0 => Dev.segSample m d w P
    | 1 => d.toneSample w P
    | _ => Dev.streamSample m d w P

/-! ## Loss of the wave PLL (R270) -/

/-- WAVE_PLL_LOCK_LOSS; the acquisitions end too (R285). -/
def Dev.wavePllLost (d : Dev) : Dev :=
  let d1 := ((d.raise 0x2C4 0).clr .BR_STATUS_WAVE_READY 0).wvAllOff 4 Status.UNIT_DOWN
  let d2 := (List.range 8).foldl (fun d w =>
    let d' := (d.set1 .WV_STATUS_PLL_LOSS w).upWave w (fun W => { W with hist := [], histFull := false })
    match d'.acq w with
    | some a => if a.stop.isSome then d' else d'.setAcq w (some { a with stop := some (3, Status.UNIT_DOWN) })
    | none => d') d1
  d2.wvClock
/-- WAVE_PLL_LOCK_LOSS. -/
def execWavePllLockLoss (s : State) : Host.Outcome State Fault Refusal :=
  guardUnit true (s.onDev (fun d => if d.on .BR_STATUS_WAVE_READY 0 then d.wavePllLost else d))

/-- DAC_DISABLE (R270): every DAC that went to mid-code 1 µs ago is disabled. -/
def execDacDisable (s : State) : Host.Outcome State Fault Refusal :=
  guardUnit true (s.onDev (fun d => (List.range 8).foldl (fun d w =>
    match (d.wave w).offAt with
    | some t => if t ≤ d.bed then d.upWave w (fun W => { W with dacOn := false, offAt := none }) else d
    | none => d) d))

end Sys2Proof.Machine
end

