-- ==== Sys2Proof/Machine/Tau.lean ====
section
/-!
DEFINITION. Trigger and acquisition (R271 to R285): slots, their events and firings, acquisitions, and the sample point at which
channels, slots and acquisitions act.
-/
namespace Sys2Proof.Machine

/-! ## Slots (R271, R273, R276) -/

/-- TA_SLOT_CTRL of slot `k`. -/
def slotReg (k : Nat) : RegAt := regAt .ta .TA_SLOT_CTRL 0 k

/-- A slot's configuration can never fire (R273, R280). -/
def Dev.badSlot (d : Dev) (k : Nat) : Bool :=
  decide (8 ≤ d.rd .TA_SLOT_CTRL_SRC k) || d.rd .TA_SLOT_CTRL_COND k == 3 || d.rd .TA_SLOT_CTRL_EDGE k == 3 || d.rd .TA_SLOT_CTRL_MODE k == 3 ||
    ((d.on .TA_SLOT_CTRL_FWD k || d.rd .TA_SLOT_CTRL_SRC k == 6) && decide (d.rd .TA_SPAN_LAT 0 < 200))

/-- EN of slot `k` goes from 0 to 1 (R271). -/
def Dev.slotOn (d : Dev) (k : Nat) : Dev :=
  ((((d.clr .TA_SLOT_STATUS_SEQ k).clr .TA_SLOT_STATUS_HELDOFF k).set1 .TA_SLOT_STATUS_ARMED k).wr .TA_SLOT_STATUS_BADCFG k (b2n (d.badSlot k))).upSlot k
    (fun _ => { sigAt := d.sigNo, autoAt := d.bed })

/-- ARM = 1 on a SINGLE slot (R276). -/
def Dev.slotRearm (d : Dev) (k : Nat) : Dev := if d.rd .TA_SLOT_CTRL_MODE k = 2 then d.set1 .TA_SLOT_STATUS_ARMED k else d

/-- A write of `v` to TA_SLOT_CTRL of slot `k` (R20, R271, R273, R276); in safe state an enabled slot may take a reserved value. -/
def Dev.slotCtrl (d : Dev) (k v : Nat) : Dev :=
  let was := d.on .TA_SLOT_CTRL_EN k
  let d1 := d.writeReg (slotReg k) .whole v was
  let d2 := if !was && d1.on .TA_SLOT_CTRL_EN k then d1.slotOn k
    else if d1.on .TA_SLOT_CTRL_EN k && d1.badSlot k then d1.set1 .TA_SLOT_STATUS_BADCFG k else d1
  if bitAt v 30 then d2.slotRearm k else d2

/-- Slot `k` is enabled and can fire. -/
def Dev.slotLive (d : Dev) (k : Nat) : Bool :=
  d.on .TA_SLOT_CTRL_EN k && !d.on .TA_SLOT_STATUS_BADCFG k && !d.badSlot k && d.on .DEV_UNITS_TAU_OK 0

/-- An event of slot `k`. -/
def Dev.slotEvent (d : Dev) (k : Nat) (e : TrigEv) : Dev := d.upSlot k (fun S => { S with evs := S.evs ++ [e] })

/-- TA_FORCE: an event of every SOFT slot whose bit is 1, at the first sample point from this engine cycle on (R274). -/
def Dev.taForce (d : Dev) (v : Nat) : Dev :=
  ((List.range 16).filter (fun k => bitAt v k && d.slotLive k && d.rd .TA_SLOT_CTRL_SRC k == 7)).foldl (fun d k =>
    let n := pointAfter (d.bed / cycleTicks * cycleTicks)
    d.slotEvent k ⟨n, n, false, false, false⟩) d

/-- A forwarded firing of slot `o` arrives with tag `tag` and time `t` (R280). -/
def Dev.trigArrives (d : Dev) (tag o t : Nat) : Dev :=
  if tag ≠ d.rd .TA_SPAN_TAG 0 then d
  else
    ((List.range 16).filter (fun k => d.slotLive k && d.rd .TA_SLOT_CTRL_SRC k == 6 && d.rd .TA_SLOT_CTRL_SEL k % 16 == o)).foldl (fun d k =>
      d.slotEvent k ⟨pointAfter t, t, false, true, decide (t + ns (d.rd .TA_SPAN_LAT 0) < d.bed + ns 20)⟩) d

/-! ## ADC and pin events (R272, R274) -/

/-- What a slot has seen in one sample: what rises or enters, what falls or leaves, and the new armed sides. -/
structure Crossing where
  up : Bool
  dn : Bool
  armUp : Bool
  armDn : Bool
  deriving DecidableEq, Repr

/-- The LEVEL rule for value `x`: level `a`, hysteresis `h`, what is armed (R272). -/
def levelRule (a h x : Int) (up dn : Bool) : Crossing :=
  let fu : Bool := up && decide (a ≤ x)
  let fd : Bool := dn && decide (x ≤ a)
  ⟨fu, fd, !fu && (up || decide (x ≤ a - h)), !fd && (dn || decide (a + h ≤ x))⟩

/-- The WINDOW rule for sample `x`: window `a` to `b` (R272). -/
def windowRule (a b h x : Int) (up dn : Bool) : Crossing :=
  let inside : Bool := decide (a ≤ x) && decide (x ≤ b)
  let fu : Bool := up && inside
  let fd : Bool := dn && !inside
  ⟨fu, fd, !fu && (up || decide (x < a - h) || decide (b + h < x)), !fd && (dn || (decide (a + h ≤ x) && decide (x ≤ b - h)))⟩

/-- The crossing position p between values `v0` and `v1` of threshold `l`, in 1/256 sample (R274); none where the values are equal. -/
def crossAt (l v0 v1 : Int) : Option Nat :=
  let den := v1 - v0
  if den = 0 then none
  else
    let num := if den < 0 then v0 - l else l - v0
    let dd := if den < 0 then -den else den
    some (clampInt 0 256 ((512 * num + dd) / (2 * dd))).toNat

/-- The threshold that was crossed (R274). -/
def threshold (win : Bool) (a b x : Int) (prev : Option Int) (enter : Bool) : Int :=
  if !win then a
  else if enter then (match prev with | some p => if p < a then a else b | none => a)
  else if x < a then a else b

/-- Slot `k` fires on value `x` at sample point `P` across threshold `l` from `prev`: where no position is stated (two equal values), it
is open. -/
def Dev.adcEvent (d : Dev) (k P : Nat) (l x : Int) (prev : Option Int) : Dev :=
  match crossAt l (prev.getD x) x with
  | some p => d.slotEvent k ⟨P, P - 8192 + 32 * p, false, false, false⟩
  | none => (d.slotEvent k ⟨P, P - 8192 + 32 * (d.openVal 16 % 257), false, false, false⟩).took

/-- Slot `k` judges the sample of its channel at sample point `P` (R272). -/
def Dev.judgeAdc (d : Dev) (k P : Nat) : Dev :=
  let W := d.wave (d.rd .TA_SLOT_CTRL_SEL k % 8)
  let S := d.slot k
  let cond := d.rd .TA_SLOT_CTRL_COND k
  let edge := d.rd .TA_SLOT_CTRL_EDGE k
  let a := sgn 16 (d.rd .TA_SLOT_LEVEL_A k)
  let b := sgn 16 (d.rd .TA_SLOT_LEVEL_B k)
  let h : Int := d.rd .TA_SLOT_COND_HYST k
  let v : Option Int := match W.hist with
    | x :: _ => if cond = 2 then (W.hist[d.rd .TA_SLOT_COND_DIST k + 1]?).map (fun y => x - y) else some x
    | [] => none
  match v with
  | none => d
  | some x =>
    let c := if cond = 1 then windowRule a b h x S.up S.dn else levelRule a h x S.up S.dn
    let d1 := d.upSlot k (fun S => { S with up := c.armUp, dn := c.armDn, prev := some x })
    let d2 := if c.up && edge != 1 then d1.adcEvent k P (threshold (cond == 1) a b x S.prev true) x S.prev else d1
    if c.dn && edge != 0 then d2.adcEvent k P (threshold (cond == 1) a b x S.prev false) x S.prev else d2

/-- Slot `k` looks at its comparator input at sample point `P`; `cmp` lists the inputs that are high. -/
def Dev.judgePin (d : Dev) (k P : Nat) (cmp : List Nat) : Dev :=
  let sel := d.rd .TA_SLOT_CTRL_SEL k
  let lvl : Bool := cmp.contains (2 * (sel % 256) + bits sel 8 1)
  let d1 := d.upSlot k (fun S => { S with level := some lvl })
  match (d.slot k).level with
  | some old => if old != lvl && edgeIs (d.rd .TA_SLOT_CTRL_EDGE k) lvl then d1.slotEvent k ⟨P, P, false, false, false⟩ else d1
  | none => d1

/-- Every slot with an ADC or PIN source judges sample point `P`. -/
def Dev.judgeSlots (d : Dev) (P : Nat) (cmp : List Nat) : Dev :=
  (List.range 16).foldl (fun d k =>
    if !d.slotLive k then d
    else match d.rd .TA_SLOT_CTRL_SRC k with
      | 1 => let w := d.rd .TA_SLOT_CTRL_SEL k % 8
             if d.wvOk w && d.on .WV_CTRL_ADC_EN w then d.judgeAdc k P else d
      | 2 => d.judgePin k P cmp
      | _ => d) d

/-! ## Firings (R274 to R280) -/

/-- Whether signal `g` is an event of slot `k`. -/
def Dev.slotSignal (d : Dev) (k : Nat) (g : Signal) : Bool :=
  let sel := d.rd .TA_SLOT_CTRL_SEL k
  let edge := d.rd .TA_SLOT_CTRL_EDGE k
  match d.rd .TA_SLOT_CTRL_SRC k with
  | 3 => g.kind == .mark && g.unit == sel % 64 && g.idx == bits sel 8 4
  | 4 => g.kind == .wmark && g.unit == sel % 8 && edgeIs edge g.level
  | 5 => g.kind == .ev && g.unit == sel % 8 && edgeIs edge g.level
  | _ => false

/-- Slot `k` with the signals that are events of it taken among its events. -/
def Dev.slotHears (d : Dev) (k : Nat) : Slot :=
  let S := d.slot k
  let gs := (d.signals.reverse).filter (fun g => decide (S.sigAt ≤ g.no) && d.slotSignal k g)
  { S with sigAt := d.sigNo, evs := S.evs ++ gs.map (fun g => ⟨pointAfter g.t, g.t, false, false, false⟩) }

/-- The next event of slot `k`, the one of the earliest firing sample, and the slot without it (R274, R276). -/
def Dev.nextEvent (d : Dev) (k : Nat) : Option (TrigEv × Slot) :=
  let S := d.slotHears k
  match S.evs with
  | [] => none
  | e :: t =>
    let b := t.foldl (fun b x => if x.n < b.n then x else b) e
    some (b, { S with evs := S.evs.erase b })

/-- The end of the holdoff of slot `k` behind firing `f` (R277). -/
def Dev.holdEnd (d : Dev) (k : Nat) (f : Fire) : Nat := f.ev.n + 8192 * d.rd .TA_SLOT_HOLDOFF_SAMPLES k

/-- Sample point `n` lies in slot `k`'s holdoff behind one of its firings (R277). -/
def Dev.inHold (d : Dev) (k n : Nat) : Bool := (d.slot k).fires.any (fun f => decide (f.ev.n < n) && decide (n ≤ d.holdEnd k f))

/-- Slot `k` fired in sample `n` (R278). -/
def Slot.firedIn (S : Slot) (n : Nat) : Bool := S.fires.any (fun f => f.ev.n == n)

/-- The fields of an ACQUIRE (R281). -/
structure AcqSpec where
  w : Nat
  armTime : Nat
  dest : Nat
  post : Nat
  size : Nat
  decim : Nat
  arm : Nat
  rearm : Bool
  minmax : Bool
  hbm : Bool
  pre : Nat
  mask : Nat
  tmo : Nat
  deriving DecidableEq, Repr

/-- The fields of the ACQUIRE in `x` (R302). -/
def acqSpec (x : Entry) : AcqSpec :=
  let f := descField x.desc
  { w := descTarget x.desc, armTime := f 8 0 64, dest := f 16 0 64, post := f 24 0 32, size := f 28 0 32, decim := f 32 0 20, arm := f 32 20 2
    rearm := bitAt (f 32 0 32) 22, minmax := bitAt (f 32 0 32) 23, hbm := bitAt (f 32 0 32) 24, pre := f 36 0 20, mask := f 40 0 16, tmo := f 42 0 16 }

/-- Firing `f` meets the acquisition of channel `w`: the earliest sample at or after the arm point, then the lowest slot (R278, R282). -/
def Dev.acqFire (d : Dev) (f : Fire) (w : Nat) : Dev :=
  match d.acq w with
  | none => d
  | some A =>
    match d.entry? A.e with
    | none => d
    | some x =>
      let s := acqSpec x
      if A.stop.isSome ∨ !bitAt s.mask f.slot ∨ f.ev.n < A.arm then d
      else match A.trig with
        | none => d.setAcq w (some { A with trig := some f, coinc := 2 ^ f.slot })
        | some g =>
          if f.ev.n < g.ev.n then d.setAcq w (some { A with trig := some f, coinc := 2 ^ f.slot, written := 0, missing := 0, ovr := false })
          else if f.ev.n = g.ev.n then
            d.setAcq w (some { A with trig := some (if f.slot < g.slot then f else g), coinc := setBit A.coinc f.slot true })
          else d

/-- A firing of slot `k` at sample `n` marks the firings of higher slots in that sample as coincident (R278). -/
def Dev.markHigher (d : Dev) (k n : Nat) : Dev :=
  let d1 := ((List.range 16).filter (fun j => decide (k < j) && (d.slot j).firedIn n)).foldl (fun d j =>
    (d.set1 .TA_SLOT_STATUS_COINCIDENT j).upSlot j (fun S => { S with fires := S.fires.map (fun f => if f.ev.n = n then { f with co := true } else f) })) d
  (List.range 8).foldl (fun d w =>
    match d.acq w with
    | some A =>
      match A.trig with
      | some g => if k < g.slot ∧ g.ev.n = n then d.setAcq w (some { A with trig := some { g with co := true } }) else d
      | none => d
    | none => d) d1

/-- TRIG`k` of site `n` becomes 1 by the first unforced firing at or after its burst start, of time `t` (R56, R61, R279): at `t` + 96 ns; by way of a
FWD or REIN slot at T + TA_SPAN.LAT, a span-wide condition on every part too (R280; log entry 85). -/
def Dev.postTrig (d : Dev) (n k t : Nat) : Dev :=
  let far : Bool := d.on .TA_SLOT_CTRL_FWD k || d.rd .TA_SLOT_CTRL_SRC k == 6
  let eff := t + d.trigDelay k
  let org := if far then eff - ns (d.rd .SITE_SPAN_LAT_LAT n) else t
  if bitAt (d.site n).trigs k ∨ !(d.site n).start.any (fun s => decide (s ≤ t)) then d
  else
    let d1 := (d.upSite n (fun S => { S with trigs := setBit S.trigs k true })).queueCond n ⟨cycleAfter eff, 0x20 + k, true, false, t⟩
    ((d.mapped n (0x20 + k)).filter (d.spanWide n)).foldl (fun d c => d.spanCond n c true org) d1

/-- An unforced firing of slot `k` at time `t` acts on conditions, waits, jumps, MEASURE arms and the span (R279, R280). -/
def Dev.fireActs (d : Dev) (k t : Nat) : Dev :=
  let eff := t + d.trigDelay k
  let d1 := ((List.range 64).filter (fun n => d.siteState n != SiteState.EMPTY)).foldl (fun d n => d.postTrig n k t) d
  let d2 := { d1 with trigAt := tset (fun _ => []) d1.trigAt k (tget (fun _ => []) d1.trigAt k ++ [eff]) }
  let d3 := d2.signal .trig t k 0 true
  if d.on .TA_SLOT_CTRL_FWD k then d3.originate ⟨.trig, d.rd .TA_SPAN_TAG 0, k, t⟩ else d3

/-- Slot `k` fires on event `e` (R275 to R280). -/
def Dev.fire (d : Dev) (k : Nat) (e : TrigEv) : Dev :=
  let co := (List.range k).any (fun j => (d.slot j).firedIn e.n)
  let seq := (d.rd .TA_SLOT_STATUS_SEQ k + 1) % 2 ^ 32
  let f : Fire := ⟨k, d.rd .TA_SLOT_CTRL_SRC k, e, seq, co⟩
  let d1 := (((d.wr .TA_SLOT_STATUS_SEQ k seq).set1 .TA_SLOT_STATUS_FIRED k).wr .TA_SLOT_STATUS_FORCED k (b2n e.forced)).wr .TA_SLOT_LAST_T k (e.t % 2 ^ 64)
  let d2 := if co then d1.set1 .TA_SLOT_STATUS_COINCIDENT k else d1
  let d3 := if d.rd .TA_SLOT_CTRL_MODE k = 2 then d2.clr .TA_SLOT_STATUS_ARMED k else d2
  let d4 := if e.late then (d3.set1 .TA_SLOT_STATUS_LATE k).raise 0x2E0 k else d3
  let d5 := d4.upSlot k (fun S => { S with fires := f :: S.fires, autoAt := max S.autoAt e.n })
  let d6 := (List.range 8).foldl (fun d w => d.acqFire f w) ((d5.markHigher k e.n).tally 0x70 k 1)
  if e.forced || e.late then d6 else d6.fireActs k e.t

/-- FIRING: the next event of slot `k` whose firing sample has come. -/
def Dev.firing (d : Dev) (k : Nat) : Dev :=
  if !d.slotLive k then d
  else match d.nextEvent k with
    | none => d
    | some (e, S) =>
      if d.bed + cycleTicks ≤ e.n then d
      else
        let d1 := d.upSlot k (fun _ => S)
        if d.inHold k e.n then d1.count .TA_SLOT_STATUS_HELDOFF k 1
        else if !d.on .TA_SLOT_STATUS_ARMED k then d1
        else d1.fire k e
/-- FIRING. -/
def execFiring (k : Nat) (s : State) : Host.Outcome State Fault Refusal :=
  guardUnit (decide (k < 16)) (s.onDev (fun d => d.firing k))

/-- The sample point of slot `k`'s forced firing (R276): the next one when the auto timeout has passed, behind a holdoff. -/
def Dev.forcedPoint (d : Dev) (k : Nat) : Nat :=
  let S := d.slot k
  let n := pointAfter (S.autoAt + us (d.rd .TA_SLOT_AUTO_US k))
  if d.inHold k n then (S.fires.map (d.holdEnd k)).foldl max 0 + 8192 else n

/-- FORCED_FIRING (R276). -/
def Dev.forcedFiring (d : Dev) (k : Nat) : Dev :=
  let n := d.forcedPoint k
  if d.slotLive k ∧ d.rd .TA_SLOT_CTRL_MODE k = 1 ∧ d.rd .TA_SLOT_AUTO_US k ≠ 0 ∧ n < d.bed + cycleTicks then d.fire k ⟨n, n, true, false, false⟩ else d
/-- FORCED_FIRING. -/
def execForcedFiring (k : Nat) (s : State) : Host.Outcome State Fault Refusal :=
  guardUnit (decide (k < 16)) (s.onDev (fun d => d.forcedFiring k))

/-! ## Acquisitions (R281 to R285) -/

/-- The bytes of one output sample. -/
def AcqSpec.width (s : AcqSpec) : Nat := if s.minmax then 4 else 2

/-- An ACQUIRE that R281, or the range of its destination (R290), makes INVALID. -/
def Dev.acqInvalid (d : Dev) (s : AcqSpec) : Bool :=
  s.mask == 0 || decide (2 ≤ s.arm) || s.decim == 0 || (s.minmax && s.decim == 1) || decide (1048576 < s.pre * s.decim) || s.post == 0 ||
    s.dest % 64 != 0 || decide (s.size < 64 + (s.pre + s.post) * s.width) || (s.hbm && !d.localMode && !d.hbmOk s.dest (64 + (s.pre + s.post) * s.width))

/-- An earlier ACQUIRE waits for the channel (R318). -/
def Dev.acqAhead (d : Dev) (x : Entry) : Bool :=
  d.tracker.any (fun y => descOp y.desc == 0x3A && descTarget y.desc == descTarget x.desc && decide (y.id < x.id) && !y.done && !y.begun)

/-- ACQUIRE. -/
def Dev.acquire (d : Dev) (e : Nat) : Dev :=
  match d.open? e 0x3A with
  | none => d
  | some x =>
    let s := acqSpec x
    let soon := x.born + ns 500
    let arm := if s.arm = 0 then pointAfter soon else pointAfter (d.fullTime s.armTime)
    if x.begun then d
    else if d.acqInvalid s then d.finish e Status.INVALID 0
    else if arm < soon then d.finish e Status.LATE_START 0
    else if !d.wvOk s.w ∨ !d.on .WV_CTRL_ADC_EN s.w ∨ !d.on .DEV_UNITS_TAU_OK 0 ∨ (s.hbm ∧ d.localMode) then d.finish e Status.UNIT_DOWN 0
    else if (d.acq s.w).isSome ∨ d.acqAhead x then d
    else
      let d1 := (d.begin_ e).setAcq s.w (some { e := e, arm := arm })
      ((List.range 16).flatMap (fun k => (d.slot k).fires)).foldl (fun d f => d.acqFire f s.w) d1
/-- ACQUIRE. -/
def execAcquire (e : Nat) (s : State) : Host.Outcome State Fault Refusal :=
  guardUnit true (s.onDev (fun d => d.acquire e))

/-- ACQUISITION_ARM (R281): SINGLE slots of the mask are re-armed. -/
def Dev.acqArm (d : Dev) (w : Nat) : Dev :=
  match d.acq w with
  | none => d
  | some A =>
    match d.open? A.e 0x3A with
    | none => d
    | some x =>
      let s := acqSpec x
      if A.armed ∨ d.bed + cycleTicks ≤ A.arm then d
      else
        let d1 := (d.start A.e).setAcq w (some { A with armed := true })
        if s.rearm then ((List.range 16).filter (fun k => bitAt s.mask k && d.on .TA_SLOT_CTRL_EN k)).foldl (fun d k => d.slotRearm k) d1 else d1
/-- ACQUISITION_ARM. -/
def execAcquisitionArm (w : Nat) (s : State) : Host.Outcome State Fault Refusal :=
  guardUnit (decide (w < 8)) (s.onDev (fun d => d.acqArm w))

/-- The sample that the history holds for sample point `P`. -/
def Wave.sampleOf (W : Wave) (P : Int) : Option Int :=
  if (W.histAt : Int) < P then none else W.hist[(((W.histAt : Int) - P) / 8192).toNat]?

/-- What can be said of an output sample: not yet there, overwritten, or the value, whether it is missing, whether at full scale. -/
inductive OutSample where
  | wait | lost
  | out (v : Nat) (missing ovr : Bool)
  deriving DecidableEq, Repr

/-- A sample in SAMPLE format (R283). -/
def sampleCode (x : Int) : Nat := unsgn 12 x * 16 + b2n (x == -2048 || x == 2047)

/-- Output sample `i` of an acquisition whose firing sample is `n` (R282, R283, R284). -/
def AcqSpec.output (s : AcqSpec) (W : Wave) (n i : Nat) : OutSample :=
  let first : Int := (n : Int) + ((i : Int) - s.pre) * s.decim * 8192
  let oldest : Int := (W.histAt : Int) - 8192 * ((W.hist.length : Int) - 1)
  if (W.histAt : Int) < first + 8192 * ((s.decim : Int) - 1) ∨ W.hist.isEmpty then .wait
  else if first < oldest ∧ W.histFull then .lost
  else
    let xs := if s.minmax then (List.range s.decim).filterMap (fun (j : Nat) => W.sampleOf (first + 8192 * (j : Nat))) else (W.sampleOf first).toList
    match xs with
    | [] => .out 0 true false
    | x :: t =>
      let lo := t.foldl min x
      let hi := t.foldl max x
      .out (if s.minmax then sampleCode hi * 2 ^ 16 + sampleCode lo else sampleCode x) false (lo == -2048 || hi == 2047)

/-- The output samples that are there are written, at most `f`: the acquisition after them, their bytes. -/
def AcqSpec.run (s : AcqSpec) (W : Wave) (n : Nat) : Nat → Acq → Acq × List Byte
  | 0, A => (A, [])
  | f + 1, A =>
    match s.output W n A.written with
    | .wait => (A, [])
    | .lost => ({ A with stop := some (2, Status.OVERRUN) }, [])
    | .out v miss ovr =>
      let r := s.run W n f { A with written := A.written + 1, missing := A.missing + b2n miss, ovr := A.ovr || ovr, short := A.short || miss }
      (r.1, bytesOf s.width v ++ r.2)

/-- A write of an acquisition's bytes, with or without the Relaxed Ordering attribute (R321). -/
def AcqSpec.put (s : AcqSpec) (relaxed : Bool) (a : Nat) (bs : List Byte) : Put := if s.hbm then .hbm a bs else .host a bs relaxed

/-- Channel `w`'s acquisition writes what it can (R284). -/
def Dev.acqWrite (d : Dev) (w : Nat) : List Put × Dev :=
  match d.acq w with
  | none => ([], d)
  | some A =>
    match d.entry? A.e, A.trig with
    | some x, some f =>
      let s := acqSpec x
      if A.stop.isSome then ([], d)
      else
        let r := s.run (d.wave w) f.ev.n (s.pre + s.post - A.written) A
        let d1 := d.setAcq w (some r.1)
        let d2 := if r.1.short && !A.short then d1.raise 0x2E3 w else d1
        let d3 := if r.1.stop.isSome then d2.raise 0x2E1 w else d2
        if r.2.isEmpty then ([], d3)
        else
          let a := s.dest + 64 + s.width * A.written
          ([s.put d.ringEng.relaxed a r.2], if s.hbm then d3.hbm true (.result A.e) a r.2.length else d3)
    | _, _ => ([], d)

/-- A trigger record (R275). -/
def Fire.record (f : Fire) : Nat :=
  f.ev.t / cycleTicks * 2 ^ 64 + f.ev.t % cycleTicks * 2 ^ 50 + f.slot * 2 ^ 46 + f.src * 2 ^ 42 + b2n f.ev.forced * 2 ^ 41 + b2n f.co * 2 ^ 40 +
    b2n f.ev.remote * 2 ^ 39 + b2n f.ev.late * 2 ^ 38 + f.seq

/-- FLAGS of an acquisition that ends with END `code` (R284). -/
def Acq.flags (A : Acq) (code : Nat) : Nat :=
  let g := fun (p : Fire → Bool) => b2n ((A.trig.map p).getD false)
  b2n (A.missing != 0) + 2 * b2n A.ovr + 4 * g (·.ev.remote) + 8 * g (·.ev.late) + 16 * g (·.ev.forced) +
    32 * b2n (A.coinc != 0 && A.coinc != 2 ^ (A.trig.map (·.slot)).getD 0) + 64 * code

/-- Channel `w`'s acquisition ends: the header, and the completion (R284). -/
def Dev.endAcq (d : Dev) (w : Nat) (x : Entry) (A : Acq) (code status : Nat) : List Put × Dev :=
  let s := acqSpec x
  let first : Nat := match A.trig with
    | some f => unsgn 64 ((f.ev.n : Int) - 8192 * s.pre * s.decim)
    | none => 0
  let flags := A.flags code
  let head := (A.trig.map Fire.record).getD 0 * 2 ^ 384 + first * 2 ^ 320 + A.written * 2 ^ 288 + s.decim * 2 ^ 268 + b2n s.minmax * 2 ^ 267 +
    w * 2 ^ 264 + A.coinc * 2 ^ 240 + flags * 2 ^ 224 + A.missing * 2 ^ 192
  let res := (A.trig.map (fun f => f.ev.t % 2 ^ 64)).getD 0 * 2 ^ 64 + A.written * 2 ^ 32 + flags * 2 ^ 16 + (A.trig.map (·.slot)).getD 0 * 2 ^ 12
  let d1 := if s.hbm then d.hbm true (.result x.id) s.dest 64 else d
  ([s.put false s.dest (bytesOf 64 head)], (d1.finish x.id status res).setAcq w none)

/-- ACQUISITION_END (R284, R285). -/
def Dev.acqEnd (d : Dev) (w : Nat) : List Put × Dev :=
  let r := d.acqWrite w
  match r.2.acq w with
  | none => ([], d)
  | some A =>
    match r.2.open? A.e 0x3A with
    | none => ([], d)
    | some x =>
      let go := fun (c st : Nat) => (r.1 ++ (r.2.endAcq w x A c st).1, (r.2.endAcq w x A c st).2)
      match A.stop with
      | some (c, st) => go c st
      | none => if A.trig.isSome ∧ (acqSpec x).pre + (acqSpec x).post ≤ A.written then go 0 Status.OK else r
/-- ACQUISITION_END. -/
def execAcquisitionEnd (w : Nat) (s : State) : Host.Outcome State Fault Refusal :=
  guardUnit (decide (w < 8)) (s.onMem (fun _ d => d.acqEnd w))

/-- ACQUISITION_TIMEOUT (R284). -/
def Dev.acqTimeout (d : Dev) (w : Nat) : List Put × Dev :=
  match d.acq w with
  | none => ([], d)
  | some A =>
    match d.open? A.e 0x3A with
    | none => ([], d)
    | some x =>
      let t := (acqSpec x).tmo
      if A.trig.isNone ∧ A.stop.isNone ∧ t ≠ 0 ∧ A.arm + ms t ≤ d.bed then (d.raise 0x2E2 w).endAcq w x A 1 Status.TIMEOUT else ([], d)
/-- ACQUISITION_TIMEOUT. -/
def execAcquisitionTimeout (w : Nat) (s : State) : Host.Outcome State Fault Refusal :=
  guardUnit (decide (w < 8)) (s.onMem (fun _ d => d.acqTimeout w))

/-- A recovery or safe state ends the acquisition of entry `x` (R285, R323, R324): armed, ACQUISITION_END follows with END 0b11; else
it is withdrawn. -/
def Dev.stopAcq (d : Dev) (x : Entry) : Dev :=
  let w := descTarget x.desc
  match d.acq w with
  | some A =>
    if A.e ≠ x.id then d.finish x.id Status.WITHDRAWN 0
    else if A.armed then (if A.stop.isSome then d else d.setAcq w (some { A with stop := some (3, Status.WITHDRAWN) }))
    else (d.finish x.id Status.WITHDRAWN 0).setAcq w none
  | none => d.finish x.id Status.WITHDRAWN 0

/-! ## The sample point (R250, R252, R272, R283) -/

/-- The next sample point not yet taken. -/
def Dev.nextPoint (d : Dev) : Nat := pointAfter (max d.bed d.sampleAt)

/-- Channel `w`'s ADC delivers `x` at sample point `P` (R252, R283). -/
def Dev.adcTake (d : Dev) (w P : Nat) (x : Int) : Dev :=
  if d.wvOk w && d.on .WV_CTRL_ADC_EN w then
    let c := clampInt (-2048) 2047 x
    let d1 := if c = -2048 ∨ c = 2047 then d.set1 .WV_STATUS_OVERRANGE w else d
    d1.upWave w (fun W => { W with hist := (c :: W.hist).take 1048576, histAt := P, histFull := W.histFull || decide (1048576 ≤ W.hist.length) })
  else d

/-- SAMPLE_POINT: the channels play and deliver, the slots judge, the acquisitions write. -/
def Dev.samplePoint (m : Mems) (d : Dev) (adc : List Int) (cmp : List Nat) : List Put × Dev :=
  let P := d.nextPoint
  if !d.on .BR_STATUS_WAVE_READY 0 ∨ d.bed + cycleTicks ≤ P then ([], d)
  else
    let d1 := (List.range 8).foldl (fun d w => Dev.wvSample m d w P) { d with sampleAt := P + 1 }
    let d2 := (List.range 8).foldl (fun d w => d.adcTake w P (adc.getD w 0)) d1
    (List.range 8).foldl (fun r w =>
      let q := r.2.acqWrite w
      (r.1 ++ q.1, q.2)) ([], d2.judgeSlots P cmp)
/-- SAMPLE_POINT. -/
def execSamplePoint (adc : List Int) (cmp : List Nat) (s : State) : Host.Outcome State Fault Refusal :=
  guardUnit true (s.onMem (fun m d => Dev.samplePoint m d adc cmp))

end Sys2Proof.Machine
end

