-- ==== Sys2Proof/Machine/Rings.lean ====
section
/-!
DEFINITION. The Ring Engine (R286 to R332): contexts and their commands, doorbells, tokens, dispatch, ring errors and the stop of
descriptors, completion records and MSI-X messages.
-/
namespace Sys2Proof.Machine

def RingState.DISABLED : Nat := 0
def RingState.ACTIVE : Nat := 1
def RingState.QUIESCING : Nat := 2
def RingState.HALTED : Nat := 3

/-- Boot has ended and the part is not in RECOVERY (R42, R513). -/
def Dev.serves (d : Dev) : Bool := d.on .DEV_UNITS_FINAL 0 && d.rd .DEV_UNITS_MODE 0 != 2
/-- The tracker entries of ring `r`, in dispatch order (R299). -/
def Dev.entriesOf (d : Dev) (r : Nat) : List Entry := d.tracker.filter (fun x => x.ring == r)
/-- Safe state (R458). -/
def Dev.isSafe (d : Dev) : Bool := d.on .FC_STATE_SAFE 0
/-- A standby or a part that syncs follows its primary (R395). -/
def Dev.follows (d : Dev) : Bool := d.role == 4 || d.role == 2

/-! ## The context cache (R290) -/

/-- An enabled ring of class URGENT or RUN stays in the cache. -/
def Dev.pinned (d : Dev) (r : Nat) : Bool := (d.ring r).state != RingState.DISABLED && decide ((d.ring r).cls < 2)

/-- The ring whose place is taken: the least recently used that is neither pinned nor has descriptors in flight. -/
def Dev.victim (d : Dev) : Option Nat := d.ringEng.cache.reverse.find? (fun r => !d.pinned r && (d.entriesOf r).isEmpty)

/-- The Ring Engine uses ring `r`'s context: it comes from pattern memory if it is not on die. -/
def Dev.touchCtx (d : Dev) (r : Nat) : Dev :=
  let c := d.ringEng.cache
  if d.localMode then d
  else if c.contains r then { d with ringEng := { d.ringEng with cache := r :: c.erase r } }
  else
    let read := fun (d : Dev) => d.hbm false (.ctx r) (d.ctxBase + 128 * r) 128
    if c.length < 4096 then read { d with ringEng := { d.ringEng with cache := r :: c } }
    else match d.victim with
      | some v => read (({ d with ringEng := { d.ringEng with cache := r :: c.erase v } } : Dev).hbm true (.ctx v) (d.ctxBase + 128 * v) 128)
      | none => read d

/-! ## Context commands (R291, R292) -/

/-- The command is refused. -/
def Dev.cmdErr (d : Dev) (r : Nat) : Dev := (d.set1 .RG_STATUS_CMD_ERR 0).raise 0x140 r

/-- The context window as one number: SQ, CQ, CTRL, RESTART. -/
def Dev.ctxWin (d : Dev) : Nat :=
  d.regWord (regAt .rg .RG_CTX_SQ 0 0) + d.regWord (regAt .rg .RG_CTX_CQ 0 0) * 2 ^ 64 + d.regWord (regAt .rg .RG_CTX_CTRL 0 0) * 2 ^ 128 +
    d.rd .RG_CTX_RESTART_INDEX 0 * 2 ^ 192

/-- Ring `r` with the context of window `w` (STORE). -/
def Ring.store (R : Ring) (w : Nat) : Ring :=
  { R with sqBase := bits w 12 52, sqLog := bits w 0 5, cqBase := bits w 76 52, cqLog := bits w 64 5, holdoff := bits w 180 10, window := bits w 164 16
           weight := bits w 160 4, cls := bits w 156 2, vector := bits w 144 11, cq := bits w 128 16, restart := bits w 192 20 }

/-- Ring `r`'s context copied to the window (LOAD). -/
def Dev.ctxLoad (d : Dev) (r : Nat) : Dev :=
  let R := d.ring r
  [(Fld.RG_CTX_SQ_BASE, R.sqBase), (.RG_CTX_SQ_LOG2, R.sqLog), (.RG_CTX_CQ_BASE, R.cqBase), (.RG_CTX_CQ_LOG2, R.cqLog),
   (.RG_CTX_CTRL_HOLDOFF, R.holdoff), (.RG_CTX_CTRL_WINDOW, R.window), (.RG_CTX_CTRL_WEIGHT, R.weight), (.RG_CTX_CTRL_CLASS, R.cls),
   (.RG_CTX_CTRL_VECTOR, R.vector), (.RG_CTX_CTRL_CQ, R.cq), (.RG_CTX_STATE_INFLIGHT, (d.entriesOf r).length), (.RG_CTX_STATE_FETCH, R.fetch),
   (.RG_CTX_STATE_LAST_ERR, R.lastErr), (.RG_CTX_STATE_STATE, R.state), (.RG_CTX_IDX_CQ_PHASE, b2n R.phase), (.RG_CTX_IDX_CQ_TAIL, R.cqTail),
   (.RG_CTX_IDX_CQ_HEAD, R.head), (.RG_CTX_IDX_SQ_TAIL, R.tail), (.RG_CTX_RESTART_INDEX, R.restart)].foldl (fun d x => d.wr x.1 0 x.2) d

/-- Another ring that is not DISABLED completes into ring `r` (R292). -/
def Dev.named (d : Dev) (r : Nat) : Bool := d.rings.any (fun x => x.1 != r && x.2.cq == r && x.2.state != RingState.DISABLED)

/-- Command `c` (1 LOAD, 2 STORE, 3 ENABLE, 4 DISABLE, 5 RESTART) is allowed for ring `r` with window `w` (R290 to R292, R326, R458). -/
def Dev.ctxAllowed (d : Dev) (r c w : Nat) : Bool :=
  let R := d.ring r
  if d.localMode && decide (4096 ≤ r) then false
  else match c with
    | 1 => true
    | 2 => R.state == RingState.DISABLED && decide (4 ≤ bits w 0 5) && decide (bits w 0 5 ≤ 20) && decide (4 ≤ bits w 64 5) && decide (bits w 64 5 ≤ 20)
    | 3 => R.state == RingState.DISABLED && !d.isSafe && (R.cq == r || (d.ring R.cq).cqOn) &&
        (decide (2 ≤ R.cls) || decide ((d.rings.filter (fun x => d.pinned x.1)).length < 2048))
    | 4 => !d.named r && (R.state == RingState.ACTIVE || (R.state == RingState.HALTED && (d.entriesOf r).isEmpty))
    | 5 => !d.isSafe && R.state == RingState.HALTED && (d.entriesOf r).isEmpty && decide (bits w 192 20 < 2 ^ R.sqLog)
    | _ => false

/-- Ring `r` with its indices and phase as ENABLE leaves them (R291). -/
def Ring.zeroed (R : Ring) : Ring :=
  { R with fetch := 0, tail := 0, head := 0, cqTail := 0, phase := true, unread := 0, owed := 0, descs := [], waitAt := none, order := none, orderTo := none }

/-- Ring `r` goes to state `st`: fetch stops outside ACTIVE, the completion side is disabled with the ring (R291, R292). -/
def Dev.ringTo (d : Dev) (r st : Nat) : Dev :=
  d.upRing r (fun R => { R with state := st, descs := if st = RingState.ACTIVE then R.descs else [], waitAt := none
                                cqOn := R.cqOn && st != RingState.DISABLED })

/-- What an allowed command does to ring `r` (R291). -/
def Dev.ctxDo (d : Dev) (r c w : Nat) : Dev :=
  match c with
  | 1 => (d.touchCtx r).ctxLoad r
  | 2 => (d.touchCtx r).upRing r (fun R => R.store w)
  | 3 => (d.upRing r (fun R => { R.zeroed with state := RingState.ACTIVE, cqOn := true })).touchCtx r
  | 4 => d.ringTo r (if (d.ring r).state = RingState.ACTIVE ∧ (d.entriesOf r) ≠ [] then RingState.QUIESCING else RingState.DISABLED)
  | _ => d.upRing r (fun R => { R with state := RingState.ACTIVE, fetch := bits w 192 20, restart := bits w 192 20, descs := [], waitAt := none, order := none, orderTo := none })

/-- A write of command `c` for ring `r` to RG_CTX_CMD (R291; the effect is applied at the write, log entry 22). -/
def Dev.ctxCmd (d : Dev) (r c : Nat) : Dev :=
  if d.on .RG_CTX_CMD_BUSY 0 then d.cmdErr (d.rd .RG_CTX_CMD_RING 0)
  else
    let d1 := d.wr .RG_CTX_CMD_RING 0 r
    if c = 0 then d1
    else if d1.ctxAllowed r c d.ctxWin then ((d1.ctxDo r c d.ctxWin).set1 .RG_CTX_CMD_BUSY 0).mirror 2 r c d.ctxWin
    else d1.cmdErr r

/-- CONTEXT_COMMAND_COMPLETE. -/
def execContextCommandComplete (s : State) : Host.Outcome State Fault Refusal :=
  guardUnit true (s.onDev (Dev.core (fun d => d.clr .RG_CTX_CMD_BUSY 0)))

/-! ## Doorbells (R293, R294) -/

/-- A doorbell write is ignored (R294). -/
def Dev.dropBell (d : Dev) (r : Nat) : Dev := (d.count .RG_STATUS_DOORBELL_DROP 0 1).raise 0x141 r

/-- Ring `r` takes tail `v`. -/
def Dev.takeTail (d : Dev) (r v : Nat) : Dev := (d.upRing r (fun R => { R with tail := v })).touchCtx r

/-- SQ_TAIL. -/
def Dev.sqTail (d : Dev) (r v : Nat) : Dev :=
  let R := d.ring r
  if !d.serves then d
  else if R.state ≠ RingState.ACTIVE ∨ 2 ^ R.sqLog ≤ v ∨ d.follows ∨ (d.localMode ∧ 4096 ≤ r) then d.dropBell r
  else if v = R.tail then d
  else (d.takeTail r v).mirror 0 r v 0

/-- The slots that a head of `v` frees (R294). -/
def Ring.frees (R : Ring) (v : Nat) : Nat := (v + 2 ^ R.cqLog - R.head) % 2 ^ R.cqLog

/-- Ring `r`'s completion ring takes head `v`; the slots are free from the next engine cycle on (R297). -/
def Dev.takeHead (d : Dev) (r v : Nat) : Dev :=
  d.upRing r (fun R =>
    let n := R.frees v
    { R with head := v, unread := R.unread - n, freedAt := d.cycle, freed := if R.freedAt = d.cycle then R.freed + n else n })

/-- CQ_HEAD. -/
def Dev.cqHead (d : Dev) (r v : Nat) : Dev :=
  let R := d.ring r
  if !d.serves then d
  else if !R.cqOn ∨ 2 ^ R.cqLog ≤ v ∨ R.unread < R.frees v ∨ d.follows ∨ (d.localMode ∧ 4096 ≤ r) then d.dropBell r
  else if v = R.head then d
  else (d.takeHead r v).mirror 1 r v 0

/-! ## Tokens (R310, R311) -/

/-- A token after the changes of a cycle: MMIO write, TOKEN_SETs, notifications (R310). -/
def TokenCyc.value (k : TokenCyc) : Nat :=
  (k.sets.foldl (fun v x => if x.1 then (v + x.2) % 2 ^ 32 else x.2) (k.mmio.getD k.before) + k.notes) % 2 ^ 32

/-- The changes of token `t` in the present engine cycle. -/
def Dev.tokenCyc (d : Dev) (t : Nat) : TokenCyc :=
  let k := tget (fun _ => {}) d.ringEng.tokens t
  if k.cycle = d.cycle + 1 then k else { cycle := d.cycle + 1, before := d.rd .RG_TOKEN_VALUE t }

/-- Token `t` changes in this engine cycle as `f` says. -/
def Dev.changeToken (d : Dev) (t : Nat) (f : TokenCyc → TokenCyc) : Dev :=
  let k := f (d.tokenCyc t)
  ({ d with ringEng := { d.ringEng with tokens := tset (fun _ => {}) d.ringEng.tokens t k } } : Dev).wr .RG_TOKEN_VALUE t k.value

/-- A TOKEN_SET: `add` for MODE ADD. -/
def Dev.setToken (d : Dev) (t v : Nat) (add : Bool) : Dev := d.changeToken t (fun k => { k with sets := k.sets ++ [(add, v)] })

/-- A notification raises token `t`. -/
def Dev.notifyToken (d : Dev) (t : Nat) : Dev := d.changeToken t (fun k => { k with notes := k.notes + 1 })

/-- An MMIO write to token `t`: the last one of an engine cycle counts. -/
def Dev.putToken (d : Dev) (t v : Nat) : Dev := d.changeToken t (fun k => { k with mmio := some (v % 2 ^ 32) })

/-- Token `t` as a check sees it: its value before the present engine cycle. -/
def Dev.tokenSeen (d : Dev) (t : Nat) : Nat := (d.tokenCyc t).before

/-- An MMIO write of `v` to token `t`. -/
def Dev.tokenWrite (d : Dev) (t v : Nat) : Dev := (d.putToken t v).mirror 3 t v 0

/-! ## Reading descriptors (R295) -/

/-- The index of the next descriptor of ring `r` to be read. -/
def Ring.readIdx (R : Ring) : Nat := (R.fetch + R.descs.length) % 2 ^ R.sqLog
/-- The host address of descriptor `i` (R289). -/
def Ring.descAt (R : Ring) (i : Nat) : Nat := R.sqBase * 4096 + 64 * i
/-- The pending descriptors of the ring not yet read. -/
def Ring.unfetched (R : Ring) : Nat := (R.tail + 2 ^ R.sqLog - R.fetch) % 2 ^ R.sqLog - R.descs.length

/-- The Ring Engine may read descriptors of ring `r`. -/
def Dev.mayRead (d : Dev) (r : Nat) : Bool :=
  (d.ring r).state == RingState.ACTIVE && !d.follows && !d.waiting (fun w => w == .ctx r)

/-- One descriptor read: its bytes, or none where the read failed. -/
def Dev.readDesc (d : Dev) (r : Nat) (x : Option Nat) : Dev :=
  if (d.ring r).unfetched = 0 then d
  else d.upRing r (fun R => { R with descs := R.descs ++ [(R.readIdx, x.map (· % 2 ^ 512))] })

/-- DESCRIPTOR_READ: up to 8 in one request, none past the ring's end. -/
def Dev.descRead (d : Dev) (r : Nat) (data : List Nat) : Dev :=
  let R := d.ring r
  let n := min (min 8 (2 ^ R.sqLog - R.readIdx)) (min data.length R.unfetched)
  if d.mayRead r ∧ n ≠ 0 then (data.take n).foldl (fun d x => d.readDesc r (some x)) ((d.touchCtx r).ask (R.descAt R.readIdx) (64 * n)) else d
/-- DESCRIPTOR_READ. -/
def execDescriptorRead (r : Nat) (data : List Nat) (s : State) : Host.Outcome State Fault Refusal :=
  guardUnit (decide (r < 65536)) (s.onDev (Dev.core (fun d => d.descRead r data)))

/-! ## Stopping descriptors (R323, R324) -/

/-- The units that a CAL_REQUEST or CAL_REPORT names: kind, first, number. -/
def calNamed (x : Entry) : Nat × Nat × Nat := (descField x.desc 8 0 4, descField x.desc 10 0 16, descField x.desc 12 0 16)
/-- The unit numbers named. -/
def calList (x : Entry) : List Nat := (List.range (calNamed x).2.2).map (· + (calNamed x).2.1)

/-- RESULT of the CAL_REQUEST `x` as it stands: accepted, rejected, OUT, windows, their time. -/
def Dev.calResult (d : Dev) (x : Entry) : Nat :=
  let l := (calList x).map (fun u => d.calUnit (calNamed x).1 u)
  resAt (l.filter (fun U => U.said == some true)).length 112 16 + resAt (l.filter (fun U => U.said == some false)).length 96 16 +
    resAt (l.filter (fun U => U.state == 4)).length 80 16 + resAt x.progress 64 16 + resAt x.due 32 32

/-- Request `x` ends: its units are free of it. -/
def Dev.calRelease (d : Dev) (x : Entry) : Dev :=
  let d1 := (calList x).foldl (fun d u => d.upCal (calNamed x).1 u (fun U => if U.req = some x.id then { U with req := none, held := [], said := none } else U)) d
  d1.wr .SP_STATUS_REQ_OPEN 0 (b2n (d1.tracker.any (fun y => y.id != x.id && descOp y.desc == 0x48 && y.begun && !y.done)))

/-- Forced window `w` ends: its pins return to their idle-code levels (R435). -/
def Dev.closeWindow (d : Dev) (w : Window) : Dev :=
  let d1 : Dev := { d with windows := d.windows.filter (· != w) }
  (w.pins.foldl (fun d p => (d.upPin p (fun P => { P with forced := false })).driveIdle p) d1).wr .SP_STATUS_FORCE_OPEN 0 (b2n (!d1.windows.isEmpty))

/-- A stop of the CAL_REQUEST `x`: no step stands between two commands, so it ends at once, with what it held discarded (R323, R324, R441); a window
opened for it closes with it (log entry 99). -/
def Dev.calStop (d : Dev) (x : Entry) : Dev :=
  (d.windows.filter (fun w => w.req == some x.id)).foldl (fun d w => d.closeWindow w)
    ((d.finish x.id (if x.touched then Status.ABORTED_PARTIAL else Status.WITHDRAWN) (if x.started then d.calResult x else 0)).calRelease x)

/-- Descriptor `x` is stopped by a recovery. -/
def Dev.stopEntry (d : Dev) (x : Entry) : Dev :=
  if x.done then d
  else if !x.begun then d.finish x.id Status.WITHDRAWN 0
  else match descOp x.desc with
    | 0x21 => if (d.site (descTarget x.desc)).run = some x.id then d.abortSite (descTarget x.desc) 4 false else d.finish x.id Status.WITHDRAWN 0
    | 0x22 => d
    | 0x23 => d
    | 0x30 => d.stopJob x.id Status.WITHDRAWN
    | 0x38 => if (d.wave (descTarget x.desc)).play = some x.id then d.wvStopFault (descTarget x.desc) else d.finish x.id Status.WITHDRAWN 0
    | 0x39 => d
    | 0x3A => d.stopAcq x
    | 0x50 => d
    | 0x60 => d
    | 0x40 => if 4 ∣ x.progress then d.finish x.id Status.WITHDRAWN x.result else d.upEntry x.id (fun y => { y with stopping := true })
    | 0x49 => if 2 ∣ x.progress then d.finish x.id Status.WITHDRAWN x.result else d.upEntry x.id (fun y => { y with stopping := true })
    | 0x28 => d.upEntry x.id (fun y => { y with stopping := true })
    | 0x48 => d.calStop x
    | _ => d.finish x.id Status.WITHDRAWN x.doneSoFar

/-- Ring `r` is halted with no erroring descriptor (R329). -/
def Dev.haltRing (d : Dev) (r : Nat) : Dev :=
  let st := (d.ring r).state
  if st = RingState.ACTIVE ∨ st = RingState.QUIESCING then
    let d1 := (d.ringTo r RingState.HALTED).upRing r (fun R => { R with order := some 0 })
    (d.entriesOf r).foldl (fun d x => d.stopEntry x) d1
  else d

/-- Descriptor `x` meets a ring error with `status` (R301, R325): the ring halts, the descriptors behind it are stopped; RESULT holds what it had
done (R307). -/
def Dev.ringError (d : Dev) (x : Entry) (status : Nat) : Dev :=
  let d1 := d.finish x.id status ((d.entry? x.id).getD x).doneSoFar
  if (d.ring x.ring).state = RingState.HALTED then d1
  else
    let d2 := ((d1.raise 0x142 x.ring).ringTo x.ring RingState.HALTED).upRing x.ring (fun R => { R with order := some x.id, lastErr := status })
    (d.entriesOf x.ring).foldl (fun d y => if x.id < y.id then d.stopEntry y else d) d2

/-! ## Dispatch (R298 to R302, R315) -/

/-- The number of TARGET values that opcode `op` takes, 0 for a reserved opcode (R302); `space` is SPACE of a COPY_IN. -/
def targets (op space : Nat) : Nat :=
  match op with
  | 0x00 => 1 | 0x01 => 1 | 0x02 => 4096 | 0x03 => 4096 | 0x08 => 1 | 0x09 => 1 | 0x11 => 1 | 0x12 => 1 | 0x21 => 64 | 0x22 => 64 | 0x23 => 64
  | 0x24 => 256 | 0x28 => 16 | 0x30 => 256 | 0x38 => 8 | 0x39 => 8 | 0x3A => 8 | 0x40 => 64 | 0x41 => 64 | 0x48 => 1 | 0x49 => 1 | 0x50 => 1
  | 0x58 => 1 | 0x60 => 1
  | 0x10 => if space = 0 then 1 else 256
  | _ => 0

/-- A descriptor with a reserved OP or a TARGET out of range (R301). -/
def badDesc (desc : Nat) : Bool := decide (targets (descOp desc) (descField desc 28 0 2) ≤ descTarget desc)

/-- The descriptors that touch pins (R302). -/
def touchesPins (op : Nat) : Bool := op == 0x21 || op == 0x22 || op == 0x23 || op == 0x28 || op == 0x38 || op == 0x39 || op == 0x48

/-- The handling of a mirrored descriptor on the standby (R398): executed in full. -/
def standbyRuns (op : Nat) : Bool := !(touchesPins op || op == 0x30 || op == 0x3A || op == 0x40 || op == 0x41)

/-- The notice that entry `x` has on a standby. -/
def Dev.noteOf (d : Dev) (x : Entry) : Option Nat := (d.tw.notes.find? (fun y => y.1 == x.ring && y.2.1 == x.idx)).map (·.2.2)

/-- The standby has its own completion and the primary's notice of an entry: the statuses are compared where it was executed in full,
and the entry is free (R398, R399). -/
def Dev.standbyFree (d : Dev) (e : Nat) : Dev :=
  match d.entry? e with
  | none => d
  | some x =>
    match d.noteOf x with
    | none => d
    | some w =>
      if !x.reported then d
      else
        let d1 : Dev := { d with tracker := d.tracker.filter (fun y => y.id != e), tw := { d.tw with notes := d.tw.notes.filter (fun y => !(y.1 == x.ring && y.2.1 == x.idx)) } }
        if standbyRuns (descOp x.desc) && !x.gap && x.status != w % 256 then
          ((d1.set1 .TW_STATUS_DIVERGED 0).count .TW_STATUS_DIVERGE 0 1).raise 0x342 0
        else d1

/-- The entries a ring may hold (RG_CTX_CTRL.WINDOW). -/
def Ring.limit (R : Ring) : Nat := if R.window = 0 then 1 else min R.window 40960

/-- The ring may hold one more entry, and the tracker too (R298, R299). -/
def Dev.room (d : Dev) (r : Nat) : Bool :=
  let R := d.ring r
  let n := (d.tracker.filter (fun x => (d.ring x.ring).cls != 0)).length
  decide ((d.entriesOf r).length < R.limit) && decide (d.tracker.length < 40960) && (R.cls == 0 || decide (n < 39936))

/-- The descriptor at the head of ring `r` may go: an ORDERED one from the engine cycle after the last earlier record on (R315), a mirrored one
while the mirror queue has room (R396). -/
def Dev.headFree (d : Dev) (r : Nat) (x : Option Nat) : Bool :=
  let desc := x.getD 0
  (!descFlag desc 0 || ((d.entriesOf r).isEmpty && decide ((d.ring r).recAt ≤ d.cycle))) &&
    (d.role != 3 || descFlag desc 3 || decide ((d.tw.queue.filter (fun q => q.kind == 4)).length < 256))

/-- The descriptor at the head of ring `r` is a TOKEN_WAIT that holds the ring (R311). -/
def isWait (x : Option Nat) : Bool := match x with | some desc => descOp desc == 3 && !badDesc desc | none => false

/-- Ring `r` is ready (R298). -/
def Dev.ready (d : Dev) (r : Nat) : Bool :=
  let R := d.ring r
  R.state == RingState.ACTIVE && d.room r && !d.waiting (fun w => w == .ctx r) &&
    (match R.descs with | (_, x) :: _ => d.headFree r x && !isWait x | [] => false)

/-- The ring of class `c` whose turn it is among the ready ones `l` (in rising order): the present one while its turn lasts, else
the next after it (R298). -/
def Dev.turnOf (d : Dev) (c : Nat) (l : List Nat) : Option Nat :=
  let t := tget (fun _ => (65536, 0)) d.ringEng.turn c
  if l.contains t.1 ∧ t.2 < max 1 (d.ring t.1).weight then some t.1
  else match l.find? (fun r => decide (t.1 < r)) with
    | some r => some r
    | none => l.head?

/-- The class that is served (R298). -/
def Dev.classServed (d : Dev) (l : List Nat) : Nat :=
  let has := fun c => l.any (fun r => (d.ring r).cls == c)
  if has 0 then 0 else if has 1 then 1
  else if has 2 && has 3 then (if 15 ≤ d.ringEng.bulk then 3 else 2)
  else if has 2 then 2 else 3

/-- The dispatch of a ring of class `c` is counted for the turns. -/
def Dev.countTurn (d : Dev) (c r : Nat) (both : Bool) : Dev :=
  let t := tget (fun _ => (65536, 0)) d.ringEng.turn c
  { d with ringEng := { d.ringEng with turn := tset (fun _ => (65536, 0)) d.ringEng.turn c (r, if t.1 = r ∧ t.2 < max 1 (d.ring r).weight then t.2 + 1 else 1)
                                       bulk := if c = 3 then 0 else if c = 2 ∧ both then d.ringEng.bulk + 1 else d.ringEng.bulk
                                       freeAt := d.now + ns 4 } }

/-- A descriptor takes a tracker entry: the entry, the block. -/
def Dev.enter (d : Dev) (r idx desc : Nat) : Entry × Dev :=
  let x : Entry := { id := d.nextId, ring := r, idx := idx, desc := desc, born := d.bed, sig0 := d.sigNo, mirrored := d.role == 3 && !descFlag desc 3 }
  (x, { d with tracker := d.tracker ++ [x], nextId := d.nextId + 1 })

/-- The head of ring `r` leaves its descriptors. -/
def Dev.popDesc (d : Dev) (r idx : Nat) : Dev :=
  d.upRing r (fun R => { R with descs := R.descs.drop 1, fetch := (idx + 1) % 2 ^ R.sqLog, waitAt := none })

/-- The descriptor at the head of ring `r` is checked, takes an entry and goes to its block. -/
def Dev.dispatchRing (d : Dev) (r : Nat) : Dev :=
  match (d.ring r).descs with
  | [] => d
  | (idx, none) :: _ =>
    if d.follows then
      let a := (d.popDesc r idx).enter r idx 0
      ((a.2.finish a.1.id Status.TAKEOVER 0).report a.1.id).upEntry a.1.id (fun y => { y with gap := true }) |>.standbyFree a.1.id
    else
      let a := (d.popDesc r idx).enter r idx (d.openVal 32 * 2 ^ 32)
      (a.2.took).ringError a.1 Status.HOST_ERR
  | (idx, some desc) :: _ =>
    let a := (d.popDesc r idx).enter r idx desc
    let d1 := if a.1.mirrored then { (a.2.mirror 4 r idx desc) with tw := { (a.2.mirror 4 r idx desc).tw with since := d.tw.since + 1 } } else a.2
    if badDesc desc then d1.ringError a.1 Status.BAD_DESC
    else if d.follows && !standbyRuns (descOp desc) then d1.finish a.1.id Status.TAKEOVER 0
    else if (d.role == 1 || d.role == 6) && touchesPins (descOp desc) then d1.finish a.1.id Status.UNIT_DOWN 0
    else d1

/-- The TOKEN_WAIT that holds ring `r`: index, descriptor, since when. -/
def Dev.heldWait (d : Dev) (r : Nat) : Option (Nat × Nat × Nat) :=
  match (d.ring r).descs, (d.ring r).waitAt with
  | (idx, some desc) :: _, some t => if (d.ring r).state = RingState.ACTIVE then some (idx, desc, t) else none
  | _, _ => none

/-- The token satisfies the TOKEN_WAIT `desc` (R311). -/
def Dev.satisfied (d : Dev) (desc : Nat) : Bool :=
  decide ((d.tokenSeen (descTarget desc) + 2 ^ 32 - descField desc 8 0 32) % 2 ^ 32 < 2 ^ 31)

/-- TMO_MS of the TOKEN_WAIT `desc`, which holds its ring since `t`, has passed. -/
def Dev.waitedOut (d : Dev) (desc t : Nat) : Bool := descField desc 12 0 32 != 0 && decide (t + ms (descField desc 12 0 32) ≤ d.now)

/-- The TOKEN_WAIT at the head of ring `r` takes its entry (R311). -/
def Dev.endWait (d : Dev) (r idx desc : Nat) : Entry × Dev :=
  let a := (d.popDesc r idx).enter r idx desc
  (a.1, if a.1.mirrored then { (a.2.mirror 4 r idx desc) with tw := { (a.2.mirror 4 r idx desc).tw with since := d.tw.since + 1 } } else a.2)

/-- The TOKEN_WAIT that holds ring `r` may be dispatched: it is released, or has timed out. -/
def Dev.waitOver (d : Dev) (r : Nat) : Bool :=
  match d.heldWait r with
  | some (_, desc, t) => d.room r && !d.waiting (fun w => w == .ctx r) && (d.satisfied desc || d.waitedOut desc t)
  | none => false

/-- The TOKEN_WAIT that holds ring `r` is dispatched and completes (R307, R311). -/
def Dev.waitDone (d : Dev) (r : Nat) : Dev :=
  match d.heldWait r with
  | none => d
  | some (idx, desc, t) =>
    let a := d.endWait r idx desc
    if d.satisfied desc then
      (a.2.start a.1.id).finish a.1.id Status.OK (d.tokenSeen (descTarget desc) * 2 ^ 96 + resAt ((d.now - t) / us 1) 64 32)
    else a.2.ringError a.1 Status.TOKEN_TMO

/-- The class and the ring that dispatch serves next, and whether BULK and BACKGROUND rings are both ready; none within 4 ns of the last (R298). -/
def Dev.nextTurn (d : Dev) : Option (Nat × Nat × Bool) :=
  let l := (d.rings.map (·.1)).filter (fun r => d.ready r || d.waitOver r)
  if d.now < d.ringEng.freeAt then none
  else
    let c := d.classServed l
    let both := l.any (fun r => (d.ring r).cls == 2) && l.any (fun r => (d.ring r).cls == 3)
    (d.turnOf c (l.filter (fun r => (d.ring r).cls == c))).map (fun r => (c, r, both))

/-- One dispatch from ring `r` of class `c`, counted for the turns: a TOKEN_WAIT that held the ring, or its next descriptor. -/
def Dev.serveRing (d : Dev) (c r : Nat) (both : Bool) : Dev :=
  let d1 := (d.countTurn c r both).touchCtx r
  (if d.waitOver r then d1.waitDone r else d1.dispatchRing r).tally 2 r 1

/-- A failed descriptor read at the head of ring `r` is met as soon as nothing is left to dispatch before it (R325; log entry 91). -/
def Dev.meetFailed (d : Dev) (r : Nat) : Dev :=
  match (d.ring r).descs with
  | (_, none) :: _ => if d.room r ∧ (d.ring r).state = RingState.ACTIVE then (d.dispatchRing r).tally 2 r 1 else d
  | _ => d

/-- DISPATCH. -/
def Dev.dispatch (d : Dev) : Dev :=
  match d.nextTurn with
  | none => d
  | some (c, r, both) => (d.serveRing c r both).meetFailed r
/-- DISPATCH. -/
def execDispatch (s : State) : Host.Outcome State Fault Refusal :=
  guardUnit true (s.onDev (Dev.core (fun d => d.dispatch)))

/-- HOST_READ_ERROR (R301): a read for the data of entry `e`, or, with `fetch`, the read of ring `e`'s next descriptor. -/
def Dev.hostReadError (d : Dev) (e : Nat) (fetch : Bool) : Dev :=
  if fetch then
    (if d.mayRead e ∧ (d.ring e).unfetched ≠ 0 then (((d.ask ((d.ring e).descAt (d.ring e).readIdx) 64).raise 0x143 e).readDesc e none).meetFailed e else d)
  else match d.entry? e with
    | some x => if x.done then d else (d.raise 0x143 x.ring).ringError x Status.HOST_ERR
    | none => d
/-- HOST_READ_ERROR. -/
def execHostReadError (e : Nat) (fetch : Bool) (s : State) : Host.Outcome State Fault Refusal :=
  guardUnit true (s.onDev (Dev.core (fun d => d.hostReadError e fetch)))

/-! ## NOP, FENCE, TOKEN_SET, TOKEN_WAIT (R310, R311, R316) -/

/-- NOP. -/
def execNop (e : Nat) (s : State) : Host.Outcome State Fault Refusal :=
  guardUnit true (s.onDev (fun d => match d.open? e 0x00 with | some _ => d.finish e Status.OK 0 | none => d))

/-- Every earlier descriptor of `x`'s ring has completed. -/
def Dev.aloneBefore (d : Dev) (x : Entry) : Bool := (d.entriesOf x.ring).all (fun y => decide (x.id ≤ y.id))

/-- FENCE. -/
def Dev.fence (d : Dev) (e : Nat) : Dev :=
  match d.open? e 0x01 with
  | some x => if d.aloneBefore x then d.finish e Status.OK 0 else d
  | none => d
/-- FENCE. -/
def execFence (e : Nat) (s : State) : Host.Outcome State Fault Refusal :=
  guardUnit true (s.onDev (fun d => d.fence e))

/-- TOKEN_SET. -/
def Dev.tokenSet (d : Dev) (e : Nat) : Dev :=
  match d.open? e 0x02 with
  | some x =>
    let t := descTarget x.desc
    let v := descField x.desc 8 0 32
    if d.aloneBefore x then
      let d1 := (d.start e).setToken t v (descField x.desc 12 0 1 == 1)
      d1.finish e Status.OK ({ d1.tokenCyc t with notes := 0 }.value * 2 ^ 96)
    else d
  | none => d
/-- TOKEN_SET. -/
def execTokenSet (e : Nat) (s : State) : Host.Outcome State Fault Refusal :=
  guardUnit true (s.onDev (fun d => d.tokenSet e))

/-- TOKEN_WAIT: the descriptor at the head of ring `r` stops dispatch on the ring at itself. -/
def Dev.tokenWait (d : Dev) (r : Nat) : Dev :=
  match (d.ring r).descs with
  | (_, x) :: _ =>
    if (d.ring r).state = RingState.ACTIVE ∧ isWait x ∧ d.headFree r x ∧ (d.ring r).waitAt.isNone then
      d.upRing r (fun R => { R with waitAt := some d.now })
    else d
  | [] => d
/-- TOKEN_WAIT. -/
def execTokenWait (r : Nat) (s : State) : Host.Outcome State Fault Refusal :=
  guardUnit (decide (r < 65536)) (s.onDev (Dev.core (fun d => d.tokenWait r)))

/-- The TOKEN_WAIT that holds ring `r` is dispatched if `p` holds of its descriptor and the time it holds since, and dispatch serves its ring. -/
def Dev.waitTurn (d : Dev) (r : Nat) (p : Nat → Nat → Bool) : Dev :=
  match d.heldWait r, d.nextTurn with
  | some (_, desc, t), some (c, k, both) => if p desc t ∧ k = r ∧ d.waitOver r then (d.serveRing c r both).meetFailed r else d
  | _, _ => d

/-- TOKEN_WAIT_RELEASE. -/
def Dev.tokenRelease (d : Dev) (r : Nat) : Dev := d.waitTurn r (fun desc _ => d.satisfied desc)
/-- TOKEN_WAIT_RELEASE. -/
def execTokenWaitRelease (r : Nat) (s : State) : Host.Outcome State Fault Refusal :=
  guardUnit (decide (r < 65536)) (s.onDev (Dev.core (fun d => d.tokenRelease r)))

/-- TOKEN_WAIT_TIMEOUT. -/
def Dev.tokenTimeout (d : Dev) (r : Nat) : Dev := d.waitTurn r (fun desc t => !d.satisfied desc && d.waitedOut desc t)
/-- TOKEN_WAIT_TIMEOUT. -/
def execTokenWaitTimeout (r : Nat) (s : State) : Host.Outcome State Fault Refusal :=
  guardUnit (decide (r < 65536)) (s.onDev (Dev.core (fun d => d.tokenTimeout r)))

/-! ## MSI-X (R309) -/

/-- A message of vector `v` is sent. -/
def Dev.message (d : Dev) (v : Nat) : List Put × Dev :=
  ([.host (d.rd .RG_MSIX_ADDR_ADDR v) (bytesOf 4 (d.rd .RG_MSIX_DATA_DATA v)) false], d.upVec v (fun _ => { sent := some d.now }))

/-- Vector `v` is masked, by its own mask bit or the function's. -/
def Dev.masked (d : Dev) (v : Nat) : Bool := d.on .RG_MSIX_CTRL_MASK v || d.pci.msixMask

/-- Vector `v` is requested by a ring with a holdoff of `h` µs, 0 for a request that is not a ring's; requests of rings with different holdoffs
go with the one that ends first (log entry 92). -/
def Dev.request (d : Dev) (v h : Nat) : List Put × Dev :=
  let V := d.vec v
  let t := (V.sent.getD 0) + us h
  if d.masked v then ([], d.upVec v (fun V => { V with pba := true }))
  else if V.sent.isSome ∧ d.now < t then ([], d.upVec v (fun V => { V with req := true, hold := if V.req then min V.hold t else t }))
  else d.message v

/-- MSIX_HOLDOFF_END. -/
def Dev.holdoffEnd (d : Dev) (v : Nat) : List Put × Dev :=
  let V := d.vec v
  if V.req ∧ V.hold ≤ d.now then
    (if d.masked v then ([], d.upVec v (fun V => { V with req := false, pba := true })) else d.message v)
  else ([], d)
/-- MSIX_HOLDOFF_END. -/
def execMsixHoldoffEnd (vec : Nat) (s : State) : Host.Outcome State Fault Refusal :=
  guardUnit (decide (vec < 2048)) (s.onMem (fun _ => Dev.coreM (fun d => d.holdoffEnd vec)))

/-- The mask bit of vector `v` has been written: a pending vector no longer masked is sent. -/
def Dev.unmask (d : Dev) (v : Nat) : List Put × Dev :=
  if (d.vec v).pba ∧ !d.masked v then d.message v else ([], d)

/-! ## Completion (R296, R297, R305, R325, R399) -/

/-- The requests to the memory that entry `e` waits for before its data is visible (R32, R313, R338). -/
def Requester.ofEntry (e : Nat) : Requester → Bool
  | .copyIn x | .fill x | .result x => x == e
  | .copyOut x _ | .failFetch x _ | .capFetch x _ => x == e
  | _ => false

/-- The record of entry `x` may be written now as far as order goes: in a recovery the erroring descriptor's and those behind it in ring
order, after all earlier ones (R325); a STOP's after the RUN it stopped (R304). With `noticed`, an earlier one whose slot is given counts as written. -/
def Dev.inOrder (d : Dev) (x : Entry) (noticed : Bool) : Bool :=
  let before := fun (y : Entry) => !(noticed && y.slot.isSome)
  x.reported &&
    (match (d.ring x.ring).order with
     | some o => decide (x.id < o) || (match (d.ring x.ring).orderTo with | some o1 => decide (o1 ≤ x.id) | none => false) || (d.entriesOf x.ring).all (fun y => decide (x.id ≤ y.id) || !before y)
     | none => true) &&
    (match x.after with | some a => (match d.entry? a with | some y => !before y | none => true) | none => true)

/-- The completion record of `x` (R305) with phase `ph`. -/
def Entry.record (x : Entry) (ph : Bool) : Nat :=
  x.result % 2 ^ 128 * 2 ^ 128 + x.time % 2 ^ 64 / 8192 * 2 ^ 77 + descTag x.desc * 2 ^ 45 + x.ring * 2 ^ 29 + x.idx * 2 ^ 9 + b2n ph * 2 ^ 8 + x.status

/-- The completion slot `k` places from the tail, with its phase (R296). -/
def Ring.slotAt (C : Ring) (k : Nat) : Nat × Bool :=
  let n := C.cqTail + k
  (n % 2 ^ C.cqLog, if n < 2 ^ C.cqLog then C.phase else !C.phase)

/-- The free slots of a completion ring: those freed in this engine cycle do not count yet (R297). -/
def Dev.freeSlots (d : Dev) (c : Nat) : Nat :=
  let C := d.ring c
  2 ^ C.cqLog - C.unread - (if C.freedAt = d.cycle then C.freed else 0)

/-- The primary gives entry `x` its slot and sends the notice (R399). -/
def Dev.sendNotice (d : Dev) (x : Entry) : Dev :=
  let c := (d.ring x.ring).cq
  let sl := (d.ring c).slotAt (d.ring c).owed
  ((d.upRing c (fun C => { C with owed := C.owed + 1 })).upEntry x.id (fun y => { y with noticed := true, slot := some sl })).twinSend
    ⟨6, x.ring, x.idx * 2 ^ 32 + sl.1, x.record sl.2⟩

/-- The notices that can go are sent (R399): at most one for each entry. -/
def Dev.sendNotices : Nat → Dev → Dev
  | 0, d => d
  | f + 1, d =>
    match d.tracker.find? (fun x => !x.noticed && d.inOrder x true) with
    | some x => if d.role = 3 then Dev.sendNotices f (d.sendNotice x) else d
    | none => d

/-- COMPLETION_REPORT. -/
def Dev.completionReport (d : Dev) (e : Nat) : Dev :=
  if d.unseen (Requester.ofEntry e) then d
  else
    let d1 := d.report e
    (Dev.sendNotices d1.tracker.length d1).standbyFree e
/-- The entry of ring `r` whose record is written next: one with a slot only when that slot is the tail and its notice acknowledged; else the
one reported first. -/
def Dev.nextRecord (d : Dev) (r : Nat) : Option Entry :=
  let C := d.ring (d.ring r).cq
  let l := (d.entriesOf r).filter (fun x => match x.slot with
    | some sl => x.acked && sl.1 == C.cqTail && sl.2 == C.phase
    | none => d.role != 3 && C.owed == 0 && d.inOrder x false)
  l.foldl (fun b x => match b with | none => some x | some y => if x.time < y.time then some x else some y) none

/-- The tracker entry is free; its ring, used while it was in flight, is the one used last (R290); a QUIESCING ring's last one disables it (R291). -/
def Dev.release (d : Dev) (x : Entry) : Dev :=
  let d0 : Dev := { d with tracker := d.tracker.filter (fun y => y.id != x.id) }
  let d1 : Dev := if d0.entriesOf x.ring = [] ∧ d.ringEng.cache.contains x.ring
    then { d0 with ringEng := { d0.ringEng with cache := x.ring :: d0.ringEng.cache.erase x.ring } } else d0
  if (d1.ring x.ring).state = RingState.QUIESCING ∧ d1.entriesOf x.ring = [] then d1.ringTo x.ring RingState.DISABLED else d1

/-- The record of `x` is written at the completion tail. -/
def Dev.writeRecord (d : Dev) (x : Entry) : List Put × Dev :=
  let c := (d.ring x.ring).cq
  let C := d.ring c
  let sl := C.slotAt 0
  let nx := C.slotAt 1
  let rec_ : Put := .host (C.cqBase * 4096 + 32 * sl.1) (bytesOf 32 (x.record sl.2)) false
  let d1 := d.upRing c (fun C => { C with cqTail := nx.1, phase := nx.2, unread := C.unread + 1, owed := C.owed - b2n x.slot.isSome })
  let d2 := if descFlag x.desc 2 then d1.notifyToken (descNtoken x.desc) else d1
  let d3 := (((d2.upRing x.ring (fun R => { R with recAt := d.cycle + 1 })).release x).mirror 8 c sl.1 0).tally 3 x.ring 1
  let d4 := Dev.sendNotices d3.tracker.length d3
  let q := if descFlag x.desc 1 then d4.request C.vector C.holdoff else ([], d4)
  (rec_ :: q.1, q.2)

/-- COMPLETION_RECORD_WRITE. -/
def Dev.recordWrite (d : Dev) (r : Nat) : List Put × Dev :=
  let d0 := Dev.sendNotices d.tracker.length d
  if d0.follows ∨ d0.freeSlots (d0.ring r).cq = 0 then ([], d0)
  else match d0.nextRecord r with
    | some x => d0.writeRecord x
    | none => ([], d0)
/-- COMPLETION_RECORD_WRITE. -/
def execCompletionRecordWrite (r : Nat) (s : State) : Host.Outcome State Fault Refusal :=
  guardUnit (decide (r < 65536)) (s.onMem (fun _ => Dev.coreM (fun d => d.recordWrite r)))

end Sys2Proof.Machine
end

