-- ==== Sys2Proof/Machine/Copies.lean ====
section
/-!
DEFINITION. Descriptors that move bytes (R162, R220, R227, R228, R303, R307, R323): COPY_IN, COPY_OUT, FILL, FAIL_FETCH, CAPTURE_FETCH. A
command moves the next burst of 64 bytes, record or block; RESULT grows with it.
-/
namespace Sys2Proof.Machine

/-- Entry `e` has done more: its progress and its RESULT so far. -/
def Dev.moved (d : Dev) (e progress result : Nat) : Dev :=
  d.upEntry e (fun x => if x.done then x else { x with begun := true, started := true, progress := progress, result := result })

/-- LEN, in SRC and DST terms a byte count of the copy in `x`. -/
def copyLen (x : Entry) : Nat := descField x.desc (if descOp x.desc = 0x12 then 16 else 24) 0 32

/-- The address checks of COPY_IN, COPY_OUT and FILL (R41, R162, R290, R303): the STATUS with which it ends at once. -/
def Dev.copyRefused (d : Dev) (x : Entry) : Option Nat :=
  let op := descOp x.desc
  let len := copyLen x
  let al := if op = 0x12 then 8 else 4
  let a := descField x.desc 8 0 64
  let b := if op = 0x12 then 0 else descField x.desc 16 0 64
  let space := if op = 0x10 then descField x.desc 28 0 2 else 0
  let inMem := if op = 0x10 then b else a
  if len = 0 ∨ a % al ≠ 0 ∨ b % al ≠ 0 ∨ len % al ≠ 0 ∨ space = 3 then some Status.INVALID
  else if space = 0 then
    if d.localMode then some Status.UNIT_DOWN else if d.hbmOk inMem len then none else some Status.INVALID
  else if !d.localMode ∨ (if space = 1 then 131072 else 2048) < inMem + len then some Status.INVALID
  else if x.progress = 0 ∧ d.pinRunning (descTarget x.desc) then some Status.BUSY
  else none

/-- The last byte has moved, or not yet. -/
def Dev.copied (d : Dev) (x : Entry) (n : Nat) : Dev :=
  let p := x.progress + n
  let d1 := d.moved x.id p (p * 2 ^ 96)
  if p = copyLen x then d1.finish x.id x.status (p * 2 ^ 96) else d1

/-- COPY_IN: the next burst, of which the host has answered `data`; it waits while the write queue is full (R338). -/
def Dev.copyIn (d : Dev) (e : Nat) (data : List Byte) : List Put × Dev :=
  match d.open? e 0x10 with
  | none => ([], d)
  | some x =>
    match d.copyRefused x with
    | some st => ([], d.finish e st 0)
    | none =>
      let bs := data.take (copyLen x - x.progress)
      let a := descField x.desc 16 0 64 + x.progress
      let d := d.ask (descField x.desc 8 0 64 + x.progress) bs.length
      if bs.isEmpty then ([], d)
      else match descField x.desc 28 0 2 with
        | 0 => if d.writeFull a then ([], d) else ([.hbm a bs], (d.hbm true (.copyIn e) a bs.length).copied x bs.length)
        | 1 => ([.vlb (descTarget x.desc * 131072 + a) bs], d.copied x bs.length)
        | _ => ([.ents (descTarget x.desc * 2048 + a) bs], d.copied x bs.length)
/-- COPY_IN. -/
def execCopyIn (e : Nat) (data : List Byte) (s : State) : Host.Outcome State Fault Refusal :=
  guardUnit true (s.onMem (fun _ d => d.copyIn e data))

/-- A data write to host memory, with the Relaxed Ordering attribute while the host enables it (R321); a standby writes none (R398). -/
def Dev.toHost (d : Dev) (a : Nat) (bs : List Byte) : List Put := if d.follows then [] else [.host a bs d.ringEng.relaxed]

/-- COPY_OUT: the next burst. -/
def Dev.copyOut (m : Mems) (d : Dev) (e : Nat) : List Put × Dev :=
  match d.open? e 0x11 with
  | none => ([], d)
  | some x =>
    match d.copyRefused x with
    | some st => ([], d.finish e st 0)
    | none =>
      let n := min 64 (copyLen x - x.progress)
      let a := descField x.desc 8 0 64 + x.progress
      let dst := descField x.desc 16 0 64 + x.progress
      (d.toHost dst (readMem byte0 m.hbm a n), (d.hbm false (.copyOut e dst) a n).copied x n)
/-- COPY_OUT. -/
def execCopyOut (e : Nat) (s : State) : Host.Outcome State Fault Refusal :=
  guardUnit true (s.onMem (fun m d => Dev.copyOut m d e))

/-- FILL: the next burst; it waits while the write queue is full (R338). -/
def Dev.fill (d : Dev) (e : Nat) : List Put × Dev :=
  match d.open? e 0x12 with
  | none => ([], d)
  | some x =>
    match d.copyRefused x with
    | some st => ([], d.finish e st 0)
    | none =>
      let n := min 64 (copyLen x - x.progress)
      let a := descField x.desc 8 0 64 + x.progress
      let pat := bytesOf 8 (descField x.desc 24 0 64)
      if d.writeFull a then ([], d) else ([.hbm a ((List.range (n / 8)).flatMap (fun _ => pat))], (d.hbm true (.fill e) a n).copied x n)
/-- FILL. -/
def execFill (e : Nat) (s : State) : Host.Outcome State Fault Refusal :=
  guardUnit true (s.onMem (fun _ d => d.fill e))

/-! ## Fetches -/

/-- A fetch may read now: it has acted, or its turn for the site has come (R227, R228, R317, R318). -/
def Dev.fetchGo (d : Dev) (x : Entry) : Bool :=
  let n := descTarget x.desc
  x.started || (!d.siteRunning n && ((d.begin_ x.id).nextRun n).map (·.id) == some x.id)

/-- The entry has copied `c` of its items, `k` of them DAMAGED, of `total` held; a stopped FAIL_FETCH ends with the current 64 bytes (R323). -/
def Dev.fetched (d : Dev) (x : Entry) (total c k : Nat) : Dev :=
  let r := resAt total 80 48 + resAt c 48 32 + resAt k 32 16
  let d1 := d.moved x.id c r
  if x.stopping ∧ 4 ∣ c then d1.finish x.id Status.WITHDRAWN r
  else if c = min (descField x.desc 16 0 32) (total - descField x.desc 8 0 64) then d1.finish x.id x.status r else d1

/-- A DAMAGED record of site `n`. -/
def damaged (n : Nat) : Nat := failBits 0 0 n 0 0 0 7 0

/-- FAIL_FETCH: the next record; `err` is what the store's code finds. -/
def Dev.failFetch (m : Mems) (d : Dev) (e err : Nat) : List Put × Dev :=
  match d.open? e 0x40 with
  | none => ([], d)
  | some x =>
    if !d.fetchGo x then ([], d.begin_ e)
    else
      let n := descTarget x.desc
      let F := d.failSite n
      let total := F.store.length + F.spilled
      let i := descField x.desc 8 0 64 + x.progress
      let dst := descField x.desc 24 0 64 + 16 * x.progress
      let k := bits x.result 32 16
      if total ≤ i ∨ descField x.desc 16 0 32 = 0 then ([], (d.start e).fetched x total 0 0)
      else match F.store[i]? with
        | some r =>
          let d1 := if err = 1 then (d.set1 .FR_STATUS_CE 0).raise 0x246 0 else if err = 2 then (d.set1 .FR_STATUS_UE 0).raise 0x247 0 else d
          (d.toHost dst (bytesOf 16 (if err = 2 then damaged n else r)), d1.fetched x total (x.progress + 1) (k + b2n (err == 2)))
        | none =>
          let a := d.rd .FR_SITE_SPILL_BASE_ADDR n * 16 + 16 * (i - F.store.length)
          (d.toHost dst (readMem byte0 m.hbm a 16), (d.hbm false (.failFetch e dst) a 16).fetched x total (x.progress + 1) k)
/-- FAIL_FETCH. -/
def execFailFetch (e err : Nat) (s : State) : Host.Outcome State Fault Refusal :=
  guardUnit true (s.onMem (fun m d => Dev.failFetch m d e err))

/-- CAPTURE_FETCH: the next block. -/
def Dev.captureFetch (m : Mems) (d : Dev) (e : Nat) : List Put × Dev :=
  match d.open? e 0x41 with
  | none => ([], d)
  | some x =>
    if d.localMode then ([], d.finish e Status.UNIT_DOWN 0)
    else if !d.fetchGo x then ([], d.begin_ e)
    else
      let n := descTarget x.desc
      let total := (d.failSite n).blocks
      let i := descField x.desc 8 0 64 + x.progress
      let dst := descField x.desc 24 0 64 + 64 * x.progress
      if total ≤ i ∨ descField x.desc 16 0 32 = 0 then ([], (d.start e).fetched x total 0 0)
      else
        let a := d.rd .FR_SITE_CAP_BASE_ADDR n * 64 + 64 * i
        (d.toHost dst (readMem byte0 m.hbm a 64), (d.hbm false (.capFetch e dst) a 64).fetched x total (x.progress + 1) 0)
/-- CAPTURE_FETCH. -/
def execCaptureFetch (e : Nat) (s : State) : Host.Outcome State Fault Refusal :=
  guardUnit true (s.onMem (fun m d => Dev.captureFetch m d e))

end Sys2Proof.Machine
end

