-- ==== Sys2Proof/Machine/MemCommands.lean ====
section
/-!
DEFINITION. The Memory Controller's commands (R337 to R352): serving a request, errors by requester, refresh, retraining, the operating
point, self-refresh and the patrol scrub.
-/
namespace Sys2Proof.Machine

/-! ## Errors (R350) -/

/-- The unit that a requester's fault names for the halt scope (R443): 1 + site, 100 + channel, 1000 + ring, 0 for none. -/
def Dev.unitOf (d : Dev) : Requester → Nat
  | .stream p | .entries p | .ppt p => match d.siteOf p with | some n => 1 + n | none => 0
  | .prog l => match d.laneSite l with | some n => 1 + n | none => 0
  | .spill n | .capture n => 1 + n
  | .wave w => 100 + w
  | .ctx r => 1000 + r
  | .copyIn e | .copyOut e _ | .fill e | .failFetch e _ | .capFetch e _ | .result e => match d.entry? e with | some x => 1000 + x.ring | none => 0
  | .window => 0

/-- MC_ERR.KIND of a read for a requester. -/
def Requester.kind : Requester → Nat
  | .stream _ | .entries _ | .prog _ | .ppt _ | .wave _ => 0
  | .ctx _ => 3
  | _ => 1

/-- An uncorrectable word at `a` is recorded. -/
def Dev.ueWord (d : Dev) (c kind a : Nat) : Dev :=
  let d1 := (d.set1 .MC_STATUS_UE 0).count .MC_PC_COUNT_UE c 1
  if d1.on .MC_ERR_VALID 0 then d1.set1 .MC_ERR_MORE 0
  else (((d1.set1 .MC_ERR_VALID 0).clr .MC_ERR_MORE 0).wr .MC_ERR_KIND 0 kind).wr .MC_ERR_ADDR 0 (a / 32)

/-- The words of 32 bytes from `a` to `a + len`. -/
def wordsOf (a len : Nat) : List Nat := (List.range ((a + len + 31) / 32 - a / 32)).map (· + a / 32)

/-- Word `w` holds an uncorrectable error from now on. -/
def Dev.spoil (d : Dev) (w : Nat) : Dev :=
  if d.mc.bad.contains w then d else { d with mc := { d.mc with bad := d.mc.bad ++ [w] } }

/-- STATUS of entry `e` becomes MEM_ERR, done or not. -/
def Dev.memErr (d : Dev) (e : Nat) : Dev := d.upEntry e (fun x => { x with status := Status.MEM_ERR })

/-- The part of word `w` that a request from `a` of `len` bytes covers: offset in the request, length. -/
def overlap (w a len : Nat) : Nat × Nat :=
  let lo := max (32 * w) a
  (lo - a, min (32 * w + 32) (a + len) - lo)

/-- What an uncorrectable word `w` of the read `r` does (R350). A program word that failed is not delivered: its DSQ never executes it. -/
def Dev.ueRead (d : Dev) (c : Nat) (r : Req) (w : Nat) : List Put × Dev :=
  let d1 := d.ueWord c r.who.kind (32 * w)
  let u := d.unitOf r.who
  let o := overlap w r.addr r.len
  match r.who with
  | .stream _ | .entries _ | .prog _ | .ppt _ => ([], d1.raiseK 0x181 c u)
  | .wave x => ([], (d1.raiseK 0x181 c u).wvStopFault x)
  | .copyOut e dst => (d.toHost (dst + o.1) (bytesOf o.2 0), (d1.raiseK 0x182 c u).memErr e)
  | .capFetch e dst => (d.toHost (dst + o.1) (bytesOf o.2 0), (d1.raiseK 0x182 c u).memErr e)
  | .failFetch e dst =>
    let n := match d.entry? e with | some x => descTarget x.desc | none => 0
    (d.toHost dst (bytesOf 16 (damaged n)), (d1.raiseK 0x182 c u).upEntry e (fun x =>
      if bits x.result 32 16 < 65535 then { x with result := x.result + 2 ^ 32 } else x))
  | .ctx x => ([], (d1.raiseK 0x182 c u).haltRing x)
  | .window => ([], { d1.raiseK 0x182 c u with poisoned := d1.poisoned || d1.mc.winNo == some r.no, pci := { d1.pci with aer := d1.pci.aer + 1 } })
  | _ => ([], d1.raiseK 0x182 c u)

/-- The words of a program that the read `r` brings reach the Word Buffer (R46, R103). -/
def Dev.served (m : Mems) (d : Dev) (r : Req) : Dev :=
  match r.who with
  | .prog l =>
    let ws := wordsOf r.addr r.len
    if ws.all (fun w => !d.mc.bad.contains w) then d.upLane l (fun L => L.deliver r.addr (readMem byte0 m.hbm r.addr r.len))
    else (ws.filter (fun w => !d.mc.bad.contains w)).foldl (fun d w =>
      let o := overlap w r.addr r.len
      d.upLane l (fun L => L.deliver (r.addr + o.1) (readMem byte0 m.hbm (r.addr + o.1) o.2))) d
  | _ => d

/-- A write that pseudo-channel `c` holds covers word `w` in full: a read returns the written data (R338). -/
def Dev.covered (d : Dev) (c w : Nat) : Bool := (d.pc c).writes.any (fun r => (wordsOf r.addr r.len).contains w && (overlap w r.addr r.len).2 == 32)

/-- A read is served: `err` 1 is corrected, `err` 2 spoils its first word; every spoilt word it covers acts. -/
def Dev.serveRead (m : Mems) (d : Dev) (c : Nat) (r : Req) (err : Nat) : List Put × Dev :=
  let d0 := if err = 1 then ((d.raiseK 0x180 c (d.unitOf r.who)).set1 .MC_STATUS_CE 0).count .MC_PC_COUNT_CE c 1
    else if err = 2 then d.spoil (r.addr / 32) else d
  ((wordsOf r.addr r.len).filter (fun w => d0.mc.bad.contains w && !d0.covered c w)).foldl (fun a w =>
    let q := a.2.ueRead c r w
    (a.1 ++ q.1, q.2)) ([], Dev.served m d0 r)

/-- A write is served: a word written in full ends its error; a partial write of a spoilt word is reported and leaves it spoilt. -/
def Dev.serveWrite (d : Dev) (c : Nat) (r : Req) (err : Nat) : Dev :=
  let full := fun w => (overlap w r.addr r.len).2 == 32
  let part := (wordsOf r.addr r.len).filter (fun w => !full w)
  let d0 := if err = 2 then (match part with | w :: _ => d.spoil w | [] => d)
    else if err = 1 ∧ part ≠ [] then ((d.raiseK 0x180 c (d.unitOf r.who)).set1 .MC_STATUS_CE 0).count .MC_PC_COUNT_CE c 1 else d
  let d1 := (part.filter (fun w => d0.mc.bad.contains w)).foldl (fun d w => (d.ueWord c 2 (32 * w)).raiseK 0x182 c (d.unitOf r.who)) d0
  { d1 with mc := { d1.mc with bad := d1.mc.bad.filter (fun w => !(wordsOf r.addr r.len).contains w || !full w) } }

/-! ## Service (R337, R342, R348) -/

/-- A step of a retrain holds pseudo-channel `c` (R347). -/
def Dev.stepHolds (d : Dev) (c : Nat) : Bool :=
  let P := d.pc c
  decide (d.now < P.trainEnd) && decide ((d.now - P.trainFrom) % ns 2500 < P.trainHold)

/-- Pseudo-channel `c` carries traffic: in service, out of self-refresh, no catch-up and no training step in hand, no switch pending. -/
def Dev.pcFree (d : Dev) (c : Nat) : Bool :=
  d.pcOk c && !d.inSR (c / 32) && decide ((d.pc c).catchEnd ≤ d.now) && !d.stepHolds c

/-- tREFI of pseudo-channel `c` in 1/64 ns. -/
def Dev.refi64 (d : Dev) (c : Nat) : Nat := 64 * trefi (d.rd .MC_PC_STATUS_RBAND c)

/-- Refresh goes ahead of all traffic: from 8 intervals of debt until it falls below 7 (R342). -/
def Dev.urgentNow (d : Dev) (c : Nat) : Bool :=
  decide (8 * d.refi64 c ≤ d.debt64 c) || ((d.pc c).urgent && decide (7 * d.refi64 c ≤ d.debt64 c))

/-- The request that pseudo-channel `c` serves next: is it a write, and which (R337, R342). -/
def Dev.pick (d : Dev) (c : Nat) (drain : Bool) : Option Req :=
  let P := d.pc c
  let rs := P.reads.take 64
  let stream := rs.find? (fun r => r.who.cls == 0)
  let busy : Bool := decide (6 * d.refi64 c ≤ d.debt64 c)
  if busy then stream
  else if drain then P.writes.head?
  else match stream with
    | some r => some r
    | none => match rs.head? with | some r => some r | none => P.writes.head?

/-- A watermark drain is in hand: from 48 waiting writes to 16, at most 32 requests, and behind it a waiting STREAM read goes before the next
(R337). -/
def Dev.drains (d : Dev) (c : Nat) : Bool :=
  let P := d.pc c
  let n := (P.writes.take 64).length
  if P.draining then decide (16 < n) && decide (P.moved < 32)
  else decide (48 ≤ n) && (decide (P.moved < 32) || (P.reads.take 64).all (fun r => r.who.cls != 0))

/-- HBM_REQUEST_SERVICE. -/
def Dev.serve (m : Mems) (d : Dev) (c err : Nat) : List Put × Dev :=
  if !d.pcFree c ∨ d.urgentNow c then ([], d)
  else
    let drain := d.drains c
    match d.pick c drain with
    | none => ([], d)
    | some r =>
      if d.bankHeld c (d.bankOf r.addr) then ([], d) else
      let d1 := d.upPc c (fun P => { P with draining := drain, moved := if !r.write then 0 else if drain then (if P.draining then P.moved else 0) + 1 else P.moved
                                            reads := if r.write then P.reads else P.reads.erase r
                                            writes := if r.write then P.writes.erase r else P.writes })
      let d2 := (d1.access r.addr r.who.hint).tally (if r.write then 0x21 else 0x20) c (wordsOf r.addr r.len).length
      if r.write then ([], d2.serveWrite c r err) else Dev.serveRead m d2 c r err
/-- HBM_REQUEST_SERVICE. -/
def execHbmRequestService (pc err : Nat) (s : State) : Host.Outcome State Fault Refusal :=
  guardUnit (decide (pc < 64)) (s.onMem (fun m d => Dev.serve m d pc err))

/-! ## Refresh (R339, R341, R342, R345) -/

/-- REFpb to the next bank: the debt falls by tREFI / 64; the bank's held row closes; a bank visited in each of its 18,432 rows starts a
new window. -/
def Dev.refpb (d : Dev) (c : Nat) : Dev :=
  let b := d.rd .MC_PC_STATUS_NEXT_BANK c
  let v := tget (fun _ => 0) (d.pc c).visits b + 1
  let d1 := (d.setDebt c (d.debt64 c - trefi (d.rd .MC_PC_STATUS_RBAND c))).wr .MC_PC_STATUS_NEXT_BANK c ((b + 1) % 64)
  let d2 := d1.upPc c (fun P =>
    { P with rows := tset (fun _ => none) P.rows b none, visits := tset (fun _ => 0) P.visits b (if v = 18432 then 0 else v)
             acts := if v = 18432 then tset (fun _ => []) P.acts b [] else P.acts })
  d2.upPc c (fun P => { P with urgent := d2.urgentNow c })

/-- Whether the debt asks pseudo-channel `c` for a REFpb now (R342). -/
def Dev.refreshDue (d : Dev) (c : Nat) : Bool :=
  let P := d.pc c
  let D := d.debt64 c
  let t := d.refi64 c
  if d.urgentNow c then true
  else if 6 * t ≤ D then (P.reads.take 64).all (fun r => r.who.cls != 0)
  else decide (t ≤ D) && P.reads.isEmpty && P.writes.isEmpty

/-- REFRESH_ISSUE: a REFpb, which holds its bank for at most 200 ns (R341). -/
def Dev.refreshIssue (d : Dev) (c : Nat) : Dev :=
  let b := d.rd .MC_PC_STATUS_NEXT_BANK c
  if d.pcFree c ∧ d.refreshDue c ∧ !d.bankHeld c b then
    (((d.upPc c (fun P => { P with urgent := d.urgentNow c })).refpb c).holdBank c b).tally 0x22 c (d.openVal 8 % 201)
  else d
/-- REFRESH_ISSUE. -/
def execRefreshIssue (pc : Nat) (s : State) : Host.Outcome State Fault Refusal :=
  guardUnit (decide (pc < 64)) (s.onDev (fun d => d.refreshIssue pc))

/-- KEEP_OPEN_ROW_CLOSE (R339): 200 ns without an access, or 1 µs after it was opened. -/
def Dev.rowClose (d : Dev) (c b : Nat) : Dev :=
  match tget (fun _ => none) (d.pc c).rows b with
  | some r => if r.lastAt + ns 200 ≤ d.now ∨ r.openedAt + us 1 ≤ d.now then
      d.upPc c (fun P => { P with rows := tset (fun _ => none) P.rows b none }) else d
  | none => d
/-- KEEP_OPEN_ROW_CLOSE. -/
def execKeepOpenRowClose (pc bank : Nat) (s : State) : Host.Outcome State Fault Refusal :=
  guardUnit (decide (pc < 64) && decide (bank < 64)) (s.onDev (Dev.core (fun d => d.rowClose pc bank)))

/-- STACK_TEMPERATURE_READ (R340): every 1 ms out of self-refresh. -/
def Dev.stackTemp (d : Dev) (s report : Nat) : Dev :=
  if d.stackOk s ∧ !d.inSR s ∧ tget (fun _ => 0) d.mc.repDue s ≤ d.now then
    (d.reported s report).judgeBand s
  else d
/-- STACK_TEMPERATURE_READ. -/
def execStackTemperatureRead (st report : Nat) (s : State) : Host.Outcome State Fault Refusal :=
  guardUnit (decide (st < 2)) (s.onDev (fun d => d.stackTemp st report))

/-! ## Retraining and the operating point (R347 to R349) -/

/-- A retrain of pseudo-channel `c` is due: the interval has passed, the temperature moved by 8 °C, or the last one failed. -/
def Dev.retrainDue (d : Dev) (c : Nat) : Bool :=
  let P := d.pc c
  let iv := d.rd .MC_RETRAIN_INTERVAL_MS 0
  let dt := d.refreshTemp (c / 32) - P.trainTemp
  (iv != 0 && decide (P.trainAt + ms iv ≤ d.now)) || decide (128 ≤ dt) || decide (dt ≤ -128) || P.trainFails != 0

/-- A pseudo-channel of stack `s` retrains. -/
def Dev.stackTraining (d : Dev) (s : Nat) : Bool := d.pcs.any (fun x => x.1 / 32 == s && decide (d.now < x.2.trainEnd))

/-- RETRAIN: `ok` tells whether the result lies within the stored margins; a stack lost by two failures in a row fails its training at the next
boot. -/
def Dev.retrain (d : Dev) (c : Nat) (ok : Bool) : Dev :=
  if d.pcFree c ∧ d.retrainDue c ∧ !d.stackTraining (c / 32) ∧ !d.on .MC_STATUS_OP_PENDING 0 then
    let d1 := d.beginTrain c
    if ok then d1.upPc c (fun P => { P with trainFails := 0 })
    else
      let k := (d.pc c).trainFails + 1
      let d2 := (d1.upPc c (fun P => { P with trainFails := k })).raise 0x186 c
      if 2 ≤ k then { d2.raise 0x187 c with mc := { d2.mc with lostStacks := setBit d2.mc.lostStacks (c / 32) true } } else d2
  else d
/-- RETRAIN. -/
def execRetrain (pc : Nat) (ok : Bool) (s : State) : Host.Outcome State Fault Refusal :=
  guardUnit (decide (pc < 64)) (s.onDev (fun d => d.retrain pc ok))

/-- SCRUB_H has changed: the pass in hand goes on from its place at the new rate (R351). -/
def Dev.scrubRate (d : Dev) : Dev :=
  { d with mc := { d.mc with scrubAt := d.now - d.mc.scrub * (d.rd .MC_CTRL_SCRUB_H 0 * secs 3600) / max 1 (d.memEnd / 32) } }

/-- A write of `v` to MC_CTRL (R20, R348). -/
def Dev.mcCtrl (d : Dev) (v : Nat) : Dev :=
  let d1 := d.writeReg (regAt .mc .MC_CTRL 0 0) .whole v (!d.mcIdle)
  let d2 := if d1.rd .MC_CTRL_SCRUB_H 0 = d.rd .MC_CTRL_SCRUB_H 0 then d1 else d1.scrubRate
  if d2.rd .MC_CTRL_OPPOINT 0 = d.rd .MC_CTRL_OPPOINT 0 then d2 else d2.opWritten

/-- When the last of the retrains in progress ends. -/
def Dev.trainsEnd (d : Dev) : Nat := (d.pcs.map (fun x => x.2.trainEnd)).foldl max 0

/-- The wait of a pending change for the retrains in progress, in ns (R348). -/
def Dev.opWait (d : Dev) : Nat := (max d.trainsEnd d.mc.opAt - d.mc.opAt) / cycleTicks

/-- OPPOINT_SWITCH: every retrain has ended; the stacks go through self-refresh to the new point, and each reports its temperature, an open value
(R340). -/
def Dev.opSwitch (d : Dev) : Dev :=
  if d.on .MC_STATUS_OP_PENDING 0 ∧ d.pcs.all (fun x => decide (x.2.trainEnd ≤ d.now)) then
    let d1 := ((d.wr .MC_STATUS_DEFER_NS 0 (min d.opWait (2 ^ 32 - 1))).clr .MC_STATUS_OP_PENDING 0).wr .MC_STATUS_OP_NOW 0 (d.rd .MC_CTRL_OPPOINT 0)
    (([0, 1].filter d.stackOk).foldl (fun d s => ((d.took.leaveSR s (d.openVal 12)).freshStack s).reported s (d.openVal 12)) (d1.stepOver 1 d.trainsEnd)).wakeNote
  else d
/-- OPPOINT_SWITCH. -/
def execOppointSwitch (s : State) : Host.Outcome State Fault Refusal :=
  guardUnit true (s.onDev (Dev.core (fun d => d.opSwitch)))

/-! ## Self-refresh (R330, R352) -/

/-- A descriptor in flight addresses pattern memory. -/
def Dev.memInFlight (d : Dev) : Bool :=
  d.tracker.any (fun x => !x.done && (let op := descOp x.desc
    (op == 0x10 && descField x.desc 28 0 2 == 0) || op == 0x11 || op == 0x12 || op == 0x21 || op == 0x40 || op == 0x41 ||
      (op == 0x30 && bitAt (descField x.desc 48 0 32) 14) || (op == 0x38 && descField x.desc 16 0 2 != 1) || (op == 0x3A && (acqSpec x).hbm)))

/-- The records still owed to a full completion ring when the stacks enter self-refresh in safe state are lost (R330). -/
def Dev.loseRecords (d : Dev) : Dev :=
  if d.mc.given then d else
  let gone := d.tracker.filter (fun x => x.done && (d.ring x.ring).state == RingState.HALTED && d.freeSlots (d.ring x.ring).cq == 0)
  { d with tracker := d.tracker.filter (fun x => !gone.contains x), mc := { d.mc with lost := d.mc.lost + gone.length, given := true } }

/-- The Ring Engine stores the contexts it holds on die, once in a safe state (R330). -/
def Dev.storeContexts (d : Dev) : Dev :=
  if d.mc.stored then d
  else { (d.ringEng.cache.foldl (fun (d : Dev) r => d.hbm true (.ctx r) (d.ctxBase + 128 * r) 128) d) with mc := { (d.ringEng.cache.foldl (fun (d : Dev) r => d.hbm true (.ctx r) (d.ctxBase + 128 * r) 128) d).mc with stored := true } }

/-- A context is still to be stored. -/
def Dev.ctxWaits (d : Dev) : Bool := d.pcs.any (fun c => c.2.writes.any (fun r => match r.who with | .ctx _ => true | _ => false))

/-- Both stacks in service enter self-refresh. -/
def Dev.enterBoth (d : Dev) : Dev := (d.enterSR 0).enterSR 1

/-- Every record of a halted ring is written, or waits for a full completion ring. -/
def Dev.recordsDone (d : Dev) : Bool :=
  d.tracker.all (fun x => (d.ring x.ring).state != RingState.HALTED || d.freeSlots (d.ring x.ring).cq == 0)

/-- SELF_REFRESH_ENTRY, of both stacks (R330, R352): in safe state behind the recovery records and the stores of the contexts, or 250 µs after the
entry; in READY when idle. -/
def Dev.srEntry (d : Dev) (s : Nat) : Dev :=
  if !d.stackOk s ∨ d.inSR s then d
  else if d.isSafe then
    if d.fullTime (d.rd .FC_SAFE_TIME_T 0) + us 250 ≤ d.bed then d.loseRecords.enterBoth
    else if !d.recordsDone then d
    else if d.storeContexts.ctxWaits then d.storeContexts else d.storeContexts.loseRecords.enterBoth
  else
    let idle := d.rd .MC_CTRL_SR_IDLE_US 0
    if d.mcIdle ∧ d.rd .KL_STATUS_PSTATE 0 = 2 ∧ !d.memInFlight ∧ idle ≠ 0 ∧ [0, 1].all (fun s => decide (tget (fun _ => 0) d.mc.lastReq s + us idle ≤ d.now)) ∧
        d.pcs.all (fun x => x.2.reads.isEmpty && x.2.writes.isEmpty) ∧ !d.on .MC_STATUS_OP_PENDING 0 then d.enterBoth
    else d
/-- SELF_REFRESH_ENTRY. -/
def execSelfRefreshEntry (st : Nat) (s : State) : Host.Outcome State Fault Refusal :=
  guardUnit (decide (st < 2)) (s.onDev (fun d => d.srEntry st))

/-- Something waits for stack `s`: a request, or a site or channel that prepares or runs. -/
def Dev.memWanted (d : Dev) (s : Nat) : Bool :=
  d.pcs.any (fun x => x.1 / 32 == s && (!x.2.reads.isEmpty || !x.2.writes.isEmpty)) || !d.mcIdle

/-- SELF_REFRESH_EXIT: the stack reports its temperature first (R340). -/
def Dev.srExit (d : Dev) (s report : Nat) : Dev :=
  if d.inSR s ∧ d.stackOk s ∧ d.memWanted s ∧ d.rd .KL_STATUS_PSTATE 0 ≠ 1 ∧ !d.isSafe then
    (d.leaveSR s report).wakeNote
  else d
/-- SELF_REFRESH_EXIT. -/
def execSelfRefreshExit (st report : Nat) (s : State) : Host.Outcome State Fault Refusal :=
  guardUnit (decide (st < 2)) (s.onDev (fun d => d.srExit st report))

/-! ## Patrol scrub (R351) -/

/-- The next word of the scrub is due: each word once in every SCRUB_H hours. -/
def Dev.scrubDue (d : Dev) : Bool :=
  let h := d.rd .MC_CTRL_SCRUB_H 0
  h != 0 && d.memEnd != 0 && decide (d.mc.scrub * (h * secs 3600) ≤ (d.now - d.mc.scrubAt) * (d.memEnd / 32))

/-- The scrub goes to its next word; the next pass begins with its period, or now if this pass was late. -/
def Dev.scrubNext (d : Dev) : Dev :=
  let w := d.mc.scrub + 1
  if w * 32 < d.memEnd then { d with mc := { d.mc with scrub := w } }
  else { d with mc := { d.mc with scrub := 0, scrubAt := max (d.mc.scrubAt + d.rd .MC_CTRL_SCRUB_H 0 * secs 3600) d.now } }

/-- PATROL_SCRUB, a read of class SCRUB: behind every other read, a watermark drain and a refresh that is due; an uncorrectable word is left
unchanged (R337, R342). -/
def Dev.scrub (d : Dev) (err : Nat) : Dev :=
  let w := d.mc.scrub
  let c := d.pcOf (32 * w)
  if d.scrubDue ∧ d.pcFree c ∧ (d.pc c).reads.isEmpty ∧ !d.drains c ∧ d.debt64 c < d.refi64 c ∧ !d.bankHeld c (d.bankOf (32 * w)) then
    let d0 := if err = 2 then d.spoil w else d
    let d1 := if d0.mc.bad.contains w then ((d0.ueWord c 2 (32 * w)).set1 .MC_STATUS_SCRUB_UE 0).raise 0x183 c
      else if err = 1 then ((d0.raise 0x180 c).set1 .MC_STATUS_CE 0).count .MC_PC_COUNT_CE c 1 else d0
    (d1.access (32 * w) false).scrubNext
  else d
/-- PATROL_SCRUB. -/
def execPatrolScrub (err : Nat) (s : State) : Host.Outcome State Fault Refusal :=
  guardUnit true (s.onDev (fun d => d.scrub err))

end Sys2Proof.Machine
end

