-- ==== Sys2Proof/Machine/Bedrock.lean ====
section
/-!
DEFINITION. Bedrock (R353 to R366) and the edge and wave PLLs (R192, R270, R356): reference, holdover, frequency correction, steps,
discipline, the loss and restart of a PLL.
-/
namespace Sys2Proof.Machine

/-- Bedrock changed by `f`. -/
def Dev.upBr (d : Dev) (f : Br → Br) : Dev := { d with br := f d.br }

/-! ## Frequency correction (R360, R361) -/

/-- F_EFF in force: it goes to its target by 100,000 ppt in each ms. -/
def Dev.feff (d : Dev) : Int :=
  let B := d.br
  let step : Int := ((d.now - B.feffAt) * 100000 / ms 1 : Nat)
  if B.feff0 ≤ B.target then min B.target (B.feff0 + step) else max B.target (B.feff0 - step)

/-- F_EFF before the clamp. -/
def Dev.feffSum (d : Dev) : Int :=
  sgn 32 (d.rd .BR_FCW_PPT 0) + sgn 16 (d.rd .BR_AGE_RATE_RATE 0) * ((d.rd .BR_AGE_NOW_DAYS 0 : Int) - (d.rd .BR_AGE_EPOCH_DAYS 0 : Int)) +
    sgn 32 (d.rd .BR_DISC_PPT 0)

/-- A term of F_EFF has changed: the ramp goes to the new sum, held to 200 ppm. -/
def Dev.retarget (d : Dev) : Dev :=
  let v := d.feffSum
  let c := clampInt (-200000000) 200000000 v
  let out : Bool := v != c
  let d1 := d.upBr (fun B => { B with feff0 := d.feff, feffAt := d.now, target := c, clamped := out })
  if out && !d.br.clamped then (d1.set1 .BR_STATUS_CLAMP 0).raise 0x085 0 else d1

/-! ## Discipline (R363 to R365) -/

/-- The nearest integer, halves up. -/
def ratRound (q : Rat) : Int := (q + 1 / 2).floor

/-- A rational held to a range. -/
def clampRat (lo hi q : Rat) : Rat := if q < lo then lo else if hi < q then hi else q

/-- The servo takes error `e` in ns with `k1 = 1000 / τ` and `k2 = 250 Δ / τ²`; DISC is held to 10 ppm (R364, R382). -/
def Dev.servo (d : Dev) (e k1 k2 : Rat) : Dev :=
  let D := clampRat (-10000000) 10000000 (d.br.integ - k1 * e)
  ((d.upBr (fun B => { B with integ := d.br.integ - k2 * e })).wr .BR_DISC_PPT 0 (unsgn 32 (ratRound D))).retarget

/-- BR_STEP's block counts as running (R362). -/
def Dev.brRunning (d : Dev) : Bool :=
  (List.range 64).any (fun n => d.siteRunning n || d.inSpan n) || (List.range 8).any (fun w => d.wvRunning w || (d.acq w).isSome) ||
    !d.tmu.jobs.isEmpty || (List.range 16).any (d.on .TA_SLOT_CTRL_EN)

/-- A step of Bedrock time is refused: its block counts as running, which in safe state it does not (R362, R458). -/
def Dev.noStep (d : Dev) : Bool := d.brRunning && !d.on .FC_STATE_SAFE 0

/-- Bedrock time moves by `n` ns (R362). -/
def Dev.stepBed (d : Dev) (n : Int) : Dev :=
  let mv := fun (l : Tab Nat) => l.map (fun x => (x.1, ((x.2 : Int) + n * cycleTicks).toNat))
  { d with bedOff := d.bedOff + n * cycleTicks, tmu := { d.tmu with lastEdge := mv d.tmu.lastEdge, ctdcFree := mv d.tmu.ctdcFree } }

/-- DSTATE after an accepted error `e` in ns (R365). -/
def Dev.dstateOn (d : Dev) (e : Rat) : Dev :=
  let a := if e < 0 then -e else e
  let lock : Rat := d.rd .BR_SERVO_LOCK_NS 0
  let st := d.rd .BR_STATUS_DSTATE 0
  let run := if a ≤ lock then d.br.okRun + 1 else 0
  if st = 1 then
    (if 8 ≤ run then (d.wr .BR_STATUS_DSTATE 0 2).upBr (fun B => { B with okRun := 0 }) else d.upBr (fun B => { B with okRun := run, stepped := true }))
  else if st = 2 then
    (if 4 * lock < a then (d.wr .BR_STATUS_DSTATE 0 1).upBr (fun B => { B with okRun := 0, stepped := false }) else d)
  else if st = 3 then (d.wr .BR_STATUS_DSTATE 0 1).upBr (fun B => { B with okRun := 0, stepped := false })
  else d

/-- An accepted update with error `e` in ns: a step where it is the first in ACQUIRE, at least 1,000 ns and the block is idle; else the
servo (R364, R365). -/
def Dev.discipline (d : Dev) (e k1 k2 : Rat) : Dev :=
  let d0 := d.upBr (fun B => { B with ppsAny := true, ppsAt := d.now })
  let big : Bool := decide (1000 ≤ e) || decide (e ≤ -1000)
  if d.rd .BR_STATUS_DSTATE 0 = 1 && !d.br.stepped && big && !d.noStep then (d0.stepBed (-(ratRound e))).dstateOn e
  else (d0.servo e k1 k2).dstateOn e

/-- The phase error of a pulse at `T` in ticks: to the nearest whole second, in (-0.5 s, 0.5 s]. -/
def phaseError (T : Nat) : Int :=
  let r := T % secs 1
  if 2 * r ≤ secs 1 then (r : Int) else (r : Int) - (secs 1 : Int)

/-- PPS_PULSE. -/
def Dev.ppsPulse (d : Dev) (frac : Nat) : Dev :=
  let T := (d.bed + frac) / 64 * 64
  if d.rd .BR_CTRL_MODE 0 ≠ 1 then d
  else if d.br.ppsAny ∧ (d.now + frac + ms 1 < d.br.ppsAt + secs 1 ∨ d.br.ppsAt + secs 1 + ms 1 < d.now + frac) then
    (d.count .BR_STATUS_PPS_REJ 0 1).raise 0x080 0
  else
    let e : Rat := (phaseError T : Rat) / cycleTicks
    let tau : Rat := max 1 (d.rd .BR_SERVO_TAU_S 0)
    let d1 := (d.count .BR_STATUS_PPS_ACC 0 1).wr .BR_PPS_LAST_T 0 (T % 2 ^ 64)
    let d2 := d1.wr .BR_PPS_ERR_NS 0 (unsgn 32 (ratRound e))
    (d2.discipline e (1000 / tau) (250 / (tau * tau))).upBr (fun B => { B with ppsAt := d.now + frac })
/-- PPS_PULSE. -/
def execPpsPulse (frac : Nat) (s : State) : Host.Outcome State Fault Refusal :=
  guardUnit (decide (frac < cycleTicks)) (s.onDev (Dev.core (fun d => d.ppsPulse frac)))

/-- DSTATE becomes HOLDOVER with DISC frozen (R365). -/
def Dev.holdover (d : Dev) : Dev :=
  if d.rd .BR_STATUS_DSTATE 0 = 1 ∨ d.rd .BR_STATUS_DSTATE 0 = 2 then
    ((d.wr .BR_STATUS_DSTATE 0 3).upBr (fun B => { B with ppsAny := false, okRun := 0 })).raise 0x081 0
  else d

/-- DISCIPLINE_HOLDOVER. -/
def execDisciplineHoldover (s : State) : Host.Outcome State Fault Refusal :=
  guardUnit true (s.onDev (Dev.core (fun d => if d.br.ppsAt + ms 2500 ≤ d.now then d.holdover else d)))

/-- MODE has been written with another value (R365). -/
def Dev.modeWritten (d : Dev) : Dev :=
  let m := d.rd .BR_CTRL_MODE 0
  let d1 := d.upBr (fun B => { B with ppsAny := false, okRun := 0, stepped := false, ppsAt := d.now })
  if m = 1 ∨ m = 2 then (if d.rd .BR_STATUS_DSTATE 0 = 0 then d1.wr .BR_STATUS_DSTATE 0 1 else d1)
  else (((d1.wr .BR_STATUS_DSTATE 0 0).wr .BR_DISC_PPT 0 0).upBr (fun B => { B with integ := 0 })).retarget

/-- A write of `v` to BR_CTRL; REFSEL counts as running from the first lock on (R353). -/
def Dev.brCtrl (d : Dev) (v : Nat) : Dev :=
  let d1 := d.writeReg (regAt .br .BR_CTRL 0 0) .whole v d.br.locked
  if d1.rd .BR_CTRL_MODE 0 = d.rd .BR_CTRL_MODE 0 then d1 else d1.modeWritten

/-- A write of `v` to BR_COMMIT (R362). -/
def Dev.brCommit (d : Dev) (v : Nat) : Dev :=
  if !bitAt v 0 then d
  else if d.noStep ∨ d.rd .BR_CTRL_MODE 0 = 2 then (d.set1 .BR_STATUS_STEP_REF 0).raise 0x086 0
  else d.stepBed (sgn 32 (d.rd .BR_STEP_NS 0))

/-- The Steward saves AGE_NOW in the age record's two sectors in turn (R361, R479); the manual does not give the record's layout, so what the sector
then holds is open (log entry 100). -/
def Dev.ageSave (d : Dev) (n : Nat) : List Put × Dev :=
  if 2 ≤ d.rd .KL_STATUS_PSTATE 0 then
    ([.flash (0x26_0000 + 4096 * (n % 2)) ((List.range 512).flatMap (fun k => bytesOf 8 (Config.freeValue (d.free + k)).toNat))],
     ({ d with free := d.free + 512 } : Dev).upBr (fun B => { B with ageSaved := n }))
  else ([], d)

/-- AGE_NOW_ADVANCE (R361): a day of Bedrock time; the Steward saves AGE_NOW. -/
def Dev.ageAdvance (d : Dev) : List Put × Dev :=
  if d.br.dayAt + secs 86400 ≤ d.bed then
    let n := (d.rd .BR_AGE_NOW_DAYS 0 + 1) % 2 ^ 32
    ((d.wr .BR_AGE_NOW_DAYS 0 n).upBr (fun B => { B with dayAt := B.dayAt + secs 86400 })).retarget.ageSave n
  else ([], d)
/-- AGE_NOW_ADVANCE. -/
def execAgeNowAdvance (s : State) : Host.Outcome State Fault Refusal :=
  guardUnit true (s.onMem (fun _ d => d.ageAdvance))

/-! ## The reference and the core PLL (R354, R366) -/

/-- REFERENCE_LOSS: holdover; failover to the crystal. -/
def Dev.refLoss (d : Dev) : Dev :=
  if d.br.lossNow then d
  else
    let d0 := if d.rd .BR_STATUS_REF_NOW 0 = 0 then d.clr .BR_STATUS_XTAL_OK 0 else d
    let d1 := (d0.set1 .BR_STATUS_REF_LOSS 0).raise 0x082 0
    if d.on .BR_CTRL_FAILOVER 0 ∧ d.rd .BR_CTRL_REFSEL 0 ≠ 0 ∧ d0.on .BR_STATUS_XTAL_OK 0 then d1.wr .BR_STATUS_REF_NOW 0 0
    else d1.upBr (fun B => { B with lossNow := true, holdAt := some d.now })
/-- REFERENCE_LOSS. -/
def execReferenceLoss (s : State) : Host.Outcome State Fault Refusal :=
  guardUnit true (s.onDev (Dev.core (fun d => d.refLoss)))

/-- The core PLL is lost (R366). -/
def Dev.coreLost (d : Dev) : Dev := ((d.clr .BR_STATUS_CORE_LOCK 0).upBr (fun B => { B with holdAt := none })).raise 0x084 0

/-- HOLDOVER_EXPIRY: no reference within 100 ms. -/
def execHoldoverExpiry (s : State) : Host.Outcome State Fault Refusal :=
  guardUnit true (s.onDev (Dev.core (fun d => match d.br.holdAt with
    | some t => if t + ms 100 ≤ d.now then d.coreLost else d
    | none => d)))
/-- CORE_PLL_LOCK_LOSS. -/
def execCorePllLockLoss (s : State) : Host.Outcome State Fault Refusal :=
  guardUnit true (s.onDev (fun d => if d.on .BR_STATUS_CORE_LOCK 0 then d.coreLost else d))
/-- The reference that returns (R354): the one in use, or, behind a failover whose crystal was lost too, that or the selected one, which is open
(log entry 48). -/
def Dev.refBackTo (d : Dev) : Dev :=
  let sel := d.rd .BR_CTRL_REFSEL 0
  let now := d.rd .BR_STATUS_REF_NOW 0
  let back := if now = sel ∨ d.openBit then now else sel
  let d1 := d.wr .BR_STATUS_REF_NOW 0 back
  (if back = 0 then d1.set1 .BR_STATUS_XTAL_OK 0 else d1).took

/-- A reference returns: holdover ends (R354); a lost core PLL relocks, but for the one that ASLEEP has stopped (R366). -/
def Dev.refReturn (d : Dev) : Dev :=
  let d1 := if d.br.lossNow then (d.upBr (fun B => { B with lossNow := false, holdAt := none })).refBackTo else d
  if d.rd .KL_STATUS_PSTATE 0 = 1 ∨ !d.kl.powered then d1 else d1.set1 .BR_STATUS_CORE_LOCK 0

/-- Bedrock time resumes from the AON accumulator with an error of at most 1 ns (R358): which is open. -/
def Dev.resumeBed (d : Dev) : Dev := (d.stepBed ((d.openVal 8 % 3 : Nat) - 1 : Int)).took

/-! ## Edge and wave PLLs (R192, R356) -/

/-- The pins of quadrant `q`. -/
def quadPins (q : Nat) : List Nat := (List.range 64).map (· + 64 * q)

/-- EDGE_PLL_LOCK_LOSS (R192). -/
def Dev.edgePllLost (d : Dev) (q : Nat) : Dev :=
  if !bitAt (d.rd .BR_STATUS_QPLL_READY 0) q then d
  else
    let d0 := d.wr .BR_STATUS_QPLL_READY 0 (setBit (d.rd .BR_STATUS_QPLL_READY 0) q false)
    let hit := (List.range 64).filter (fun n => d.siteRunning n && (d.quads n).contains q)
    let d1 := if hit = [] then d0 else
      (quadPins q).foldl (fun d p => ((d.set1 .PIN_TF_STATUS_PLL_LOSS p).deOff p).upPin p (fun P => { P with pllLost := true }))
        (hit.foldl (fun d n => d.abortSite n 3 true) (d0.raise 0x208 q))
    d1.jobsPllLost q
/-- EDGE_PLL_LOCK_LOSS. -/
def execEdgePllLockLoss (q : Nat) (s : State) : Host.Outcome State Fault Refusal :=
  guardUnit (decide (q < 4)) (s.onDev (fun d => d.edgePllLost q))

/-- Pin `p` carries vectors of a burst (R517). -/
def Dev.carries (d : Dev) (p : Nat) : Bool :=
  match d.siteOf p with
  | some n => decide (SiteState.RUNNING ≤ d.siteState n) && !(d.site n).ended
  | none => false

/-- PLL `q` (4: the wave PLL) is ready (R30, R355); the quadrant's pins that carry no vector drive their idle codes again (R517). -/
def Dev.pllReady (d : Dev) (q : Nat) : Dev :=
  if !(d.pll q).starting then d
  else
    let d1 := d.upPll q (fun P => { P with starting := false, tries := 0, idleSince := d.now })
    if q < 4 then
      let d2 := (quadPins q).foldl (fun d p => d.upPin p (fun P => { P with pllLost := false }))
        (d1.wr .BR_STATUS_QPLL_READY 0 (setBit (d1.rd .BR_STATUS_QPLL_READY 0) q true))
      let d3 := (quadPins q).foldl (fun d p => if d.carries p then d else d.driveIdle p) d2
      d3.wakeNote.jobsPllReady
    else (List.range 8).foldl (fun d w => d.wvWake w) ((d1.noHistory).set1 .BR_STATUS_WAVE_READY 0)
/-- PLL_READY. -/
def execPllReady (pll : Nat) (s : State) : Host.Outcome State Fault Refusal :=
  guardUnit (decide (pll < 5)) (s.onDev (fun d => d.pllReady pll))

/-- PLL `q` is out of service (R356). -/
def Dev.pllDown (d : Dev) (q : Nat) : Dev :=
  if q < 4 then
    ((List.range 8).map (· + 8 * q)).foldl (fun d k => d.octetDown k)
      ((d.raise 0x083 q).wr .DEV_UNITS_QPLL_OK 0 (setBit (d.rd .DEV_UNITS_QPLL_OK 0) q false))
  else ((d.raise 0x083 q).wr .DEV_UNITS_WAVE_OK 0 0).wvAllOff 4 Status.UNIT_DOWN

/-- PLL_RESTART_TIMEOUT: tried again, three times in all. -/
def Dev.pllTimeout (d : Dev) (q : Nat) : Dev :=
  let P := d.pll q
  if !P.starting ∨ d.now < P.at_ + us 80 then d
  else if P.tries + 1 < 3 then d.upPll q (fun P => { P with tries := P.tries + 1, at_ := d.now })
  else (d.upPll q (fun P => { P with starting := false, tries := 0 })).pllDown q
/-- PLL_RESTART_TIMEOUT. -/
def execPllRestartTimeout (pll : Nat) (s : State) : Host.Outcome State Fault Refusal :=
  guardUnit (decide (pll < 5)) (s.onDev (fun d => d.pllTimeout pll))

end Sys2Proof.Machine
end

