-- ==== Sys2Proof/Machine/Rein.lean ====
section
/-!
DEFINITION. Rein (R367 to R389): port states and training, frames and replay, figure of merit, the time exchange, span packets, FAULT.
-/
namespace Sys2Proof.Machine

/-! ## Twin roles (R391, R392, R395) -/

/-- The heartbeat interval and the lease, in ticks (R392, R396). -/
def Dev.hbTicks (d : Dev) : Nat := us (max 1 (d.rd .TW_TIMING_HB_US 0))
def Dev.leaseTicks (d : Dev) : Nat := max (us (d.rd .TW_LEASE_LEASE_US 0)) (2 * d.hbTicks)

/-- TWIN_OWN_L is asserted, with a fresh lease, or deasserted. -/
def Dev.own (d : Dev) (b : Bool) : Dev :=
  if b && !d.on .TW_STATUS_OWN 0 then { d.set1 .TW_STATUS_OWN 0 with tw := { d.tw with lease := d.now + d.leaseTicks } }
  else d.wr .TW_STATUS_OWN 0 (b2n b)

/-- A part that no longer follows drops the mirrored descriptors it holds. -/
def Dev.dropMirrored (d : Dev) : Dev :=
  { d with tracker := [], rings := d.rings.map (fun x => (x.1, { x.2 with descs := [] })), tw := { d.tw with notes := [], acked := [], next := [] } }

/-- The part takes twin role `r`: ownership, held pins and DACs, what it held as a follower. -/
def Dev.roleTo (d : Dev) (r : Nat) : Dev :=
  let d1 := (d.wr .TW_STATUS_ROLE 0 r).own (r == 3 || r == 5)
  let d2 : Dev := { d1 with tw := { d1.tw with lostAt := none, ownAt := none, seekAt := if r = 1 then d.now else d1.tw.seekAt,
                                               rxAt := d.now, hbAt := d.now } }
  let d3 := if d.follows && !(r == 2 || r == 3 || r == 4) then d2.dropMirrored else d2
  if heldRole r then (List.range 8).foldl (fun d w => d.upWave w (fun W => { W with out := 0 })) ((List.range 256).foldl (fun d p => d.deOff p) d3)
  else if heldRole d.role then (List.range 256).foldl (fun d p => d.driveIdle p) d3
  else d3

/-- The twin port leaves UP: a follower whose peer has owned the pins for less than the lease and 50 µs seeks again (role table). -/
def Dev.twinLeft (d : Dev) : Dev :=
  if d.follows ∧ d.on .TW_STATUS_PEER_OWN 0 ∧ d.now < d.tw.peerOnAt + d.leaseTicks + us 50 then d.roleTo 1 else d

/-- A DETACHED part seeks again when TWIN_PEER_L is deasserted and the twin port is UP. -/
def Dev.seekAgain (d : Dev) : Dev :=
  if d.role = 6 ∧ !d.on .TW_STATUS_PEER_OWN 0 ∧ d.rd .RN_PORT_STATUS_LSTATE d.twinPort = 4 ∧ d.rd .RN_PORT_CTRL_ROLE d.twinPort = 1
  then d.roleTo 1 else d

/-! ## Port states (R374 to R377) -/

/-- The LSTATE values. -/
def Lst.OFF : Nat := 0
def Lst.DETECT : Nat := 1
def Lst.TRAIN : Nat := 2
def Lst.UP : Nat := 4

/-- LSTATE of port `p`. -/
def Dev.lstate (d : Dev) (p : Nat) : Nat := d.rd .RN_PORT_STATUS_LSTATE p

/-- The REIN domain is on and port `p` in service: the device is READY or RUN without a thermal shutdown (R39, R374, R419). -/
def Dev.reinOn (d : Dev) (p : Nat) : Bool :=
  d.serves && decide (2 ≤ d.rd .KL_STATUS_PSTATE 0) && !d.kl.shut && bitAt (d.rd .DEV_UNITS_REIN_OK 0) p

/-- Every running span site halts as a late span packet halts it (R377, R389). -/
def Dev.haltSpans (d : Dev) : Dev :=
  ((List.range 64).filter (fun n => d.inSpan n && d.siteRunning n)).foldl (fun d n => d.spanLate n) d

/-- What port `p` leaves behind with UP: its PRIORITY frames, its lanes, and, a SPAN port, the span sites that run (R373, R377). -/
def Dev.leftUp (d : Dev) (p : Nat) : Dev :=
  let d1 := (portLanes p).foldl (fun d l =>
    ((d.clr .RN_LANE_STATUS_USED l).wr .RN_LANE_STATUS_SNAP l 0).upRnLane l (fun L => { L with lowAt := none })) d
  let d2 := ((d1.set1 .RN_PORT_STATUS_LINK_LOSS p).wr .RN_PORT_STATUS_LANES p 0).upPort p (fun P => { P with txP := [], t1 := none })
  if d.rd .RN_PORT_CTRL_ROLE p = 0 then d2.haltSpans else if d.twinPort = p then d2.twinLeft else d2

/-- Port `p` goes to `st`; `d` was its state before. -/
def Dev.portTo (d : Dev) (p st : Nat) : Dev :=
  let d1 := d.wr .RN_PORT_STATUS_LSTATE p st
  if d.lstate p = Lst.UP then d1.leftUp p else d1

/-- Port `p` trains at `rate` (R374). -/
def Dev.trainAt (d : Dev) (p rate : Nat) : Dev :=
  ((d.portTo p Lst.TRAIN).wr .RN_PORT_STATUS_RATE_NOW p rate).upPort p (fun P => { P with step := some d.now })

/-- Port `p` in UP retrains at `rate` (R371, R373, R374, R376). -/
def Dev.retrainAt (d : Dev) (p rate : Nat) : Dev :=
  if d.lstate p ≠ Lst.UP then d else (d.raise 0x303 p).trainAt p rate

/-- Port `p` in UP retrains at its rate. -/
def Dev.retrainPort (d : Dev) (p : Nat) : Dev := d.retrainAt p (d.rd .RN_PORT_STATUS_RATE_NOW p)

/-- Port `p` goes to DETECT at 3.2 Gb/s. -/
def Dev.toDetect (d : Dev) (p from_ : Nat) : Dev :=
  ((d.portTo p Lst.DETECT).wr .RN_PORT_STATUS_RATE_NOW p 0).upPort p (fun P => { P with step := none, good := none, detectAt := from_ })

/-- Port `p` goes to OFF. -/
def Dev.portOff (d : Dev) (p : Nat) : Dev :=
  let d1 := ((d.portTo p Lst.OFF).clr .RN_PORT_STATUS_RATE_PENDING p).stepOver (2 + p) d.now
  (portLanes p).foldl (fun d l => d.clr .RN_LANE_STATUS_LOCK l) (d1.upPort p (fun P => { P with step := none, pendAt := none }))

/-- Port `p` leaves OFF where EN and the domain allow it. -/
def Dev.portUp (d : Dev) (p : Nat) : Dev :=
  if d.lstate p = Lst.OFF ∧ d.on .RN_PORT_CTRL_EN p ∧ d.reinOn p ∧ d.rd .RN_PORT_CTRL_ROLE p < 2 then
    (d.toDetect p d.now).upPort p (fun P => { P with failed := 0 })
  else d

/-- The highest rate that both RATE_MAX values allow. -/
def Dev.rateTop (d : Dev) (p : Nat) : Nat := min (d.rd .RN_PORT_CTRL_RATE_MAX p) (d.rd .RN_PORT_PEER_PEER_RATE p)

/-- A RATE_MAX write takes effect by the port's state (R376). -/
def Dev.rateWritten (d : Dev) (p : Nat) : Dev :=
  if d.lstate p = Lst.UP then (d.wr .RN_PORT_STATUS_DEFER_US p 0).retrainAt p (d.rateTop p)
  else if d.lstate p = Lst.TRAIN ∧ (d.port p).step.isSome then
    (d.set1 .RN_PORT_STATUS_RATE_PENDING p).upPort p (fun P => { P with pendAt := some d.now })
  else d.wr .RN_PORT_STATUS_DEFER_US p 0

/-- A RATE_MAX write that waits is taken: training restarts (R376), and a REG_WRITE that made it goes on (R308). -/
def Dev.takeRate (d : Dev) (p t : Nat) : Dev :=
  ((((d.clr .RN_PORT_STATUS_RATE_PENDING p).wr .RN_PORT_STATUS_DEFER_US p (min ((d.now - t) / us 1) 65535)).stepOver (2 + p) d.now).upPort p
    (fun P => { P with pendAt := none })).trainAt p (d.rateTop p)

/-- Part `part` of RN_PORT_CTRL of port `p` is written with `v`. -/
def Dev.portCtrl (d : Dev) (p v : Nat) : Dev :=
  let d1 := d.writeReg (regAt .rnport .RN_PORT_CTRL p 0) .whole v (d.lstate p != 0)
  let d2 := if d.on .RN_PORT_CTRL_EN p && !d1.on .RN_PORT_CTRL_EN p then d1.portOff p else d1.portUp p
  if d2.rd .RN_PORT_CTRL_RATE_MAX p = d.rd .RN_PORT_CTRL_RATE_MAX p then d2 else d2.rateWritten p

/-- TRAIN: a TRAIN block with block lock. -/
def Dev.trainBlock (d : Dev) (p peerRate : Nat) : Dev :=
  if d.lstate p = 0 then d
  else
    let d1 := d.wr .RN_PORT_PEER_PEER_RATE p peerRate
    if d.lstate p = Lst.DETECT then (if d.now < (d.port p).detectAt then d1 else d1.trainAt p 0)
    else d1.retrainPort p
/-- TRAIN. -/
def execTrain (pt peerRate : Nat) (s : State) : Host.Outcome State Fault Refusal :=
  guardUnit (decide (pt < 4)) (s.onDev (fun d => d.trainBlock pt peerRate))

/-- TRAINING_STEP_END (R376). -/
def Dev.stepEnd (d : Dev) (p : Nat) : Dev :=
  if d.lstate p ≠ Lst.TRAIN then d
  else match (d.port p).pendAt with
    | some t => d.takeRate p t
    | none => d.upPort p (fun P => { P with step := some d.now })
/-- TRAINING_STEP_END. -/
def execTrainingStepEnd (pt : Nat) (s : State) : Host.Outcome State Fault Refusal :=
  guardUnit (decide (pt < 4)) (s.onDev (fun d => d.stepEnd pt))

/-- WIDTH_MAX as a number of lanes. -/
def widthOf (code : Nat) : Nat := if code = 0 then 1 else if code = 1 then 2 else 4

/-- The width that the usable lanes `mask` cover, at most `top` (R375). -/
def widthFit (mask top : Nat) : Nat :=
  if mask % 16 = 15 ∧ 4 ≤ top then 4 else if mask % 4 = 3 ∧ 2 ≤ top then 2 else if mask % 2 = 1 then 1 else 0

/-- The lanes of port `p` whose FOM reaches FOM_MIN and that are not excluded. -/
def Dev.goodLanes (d : Dev) (p lanes : Nat) (fom : List Nat) : Nat :=
  (((List.range 4).filter (fun i => bitAt lanes i && decide (d.rd .RN_PORT_CTRL_FOM_MIN p ≤ fom.getD i 0) &&
    !d.on .RN_LANE_CTRL_EXCLUDE (4 * p + i))).map (2 ^ ·)).sum

/-- Port `p` is UP with width `w` (R374, R375): unacknowledged NORMAL frames are sent again, which counts as replays (R373); they begin a new count
of sends (log entry 94). -/
def Dev.portIsUp (d : Dev) (p w peerW : Nat) : Dev :=
  let d1 := (((d.wr .RN_PORT_STATUS_LSTATE p Lst.UP).wr .RN_PORT_STATUS_WIDTH_NOW p (w / 2)).wr .RN_PORT_STATUS_LANES p (2 ^ w - 1)).upPort p
    (fun P => { P with step := none, exAt := none, txN := P.txN.map (fun f => { f with at_ := d.now, sent := 1 }) })
  let k := (d.port p).txN.length
  let d1 := if k = 0 then d1 else ((d1.count .RN_PORT_STATUS_REPLAYS p k).tally 0x51 p k).raise 0x300 p
  let d2 := (List.range w).foldl (fun d i =>
    ((d.set1 .RN_LANE_STATUS_USED (4 * p + i)).wr .RN_LANE_STATUS_SNAP (4 * p + i) 0).upRnLane (4 * p + i) (fun _ => {})) d1
  let d3 := if w < widthOf (d.rd .RN_PORT_CTRL_WIDTH_MAX p) ∧ w < peerW then d2.raise 0x302 p else d2
  if d.twinPort = p ∧ d.rd .RN_PORT_CTRL_ROLE p = 1 then (d3.twinPump 64).seekAgain else d3

/-- The rates a port may try above `r` and those below it, nearest first. -/
def Dev.rateUp (d : Dev) (p r : Nat) : Option Nat :=
  (List.range 4).find? (fun x => decide (r < x) && decide (x ≤ d.rateTop p) && !bitAt (d.port p).failed x)
def Dev.rateDown (d : Dev) (p r : Nat) : Option Nat :=
  ((List.range 4).reverse).find? (fun x => decide (x < r) && !bitAt (d.port p).failed x)

/-- NEGOTIATE with the usable width `w` at the present rate (R375). -/
def Dev.negotiate (d : Dev) (p w peerW : Nat) : Dev :=
  let r := d.rd .RN_PORT_STATUS_RATE_NOW p
  let less : Bool := match (d.port p).good with
    | some (r0, w0) => decide (r0 < r ∧ w < w0)
    | none => false
  if w = 0 ∧ r = 0 then ((d.raise 0x30A p).toDetect p (d.now + ms 10))
  else if w = 0 ∨ less then
    let d1 := ((d.upPort p (fun P => { P with failed := setBit P.failed r true })).set1 .RN_PORT_STATUS_FALLBACK p).raise 0x304 p
    match (d.port p).good with
    | some (r0, _) => if r0 < r then d1.trainAt p r0 else d1.trainAt p ((d1.rateDown p r).getD 0)
    | none => d1.trainAt p ((d1.rateDown p r).getD 0)
  else
    let d1 := d.upPort p (fun P => { P with good := some (r, w) })
    match d1.rateUp p r with
    | some x => d1.trainAt p x
    | none => d1.portIsUp p w peerW

/-- TRAINING_END. -/
def Dev.trainingEnd (d : Dev) (p lanes : Nat) (fom : List Nat) (peerLanes peerWidth : Nat) : Dev :=
  if d.lstate p ≠ Lst.TRAIN then d
  else
    let d1 := (List.range 4).foldl (fun d i =>
      (d.wr .RN_LANE_STATUS_LOCK (4 * p + i) (b2n (bitAt lanes i))).wr .RN_LANE_STATUS_FOM (4 * p + i) (min (fom.getD i 0) 4095)) d
    match (d.port p).pendAt with
    | some t => d1.takeRate p t
    | none =>
      let top := min (widthOf (d.rd .RN_PORT_CTRL_WIDTH_MAX p)) (widthOf peerWidth)
      let w := widthFit (d.goodLanes p lanes fom &&& peerLanes) top
      (d1.wr .RN_PORT_PEER_PEER_LANES p peerLanes).negotiate p w (widthOf peerWidth)
/-- TRAINING_END. -/
def execTrainingEnd (pt lanes : Nat) (fom : List Nat) (peerLanes peerWidth : Nat) (s : State) : Host.Outcome State Fault Refusal :=
  guardUnit (decide (pt < 4)) (s.onDev (fun d => d.trainingEnd pt lanes fom peerLanes peerWidth))

/-- BLOCK_LOCK_LOSS. -/
def Dev.lockLost (d : Dev) (p : Nat) : Dev :=
  if d.lstate p < 2 then d
  else
    let d1 := (portLanes p).foldl (fun d l => d.clr .RN_LANE_STATUS_LOCK l) (d.raise 0x303 p)
    match (d.port p).pendAt with
    | some t => (((d1.clr .RN_PORT_STATUS_RATE_PENDING p).stepOver (2 + p) d.now).wr .RN_PORT_STATUS_DEFER_US p (min ((d.now - t) / us 1) 65535)).upPort p
        (fun P => { P with pendAt := none }) |>.toDetect p d.now
    | none => d1.toDetect p d.now
/-- BLOCK_LOCK_LOSS. -/
def execBlockLockLoss (pt : Nat) (s : State) : Host.Outcome State Fault Refusal :=
  guardUnit (decide (pt < 4)) (s.onDev (fun d => d.lockLost pt))

/-! ## Figure of merit (R379) -/

/-- FOM_SAMPLE on lane `l`: the revert first, then the retrain. -/
def Dev.fomSample (d : Dev) (l fom : Nat) (quiet : Bool) : Dev :=
  let p := l / 4
  let d0 := (d.wr .RN_LANE_STATUS_FOM l fom).wr .RN_LANE_STATUS_FROZEN l (b2n quiet)
  if d.lstate p = 0 then d
  else if d.lstate p ≠ Lst.UP then d0
  else
    let snap := d.rd .RN_LANE_STATUS_SNAP l
    let d1 := if snap < fom then d0.wr .RN_LANE_STATUS_SNAP l fom else d0
    let d2 := if 10 * fom < 9 * snap ∧ (d.rnLane l).calmTo ≤ d.now then
        (((d1.count .RN_LANE_STATUS_REVERTS l 1).set1 .RN_LANE_STATUS_REVERTED l).raise 0x301 l).upRnLane l (fun L => { L with calmTo := d.now + us 100 })
      else d1
    if !d.on .RN_LANE_STATUS_USED l then d2
    else if d.rd .RN_PORT_CTRL_FOM_MIN p ≤ fom then d2.upRnLane l (fun L => { L with lowAt := none })
    else match (d.rnLane l).lowAt with
      | none => d2.upRnLane l (fun L => { L with lowAt := some d.now })
      | some t => if t + us 100 ≤ d.now then d2.retrainPort p else d2
/-- FOM_SAMPLE. -/
def execFomSample (lane fom : Nat) (quiet : Bool) (s : State) : Host.Outcome State Fault Refusal :=
  guardUnit (decide (lane < 16)) (s.onDev (fun d => d.fomSample lane (min fom 4095) quiet))

/-! ## Span packets (R385 to R387, R64) -/

/-- The packet was sent or received within the last 1 µs. -/
def Dev.seenPkt (d : Dev) (k : SpanPkt) : Bool :=
  (List.range 4).any (fun p => (d.port p).recent.any (fun x => x.1 == k && decide (d.now < x.2 + us 1)))

/-- Port `p` notes the packet it received. -/
def Dev.notePkt (d : Dev) (p : Nat) (k : SpanPkt) : Dev :=
  d.upPort p (fun P => { P with recent := (k, d.now) :: P.recent.filter (fun x => decide (d.now < x.2 + us 1)) })

/-- Packet `k` with origin time `t` acts on site `n`, whose tag it carries (R64, R385, R386). -/
def Dev.pktSite (d : Dev) (k : SpanPkt) (t n : Nat) : Dev :=
  let at_ := t + ns (d.rd .SITE_SPAN_LAT_LAT n)
  if at_ < d.bed + ns 20 then d.spanLate n
  else match k.kind with
    | .cond =>
      let c := k.arg % 32
      if d.spanWide n c then d.queueCond n ⟨cycleAfter at_, 256 + c, bitAt k.arg 5, true, k.t⟩ else d
    | .start => if d.siteState n = SiteState.ARMED ∧ (d.site n).mode = 3 then d.setStart n at_ else d.spanLate n
    | .halt => d.upSite n (fun S => { S with spanHalt := some (match S.spanHalt with | some x => min x at_ | none => at_) })
    | .mark => d.signal .mark at_ n (k.arg % 16) true
    | .trig => d

/-- The sites that a packet's tag matches. -/
def Dev.tagged (d : Dev) (tag : Nat) : List Nat := (List.range 64).filter (fun n => d.inSpan n && d.rd .SITE_SPAN_SPAN_TAG n == tag)

/-- The slots that a TRIG packet matches (R280). -/
def Dev.trigTagged (d : Dev) (tag o : Nat) : List Nat :=
  if tag ≠ d.rd .TA_SPAN_TAG 0 then []
  else (List.range 16).filter (fun k => d.slotLive k && d.rd .TA_SLOT_CTRL_SRC k == 6 && d.rd .TA_SLOT_CTRL_SEL k % 16 == o)

/-- A packet matched nothing (R386). -/
def Dev.noMatch (d : Dev) (p : Nat) : Dev := (d.count .RN_PORT_COUNT_NOMATCH p 1).raise 0x309 p

/-- Port `p` receives packet `k`: it is forwarded unless seen before, and acts on what it matches. -/
def Dev.takePkt (d : Dev) (p : Nat) (k : SpanPkt) : Dev :=
  let d1 :=
    if d.seenPkt k then d.count .RN_PORT_COUNT_DUP p 1
    else let d0 := d.notePkt p k; if d.spanPort p then d0.sendSpan k (some p) else d0
  let t := d.fullTime k.t
  if k.kind = .trig then
    (if d.trigTagged k.tag (k.arg % 16) = [] then d1.noMatch p else d1.trigArrives k.tag (k.arg % 16) t)
  else
    let l := d.tagged k.tag
    if l = [] then d1.noMatch p else l.foldl (fun d n => d.pktSite k t n) d1

/-- Port `p` carries span packets to this part: UP with ROLE SPAN. -/
def Dev.spanIn (d : Dev) (p : Nat) : Bool := d.lstate p == Lst.UP && d.rd .RN_PORT_CTRL_ROLE p == 0

/-- A packet delivered on port `p`. -/
def Dev.delivered (d : Dev) (p : Nat) (k : SpanPkt) : Dev := if d.spanIn p then d.takePkt p k else d

/-- COND_PACKET. -/
def execCondPacket (pt tag cond : Nat) (value : Bool) (t : Nat) (s : State) : Host.Outcome State Fault Refusal :=
  guardUnit (decide (pt < 4)) (s.onDev (fun d => d.delivered pt ⟨.cond, tag, cond % 32 + 32 * b2n value, t % 2 ^ 64⟩))
/-- START_PACKET. -/
def execStartPacket (pt tag t : Nat) (s : State) : Host.Outcome State Fault Refusal :=
  guardUnit (decide (pt < 4)) (s.onDev (fun d => d.delivered pt ⟨.start, tag, 0, t % 2 ^ 64⟩))
/-- HALT_PACKET. -/
def execHaltPacket (pt tag t : Nat) (s : State) : Host.Outcome State Fault Refusal :=
  guardUnit (decide (pt < 4)) (s.onDev (fun d => d.delivered pt ⟨.halt, tag, 0, t % 2 ^ 64⟩))
/-- MARK_PACKET. -/
def execMarkPacket (pt tag marker t : Nat) (s : State) : Host.Outcome State Fault Refusal :=
  guardUnit (decide (pt < 4)) (s.onDev (fun d => d.delivered pt ⟨.mark, tag, marker % 16, t % 2 ^ 64⟩))
/-- TRIG_PACKET. -/
def execTrigPacket (pt tag slot t : Nat) (s : State) : Host.Outcome State Fault Refusal :=
  guardUnit (decide (pt < 4)) (s.onDev (fun d => d.delivered pt ⟨.trig, tag, slot % 16, t % 2 ^ 64⟩))

/-! ## Frames and replay (R371 to R373) -/

/-- The frames of a class that wait for an ACK. -/
def RnPort.tx (P : RnPort) (pri : Bool) : List TxFrame := if pri then P.txP else P.txN
def RnPort.setTx (P : RnPort) (pri : Bool) (l : List TxFrame) : RnPort := if pri then { P with txP := l } else { P with txN := l }
/-- The SEQ expected of a class, and whether frames are discarded until it comes. -/
def RnPort.rx (P : RnPort) (pri : Bool) : Nat := if pri then P.rxP else P.rxN
def RnPort.gap (P : RnPort) (pri : Bool) : Bool := if pri then P.nakP else P.nakN
def RnPort.setRx (P : RnPort) (pri : Bool) (n : Nat) (gap : Bool) : RnPort :=
  if pri then { P with rxP := n, nakP := gap } else { P with rxN := n, nakN := gap }

/-- `a` is `b` or comes after it, modulo 4,096. -/
def seqFrom (a b : Nat) : Bool := decide ((a + 4096 - b) % 4096 < 2048)

/-- The twin port has shown a frame (R396). -/
def Dev.twinHeard (d : Dev) (p : Nat) : Dev :=
  if d.twinPort = p ∧ d.rd .RN_PORT_CTRL_ROLE p = 1 then { d with tw := { d.tw with rxAt := d.now } } else d

/-- Port `p` sends an ACK or NAK block of a class with SEQ `seq` (R373). -/
def Dev.reply (d : Dev) (p ty : Nat) (pri : Bool) (seq : Nat) : Dev :=
  d.upPort p (fun P => { P with out := stripe (d.width p) [replyBlock ty pri seq] })

/-- A block other than IDLE and SKIP has come on lane `l` (R379). -/
def Dev.thaw (d : Dev) (l : Nat) : Dev := d.clr .RN_LANE_STATUS_FROZEN l

/-- One block of port `p`'s stream has come; which of the lanes in use carried it is open. -/
def Dev.thawOne (d : Dev) (p : Nat) : Dev := (d.thaw (4 * p + d.openVal 2 % max 1 (d.width p))).took

/-- Frame `f` of port `p` is damaged or out of order: frames are discarded until the expected one comes, which NAK names. -/
def Dev.askAgain (d : Dev) (p : Nat) (pri : Bool) : Dev :=
  let want := (d.port p).rx pri
  (d.upPort p (fun P => P.setRx pri want true)).reply p Blk.NAK pri want

/-- Port `p` in UP takes frame `f`, whole or damaged (R372, R373): the answer is the cumulative ACK, or a NAK. -/
def Dev.takeFrame (d : Dev) (p : Nat) (f : RxFrame) (ok : Bool) : Dev :=
  let want := (d.port p).rx f.pri
  if !ok then d.askAgain p f.pri
  else
    let d0 := d.twinHeard p
    if f.seq = want then
      let d1 := (d0.upPort p (fun P => P.setRx f.pri ((want + 1) % 4096) false)).reply p Blk.ACK f.pri want
      if f.pri ∧ d.rd .RN_PORT_CTRL_ROLE p = 0 then (pktsOf f.data).foldl (fun d k => d.delivered p k) d1 else d1
    else if seqFrom f.seq want then d0.askAgain p f.pri
    else d0.reply p Blk.ACK f.pri ((want + 4095) % 4096)

/-- FRAME: the EOF of frame `seq` of a class on port `p`, whose lanes carried `lanes` (R370 to R373); where they bring no such frame, its blocks are
damaged. -/
def Dev.frameIn (d : Dev) (p : Nat) (pri : Bool) (seq : Nat) (crcOk elasticOk : Bool) (lanes : List Nat) : Dev :=
  if d.lstate p ≠ Lst.UP then d
  else if !elasticOk then ((d.set1 .RN_PORT_STATUS_ELASTIC p).raise 0x308 p).retrainPort p
  else
    let d1 := (List.range (d.width p)).foldl (fun d i => if (laneBlocks (lanes.getD i 0)).any stirs then d.thaw (4 * p + i) else d) d
    match (laneFrames ((lanes.take (d.width p)).map laneBlocks)).find? (fun f => f.pri == pri && f.seq == seq) with
    | some f => d1.takeFrame p f (crcOk && f.ok)
    | none => d1.askAgain p pri
/-- FRAME. -/
def execFrame (pt : Nat) (pri : Bool) (seq : Nat) (crcOk elasticOk : Bool) (lanes : List Nat) (s : State) :
    Host.Outcome State Fault Refusal :=
  guardUnit (decide (pt < 4)) (s.onDev (fun d => d.frameIn pt pri (seq % 4096) crcOk elasticOk lanes))

/-- ACK: frames up to `seq` are released. -/
def Dev.ackIn (d : Dev) (p : Nat) (pri : Bool) (seq : Nat) : Dev :=
  if d.lstate p ≠ Lst.UP then d
  else
    let d1 := d.thawOne p |>.upPort p (fun P => P.setTx pri ((P.tx pri).filter (fun f => !seqFrom seq f.seq)))
    if !pri ∧ d.twinPort = p ∧ d.rd .RN_PORT_CTRL_ROLE p = 1 then d1.twinPump 64 else d1
/-- ACK. -/
def execAck (pt : Nat) (pri : Bool) (seq : Nat) (s : State) : Host.Outcome State Fault Refusal :=
  guardUnit (decide (pt < 4)) (s.onDev (fun d => d.ackIn pt pri (seq % 4096)))

/-- The frames of a class that `sel` names are sent again; one that was sent 8 times makes the port retrain (R373). -/
def Dev.replay (d : Dev) (p : Nat) (pri : Bool) (sel : TxFrame → Bool) : Dev :=
  let l := (d.port p).tx pri
  if !d.sends p || !l.any sel then d
  else if l.any (fun f => sel f && decide (8 ≤ f.sent)) then (d.raise 0x307 p).retrainPort p
  else
    let d1 := d.upPort p (fun P =>
      let P1 := P.setTx pri (l.map (fun f => if sel f then { f with at_ := d.now, sent := f.sent + 1 } else f))
      if pri then { P1 with out := stripe (d.width p) ((l.filter sel).flatMap (fun f => frameBlocks true f.seq (f.pkts.flatMap SpanPkt.blocks))) }
      else P1)
    ((d1.count .RN_PORT_STATUS_REPLAYS p (l.filter sel).length).tally 0x51 p (l.filter sel).length).raise 0x300 p
/-- NAK. -/
def execNak (pt : Nat) (pri : Bool) (seq : Nat) (s : State) : Host.Outcome State Fault Refusal :=
  guardUnit (decide (pt < 4)) (s.onDev (fun d => if d.lstate pt = Lst.UP then (d.thawOne pt).replay pt pri (fun f => seqFrom f.seq (seq % 4096)) else d))
/-- REPLAY_TIMEOUT. -/
def execReplayTimeout (pt : Nat) (s : State) : Host.Outcome State Fault Refusal :=
  guardUnit (decide (pt < 4)) (s.onDev (fun d =>
    (d.replay pt true (fun f => decide (f.at_ + us 8 ≤ d.now))).replay pt false (fun f => decide (f.at_ + us 8 ≤ d.now))))

/-! ## Time exchange (R380 to R382) -/

/-- An exchange of port `p` is rejected. -/
def Dev.exReject (d : Dev) (p : Nat) : Dev :=
  ((d.count .RN_PORT_PEER_REJECTS p 1).raise 0x306 p).upPort p (fun P => { P with t1 := none })

/-- A stamp: Bedrock time in whole 16 ticks. -/
def Dev.stamp16 (d : Dev) : Nat := d.bed / 16 * 16

/-- The transmit (0) or receive (1) delay of port `p` in service: Strop's result for the band, else Subsoil's value (R381, R429). -/
def Dev.rnDelay (d : Dev) (p dir : Nat) : Int :=
  let b := d.rd .KL_BAND_REGION 5
  match tget (fun _ => none) (d.calUnit 3 p).res (16 * b) with
  | some r => r.vals.getD dir 0
  | none => Config.subsoil 3 p dir b + (d.calUnit 3 p).off.getD dir 0

/-- A TIME block of SUB `sub` (R380). -/
def timeBlock (sub v : Nat) : Nat := ctlBlock Blk.TIME (sub * 2 ^ 52 + v % 2 ^ 52)

/-- The DLY block of port `p`. -/
def Dev.dlyBlock (d : Dev) (p : Nat) : Nat :=
  timeBlock 5 (unsgn 26 (d.rnDelay p 0) * 2 ^ 26 + unsgn 26 (d.rnDelay p 1))

/-- TIME_EXCHANGE_START: every 16 µs; an exchange still open then lacks a block. -/
def Dev.exStart (d : Dev) (p : Nat) : Dev :=
  let due : Bool := match (d.port p).exAt with
    | some t => decide (t + us 16 ≤ d.now)
    | none => true
  if d.lstate p = Lst.UP ∧ d.on .RN_PORT_CTRL_UPSTREAM p ∧ due then
    (if (d.port p).t1.isSome then d.exReject p else d).upPort p
      (fun P => { P with ex := (P.ex + 1) % 256, t1 := some d.stamp16, exAt := some d.now, out := timeSlots (d.width p) [timeBlock 0 ((P.ex + 1) % 256), d.dlyBlock p] })
  else d
/-- TIME_EXCHANGE_START. -/
def execTimeExchangeStart (pt : Nat) (s : State) : Host.Outcome State Fault Refusal :=
  guardUnit (decide (pt < 4)) (s.onDev (fun d => d.exStart pt))

/-- TREQ: the answer's turn t₃ − t₂ is an open value. -/
def Dev.treqIn (d : Dev) (p n : Nat) : Dev :=
  if d.lstate p ≠ Lst.UP then d
  else
    let t2 := d.stamp16
    let d := d.thaw (4 * p)
    let turn := d.openVal 32 / 16 * 16
    (d.upPort p (fun P => { P with answered := some (n, t2, t2 + turn), out := timeSlots (d.width p) [timeBlock 1 n, timeBlock 2 t2, timeBlock 3 (t2 / 2 ^ 52 % 2 ^ 26), timeBlock 4 turn, d.dlyBlock p] })).took
/-- TREQ. -/
def execTreq (pt n : Nat) (s : State) : Host.Outcome State Fault Refusal :=
  guardUnit (decide (pt < 4)) (s.onDev (fun d => d.treqIn pt (n % 256)))

/-- The lowest port with UPSTREAM serves the servo (R382). -/
def Dev.servoPort (d : Dev) : Option Nat := (List.range 4).find? (d.on .RN_PORT_CTRL_UPSTREAM)

/-- The mean of the round trips kept. -/
def meanOf (l : List Int) : Rat := if l = [] then 0 else (l.sum : Rat) / l.length

/-- An exchange of port `p` is accepted with round trip `rt`, ASYM `asym` and error `e` in ticks. -/
def Dev.exAccept (d : Dev) (p : Nat) (rt asym : Int) (e : Rat) : Dev :=
  let rts := (rt :: (d.port p).rts).take 16
  let d1 := d.upPort p (fun P => { P with t1 := none, rts := rts, accepts := P.accepts + 1 })
  let th := clampInt (-(2 ^ 31)) (2 ^ 31 - 1) (ratRound e)
  let d2 := ((d1.wr .RN_PORT_TIME_THETA p (unsgn 32 th)).wr .RN_PORT_TIME_DELAY p (ratRound (meanOf rts / 2)).toNat).wr .RN_PORT_PEER_ASYM p (unsgn 32 asym)
  if d.rd .BR_CTRL_MODE 0 = 2 ∧ d.servoPort = some p then
    let tau : Rat := (max 1 (d.rd .RN_PORT_TIMECAL_TAU_MS p) : Nat) / 1000
    d2.discipline (e / cycleTicks) (1000 / tau) (250 * (16 / 1000000) / (tau * tau))
  else d2

/-- TIME_EXCHANGE_COMPLETE; the arrival `t4` is stamped to 16 ticks. -/
def Dev.exDone (d : Dev) (p n t2 turn dly t4 : Nat) (intact : Bool) : Dev :=
  let P := d.port p
  let t4 := t4 / 16 * 16
  if d.lstate p ≠ Lst.UP ∨ n ≠ P.ex then d
  else let d := d.thaw (4 * p); match P.t1 with
    | none => d
    | some t1 =>
      if !intact then d.exReject p
      else
        let asym : Int := ((bits dly 26 26 : Int) + d.rnDelay p 1) - (d.rnDelay p 0 + (bits dly 0 26 : Int)) +
          sgn 16 (d.rd .RN_PORT_TIMECAL_BOARD_ASYM p)
        let t3 := t2 + turn
        let rt : Int := ((t4 : Int) - t1) - turn
        let e : Rat := ((((t1 : Int) - t2) + ((t4 : Int) - t3) - asym : Int) : Rat) / 2
        let off := (rt : Rat) - meanOf P.rts
        if 16 ≤ P.accepts ∧ ((ns 2 : Rat) < off ∨ off < -(ns 2 : Rat)) then d.exReject p
        else d.exAccept p rt asym e
/-- TIME_EXCHANGE_COMPLETE. -/
def execTimeExchangeComplete (pt n t2 turn dly t4 : Nat) (intact : Bool) (s : State) : Host.Outcome State Fault Refusal :=
  guardUnit (decide (pt < 4)) (s.onDev (fun d => d.exDone pt (n % 256) t2 turn dly t4 intact))

/-! ## FAULT (R389) -/

/-- FAULT blocks in place of IDLE. -/
def Dev.faultIn (d : Dev) (p : Nat) : Dev :=
  let d := if d.lstate p = Lst.UP then (List.range (d.width p)).foldl (fun d i => d.thaw (4 * p + i)) d else d
  if d.lstate p ≠ Lst.UP ∨ d.on .RN_PORT_STATUS_PEER_FAULT_NOW p then d
  else (((d.set1 .RN_PORT_STATUS_PEER_FAULT p).set1 .RN_PORT_STATUS_PEER_FAULT_NOW p).raise 0x305 p).haltSpans
/-- FAULT. -/
def execFaultBlock (pt : Nat) (s : State) : Host.Outcome State Fault Refusal :=
  guardUnit (decide (pt < 4)) (s.onDev (fun d => d.faultIn pt))
/-- PEER_FAULT_CLEAR. -/
def execPeerFaultClear (pt : Nat) (s : State) : Host.Outcome State Fault Refusal :=
  guardUnit (decide (pt < 4)) (s.onDev (fun d => if d.lstate pt = Lst.UP then d.clr .RN_PORT_STATUS_PEER_FAULT_NOW pt else d))

end Sys2Proof.Machine
end

