-- ==== Sys2Proof/Machine/Twin.lean ====
section
/-!
DEFINITION. Twin pairs (R390 to R406): roles, heartbeat and lease, mirroring on the standby, notices, takeover, sync; and
TWIN_CHECKPOINT and COMPLETION_REPORT.
-/
namespace Sys2Proof.Machine

/-- Twin pairing changed by `f`. -/
def Dev.upTw (d : Dev) (f : Tw → Tw) : Dev := { d with tw := f d.tw }

/-- The twin port is UP with ROLE TWIN. -/
def Dev.twinUp (d : Dev) : Bool := d.lstate d.twinPort == Lst.UP && d.rd .RN_PORT_CTRL_ROLE d.twinPort == 1

/-! ## Roles (R393, R394, R400) -/

/-- Every entry whose notice was sent counts as acknowledged, and the mirror queue is gone (R400). -/
def Dev.stopWaiting (d : Dev) : Dev :=
  ({ d with tracker := d.tracker.map (fun x => { x with acked := x.acked || x.noticed }) } : Dev).upTw (fun T => { T with queue := [] })

/-- A primary becomes SOLO. -/
def Dev.soloFrom (d : Dev) : Dev := d.stopWaiting.roleTo 5

/-- A write of `v` to TW_CTRL; EN counts as running while a site runs or the role is SYNCING (R395). -/
def Dev.twCtrl (d : Dev) (v : Nat) : Dev :=
  let d1 := d.writeReg (regAt .tw .TW_CTRL 0 0) .whole v (d.anyRunning || d.role == 2)
  if d1.on .TW_CTRL_EN 0 = d.on .TW_CTRL_EN 0 then d1
  else if d1.on .TW_CTRL_EN 0 then d1.roleTo 1
  else (if d.role = 3 then d1.stopWaiting else d1).roleTo 0

/-- CS_IMAGE and CS_DIGEST of this part. -/
def Dev.imageOf (d : Dev) : Nat := d.regWord (regAt .cs .CS_IMAGE 0 0)
def Dev.digestOf (d : Dev) : Nat := ((List.range 6).map (fun k => d.rd .CS_DIGEST_D k * 2 ^ (64 * k))).sum

/-- The digests of the pair differ. -/
def Dev.mismatch (d : Dev) : Dev := (d.set1 .TW_STATUS_DIGEST_MISMATCH 0).raise 0x343 0

/-- The context of a ring as the window would hold it for STORE, and its indices as one number. -/
def Ring.winOf (R : Ring) : Nat :=
  R.sqBase * 2 ^ 12 + R.sqLog + R.cqBase * 2 ^ 76 + R.cqLog * 2 ^ 64 + R.holdoff * 2 ^ 180 + R.window * 2 ^ 164 + R.weight * 2 ^ 160 +
    R.cls * 2 ^ 156 + R.vector * 2 ^ 144 + R.cq * 2 ^ 128 + R.restart * 2 ^ 192
def Ring.idxOf (R : Ring) : Nat :=
  R.tail + R.head * 2 ^ 20 + R.cqTail * 2 ^ 40 + b2n R.phase * 2 ^ 60 + b2n R.cqOn * 2 ^ 61 + R.state * 2 ^ 62 + R.unread * 2 ^ 64 + R.fetch * 2 ^ 85

/-- The primary begins the sync copy (R406): every ring context and token, and the HBM range. -/
def Dev.sendSync (d : Dev) : Dev :=
  let ctx := d.rings.map (fun x => (⟨9, x.1, x.2.winOf, x.2.idxOf⟩ : Mirror))
  let tok := ((List.range 4096).filter (fun t => d.rd .RG_TOKEN_VALUE t != 0)).map (fun t => (⟨12, t, d.rd .RG_TOKEN_VALUE t, 0⟩ : Mirror))
  let hbm := [(⟨11, d.rd .TW_SYNC_BASE_ADDR 0 * 1024, d.rd .TW_SYNC_LEN_LEN 0 * 1024, 0⟩ : Mirror)]
  (ctx ++ tok ++ hbm).foldl (fun d q => d.twinSend q) (d.wr .TW_SYNC_DONE_BYTES 0 0)

/-- PAIRING (R394). -/
def Dev.pairing (m : Mems) (d : Dev) (peerImage peerDigest peerSerial : Nat) (peerPrefer peerSolo : Bool) : Dev :=
  if !(d.role == 1 || d.role == 5) || !d.twinUp then d
  else if peerImage ≠ d.imageOf ∨ peerDigest ≠ d.digestOf then d.mismatch
  else
    let mine := d.on .TW_CTRL_PREFER 0
    let serial := ofBytes (readMem otpByte m.otp 0 16)
    let first : Bool :=
      if d.role = 5 then true else if peerSolo then false
      else if mine != peerPrefer then !mine else decide (serial < peerSerial)
    if first then (d.roleTo 3).sendSync else (d.roleTo 2).wr .TW_SYNC_DONE_BYTES 0 0
/-- PAIRING. -/
def execPairing (peerImage peerDigest peerSerial : Nat) (peerPrefer peerSolo : Bool) (s : State) : Host.Outcome State Fault Refusal :=
  guardUnit true (s.onDevM (fun m d => Dev.pairing m d peerImage peerDigest peerSerial peerPrefer peerSolo))

/-- SEEK_TIMEOUT. -/
def Dev.seekTimeout (d : Dev) : Dev :=
  if d.role = 1 ∧ !d.twinUp ∧ d.tw.seekAt + ms (d.rd .TW_LEASE_SEEK_MS 0) ≤ d.now then
    d.roleTo (if d.on .TW_STATUS_PEER_OWN 0 then 6 else 5)
  else d
/-- SEEK_TIMEOUT. -/
def execSeekTimeout (s : State) : Host.Outcome State Fault Refusal := guardUnit true (s.onDev (Dev.core (fun d => d.seekTimeout)))

/-- TWIN_PEER_L becomes asserted (R393). -/
def Dev.peerAsserted (d : Dev) : Dev :=
  let d1 := (d.set1 .TW_STATUS_PEER_OWN 0).upTw (fun T => { T with peerOnAt := d.now })
  if d.on .TW_STATUS_OWN 0 then
    (((List.range 64).foldl (fun d n => d.abortSite n 3 true) (d1.own false)).raise 0x344 0 |>.set1 .TW_STATUS_CONTENTION 0).stopWaiting.roleTo 6
  else d1
/-- TWIN_PEER_ASSERTED. -/
def execTwinPeerAsserted (s : State) : Host.Outcome State Fault Refusal := guardUnit true (s.onDev (fun d => d.peerAsserted))
/-- TWIN_PEER_L_DEASSERTION. -/
def execTwinPeerDeassertion (s : State) : Host.Outcome State Fault Refusal :=
  guardUnit true (s.onDev (fun d => ((d.clr .TW_STATUS_PEER_OWN 0).upTw (fun T => { T with peerOffAt := d.now })).seekAgain))

/-! ## Heartbeat and lease (R392, R396, R397, R402) -/

/-- HEARTBEAT: every HB_US in a paired or owning role; it renews the lease. -/
def Dev.heartbeat (d : Dev) : Dev :=
  if !(d.role == 2 || d.role == 3 || d.role == 4 || d.role == 5) || d.isSafe || decide (d.now < d.tw.hbAt + d.hbTicks) then d
  else
    let d1 := if d.twinUp then d.twinSend ⟨5, 0, 0, 0⟩ else d
    d1.upTw (fun T => { T with hbAt := d.now, lease := if d.on .TW_STATUS_OWN 0 then d.now + d.leaseTicks else T.lease })
/-- HEARTBEAT. -/
def execHeartbeat (s : State) : Host.Outcome State Fault Refusal := guardUnit true (s.onDev (Dev.core (fun d => d.heartbeat)))

/-- The peer's heartbeat is lost: no frame for MISS intervals, FAULT, or, on a primary, a port not UP. -/
def Dev.heartbeatGone (d : Dev) : Bool :=
  decide (d.tw.rxAt + max 1 (d.rd .TW_TIMING_MISS 0) * d.hbTicks ≤ d.now) || d.on .RN_PORT_STATUS_PEER_FAULT_NOW d.twinPort ||
    (d.role == 3 && !d.twinUp)

/-- HEARTBEAT_LOSS. -/
def Dev.heartbeatLoss (d : Dev) : Dev :=
  if !d.heartbeatGone then d
  else if d.role = 3 then (d.set1 .TW_STATUS_PEER_LOST 0).soloFrom
  else if d.role = 4 ∧ d.tw.lostAt.isNone then (d.set1 .TW_STATUS_PEER_LOST 0).upTw (fun T => { T with lostAt := some d.now })
  else if d.role = 2 then d.set1 .TW_STATUS_PEER_LOST 0
  else d
/-- HEARTBEAT_LOSS. -/
def execHeartbeatLoss (s : State) : Host.Outcome State Fault Refusal := guardUnit true (s.onDev (Dev.core (fun d => d.heartbeatLoss)))

/-- PEER_WAIT_TIMEOUT. -/
def Dev.peerWait (d : Dev) : Dev :=
  match d.tw.lostAt with
  | some t =>
    if d.role = 4 ∧ d.on .TW_STATUS_PEER_OWN 0 ∧ t + d.leaseTicks + us 50 ≤ d.now then (d.raise 0x340 0).roleTo 6 else d
  | none => d
/-- PEER_WAIT_TIMEOUT. -/
def execPeerWaitTimeout (s : State) : Host.Outcome State Fault Refusal := guardUnit true (s.onDev (Dev.core (fun d => d.peerWait)))

/-- LEASE_EXPIRY: safe state follows with FATAL source 0x345. -/
def Dev.leaseEnd (d : Dev) : Dev :=
  if d.on .TW_STATUS_OWN 0 ∧ d.tw.lease ≤ d.now then (d.own false).raise 0x345 0 else d
/-- LEASE_EXPIRY. -/
def execLeaseExpiry (s : State) : Host.Outcome State Fault Refusal := guardUnit true (s.onDev (Dev.core (fun d => d.leaseEnd)))

/-! ## Mirroring on the standby (R396 to R399, R406) -/

/-- The next index that ring `r` expects to be mirrored. -/
def Dev.nextMirror (d : Dev) (r : Nat) : Nat :=
  match tget (fun _ => 0) d.tw.next r with
  | 0 => (d.ring r).fetch
  | n + 1 => n

/-- Descriptor `idx` of ring `r` was dispatched by the primary: those skipped before it stand as gaps; its own bytes, or a gap. -/
def Dev.pushMirror (d : Dev) (r idx : Nat) (desc : Option Nat) : Dev :=
  let R := d.ring r
  let size := 2 ^ R.sqLog
  let n := (idx + size - d.nextMirror r) % size
  let gaps := (List.range n).map (fun k => ((d.nextMirror r + k) % size, (none : Option Nat)))
  (d.upRing r (fun R => { R with descs := R.descs ++ gaps ++ [(idx, desc)] })).upTw
    (fun T => { T with next := tset (fun _ => 0) T.next r ((idx + 1) % size + 1) })

/-- The pair compares its digests after a mirrored reload, when both have theirs (R394). -/
def Dev.compareDigests (d : Dev) : Dev :=
  match d.tw.peerDig with
  | some (i, g) =>
    if !d.tw.reloaded then d
    else
      let d1 := d.upTw (fun T => { T with peerDig := none, reloaded := false })
      if i = d.imageOf ∧ g = d.digestOf then d1
      else if d.role = 3 then d1.mismatch.soloFrom
      else if d.follows then d1.mismatch.roleTo 1 else d1
  | none => d

/-- A ring context of the sync copy: its window and its indices. -/
def Ring.synced (R : Ring) (w idx : Nat) : Ring :=
  { R.store w with tail := bits idx 0 20, head := bits idx 20 20, cqTail := bits idx 40 20, phase := bitAt idx 60, cqOn := bitAt idx 61
                   state := bits idx 62 2, unread := bits idx 64 21, fetch := bits idx 85 20 }

/-- A frame of twin traffic on a follower. -/
def Dev.mirrorTake (d : Dev) (kind a b c : Nat) : List Put × Dev :=
  match kind with
  | 0 => ([], d.takeTail (a % 65536) b)
  | 1 => ([], d.takeHead (a % 65536) b)
  | 2 => ([], d.ctxDo (a % 65536) b c)
  | 3 => ([], d.putToken (a % 4096) b)
  | 4 => ([], d.pushMirror (a % 65536) b (some (c % 2 ^ 512)))
  | 8 =>
    let r := a % 65536
    ([], (d.upRing r (fun C => { C with cqTail := (C.slotAt 1).1, phase := (C.slotAt 1).2, unread := C.unread + 1 })).upTw
      (fun T => { T with acked := T.acked.filter (fun x => !(x.1 == r && x.2.1 == b)) }))
  | 9 => ([], d.upRing (a % 65536) (fun R => R.synced b c))
  | 11 =>
    if d.hbmOk a b then ([.hbm a (bytesOf b c)], d.wr .TW_SYNC_DONE_BYTES 0 (d.rd .TW_SYNC_DONE_BYTES 0 + b)) else ([], d)
  | 12 => ([], d.wr .RG_TOKEN_VALUE (a % 4096) (b % 2 ^ 32))
  | _ => ([], d)

/-- MIRROR_FRAME. -/
def Dev.mirrorFrame (d : Dev) (kind a b c : Nat) : List Put × Dev :=
  if !d.twinUp then ([], d)
  else
    let d0 := d.upTw (fun T => { T with rxAt := d.now })
    if kind = 10 then ([], (d0.upTw (fun T => { T with peerDig := some (a, b) })).compareDigests)
    else if d.follows then d0.mirrorTake kind a b c
    else ([], d0)
/-- MIRROR_FRAME. -/
def execMirrorFrame (kind a b c : Nat) (s : State) : Host.Outcome State Fault Refusal :=
  guardUnit true (s.onMem (fun _ d => d.mirrorFrame kind a b c))

/-- The standby acknowledges the notice of `idx` of ring `r`, of which it may hold an entry. -/
def Dev.notice (d : Dev) (r idx slot record : Nat) : Dev :=
  let c := (d.ring r).cq
  let known := d.tracker.any (fun x => x.ring == r && x.idx == idx) || (d.ring r).descs.any (fun x => x.1 == idx)
  let d1 := if known then d else d.pushMirror r idx none
  let desc := match d1.tracker.find? (fun x => x.ring == r && x.idx == idx) with
    | some x => some x.desc
    | none => (((d1.ring r).descs.find? (fun x => x.1 == idx)).bind (·.2))
  let d2 := match desc with
    | some w => if descFlag w 2 then d1.notifyToken (descNtoken w) else d1
    | none => d1
  let d3 := (d2.upTw (fun T => { T with rxAt := d.now, acked := T.acked ++ [(c, slot, record)], notes := T.notes ++ [(r, idx, record)] })).twinSend ⟨7, r, idx, 0⟩
  match d3.tracker.find? (fun x => x.ring == r && x.idx == idx) with
  | some x => d3.standbyFree x.id
  | none => d3
/-- COMPLETION_NOTICE. -/
def execCompletionNotice (ring idx slot record : Nat) (s : State) : Host.Outcome State Fault Refusal :=
  guardUnit (decide (ring < 65536)) (s.onDev (fun d => if d.follows ∧ d.twinUp then d.notice ring idx slot (record % 2 ^ 256) else d))

/-- NOTICE_ACK. -/
def execNoticeAck (e : Nat) (s : State) : Host.Outcome State Fault Refusal :=
  guardUnit true (s.onDev (fun d => if d.role = 3 ∧ d.twinUp then
    ((d.upEntry e (fun x => { x with acked := x.acked || x.noticed })).upTw (fun T => { T with rxAt := d.now })) else d))

/-- SYNC_COMPLETE. -/
def execSyncComplete (s : State) : Host.Outcome State Fault Refusal :=
  guardUnit true (s.onDev (fun d => if d.role = 2 then d.roleTo 4 else d))

/-! ## Takeover (R402 to R404) -/

/-- An acknowledged record not reported visible is written again to its slot, and the completion tail passes it (R403). -/
def Dev.rewrite (d : Dev) : List (Nat × Nat × Nat) → List Put → List Put × Dev
  | [], ps => (ps, d)
  | (c, slot, rec_) :: t, ps =>
    let C := d.ring c
    Dev.rewrite (d.upRing c (fun C => { C with cqTail := (C.slotAt 1).1, phase := (C.slotAt 1).2, unread := C.unread + 1 })) t
      (ps ++ [.host (C.cqBase * 4096 + 32 * slot) (bytesOf 32 rec_) false])

/-- The mirrored descriptors of ring `r` that wait take entries (R404): those not executed complete with TAKEOVER. -/
def Dev.enterAll (d : Dev) (r : Nat) : Dev :=
  (d.ring r).descs.foldl (fun d x =>
    let a := (d.popDesc r x.1).enter r x.1 (x.2.getD 0)
    match x.2 with
    | some desc => if standbyRuns (descOp desc) ∧ !badDesc desc then a.2 else a.2.finish a.1.id Status.TAKEOVER 0
    | none => (a.2.finish a.1.id Status.TAKEOVER 0).upEntry a.1.id (fun y => { y with gap := true })) d

/-- The descriptors that were not mirrored are read from the host: each gap takes the next, an open one where none is left. -/
def Dev.fillGaps (d : Dev) (skipped : List Nat) : Dev :=
  let gaps := d.tracker.filter (·.gap)
  ((gaps.zip (skipped.map some ++ List.replicate gaps.length none)).foldl (fun (d : Dev) x =>
    match x.2 with
    | some w => d.upEntry x.1.id (fun y => { y with desc := w % 2 ^ 512, gap := false })
    | none => (d.upEntry x.1.id (fun y => { y with desc := d.openVal 32 * 2 ^ 32, gap := false })).took) d)

/-- The standby becomes PRIMARY and does steps 2 to 5 of R403. -/
def Dev.takeOver (d : Dev) (skipped : List Nat) : List Put × Dev :=
  let acked := d.tw.acked
  let d1 := ((d.rings.map (·.1)).foldl (fun d r => d.enterAll r) d).roleTo 3
  let d2 := (((d1.count .TW_STATUS_TAKEOVERS 0 1).set1 .TW_STATUS_TOOK_OVER 0).raise 0x341 0)
  let d3 := d2.oweFault 5 0x341 (d2.rd .TW_STATUS_TAKEOVERS 0 * 2 ^ 224 + acked.length * 2 ^ 192)
  let a := d3.rewrite acked []
  let d4 := (a.2.fillGaps skipped).upTw (fun T => { T with acked := [], notes := T.notes.filter (fun y => d3.tracker.any (fun x => x.ring == y.1 && x.idx == y.2.1)) })
  let d5 := d4.rings.foldl (fun (d : Dev) x => d.upRing x.1 (fun R =>
    { R with fetch := d4.nextMirror x.1, descs := [], order := some 0, orderTo := some d4.nextId })) d4
  let d6 := (d5.tracker.map (·.id)).foldl (fun (d : Dev) e => d.standbyFree e) (d5.upTw (fun T => { T with next := [] }))
  let q := d6.request (d6.rd .TW_CTRL_VECTOR 0) 0
  (a.1 ++ q.1, q.2)

/-- TAKEOVER: ownership first, the rest when the board has switched (R403). -/
def Dev.takeoverStep (d : Dev) (skipped : List Nat) : List Put × Dev :=
  if d.role ≠ 4 ∨ d.tw.lostAt.isNone ∨ d.on .TW_STATUS_PEER_OWN 0 ∨ d.now < d.tw.peerOffAt + us 10 then ([], d)
  else match d.tw.ownAt with
    | none => ([], (d.own true).upTw (fun T => { T with ownAt := some d.now }))
    | some t => if t + us (d.rd .TW_TIMING_SWITCH_US 0) ≤ d.now then d.takeOver skipped else ([], d)
/-- TAKEOVER. -/
def execTakeover (skipped : List Nat) (s : State) : Host.Outcome State Fault Refusal :=
  guardUnit true (s.onMem (fun _ d => d.takeoverStep skipped))

/-! ## TWIN_CHECKPOINT and COMPLETION_REPORT (R399, R401) -/

/-- TWIN_CHECKPOINT: on a primary it waits for the acknowledgement of every earlier mirrored descriptor of its ring. -/
def Dev.checkpoint (d : Dev) (e : Nat) : Dev :=
  match d.open? e 0x60 with
  | none => d
  | some x =>
    if d.role = 3 ∧ (d.entriesOf x.ring).any (fun y => decide (y.id < e) && y.mirrored && !y.acked) then d.start e
    else (d.finish e Status.OK (descField x.desc 8 0 32 * 2 ^ 96 + d.tw.since % 2 ^ 32 * 2 ^ 64 + d.rd .TW_STATUS_DIVERGE 0 * 2 ^ 48 + d.role)).upTw
      (fun T => { T with since := 0 })
/-- TWIN_CHECKPOINT. -/
def execTwinCheckpoint (e : Nat) (s : State) : Host.Outcome State Fault Refusal :=
  guardUnit true (s.onDev (fun d => d.checkpoint e))

/-- A reload that both parts of a pair make has completed here: the digests go to the peer (R394). -/
def Dev.reloadDone (d : Dev) (e : Nat) : Dev :=
  match d.entry? e with
  | some x =>
    if descOp x.desc = 0x50 ∧ x.done ∧ !x.reported ∧ ((d.role = 3 ∧ x.mirrored) ∨ d.follows) then
      ((d.upTw (fun T => { T with reloaded := true })).twinSend ⟨10, d.imageOf, d.digestOf, 0⟩).compareDigests
    else d
  | none => d
/-- COMPLETION_REPORT. -/
def execCompletionReport (e : Nat) (s : State) : Host.Outcome State Fault Refusal :=
  guardUnit true (s.onDev (fun d => if d.unseen (Requester.ofEntry e) then d else (d.reloadDone e).completionReport e))

end Sys2Proof.Machine
end

