-- ==== Sys2Proof/Machine/Strop.lean ====
section
/-!
DEFINITION. Strop (R427 to R442): units, steps and their acceptance, states, trims that pend, forced windows, CAL_REQUEST and CAL_REPORT.
-/
namespace Sys2Proof.Machine

/-! ## Units (R429, R430, R438) -/

/-- The number of units of a kind, 0 for a reserved kind. -/
def calUnits (k : Nat) : Nat :=
  if k = 0 ∨ k = 2 then 256 else if k = 1 ∨ k = 5 then 512 else if k = 3 then 4 else if k = 4 then 8 else 0
/-- The converters of a kind that its state needs. -/
def calConvs (k : Nat) : Nat := match k with | 0 => 4 | 2 => 2 | _ => 1
/-- The converters of a kind with the two pad steps of EDGE (R434). -/
def calSteps (k : Nat) : Nat := if k = 0 then 6 else calConvs k

/-- The kept results of every converter for band `b`. -/
def CalUnit.ofBand (U : CalUnit) (k b : Nat) : List (Option CalRes) := (List.range (calConvs k)).map (U.at_ b)

/-- MAX_AGE_H in ticks. -/
def Dev.maxAge (d : Dev) : Nat := secs (3600 * max 1 (d.rd .SP_CTRL_MAX_AGE_H 0))
/-- A result is older than MAX_AGE_H. -/
def Dev.tooOld (d : Dev) (r : CalRes) : Bool := decide (r.t + d.maxAge < d.bed)

/-- INIT, VALID or AGED by the results of the present band. -/
def Dev.calJudge (d : Dev) (k u : Nat) : Nat :=
  let l := (d.calUnit k u).ofBand k (d.calBandOf k u)
  if l.any (·.isNone) then 0 else if l.any (fun r => (r.map d.tooOld).getD false) then 2 else 1

/-- A unit enters a state: the registers show it, and how long it is INIT or AGED is counted. -/
def Dev.setCal (d : Dev) (k u st : Nat) : Dev :=
  let old := (d.calUnit k u).state
  let d1 := d.upCal k u (fun U =>
    { U with state := st, since := if (st = 0 ∨ st = 2) ∧ !(old = 0 ∨ old = 2) then d.now else U.since, tried := false
             triedAt := if st = 4 ∧ old ≠ 4 then d.now else U.triedAt })
  let d2 := match k with
    | 0 => d1.wr .PIN_CAL_STATUS_EDGE u st
    | 1 => d1.wr (inpFld .PIN_CAL_STATUS_TDC_CH .PIN_CAL_STATUS_TDC_CL u) (u / 2) st
    | 2 => d1.wr .PIN_CAL_STATUS_COMP u st
    | 3 => d1.wr .SP_AUX_REIN u st
    | 4 => d1.wr .SP_AUX_WAVE u st
    | _ => d1
  d2.wr .SP_STATUS_OUT 0 (d2.rd .SP_STATUS_OUT 0 + b2n (st == 4 && old != 4) - b2n (st != 4 && old == 4))

/-- Input `i`'s delay line is out of service or back (R237). -/
def Dev.lineOut (d : Dev) (i : Nat) (out : Bool) : Dev :=
  ({ d with tmu := { d.tmu with out := if out then i :: d.tmu.out.filter (· != i) else d.tmu.out.filter (· != i) } } : Dev).route i

/-! ## Trims (R186, R187, R427, R430, R434, R439) -/

/-- The pad term of converter `c` of pin `u` for band `b`; DE takes DD's with Subsoil offsets (R434). -/
def Dev.padTerm (d : Dev) (u c b : Nat) : Int :=
  match (d.calUnit 0 u).at_ b (4 + c % 2) with
  | some r => r.vals.getD 0 0 + (if 2 ≤ c ∧ c < 4 then Config.subsoil 6 u c b else 0)
  | none => 0

/-- The trim code of R427 before it is limited. -/
def Dev.trimCode (_d : Dev) (k u c b : Nat) (L P : Int) : Int := (Config.subsoil k u c b + P + L + 1) / 2

/-- The L and P that Strop holds for converter `c` of unit `u` of kind `k` (0 EDGE, 2 COMP) in band `b`: of its accepted result, else of the band just
left (R430). -/
def Dev.liveTerms (d : Dev) (k u c b : Nat) : Int × Int :=
  let U := d.calUnit k u
  match U.at_ b c with
  | some r => (r.vals.getD 0 0, if k = 0 then d.padTerm u c b else 0)
  | none => (U.off.getD c 0, if k = 0 then U.off.getD (4 + c) 0 else 0)

/-- The codes of pin `p`'s trim converters for band `b`: DD_R, DD_F, DE_ON, DE_OFF, STB_H, STB_L (R427). -/
def Dev.codesFor (d : Dev) (p b : Nat) : List Int :=
  let code := fun (k c : Nat) => let t := d.liveTerms k p c b; clampInt (-2048) 2047 (d.trimCode k p c b t.1 t.2)
  (List.range 4).map (code 0) ++ (List.range 2).map (code 2)

/-- What a unit of kind 0 or 2 carries over as it leaves band `b`: its L, and for EDGE its P (R430). -/
def Dev.carryOver (d : Dev) (k u b : Nat) : List Int :=
  let l := (List.range (if k = 0 then 4 else 2)).map (fun c => d.liveTerms k u c b)
  l.map (·.1) ++ (if k = 0 then l.map (·.2) else [])

/-- Strop holds the trims of band `b` for pin `p`; `new`: with an accepted result. They are pending while `b` is not the band that the converters
carry, or the result awaits a seam (R187, R439); a pin whose site does not count as running takes them at once (R190). -/
def Dev.trimsPend (d : Dev) (p b : Nat) (new : Bool) : Dev :=
  let P := d.pin p
  let owed := new || P.trimOwed
  let d1 := d.upPin p (fun P => { P with trimNew := d.codesFor p b, trimOwed := owed })
  if b = d.rd .PIN_TF_STATUS_BAND p ∧ !owed then (d1.clr .PIN_TF_STATUS_TRIM_PENDING p).upPin p (fun P => { P with trimBand := none })
  else
    let d2 := (d1.set1 .PIN_TF_STATUS_TRIM_PENDING p).upPin p (fun P => { P with trimBand := some b })
    if d.pinRunning p then d2 else d2.takeTrims p

/-- The effective placement of event `c` of pin `p` (0 DD rising to 3 DE off, 4 CH to 5 CL strobe) that is placed digitally at `x`: with the 2 ticks
per step of its trim converter (R186, R427). -/
def Dev.placedAt (d : Dev) (p c : Nat) (x : Int) : Int := x + 2 * (d.pin p).trims.getD c 0

/-- The trims that boot forms for pin `p` (R428, R472). -/
def Dev.firstTrims (d : Dev) (p : Nat) : Dev :=
  let b := d.calBandOf 0 p
  (d.wr .PIN_TF_STATUS_BAND p b).upPin p (fun P => { P with trims := d.codesFor p b, trimNew := d.codesFor p b })

/-! ## Bands (R416, R430) -/

/-- Unit `u` of kind `k` has entered band `b` from `b0`. -/
def Dev.unitBand (d : Dev) (k u b0 : Nat) : Dev :=
  let d1 := if k = 1 ∨ k = 5 then d.upCal k u (fun U => { U with res := [] })
    else if k = 0 ∨ k = 2 then d.upCal k u (fun U => { U with off := d.carryOver k u b0 })
    else if k = 3 ∨ k = 4 then d.upCal k u (fun U =>
      match U.at_ b0 0 with
      | some r => { U with res := [], off := (List.range r.vals.length).map (fun i => r.vals.getD i 0 - Config.subsoil k u i b0) }
      | none => { U with res := [] })
    else d
  let d2 := if (d.calUnit k u).state = 4 then d1 else d1.setCal k u (d1.calJudge k u)
  if k = 2 then ((d2.loadTaps (2 * u)).loadTaps (2 * u + 1)).trimsPend u (d2.calBandOf k u) false else d2

/-- Region `r` has entered another band than `b0`: its units, its sites' seam clocks, its open jobs (R70, R232, R416, R430). -/
def Dev.bandEntered (d : Dev) (r b0 : Nat) : Dev :=
  if r = 5 then (List.range 4).foldl (fun d p => d.unitBand 3 p b0) d
  else if r = 4 then (List.range 8).foldl (fun d w => d.unitBand 4 w b0) d
  else
    let pins := quadPins r
    let d1 := pins.foldl (fun d p => (((d.unitBand 1 (2 * p) b0).unitBand 1 (2 * p + 1) b0).unitBand 0 p b0).unitBand 2 p b0) d
    let d2 := ((List.range 64).filter (fun n => d.siteRunning n && (d.quads n).contains r)).foldl (fun d n =>
      (d.set1 .SITE_STATUS_STALE_ACTIVE n).upSite n (fun S => { S with seamClock := some (S.seamClock.getD d.now) })) d1
    { d2 with tmu := { d2.tmu with jobs := d2.tmu.jobs.map (fun j => if j.inputs.any (fun i => i / 128 == r) then { j with stale := true } else j) } }

/-! ## Steps (R431 to R437) -/

/-- A unit is free (R431). -/
def Dev.calFree (d : Dev) (k u : Nat) : Bool :=
  match k with
  | 1 => !d.inpBusy u
  | 3 => true
  | 4 => decide (d.rd .WV_STATUS_STATE u < 2) && bitAt (d.rd .DEV_UNITS_WAVE_OK 0) u
  | 5 => !d.inpBusy u && (d.slotFree (u / 64)).isSome
  | _ => (match d.siteOf u with | some n => !d.siteRunning n | none => true) && !d.inpBusy (2 * u) && !d.inpBusy (2 * u + 1) && d.pllOk u &&
      (d.calUnit 1 (2 * u)).state == 1

/-- Strop takes a step on converter `c` of the unit: under a request, in a forced window, or in a gap when the result is missing, rejected
or due (R433, R434, R437). -/
def Dev.calWanted (d : Dev) (k u c : Nat) : Bool :=
  let U := d.calUnit k u
  if U.state = 4 then U.tried
  else if 4 ≤ c then (d.pin u).forced
  else (U.req.isSome && U.said.isNone) || (k < 3 && k != 1 && (d.pin u).forced) ||
    (d.on .SP_CTRL_EN 0 && (U.state == 3 || (match U.at_ (d.calBandOf k u) c with
      | some r => decide (r.t + secs (d.rd .SP_CTRL_PERIOD_S 0) ≤ d.bed)
      | none => true)))

/-- The magnitude of an integer. -/
def mag (i : Int) : Int := if i < 0 then -i else i

/-- The result of a step is implausible (R436). -/
def Dev.calBad (d : Dev) (k u c : Nat) (vals : List Int) (sigma : Nat) : Bool :=
  let b := d.calBandOf k u
  let U := d.calUnit k u
  let v := fun i => vals.getD i 0
  match k with
  | 1 => decide (v 1 < 4) || decide (96 < v 0) || decide (328 < mag (v 3))
  | 3 => decide (33 < sigma) || (List.range 2).any (fun i =>
      decide (1638 < mag (v i - Config.subsoil 3 u i b)) || (match U.at_ b 0 with | some r => decide (328 < mag (v i - r.vals.getD i 0)) | none => false))
  | 4 => decide (20000 < mag (v 0)) || decide (512 < mag (v 1)) || decide (20000 < mag (v 2)) || decide (1638 < mag (v 3)) || decide (512 < mag (v 4))
  | 5 => decide (328 < mag (v 0))
  | _ =>
    let pad : Bool := k == 0 && decide (4 ≤ c)
    let L := if pad then (match U.at_ b (c - 4) with | some r => r.vals.getD 0 0 | none => 0) else v 0
    let P := if pad then v 0 else if k = 0 then d.padTerm u c b else 0
    let code := d.trimCode k u (if pad then c - 4 else c) b L P
    decide ((d.rd .SP_LIMITS_DELTA_MAX 0 : Int) < mag L) || decide (code < -2048) || decide (2047 < code) || decide (d.rd .SP_LIMITS_SIGMA_MAX 0 < sigma) ||
      (U.state != 0 && !pad && (match U.at_ b c with | some r => decide ((d.rd .SP_LIMITS_STEP_MAX 0 : Int) < mag (v 0 - r.vals.getD 0 0)) | none => false))

/-- The MINOR source of a kind. -/
def calSrc (k : Nat) : Nat := match k with | 1 => 0x381 | 3 => 0x382 | 4 => 0x383 | 5 => 0x381 | _ => 0x380

/-- RETRIES. -/
def Dev.calRetries (d : Dev) : Nat := max 1 (d.rd .SP_LIMITS_RETRIES 0)

/-- The largest number of rejects in a row among a pin's units. -/
def Dev.rejRun (d : Dev) (p : Nat) : Nat :=
  max (max (d.calUnit 0 p).run (d.calUnit 2 p).run) (max (d.calUnit 1 (2 * p)).run (d.calUnit 1 (2 * p + 1)).run)

/-- The pin of a unit that has one. -/
def calPin (k u : Nat) : Option Nat := match k with | 0 => some u | 2 => some u | 1 => some (u / 2) | 5 => some (u / 2) | _ => none

/-- REJ_RUN of a unit's pin follows. -/
def Dev.showRun (d : Dev) (k u : Nat) : Dev :=
  match calPin k u with
  | some p => d.wr .PIN_CAL_STATUS_REJ_RUN p (min (d.rejRun p) 255)
  | none => d

/-- A reject of unit `u` (R437); a SELFTEST's counts for the input's TDC. -/
def Dev.calReject (d : Dev) (k0 u : Nat) : Dev :=
  let k := if k0 = 5 then 1 else k0
  let d0 := if k0 = 5 then d.upCal 5 u (fun U => { U with state := 3, rejects := U.rejects + 1, said := if U.req.isSome then some false else U.said }) else d
  let U := d0.calUnit k u
  let d1 := ((d0.upCal k u (fun U => { U with run := U.run + 1, rejects := U.rejects + 1, said := if U.req.isSome ∧ k0 ≠ 5 then some false else U.said })).count
    .SP_STATUS_REJECTS 0 1).raiseK (calSrc k0) u k0
  let d2 :=
    if U.state = 4 then d1.upCal k u (fun U => { U with tried := false })
    else if d.calRetries ≤ U.run + 1 then
      let d3 := (d1.setCal k u 4).raiseK 0x384 u k
      if k = 1 then d3.lineOut u true else d3
    else d1.setCal k u 3
  d2.showRun k u

/-- An accepted result is committed: the unit's state, the pin's trims, the return from OUT (R433, R437, R439). -/
def Dev.calCommit (d : Dev) (k u c : Nat) (r : CalRes) : Dev :=
  let b := d.calBandOf k u
  let d1 := d.upCal k u (fun U => { U with res := tset (fun _ => none) U.res (16 * b + c) (some r), off := if k = 0 ∨ k = 2 then U.off else [] })
  let d2 := if (d.calUnit k u).state = 4 then
      (let d3 := (d1.setCal k u (d1.calJudge k u)).raiseK 0x386 u k; if k = 1 then d3.lineOut u false else d3)
    else d1.setCal k u (d1.calJudge k u)
  let d4 := if k = 1 then d2.loadTaps u else if k = 2 then (d2.loadTaps (2 * u)).loadTaps (2 * u + 1) else d2
  if k = 0 ∨ k = 2 then (d4.wr .PIN_CAL_STATUS_SIGMA u (min r.sigma 255)).trimsPend u b true else d4

/-- An accepted result (R436, R441). -/
def Dev.calAccept (d : Dev) (k u c : Nat) (vals : List Int) (sigma : Nat) : Dev :=
  let U := d.calUnit k u
  let old := (U.at_ (d.calBandOf k u) c).map (fun r => (mag (vals.getD 0 0 - r.vals.getD 0 0)).toNat)
  let r : CalRes := ⟨d.bed, vals, sigma, old.getD 0⟩
  let d1 := d.upCal k u (fun U => { U with run := 0, accepts := U.accepts + 1 })
  let d2 :=
    if U.req.isSome ∧ U.said.isNone then d1.upCal k u (fun U =>
      let h := tset (fun _ => none) U.held c (some r)
      { U with held := h, said := if (List.range (calConvs k)).all (fun c => (tget (fun _ => none) h c).isSome) then some true else none })
    else d1.calCommit k u c r
  d2.showRun k u

/-! ## CAL_REQUEST (R440, R441) -/

/-- The range checks of R440. -/
def calRange (x : Entry) : Bool :=
  let (k, f, n) := calNamed x
  decide (n ≠ 0) && decide (f + n ≤ calUnits k)
/-- A unit is out of service in DEV_UNITS. -/
def Dev.calDown (d : Dev) (k u : Nat) : Bool :=
  match k with
  | 3 => !bitAt (d.rd .DEV_UNITS_REIN_OK 0) u
  | 4 => !bitAt (d.rd .DEV_UNITS_WAVE_OK 0) u
  | _ => match calPin k u with | some p => !d.octOk p | none => true

/-- The held results of a unit are committed. -/
def Dev.calTakeHeld (d : Dev) (k u : Nat) : Dev :=
  (List.range (calSteps k)).foldl (fun d c => match tget (fun _ => none) (d.calUnit k u).held c with
    | some r => d.calCommit k u c r
    | none => d) d

/-- The request in entry `e` completes when every unit has its say or is OUT. -/
def Dev.calEnd (d : Dev) (e : Nat) : Dev :=
  match d.open? e 0x48 with
  | none => d
  | some x =>
    let k := (calNamed x).1
    if !x.begun then d
    else if (calList x).all (fun u => (d.calUnit k u).said.isSome || (d.calUnit k u).state == 4) then
      let ok := (calList x).all (fun u => (d.calUnit k u).said == some true)
      let d1 := d.finish e (if ok then Status.OK else Status.CAL_REJECT) (d.calResult x)
      ((calList x).foldl (fun d u => d.calTakeHeld k u) d1).calRelease x
    else d

/-- DISCARD on one unit. -/
def Dev.calDiscard (d : Dev) (k u : Nat) : Dev :=
  let d1 := (d.upCal k u (fun U => { U with res := [], off := [], run := 0, dropped := k == 1 })).setCal k u 0
  let d2 := if k = 0 ∨ k = 2 then d1.trimsPend u (d1.calBandOf k u) true else d1
  if k = 1 then (d2.loadTaps u).lineOut u false else d2

/-- The CAL_REQUEST in entry `e`, of mode `mode`. -/
def Dev.calRequest (d : Dev) (e mode : Nat) : Dev :=
  match d.open? e 0x48 with
  | none => d
  | some x =>
    let k := (calNamed x).1
    let m := descField x.desc 8 4 2
    if x.begun then d.calEnd e
    else if m = 3 ∨ !calRange x ∨ (m = 2 ∧ k = 5) then d.finish e Status.INVALID 0
    else if m ≠ mode then d
    else if (calList x).any (d.calDown k) then d.finish e Status.UNIT_DOWN 0
    else if m = 2 then ((calList x).foldl (fun d u => d.calDiscard k u) (d.start e)).finish e Status.OK 0
    else if (calList x).any (fun u => (d.calUnit k u).req.isSome) then d
    else ((calList x).foldl (fun d u => d.upCal k u (fun U => { U with req := some e, held := [], said := none })) (d.begin_ e)).set1 .SP_STATUS_REQ_OPEN 0 |>.calEnd e
/-- CAL_REQUEST_GAPS. -/
def execCalRequestGaps (e : Nat) (s : State) : Host.Outcome State Fault Refusal := guardUnit true (s.onDev (fun d => d.calRequest e 0))
/-- CAL_REQUEST_FORCE. -/
def execCalRequestForce (e : Nat) (s : State) : Host.Outcome State Fault Refusal := guardUnit true (s.onDev (fun d => d.calRequest e 1))
/-- CAL_REQUEST_DISCARD. -/
def execCalRequestDiscard (e : Nat) (s : State) : Host.Outcome State Fault Refusal := guardUnit true (s.onDev (fun d => d.calRequest e 2))

/-- CALIBRATION_STEP. -/
def Dev.calStep (d : Dev) (k u c : Nat) (vals : List Int) (sigma : Nat) : Dev :=
  if !d.serves || d.isSafe || decide (d.rd .KL_STATUS_PSTATE 0 < 2) || decide (calSteps k ≤ c) || !d.calFree k u || !d.calWanted k u c then d
  else
    let req := (d.calUnit k u).req
    let d0 := match req with | some e => d.start e | none => d
    let d1 := if d.calBad k u c vals sigma then d0.calReject k u else d0.calAccept k u c vals sigma
    match req with | some e => d1.calEnd e | none => d1
/-- CALIBRATION_STEP. -/
def execCalibrationStep (kind unit conv : Nat) (vals : List Int) (sigma : Nat) (s : State) : Host.Outcome State Fault Refusal :=
  guardUnit (decide (unit < calUnits kind)) (s.onDev (fun d => d.calStep kind unit conv vals sigma))

/-- OUT_RETRY: an OUT unit that is free, 10 minutes after the last try. -/
def Dev.outRetry (d : Dev) (k u : Nat) : Dev :=
  let U := d.calUnit k u
  if U.state = 4 ∧ d.calFree k u ∧ U.triedAt + secs 600 ≤ d.now then d.upCal k u (fun U => { U with tried := true, triedAt := d.now }) else d
/-- OUT_RETRY. -/
def execOutRetry (kind unit : Nat) (s : State) : Host.Outcome State Fault Refusal :=
  guardUnit (decide (unit < calUnits kind)) (s.onDev (Dev.core (fun d => d.outRetry kind unit)))

/-- RESULT_AGED. -/
def Dev.resultAged (d : Dev) (k u : Nat) : Dev :=
  if (d.calUnit k u).state = 1 ∧ d.calJudge k u = 2 then d.setCal k u 2 else d
/-- RESULT_AGED. -/
def execResultAged (kind unit : Nat) (s : State) : Host.Outcome State Fault Refusal :=
  guardUnit (decide (unit < calUnits kind)) (s.onDev (Dev.core (fun d => d.resultAged kind unit)))

/-! ## Forced windows (R435) -/

/-- The pins of a window for pin `p` that a CAL_REQUEST in mode FORCE asks for: those it names of `p`'s site, or `p` alone. -/
def Dev.askedPins (d : Dev) (x : Entry) (p : Nat) : List Nat :=
  ((calList x).filter (fun u => u == p || (match d.siteOf p with | some n => d.isMember n u | none => false))).filter (fun u =>
    (d.calUnit (calNamed x).1 u).said.isNone)

/-- The request that asks for a window for pin `p`. -/
def Dev.windowReq (d : Dev) (p : Nat) : Option Entry :=
  d.tracker.find? (fun x => descOp x.desc == 0x48 && x.begun && !x.done && !x.stopping && descField x.desc 8 4 2 == 1 &&
    ((calNamed x).1 == 0 || (calNamed x).1 == 2) && (d.askedPins x p).contains p)

/-- An automatic window is due for site `n`. -/
def Dev.windowDue (d : Dev) (n : Nat) : Bool :=
  let after := secs (d.rd .SP_FORCE_AFTER_S 0)
  d.on .SP_CTRL_AUTO_FORCE 0 && decide ((d.site n).rested + after ≤ d.now) && decide (d.now < (d.site n).idleSince + us d.windowUs) &&
    (d.members n).any (fun p => [0, 2].any (fun k =>
      let U := d.calUnit k p
      (U.state == 0 || U.state == 2) && decide (U.since + after ≤ d.now)))

/-- A window of `len` µs opens on `pins`. -/
def Dev.openWindow (d : Dev) (pins : List Nat) (len : Nat) (req : Option Nat) : Dev :=
  let d1 := pins.foldl (fun d p => (d.deOff p).upPin p (fun P => { P with forced := true })) d
  let d2 := ((d1.set1 .SP_STATUS_FORCE_OPEN 0).count .SP_STATUS_FORCED 0 1).raiseK 0x385 (pins.headD 0) 0
  let d3 : Dev := { d2 with windows := d2.windows ++ [⟨pins, d.now, len, req⟩] }
  match req with
  | some e => (d3.touch e).upEntry e (fun x => { x with progress := x.progress + 1, due := x.due + len })
  | none => d3

/-- FORCED_WINDOW_OPEN. -/
def Dev.windowOpen (d : Dev) (p : Nat) : Dev :=
  let idle : Bool := match d.siteOf p with | some n => !d.siteRunning n | none => true
  if !d.serves || d.isSafe || !idle || (d.pin p).forced then d
  else match d.windowReq p with
    | some x =>
      let w := descField x.desc 16 0 32
      d.openWindow (d.askedPins x p) (if w = 0 then d.windowUs else max 160 w) (some x.id)
    | none => match d.siteOf p with
      | some n => if d.windowDue n then d.openWindow (d.members n) d.windowUs none else d
      | none => d
/-- FORCED_WINDOW_OPEN. -/
def execForcedWindowOpen (p : Nat) (s : State) : Host.Outcome State Fault Refusal :=
  guardUnit (decide (p < 256)) (s.onDev (fun d => d.windowOpen p))

/-- FORCED_WINDOW_END: the pins return to their idle-code levels. -/
def Dev.windowEnd (d : Dev) (p : Nat) : Dev :=
  match d.windows.find? (fun w => w.pins.contains p) with
  | none => d
  | some w =>
    if d.now < w.from_ + us w.len then d else d.closeWindow w
/-- FORCED_WINDOW_END. -/
def execForcedWindowEnd (p : Nat) (s : State) : Host.Outcome State Fault Refusal :=
  guardUnit (decide (p < 256)) (s.onDev (fun d => d.windowEnd p))

/-! ## CAL_REPORT (R442) -/

/-- The value of largest magnitude. -/
def largest (l : List Int) : Int := l.foldl (fun m x => if mag m < mag x then x else m) 0

/-- The quality words Q0 to Q3 of a unit for band `b`. -/
def CalUnit.quality (U : CalUnit) (k b : Nat) : List Int :=
  let l := (U.ofBand k b).filterMap id
  let v := fun c i => ((U.at_ b c).map (fun r => r.vals.getD i 0)).getD 0
  let top := fun (f : CalRes → Nat) => ((l.map f).foldl max 0 : Nat)
  match k with
  | 0 => [largest (l.map (fun r => r.vals.getD 0 0)), (top (·.sigma) : Int), (top (·.step) : Int), v 4 0]
  | 2 => [v 0 1, v 1 1, (top (·.sigma) : Int), v 0 0]
  | 3 => [v 0 0, v 0 1, (top (·.sigma) : Int), 0]
  | 5 => [v 0 0, 0, 0, 0]
  | _ => [v 0 0, v 0 1, v 0 2, v 0 3]

/-- The CAL_REPORT record of a unit. -/
def Dev.calRecord (d : Dev) (k u : Nat) : Nat :=
  let U := d.calUnit k u
  let b := d.calBandOf k u
  let t := ((List.range (calSteps k)).filterMap (U.at_ b)).foldl (fun m r => max m r.t) 0
  let q := U.quality k b
  t % 2 ^ 64 * 2 ^ 192 + u * 2 ^ 176 + k * 2 ^ 172 + b * 2 ^ 168 + U.state * 2 ^ 165 + min U.rejects 65535 * 2 ^ 144 + min U.accepts 65535 * 2 ^ 128 +
    ((List.range 4).map (fun i => unsgn 32 (q.getD i 0) * 2 ^ (32 * i))).sum

/-- CAL_REPORT: the next record; stopped, it ends with the current 64 bytes (R323). -/
def Dev.calReport (d : Dev) (e : Nat) : List Put × Dev :=
  match d.open? e 0x49 with
  | none => ([], d)
  | some x =>
    let (k, f, n) := calNamed x
    let most := min n (descField x.desc 24 0 32 / 32)
    if !calRange x ∨ most = 0 then ([], d.finish e Status.INVALID 0)
    else
      let i := x.progress
      let d1 := (d.start e).upEntry e (fun y => { y with progress := i + 1, result := resAt (i + 1) 112 16 })
      (d.toHost (descField x.desc 16 0 64 + 32 * i) (bytesOf 32 (d.calRecord k (f + i))),
        if i + 1 < most then (if x.stopping ∧ 2 ∣ i + 1 then d1.finish e Status.WITHDRAWN (resAt (i + 1) 112 16) else d1) else d1.finish e Status.OK (resAt most 112 16))
/-- CAL_REPORT. -/
def execCalReport (e : Nat) (s : State) : Host.Outcome State Fault Refusal :=
  guardUnit true (s.onMem (fun _ d => d.calReport e))

end Sys2Proof.Machine
end

