-- ==== Sys2Proof/Machine/Kiln.lean ====
section
/-!
DEFINITION. Kiln (R407 to R426): monitors, the thermal model, the boundary, bands, limits, power states, clocks on demand, ballast.
-/
namespace Sys2Proof.Machine

/-! ## Policy and power state (R413, R421) -/

/-- ECONOMY holds: by POLICY, or because the device is derated. -/
def Dev.economy (d : Dev) : Bool := d.on .KL_CTRL_POLICY 0 || d.on .KL_STATUS_DERATED 0

/-- A condition of R421 holds: the device is in RUN. -/
def Dev.working (d : Dev) : Bool :=
  d.anyRunning || (List.range 8).any (fun w => d.wvRunning w || (d.acq w).isSome) || !d.tmu.jobs.isEmpty ||
    d.tracker.any (fun x => !x.done && x.begun && (descOp x.desc == 0x28 || descOp x.desc == 0x48))

/-- The power state as KL_PSTATE.STATE encodes it. -/
def Dev.pstate (d : Dev) : Nat :=
  if !d.kl.powered then 0 else if d.rd .KL_STATUS_PSTATE 0 = 1 then 1 else if d.working then 3 else 2

/-! ## Boundary (R411 to R413) -/

/-- The boundary value in use, and whether it is assumed. -/
def Dev.boundNow (d : Dev) : Nat × Bool :=
  match d.kl.bound with
  | some (v, t) => if d.now < t + secs 10 then (v, false) else (0x5F0, true)
  | none => (0x5F0, true)

/-- The boundary in use is `v`: derating is judged (R413). -/
def Dev.useBound (d : Dev) (v : Nat) : Dev :=
  let hot : Bool := decide (85 * 16 < sgn 12 v)
  let d1 := (d.wr .KL_TEMP_BOUND 0 v).wr .KL_STATUS_DERATED 0 (b2n hot)
  if hot && !d.on .KL_STATUS_DERATED 0 then d1.raise 0x048 0 else d1

/-- A boundary value is offered; outside −40 °C to +125 °C it is not accepted. Whether it was, and the block. -/
def Dev.offerBound (d : Dev) (v : Nat) : Bool × Dev :=
  let t := sgn 12 v
  if t < -640 ∨ 2000 < t then (false, d.count .KL_STATUS_BS_FAIL 0 1)
  else
    let d1 := (d.wr .KL_BOUNDARY_T 0 v).upKl (fun K => { K with bound := some (v, d.now) })
    (true, if d.on .KL_STATUS_STALE 0 then d1 else d1.useBound v)

/-- A host write to KL_BOUNDARY: ignored but in HOST mode. -/
def Dev.boundaryWrite (d : Dev) (v : Nat) : Dev := if d.on .KL_CTRL_BSRC 0 then d else (d.offerBound (v % 4096)).2

/-- A failed read of the sensor; the third in a row raises 0x046. -/
def Dev.senseFail (d : Dev) : Dev :=
  let d1 := d.upKl (fun K => { K with bsRun := K.bsRun + 1 })
  if d.kl.bsRun + 1 = 3 then d1.raise 0x046 0 else d1

/-- BOARD_SENSE_READ: every PERIOD_MS in BSENSE mode. -/
def Dev.boardSense (d : Dev) (raw : Option Nat) : Dev :=
  if !d.kl.powered ∨ !d.on .KL_CTRL_BSRC 0 ∨ d.now < d.kl.bsAt + ms (max 1 (d.rd .KL_BS_CFG_PERIOD_MS 0)) then d
  else
    let d0 := d.upKl (fun K => { K with bsAt := d.now })
    match raw with
    | none => (d0.count .KL_STATUS_BS_FAIL 0 1).senseFail
    | some w =>
      let a := d0.offerBound (w % 65536 / 16)
      if a.1 then a.2.upKl (fun K => { K with bsRun := 0 }) else a.2.senseFail
/-- BOARD_SENSE_READ. -/
def execBoardSenseRead (raw : Option Nat) (s : State) : Host.Outcome State Fault Refusal :=
  guardUnit true (s.onDev (fun d => d.boardSense raw))

/-- BOUNDARY_STALE. -/
def Dev.boundaryStale (d : Dev) : Dev :=
  if d.kl.powered ∧ d.boundNow.2 ∧ !d.on .KL_STATUS_STALE 0 then ((d.set1 .KL_STATUS_STALE 0).raise 0x045 0).useBound 0x5F0 else d
/-- BOUNDARY_STALE. -/
def execBoundaryStale (s : State) : Host.Outcome State Fault Refusal := guardUnit true (s.onDev (fun d => d.boundaryStale))

/-! ## Monitors (R407, R408) -/

/-- Quadrant `q`'s domains are on: off in a thermal shutdown, and under ECONOMY in RUN where nothing uses its pins (R425). -/
def Dev.quadOn (d : Dev) (q : Nat) : Bool :=
  !d.kl.shut && decide (2 ≤ d.rd .KL_STATUS_PSTATE 0) && (!d.economy || !d.working || (quadPins q).any (fun p => (d.siteOf p).isSome) ||
    d.tmu.jobs.any (fun j => j.inputs.any (fun i => i / 128 == q)))

/-- The quadrants' pins follow their QPIN domains (R31, R425, R492). -/
def Dev.quadCare (d : Dev) : Dev :=
  (List.range 4).foldl (fun d q => let off := !d.quadOn q; (quadPins q).foldl (fun d p => d.pinDomain p off) d) d

/-- What is lost as block `d` becomes `d1`: the buffers of the pins whose QCORE domain went off (R31). -/
def Dev.dark (d d1 : Dev) : List Put :=
  ((List.range 256).filter (fun p => (d1.pin p).domOff && !(d.pin p).domOff)).map Put.dark

/-- The block changed by `f`, and what it loses. -/
def Dev.losing (f : Dev → Dev) (d : Dev) : List Put × Dev := let d1 := f d; (d.dark d1, d1)

/-- The domain of monitor `m` is switched on (R31, R425). -/
def Dev.domainOn (d : Dev) (m : Nat) : Bool :=
  if m = 0 then d.kl.powered
  else if d.rd .KL_STATUS_PSTATE 0 < 2 then false
  else if m < 7 then true
  else if m < 19 then d.quadOn ((m - 7) % 4)
  else if m < 23 then d.lstate (m - 19) != 0
  else !d.kl.shut && (List.range 8).any (fun w => d.on .WV_CTRL_DAC_EN w || d.on .WV_CTRL_ADC_EN w)

/-- One window of monitor `m`: the power that the model uses, and the block (R408). -/
def Dev.monWindow (d : Dev) (m p : Nat) : Nat × Dev :=
  let K := d.kl
  let lim := Config.monLimit m
  let same := if tget (fun _ => 0) K.monCode m = p + 1 ∧ d.domainOn m then tget (fun _ => 0) K.monSame m + 1 else 1
  let out : Bool := decide (p < lim.1) || decide (lim.2.1 < p)
  let was := bitAt K.monBad m
  let good := if out then 0 else tget (fun _ => 0) K.monGood m + 1
  let bad : Bool := if was then decide (good < 100) else out || decide (1000 ≤ same)
  let d1 := (d.wr .KL_DOMAIN_P_MW m p).upKl (fun K =>
    { K with monCode := tset (fun _ => 0) K.monCode m (p + 1), monSame := tset (fun _ => 0) K.monSame m (if was && !bad then 1 else same)
             monGood := tset (fun _ => 0) K.monGood m (if bad then good else 0), monBad := setBit K.monBad m bad })
  (if bad then lim.2.2 else p, if bad && !was then (d1.set1 .KL_STATUS_MON_FAULT 0).raise 0x047 m else d1)

/-- The windows of all monitors. -/
def Dev.monitors (d : Dev) (mw : List Nat) : List Nat × Dev :=
  (List.range 24).foldl (fun a m => let r := a.2.monWindow m (mw.getD m 0); (a.1 ++ [r.1], r.2)) ([], d)

/-! ## The thermal model (R409) -/

/-- The temperature of node `i` in °C; node 47 is the boundary. -/
def Dev.nodeT (d : Dev) (i : Nat) : Rat :=
  if i = 47 then (sgn 12 (d.rd .KL_TEMP_BOUND 0) : Rat) / 16 else tget (fun _ => 0) d.kl.nodes i

/-- Node `i` after a step of 10 µs with powers `ps` in mW. -/
def Dev.nodeStep (d : Dev) (ps : List Nat) (i : Nat) : Rat :=
  let T := d.nodeT i
  T + (1 / 100000) / Config.heatCap i *
    (((List.range 24).map (fun m => Config.share i m * ((ps.getD m 0 : Nat) : Rat) / 1000)).sum +
      ((List.range 48).map (fun j => Config.conduct i j * (d.nodeT j - T))).sum)

/-- A temperature in the 12-bit form (R9). -/
def tempCode (T : Rat) : Nat := unsgn 12 (clampInt (-2048) 2047 (ratRound (16 * T)))

/-- The model advances by one step. -/
def Dev.advance (d : Dev) (ps : List Nat) : Dev :=
  let ts := (List.range 47).map (fun i => (i, d.nodeStep ps i))
  let d1 := d.upKl (fun K => { K with nodes := ts.foldl (fun t (x : Nat × Rat) => tset (fun _ => 0) t x.1 x.2) K.nodes })
  (ts ++ [(47, d.nodeT 47)]).foldl (fun (d : Dev) (x : Nat × Rat) => d.wr .KL_NODE_T_T x.1 (tempCode x.2)) d1

/-- The highest temperature of a list of nodes. -/
def Dev.hottest (d : Dev) (l : List Nat) : Rat := (l.map d.nodeT).foldl max (d.nodeT (l.headD 47))

/-! ## Bands (R11, R414 to R416) -/

/-- The nodes of a band region. -/
def regionNodes (r : Nat) : List Nat := if r < 4 then [r, 4 + r, 8 + r] else if r = 4 then [16] else [12, 13, 14, 15]

/-- The band of a temperature (R11). -/
def bandOf (T : Rat) : Nat := (clampInt 0 15 (((T + 24) / 8).floor)).toNat

/-- The band that a region in band `b` at temperature `T` has (R415). -/
def bandNext (b : Nat) (T : Rat) : Nat :=
  if (b < 15 ∧ (-16 + 8 * (b : Rat)) ≤ T) ∨ (0 < b ∧ T < -(51 / 2) + 8 * (b : Rat)) then bandOf T else b

/-- Region `r` is judged. -/
def Dev.judgeRegion (d : Dev) (r : Nat) : Dev :=
  let b := d.rd .KL_BAND_REGION r
  let b' := bandNext b (d.hottest (regionNodes r))
  if b' = b then d else ((d.wr .KL_BAND_REGION r b').count .KL_STATUS_BAND_CHANGES 0 1).bandEntered r b

/-! ## Limits (R417 to R420) -/

/-- The nodes of the logic die. -/
def logicNodes : List Nat := List.range 22 ++ (List.range 8).map (· + 34)

/-- A limit of `lim` °C that was active or not at temperature `T`; a TRIP ends below `floor_`. -/
def limitNow (was : Bool) (T lim : Rat) (floor_ : Option Rat) : Bool :=
  if was then (match floor_ with | some f => decide (f ≤ T) | none => decide (lim - 2 < T)) else decide (lim < T)

/-- One limit: its flag, and its source on becoming active. -/
def Dev.judgeLimit (d : Dev) (f : Fld) (src : Nat) (T lim : Rat) (floor_ : Option Rat) : Dev :=
  let was := d.on f 0
  let is := limitNow was T lim floor_
  let d1 := d.wr f 0 (b2n is)
  if is && !was then d1.raise src 0 else d1

/-- The HBM temperature of R417: the higher of the two stacks'. -/
def Dev.hbmTemp (d : Dev) : Int := max (d.refreshTemp 0) (d.refreshTemp 1)

/-- Thermal shutdown (R419): quadrant, Rein and wave domains and PLLs off; the stacks go to self-refresh with the safe state. -/
def Dev.thermalOff (d : Dev) : Dev :=
  let d1 := (d.upKl (fun K => { K with shut := true })).wr .BR_STATUS_QPLL_READY 0 0
  let d2 := (List.range 5).foldl (fun d q => d.upPll q (fun P => { P with starting := false })) (d1.wr .BR_STATUS_WAVE_READY 0 0)
  (List.range 4).foldl (fun d p => if d.lstate p = 0 then d else d.portOff p) d2.quadCare

/-- The journal entry of a TRIP of `src`. -/
def Dev.thermalNote (d : Dev) (src : Nat) (hbm : Bool) : Dev :=
  let node := (List.range 47).foldl (fun m i => if d.nodeT m < d.nodeT i then i else m) 0
  d.oweFault 4 src (d.rd .KL_NODE_T_T node * 2 ^ 244 + node * 2 ^ 238 + d.rd .KL_TEMP_BOUND 0 * 2 ^ 226 +
    d.rd .KL_STATUS_STALE 0 * 2 ^ 225 + b2n hbm * 2 ^ 224)

/-- The limits are judged; a TRIP that becomes active shuts down (R417, R419). -/
def Dev.judgeLimits (d : Dev) : Dev :=
  let L := d.hottest logicNodes
  let H : Rat := (d.hbmTemp : Rat) / 16
  let top := (logicNodes.foldl (fun m i => if d.nodeT m < d.nodeT i then i else m) 0)
  let d0 := ((d.wr .KL_TEMP_LOGIC 0 (tempCode L)).wr .KL_TEMP_NODE 0 top).wr .KL_TEMP_HBM 0 (unsgn 12 d.hbmTemp)
  let d1 := (d0.judgeLimit .KL_STATUS_WARN 0x040 L 100 none).judgeLimit .KL_STATUS_HOT 0x041 L 108 none
  let d2 := (d1.judgeLimit .KL_STATUS_TRIP 0x042 L 115 (some 100)).judgeLimit .KL_STATUS_HBM_SEVERE 0x043 H 100 none
  let d3 := d2.judgeLimit .KL_STATUS_HBM_TRIP 0x044 H 105 (some 100)
  let lt := d3.on .KL_STATUS_TRIP 0 && !d.on .KL_STATUS_TRIP 0
  let ht := d3.on .KL_STATUS_HBM_TRIP 0 && !d.on .KL_STATUS_HBM_TRIP 0
  let d4 := if lt then d3.thermalNote 0x042 false else d3
  let d5 := if ht then d4.thermalNote 0x044 true else d4
  if lt || ht then d5.thermalOff else d5

/-- THERM_L is asserted (R420). -/
def Dev.thermL (d : Dev) : Bool :=
  d.on .KL_STATUS_HOT 0 || d.on .KL_STATUS_HBM_SEVERE 0 || d.on .KL_STATUS_TRIP 0 || d.on .KL_STATUS_HBM_TRIP 0

/-! ## Clocks and ballast (R425, R426) -/

/-- Quadrant `q`'s PLL is needed: a site outside DOZE, IDLE and EMPTY, an open job, or a policy of ACCURACY (R36, R65, R425). -/
def Dev.pllNeed (d : Dev) (q : Nat) : Bool :=
  !d.economy || (List.range 64).any (fun n => d.siteRunning n && (d.quads n).contains q) ||
    d.tmu.jobs.any (fun j => j.inputs.any (fun i => i / 128 == q))

/-- A needed PLL does not count as idle; under ACCURACY every PLL in READY and RUN is started; an unused wave PLL stops under ECONOMY. -/
def Dev.pllCare (d : Dev) : Dev :=
  if d.rd .KL_STATUS_PSTATE 0 < 2 || d.kl.shut || d.isSafe then d
  else
    let d1 := (List.range 4).foldl (fun d q =>
      if d.pllNeed q then (let d' := d.upPll q (fun P => { P with idleSince := d.now }); if d.economy then d' else d'.startPll q) else d) d
    if d.economy && !(List.range 8).any (fun w => d.on .WV_CTRL_DAC_EN w || d.on .WV_CTRL_ADC_EN w) then d1.wr .BR_STATUS_WAVE_READY 0 0 else d1

/-- PLL_IDLE_STOP. -/
def Dev.pllIdle (d : Dev) (q : Nat) : Dev :=
  if bitAt (d.rd .BR_STATUS_QPLL_READY 0) q && !d.pllNeed q && decide ((d.pll q).idleSince + us (d.rd .KL_CTRL_PLL_IDLE_US 0) ≤ d.now) then
    d.wr .BR_STATUS_QPLL_READY 0 (setBit (d.rd .BR_STATUS_QPLL_READY 0) q false)
  else d
/-- PLL_IDLE_STOP. -/
def execPllIdleStop (q : Nat) (s : State) : Host.Outcome State Fault Refusal :=
  guardUnit (decide (q < 4)) (s.onDev (fun d => d.pllIdle q))

/-- A site with a member in quadrant `q` is RUNNING. -/
def Dev.quadRuns (d : Dev) (q : Nat) : Bool :=
  (List.range 64).any (fun n => d.siteState n == SiteState.RUNNING && (d.quads n).contains q)

/-- The ballast's targets take the window's powers; ballast runs where a target stands and no site runs (R426). -/
def Dev.ballast (d : Dev) (ps : List Nat) : Dev :=
  let most := 100 * d.rd .KL_BALLAST_WINDOW_MS 0
  let d1 := (List.range 4).foldl (fun d q =>
    if d.quadRuns q then d.upKl (fun K =>
      { K with burstAt := some d.now
               target := tset (fun _ => []) K.target q (((d.now, ps.getD (7 + q) 0 + ps.getD (11 + q) 0 + ps.getD (15 + q) 0) :: tget (fun _ => []) K.target q).take most) })
    else d) d
  let on_ : Bool := !d1.economy && !d1.on .KL_STATUS_WARN 0 && !d1.isSafe && d1.kl.burstAt.isSome &&
    (List.range 4).any (fun q => !d1.quadRuns q && !(tget (fun _ => []) d1.kl.target q).isEmpty)
  d1.wr .KL_STATUS_BALLAST 0 (b2n on_)

/-- BALLAST_END: HOLD_S after the last burst no region has a target. -/
def Dev.ballastEnd (d : Dev) : Dev :=
  match d.kl.burstAt with
  | some t => if t + secs (d.rd .KL_BALLAST_HOLD_S 0) ≤ d.now then
      (d.upKl (fun K => { K with burstAt := none, target := [] })).clr .KL_STATUS_BALLAST 0 else d
  | none => d
/-- BALLAST_END. -/
def execBallastEnd (s : State) : Host.Outcome State Fault Refusal := guardUnit true (s.onDev (fun d => d.ballastEnd))

/-- MODEL_STEP: every 10 µs. -/
def Dev.modelStep (d : Dev) (mw : List Nat) : Dev :=
  if !d.kl.powered ∨ d.now < d.kl.stepAt + us 10 then d
  else
    let d0 := d.upKl (fun K => { K with stepAt := d.now, hostAt := if d.working then d.now else K.hostAt })
    let d1 := if d0.on .KL_STATUS_STALE 0 ∧ !d0.boundNow.2 then (d0.clr .KL_STATUS_STALE 0).useBound d0.boundNow.1 else d0
    let a := d1.monitors mw
    let d2 := a.2.advance a.1
    let d3 := [0, 1].foldl (fun d s =>
      (d.wr .MC_TEMP_MODEL s (tempCode (d.hottest ((List.range 6).map (· + 22 + 6 * s))))).judgeBand s) d2
    let d4 := (List.range 6).foldl (fun d r => d.judgeRegion r) d3
    (d4.judgeLimits.ballast a.1).quadCare.pllCare
/-- MODEL_STEP. -/
def execModelStep (mw : List Nat) (s : State) : Host.Outcome State Fault Refusal := guardUnit true (s.onMem (fun _ => Dev.losing (fun d => d.modelStep mw)))

/-! ## Sleep and wake (R422 to R424, R378) -/

/-- A sleep request is made or withdrawn. -/
def Dev.askSleep (d : Dev) (b : Bool) : Dev := (d.upKl (fun K => { K with reqSleep := b })).wr .KL_STATUS_SLEEP_WAIT 0 (b2n b)

/-- A write of `v` to KL_PSTATE. -/
def Dev.pstateWrite (d : Dev) (v : Nat) : Dev :=
  let d1 := d.writeReg (regAt .kl .KL_PSTATE 0 0) .whole v false
  d1.askSleep (d1.rd .KL_PSTATE_REQ 0 == 1)

/-- AUTO_SLEEP. -/
def Dev.autoSleep (d : Dev) : Dev :=
  let a := d.rd .KL_PSTATE_AUTO_MS 0
  if a ≠ 0 ∧ d.pstate = 2 ∧ d.serves ∧ d.kl.hostAt + ms a ≤ d.now then d.askSleep true else d
/-- AUTO_SLEEP. -/
def execAutoSleep (s : State) : Host.Outcome State Fault Refusal := guardUnit true (s.onDev (fun d => d.autoSleep))

/-- The entry conditions of R422 and R378 hold. -/
def Dev.maySleep (d : Dev) : Bool :=
  d.serves && d.pstate == 2 && !d.isSafe && d.tracker.isEmpty && !d.rings.any (fun x => x.2.state == RingState.QUIESCING) &&
    !(List.range 16).any (d.on .TA_SLOT_CTRL_EN) && d.mcIdle && !(List.range 64).any d.inSpan &&
    !(List.range 4).any (fun p => d.on .RN_PORT_CTRL_EN p && d.rd .RN_PORT_CTRL_ROLE p == 1)

/-- SLEEP_ENTRY. -/
def Dev.sleep (d : Dev) : Dev :=
  if !d.kl.reqSleep || !d.maySleep then d
  else
    let d1 : Dev := { d with ringEng := { d.ringEng with cache := [] } }
    let d2 := ((d1.holdover).enterSR 0).enterSR 1
    let d3 := (List.range 4).foldl (fun d p => if d.lstate p = 0 then d else d.portOff p) d2
    let d4 := ((d3.wr .BR_STATUS_QPLL_READY 0 0).wr .BR_STATUS_WAVE_READY 0 0).wr .BR_STATUS_CORE_LOCK 0 0
    let d5 := (List.range 5).foldl (fun d q => d.upPll q (fun P => { P with starting := false })) d4
    (((d5.wr .KL_STATUS_PSTATE 0 1).wr .KL_PSTATE_STATE 0 1).askSleep false).quadCare.wvDark
/-- SLEEP_ENTRY. -/
def execSleepEntry (s : State) : Host.Outcome State Fault Refusal := guardUnit true (s.onMem (fun _ => Dev.losing Dev.sleep))

/-- The device wakes to READY (R424); the core PLL locks where a reference is present (R366); a wake counts as a host access. How long it takes,
at most 150 µs, is open; the RUN that prepares next reports it (R307; log entry 86). -/
def Dev.wake (d : Dev) : Dev :=
  if d.rd .KL_STATUS_PSTATE 0 ≠ 1 ∨ !d.kl.powered then d
  else
    let d1 := (((d.wr .KL_STATUS_PSTATE 0 2).wr .KL_PSTATE_STATE 0 2).wr .BR_STATUS_CORE_LOCK 0 (b2n (!d.br.lossNow))).resumeBed
    let d2 := (d1.upKl (fun K => { K with hostAt := d.now, wokeUs := 1 + d1.openVal 8 % 150 })).took.quadCare.wvRise
    let d3 := (List.range 4).foldl (fun d p => d.portUp p) d2
    if d3.economy then d3 else (List.range 4).foldl (fun d q => d.startPll q) d3
/-- WAKE. -/
def execWake (s : State) : Host.Outcome State Fault Refusal := guardUnit true (s.onDev (fun d => d.wake))

/-- A host access reaches the device: nothing where it does not serve or HX_PERST_L holds the link down; asleep, it wakes first (R424, R473). -/
def Dev.access? (d : Dev) : Option Dev :=
  if !d.serves || d.gd.perst then none else some ((d.wake).upKl (fun K => { K with hostAt := d.now }))

end Sys2Proof.Machine
end

