-- ==== Sys2Proof/Machine/Collector.lean ====
section
/-!
DEFINITION. The Fault Collector (R443 to R463): events, windows, records and the log, the first fault, halt scopes, interrupts, FAULT_L, safe
state and its end, parity, REINIT, the alias.
-/
namespace Sys2Proof.Machine

/-- The Collector changed by `f`. -/
def Dev.upFc (d : Dev) (f : Fc → Fc) : Dev := { d with fc := f d.fc }

/-! ## Status (R449, R455, R463) -/

/-- The cause of source `s` is a lasting condition that stands (R449). -/
def Dev.srcActive (d : Dev) (s : Nat) : Bool :=
  match s with
  | 0x040 => d.on .KL_STATUS_WARN 0
  | 0x041 => d.on .KL_STATUS_HOT 0
  | 0x042 => d.on .KL_STATUS_TRIP 0
  | 0x043 => d.on .KL_STATUS_HBM_SEVERE 0
  | 0x044 => d.on .KL_STATUS_HBM_TRIP 0
  | 0x045 => d.on .KL_STATUS_STALE 0
  | 0x048 => d.on .KL_STATUS_DERATED 0
  | 0x305 => (List.range 4).any (d.on .RN_PORT_STATUS_PEER_FAULT_NOW)
  | _ => false

/-- The listed sources. -/
def allSources : List Nat := catalogue.map (·.1)

/-- STATUS of source `s` is 1. -/
def Dev.srcOn (d : Dev) (s : Nat) : Bool := d.on .FC_SRC_STAT_STATUS s

/-- A write of 1 to STATUS of source `s` (R449, R462). -/
def Dev.clearStatus (d : Dev) (s : Nat) : Dev :=
  if d.srcActive s || (d.on .FC_MODE_LEGACY 0 && srcClass s == some 3) then d else d.clrBy .FC_SRC_STAT_STATUS s

/-- FAULT_L is asserted (R455). -/
def Dev.faultL (d : Dev) : Bool :=
  d.kl.powered && (d.isSafe || allSources.any (fun s => d.srcOn s && (d.on .FC_SRC_CFG_FAULT_L s || d.on .FC_SRC_STAT_ESCALATED s)))

/-! ## Events (R446 to R448, R450) -/

/-- An event as the Collector takes it: source, instance, unit kind, class as recorded, whether it escalated, the window count. -/
structure FcEvent where
  src : Nat
  inst : Nat
  ukind : Nat
  cls : Nat
  esc : Bool
  wcount : Nat
  deriving DecidableEq, Repr

/-- The events of the oldest cycle with raised sources: one for each source, with the lowest instance (R446). -/
def Dev.group (d : Dev) : List Raise :=
  match d.raised with
  | [] => []
  | r :: _ =>
    let g := d.raised.filter (fun x => x.cycle == r.cycle)
    ((g.map (·.src)).eraseDups).filterMap (fun s =>
      (g.filter (fun x => x.src == s)).foldl (fun b x => match b with | none => some x | some y => if x.inst < y.inst then some x else some y) none)

/-- WINDOW_MS of source `s` in ticks. -/
def Dev.srcWindow (d : Dev) (s : Nat) : Nat := ms (min 3600000 (max 1 (d.rd .FC_SRC_CFG_WINDOW_MS s)))

/-- An event of a MINOR source at local time `t` meets its window: the count, whether it escalates, the block (R447). -/
def Dev.window (d : Dev) (s t : Nat) : Nat × Bool × Dev :=
  let at_ := tget (fun _ => 0) d.fc.winAt s
  let open_ : Bool := at_ != 0 && decide (t < at_ - 1 + d.srcWindow s)
  let n := if open_ then tget (fun _ => 0) d.fc.winCnt s + 1 else 1
  let N := d.rd .FC_SRC_CFG_N s
  let esc : Bool := N != 0 && decide (N ≤ n)
  let shown := if 255 < n then d.openVal 8 else n
  let d1 := if 255 < n then d.took else d
  let d2 := d1.upFc (fun F => { F with winAt := tset (fun _ => 0) F.winAt s (if esc then 0 else if open_ then at_ else t + 1)
                                       winCnt := tset (fun _ => 0) F.winCnt s (if esc then 0 else n) })
  (if esc then 0 else shown, esc, d2.wr .FC_SRC_STAT_WCOUNT s (if esc then 0 else shown))

/-- One raised source becomes an event, its window counted. -/
def Dev.classify (a : List FcEvent × Dev) (r : Raise) : List FcEvent × Dev :=
  match srcClass r.src with
  | none => a
  | some c =>
    let uk := if r.src / 64 = 14 ∨ r.src / 64 = 6 then r.ukind else 0
    if c = 1 then
      let w := a.2.window r.src (r.cycle * cycleTicks)
      (a.1 ++ [⟨r.src, r.inst, uk, if w.2.1 then 2 else 1, w.2.1, w.1⟩], w.2.2)
    else (a.1 ++ [⟨r.src, r.inst, uk, c, false, 0⟩], a.2)

/-- Event `a` ranks before event `b` (R450). -/
def FcEvent.before (a b : FcEvent) : Bool := decide (b.cls < a.cls) || (a.cls == b.cls && decide (a.src < b.src))

/-- An event in its place in a ranked list. -/
def rankIn (e : FcEvent) : List FcEvent → List FcEvent
  | [] => [e]
  | x :: t => if e.before x then e :: x :: t else x :: rankIn e t

/-- The fault record of event `e` at Bedrock time `t` (R451). -/
def FcEvent.record (e : FcEvent) (t : Nat) (tie : Bool) : Nat :=
  t % 2 ^ 64 * 2 ^ 64 + e.src % 1024 * 2 ^ 54 + e.cls % 4 * 2 ^ 52 + b2n e.esc * 2 ^ 51 + b2n tie * 2 ^ 50 + e.inst % 65536 * 2 ^ 32 +
    e.wcount % 256 * 2 ^ 24 + (if e.src / 64 = 14 then e.ukind % 16 * 2 ^ 20 else 0)

/-! ## The log and the first fault (R451, R452) -/

/-- A record enters the queue, or is dropped. -/
def Dev.logPut (d : Dev) (rec_ : Nat) : Dev :=
  if d.fc.queue.length < 64 then d.upFc (fun F => { F with queue := F.queue ++ [rec_], dropping := false })
  else
    let d1 := (d.count .FC_LOG_IDX_LOST 0 1).upFc (fun F => { F with dropping := true })
    if d.fc.dropping then d1 else d1.raise 0x001 0

/-- LOG_WRITE: one record. -/
def Dev.logWrite (d : Dev) : Dev :=
  match d.fc.queue with
  | [] => d
  | r :: t =>
    let i := d.rd .FC_LOG_IDX_NEXT 0
    (((d.upFc (fun F => { F with queue := t })).wr .FC_LOG_LO_REC i r).wr .FC_LOG_HI_REC i (r / 2 ^ 64)).wr .FC_LOG_IDX_NEXT 0 ((i + 1) % 256)
/-- LOG_WRITE. -/
def execLogWrite (s : State) : Host.Outcome State Fault Refusal := guardUnit true (s.onDev (fun d => d.logWrite))

/-- The first-fault record; the first qualifying event of the present engine cycle is remembered, and whether others followed. -/
def Dev.firstFault (d : Dev) (cls rec_ : Nat) : Dev :=
  if cls < d.rd .FC_CTRL_FIRST_MIN 0 then d
  else
    let d1 := d.upFc (fun F => { F with firstAt := d.cycle,
                                        firstNew := if F.firstAt = d.cycle ∧ F.firstNew.isSome then F.firstNew.map (fun x => (x.1, true)) else some (rec_, false) })
    if d1.on .FC_SUMMARY_FIRST_VALID 0 then d1.set1 .FC_SUMMARY_FIRST_MORE 0
    else (((d1.set1 .FC_SUMMARY_FIRST_VALID 0).clr .FC_SUMMARY_FIRST_MORE 0).wr .FC_FIRST0_REC_LO 0 rec_).wr .FC_FIRST1_REC_HI 0 (rec_ / 2 ^ 64)

/-- Software has cleared FC_SUMMARY.FIRST_VALID: FIRST_MORE goes with it, and a qualifying event of the same engine cycle is copied (R452). -/
def Dev.firstCleared (d : Dev) : Dev :=
  match (if d.fc.firstAt = d.cycle then d.fc.firstNew else none) with
  | some x => (((d.wr .FC_SUMMARY_FIRST_VALID 0 1).wr .FC_SUMMARY_FIRST_MORE 0 (b2n x.2)).wr .FC_FIRST0_REC_LO 0 x.1).wr .FC_FIRST1_REC_HI 0 (x.1 / 2 ^ 64)
  | none => d.clr .FC_SUMMARY_FIRST_MORE 0

/-! ## Halt scopes (R443, R453) -/

/-- The sites `l` halt as a Collector halt: at once from SEVERE on, else with a drain. -/
def Dev.haltSites (d : Dev) (l : List Nat) (cls : Nat) : Dev := l.foldl (fun d n => d.abortSite n 3 (decide (2 ≤ cls))) d

/-- Channel `w` halts. -/
def Dev.haltChannel (d : Dev) (w : Nat) : Dev :=
  let d1 := d.wvStopFault w
  match d1.acq w with
  | some A => (match d1.entry? A.e with | some x => d1.stopAcq x | none => d1)
  | none => d1

/-- The device halts. -/
def Dev.haltDevice (d : Dev) (cls : Nat) : Dev :=
  let d1 := d.haltSites (List.range 64) cls
  let d2 := (d1.rings.map (·.1)).foldl (fun d r => if (d.ring r).state = RingState.ACTIVE then d.haltRing r else d) d1
  (List.range 8).foldl (fun d w => d.haltChannel w) d2

/-- The jobs that hold input `i` end. -/
def Dev.haltJobs (d : Dev) (i : Nat) : Dev :=
  (d.tmu.jobs.filter (fun j => j.inputs.contains i)).foldl (fun d j => d.stopJob j.e Status.WITHDRAWN) d

/-- The site of pin `p` as a list. -/
def Dev.siteOfL (d : Dev) (p : Nat) : List Nat := match d.siteOf p with | some n => [n] | none => []

/-- The scope of event `e` halts. -/
def Dev.haltScope (d : Dev) (e : FcEvent) : Dev :=
  let i := e.inst
  match e.src / 64 with
  | 0 => d.haltDevice e.cls
  | 2 => d.haltDevice e.cls
  | 3 => d.haltDevice e.cls
  | 4 => d.haltSites ((List.range 64).filter (fun n => (List.range 8).any (fun k => d.isMember n (8 * i + k)))) e.cls
  | 5 => if e.src = 0x150 then d else d.haltRing i
  | 6 =>
    if e.ukind = 0 then d
    else if e.ukind < 100 then d.haltSites [e.ukind - 1] e.cls
    else if e.ukind < 1000 then d.haltChannel (e.ukind - 100)
    else d.haltRing (e.ukind - 1000)
  | 7 => d.haltSites (if e.src ≤ 0x1C5 then [i] else d.siteOfL i) e.cls
  | 8 => d.haltSites (if e.src = 0x208 then (List.range 64).filter (fun n => (d.quads n).contains i) else d.siteOfL i) e.cls
  | 9 =>
    if e.src = 0x246 ∨ e.src = 0x247 then d
    else d.haltSites (if e.src = 0x242 ∨ e.src = 0x243 then [i] else d.siteOfL i) e.cls
  | 10 => d.haltJobs i
  | 11 =>
    if e.src = 0x2E0 then
      ((List.range 8).filter (fun w => match d.acq w with
        | some A => (match d.entry? A.e with | some x => bitAt (acqSpec x).mask i | none => false)
        | none => false)).foldl (fun d w => d.haltChannel w) d
    else d.haltChannel i
  | 12 => d.retrainPort (if e.src = 0x301 then i / 4 else i)
  | 13 => d.haltDevice e.cls
  | 14 =>
    if e.ukind = 3 then d.retrainPort i
    else if e.ukind = 4 then d.haltChannel i
    else d.haltSites (d.siteOfL (if e.ukind = 1 ∨ e.ukind = 5 then i / 2 else i)) e.cls
  | _ => d

/-! ## Safe state (R457) -/

/-- Safe state is entered with the cause that `rec_` names; the vector is always requested (R454). -/
def Dev.safeEntry (d : Dev) (rec_ : Nat) : List Put × Dev :=
  if d.isSafe then ([], d)
  else
    let d1 := ((((d.set1 .FC_STATE_SAFE 0).wr .FC_STATE_CAUSE 0 (bits rec_ 54 10)).wr .FC_STATE_CAUSE_CLASS 0 (bits rec_ 52 2)).wr
      .FC_STATE_CAUSE_INST 0 (bits rec_ 32 16)).wr .FC_SAFE_TIME_T 0 (bits rec_ 64 64)
    let d2 := (List.range 256).foldl (fun d p => d.deOff p) (d1.own false)
    let d3 := (List.range 64).foldl (fun d n => d.abortSite n 4 true) d2
    let d4 := d3.wvAllOff 3 Status.ABORTED_PARTIAL
    let d4' := (d4.rings.map (·.1)).foldl (fun d r => d.haltRing r) d4
    let d5 := (d4'.tracker.filter (fun x => [0x30, 0x3A, 0x48].contains (descOp x.desc))).foldl (fun d x => if (d.entry? x.id).any (·.stopping) then d else d.stopEntry x) d4'
    let skipped := if d.on .BR_STATUS_CORE_LOCK 0 then 0 else d5.openVal 32
    let d6 := if d.on .BR_STATUS_CORE_LOCK 0 then d5 else d5.took
    let d7 : Dev :=
      { d6.clr .KL_STATUS_BALLAST 0 with
        mc := { d6.mc with lost := 0 }
        fc := { d6.fc with drops := 0, dropped := false }
        journal := d6.journal ++ [⟨d6.bed, d6.rd .GD_STATUS_BOOTS 0, 3, 0, some rec_, skipped * 2 ^ 160⟩] }
    d7.request (d7.rd .FC_CTRL_VECTOR 0) 0

/-- The record and capture writes that still wait 50 µs after the entry are dropped and counted (R457). -/
def Dev.safeDrops (d : Dev) : Dev :=
  if !d.isSafe || d.fc.dropped || decide (d.bed < d.fullTime (d.rd .FC_SAFE_TIME_T 0) + us 50) then d
  else
    let gone := fun (q : Req) => match q.who with | .spill _ | .capture _ => true | _ => false
    let all := d.pcs.flatMap (fun x => x.2.writes.filter gone)
    let d1 := all.foldl (fun d q => match q.who with
      | .spill n => d.count .FR_SITE_DROPPED_RECORDS n 1
      | .capture n => d.count .FR_SITE_DROPPED_BLOCKS n 1
      | _ => d) d
    let d2 := ((d1.pcs.map (·.1))).foldl (fun d c => d.upPc c (fun P => { P with writes := P.writes.filter (fun q => !gone q) })) d1
    d2.upFc (fun F => { F with drops := all.length, dropped := true })

/-! ## The journal action (R456) -/

/-- Event `e` asks for a journal entry: at most one per source per second, FATAL never suppressed. -/
def Dev.journalAsk (d : Dev) (e : FcEvent) (rec_ : Nat) : Dev :=
  let at_ := tget (fun _ => 0) d.fc.jnAt e.src
  let skip := tget (fun _ => 0) d.fc.jnSkip e.src
  if e.cls = 3 ∨ at_ = 0 ∨ at_ - 1 + secs 1 ≤ d.now then
    let d1 : Dev := { d with journal := d.journal ++ [⟨d.bed, d.rd .GD_STATUS_BOOTS 0, 2, e.src, some rec_, skip % 2 ^ 32 * 2 ^ 224⟩] }
    d1.upFc (fun F => { F with jnAt := tset (fun _ => 0) F.jnAt e.src (d.now + 1), jnSkip := tset (fun _ => 0) F.jnSkip e.src 0 })
  else
    let d1 := d.upFc (fun F => { F with jnSkip := tset (fun _ => 0) F.jnSkip e.src (skip + 1) })
    if e.src = 0x002 then d1 else d1.raise 0x002 0

/-- The entries that a block owes for the event of `src` get its record (R487). -/
def Dev.fillOwed (d : Dev) (src rec_ : Nat) : Dev :=
  { d with journal := d.journal.map (fun o => if o.src = src ∧ o.record = none then { o with record := some rec_ } else o) }

/-! ## One event, and a cycle's events (R444, R448, R454) -/

/-- FC_IRQ.PENDING is set; when it was 0 the vector is requested. -/
def Dev.irq (d : Dev) : List Put × Dev :=
  if d.on .FC_IRQ_PENDING 0 then ([], d.set1 .FC_IRQ_PENDING 0)
  else
    let d1 := d.set1 .FC_IRQ_PENDING 0
    if d.on .FC_CTRL_IRQ_EN 0 then d1.request (d1.rd .FC_CTRL_VECTOR 0) 0 else ([], d1)

/-- Action bit `f` of source `s`: for a FATAL source HALT, SAFE, FAULT_L and JOURNAL are 1 (R445). -/
def Dev.action (d : Dev) (f : Fld) (s : Nat) : Bool := d.on f s || (f != .FC_SRC_CFG_IRQ && srcClass s == some 3)

/-- Status, counts and record of event `e` at Bedrock time `t`. -/
def Dev.noteEvent (d : Dev) (e : FcEvent) (t : Nat) (tie : Bool) : Dev :=
  let r := e.record t tie
  let d1 := ((d.set1 .FC_SRC_STAT_STATUS e.src).count .FC_SRC_STAT_COUNT e.src 1).tally 0x60 e.cls 1
  let d2 := if e.esc then d1.set1 .FC_SRC_STAT_ESCALATED e.src else d1
  ((d2.logPut r).firstFault e.cls r).fillOwed e.src r

/-- Event `e` is handled in full. -/
def Dev.handle (t : Nat) (a : (List Put × Dev) × Bool) (e : FcEvent) : (List Put × Dev) × Bool :=
  let r := e.record t a.2
  let d1 := a.1.2.noteEvent e t a.2
  let q := if d1.on .FC_SRC_CFG_IRQ e.src then d1.irq else ([], d1)
  let d2 := if q.2.action .FC_SRC_CFG_HALT e.src || e.esc then q.2.haltScope e else q.2
  let q2 := if d2.action .FC_SRC_CFG_SAFE e.src then d2.safeEntry r else ([], d2)
  let d3 := if q2.2.action .FC_SRC_CFG_JOURNAL e.src then q2.2.journalAsk e r else q2.2
  ((a.1.1 ++ q.1 ++ q2.1, d3), true)

/-- FAULT_EVENT: the events of one engine cycle, in the order of R450. -/
def Dev.faultEvent (d : Dev) : List Put × Dev :=
  match d.raised with
  | [] => ([], d)
  | r :: _ =>
    let g := d.group
    let c := g.foldl Dev.classify ([], { d with raised := d.raised.filter (fun x => x.cycle != r.cycle) })
    let t := (((r.cycle * cycleTicks : Nat) : Int) + d.bedOff).toNat
    ((c.1.foldl (fun l e => rankIn e l) []).foldl (Dev.handle t) ((([], c.2), false))).1
/-- FAULT_EVENT. -/
def execFaultEvent (s : State) : Host.Outcome State Fault Refusal := guardUnit true (s.onMem (fun _ d => d.faultEvent))

/-! ## Leaving safe state (R459, R462) -/

/-- EXIT is refused. -/
def Dev.exitBarred (d : Dev) : Bool :=
  d.on .FC_AON_LATCH 0 || catalogue.any (fun c =>
    if c.2 = 3 then d.srcOn c.1 || d.srcActive c.1 else d.on .FC_SRC_CFG_SAFE c.1 && d.srcOn c.1)

/-- The device leaves safe state: domains, memory, whose stacks report their temperatures (open values, R340), ports, FAULT_L, then READY. -/
def Dev.leaveSafe (d : Dev) : Dev :=
  let d1 := (d.clr .FC_STATE_SAFE 0).upKl (fun K => { K with shut := false })
  let d2 := (({ d1.took.took with mc := { d1.mc with stored := false, given := false } } : Dev).leaveSR 0 (d1.openVal 12)).leaveSR 1 (d1.took.openVal 12)
  let d3 := (List.range 4).foldl (fun d p => d.portUp p) d2
  let d5 := (List.range 8).foldl (fun d w => d.wvWake w) d3.wvClock.quadCare.pllCare
  if d5.on .TW_CTRL_EN 0 then d5.roleTo 1 else (List.range 256).foldl (fun d p => d.driveIdle p) d5

/-- A write of 1 to EXIT. -/
def Dev.exitSafe (d : Dev) : Dev :=
  if d.on .FC_MODE_LEGACY 0 || !d.isSafe then d
  else if d.exitBarred then d.set1 .FC_STATE_EXIT_REF 0
  else d.leaveSafe

/-! ## Parity and REINIT (R460, R461) -/

/-- A parity error; where the log path still works (open), its event is recorded. -/
def Dev.parity (d : Dev) : List Put × Dev :=
  let d1 := d.count .FC_AON_COUNT 0 1
  if d.on .FC_AON_LATCH 0 then ([], d1)
  else
    let d2 := ((d1.set1 .FC_AON_LATCH 0).set1 .FC_STATE_AON_LATCH 0).upFc (fun F => { F with reinit := false })
    let d3 := if d2.openBit then d2.took.raise 0x000 0 else d2.took
    d3.safeEntry ((FcEvent.mk 0 0 0 3 false 0).record d3.bed false)
/-- PARITY_ERROR. -/
def execParityError (s : State) : Host.Outcome State Fault Refusal := guardUnit true (s.onMem (fun _ d => d.parity))

/-- A key of the table of register fields belongs to the Collector. -/
def fcKey (k : Nat) : Bool := decide (Fld.ctorIdx .FC_CTRL_EXIT ≤ k % 1024) && decide (k % 1024 ≤ Fld.ctorIdx .FC_LOG_HI_REC)

/-- The FC_ fields as the early records of boot left them. -/
def Dev.fcReload (d : Dev) : Dev :=
  { d with regs := d.fc.image.foldl (fun t x => tset (fun _ => x.2 + 1) t x.1 x.2) (d.regs.filter (fun x => !fcKey x.1)) }

/-- A write of 1 to REINIT, with LATCH set and in safe state: registers, status, counts, windows, log and first fault. -/
def Dev.reinit (d : Dev) : Dev :=
  if d.on .FC_MODE_LEGACY 0 || !d.isSafe || !d.on .FC_AON_LATCH 0 then d
  else
    let n := d.rd .FC_AON_COUNT 0
    let d1 := (d.upFc (fun F => { F with queue := [], dropping := false, winAt := [], winCnt := [], reinit := true })).fcReload
    (((d1.set1 .FC_STATE_SAFE 0).set1 .FC_AON_LATCH 0).set1 .FC_STATE_AON_LATCH 0).wr .FC_AON_COUNT 0 n

/-- A write of `v` to FC_CTRL: its fields, then EXIT and REINIT. -/
def Dev.fcCtrl (d : Dev) (v : Nat) : Dev :=
  let d1 := d.writeReg (regAt .fc .FC_CTRL 0 0) .whole v false
  let d2 := if bitAt v 30 then d1.reinit else d1
  if bitAt v 31 then d2.exitSafe else d2

/-- A write of `v` to FC_AON: LATCH clears only after REINIT. -/
def Dev.fcAon (d : Dev) (v : Nat) : Dev :=
  if bitAt v 31 ∧ d.fc.reinit then
    let d1 := d.clrBy .FC_AON_LATCH 0
    (d1.wr .FC_STATE_AON_LATCH 0 (d1.rd .FC_AON_LATCH 0)).upFc (fun F => { F with reinit := d1.on .FC_AON_LATCH 0 })
  else d

/-! ## FC_INJECT and FC_ALIAS (R463) -/

/-- A write of `v` to FC_INJECT: the event of a used source other than 0x000. -/
def Dev.inject (d : Dev) (v : Nat) : Dev :=
  let s := bits v 0 10
  if s = 0 ∨ srcClass s = none then d else d.raiseK s (bits v 10 16) (if s / 64 = 14 then bits v 26 4 else 0)

/-- A write of `v` to FC_ALIAS. -/
def Dev.aliasWrite (d : Dev) (v : Nat) : Dev :=
  (catalogue.filter (fun c => bitAt v (28 + c.2))).foldl (fun d c => d.clearStatus c.1) d

/-! ## Host writes to the Collector -/

/-- A host access changes the block by `f` where it reaches it (R424, R473). -/
def Dev.hosted (f : Dev → Dev) (d : Dev) : Dev := match d.access? with | some d1 => f d1 | none => d

/-- EXIT. -/
def execExit (v : Word) (s : State) : Host.Outcome State Fault Refusal :=
  guardUnit true (s.onDev (Dev.hosted (fun d => d.fcCtrl (setBit (v.toNat % 2 ^ 32) 31 true))))
/-- REINIT. -/
def execReinit (v : Word) (s : State) : Host.Outcome State Fault Refusal :=
  guardUnit true (s.onDev (Dev.hosted (fun d => d.fcCtrl (setBit (v.toNat % 2 ^ 32) 30 true))))
/-- FC_INJECT. -/
def execFcInject (v : Word) (s : State) : Host.Outcome State Fault Refusal :=
  guardUnit true (s.onDev (Dev.hosted (fun d => d.inject v.toNat)))
/-- FC_ALIAS. -/
def execFcAlias (v : Word) (s : State) : Host.Outcome State Fault Refusal :=
  guardUnit true (s.onDev (Dev.hosted (fun d => d.aliasWrite v.toNat)))

end Sys2Proof.Machine
end

