-- ==== Sys2Proof/Machine/Flash.lean ====
section
/-!
DEFINITION. The Ground flash (R479, R487 to R489): journal entries, JOURNAL_READ, the flash window and the commands that write
Subsoil.
-/
namespace Sys2Proof.Machine

/-- `n` open bytes. -/
def Dev.openBytes (d : Dev) (n : Nat) : List Byte := (List.range n).map (fun k => (Config.freeValue (d.free + k)).setWidth 8)

/-- The Ground Port changed by `f`. -/
def Dev.upGd (d : Dev) (f : Gd → Gd) : Dev := { d with gd := f d.gd }

/-! ## The journal (R456, R487) -/

/-- The flash address of journal place `i`. -/
def jnAddr (i : Nat) : Nat := 0x300000 + 64 * i

/-- The safe-state entry can say what was lost: the memory is in self-refresh, 250 µs have passed, or safe state is over (R330, R457). -/
def Dev.safeSettled (d : Dev) : Bool :=
  !d.isSafe || (d.stackOk 0 && d.stackOk 1 && d.inSR 0 && d.inSR 1) || decide (d.fullTime (d.rd .FC_SAFE_TIME_T 0) + us 250 ≤ d.bed)

/-- The Steward can write entry `o`. -/
def Dev.writable (d : Dev) (o : Owed) : Bool := o.record.isSome && (o.kind != 3 || d.safeSettled)

/-- DATA of entry `o` as it is written. -/
def Dev.owedData (d : Dev) (o : Owed) : Nat :=
  if o.kind = 3 then o.data + min d.mc.lost (2 ^ 32 - 1) * 2 ^ 224 + min d.fc.drops (2 ^ 32 - 1) * 2 ^ 192 else o.data

/-- The 64 bytes of a journal entry. -/
def entryBytes (o : Owed) (data seq : Nat) : List Byte :=
  let v := o.t % 2 ^ 64 * 2 ^ 448 + seq % 2 ^ 32 * 2 ^ 416 + o.boots % 65536 * 2 ^ 400 + o.kind % 256 * 2 ^ 392 +
    o.record.getD 0 % 2 ^ 128 * 2 ^ 256 + data % 2 ^ 256 / 2 ^ 32 * 2 ^ 32
  bytesOf 64 (v + crc32c ((bytesOf 64 v).drop 4))

/-- JOURNAL_WRITE: the oldest entry that can be written, in its turn with the window's commands; `ok`: the flash took it. -/
def Dev.journalWrite (d : Dev) (ok : Bool) : List Put × Dev :=
  if !d.serves ∨ (d.gd.op ≠ 0 ∧ d.gd.before = 0) then ([], d)
  else match d.journal.find? d.writable with
    | none => ([], d)
    | some o =>
      let i := d.gd.place
      let clear : List Put := if i % 64 = 0 then [.erase (jnAddr i) 4096] else []
      let d1 : Dev := ({ d with journal := d.journal.erase o } : Dev).upGd (fun G =>
        { G with place := (i + 1) % 4096, seq := (G.seq + 1) % 2 ^ 32, before := G.before - 1 })
      if ok then (clear ++ [.flash (jnAddr i) (entryBytes o (d.owedData o) d.gd.seq)], d1)
      else (clear ++ [.flash (jnAddr i) (d.openBytes 64)], { d1.raise 0x0C5 i with free := d1.free + 64 })
/-- JOURNAL_WRITE. -/
def execJournalWrite (ok : Bool) (s : State) : Host.Outcome State Fault Refusal :=
  guardUnit true (s.onMem (fun _ => Dev.coreM (fun d => d.journalWrite ok)))

/-- RESULT of a JOURNAL_READ after `n` entries (R307). -/
def Dev.journalResult (d : Dev) (n : Nat) : Nat := resAt n 112 16 + (d.gd.place + 4095) % 4096 * 2 ^ 96

/-- JOURNAL_READ: the next entry. -/
def Dev.journalRead (m : Mems) (d : Dev) (e : Nat) : List Put × Dev :=
  match d.open? e 0x58 with
  | none => ([], d)
  | some x =>
    let start := descField x.desc 8 0 16
    let n := descField x.desc 10 0 16
    if 4096 ≤ start ∨ n = 0 ∨ 4096 < n then ([], d.finish e Status.INVALID 0)
    else
      let k := x.progress
      let r := d.journalResult (k + 1)
      let d1 := d.moved e (k + 1) r
      (d.toHost (descField x.desc 16 0 64 + 64 * k) (readMem byteF m.flash (jnAddr ((start + k) % 4096)) 64),
        if k + 1 = n then d1.finish e x.status r else d1)
/-- JOURNAL_READ. -/
def execJournalRead (e : Nat) (s : State) : Host.Outcome State Fault Refusal :=
  guardUnit true (s.onMem (fun m d => Dev.journalRead m d e))

/-! ## The flash window (R489) -/

/-- A host access to the DEV_ and GD_ blocks: they respond from the end of boot's stage 4 on, in RECOVERY too (R513). -/
def Dev.hostedGd (f : Dev → Dev) (d : Dev) : Dev :=
  if d.kl.powered && d.on .DEV_UNITS_FINAL 0 && !d.gd.perst then f ((d.wake).upKl (fun K => { K with hostAt := d.now })) else d

/-- The flash ranges that the window may not erase or program: the journal, the age records, the slots in use. -/
def Dev.protectedRanges (d : Dev) : List (Nat × Nat) :=
  let recov : Bool := d.rd .DEV_UNITS_MODE 0 == 2
  [(0x300000, 0x340000), (0x260000, 0x262000)] ++
    (if recov then [] else [(0x100000 * d.rd .GD_STATUS_FW_SLOT 0, 0x100000 * (d.rd .GD_STATUS_FW_SLOT 0 + 1))]) ++
    (if recov || d.on .GD_STATUS_UC_NONE 0 then [] else
      [(0x200000 + 0x20000 * d.rd .GD_STATUS_UC_SLOT 0, 0x220000 + 0x20000 * d.rd .GD_STATUS_UC_SLOT 0)]) ++
    (if recov || d.on .GD_STATUS_TS_NONE 0 then [] else
      [(0x240000 + 0x10000 * d.rd .GD_STATUS_TS_SLOT 0, 0x250000 + 0x10000 * d.rd .GD_STATUS_TS_SLOT 0)])

/-- The ERR of a command that cannot start (0: it starts): 1 READ, 2 PROGRAM, 3 ERASE, 4 OTP_CUST, 5 OTP_SEAL. -/
def Dev.winErr (m : Mems) (d : Dev) (op a len : Nat) : Nat :=
  let size := d.rd .GD_WIN_STATUS_FLASH_KB 0 * 1024
  let n := if op = 3 then 4096 else len
  let guarded := d.protectedRanges.any (fun r => decide (a < r.2) && decide (r.1 < a + n))
  if op = 4 then (if keyHash m 1 = 0 then 0 else 5)
  else if op = 5 then (if keyHash m 1 = 0 then 5 else 0)
  else if a % 4 ≠ 0 ∨ (op = 3 ∧ a % 4096 ≠ 0) ∨ n % 4 ≠ 0 ∨ 32768 < n ∨ size < a + n then 1
  else if op ≠ 1 ∧ guarded then 2 else 0

/-- The window command ends with `err`. -/
def Dev.winEnd (d : Dev) (err : Nat) : Dev :=
  let d1 := (((d.upGd (fun G => { G with op := 0, before := 0 })).clr .GD_WIN_STATUS_BUSY 0)).setTo .GD_WIN_STATUS_ERR 0 err err
  if err = 0 then d1 else d1.raise 0x0C6 0

/-- A write of `v` to GD_WIN_CMD. -/
def Dev.winCmd (m : Mems) (d : Dev) (v : Nat) : Dev :=
  let op := bits v 29 3
  let len := if bits v 0 16 = 0 then 32768 else bits v 0 16
  let a := d.rd .GD_WIN_ADDR_ADDR 0
  if d.on .GD_WIN_STATUS_BUSY 0 then d.setTo .GD_WIN_STATUS_ERR 0 6 6
  else if op = 0 ∨ 5 < op then d
  else if d.winErr m op a len ≠ 0 then d.winEnd (d.winErr m op a len)
  else (d.set1 .GD_WIN_STATUS_BUSY 0).upGd (fun G =>
    { G with op := op, addr := a, len := if op = 3 then 4096 else len, at_ := d.now, before := d.journal.length })

/-- A write to GD_WIN_CMD with CMD `op`. -/
def winCommand (op : Nat) (v : Word) (s : State) : Host.Outcome State Fault Refusal :=
  guardUnit true (s.onDevM (fun m d => Dev.hostedGd (fun d => Dev.winCmd m d (op * 2 ^ 29 + v.toNat % 2 ^ 29)) d))

/-- WINDOW_READ. -/
def execWindowRead (v : Word) (s : State) : Host.Outcome State Fault Refusal := winCommand 1 v s
/-- WINDOW_PROGRAM. -/
def execWindowProgram (v : Word) (s : State) : Host.Outcome State Fault Refusal := winCommand 2 v s
/-- WINDOW_ERASE. -/
def execWindowErase (v : Word) (s : State) : Host.Outcome State Fault Refusal := winCommand 3 v s
/-- OTP_CUST. -/
def execOtpCust (v : Word) (s : State) : Host.Outcome State Fault Refusal := winCommand 4 v s
/-- OTP_SEAL. -/
def execOtpSeal (v : Word) (s : State) : Host.Outcome State Fault Refusal := winCommand 5 v s

/-- The POLICY byte of Subsoil. -/
def policyAt : Nat := 0xA0

/-- TS_SIGNED of Subsoil. -/
def tsSigned (m : Mems) : Bool := bitAt (tget otpByte m.otp policyAt).toNat 0

/-- What the command in progress changes when the flash has done it. -/
def Dev.winDone (m : Mems) (d : Dev) : List Put :=
  let G := d.gd
  match G.op with
  | 1 => [.win 0 (readMem byteF m.flash G.addr G.len)]
  | 2 => [.flash G.addr (readMem byte0 m.win 0 G.len)]
  | 3 => [.erase G.addr G.len]
  | 4 => [.otp 0x70 (readMem byte0 m.win 0 48)]
  | 5 => [.otp policyAt [BitVec.ofNat 8 (setBit (tget otpByte m.otp policyAt).toNat 0 true)]]
  | _ => []

/-- A command that failed leaves what it was to change open. -/
def Dev.winFailed (d : Dev) (err : Nat) : List Put × Dev :=
  let G := d.gd
  let n := if G.op = 4 then 48 else if G.op = 5 then 1 else G.len
  let bs := d.openBytes n
  let d1 := { d.winEnd err with free := d.free + n }
  match G.op with
  | 2 => ([.flash G.addr bs], d1)
  | 3 => ([.flash G.addr bs], d1)
  | 4 => ([.otp 0x70 bs], d1)
  | 5 => ([.otp policyAt bs], d1)
  | _ => ([.win 0 bs], d1)

/-- WINDOW_COMMAND_COMPLETE. -/
def Dev.winComplete (m : Mems) (d : Dev) (ok : Bool) : List Put × Dev :=
  if d.gd.op = 0 ∨ (d.serves ∧ 0 < d.gd.before ∧ d.journal.any d.writable) then ([], d)
  else if ok then (d.winDone m, d.winEnd 0)
  else d.winFailed 3
/-- WINDOW_COMMAND_COMPLETE. -/
def execWindowCommandComplete (ok : Bool) (s : State) : Host.Outcome State Fault Refusal :=
  guardUnit true (s.onMem (fun m => Dev.coreM (fun d => Dev.winComplete m d ok)))

/-- WINDOW_COMMAND_TIMEOUT. -/
def Dev.winTimeout (d : Dev) : List Put × Dev :=
  if d.gd.op = 0 ∨ d.now < d.gd.at_ + secs 5 then ([], d) else d.winFailed 4
/-- WINDOW_COMMAND_TIMEOUT. -/
def execWindowCommandTimeout (s : State) : Host.Outcome State Fault Refusal :=
  guardUnit true (s.onMem (fun _ => Dev.coreM (fun d => d.winTimeout)))

end Sys2Proof.Machine
end

