-- ==== Sys2Proof/Machine/Tally.lean ====
section
/-!
DEFINITION. Tally (R464 to R471): what a cycle adds, wraps, chains, snapshots, overflow samples; and what one engine cycle does.
-/
namespace Sys2Proof.Machine

/-- Tally changed by `f`. -/
def Dev.upTl (d : Dev) (f : Tl → Tl) : Dev := { d with tl := f d.tl }

/-- Counter `i` counts the wraps of the counter below it (R466). -/
def Dev.chained (d : Dev) (i : Nat) : Bool := i % 2 == 1 && d.on .TL_CFG_CHAIN i

/-- Event `x` counts in counter `i` (R465). -/
def Dev.counts (d : Dev) (i : Nat) (x : Nat × Nat × Nat) : Bool :=
  d.rd .TL_CFG_EVENT i == x.1 && x.1 != 0 &&
    (x.1 == 1 || x.1 == 4 || d.rd .TL_CFG_INST i == 0xFFFF || d.rd .TL_CFG_INST i == x.2.1)

/-- Counter `i` takes `n` events; past 2⁴⁸ − 1 it wraps. -/
def Dev.addCount (d : Dev) (i n : Nat) : Dev :=
  let c := d.rd .TL_CNT_COUNT i + n
  let d1 := d.wr .TL_CNT_COUNT i c
  if c < 2 ^ 48 then d1 else d1.upTl (fun T => { T with wraps := T.wraps ++ [(i, d.cycle)] })

/-- The tracker has no entry for a ring that is ready otherwise (R299). -/
def Dev.trackerFull (d : Dev) : Bool :=
  let n := (d.tracker.filter (fun x => (d.ring x.ring).cls != 0)).length
  d.rings.any (fun y =>
    let R := y.2
    R.state == RingState.ACTIVE && decide ((d.entriesOf y.1).length < R.limit) && !d.waiting (fun w => w == .ctx y.1) &&
      (match R.descs with | (_, x) :: _ => d.headFree y.1 x && !isWait x | [] => false) &&
      !(decide (d.tracker.length < 40960) && (R.cls == 0 || decide (n < 39936))))

/-- Tally counts: from the end of boot, not asleep (R464). -/
def Dev.tallying (d : Dev) : Bool := d.serves && d.kl.powered && decide (2 ≤ d.rd .KL_STATUS_PSTATE 0)

/-- The events of the engine cycle that ends are added. -/
def Dev.tallyCycle (d : Dev) : Dev :=
  if !d.tallying then d.upTl (fun T => { T with evs := [] })
  else
    let d1 := d.tally 1 0 1
    let d2 := if d.trackerFull then d1.tally 4 0 1 else d1
    ((List.range 64).foldl (fun d i =>
      if d.chained i then d else d.addCount i ((d2.tl.evs.filter (d.counts i)).map (·.2.2)).sum) d2).upTl (fun T => { T with evs := [] })

/-- COUNTER_WRAP: the oldest wrap of counter `i` acts (R466, R470). -/
def Dev.counterWrap (d : Dev) (i : Nat) : Dev :=
  match d.tl.wraps.find? (fun w => w.1 == i) with
  | none => d
  | some w =>
    let d1 := (d.upTl (fun T => { T with wraps := T.wraps.erase w })).setTo .TL_OVF_WRAP 0 (setBit (d.rd .TL_OVF_WRAP 0) i true) (2 ^ i)
    let d2 := if i % 2 = 0 ∧ d1.chained (i + 1) then d1.addCount (i + 1) 1 else d1
    if d2.on .TL_CFG_SAMPLE i then
      (d2.addCount i (d2.rd .TL_RELOAD_VALUE i)).upTl (fun T => { T with reqs := T.reqs ++ [w] })
    else d2
/-- COUNTER_WRAP. -/
def execCounterWrap (i : Nat) (s : State) : Host.Outcome State Fault Refusal :=
  guardUnit (decide (i < 64)) (s.onDev (Dev.core (fun d => d.counterWrap i)))

/-- A write of `v` to TL_CFG[i]: the counter becomes 0 (R467). -/
def Dev.tlCfg (d : Dev) (i v : Nat) : Dev := (d.writeReg (regAt .tl .TL_CFG 0 i) .whole v false).wr .TL_CNT_COUNT i 0
/-- TL_CFG_WRITE. -/
def execTlCfgWrite (i : Nat) (v : Word) (s : State) : Host.Outcome State Fault Refusal :=
  guardUnit (decide (i < 64)) (s.onDev (Dev.hosted (fun d => d.tlCfg i (v.toNat % 2 ^ 32))))

/-- A write of part `p` of TL_CNT[i]: it ends the register's latch (R14). -/
def Dev.tlCnt (d : Dev) (i : Nat) (p : Part) (v : Nat) : Dev :=
  (d.unlatchAt (regAt .tl .TL_CNT 0 i).addr).writeReg (regAt .tl .TL_CNT 0 i) p v false
/-- TL_CNT_WRITE. -/
def execTlCntWrite (i : Nat) (part : Part) (v : Word) (s : State) : Host.Outcome State Fault Refusal :=
  guardUnit (decide (i < 64)) (s.onDev (Dev.hosted (fun d => d.tlCnt i part v.toNat)))

/-- A snapshot of the counters that `covers` names (R469). -/
def Dev.snapshot (d : Dev) (covers : Nat → Bool) : Dev :=
  ((List.range 64).filter covers).foldl (fun d i => d.wr .TL_SNAP_COUNT i (d.rd .TL_CNT_COUNT i)) d

/-- A write of `v` to TL_CTRL. -/
def Dev.tlCtrl (d : Dev) (v : Nat) : Dev :=
  let d1 := d.writeReg (regAt .tl .TL_CTRL 0 0) .whole v false
  if bitAt v 31 then d1.snapshot (fun _ => true) else d1
/-- SNAP. -/
def execSnap (v : Word) (s : State) : Host.Outcome State Fault Refusal :=
  guardUnit true (s.onDev (Dev.hosted (fun d => d.tlCtrl (setBit (v.toNat % 2 ^ 32) 31 true))))

/-- USER_PAGE_SNAPSHOT: the counters of group `g` (R468). -/
def execUserPageSnapshot (g : Nat) (s : State) : Host.Outcome State Fault Refusal :=
  guardUnit (decide (g < 16)) (s.onDev (Dev.hosted (fun d => d.snapshot (fun i => d.rd .TL_CFG_GROUP i == g))))

/-- The lane that pin `p` runs: its own program, or its site's shared one. -/
def Dev.pinLane (d : Dev) (p : Nat) : Nat :=
  match d.siteOf p with
  | some n => if d.isPrivate n p then 64 + p else n
  | none => 64 + p

/-- WADDR of a sample record of counter `i` (R470). -/
def Dev.sampleWaddr (d : Dev) (i : Nat) : Nat :=
  let ev := d.rd .TL_CFG_EVENT i
  let u := d.rd .TL_CFG_INST i
  if 0x10 ≤ ev ∧ ev ≤ 0x13 ∧ u < 64 then (match (d.members u).head? with | some p => (d.lane (d.pinLane p)).waddr | none => 0)
  else if (ev = 0x30 ∨ ev = 0x31) ∧ u < 256 then (d.lane (d.pinLane u)).waddr
  else 0

/-- The request served next: the oldest, in counter order within a cycle. -/
def Dev.nextSample (d : Dev) : Option (Nat × Nat) :=
  d.tl.reqs.foldl (fun b x => match b with
    | none => some x
    | some y => if x.2 < y.2 ∨ (x.2 = y.2 ∧ x.1 < y.1) then some x else some y) none

/-- SAMPLE_CAPTURE: one request per engine cycle (R470, R471). -/
def Dev.sampleCapture (d : Dev) : List Put × Dev :=
  if d.cycle < d.tl.freeAt then ([], d)
  else match d.nextSample with
    | none => ([], d)
    | some w =>
      let r := d.bed % 2 ^ 64 * 2 ^ 64 + d.sampleWaddr w.1 % 2 ^ 32 * 2 ^ 32 + (d.cycle - w.2) % 256 * 2 ^ 24 + w.1 % 64 * 2 ^ 18
      let d1 := d.upTl (fun T => { T with reqs := T.reqs.erase w, freeAt := d.cycle + 1 })
      if d1.tl.queue.length < 64 then
        let d2 := d1.upTl (fun T => { T with queue := T.queue ++ [r], dropping := false })
        if d1.tl.queue.isEmpty ∧ d1.on .TL_CTRL_SAMPLE_IRQ 0 then d2.request (d2.rd .TL_CTRL_VECTOR 0) 0 else ([], d2)
      else
        let d2 := (d1.count .TL_STATUS_SAMPLE_LOST 0 1).upTl (fun T => { T with dropping := true })
        ([], if d1.tl.dropping then d2 else d2.raise 0x3C0 0)
/-- SAMPLE_CAPTURE. -/
def execSampleCapture (s : State) : Host.Outcome State Fault Refusal := guardUnit true (s.onMem (fun _ => Dev.coreM (fun d => d.sampleCapture)))

/-- The bytes that a host read returns, good or poisoned. -/
def Dev.answer (d : Dev) (bs : List Byte) : Dev := { d with readData := bs, poisoned := false, mc := { d.mc with winNo := none } }

/-- A 64-bit read of TL_SAMPLE_HI removes the head record and ends the register's latch (R14). -/
def Dev.sampleHi (d : Dev) : Dev :=
  ((d.unlatchAt (regAt .tl .TL_SAMPLE_HI 0 0).addr).answer (bytesOf 8 (d.tl.queue.headD 0 / 2 ^ 64))).upTl (fun T => { T with queue := T.queue.drop 1 })
/-- TL_SAMPLE_HI_READ. -/
def execTlSampleHiRead (s : State) : Host.Outcome State Fault Refusal := guardUnit true (s.onDev (Dev.hosted (fun d => d.sampleHi)))

/-! ## One engine cycle (log entry 2) -/

/-- What an engine cycle does when no command waits: span halts that are due take effect, sites stopped in it before vector 0 go IDLE, the writes that
safe state drops are dropped, the counters count, and time goes on. -/
def Dev.engineCycle (d : Dev) : Dev := ((d.spanHalts.earlyStops.safeDrops).tallyCycle).tick

end Sys2Proof.Machine
end

