-- ==== Sys2Proof/Machine/Registers.lean ====
section
/-!
DEFINITION. Host accesses to BAR0 and BAR4 (R12 to R21, R288, R509 to R515): which register an address names, what every field reads as,
what a write of every register does.
-/
namespace Sys2Proof.Machine

/-! ## Addresses (R12, R509 to R511, R513) -/

/-- The register of block `b` that holds the byte at BAR0 offset `a`, with the byte's place in it. -/
def Block.hit (b : Block) (a : Nat) : Option (RegAt × Nat) :=
  let pl := b.place
  if a < pl.1 ∨ pl.1 + pl.2.1 * pl.2.2 ≤ a then none
  else
    let bi := (a - pl.1) / pl.2.1
    let off := (a - pl.1) % pl.2.1
    if b == .oct && bi % 2 == 1 then none
    else b.regs.findSome? (fun c =>
      if c.off ≤ off ∧ (off - c.off) / c.step < c.count ∧ (off - c.off) % c.step < c.width / 8 then
        some (⟨b, bi, c, (off - c.off) / c.step⟩, (off - c.off) % c.step)
      else none)

/-- The register that holds the byte at BAR0 offset `a`. -/
def regHit (a : Nat) : Option (RegAt × Nat) := allBlocks.findSome? (fun b => b.hit a)

/-- The region of BAR0 offset `a` responds (R473, R513). -/
def Dev.responds (d : Dev) (a : Nat) : Bool :=
  d.kl.powered && d.on .DEV_UNITS_FINAL 0 &&
    (d.rd .DEV_UNITS_MODE 0 != 2 || decide (a < 0x1_0008) || (decide (0x1_0020 ≤ a) && decide (a < 0x1_002C)) ||
      (decide (0x1_8000 ≤ a) && decide (a < 0x2_0000)))

/-! ## What a field reads as -/

/-- One bit for each unit `i` below `n` for which `f i` holds. -/
def maskOf (n : Nat) (f : Nat → Bool) : Nat := ((List.range n).map (fun i => b2n (f i) * 2 ^ i)).sum

/-- The age in minutes of pin `p`'s EDGE result for the present band: its oldest converter's; none reads 0xFFFF. -/
def Dev.edgeAge (d : Dev) (p : Nat) : Nat :=
  let l := (d.calUnit 0 p).ofBand 0 (d.calBandOf 0 p)
  if l.any (fun r => r.isNone) then 0xFFFF
  else min 0xFFFF ((d.bed - (l.filterMap id).foldl (fun m r => min m r.t) d.bed) / secs 60)

/-- The hold counters pinned on pin `p`. -/
def Dev.pinnedLoops (d : Dev) (p : Nat) : Nat :=
  maskOf 8 (fun c => (d.pin p).holds.any (fun h => h.kind == .loop && h.id == c && h.pinned && !h.released))

/-- What instance `i` of field `f` reads as: the status that a unit shows of itself, else what the register holds. -/
def Dev.field (d : Dev) (f : Fld) (i : Nat) : Nat :=
  match f with
  | .PIN_DSQ_STATUS_WADDR => (d.lane (d.pinLane i)).waddr
  | .PIN_DSQ_STATUS_SDEPTH => (d.lane (d.pinLane i)).stack.length
  | .PIN_DSQ_STATUS_LOOP_ACTIVE => (d.lane (d.pinLane i)).act
  | .PIN_DSQ_STATUS_STATE => d.dsqState (d.pinLane i)
  | .PIN_CSQ_STATUS_STATE => if (d.csq i).hand.isSome then 2 else b2n ((d.siteOf i).any (fun n => decide (SiteState.RUNNING ≤ d.siteState n) && !(d.site n).csqStop))
  | .PIN_STREAM_STATUS_POS => (d.pin i).pos.entry
  | .PIN_STREAM_STATUS_HELD => (d.pin i).heldLines
  | .PIN_STREAM_STATUS_PINNED => d.pinnedLoops i
  | .FR_STATUS_USED => ((List.range 64).map (fun n => (d.failSite n).store.length)).sum
  | .PIN_TM_STATUS_CL_TABLE => b2n ((d.calUnit 1 (2 * i + 1)).at_ (d.calBandOf 1 (2 * i + 1)) 0).isSome
  | .PIN_TM_STATUS_CH_TABLE => b2n ((d.calUnit 1 (2 * i)).at_ (d.calBandOf 1 (2 * i)) 0).isSome
  | .TA_SLOT_STATUS_BADCFG => b2n (d.on .TA_SLOT_STATUS_BADCFG i || (d.on .TA_SLOT_CTRL_EN i && d.badSlot i))
  | .TA_STATUS_COINCIDENT => maskOf 16 (d.on .TA_SLOT_STATUS_COINCIDENT)
  | .TA_STATUS_ARMED => maskOf 16 (d.on .TA_SLOT_STATUS_ARMED)
  | .TA_STATUS_FIRED => maskOf 16 (d.on .TA_SLOT_STATUS_FIRED)
  | .RG_STATUS_TRACKER_USED => d.tracker.length
  | .RG_STATUS_HALTED_ANY => b2n (d.rings.any (fun x => x.2.state == RingState.HALTED))
  | .MC_STATUS_RETRAIN => maskOf 2 d.stackTraining
  | .MC_PC_STATUS_DEBT_NS => d.debt64 i / 64
  | .MC_PC_STATUS_TRAINING => b2n (decide (d.now < (d.pc i).trainEnd))
  | .MC_PC_STATUS_CATCHUP_NOW => b2n (decide (d.now < (d.pc i).catchEnd))
  | .BR_STATUS_MEM_READY => maskOf 2 (fun s => d.stackOk s && decide (2 ≤ d.rd .KL_STATUS_PSTATE 0) && d.on .BR_STATUS_CORE_LOCK 0)
  | .BR_TIME_NS => d.bed / cycleTicks % 2 ^ 64
  | .BR_FEFF_PPT => unsgn 32 d.feff
  | .KL_BOUNDARY_AGE_100MS => match d.kl.bound with | some (_, t) => min 0xFFF ((d.now - t) / ms 100) | none => 0xFFF
  | .KL_PSTATE_STATE => d.pstate
  | .KL_STATUS_PSTATE => d.pstate
  | .PIN_CAL_STATUS_AGE_MIN => d.edgeAge i
  | .FC_STATE_LEGACY => d.rd .FC_MODE_LEGACY 0
  | .FC_SUMMARY_BLOCK => maskOf 16 (fun b => allSources.any (fun s => s / 64 == b && d.srcOn s))
  | .FC_SUMMARY_ACTIVE_CLASS => maskOf 4 (fun c => catalogue.any (fun x => x.2 == c && d.srcActive x.1))
  | .FC_SUMMARY_STATUS_CLASS => maskOf 4 (fun c => catalogue.any (fun x => x.2 == c && d.srcOn x.1))
  | .FC_ALIAS_FATAL => b2n (catalogue.any (fun x => x.2 == 3 && d.srcOn x.1))
  | .FC_ALIAS_SEVERE => b2n (catalogue.any (fun x => x.2 == 2 && d.srcOn x.1))
  | .FC_ALIAS_MINOR => b2n (catalogue.any (fun x => x.2 == 1 && d.srcOn x.1))
  | .FC_ALIAS_NOTE => b2n (catalogue.any (fun x => x.2 == 0 && d.srcOn x.1))
  | .FC_ALIAS_SAFE => d.rd .FC_STATE_SAFE 0
  | .FC_ALIAS_FIRST_VALID => d.rd .FC_SUMMARY_FIRST_VALID 0
  | .FC_ALIAS_FIRST_CLASS => bits (d.rd .FC_FIRST0_REC_LO 0) 52 2
  | .FC_ALIAS_FIRST_SOURCE => bits (d.rd .FC_FIRST0_REC_LO 0) 54 10
  | .FC_SRC_STAT_ACTIVE => b2n (d.srcActive i)
  | .TL_STATUS_QUEUED => d.tl.queue.length
  | .TL_SAMPLE_LO_REC_LO => d.tl.queue.headD 0 % 2 ^ 64
  | .TL_SAMPLE_HI_REC_HI => d.tl.queue.headD 0 / 2 ^ 64
  | _ => d.rd f i

/-- The value of register `r` as a read returns it (R16, R17, R19). -/
def Dev.regValue (d : Dev) (r : RegAt) : Nat :=
  (r.parts.map (fun x => if x.1.spec.acc = .WO then 0 else d.field x.1 x.2.1 % 2 ^ x.1.spec.width * 2 ^ x.2.2)).sum

/-! ## Reads (R13, R14) -/

/-- The key of a 64-bit register's latch. -/
def RegAt.latchKey (r : RegAt) : Nat := r.addr

/-- The latch of register `r` ends. -/
def Dev.unlatch (d : Dev) (r : RegAt) : Dev := d.unlatchAt r.latchKey

/-- The head record of Tally's queue goes when TL_SAMPLE_HI is read (R471). -/
def Dev.sampleTaken (d : Dev) (r : RegAt) : Dev :=
  if r.card.reg == .TL_SAMPLE_HI then d.upTl (fun T => { T with queue := T.queue.drop 1 }) else d

/-- An aligned 32-bit read at `a`: the value, and the block with its latches. -/
def Dev.read32 (m : Mems) (d : Dev) (a : Nat) : Nat × Dev :=
  if !d.responds a then (0, d)
  else match regHit a with
    | none =>
      if 0x1_8000 ≤ a ∧ a < 0x2_0000 then (ofBytes (readMem byte0 m.win (a - 0x1_8000) 4), d)
      else if 0x8_3F00 ≤ a ∧ a < 0x8_4000 then (maskOf 32 (fun k => (d.vec (8 * (a - 0x8_3F00) + k)).pba), d)
      else (0, d)
    | some (r, o) =>
      let v := d.regValue r
      if r.card.width = 32 then (v % 2 ^ 32, d)
      else if o = 0 then
        (v % 2 ^ 32, ({ d with latch := tset (fun _ => 0) d.latch r.latchKey (v / 2 ^ 32 + 1) } : Dev).sampleTaken r)
      else match tget (fun _ => 0) d.latch r.latchKey with
        | 0 => (v / 2 ^ 32, d.sampleTaken r)
        | k + 1 => (k, d.unlatch r)

/-- An aligned 64-bit read at `a`: atomic; of two 32-bit registers, both. -/
def Dev.read64 (m : Mems) (d : Dev) (a : Nat) : Nat × Dev :=
  match (if d.responds a then regHit a else none) with
  | some (r, 0) =>
    if r.card.width = 64 then (d.regValue r, (d.unlatch r).sampleTaken r)
    else
      let x := Dev.read32 m d a
      let y := Dev.read32 m x.2 (a + 4)
      (x.1 + y.1 * 2 ^ 32, y.2)
  | _ =>
    let x := Dev.read32 m d a
    let y := Dev.read32 m x.2 (a + 4)
    (x.1 + y.1 * 2 ^ 32, y.2)

/-- A read of `n` = 1 to 3 bytes at `a`, which lie in one aligned 32-bit word: the addressed bytes as they stand; it sets and ends no latch (R13, R14). -/
def Dev.readNarrow (m : Mems) (d : Dev) (a n : Nat) : Nat × Dev :=
  match (if d.responds a then regHit a else none) with
  | some (r, o) => (bits (d.regValue r) (8 * o) (8 * n), d.sampleTaken r)
  | none => (bits (Dev.read32 m d (a / 4 * 4)).1 (8 * (a % 4)) (8 * n), d)

/-- A read of `n` bytes (R13): naturally aligned, 1 to 8 bytes, one of 3 bytes within an aligned 32-bit word; an unaligned one returns zeroes. -/
def Dev.readReg (m : Mems) (d : Dev) (a n : Nat) : Nat × Dev :=
  if n = 0 ∨ (if n = 3 then 1 < a % 4 else a % n ≠ 0) then (0, d)
  else if n = 8 then Dev.read64 m d a
  else if n = 4 then Dev.read32 m d a
  else if n < 4 then Dev.readNarrow m d a n
  else (0, d)

/-- A host access that reads `n` bytes. -/
def Dev.hostRead (m : Mems) (d : Dev) (a n : Nat) : Dev :=
  if !(d.kl.powered && d.on .DEV_UNITS_FINAL 0 && !d.gd.perst) then d.answer (bytesOf n 0)
  else
    let d1 := (d.wake).upKl (fun K => { K with hostAt := d.now })
    let x := Dev.readReg m d1 a n
    x.2.answer (bytesOf n x.1)
/-- The number of bytes that a host read names above the offset: 4 where it names none. -/
def readWidth (addr : Nat) : Nat := if addr / 2 ^ 28 = 0 then 4 else addr / 2 ^ 28
/-- LOW_HALF_READ, or a host read of another width (R13). -/
def execLowHalfRead (addr : Nat) (s : State) : Host.Outcome State Fault Refusal :=
  guardUnit (decide (addr / 2 ^ 28 ≤ 8)) (s.onDevM (fun m d => Dev.hostRead m d (addr % 2 ^ 28) (readWidth addr)))
/-- HIGH_HALF_READ. -/
def execHighHalfRead (addr : Nat) (s : State) : Host.Outcome State Fault Refusal :=
  guardUnit true (s.onDevM (fun m d => Dev.hostRead m d addr 4))

/-! ## Which block counts as running (R20) -/

/-- The block of register `r` counts as running. -/
def Dev.regRunning (d : Dev) (r : RegAt) : Bool :=
  match r.blk with
  | .site => d.siteRunning r.bi
  | .pin => d.pinRunning r.bi || (r.card.reg == .PIN_TM_CTRL && (d.inpBusy (2 * r.bi) || d.inpBusy (2 * r.bi + 1)))
  | .fr => d.siteRunning r.ix
  | .wv => d.wvRunning r.bi
  | .ta =>
    if r.card.reg == .TA_SPAN then
      (List.range 16).any (fun k => d.on .TA_SLOT_CTRL_EN k && (d.on .TA_SLOT_CTRL_FWD k || d.rd .TA_SLOT_CTRL_SRC k == 6))
    else d.on .TA_SLOT_CTRL_EN r.ix
  | .mc => !d.mcIdle
  | .br => d.brRunning
  | .rnport => d.lstate r.bi != 0
  | .rnlane => d.lstate (r.bi / 4) != 0
  | .tw => d.anyRunning || d.role == 2
  | .cs => d.cs.load.isSome
  | .oct => d.tracker.any (fun x => descOp x.desc == 0x28 && descTarget x.desc == r.bi / 2 && x.begun && !x.done)
  | _ => false

/-! ## Writes (R15 to R21) -/

/-- Group COND of site `n` is pending; what it was before this engine cycle is kept (R19). -/
def Dev.condStaged (d : Dev) (n : Nat) : Dev :=
  d.upSite n (fun S => { S with condPend := true, condWas := if S.condAt = some d.cycle then S.condWas else S.condPend, condAt := some d.cycle })

/-- The staged group that register `r` belongs to has a shadow to move (R19, R172, R264). -/
def Dev.stagedWrite (d : Dev) (r : RegAt) : Dev :=
  match r.blk, r.card.reg with
  | .site, .SITE_CSRC => d.condStaged r.bi
  | .site, .SITE_SPAN_CMASK => d.condStaged r.bi
  | .pin, _ =>
    if r.card.count = 32 then d.wr .PIN_TS_PENDING_SET r.bi (setBit (d.rd .PIN_TS_PENDING_SET r.bi) r.ix true)
    else d.set1 .PIN_TF_STATUS_DESKEW_PENDING r.bi
  | .wv, _ => d.set1 .WV_STATUS_TONE_PENDING r.bi
  | _, _ => d

/-- The shadow of register `r`, and its group's pending bit, are kept as they are for a seam of this engine cycle (R19). -/
def Dev.stageReg (d : Dev) (r : RegAt) : Dev :=
  let d1 := match r.blk with
    | .pin => if r.card.count = 32 then d.stage .PIN_TS_PENDING_SET r.bi else d.stage .PIN_TF_STATUS_DESKEW_PENDING r.bi
    | .wv => d.stage .WV_STATUS_TONE_PENDING r.bi
    | _ => d
  r.parts.foldl (fun d x => d.stage x.1 x.2.1) d1

/-- The fields of register `r` take the write, each by its class; a staged group becomes pending. -/
def Dev.plainWrite (d : Dev) (r : RegAt) (p : Part) (v : Nat) : Dev :=
  if r.card.fields.any (fun f => f.spec.cls == .S) then (d.stageReg r |>.writeReg r p v (d.regRunning r)).stagedWrite r
  else d.writeReg r p v (d.regRunning r)

/-- A write that has cleared one-bit field `f` of instance `i` clears `g` with it (R350). -/
def Dev.clearWith (d : Dev) (f g : Fld) (i : Nat) (p : Part) (v : Nat) : Dev :=
  if wroteBits f p v = 0 || d.on f i then d else d.clr g i

/-- A write to DEV_REFUSED (R21). -/
def Dev.refusedWrite (d : Dev) (r : RegAt) (p : Part) (v : Nat) : Dev :=
  if wroteBits .DEV_REFUSED_VALID p v = 0 then d.plainWrite r p v else (d.plainWrite r p v).refusedCleared

/-- A write to FC_SUMMARY: FIRST_MORE goes with FIRST_VALID, and a first fault of the same engine cycle is copied (R452). -/
def Dev.summaryWrite (d : Dev) (r : RegAt) (p : Part) (v : Nat) : Dev :=
  if wroteBits .FC_SUMMARY_FIRST_VALID p v = 0 then d.plainWrite r p v else (d.plainWrite r p v).firstCleared

/-- A write to FC_IRQ: a clear that meets an event of the same engine cycle leaves PENDING and requests again (R454). -/
def Dev.irqWrite (d : Dev) (r : RegAt) (p : Part) (v : Nat) : List Put × Dev :=
  let d1 := d.plainWrite r p v
  if wroteBits .FC_IRQ_PENDING p v ≠ 0 ∧ d1.on .FC_IRQ_PENDING 0 ∧ d1.on .FC_CTRL_IRQ_EN 0 then d1.request (d1.rd .FC_CTRL_VECTOR 0) 0
  else ([], d1)

/-- The FC_SRC_CFG of source `s` after a write: a FATAL source's HALT, SAFE, FAULT_L and JOURNAL stay 1 (R445). -/
def Dev.srcCfgFix (d : Dev) (s : Nat) : Dev :=
  if srcClass s = some 3 then
    [Fld.FC_SRC_CFG_HALT, .FC_SRC_CFG_SAFE, .FC_SRC_CFG_FAULT_L, .FC_SRC_CFG_JOURNAL].foldl (fun d f => d.set1 f s) d
  else d

/-- A write to FC_SRC_STAT of source `s` (R449). -/
def Dev.srcStat (d : Dev) (s : Nat) (p : Part) (v : Nat) : Dev :=
  let d1 := if wroteBits .FC_SRC_STAT_ESCALATED p v = 0 then d else d.clrBy .FC_SRC_STAT_ESCALATED s
  if wroteBits .FC_SRC_STAT_STATUS p v = 0 then d1 else d1.clearStatus s

/-- DAC_EN and ADC_EN of channel `w` after a write (R253). -/
def Dev.wvCtrl (d : Dev) (r : RegAt) (v : Nat) : Dev :=
  let d1 := d.plainWrite r .whole v
  let d2 := if d1.on .WV_CTRL_DAC_EN r.bi = d.on .WV_CTRL_DAC_EN r.bi then d1 else d1.wvDacEn r.bi
  if d2.on .WV_CTRL_ADC_EN r.bi = d.on .WV_CTRL_ADC_EN r.bi then d2 else d2.wvAdcEn r.bi

/-- The routes of pin `p`'s inputs after a write to PIN_TM_CTRL. -/
def Dev.tmCtrl (d : Dev) (r : RegAt) (v : Nat) : Dev := ((d.plainWrite r .whole v).route (2 * r.bi)).route (2 * r.bi + 1)

/-- A change of IDLE_CODE reaches the pin (R517). -/
def Dev.seqCtrl (d : Dev) (r : RegAt) (v : Nat) : Dev :=
  let d1 := d.plainWrite r .whole v
  if d1.rd .PIN_SEQ_CTRL_IDLE_CODE r.bi = d.rd .PIN_SEQ_CTRL_IDLE_CODE r.bi then d1 else d1.driveIdle r.bi

/-- A write of `v` to part `p` of register `r`. -/
def Dev.regWrite (m : Mems) (d0 : Dev) (r : RegAt) (p : Part) (v : Nat) : List Put × Dev :=
  let d := if r.card.width = 64 then d0.unlatch r else d0
  let i := r.inst
  let w := v % 2 ^ 32
  match r.card.reg with
  | .DEV_REFUSED => ([], d.refusedWrite r p v)
  | .DEV_RESET => ([], if w % 65536 = 0x0B07 then d.upGd (fun G => { G with keyed := true }) else d)
  | .DEV_EV_CTRL => ([], (d.plainWrite r p v).evWrite i)
  | .GD_WIN_CMD => ([], Dev.winCmd m d w)
  | .FC_CTRL => ([], d.fcCtrl w)
  | .FC_AON => ([], d.fcAon w)
  | .FC_INJECT => ([], d.inject w)
  | .FC_ALIAS => ([], d.aliasWrite w)
  | .FC_SUMMARY => ([], d.summaryWrite r p v)
  | .FC_IRQ => d.irqWrite r p v
  | .FC_SRC_CFG => ([], (d.plainWrite r p v).srcCfgFix i)
  | .FC_SRC_STAT => ([], d.srcStat i p v)
  | .KL_BOUNDARY => ([], d.boundaryWrite w)
  | .KL_PSTATE => ([], d.pstateWrite w)
  | .BR_CTRL => ([], d.brCtrl w)
  | .BR_COMMIT => ([], d.brCommit w)
  | .BR_FCW => ([], (d.plainWrite r p v).retarget)
  | .BR_AGE_RATE => ([], (d.plainWrite r p v).retarget)
  | .BR_AGE_EPOCH => ([], (d.plainWrite r p v).retarget)
  | .TL_CTRL => ([], d.tlCtrl w)
  | .TL_CFG => ([], d.tlCfg i w)
  | .TL_CNT => ([], d.tlCnt i p v)
  | .CS_POLICY => ([], (d.plainWrite r p v).wr .CS_POLICY_SLOTS 0 (d.rd .CS_POLICY_SLOTS 0 &&& bits w (Fld.spec .CS_POLICY_SLOTS).lo 2))
  | .RG_CTX_CMD => ([], d.ctxCmd (bits w (Fld.spec .RG_CTX_CMD_RING).lo 16) (bits w (Fld.spec .RG_CTX_CMD_CMD).lo (Fld.spec .RG_CTX_CMD_CMD).width))
  | .RG_TOKEN => ([], d.tokenWrite i w)
  | .RG_MSIX_CTRL => (d.plainWrite r p v).unmask i
  | .MC_CTRL => ([], d.mcCtrl w)
  | .MC_ERR => ([], (d.plainWrite r p v).clearWith .MC_ERR_VALID .MC_ERR_MORE 0 p v)
  | .TW_CTRL => ([], d.twCtrl w)
  | .TA_SLOT_CTRL => ([], d.slotCtrl i w)
  | .TA_FORCE => ([], d.taForce w)
  | .SITE_MEMBER => ([], d.writeMember r.bi r.ix (p.onto (d.rd .SITE_MEMBER_MASK i) v) (r.addr + (if p = .high then 4 else 0)))
  | .SITE_COMMIT => ([], d.siteCommit i w)
  | .PIN_TS_COMMIT => ([], d.tsCommit i w)
  | .PIN_TF_COMMIT => ([], d.tfCommit i w)
  | .PIN_TS_REJECT => ([], (d.plainWrite r p v).clearWith .PIN_TS_REJECT_VALID .PIN_TS_REJECT_MORE i p v)
  | .PIN_DSQ_STATUS => ([], (d.plainWrite r p v).clearWith .PIN_DSQ_STATUS_FAULT .PIN_DSQ_STATUS_FSLOT i p v)
  | .PIN_TM_CTRL => ([], d.tmCtrl r w)
  | .PIN_SEQ_CTRL => ([], d.seqCtrl r w)
  | .FR_SITE_CTRL => ([], d.frCtrl i w)
  | .WV_CTRL => ([], d.wvCtrl r w)
  | .WV_COMMIT => ([], d.wvCommit i w)
  | .WV_JUMP => ([], d.wvJump i w)
  | .WV_STREAM_WP => ([], Dev.wvStreamWp m d i w)
  | .RN_PORT_CTRL => ([], d.portCtrl i w)
  | _ => ([], d.plainWrite r p v)

/-- An aligned 32-bit write. -/
def Dev.write32 (m : Mems) (d : Dev) (a v : Nat) : List Put × Dev :=
  if !d.responds a then ([], d)
  else match regHit a with
    | some (r, o) => Dev.regWrite m d r (if r.card.width = 64 then (if o = 0 then .low else .high) else .whole) (v % 2 ^ 32)
    | none => (if 0x1_8000 ≤ a ∧ a < 0x2_0000 then [.win (a - 0x1_8000) (bytesOf 4 v)] else [], d)

/-- An aligned 64-bit write: of a 64-bit register whole, else two 32-bit writes, the lower address first. -/
def Dev.write64 (m : Mems) (d : Dev) (a v : Nat) : List Put × Dev :=
  match (if d.responds a then regHit a else none) with
  | some (r, 0) =>
    if r.card.width = 64 then Dev.regWrite m d r .whole (v % 2 ^ 64)
    else
      let x := Dev.write32 m d a v
      let y := Dev.write32 m x.2 (a + 4) (v / 2 ^ 32)
      (x.1 ++ y.1, y.2)
  | _ =>
    let x := Dev.write32 m d a v
    let y := Dev.write32 m x.2 (a + 4) (v / 2 ^ 32)
    (x.1 ++ y.1, y.2)

/-- A write of `n` bytes: narrow or unaligned ones are discarded, and recorded where a byte lies in a register (R13). -/
def Dev.writeBytes (m : Mems) (d : Dev) (a n v : Nat) : List Put × Dev :=
  if n = 4 ∧ a % 4 = 0 then Dev.write32 m d a v
  else if n = 8 ∧ a % 8 = 0 then Dev.write64 m d a v
  else ([], if (List.range n).any (fun k => d.responds (a + k) && (regHit (a + k)).isSome) then d.refuse 1 a else d)

/-- REGISTER_WRITE. -/
def execRegisterWrite (addr bytes : Nat) (v : Word) (s : State) : Host.Outcome State Fault Refusal :=
  guardUnit (decide (1 ≤ bytes) && decide (bytes ≤ 8)) (s.onMem (fun m d =>
    if d.kl.powered && d.on .DEV_UNITS_FINAL 0 && !d.gd.perst then
      Dev.writeBytes m ((d.wake).upKl (fun K => { K with hostAt := d.now })) addr bytes v.toNat
    else ([], d)))

/-! ## REG_WRITE and REG_READ (R303, R304, R308, R398) -/

/-- A standby skips the pair at `a` (R398). -/
def Dev.pairSkipped (d : Dev) (a : Nat) : Bool :=
  d.follows && ((decide (0xA_0000 ≤ a) && decide (a < 0xB_0000)) || a / 0x1000 == 0x210 + d.twinPort ||
    (decide (0x20_0000 ≤ a) && decide (a < 0x21_0000) && (a - 0x20_0000) / 0x4000 == d.twinPort))

/-- One pair of a REG_WRITE; token writes and context commands of a mirrored descriptor are not mirrored again. -/
def Dev.applyPair (m : Mems) (d : Dev) (pair : Nat) : List Put × Dev :=
  let a := bits pair 0 28
  let v := bits pair 64 64
  let role := d.role
  if d.pairSkipped a then ([], d)
  else
    let own : Bool := decide (0x8_0000 ≤ a) && decide (a < 0x9_0000)
    let d1 := if own then d.wr .TW_STATUS_ROLE 0 0 else d
    let r := Dev.writeBytes m d1 a (if bitAt pair 31 then 8 else 4) v
    (r.1, if own then r.2.wr .TW_STATUS_ROLE 0 role else r.2)

/-- What a pair at `a` that has been applied makes the REG_WRITE wait for: the retrains in progress of an operating point, the training step
of a lane rate (R308, R348, R376). -/
def Dev.pairDue (d : Dev) (a : Nat) : Nat :=
  if a / 8 * 8 = 0x9_0000 ∧ d.on .MC_STATUS_OP_PENDING 0 ∧ d.now < d.trainsEnd then d.dueFor 1
  else match (List.range 4).find? (fun p => a / 8 * 8 == 0x21_0000 + 0x1000 * p && d.on .RN_PORT_STATUS_RATE_PENDING p) with
    | some p => d.dueFor (2 + p)
    | none => 0

/-- The number of refusals raised. -/
def Dev.refusals (d : Dev) : Nat := (d.raised.filter (fun r => r.src == 0x150)).length

/-- RESULT of a REG_WRITE: applied, refused, index of the first refused, deferral. -/
def pairResult (applied refused first defer : Nat) : Nat :=
  applied * 2 ^ 96 + refused * 2 ^ 64 + first * 2 ^ 32 + min defer (2 ^ 32 - 1)

/-- The next pair of the REG_WRITE in `x`. -/
def Dev.nextPair (m : Mems) (d : Dev) (x : Entry) (pair : Nat) : List Put × Dev :=
  let q := Dev.applyPair m d pair
  let refused : Bool := decide (d.refusals < q.2.refusals)
  let k := x.progress
  let R := if k = 0 then pairResult 0 0 (2 ^ 32 - 1) 0 else x.result
  let R1 := if refused then pairResult (bits R 96 32) (bits R 64 32 + 1) (if bits R 64 32 = 0 then k else bits R 32 32) (bits R 0 32)
    else pairResult (bits R 96 32 + 1) (bits R 64 32) (bits R 32 32) (bits R 0 32)
  (q.1, (q.2.moved x.id (k + 1) R1).upEntry x.id (fun y => { y with due := q.2.pairDue (bits pair 0 28) }))

/-- The pairs of a REG_WRITE in order, until one waits or the last has been applied. -/
def Dev.pairs (m : Mems) (e : Nat) : List Nat → Dev → List Put × Dev
  | [], d => ([], d)
  | pr :: t, d =>
    match d.open? e 0x08 with
    | none => ([], d)
    | some x =>
      if x.due ≠ 0 ∨ descField x.desc 16 0 32 ≤ x.progress then ([], d)
      else
        let q := Dev.nextPair m (d.ask (descField x.desc 8 0 64 + 16 * x.progress) 16) x pr
        let r := Dev.pairs m e t q.2
        (q.1 ++ r.1, r.2)

/-- The REG_WRITE in entry `e` completes after its last pair, when that waits for nothing. -/
def Dev.pairsEnd (d : Dev) (e : Nat) : Dev :=
  match d.open? e 0x08 with
  | none => d
  | some x =>
    if x.progress = descField x.desc 16 0 32 ∧ x.due = 0 then d.finish e x.status x.result else d

/-- REG_WRITE: the next pairs of its list. -/
def Dev.regWriteCmd (m : Mems) (d : Dev) (e : Nat) (pairs : List Nat) : List Put × Dev :=
  match d.open? e 0x08 with
  | none => ([], d)
  | some x =>
    let n := descField x.desc 16 0 32
    if n = 0 ∨ 65536 < n ∨ descField x.desc 8 0 64 % 16 ≠ 0 then ([], d.finish e Status.INVALID 0)
    else
      let r := Dev.pairs m e pairs d
      (r.1, r.2.pairsEnd e)
/-- REG_WRITE. -/
def execRegWrite (e : Nat) (pairs : List Nat) (s : State) : Host.Outcome State Fault Refusal :=
  guardUnit true (s.onMem (fun m d => Dev.regWriteCmd m d e pairs))

/-- REG_READ: the next register. -/
def Dev.regReadCmd (m : Mems) (d : Dev) (e : Nat) : List Put × Dev :=
  match d.open? e 0x09 with
  | none => ([], d)
  | some x =>
    let n := descField x.desc 12 0 16
    let wide := bitAt (descField x.desc 14 0 8) 0
    let w := if wide then 8 else 4
    if n = 0 ∨ 4096 < n then ([], d.finish e Status.INVALID 0)
    else
      let k := x.progress
      let v := Dev.readReg m d (descField x.desc 8 0 32 + w * k) w
      let r := (if k = 0 then v.1 else bits x.result 64 64) * 2 ^ 64 + (k + 1) * 2 ^ 32
      let d1 := v.2.moved e (k + 1) r
      (d.toHost (descField x.desc 16 0 64 + w * k) (bytesOf w v.1), if k + 1 = n then d1.finish e x.status r else d1)
/-- REG_READ. -/
def execRegRead (e : Nat) (s : State) : Host.Outcome State Fault Refusal :=
  guardUnit true (s.onMem (fun m d => Dev.regReadCmd m d e))

/-! ## The HBM window (R288, R515) -/

/-- The window takes an access of `n` bytes at offset `off`: naturally aligned, 1 to 64 bytes, inside the window. -/
def winAccess (off n : Nat) : Bool := [1, 2, 4, 8, 16, 32, 64].contains n && off % n == 0 && decide (off + n ≤ 2 ^ 27)

/-- HBM_WINDOW_ACCESS: a write of `data`, or a read of `len` bytes, poisoned where it covers a spoilt word (R350). -/
def Dev.windowAccess (m : Mems) (d : Dev) (off len : Nat) (data : Option (List Byte)) : List Put × Dev :=
  let a := d.rd .RG_WIN_BASE_ADDR 0 * 2 ^ (Fld.spec .RG_WIN_BASE_ADDR).lo + off
  let n := match data with | some bs => bs.length | none => len
  let ok : Bool := winAccess off n && !d.localMode && d.hbmOk a n
  match data with
  | some bs => if ok then ([.hbm a bs], d.hbm true .window a n) else ([], d)
  | none =>
    if ok then
      let d1 := (d.answer (readMem byte0 m.hbm a n)).hbm false .window a n
      ([], { d1 with poisoned := (wordsOf a n).any (fun w => d.mc.bad.contains w && !d.covered (d.pcOf a) w), mc := { d1.mc with winNo := some d.mc.no } })
    else ([], d.answer (bytesOf n 0))

end Sys2Proof.Machine
end

