-- ==== Sys2Proof/Machine/HostWrites.lean ====
section
/-!
DEFINITION. The commands that are host writes to registers and doorbells with rows of their own: an access that the device does not
serve does nothing, one that finds it asleep wakes it first (R424, R473, R513).
-/
namespace Sys2Proof.Machine

/-- SITE_COMMIT. -/
def execSiteCommit (n : Nat) (v : Word) (s : State) : Host.Outcome State Fault Refusal :=
  guardUnit (siteOk n) (s.onDev (Dev.hosted (fun d => d.siteCommit n v.toNat)))
/-- PIN_TS_COMMIT. -/
def execPinTsCommit (p : Nat) (v : Word) (s : State) : Host.Outcome State Fault Refusal :=
  guardUnit (decide (p < 256)) (s.onDev (Dev.hosted (fun d => d.tsCommit p v.toNat)))
/-- PIN_TF_COMMIT. -/
def execPinTfCommit (p : Nat) (v : Word) (s : State) : Host.Outcome State Fault Refusal :=
  guardUnit (decide (p < 256)) (s.onDev (Dev.hosted (fun d => d.tfCommit p v.toNat)))
/-- WV_COMMIT. -/
def execWvCommit (w : Nat) (v : Word) (s : State) : Host.Outcome State Fault Refusal :=
  guardUnit (decide (w < 8)) (s.onDev (Dev.hosted (fun d => d.wvCommit w v.toNat)))
/-- SITE_MEMBER_WRITE. -/
def execSiteMemberWrite (n k : Nat) (part : Part) (v : Word) (s : State) : Host.Outcome State Fault Refusal :=
  guardUnit (siteOk n && decide (k < 4)) (s.onDev (Dev.hosted (fun d =>
    (d.unlatchAt (0x10_0000 + 0x1000 * n + 0x20 + 8 * k)).writeMember n k (part.onto (d.rd .SITE_MEMBER_MASK (n * 4 + k)) v.toNat)
      (0x10_0000 + 0x1000 * n + 0x20 + 8 * k + (if part = .high then 4 else 0)))))
/-- FR_SITE_CLEAR. -/
def execFrSiteClear (n : Nat) (v : Word) (s : State) : Host.Outcome State Fault Refusal :=
  guardUnit (siteOk n) (s.onDev (Dev.hosted (fun d => d.frCtrl n v.toNat)))
/-- WV_JUMP. -/
def execWvJump (w : Nat) (v : Word) (s : State) : Host.Outcome State Fault Refusal :=
  guardUnit (decide (w < 8)) (s.onDev (Dev.hosted (fun d => d.wvJump w v.toNat)))
/-- WV_STREAM_WP. -/
def execWvStreamWp (w : Nat) (v : Word) (s : State) : Host.Outcome State Fault Refusal :=
  guardUnit (decide (w < 8)) (s.onDevM (fun m => Dev.hosted (fun d => Dev.wvStreamWp m d w (v.toNat % 2 ^ 32))))
/-- SLOT_ENABLE. -/
def execSlotEnable (k : Nat) (v : Word) (s : State) : Host.Outcome State Fault Refusal :=
  guardUnit (decide (k < 16)) (s.onDev (Dev.hosted (fun d => d.slotCtrl k (setBit (v.toNat % 2 ^ 32) 31 true))))
/-- SLOT_ARM. -/
def execSlotArm (k : Nat) (v : Word) (s : State) : Host.Outcome State Fault Refusal :=
  guardUnit (decide (k < 16)) (s.onDev (Dev.hosted (fun d => d.slotCtrl k (setBit (v.toNat % 2 ^ 32) 30 true))))
/-- TA_FORCE. -/
def execTaForce (v : Word) (s : State) : Host.Outcome State Fault Refusal :=
  guardUnit true (s.onDev (Dev.hosted (fun d => d.taForce v.toNat)))
/-- SQ_TAIL. -/
def execSqTail (r : Nat) (v : Word) (s : State) : Host.Outcome State Fault Refusal :=
  guardUnit (decide (r < 65536)) (s.onDev (Dev.hosted (fun d => d.sqTail r (v.toNat % 2 ^ 32))))
/-- CQ_HEAD. -/
def execCqHead (r : Nat) (v : Word) (s : State) : Host.Outcome State Fault Refusal :=
  guardUnit (decide (r < 65536)) (s.onDev (Dev.hosted (fun d => d.cqHead r (v.toNat % 2 ^ 32))))
/-- CONTEXT_LOAD. -/
def execContextLoad (r : Nat) (s : State) : Host.Outcome State Fault Refusal :=
  guardUnit (decide (r < 65536)) (s.onDev (Dev.hosted (fun d => d.ctxCmd r 1)))
/-- CONTEXT_STORE. -/
def execContextStore (r : Nat) (s : State) : Host.Outcome State Fault Refusal :=
  guardUnit (decide (r < 65536)) (s.onDev (Dev.hosted (fun d => d.ctxCmd r 2)))
/-- ENABLE. -/
def execEnable (r : Nat) (s : State) : Host.Outcome State Fault Refusal :=
  guardUnit (decide (r < 65536)) (s.onDev (Dev.hosted (fun d => d.ctxCmd r 3)))
/-- DISABLE. -/
def execDisable (r : Nat) (s : State) : Host.Outcome State Fault Refusal :=
  guardUnit (decide (r < 65536)) (s.onDev (Dev.hosted (fun d => d.ctxCmd r 4)))
/-- RESTART. -/
def execRestart (r : Nat) (s : State) : Host.Outcome State Fault Refusal :=
  guardUnit (decide (r < 65536)) (s.onDev (Dev.hosted (fun d => d.ctxCmd r 5)))
/-- TOKEN_WRITE. -/
def execTokenWrite (t : Nat) (v : Word) (s : State) : Host.Outcome State Fault Refusal :=
  guardUnit (decide (t < 4096)) (s.onDev (Dev.hosted (fun d => d.tokenWrite t (v.toNat % 2 ^ 32))))
/-- OPPOINT_WRITE. -/
def execOppointWrite (v : Word) (s : State) : Host.Outcome State Fault Refusal :=
  guardUnit true (s.onDev (Dev.hosted (fun d => d.mcCtrl (v.toNat % 2 ^ 32))))
/-- STEP_COMMIT. -/
def execStepCommit (v : Word) (s : State) : Host.Outcome State Fault Refusal :=
  guardUnit true (s.onDev (Dev.hosted (fun d => d.brCommit v.toNat)))
/-- DISCIPLINE_MODE_WRITE. -/
def execDisciplineModeWrite (v : Word) (s : State) : Host.Outcome State Fault Refusal :=
  guardUnit true (s.onDev (Dev.hosted (fun d => d.brCtrl (v.toNat % 2 ^ 32))))
/-- PORT_ENABLE. -/
def execPortEnable (pt : Nat) (v : Word) (s : State) : Host.Outcome State Fault Refusal :=
  guardUnit (decide (pt < 4)) (s.onDev (Dev.hosted (fun d => d.portCtrl pt (v.toNat % 2 ^ 32))))
/-- RATE_MAX_WRITE. -/
def execRateMaxWrite (pt : Nat) (v : Word) (s : State) : Host.Outcome State Fault Refusal :=
  guardUnit (decide (pt < 4)) (s.onDev (Dev.hosted (fun d => d.portCtrl pt (v.toNat % 2 ^ 32))))
/-- TWIN_ENABLE. -/
def execTwinEnable (v : Word) (s : State) : Host.Outcome State Fault Refusal :=
  guardUnit true (s.onDev (Dev.hosted (fun d => d.twCtrl (v.toNat % 2 ^ 32))))
/-- BOUNDARY_WRITE. -/
def execBoundaryWrite (v : Word) (s : State) : Host.Outcome State Fault Refusal :=
  guardUnit true (s.onDev (Dev.hosted (fun d => d.boundaryWrite v.toNat)))
/-- SLEEP_REQUEST. -/
def execSleepRequest (v : Word) (s : State) : Host.Outcome State Fault Refusal :=
  guardUnit true (s.onDev (Dev.hosted (fun d => d.pstateWrite (v.toNat % 2 ^ 32))))
/-- The 64-bit register at offset `o` of the user page of group `g`: a counter or a snapshot of the group; anything else reads as 0 (R468). -/
def Dev.userReg (d : Dev) (g o : Nat) : Nat :=
  let i := o % 2048 / 8
  if o < 4096 ∧ i < 64 ∧ d.rd .TL_CFG_GROUP i = g then (if o < 2048 then d.rd .TL_CNT_COUNT i else d.rd .TL_SNAP_COUNT i) else 0

/-- A read of `n` bytes at offset `a` of BAR4's user pages, by the width rules of R13; 32-bit reads latch as R14 says, with a latch for each
register of each page (log entry 98). -/
def Dev.userRead (d : Dev) (a n : Nat) : Dev :=
  let v := d.userReg (a / 65536) (a % 65536)
  let key := 2 ^ 28 + a / 8 * 8
  if n = 0 ∨ 8 < n ∨ (if n = 3 then 1 < a % 4 else a % n ≠ 0) then d.answer (bytesOf n 0)
  else if n = 8 then (d.unlatchAt key).answer (bytesOf 8 v)
  else if n = 4 ∧ a % 8 = 0 then ({ d with latch := tset (fun _ => 0) d.latch key (v / 2 ^ 32 + 1) } : Dev).answer (bytesOf 4 v)
  else if n = 4 then match tget (fun _ => 0) d.latch key with
    | 0 => d.answer (bytesOf 4 (v / 2 ^ 32))
    | k + 1 => (d.unlatchAt key).answer (bytesOf 4 k)
  else d.answer (bytesOf n (v / 2 ^ (8 * (a % 8))))

/-- An access to BAR4: at window offset `off`, or, from 128 MB on, at BAR4 offset `off` - 128 MB, of which the first 16 MB are the user pages (R287,
R468; log entry 98). -/
def Dev.bar4 (m : Mems) (d : Dev) (off len : Nat) (data : Option (List Byte)) : List Put × Dev :=
  let a := off - 2 ^ 27
  if off < 2 ^ 27 then Dev.windowAccess m d off len data
  else match data with
    | some bs => ([], if a < 2 ^ 24 ∧ a % 65536 = 0xFF00 ∧ 4 ≤ bs.length ∧ bs.length ≤ 8 then d.snapshot (fun i => d.rd .TL_CFG_GROUP i == a / 65536) else d)
    | none => ([], if a < 2 ^ 24 then d.userRead a len else d.answer (bytesOf len 0))

/-- HBM_WINDOW_ACCESS. -/
def execHbmWindowAccess (off len : Nat) (data : Option (List Byte)) (s : State) : Host.Outcome State Fault Refusal :=
  guardUnit true (s.onMem (fun m d =>
    match d.access? with
    | some d1 => Dev.bar4 m d1 off len data
    | none => ([], d)))

end Sys2Proof.Machine
end

