-- ==== Sys2Proof/Machine/Companion.lean ====
section
/-!
DEFINITION. The pin-electronics control ports (R493 to R496): PE_XFER and its timeout.
-/
namespace Sys2Proof.Machine

/-- TX_LEN, RX_LEN and TMO_US (0: 1,000) of a PE_XFER. -/
def peTx (x : Entry) : Nat := descField x.desc 24 0 16
def peRx (x : Entry) : Nat := descField x.desc 26 0 16
def peTmo (x : Entry) : Nat := if descField x.desc 28 0 16 = 0 then 1000 else descField x.desc 28 0 16

/-- An earlier PE_XFER holds the port of entry `x` (R318, R495). -/
def Dev.peAhead (d : Dev) (x : Entry) : Bool :=
  d.tracker.any (fun y => descOp y.desc == 0x28 && descTarget y.desc == descTarget x.desc && decide (y.id < x.id) && !y.done)

/-- CS_L is deasserted and the transfer of entry `x` completes (R494, R495). -/
def Dev.peEnd (d : Dev) (x : Entry) (status result : Nat) : Dev :=
  (d.clr .OCT_PEC_STATUS_BUSY (2 * descTarget x.desc)).finish x.id status result

/-- The transfer of entry `x` begins: CS_L is asserted and `tx` is sent. -/
def Dev.peBegin (d : Dev) (x : Entry) (tx : List Byte) : Dev :=
  let k := descTarget x.desc
  let d1 := ((d.count .OCT_PEC_STATUS_XFERS (2 * k) 1).set1 .OCT_PEC_STATUS_BUSY (2 * k)).touch x.id
  let d2 := d1.upEntry x.id (fun y => { y with due := d.now })
  { d2.ask (descField x.desc 8 0 64) (peTx x) with pec := tset (fun _ => []) d2.pec k (tx.take (peTx x)) }

/-- The companion answers with status byte `st` and then the bytes `rx`: READY ends the transfer, with NAK nothing is received. -/
def Dev.peReply (d : Dev) (x : Entry) (st : Byte) (rx : List Byte) : List Put × Dev :=
  if !st.getLsbD 7 then ([], d)
  else if st.getLsbD 6 then
    ([], (d.count .OCT_PEC_STATUS_NAKS (2 * descTarget x.desc) 1).peEnd x Status.PE_NAK (st.toNat * 2 ^ 104))
  else
    let n := peRx x
    ((if n = 0 then [] else d.toHost (descField x.desc 16 0 64) ((List.range n).map (fun i => rx.getD i 0))),
      d.peEnd x x.status (n * 2 ^ 112 + st.toNat * 2 ^ 104))

/-- The stopped transfer of entry `x` ends after the byte in progress: `reply` is what the companion has sent by then (R324, R496). -/
def Dev.peStop (d : Dev) (x : Entry) (reply : Option (List Byte)) : List Put × Dev :=
  let got := reply.getD []
  let rx := if (got.headD 0).getLsbD 7 && !(got.headD 0).getLsbD 6 then (got.drop 1).take (peRx x) else []
  ((if rx.isEmpty then [] else d.toHost (descField x.desc 16 0 64) rx),
    d.peEnd x Status.ABORTED_PARTIAL (rx.length * 2 ^ 112 + (got.headD 0).toNat * 2 ^ 104))

/-- PE_XFER: the transfer in entry `e` begins with the bytes `tx`, or goes on; `reply`: the status byte and the bytes after it, none
while the companion is not ready. A stopped transfer ends after the byte in progress (R496). -/
def Dev.peXfer (d : Dev) (e : Nat) (tx : List Byte) (reply : Option (List Byte)) : List Put × Dev :=
  match d.open? e 0x28 with
  | none => ([], d)
  | some x =>
    if x.stopping then d.peStop x reply
    else if peTx x = 0 ∨ 4096 < peTx x ∨ 4096 < peRx x then ([], d.finish e Status.INVALID 0)
    else if d.peAhead x then ([], d)
    else
      let d1 := if x.begun then d else d.peBegin x tx
      match reply with
      | some (st :: rx) => d1.peReply x st rx
      | _ => ([], d1)
/-- PE_XFER. -/
def execPeXfer (e : Nat) (tx : List Byte) (reply : Option (List Byte)) (s : State) : Host.Outcome State Fault Refusal :=
  guardUnit true (s.onMem (fun _ d => d.peXfer e tx reply))

/-- PE_XFER_TIMEOUT (R495). -/
def Dev.peTimeout (d : Dev) (e : Nat) : Dev :=
  match d.open? e 0x28 with
  | none => d
  | some x =>
    if !x.begun ∨ x.stopping ∨ d.now < x.due + us (peTmo x) then d
    else (d.count .OCT_PEC_STATUS_TMOS (2 * descTarget x.desc) 1).peEnd x Status.PE_TMO 0
/-- PE_XFER_TIMEOUT. -/
def execPeXferTimeout (e : Nat) (s : State) : Host.Outcome State Fault Refusal :=
  guardUnit true (s.onDev (fun d => d.peTimeout e))

/-! ## Function-level reset (R332) -/

/-- A request that moves the data of a transfer. -/
def Requester.ofDesc : Requester → Bool
  | .copyIn _ | .copyOut _ _ | .fill _ | .failFetch _ _ | .capFetch _ _ => true
  | _ => false

/-- The playing channels are parked and disabled, the others' plays withdrawn. -/
def Dev.flrWaves (d : Dev) : Dev :=
  (List.range 8).foldl (fun d w =>
    if d.wvState w = WvState.PLAYING then
      ((d.wvEnd w 3 Status.ABORTED_PARTIAL WvState.OFF (pointAfter d.bed) false).clr .WV_CTRL_DAC_EN w).upWave w (fun W =>
        { W with offAt := some (pointAfter d.bed) })
    else if d.wvRunning w then d.wvWithdraw w 3 Status.WITHDRAWN else d) d

/-- Of what an ended job or acquisition writes, what goes to the pattern memory: no host write is made (R332). -/
def toHbm (ps : List Put) : List Put := ps.filter (fun p => match p with | .hbm _ _ => true | _ => false)

/-- The job of entry `e` ends at its stop point: an armed one with its summary, END 0b11 (R249, R323). -/
def Dev.flrJob (d : Dev) (e : Nat) : List Put × Dev :=
  match d.open? e 0x30, d.job? e with
  | some x, some j => if j.arm.isSome then (let r := d.endJob x j ((j.stop.map (·.2.1)).getD 3) Status.WITHDRAWN; (toHbm r.1, r.2)) else ([], d.closeJob j ((jobSpec x).kind == 5))
  | _, _ => ([], d)

/-- Channel `w`'s acquisition ends at its stop point: an armed one with its samples and header, END 0b11 (R285, R323). -/
def Dev.flrAcq (d : Dev) (w : Nat) : List Put × Dev :=
  match d.acq w with
  | some A => if A.armed then (let r := (d.setAcq w (some { A with stop := some (A.stop.getD (3, Status.WITHDRAWN)) })).acqEnd w; (toHbm r.1, r.2)) else ([], d)
  | none => ([], d)

/-- What `f` on each of `l` writes, and the block after it. -/
def Dev.eachM (d : Dev) (l : List Nat) (f : Dev → Nat → List Put × Dev) : List Put × Dev :=
  l.foldl (fun r a => let q := f r.2 a; (r.1 ++ q.1, q.2)) ([], d)

/-- Every job, acquisition, transfer and calibration request ends at its stop point (R323). -/
def Dev.flrWork (d : Dev) : List Put × Dev :=
  let keep := fun (q : Req) => !q.who.ofDesc
  let d1 := (d.pcs.map (·.1)).foldl (fun d c => d.upPc c (fun P => { P with reads := P.reads.filter keep, writes := P.writes.filter keep })) d
  let r1 := d1.eachM (d1.tmu.jobs.map (·.e)) (fun d e => d.flrJob e)
  let r2 := r1.2.eachM (List.range 8) (fun d w => d.flrAcq w)
  let d2 := (r2.2.tracker.filter (fun x => descOp x.desc == 0x48 && x.begun && !x.done)).foldl (fun d x => d.calStop x) r2.2
  let d3 := (List.range 16).foldl (fun d k => d.clr .OCT_PEC_STATUS_BUSY (2 * k)) d2
  let d3 := d3.tmu.jobs.foldl (fun d j => d.closeJob j false) d3
  (r1.1 ++ r2.1, { d3.clr .SP_STATUS_REQ_OPEN 0 with acqs := [], tracker := [] })

/-- Every ring is DISABLED with its indices and phase cleared; every token is 0. -/
def Dev.flrRings (d : Dev) : Dev :=
  { d with
    rings := d.rings.map (fun x => (x.1, { x.2.zeroed with state := RingState.DISABLED, cqOn := false }))
    regs := d.regs.filter (fun x => x.1 % 1024 != Fld.ctorIdx .RG_TOKEN_VALUE)
    ringEng := { d.ringEng with tokens := [] } }

/-- FUNCTION_LEVEL_RESET. -/
def Dev.flr (d : Dev) : List Put × Dev :=
  if !d.kl.powered || !d.serves then ([], d)
  else
    let d1 := (List.range 64).foldl (fun d n => d.abortSite n 5 true) d
    let r := d1.flrWaves.flrWork
    (r.1, (r.2.flrRings).owe 7 0)
/-- FUNCTION_LEVEL_RESET. -/
def execFunctionLevelReset (s : State) : Host.Outcome State Fault Refusal := guardUnit true (s.onMem (fun _ d => d.flr))

end Sys2Proof.Machine
end

