-- ==== Sys2Proof/Machine/Boot.lean ====
section
/-!
DEFINITION. Boot (R472 to R486), the resets (R476, R477), recovery (R478), power (R421, R504) and the boundary instructions (R501). A boot is one
command: its stages run in order and the times in it are the operand's (log entry 40).
-/
namespace Sys2Proof.Machine

/-! ## Containers in flash, slots (R480, R481) -/

/-- The container at `base` of a slot of `size` bytes; without its MAGIC the header alone. -/
def container (m : Mems) (base size : Nat) : List Byte :=
  let h := readMem byteF m.flash base 256
  if ofBytes (h.take 4) = 0x574C4150 then readMem byteF m.flash base (min size (256 + conLen h)) else h

/-- SEQ of the container at `base` if it is valid: TYPE `typ`, a slot of the mask `slots`. -/
def conSeqOk (m : Mems) (typ slots base size : Nat) : Option Nat :=
  let c := container m base size
  if conCheck m typ slots c = none ∧ conSeq c ≠ 0xFFFFFFFF then some (conSeq c) else none

/-- The candidate of two slots: the larger SEQ among the valid ones, slot A where they are equal. -/
def candidate (a b : Option Nat) : Option Nat :=
  match a, b with
  | some x, some y => some (if x < y then 1 else 0)
  | some _, none => some 0
  | none, some _ => some 1
  | none, none => none

/-- One slot invalid and the other used (R481). -/
def Dev.slotNote (d : Dev) (a b : Option Nat) (kind : Nat) : Dev := if a.isSome != b.isSome then d.raise 0x0C1 kind else d

/-! ## Topsoil (R483) -/

/-- LENGTH, RECORDS and DESKEW_OFF of an image. -/
def tsLen (b : List Byte) : Nat := ofBytes ((b.drop 12).take 4)
def tsRecords (b : List Byte) : Nat := ofBytes ((b.drop 16).take 4)
def tsDeskew (b : List Byte) : Nat := ofBytes ((b.drop 20).take 4)

/-- The image is valid: MAGIC, FORMAT, regions inside the image that do not overlap, CRC. -/
def tsValid (b : List Byte) : Bool :=
  ofBytes (b.take 4) == 0x504F5354 && ofBytes ((b.drop 4).take 2) == 1 && decide (tsLen b ≤ b.length) && decide (tsRecords b ≤ 3902) &&
    decide (32 + 16 * tsRecords b ≤ tsLen b) &&
    (tsDeskew b == 0 ||
      (tsDeskew b % 8 == 0 && decide (32 + 16 * tsRecords b ≤ tsDeskew b) && decide (tsDeskew b + 3072 ≤ tsLen b))) &&
    crc32c (b.take 28 ++ [0, 0, 0, 0] ++ (b.take (tsLen b)).drop 32) == ofBytes ((b.drop 28).take 4)

/-- The image in the slot at `base`, wrapped or bare, with its SEQ, if it is valid. -/
def topsoil (m : Mems) (base : Nat) : Option (Nat × List Byte) :=
  let h := readMem byteF m.flash base 16
  if ofBytes (h.take 4) = 0x574C4150 then
    let c := container m base 0x10000
    if conCheck m 3 3 c = none ∧ conLen c ≤ 65280 ∧ conSeq c ≠ 0xFFFFFFFF ∧ tsValid (conPayload c) then some (conSeq c, conPayload c) else none
  else if ofBytes (h.take 4) = 0x504F5354 ∧ !tsSigned m then
    let b := readMem byteF m.flash base 65536
    let q := ofBytes ((b.drop 8).take 4)
    if q ≠ 0xFFFFFFFF ∧ tsValid b then some (q, b) else none
  else none

/-! ## Default records (R485, R486) -/

/-- OFFSET, VALUE and MASK of a record. -/
def recOff (r : Nat) : Nat := bits r 0 28
def recValue (r : Nat) : Nat := bits r 32 32
def recMask (r : Nat) : Nat := bits r 64 32

/-- A record that addresses the BR_ or FC_ block is an early one. -/
def recEarly (r : Nat) : Bool := recOff r / 0x1_0000 == 4 || recOff r / 0x1_0000 == 2

/-- The word at byte `o` of register `r` becomes (word AND NOT `mask`) OR (`v` AND `mask`); a staged field's active copy with it. -/
def Dev.applyWord (d : Dev) (r : RegAt) (o v mask : Nat) : Dev :=
  r.parts.foldl (fun d x =>
    let sp := x.1.spec
    let fm := bits (mask * 2 ^ (8 * o)) x.2.2 sp.width
    if fm = 0 ∨ !(sp.acc == .RW || sp.img) then d
    else
      let d1 := d.wr x.1 x.2.1 ((d.rd x.1 x.2.1 &&& ((2 ^ sp.width - 1) ^^^ fm)) ||| (bits (v * 2 ^ (8 * o)) x.2.2 sp.width &&& fm))
      if sp.cls == .S then d1.move x.1 x.2.1 else d1) d

/-- The image-overridable bits of the word at byte `o` of register `r` (R22). -/
def imgMask (r : RegAt) (o : Nat) : Nat :=
  bits ((r.parts.filter (fun x => x.1.spec.img)).map (fun x => (2 ^ x.1.spec.width - 1) * 2 ^ x.2.2)).sum (8 * o) 32

/-- Record `r` of Subsoil: not checked. -/
def Dev.subsoilRec (d : Dev) (r : Nat) : Dev :=
  match regHit (recOff r) with
  | some (g, o) => d.applyWord g (o / 4 * 4) (recValue r) (recMask r)
  | none => d

/-- Topsoil record `i` is rejected: counted, the first one's index kept. -/
def Dev.recRejected (d : Dev) (i : Nat) : Dev :=
  let d1 := d.wr .GD_TOPSOIL_REJECTED 0 (d.rd .GD_TOPSOIL_REJECTED 0 + 1)
  if d.on .GD_TS_REJECT_VALID 0 then d1.raise 0x0C0 (d.rd .GD_TS_REJECT_INDEX 0)
  else ((d1.set1 .GD_TS_REJECT_VALID 0).wr .GD_TS_REJECT_INDEX 0 i).raise 0x0C0 (i % 4096)

/-- Record `i` of the Topsoil image: applied, or rejected as a whole. -/
def Dev.topsoilRec (d : Dev) (i r : Nat) : Dev :=
  match (if recOff r % 4 = 0 then regHit (recOff r) else none) with
  | some (g, o) =>
    if recMask r &&& imgMask g o = recMask r then (d.applyWord g o (recValue r) (recMask r)).wr .GD_TOPSOIL_APPLIED 0 (d.rd .GD_TOPSOIL_APPLIED 0 + 1)
    else d.recRejected i
  | none => d.recRejected i

/-- The register default records of Subsoil, up to the all-zero one (R484). -/
def subsoilRecs (m : Mems) : List Nat := (numbers 16 2495 (readMem otpByte m.otp 0x6400 39920)).takeWhile (· != 0)

/-- The records of an image, numbered. -/
def topsoilRecs (b : List Byte) : List (Nat × Nat) :=
  let l := numbers 16 (tsRecords b) (b.drop 32)
  (List.range l.length).zip l

/-- The records of a stage: Subsoil's first, then the image's in its order. -/
def Dev.applyRecs (m : Mems) (d : Dev) (img : List Byte) (early : Bool) : Dev :=
  let d1 := ((subsoilRecs m).filter (fun r => recEarly r == early)).foldl Dev.subsoilRec d
  ((topsoilRecs img).filter (fun x => recEarly x.2 == early)).foldl (fun d x => d.topsoilRec x.1 x.2) d1

/-- The deskew section. -/
def Dev.applyDeskew (d : Dev) (img : List Byte) : Dev :=
  if tsDeskew img = 0 ∨ img = [] then d
  else (List.range 256).foldl (fun d p =>
    (List.range 3).foldl (fun (d : Dev) k =>
      let v := ofBytes ((img.drop (tsDeskew img + 12 * p + 4 * k)).take 4)
      d.applyWord (regAt .pin (match k with | 0 => Reg.PIN_TF_DESKEW0 | 1 => .PIN_TF_DESKEW1 | _ => .PIN_TF_DESKEW2) p 0) 0 v 0xFFFFFFFF) d) d

/-! ## What a reset keeps (R476, R430) -/

/-- A key of the table of register fields lies between two fields. -/
def keyIn (a b : Fld) (k : Nat) : Bool := decide (a.ctorIdx ≤ k % 1024) && decide (k % 1024 ≤ b.ctorIdx)

/-- The register fields that outlive a fundamental or warm reset: the Collector's and Kiln's, AGE_NOW, BOOTS, what the board drives; a
warm reset keeps the MSI-X table. -/
def keptField (warm : Bool) (k : Nat) : Bool :=
  fcKey k || keyIn .KL_CTRL_PLL_IDLE_US .KL_NODE_T_T k || keyIn .BR_AGE_NOW_DAYS .BR_AGE_NOW_DAYS k ||
    keyIn .GD_STATUS_BOOTS .GD_STATUS_BOOTS k || keyIn .TW_STATUS_PEER_OWN .TW_STATUS_PEER_OWN k ||
    (warm && keyIn .RG_MSIX_ADDR_ADDR .RG_MSIX_CTRL_MASK k)

/-- The bytes that a flash or Subsoil command leaves open when it is cut off. -/
def Dev.cutOff (d : Dev) : List Put := if d.gd.op = 0 then [] else (d.winFailed 3).1

/-- Supplies are removed in safe state under legacy mode, which ends it (R331, R462), or are gone already, when what that kept stays. -/
def Dev.legacyExit (d : Dev) : Bool := !d.kl.powered || (d.isSafe && d.on .FC_MODE_LEGACY 0)

/-- Everything on die is lost (R421, R476): time goes on, the board's inputs stay, and what the age records of the flash hold. A power cycle that ends
safe state in legacy mode leaves rings HALTED and tokens as they are (R331; log entry 96). -/
def Dev.off (d : Dev) : Dev :=
  { ({} : Dev) with
    now := d.now
    free := d.free + 32768
    evLevel := d.evLevel
    regs := d.regs.filter (fun x => keyIn .TW_STATUS_PEER_OWN .TW_STATUS_PEER_OWN x.1 || (d.legacyExit && keyIn .RG_TOKEN_VALUE .RG_TOKEN_VALUE x.1))
    rings := if d.legacyExit then d.rings.map (fun x => (x.1, { x.2 with descs := [], waitAt := none, order := none, orderTo := none })) else []
    mc := { lostStacks := d.mc.lostStacks }
    gd := { perst := d.gd.perst }
    br := { ageSaved := d.br.ageSaved, lossNow := d.br.lossNow } }

/-- Every domain but AON is lost. -/
def Dev.aonOnly (d : Dev) (warm : Bool) : Dev :=
  { ({} : Dev) with
    now := d.now
    bedOff := d.bedOff
    free := d.free + 32768
    regs := d.regs.filter (fun x => keptField warm x.1)
    raised := d.raised
    journal := d.journal
    evLevel := d.evLevel
    fc := d.fc
    kl := { d.kl with reqSleep := false, burstAt := none, target := [] }
    br := { d.br with holdAt := none, ppsAny := false, stepped := false, okRun := 0, integ := 0 }
    cal := d.cal.map (fun x => (x.1, { res := x.2.res, off := x.2.off }))
    vectors := if warm then d.vectors else []
    mc := { lostStacks := d.mc.lostStacks }
    gd := { perst := d.gd.perst, extest := d.gd.extest } }

/-! ## Stages 1 to 3 -/

/-- Subsoil's CRC-32C is right; the CUSTOMER region counts as zeroes (R484). -/
def subsoilOk (m : Mems) : Bool :=
  crc32c ((List.range 0xFFFC).map (fun a => if 0x70 ≤ a ∧ a < 0xB0 then 0 else tget otpByte m.otp a)) == ofBytes (readMem otpByte m.otp 0xFFFC 4)

/-- AON after power-good: Kiln's model at the boundary in use, which is assumed (R409, R412, R413). -/
def Dev.aonStart (d : Dev) : Dev :=
  let d1 := d.upKl (fun K => { K with powered := true, stepAt := d.now, bsAt := d.now, nodes := (List.range 47).map (fun i => (i, 95)) })
  let d2 := (List.range 48).foldl (fun d i => d.wr .KL_NODE_T_T i 0x5F0) d1
  ((List.range 6).foldl (fun d r => d.wr .KL_BAND_REGION r (bandOf 95)) d2).useBound 0x5F0

/-- RECOVERY for reason `why` at `stage`, with source `src` (R478). The ROM serves the window, whose size the flash tells. -/
def Dev.recovery (d : Dev) (b : BootResult) (why src stage : Nat) : Dev :=
  let d1 := (((d.wr .GD_STATUS_WHY 0 why).wr .GD_STATUS_STAGE 0 stage).wr .GD_WIN_STATUS_FLASH_KB 0 b.flashKb).raise src 0
  ((d1.oweFault 2 src 0).wr .DEV_UNITS_MODE 0 2).set1 .DEV_UNITS_FINAL 0

/-- The Topsoil image in use. -/
def Dev.topsoilNow (m : Mems) (d : Dev) : List Byte :=
  if d.on .GD_STATUS_TS_NONE 0 then [] else ((topsoil m (0x240000 + 0x10000 * d.rd .GD_STATUS_TS_SLOT 0)).map (·.2)).getD []

/-- Stage 2: Topsoil is selected and the early records are applied. -/
def Dev.stage2 (m : Mems) (d : Dev) : Dev :=
  let a := (topsoil m 0x240000).map (·.1)
  let b := (topsoil m 0x250000).map (·.1)
  let d1 := d.slotNote a b 3
  let d2 := match candidate a b with
    | some k => (d1.wr .GD_STATUS_TS_SLOT 0 k).wr .GD_TOPSOIL_SEQ 0 ((if k = 0 then a else b).getD 0)
    | none => d1.set1 .GD_STATUS_TS_NONE 0
  let img := d2.topsoilNow m
  let d3 := d2.applyRecs m img true
  let d4 := (catalogue.filter (fun c => c.2 == 3)).foldl (fun d c => d.srcCfgFix c.1) d3
  d4.upFc (fun F => { F with image := (({} : Dev).applyRecs m img true).regs.filter (fun x => fcKey x.1) })

/-- The core PLL has locked: Bedrock time starts at 0, or resumes (R357, R358); the discipline starts by MODE (R365). -/
def Dev.coreLocked (d : Dev) (b : BootResult) : Dev :=
  let d1 := ((d.set1 .BR_STATUS_CORE_LOCK 0).wr .BR_STATUS_REF_NOW 0 (d.rd .BR_CTRL_REFSEL 0)).wr .BR_STATUS_XTAL_OK 0 (b2n b.xtal)
  let d2 := if d1.br.locked then d1.resumeBed else { d1 with bedOff := -(d1.now : Int) }
  let d3 := (d2.upBr (fun B => { B with locked := true })).retarget
  if d3.rd .BR_CTRL_MODE 0 = 1 ∨ d3.rd .BR_CTRL_MODE 0 = 2 then d3.modeWritten else d3

/-! ## Stages 4 to 7 -/

/-- Stage 5: the records but the early ones, then the deskew section; what the written fields act on. -/
def Dev.stage5 (m : Mems) (d : Dev) : Dev :=
  let img := d.topsoilNow m
  let d1 := (d.applyRecs m img false).applyDeskew img
  (List.range 8).foldl (fun d e => if d.on .DEV_EV_CTRL_OUT e then d.evWrite e else d) d1

/-- A stack's training (R346): the lowest of its pseudo-channels that failed takes it out of service; a stack lost by a retrain fails (R347). -/
def Dev.trainStack (d : Dev) (b : BootResult) (s : Nat) : Dev :=
  let ok := d.rd .DEV_UNITS_HBM_OK 0
  match (((if bitAt d.mc.lostStacks s then [32 * s] else []) ++ b.trainFail.filter (fun c => decide (c < 64) && c / 32 == s)).min?) with
  | some c =>
    ((d.wr .DEV_UNITS_HBM_OK 0 (setBit ok s false)).raise 0x185 c).oweFault 8 0x185 (s * 2 ^ 255 + c % 64 * 2 ^ 249)
  | none => d

/-- The stacks have trained: temperature, band and the moment of the training (R340, R347). -/
def Dev.trained (d : Dev) : Dev :=
  let d0 : Dev := (List.range 64).foldl (fun d c => d.setDebt c 0) { d with mc := { d.mc with scrubAt := d.now, lostStacks := 0 } }
  let d1 := [0, 1].foldl (fun d s => (d.wr .MC_TEMP_MODEL s (tempCode (d.hottest ((List.range 6).map (· + 22 + 6 * s))))).judgeBand s) d0
  (List.range 64).foldl (fun d c => d.upPc c (fun P => { P with trainAt := d.now, trainTemp := d.refreshTemp (c / 32) })) d1

/-- The base of microcode slot `k`. -/
def ucBase (k : Nat) : Nat := 0x200000 + 0x20000 * k

/-- The load from slot `k`: the payload is installed, or the image rejected; whether a copy holds it (R90 to R96). -/
def Dev.ucBoot (m : Mems) (d : Dev) (b : BootResult) (k : Nat) : Bool × Dev :=
  let c := container m (ucBase k) 0x20000
  match ucodeReject m (d.rd .CS_POLICY_SLOTS 0) c with
  | some r => (false, (d.rejectImage r false).2)
  | none => (true, (d.wr .GD_STATUS_UC_SLOT 0 k).install (conPayload c) (conSlot c) b.ucBad b.ucLost false)

/-- Microcode (R475): the candidate, then the other slot if it holds a valid container; with none R95. -/
def Dev.microcode (m : Mems) (d : Dev) (b : BootResult) : Dev :=
  let x := conSeqOk m 2 3 (ucBase 0) 0x20000
  let y := conSeqOk m 2 3 (ucBase 1) 0x20000
  let d1 := d.slotNote x y 2
  match candidate x y with
  | none => (d1.set1 .GD_STATUS_UC_NONE 0).judgeLoaded false
  | some k =>
    let a := Dev.ucBoot m d1 b k
    if a.1 then a.2
    else if x.isSome && y.isSome then
      let c := Dev.ucBoot m a.2 b (1 - k)
      if c.1 then c.2 else c.2.judgeLoaded false
    else a.2.judgeLoaded false

/-- The inputs for whose TDC unit or COMP unit a result is kept convert with it (R231, R430). -/
def Dev.keptTaps (d : Dev) : Dev :=
  (d.cal.map (·.1)).foldl (fun d k =>
    if k / 512 = 1 then d.loadTaps (k % 512) else if k / 512 = 2 then (d.loadTaps (2 * (k % 512))).loadTaps (2 * (k % 512) + 1) else d) d

/-- Stage 6: the unit tests, the memory, the microcode, the PLLs, Strop's units, the routes of the inputs. -/
def Dev.stage6 (m : Mems) (d : Dev) (b : BootResult) : Dev :=
  let u := b.units
  let d1 := (((((d.wr .DEV_UNITS_OCT_OK 0 (bits u 0 32)).wr .DEV_UNITS_HBM_OK 0 (bits u 32 2)).wr .DEV_UNITS_REIN_OK 0 (bits u 34 4)).wr
    .DEV_UNITS_WAVE_OK 0 (bits u 38 8)).wr .DEV_UNITS_TAU_OK 0 (bits u 46 1)).wr .DEV_UNITS_CTDC_OK 0 (bits u 48 8)
  let d2 := ((d1.wr .DEV_UNITS_QPLL_OK 0 (bits u 56 4)).trainStack b 0).trainStack b 1
  let d3 := (d2.wr .DEV_UNITS_MODE 0 (b2n (d2.rd .DEV_UNITS_HBM_OK 0 == 0))).trained
  let d4 := Dev.microcode m d3 b
  let d5 := if d4.kl.shut then d4 else
    (d4.wr .BR_STATUS_QPLL_READY 0 (d4.rd .DEV_UNITS_QPLL_OK 0)).wr .BR_STATUS_WAVE_READY 0 (b2n (d4.rd .DEV_UNITS_WAVE_OK 0 != 0))
  let d6 := (List.range 5).foldl (fun d q => d.upPll q (fun P => { P with idleSince := d.now })) d5
  let d7 := (List.range 6).foldl (fun d k => (List.range (calUnits k)).foldl (fun d i => d.setCal k i (d.calJudge k i)) d) d6
  let d8 := (List.range 512).foldl (fun d i => if d.rd (inpFld .PIN_TM_CTRL_CH_ROUTE .PIN_TM_CTRL_CL_ROUTE i) (i / 2) = 2 then d.route i else d) d7
  let d9 := (List.range 256).foldl (fun d p => d.firstTrims p) (d8.keptTaps)
  if d9.isSafe then (d9.enterSR 0).enterSR 1 else d9.opWritten

/-- The journal entries that the flash holds: place and SEQ (R487). -/
def journalEntries (m : Mems) : List (Nat × Nat) :=
  (List.range 4096).filterMap (fun i =>
    let bs := readMem byteF m.flash (jnAddr i) 64
    let q := bits (ofBytes bs) 416 32
    if q ≠ 0xFFFFFFFF ∧ crc32c (bs.drop 4) = ofBytes (bs.take 4) then some (i, q) else none)

/-- The next journal entry follows the newest one in the flash. -/
def Dev.journalPlace (m : Mems) (d : Dev) : Dev :=
  match (journalEntries m).foldl (fun b x => match b with | none => some x | some (y : Nat × Nat) => if y.2 < x.2 then some x else some y) none with
  | some y => d.upGd (fun G => { G with place := (y.1 + 1) % 4096, seq := (y.2 + 1) % 2 ^ 32 })
  | none => d

/-- DATA of a BOOT entry (R487). -/
def Dev.bootData (d : Dev) (b : BootResult) : Nat :=
  d.rd .GD_STATUS_STAGE 0 * 2 ^ 224 + d.rd .DEV_UNITS_MODE 0 * 2 ^ 222 + d.rd .GD_STATUS_FW_SLOT 0 * 2 ^ 221 +
    d.rd .GD_STATUS_UC_SLOT 0 * 2 ^ 220 + d.rd .GD_STATUS_TS_SLOT 0 * 2 ^ 219 + d.rd .GD_STATUS_TS_NONE 0 * 2 ^ 218 +
    d.rd .GD_STATUS_UC_NONE 0 * 2 ^ 217 + d.rd .GD_STATUS_OCTAL 0 * 2 ^ 216 + d.regWord (regAt .dev .DEV_UNITS 0 0) * 2 ^ 152 +
    b.us % 2 ^ 32 * 2 ^ 120

/-- Stage 7: READY. -/
def Dev.stage7 (m : Mems) (d : Dev) (b : BootResult) : Dev :=
  let d1 := (((d.set1 .DEV_UNITS_FINAL 0).wr .GD_STATUS_STAGE 0 7).wr .GD_STATUS_BOOT_MS 0 (min 65535 (b.us / 1000))).wr .KL_STATUS_PSTATE 0 2
  let d2 := (((d1.wr .KL_PSTATE_STATE 0 2).clr .KL_STATUS_SLEEP_WAIT 0).upKl (fun K => { K with hostAt := d.now })).retarget
  let d3 := (List.range 4).foldl (fun d p => d.portUp p) (d2.journalPlace m)
  let d4 := if d3.isSafe then d3 else (List.range 8).foldl (fun d w => d.wvWake w) d3
  let d5 := if d4.isSafe || !d4.on .TW_CTRL_EN 0 then d4 else d4.roleTo 1
  ((List.range 256).foldl (fun d p => d.driveIdle p) d5).owe 1 (d5.bootData b)

/-- Stages 4 to 7. -/
def Dev.bootOn (m : Mems) (d : Dev) (b : BootResult) : Dev :=
  let d0 := ({ d with now := d.now + us (b.us - b.lockUs), booting := none } : Dev).wr .GD_WIN_STATUS_FLASH_KB 0 b.flashKb
  let d1 := if b.octal then d0.set1 .GD_STATUS_OCTAL 0 else d0.raise 0x0C4 0
  let x := conSeqOk m 1 1 0 0x100000
  let y := conSeqOk m 1 1 0x100000 0x100000
  match candidate x y with
  | none => d1.recovery b 2 0x0C3 4
  | some k => Dev.stage7 m (Dev.stage6 m (Dev.stage5 m ((d1.slotNote x y 1).wr .GD_STATUS_FW_SLOT 0 k)) b) b

/-- Boot from stage 2 on; a core PLL that does not lock holds boot in stage 3 (R366). -/
def Dev.boot (m : Mems) (d : Dev) (b : BootResult) : Dev :=
  let d1 := Dev.stage2 m d
  let d2 : Dev := { d1 with now := d1.now + us b.lockUs }
  if b.lock then Dev.bootOn m (d2.coreLocked b) b
  else { (d2.wr .GD_STATUS_STAGE 0 3).raise 0x084 0 with booting := some b, br := { d2.br with lossNow := true } }

/-- One more boot (GD_STATUS.BOOTS). -/
def Dev.countBoot (d : Dev) : Dev := d.wr .GD_STATUS_BOOTS 0 (d.rd .GD_STATUS_BOOTS 0 + 1)

/-! ## The commands -/

/-- POWER_ON: AON power-good of a part that is off. -/
def Dev.powerOn (m : Mems) (d : Dev) (b : BootResult) : List Put × Dev :=
  if d.kl.powered then ([], d)
  else
    let d1 := ((d.off).aonStart).countBoot
    let d2 := if subsoilOk m then Dev.boot m (d1.wr .BR_AGE_NOW_DAYS 0 d.br.ageSaved) b
      else (({ d1 with now := d1.now + us b.us } : Dev).recovery b 1 0x0C2 1)
    ([.loseHbm], d2)
/-- POWER_ON. -/
def execPowerOn (boot : BootResult) (s : State) : Host.Outcome State Fault Refusal :=
  guardUnit true (s.onMem (fun m d => Dev.powerOn m d boot))

/-- A fundamental or warm reset: what is not AON is lost, and boot runs from stage 2 on (R476). -/
def Dev.resetTo (m : Mems) (d : Dev) (b : BootResult) (warm : Bool) : List Put × Dev :=
  let ps := d.cutOff ++ [.loseHbm]
  let d1 := (d.aonOnly warm).countBoot
  (ps, Dev.boot (ps.foldl Mems.put m) d1 b)

/-- FUNDAMENTAL_RESET: HX_PERST_L is asserted. -/
def Dev.fundamental (m : Mems) (d : Dev) (b : BootResult) : List Put × Dev :=
  if d.gd.perst then ([], d)
  else
    let d1 := d.upGd (fun G => { G with perst := true })
    if d.kl.powered then Dev.resetTo m d1 b false else ([], d1)
/-- FUNDAMENTAL_RESET. -/
def execFundamentalReset (boot : BootResult) (s : State) : Host.Outcome State Fault Refusal :=
  guardUnit true (s.onMem (fun m d => Dev.fundamental m d boot))

/-- WARM_RESET: a write of `v` to DEV_RESET, by the host or, kept in KEY, by a descriptor; only 0x0B07 acts. -/
def Dev.warm (m : Mems) (d : Dev) (v : Nat) (b : BootResult) : List Put × Dev :=
  if !d.kl.powered || !d.on .DEV_UNITS_FINAL 0 then ([], d)
  else if d.gd.keyed || (v % 65536 == 0x0B07 && !d.gd.perst) then Dev.resetTo m d b true
  else ([], d)
/-- WARM_RESET. -/
def execWarmReset (v : Word) (boot : BootResult) (s : State) : Host.Outcome State Fault Refusal :=
  guardUnit true (s.onMem (fun m d => Dev.warm m d v.toNat boot))

/-- HX_PERST_L_DEASSERTION: link training may start; boundary instructions act as BYPASS. -/
def execHxPerstDeassertion (s : State) : Host.Outcome State Fault Refusal :=
  guardUnit true (s.onDev (fun d => d.upGd (fun G => { G with perst := false, extest := none })))

/-- EXTEST: the balls carry the boundary register's value while HX_PERST_L is asserted; else BYPASS. -/
def Dev.boundary (d : Dev) (balls : Nat) : Dev :=
  if d.gd.perst && d.kl.powered then d.upGd (fun G => { G with extest := some balls }) else d
/-- EXTEST. -/
def execExtest (balls : Nat) (s : State) : Host.Outcome State Fault Refusal := guardUnit true (s.onDev (fun d => d.boundary balls))

/-- SUPPLY_REMOVAL: OFF. -/
def execSupplyRemoval (s : State) : Host.Outcome State Fault Refusal :=
  guardUnit true (s.onMem (fun _ d => (d.cutOff ++ [.loseHbm], d.off)))

/-- REFERENCE_RETURN: a boot that waited for the core PLL goes on (R366, R472). -/
def Dev.refBack (m : Mems) (d : Dev) : Dev :=
  match d.br.lossNow, d.booting with
  | true, some b => Dev.bootOn m ((d.refReturn).coreLocked b) b
  | _, _ => d.refReturn
/-- REFERENCE_RETURN. -/
def execReferenceReturn (s : State) : Host.Outcome State Fault Refusal := guardUnit true (s.onDevM (fun m d => Dev.refBack m d))

end Sys2Proof.Machine
end

