-- ==== Sys2Proof/Machine/Microcode.lean ====
section
/-!
DEFINITION. Microcode (R73 to R89): the conditions and actions of nano-words, stitches and yield points, interrupts and the hard stop, for the
programs of the DSQs (sequencers 0 to 319, the lanes) and the CSQs (sequencer 320 + p). Sequencers of SSI 4.2 are not run word by word (log
entry 25): of them, an interrupt has the effect that the manual gives its handler.
-/
namespace Sys2Proof.Machine

/-- A sequencer's number. -/
def seqOk (l : Nat) : Bool := decide (l < 576)

/-! ## Conditions (R75) -/

/-- LOCK, EXPV and PINMATCH of pin `p`. -/
def Dev.csqFlag (d : Dev) (n p csel : Nat) : Bool :=
  match csel with
  | 0x0F => let st := d.rd .PIN_CMP_STATUS_LSTATE p; st == 2 || st == 3
  | 0x10 => (d.expHere n p).isSome
  | _ => (d.csq p).pub == some true

/-- The condition that CSEL selects for lane `l`, on the state at the start of the microword; a condition of the CSQ holds where it does on every
pin of the lane (log entry 74). -/
def Dev.microCond (m : Mems) (d : Dev) (l csel nano : Nat) : Bool × Dev :=
  let L := d.lane l
  let w := Dev.curWord m d l
  let c := L.counter (bits nano 179 3)
  let n := (d.laneSite l).getD 0
  match csel with
  | 0x00 => (true, d)
  | 0x01 => (c == 0, d)
  | 0x02 => (c == 1, d)
  | 0x03 => (L.stack.isEmpty, d)
  | 0x04 => (L.stack.length == 16, d)
  | 0x05 => (wXw w, d)
  | 0x06 => (d.cond n (bits (wA16 w) 0 5) d.bed, d)
  | 0x07 => (wA32 w == 0, d)
  | 0x08 => (wA16 w == 0, d)
  | 0x09 => (L.reg (bits nano 171 2) == 0, d)
  | 0x0A => ((d.lanePins l).all (fun p => (Dev.peek m d p).1 != .missing), d)
  | 0x0B => (L.tmo, d)
  | 0x0C => (d.seamp n, d)
  | 0x0D => (decide (64 ≤ l), d)
  | 0x0E => (decide (wA32 w < L.len), d)
  | 0x0F => ((d.lanePins l).all (fun p => d.csqFlag n p 0x0F), d)
  | 0x10 => ((d.lanePins l).all (fun p => d.csqFlag n p 0x10), d)
  | 0x11 => ((d.lanePins l).all (fun p => d.csqFlag n p 0x11), d)
  | _ => (d.openBit, d.took)

/-! ## The actions of a DSQ (R76) -/

/-- The current word's successor in sequence. -/
def Lane.nextWord (L : Lane) : Nat := L.waddr + 1 + b2n L.skip

/-- The sequence word is complete and control is at word `t`; DONE past the end and a bad target are faults (R104). -/
def Dev.microWord (d : Dev) (l t : Nat) (jump : Bool) : Dev :=
  let L := d.lane l
  match (if jump then targetFault L.len L.waddr t else if L.len ≤ t then some 2 else none) with
  | some v => d.laneFault l v
  | none => ((d.markWordEnd l).upLane l (fun L => { L with waddr := t, complete := true, skip := false, tmo := false, wordVecs := 0 })).fillWindow l

/-- COP, the loop counter named by CSEL; DEC of a counter at 0 wraps, and CLEAR serves CNT_CLR of LDCNT: ACTIVE and the holds end with it (R134, R161;
log entry 75). -/
def Dev.microCop (d : Dev) (l nano w : Nat) : Dev :=
  let c := bits nano 179 3
  let L := d.lane l
  match bits nano 176 3 with
  | 1 => d.setCnt l c (wA32 w)
  | 2 => d.setCnt l c (bits nano 96 32)
  | 3 => d.setCnt l c (L.reg (bits nano 166 2))
  | 4 => d.setCnt l c (L.counter c + (2 ^ 32 - 1))
  | 5 => ((d.setCnt l c 0).setAct l c false).endHolds l c .loop
  | _ => d

/-- SOP, the call stack; an entry pushed here saves no stream position; pushing to a full one or popping an empty one is STACK (R140). -/
def Dev.microSop (d : Dev) (l nano w : Nat) : Dev :=
  let L := d.lane l
  let push := fun (t : Nat) => if 16 ≤ L.stack.length then d.laneFault l 4
    else (d.lanePins l).foldl (fun d p => d.upPin p (fun P => { P with stk := none :: P.stk }))
      (d.upLane l (fun L => { L with stack := (t, false) :: L.stack }))
  match bits nano 173 3 with
  | 1 => push L.nextWord
  | 2 => if L.stack.isEmpty then d.laneFault l 5
    else (d.lanePins l).foldl (fun d p => (d.upPin p (fun P => { P with stk := P.stk.drop 1 })).endHold p .call (L.stack.length - 1))
      (d.upLane l (fun L => { L with stack := L.stack.drop 1 }))
  | 3 => push (wA32 w)
  | _ => d

/-- ROP, the register named by RDST. -/
def Dev.microRop (d : Dev) (l nano w : Nat) : Dev :=
  let r := bits nano 171 2
  let L := d.lane l
  match bits nano 168 3 with
  | 1 => d.setGr l r (wA32 w)
  | 2 => d.setGr l r (bits nano 96 32)
  | 3 => d.setGr l r (L.reg r + bits nano 96 32)
  | 4 => d.setGr l r (L.reg (bits nano 166 2))
  | 5 => d.setGr l r (L.counter (bits nano 179 3))
  | _ => d

/-- STRM, the pin streams; the mark is the one of counter CSEL, which MARK makes ACTIVE as LOOP does (R121). -/
def Dev.microStrm (m : Mems) (d : Dev) (l nano w : Nat) : Dev :=
  let c := bits nano 179 3
  match bits nano 182 3 with
  | 1 => (d.lanePins l).foldl (fun d p => Dev.repos m d p { entry := wA32 w } none) d
  | 2 => let d1 := (d.setAct l c true).markPins l c
         (d1.lanePins l).foldl (fun d p => Dev.addHold m d p .loop c) d1
  | 3 => Dev.returnPins m d l c .loop
  | _ => d

/-- TSW: the timing set for the vectors that follow (R76). SIDE acts on a nano-word that emits; HOLD after it keeps the set selected before, without the
side value (log entry 74). -/
def Dev.microTsw (m : Mems) (d : Dev) (l nano : Nat) : Dev :=
  if bits nano 160 2 = 1 then d.upLane l (fun L => { L with tsel := wTset (Dev.curWord m d l) }) else d

/-- SITE actions that do not block: SEAM, HALT, MARK, STAMP_ARM. -/
def Dev.microSite (d : Dev) (l nano w : Nat) : Dev :=
  match bits nano 156 4 with
  | 5 => d.upLane l (fun L => { L with seamNext := 2 })
  | 6 => (d.upLane l (fun L => { L with phase := .halted, fault := none, upc := none, gridNext := none })).tailActs l
  | 7 => d.upLane l (fun L => { L with marksNext := L.marksNext ++ [bits (wA16 w) 0 4] })
  | 8 => d.upLane l (fun L => { L with ctlNext := L.ctlNext ++ [⟨wOp w, wA16 w, wA32 w⟩] })
  | _ => d

/-- CND, issued at the commit `t` (R79). -/
def Dev.microCnd (d : Dev) (l nano w t : Nat) : Dev :=
  let n := (d.laneSite l).getD 0
  let c := bits (wA16 w) 0 5
  match bits nano 162 4 with
  | 1 => d.postSetc n c true t
  | 2 => d.postSetc n c false t
  | 3 => d.postSetc n c (bitAt (wA16 w) 5) t
  | _ => d

/-- SEQW, the sequence word; IRET acts where the microword passes on, and ends the handler with its stitch. TAKE_STACK takes the word at the top of the
stack as it stands before the nano-word, word 0 of an empty one, and pops nothing itself (log entry 75). An extension word beyond the program is BAD_TARGET (R105). -/
def Dev.microSeqw (d : Dev) (l nano w top : Nat) : Dev :=
  match bits nano 185 3 with
  | 1 => d.microWord l (d.lane l).nextWord false
  | 2 => d.microWord l (wA32 w) true
  | 3 => d.microWord l top true
  | 4 => if (d.lane l).len ≤ (d.lane l).waddr + 1 then d.laneFault l 2 else d.upLane l (fun L => { L with skip := true })
  | 5 => d.upLane l (fun L => if L.link.isSome then { L with ret := false, hand := none, link := if L.ret then none else L.link } else L)
  | _ => d

/-- The actions of one nano-word on lane `l`, one after another as written here; TAKE_STACK takes the head of the stack, 0 where it is empty, and pops
nothing by itself (log entry 75); `t` is the commit of its stitch. Slots 12 and 13 of FLT are notes (R140). -/
def Dev.microAct (m : Mems) (t l : Nat) (d : Dev) (nano : Nat) : Dev :=
  let w := Dev.curWord m d l
  let top := ((d.lane l).stack.head?.map (·.1)).getD 0
  let d1 := Dev.microTsw m (((Dev.microStrm m d l nano w).microCop l nano w).microRop l nano w) l nano
  let d2 := ((d1.microSop l nano w).microSite l nano w).microCnd l nano w t
  let v := bits nano 152 4
  let d3 := if v = 0 then d2 else if v = 12 ∨ v = 13 then d2.seqNote l v else d2.laneFault l v
  d3.microSeqw l nano w top

/-! ## Stitches (R79 to R82) -/

/-- The state as the microword of lane `l` sees it: the stitch buffer on top of what is committed (R75, R79). -/
def Dev.microView (m : Mems) (d : Dev) (l : Nat) : Dev := (d.lane l).acc.foldl (Dev.microAct m d.bed l) d

/-- Lane `l` reaches a yield point at which `last` acts with the stitch: everything is committed now, and what is seen outside issues (R79 to
R81). Where an IRET has come back to a DISPATCH whose own actions are committed, the stitch of the handler is. -/
def Dev.microCommit (m : Mems) (d : Dev) (l : Nat) (last : List Nat) : Dev :=
  let L := d.lane l
  (L.acc ++ (if L.yields then [] else last)).foldl (Dev.microAct m d.bed l) (d.upLane l (fun L => { L with acc := [], yields := true }))

/-- An interrupt waits that lane `l` takes at its yield point: none inside the ABORT handler, only an ABORT inside another (R86). -/
def Lane.irqWaits (L : Lane) : Bool := L.hand != some 0 && (L.irqs.any (·.1 == 0) || (L.hand.isNone && !L.irqs.isEmpty))

/-- Lane `l` passes from a microword with nano-word `v` to `next`, or by IRET to its interrupt link (R85); without a link IRET passes to NEXT
(log entry 74). The link itself changes with the stitch that the IRET stands in (R79): at once where the microword has committed it. -/
def Dev.microGo (d : Dev) (l v next : Nat) : Dev :=
  d.upLane l (fun L =>
    let L1 := { L with freeAt := d.bed + cycleTicks, costs := L.costs + cycleTicks }
    match bits v 185 3, L.link with
    | 5, some a => { L1 with upc := some a, yields := L.linkY, linkY := false, link := if L.yields then none else some a, ret := !L.yields }
    | _, _ => { L1 with upc := some next, yields := false })

/-- Lane `l` still executes: no fault, no HALT. -/
def Lane.goes (L : Lane) : Bool := L.phase == .ready && L.fault.isNone && L.upc.isSome

/-- A DISPATCH: the routine of the current word, once it has been delivered; a reserved opcode waits for BAD_OP. On SSI 4.2 the sequencer stands
at its own dispatch again. -/
def Dev.microDispatch (m : Mems) (d : Dev) (l : Nat) : Dev :=
  let L := d.lane l
  if d.native l then d.upLane l (fun L => { L with upc := none, yields := false, freeAt := d.bed + cycleTicks })
  else if L.waddr < L.len ∧ d.held l L.waddr then
    let op := wOp (Dev.curWord m d l)
    if d.opValid l op then d.upLane l (fun L => { L with complete := false, skip := false, tmo := false, wordVecs := 0, yields := false
                                                         upc := some (bits (d.dsqEntry l op) 0 14), freeAt := d.bed + cycleTicks, costs := L.costs + cycleTicks })
    else d
  else d

/-- Lane `l` places one vector of a blocking VEC, if there is room and data. -/
def Dev.microPlace (m : Mems) (d : Dev) (l w set : Nat) (kd : EmitKind) : Option Dev :=
  let L : Lane := { d.lane l with kind := kd, left := 2, placeT := d.bed, placeK := 0 }
  if d.laneFeeds l ∧ ((d.lanePin l).map d.fifoLevel).getD 64 < 64 then
    (Dev.placePins m w L (d.lanePins l) d).map (fun d1 => d1.upLane l (fun L =>
      { L with emitted := L.emitted + 1, wordVecs := L.wordVecs + 1, lastOp := wOp w, seamNext := 0, gridNext := none, ctlNext := [], marksNext := []
               tsel := set, heldData := none, freeAt := d.bed + cycleTicks }))
  else none

/-- A run (R110): at most `k` vectors of it enter the FIFO now, counter `c` counting them down. -/
def Dev.microRun (m : Mems) (l w set c : Nat) (kd : EmitKind) : Nat → Dev → Dev
  | 0, d => if (d.lane l).counter c = 0 then d.microDone l else d
  | k + 1, d =>
    if (d.lane l).counter c = 0 then d.microDone l
    else match Dev.microPlace m d l w set kd with
      | none => d.upLane l (fun L => { L with heldData := (Dev.missing m d l).head? })
      | some d1 => Dev.microRun m l w set c kd k (d1.setCnt l c ((d1.lane l).counter c - 1))

/-- The blocking action of nano-word `v` (R80): vectors are placed when there is room and data, four of a run to an engine cycle (R110; IMM16
other than 1 is a single vector, log entry 74), or a wait begins; a stream error of vector 0 acts at once (R141, R149). -/
def Dev.microBlock (m : Mems) (d : Dev) (l v : Nat) : Dev :=
  let w := Dev.curWord m d l
  let tsw := bits v 160 2
  let kd : EmitKind := match bits v 188 4 with
    | 1 => if tsw = 2 then .side else .stream
    | 2 => .k
    | 3 => .idle
    | _ => .repeat_
  if bits v 188 4 ≠ 0 then
    let set := if tsw = 0 then (d.lane l).tsel else wTset w
    let w' := w - wTset w * 2 ^ 53 + set * 2 ^ 53
    let d1 := if bits v 128 16 = 1 then Dev.microRun m l w' set (bits v 179 3) kd 4 d
      else match Dev.microPlace m d l w' set kd with
        | none => d.upLane l (fun L => { L with heldData := (Dev.missing m d l).head? })
        | some d1 => d1.microDone l
    match d.laneSite l with
    | some n => d1.earlyError n
    | none => d1
  else
    let op := match bits v 156 4 with | 1 => 0x11 | 2 => 0x12 | 3 => 0x13 | _ => 0x14
    (d.upLane l (fun L => { L with asOp := some op, tmo := false })).hold l

/-- The nano-word blocks a DSQ: VEC or a wait; JUDGE does not (R76). -/
def dsqBlocks (v : Nat) : Bool := bits v 188 4 != 0 || (bits v 156 4 != 0 && decide (bits v 156 4 ≤ 4))

/-- One microword of lane `l`, at address `a` (R73, R74, R79 to R81). -/
def Dev.microStep (m : Mems) (d : Dev) (l a : Nat) : Dev :=
  let k := d.laneCopy l
  let w := d.cs.read k 0 a
  let v := d.cs.read k 1 (mwNano w)
  match mwMode w with
  | 0 => (d.upLane l (fun L => { L with acc := L.acc ++ [v] })).microGo l v (mwNext w)
  | 1 =>
    let c := Dev.microCond m (Dev.microView m d l) l (mwCsel w) v
    (({ d with free := c.2.free } : Dev).upLane l (fun L => { L with acc := L.acc ++ [v] })).microGo l v (mwNext w / 2 * 2 + b2n c.1)
  | 2 =>
    let d1 := Dev.microCommit m d l [v]
    if !(d1.lane l).goes || (d1.lane l).irqWaits then d1 else Dev.microDispatch m d1 l
  | _ =>
    let d1 := Dev.microCommit m d l (if dsqBlocks v then [] else [v])
    if !(d1.lane l).goes || (d1.lane l).irqWaits then d1
    else if dsqBlocks v then Dev.microBlock m d1 l v
    else d1.microGo l v (mwNext w)

/-- The sequencers of lane `l` execute microcode: their site counts as running. -/
def Dev.microLive (d : Dev) (l : Nat) : Bool :=
  match d.laneSite l with
  | some n => d.siteRunning n && (decide (l < 64) || (d.isMember n (l - 64) && d.isPrivate n (l - 64)))
  | none => false

/-- IMAGE_OPCODE (R73, R77): one microword of the routine that lane `l` is in; where it stands at a dispatch of SSI 4.2, the first of the routine of
a word that SSI 4.2 does not define. -/
def Dev.imageOp (m : Mems) (d : Dev) (l : Nat) : Dev :=
  let L := d.lane l
  match L.upc with
  | none =>
    let op := wOp (Dev.curWord m d l)
    if d.canTake l ∧ d.opValid l op ∧ !(d.native l && ssiOps.contains op) then
      let a := bits (d.dsqEntry l op) 0 14
      Dev.microStep m (d.upLane l (fun L => { L with complete := false, skip := false, tmo := false, wordVecs := 0, acc := [], yields := false
                                                     upc := some a })) l a
    else d
  | some a => if d.microLive l ∧ L.goes ∧ L.freeAt ≤ d.bed then Dev.microStep m d l a else d

/-- Lane `l` stands at a DISPATCH of its microcode with its word delivered. -/
def Dev.atDispatch (d : Dev) (l : Nat) : Bool :=
  let L := d.lane l
  match L.upc with
  | some a => d.microLive l && L.goes && L.yields && L.acc.isEmpty && !L.irqWaits && mwMode (d.cs.read (d.laneCopy l) 0 a) == 2 && decide (L.waddr < L.len) && d.held l L.waddr
  | none => false

/-- BAD_OP (R77, R116): the next word's opcode is not valid in the loaded image. -/
def Dev.badOp (m : Mems) (d : Dev) (l : Nat) : Dev :=
  if (d.canTake l || d.atDispatch l) && !d.opValid l (wOp (Dev.curWord m d l)) then
    (d.upLane l (fun L => { L with complete := false })).laneFault l 1
  else d
/-- BAD_OP. -/
def execBadOp (l : Nat) (s : State) : Host.Outcome State Fault Refusal :=
  guardUnit (laneOk l) (s.onDevM (fun m d => Dev.badOp m d l))

/-! ## Interrupts of a DSQ (R80 to R89) -/

/-- Lane `l` stands at a yield point, its stitch committed: at a dispatch or a blocking action of SSI 4.2, or where its microcode yields. -/
def Dev.atYield (d : Dev) (l : Nat) : Bool :=
  let L := d.lane l
  if L.upc.isSome then L.yields && L.acc.isEmpty else L.phase != .ready || decide (L.freeAt ≤ d.bed)

/-- Where lane `l` goes on after an interrupt, and whether it stands behind a commit there (R80, R81, R85; log entry 74); taken at an IRET, where that
leads. -/
def Dev.resumeAt (d : Dev) (l : Nat) : Nat × Bool :=
  match (d.lane l).upc with
  | none => ((d.lane l).waddr, false)
  | some a =>
    let w := d.cs.read (d.laneCopy l) 0 a
    if mwMode w = 2 then (a, true)
    else
      let v := d.cs.read (d.laneCopy l) 1 (mwNano w)
      if dsqBlocks v then (a, false)
      else if bits v 185 3 = 5 then (((d.lane l).link.getD (mwNext w)), (d.lane l).linkY)
      else (mwNext w, false)

/-- Lane `l` enters the handler of an interrupt of kind `k` at its fixed address (R78). -/
def Lane.enter (L : Lane) (k t : Nat) : Lane :=
  { L with upc := some (0x10 + k), acc := [], yields := false, ret := false, hand := some k, phase := .ready, asOp := none, left := 0, wait := 0, freeAt := t + cycleTicks }

/-- Lane `l` takes its lowest pending interrupt at a yield point: the resume address is saved (R85), an ABORT abandons the routine; the sequencer goes to
the handler. -/
def Dev.interrupt (d : Dev) (l : Nat) : Dev :=
  let L := d.lane l
  if !L.irqWaits || !d.atYield l then d
  else if L.irqs.any (·.1 == 0) then
    let r := d.resumeAt l
    (d.dsqPartial l).upLane l (fun L =>
      let L1 := { L with irqs := [], link := some r.1, linkY := r.2, left := 0, asOp := none, fault := none }
      if d.native l then { L1 with phase := .stopped, upc := none, hand := none } else L1.enter 0 d.bed)
  else match (L.irqs.map (·.1)).min? with
    | some k =>
      let r := d.resumeAt l
      d.upLane l (fun L =>
        let L1 := { L with link := some r.1, linkY := r.2, hand := some k, irqs := L.irqs.filter (fun i => i.1 != k) }
        if d.native l then L1 else L1.enter k d.bed)
    | none => d

/-- The interrupts of a list that were raised 256 microcycles ago (R89). -/
def Dev.staleIrqs (d : Dev) (l : List (Nat × Nat)) : List (Nat × Nat) := l.filter (fun i => decide (i.2 + ns 256 ≤ d.now))

/-- Sequencers of the pins `ps` are hard-stopped: SEVERE source 0x104 and a verify of the copy, for each cluster (R89). -/
def Dev.stopClusters (d : Dev) (ps : List Nat) : Dev :=
  ((List.range 32).filter (fun k => ps.any (fun p => p / 8 == k))).foldl (fun d k =>
    let d1 := d.raise 0x104 k
    { d1 with cs := { d1.cs with wanted := setBit d1.cs.wanted k true } }) d

/-- HARD_STOP of lane `l` (R89): an ABORT raised 256 microcycles ago resets the sequencers; another interrupt becomes an ABORT, with which the site
stops and its pins go to their idle codes (R84; log entry 90). -/
def Dev.hardStop (d : Dev) (l : Nat) : Dev :=
  let old := d.staleIrqs (d.lane l).irqs
  if old.any (·.1 == 0) then ((d.dsqPartial l).stopLane l).stopClusters (d.lanePins l)
  else if old = [] then d
  else
    let d1 := d.upLane l (fun L => { L with irqs := L.irqs.filter (fun i => !decide (i.2 + ns 256 ≤ d.now)) })
    match (d.laneSite l).filter (fun n => d.siteState n == SiteState.RUNNING || d.siteState n == SiteState.PAUSED) with
    | some n => d1.stopSite n 3 Status.ABORTED_PARTIAL Status.WITHDRAWN false
    | none => (d1.lanePins l).foldl (fun d p => d.dropFifo p) (d1.raiseIrq l 0)

/-! ## The CSQ (R73 to R89) -/

/-- The condition that CSEL selects for the CSQ of pin `p`; what only a DSQ holds is open to it (log entry 74). -/
def Dev.csqCond (m : Mems) (d : Dev) (n p csel : Nat) : Bool × Dev :=
  let w := (d.csq p).cur.getD 0
  match csel with
  | 0x00 => (true, d)
  | 0x05 => (wXw w, d)
  | 0x06 => (d.cond n (bits (wA16 w) 0 5) d.bed, d)
  | 0x07 => (wA32 w == 0, d)
  | 0x08 => (wA16 w == 0, d)
  | 0x0A => ((Dev.peek m d p).1 != .missing, d)
  | 0x0C => (d.seamp n, d)
  | 0x0D => (d.isPrivate n p, d)
  | 0x0E => (decide (wA32 w < (d.lane (d.laneOf p)).len), d)
  | 0x0F => (d.csqFlag n p 0x0F, d)
  | 0x10 => (d.csqFlag n p 0x10, d)
  | 0x11 => (d.csqFlag n p 0x11, d)
  | _ => (d.openBit, d.took)

/-- FAILM: the fail mode from ARG16, the masking of fails. -/
def Dev.csqFailm (d : Dev) (p v w : Nat) : Dev :=
  match bits v 88 4 with
  | 1 => d.upCsq p (fun C => { C with mode := bits (wA16 w) 0 4 })
  | 2 => d.upCsq p (fun C => { C with maskOn := true })
  | 3 => d.upCsq p (fun C => { C with maskOn := false })
  | _ => d

/-- LSR: the actions of LATSRCH at the vector at the compare offset; after a RELEASE o returns to PIN_CMP_CTRL.OFFSET from the next vector (R211). -/
def Dev.csqLsr (d : Dev) (n p v w : Nat) : Dev :=
  match bits v 84 4, d.expHere n p with
  | 1, some e => d.ctlAct n p e d.bed ⟨0x1B, bits (wA16 w) 0 13, wA32 w⟩
  | 2, _ => if d.rd .PIN_CMP_STATUS_LSTATE p = 2 then d.setLstate n p 3 d.bed else d
  | 3, _ => (d.upCsq p (fun C => { C with search := none, relNext := true })).setLstate n p 0 d.bed
  | _, _ => d

/-- OFS: the compare offset, the present fine strobe offset (R197). -/
def Dev.csqOfs (d : Dev) (p v w : Nat) : Dev :=
  match bits v 80 4 with
  | 1 => d.wr .PIN_CMP_STATUS_OFFSET_NOW p (bits (wA16 w) 0 12)
  | 2 => d.upCsq p (fun C => { C with fine := sgn 16 (bits (wA32 w) 0 16) })
  | _ => d

/-- PUB: the match result, LOCK. -/
def Dev.csqPub (d : Dev) (n p v : Nat) : Dev :=
  match bits v 76 4 with
  | 1 => d.publish n p d.bed
  | 2 => d.postCond n 3 (d.lockLevel n) d.bed
  | _ => d

/-- The start of the slot of the vector at the compare offset: the next slot, or the one strobed last. -/
def Dev.hereStart (d : Dev) (n p : Nat) : Nat :=
  let C := d.csq p
  match d.expHere n p with
  | some e => if e.slot + d.rd .PIN_CMP_STATUS_OFFSET_NOW p = C.nextSlot then (d.slotStart n p).getD C.slotT else C.slotT
  | none => C.slotT

/-- STMP: stamps are armed on CH, CL or both, with the edges and the number that the word gives (R241). -/
def Dev.csqStmp (d : Dev) (n p v w : Nat) : Dev :=
  if bits v 72 4 = 0 then d else d.stampWord p (bits v 72 4 + 4 * bits (wA16 w) 2 2) (wA32 w) (d.hereStart n p)

/-- The actions of one nano-word on the CSQ of pin `p`; SEQW completes its entry as it does a DSQ's word (log entry 74). -/
def Dev.csqAct (n p : Nat) (d : Dev) (v : Nat) : Dev :=
  let w := (d.csq p).cur.getD 0
  let d1 := ((((d.csqFailm p v w).csqLsr n p v w).csqOfs p v w).csqPub n p v).csqStmp n p v w
  if 1 ≤ bits v 185 3 ∧ bits v 185 3 ≤ 3 then d1.upCsq p (fun C => { C with wordOpen := false })
  else if bits v 185 3 = 5 then d1.upCsq p (fun C => if C.link.isSome then { C with ret := false, hand := none, link := if C.ret then none else C.link } else C)
  else d1

/-- JUDGE and SKIP: the entry at the compare offset is taken once its slot has been strobed, and judged or not; none while it waits. One whose slot
falls at or before the slot last used for a judgement is not judged (R198). -/
def Dev.csqBlock (d : Dev) (n p v : Nat) : Option Dev :=
  match d.expHere n p with
  | some e =>
    let j := e.slot + d.rd .PIN_CMP_STATUS_OFFSET_NOW p
    let e1 := { e with ctl := [], wordEnd := false, maskf := e.maskf || (d.csq p).maskOn }
    let C := d.csq p
    let past : Bool := C.used.any (fun u => decide (j ≤ u))
    let d1 := d.upCsq p (fun C => { C with exps := C.exps.drop 1, relNext := false, used := if past || bits v 92 4 != 1 then C.used else some j })
    let after := fun (d : Dev) => if C.relNext then d.wr .PIN_CMP_STATUS_OFFSET_NOW p (d.rd .PIN_CMP_CTRL_OFFSET p) else d
    if C.nextSlot ≤ j then none
    else if bits v 92 4 ≠ 1 then some (after (d1.unjudged p e1))
    else some (after (match C.samples.find? (fun x => x.1 == j && !past) with
      | some (_, rs, close) => d1.takeExp n p e1 (e1.readings rs) close false
      | none => d1.takeExp n p e1 [] d.bed true))
  | none => none

/-- The CSQ reaches a yield point. -/
def Dev.csqCommit (d : Dev) (n p : Nat) (last : List Nat) : Dev :=
  let C := d.csq p
  (C.macc ++ (if C.yields then [] else last)).foldl (Dev.csqAct n p) (d.upCsq p (fun C => { C with macc := [], yields := true }))

/-- An interrupt waits that the CSQ takes at its yield point (R86). -/
def Csq.irqWaits (C : Csq) : Bool := C.hand != some 0 && (C.irqs.any (·.1 == 0) || (C.hand.isNone && !C.irqs.isEmpty))

/-- The CSQ passes on from a microword with nano-word `v`. -/
def Dev.csqGo (d : Dev) (p v next : Nat) : Dev :=
  d.upCsq p (fun C =>
    let C1 := { C with freeAt := d.bed + cycleTicks }
    match bits v 185 3, C.link with
    | 5, some a => { C1 with upc := some a, yields := C.linkY, linkY := false, link := if C.yields then none else some a, ret := !C.yields }
    | _, _ => { C1 with upc := some next, yields := false })

/-- A DISPATCH of the CSQ of pin `p` (R119, R131): the control entries of the vector at the compare offset first, each consumed, then the word that
emitted it; an opcode not valid in the CSQ table is BAD_OP. -/
def Dev.csqDispatch (d : Dev) (n p : Nat) : Dev :=
  match d.expHere n p with
  | none => d
  | some e =>
    let w := match e.ctl with | c :: _ => c.op * 2 ^ 58 + c.a16 * 2 ^ 32 + c.a32 | [] => e.word
    let t := d.cs.read (p / 8) 3 (wOp w)
    if bitAt t 15 then
      d.upCsq p (fun C => { C with cur := some w, wordOpen := true, yields := false, upc := some (bits t 0 14), freeAt := d.bed + cycleTicks
                                   exps := match C.exps with | x :: r => { x with ctl := x.ctl.drop 1 } :: r | [] => [] })
    else d.laneFaultNow (d.laneOf p) 1

/-- One microword of the CSQ of pin `p`. -/
def Dev.csqStep (m : Mems) (d : Dev) (p : Nat) : Dev :=
  let C := d.csq p
  match d.siteOf p, C.upc with
  | some n, some a =>
    if !d.siteRunning n || d.bed < C.freeAt then d
    else
      let w := d.cs.read (p / 8) 0 a
      let v := d.cs.read (p / 8) 1 (mwNano w)
      match mwMode w with
      | 0 => (d.upCsq p (fun C => { C with macc := C.macc ++ [v] })).csqGo p v (mwNext w)
      | 1 =>
        let c := Dev.csqCond m (C.macc.foldl (Dev.csqAct n p) d) n p (mwCsel w)
        (({ d with free := c.2.free } : Dev).upCsq p (fun C => { C with macc := C.macc ++ [v] })).csqGo p v (mwNext w / 2 * 2 + b2n c.1)
      | 2 =>
        let d1 := d.csqCommit n p [v]
        if (d1.csq p).irqWaits then d1 else d1.csqDispatch n p
      | _ =>
        let blocks : Bool := bits v 92 4 != 0
        let d1 := d.csqCommit n p (if blocks then [] else [v])
        if (d1.csq p).irqWaits then d1
        else if blocks then (match d1.csqBlock n p v with | some d2 => (d2.csqGo p 0 (mwNext w)).csqPause n p | none => d1)
        else d1.csqGo p v (mwNext w)
  | _, _ => d

/-- The CSQ of pin `p` takes its lowest pending interrupt; that of SSI 4.2 stands between two judgements at every command. -/
def Dev.csqInterrupt (d : Dev) (p : Nat) : Dev :=
  let C := d.csq p
  let into := fun (C : Csq) (k : Nat) => if C.micro then
      { C with upc := some (0x18 + k), macc := [], yields := false, ret := false, hand := some k, freeAt := d.bed + cycleTicks } else { C with hand := if k = 0 then none else some k }
  let r : Nat × Bool := match C.upc with
    | none => (0, false)
    | some a =>
      let w := d.cs.read (p / 8) 0 a
      let v := d.cs.read (p / 8) 1 (mwNano w)
      if mwMode w = 2 then (a, true) else if bits v 92 4 ≠ 0 then (a, false)
      else if bits v 185 3 = 5 then (C.link.getD (mwNext w), C.linkY) else (mwNext w, false)
  if !C.irqWaits || (C.micro && !(C.yields && C.macc.isEmpty)) then d
  else if C.irqs.any (·.1 == 0) then
    (d.csqPartial p).upCsq p (fun C => into { C with irqs := [], link := if C.micro then some r.1 else none, linkY := r.2, wordOpen := false } 0)
  else
    d.upCsq p (fun C => into { C with irqs := [], link := if C.micro then some r.1 else none, linkY := r.2 } 1)

/-- HARD_STOP of the CSQ of pin `p` (R89). -/
def Dev.csqHardStop (d : Dev) (p : Nat) : Dev :=
  let old := d.staleIrqs (d.csq p).irqs
  if old.any (·.1 == 0) then
    ((d.csqPartial p).upCsq p (fun C => { C with irqs := [], upc := none, macc := [], yields := false, cur := none, wordOpen := false, link := none
                                                 hand := none, ret := false, exps := [], search := none, dead := true })).stopClusters [p]
  else if old = [] then d
  else d.upCsq p (fun C => { C with irqs := [(0, d.now)], exps := [], search := none, dead := true })

/-! ## The commands -/

/-- IMAGE_OPCODE. -/
def execImageOpcode (l : Nat) (s : State) : Host.Outcome State Fault Refusal :=
  guardUnit (seqOk l) (s.onDevM (fun m d => if l < 320 then Dev.imageOp m d l else Dev.csqStep m d (l - 320)))

/-- INTERRUPT_TAKE. -/
def execInterruptTake (l : Nat) (s : State) : Host.Outcome State Fault Refusal :=
  guardUnit (seqOk l) (s.onDev (fun d => if l < 320 then d.interrupt l else d.csqInterrupt (l - 320)))

/-- HARD_STOP. -/
def execHardStop (l : Nat) (s : State) : Host.Outcome State Fault Refusal :=
  guardUnit (seqOk l) (s.onDev (fun d => if l < 320 then d.hardStop l else d.csqHardStop (l - 320)))

end Sys2Proof.Machine
end

