-- ==== Sys2Proof/Machine/Dispatch.lean ====
section
/-!
DEFINITION. The meaning of every command: one arm for each constructor.
-/
namespace Sys2Proof.Machine

/-- What command `i` does. -/
def exec (i : Instr) (s : State) : Host.Outcome State Fault Refusal :=
  match i with
  | .registerWrite addr bytes v => Sys2Proof.Machine.execRegisterWrite addr bytes v s
  | .lowHalfRead addr => Sys2Proof.Machine.execLowHalfRead addr s
  | .highHalfRead addr => Sys2Proof.Machine.execHighHalfRead addr s
  | .hbmWindowAccess off len data => Sys2Proof.Machine.execHbmWindowAccess off len data s
  | .siteCommit n v => Sys2Proof.Machine.execSiteCommit n v s
  | .pinTsCommit p v => Sys2Proof.Machine.execPinTsCommit p v s
  | .pinTfCommit p v => Sys2Proof.Machine.execPinTfCommit p v s
  | .wvCommit w v => Sys2Proof.Machine.execWvCommit w v s
  | .siteMemberWrite n k part v => Sys2Proof.Machine.execSiteMemberWrite n k part v s
  | .dozeEntry n => Sys2Proof.Machine.execDozeEntry n s
  | .run e => Sys2Proof.Machine.execRun e s
  | .preparingEntry n => Sys2Proof.Machine.execPreparingEntry n s
  | .preparationComplete n => Sys2Proof.Machine.execPreparationComplete n s
  | .burstStartSeam n => Sys2Proof.Machine.execBurstStartSeam n s
  | .siteStart n => Sys2Proof.Machine.execSiteStart n s
  | .eventPinEdge ev rise => Sys2Proof.Machine.execEventPinEdge ev rise s
  | .armTimeout n => Sys2Proof.Machine.execArmTimeout n s
  | .stopAbort e => Sys2Proof.Machine.execStopAbort e s
  | .stopPause e => Sys2Proof.Machine.execStopPause e s
  | .resume e => Sys2Proof.Machine.execResume e s
  | .resumeStart n => Sys2Proof.Machine.execResumeStart n s
  | .seamAtBoundary l => Sys2Proof.Machine.execSeamAtBoundary l s
  | .vectorLaunch l => Sys2Proof.Machine.execVectorLaunch l s
  | .burstEnd n => Sys2Proof.Machine.execBurstEnd n s
  | .drainEnd n => Sys2Proof.Machine.execDrainEnd n s
  | .conditionChange n => Sys2Proof.Machine.execConditionChange n s
  | .gridPoint l => Sys2Proof.Machine.execGridPoint l s
  | .seamDeadline n => Sys2Proof.Machine.execSeamDeadline n s
  | .ucodeLoad e bytes => Sys2Proof.Machine.execUcodeLoad e bytes s
  | .ucodeVerify e => Sys2Proof.Machine.execUcodeVerify e s
  | .ucodeLoadComplete bad lost => Sys2Proof.Machine.execUcodeLoadComplete bad lost s
  | .copyVerify k bad lost => Sys2Proof.Machine.execCopyVerify k bad lost s
  | .interruptTake l => Sys2Proof.Machine.execInterruptTake l s
  | .hardStop l => Sys2Proof.Machine.execHardStop l s
  | .halt l => Sys2Proof.Machine.execHalt l s
  | .emit l => Sys2Proof.Machine.execEmit l s
  | .emitt l => Sys2Proof.Machine.execEmitt l s
  | .repeatW l => Sys2Proof.Machine.execRepeat l s
  | .idleW l => Sys2Proof.Machine.execIdle l s
  | .loopW l => Sys2Proof.Machine.execLoop l s
  | .endloop l => Sys2Proof.Machine.execEndloop l s
  | .call l => Sys2Proof.Machine.execCall l s
  | .ret l => Sys2Proof.Machine.execRet l s
  | .jump l => Sys2Proof.Machine.execJump l s
  | .branch l => Sys2Proof.Machine.execBranch l s
  | .matchW l => Sys2Proof.Machine.execMatch l s
  | .matchPassEnd l => Sys2Proof.Machine.execMatchPassEnd l s
  | .waitcond l => Sys2Proof.Machine.execWaitcond l s
  | .waittrig l => Sys2Proof.Machine.execWaittrig l s
  | .waittime l => Sys2Proof.Machine.execWaittime l s
  | .rdv l => Sys2Proof.Machine.execRdv l s
  | .decisionCycle l => Sys2Proof.Machine.execDecisionCycle l s
  | .waitRelease l => Sys2Proof.Machine.execWaitRelease l s
  | .waitTimeout l => Sys2Proof.Machine.execWaitTimeout l s
  | .setc l => Sys2Proof.Machine.execSetc l s
  | .markW l => Sys2Proof.Machine.execMark l s
  | .stamp l => Sys2Proof.Machine.execStamp l s
  | .latsrch l => Sys2Proof.Machine.execLatsrch l s
  | .failmode l => Sys2Proof.Machine.execFailmode l s
  | .seam l => Sys2Proof.Machine.execSeam l s
  | .pstream l => Sys2Proof.Machine.execPstream l s
  | .ldcnt l => Sys2Proof.Machine.execLdcnt l s
  | .badOp l => Sys2Proof.Machine.execBadOp l s
  | .refillRequest => Sys2Proof.Machine.execRefillRequest s
  | .lineArrival p => Sys2Proof.Machine.execLineArrival p s
  | .tsetLoad e image => Sys2Proof.Machine.execTsetLoad e image s
  | .edgePllLockLoss q => Sys2Proof.Machine.execEdgePllLockLoss q s
  | .pllReady pll => Sys2Proof.Machine.execPllReady pll s
  | .pllRestartTimeout pll => Sys2Proof.Machine.execPllRestartTimeout pll s
  | .strobe p reading unstable => Sys2Proof.Machine.execStrobe p reading unstable s
  | .failRecordTransfer => Sys2Proof.Machine.execFailRecordTransfer s
  | .captureBlockWrite => Sys2Proof.Machine.execCaptureBlockWrite s
  | .frSiteClear n v => Sys2Proof.Machine.execFrSiteClear n v s
  | .measure e => Sys2Proof.Machine.execMeasure e s
  | .jobArm e => Sys2Proof.Machine.execJobArm e s
  | .qualifyingEdge x rise frac => Sys2Proof.Machine.execQualifyingEdge x rise frac s
  | .jobEnd e => Sys2Proof.Machine.execJobEnd e s
  | .jobArmTimeout e => Sys2Proof.Machine.execJobArmTimeout e s
  | .wavePlay e => Sys2Proof.Machine.execWavePlay e s
  | .wavePreparationComplete w => Sys2Proof.Machine.execWavePreparationComplete w s
  | .waveStart w => Sys2Proof.Machine.execWaveStart w s
  | .samplePoint adc cmp => Sys2Proof.Machine.execSamplePoint adc cmp s
  | .jumpRequest w => Sys2Proof.Machine.execJumpRequest w s
  | .wvJump w v => Sys2Proof.Machine.execWvJump w v s
  | .wvStreamWp w v => Sys2Proof.Machine.execWvStreamWp w v s
  | .waveStop e => Sys2Proof.Machine.execWaveStop e s
  | .wavePark w => Sys2Proof.Machine.execWavePark w s
  | .wavePllLockLoss => Sys2Proof.Machine.execWavePllLockLoss s
  | .dacDisable => Sys2Proof.Machine.execDacDisable s
  | .slotEnable k v => Sys2Proof.Machine.execSlotEnable k v s
  | .slotArm k v => Sys2Proof.Machine.execSlotArm k v s
  | .taForce v => Sys2Proof.Machine.execTaForce v s
  | .firing k => Sys2Proof.Machine.execFiring k s
  | .forcedFiring k => Sys2Proof.Machine.execForcedFiring k s
  | .acquire e => Sys2Proof.Machine.execAcquire e s
  | .acquisitionArm w => Sys2Proof.Machine.execAcquisitionArm w s
  | .acquisitionEnd w => Sys2Proof.Machine.execAcquisitionEnd w s
  | .acquisitionTimeout w => Sys2Proof.Machine.execAcquisitionTimeout w s
  | .sqTail r v => Sys2Proof.Machine.execSqTail r v s
  | .cqHead r v => Sys2Proof.Machine.execCqHead r v s
  | .contextLoad r => Sys2Proof.Machine.execContextLoad r s
  | .contextStore r => Sys2Proof.Machine.execContextStore r s
  | .enable r => Sys2Proof.Machine.execEnable r s
  | .disable r => Sys2Proof.Machine.execDisable r s
  | .restart r => Sys2Proof.Machine.execRestart r s
  | .contextCommandComplete => Sys2Proof.Machine.execContextCommandComplete s
  | .tokenWrite t v => Sys2Proof.Machine.execTokenWrite t v s
  | .descriptorRead r data => Sys2Proof.Machine.execDescriptorRead r data s
  | .dispatch => Sys2Proof.Machine.execDispatch s
  | .hostReadError e fetch => Sys2Proof.Machine.execHostReadError e fetch s
  | .completionReport e => Sys2Proof.Machine.execCompletionReport e s
  | .completionRecordWrite r => Sys2Proof.Machine.execCompletionRecordWrite r s
  | .msixHoldoffEnd vec => Sys2Proof.Machine.execMsixHoldoffEnd vec s
  | .tokenWaitRelease r => Sys2Proof.Machine.execTokenWaitRelease r s
  | .tokenWaitTimeout r => Sys2Proof.Machine.execTokenWaitTimeout r s
  | .nop e => Sys2Proof.Machine.execNop e s
  | .fence e => Sys2Proof.Machine.execFence e s
  | .tokenSet e => Sys2Proof.Machine.execTokenSet e s
  | .tokenWait r => Sys2Proof.Machine.execTokenWait r s
  | .regWrite e pairs => Sys2Proof.Machine.execRegWrite e pairs s
  | .regRead e => Sys2Proof.Machine.execRegRead e s
  | .copyIn e data => Sys2Proof.Machine.execCopyIn e data s
  | .copyOut e => Sys2Proof.Machine.execCopyOut e s
  | .fill e => Sys2Proof.Machine.execFill e s
  | .peXfer e tx reply => Sys2Proof.Machine.execPeXfer e tx reply s
  | .peXferTimeout e => Sys2Proof.Machine.execPeXferTimeout e s
  | .failFetch e err => Sys2Proof.Machine.execFailFetch e err s
  | .captureFetch e => Sys2Proof.Machine.execCaptureFetch e s
  | .calRequestGaps e => Sys2Proof.Machine.execCalRequestGaps e s
  | .calRequestForce e => Sys2Proof.Machine.execCalRequestForce e s
  | .calRequestDiscard e => Sys2Proof.Machine.execCalRequestDiscard e s
  | .calReport e => Sys2Proof.Machine.execCalReport e s
  | .journalRead e => Sys2Proof.Machine.execJournalRead e s
  | .twinCheckpoint e => Sys2Proof.Machine.execTwinCheckpoint e s
  | .functionLevelReset => Sys2Proof.Machine.execFunctionLevelReset s
  | .hbmRequestService pc err => Sys2Proof.Machine.execHbmRequestService pc err s
  | .refreshIssue pc => Sys2Proof.Machine.execRefreshIssue pc s
  | .stackTemperatureRead st report => Sys2Proof.Machine.execStackTemperatureRead st report s
  | .retrain pc ok => Sys2Proof.Machine.execRetrain pc ok s
  | .oppointWrite v => Sys2Proof.Machine.execOppointWrite v s
  | .oppointSwitch => Sys2Proof.Machine.execOppointSwitch s
  | .selfRefreshEntry st => Sys2Proof.Machine.execSelfRefreshEntry st s
  | .selfRefreshExit st report => Sys2Proof.Machine.execSelfRefreshExit st report s
  | .patrolScrub err => Sys2Proof.Machine.execPatrolScrub err s
  | .referenceLoss => Sys2Proof.Machine.execReferenceLoss s
  | .holdoverExpiry => Sys2Proof.Machine.execHoldoverExpiry s
  | .corePllLockLoss => Sys2Proof.Machine.execCorePllLockLoss s
  | .stepCommit v => Sys2Proof.Machine.execStepCommit v s
  | .ppsPulse frac => Sys2Proof.Machine.execPpsPulse frac s
  | .disciplineHoldover => Sys2Proof.Machine.execDisciplineHoldover s
  | .disciplineModeWrite v => Sys2Proof.Machine.execDisciplineModeWrite v s
  | .ageNowAdvance => Sys2Proof.Machine.execAgeNowAdvance s
  | .portEnable pt v => Sys2Proof.Machine.execPortEnable pt v s
  | .train pt peerRate => Sys2Proof.Machine.execTrain pt peerRate s
  | .trainingEnd pt lanes fom peerLanes peerWidth => Sys2Proof.Machine.execTrainingEnd pt lanes fom peerLanes peerWidth s
  | .blockLockLoss pt => Sys2Proof.Machine.execBlockLockLoss pt s
  | .fomSample lane fom quiet => Sys2Proof.Machine.execFomSample lane fom quiet s
  | .rateMaxWrite pt v => Sys2Proof.Machine.execRateMaxWrite pt v s
  | .frame pt pri seq crcOk elasticOk lanes => Sys2Proof.Machine.execFrame pt pri seq crcOk elasticOk lanes s
  | .ack pt pri seq => Sys2Proof.Machine.execAck pt pri seq s
  | .nak pt pri seq => Sys2Proof.Machine.execNak pt pri seq s
  | .replayTimeout pt => Sys2Proof.Machine.execReplayTimeout pt s
  | .timeExchangeStart pt => Sys2Proof.Machine.execTimeExchangeStart pt s
  | .treq pt n => Sys2Proof.Machine.execTreq pt n s
  | .timeExchangeComplete pt n t2 turn dly t4 intact => Sys2Proof.Machine.execTimeExchangeComplete pt n t2 turn dly t4 intact s
  | .condPacket pt tag cond value t => Sys2Proof.Machine.execCondPacket pt tag cond value t s
  | .startPacket pt tag t => Sys2Proof.Machine.execStartPacket pt tag t s
  | .haltPacket pt tag t => Sys2Proof.Machine.execHaltPacket pt tag t s
  | .markPacket pt tag marker t => Sys2Proof.Machine.execMarkPacket pt tag marker t s
  | .trigPacket pt tag slot t => Sys2Proof.Machine.execTrigPacket pt tag slot t s
  | .faultBlock pt => Sys2Proof.Machine.execFaultBlock pt s
  | .twinEnable v => Sys2Proof.Machine.execTwinEnable v s
  | .pairing peerImage peerDigest peerSerial peerPrefer peerSolo => Sys2Proof.Machine.execPairing peerImage peerDigest peerSerial peerPrefer peerSolo s
  | .seekTimeout => Sys2Proof.Machine.execSeekTimeout s
  | .heartbeat => Sys2Proof.Machine.execHeartbeat s
  | .heartbeatLoss => Sys2Proof.Machine.execHeartbeatLoss s
  | .leaseExpiry => Sys2Proof.Machine.execLeaseExpiry s
  | .twinPeerAsserted => Sys2Proof.Machine.execTwinPeerAsserted s
  | .peerWaitTimeout => Sys2Proof.Machine.execPeerWaitTimeout s
  | .takeover skipped => Sys2Proof.Machine.execTakeover skipped s
  | .mirrorFrame kind a b c => Sys2Proof.Machine.execMirrorFrame kind a b c s
  | .completionNotice ring idx slot record => Sys2Proof.Machine.execCompletionNotice ring idx slot record s
  | .noticeAck e => Sys2Proof.Machine.execNoticeAck e s
  | .syncComplete => Sys2Proof.Machine.execSyncComplete s
  | .modelStep mw => Sys2Proof.Machine.execModelStep mw s
  | .boardSenseRead raw => Sys2Proof.Machine.execBoardSenseRead raw s
  | .boundaryWrite v => Sys2Proof.Machine.execBoundaryWrite v s
  | .boundaryStale => Sys2Proof.Machine.execBoundaryStale s
  | .sleepRequest v => Sys2Proof.Machine.execSleepRequest v s
  | .autoSleep => Sys2Proof.Machine.execAutoSleep s
  | .sleepEntry => Sys2Proof.Machine.execSleepEntry s
  | .wake => Sys2Proof.Machine.execWake s
  | .pllIdleStop q => Sys2Proof.Machine.execPllIdleStop q s
  | .ballastEnd => Sys2Proof.Machine.execBallastEnd s
  | .calibrationStep kind unit conv vals sigma => Sys2Proof.Machine.execCalibrationStep kind unit conv vals sigma s
  | .outRetry kind unit => Sys2Proof.Machine.execOutRetry kind unit s
  | .resultAged kind unit => Sys2Proof.Machine.execResultAged kind unit s
  | .forcedWindowOpen p => Sys2Proof.Machine.execForcedWindowOpen p s
  | .forcedWindowEnd p => Sys2Proof.Machine.execForcedWindowEnd p s
  | .faultEvent => Sys2Proof.Machine.execFaultEvent s
  | .logWrite => Sys2Proof.Machine.execLogWrite s
  | .exit v => Sys2Proof.Machine.execExit v s
  | .reinit v => Sys2Proof.Machine.execReinit v s
  | .parityError => Sys2Proof.Machine.execParityError s
  | .fcInject v => Sys2Proof.Machine.execFcInject v s
  | .fcAlias v => Sys2Proof.Machine.execFcAlias v s
  | .journalWrite ok => Sys2Proof.Machine.execJournalWrite ok s
  | .counterWrap x => Sys2Proof.Machine.execCounterWrap x s
  | .tlCfgWrite x v => Sys2Proof.Machine.execTlCfgWrite x v s
  | .tlCntWrite x part v => Sys2Proof.Machine.execTlCntWrite x part v s
  | .snap v => Sys2Proof.Machine.execSnap v s
  | .userPageSnapshot g => Sys2Proof.Machine.execUserPageSnapshot g s
  | .sampleCapture => Sys2Proof.Machine.execSampleCapture s
  | .tlSampleHiRead => Sys2Proof.Machine.execTlSampleHiRead s
  | .powerOn boot => Sys2Proof.Machine.execPowerOn boot s
  | .fundamentalReset boot => Sys2Proof.Machine.execFundamentalReset boot s
  | .warmReset v boot => Sys2Proof.Machine.execWarmReset v boot s
  | .windowRead v => Sys2Proof.Machine.execWindowRead v s
  | .windowProgram v => Sys2Proof.Machine.execWindowProgram v s
  | .windowErase v => Sys2Proof.Machine.execWindowErase v s
  | .otpCust v => Sys2Proof.Machine.execOtpCust v s
  | .otpSeal v => Sys2Proof.Machine.execOtpSeal v s
  | .windowCommandComplete ok => Sys2Proof.Machine.execWindowCommandComplete ok s
  | .windowCommandTimeout => Sys2Proof.Machine.execWindowCommandTimeout s
  | .extest balls => Sys2Proof.Machine.execExtest balls s
  | .supplyRemoval => Sys2Proof.Machine.execSupplyRemoval s
  | .hxPerstDeassertion => Sys2Proof.Machine.execHxPerstDeassertion s
  | .referenceReturn => Sys2Proof.Machine.execReferenceReturn s
  | .twinPeerDeassertion => Sys2Proof.Machine.execTwinPeerDeassertion s
  | .peerFaultClear pt => Sys2Proof.Machine.execPeerFaultClear pt s
  | .imageOpcode l => Sys2Proof.Machine.execImageOpcode l s
  | .keepOpenRowClose pc bank => Sys2Proof.Machine.execKeepOpenRowClose pc bank s
  | .trainingStepEnd pt => Sys2Proof.Machine.execTrainingStepEnd pt s

end Sys2Proof.Machine
end

