-- ==== Sys2Proof/Machine/Step.lean ====
section
/-!
DEFINITION. One step: the command at the front of the queue, or, where none waits, one engine cycle of local time.
-/
namespace Sys2Proof.Machine

/-- No command waits: one engine cycle passes (DESIGN CHOICE, log entry 2). -/
def State.idle (s : State) : State := s.onDev Dev.engineCycle

/-- The command at the front of the queue acts on the state with the rest of the queue (log entry 1). -/
def step (s : State) : Host.Outcome State Fault Refusal :=
  match s.pending with
  | [] => .next s.idle
  | i :: rest => exec i { s with pending := rest }

/-- `s` with the command that the word spells put at the front of its queue. -/
def State.withFetchWord (s : State) (nbits w : Nat) : State :=
  match decodeTableWord nbits w with
  | some i => { s with pending := i :: s.pending }
  | none => s

end Sys2Proof.Machine
end

