-- ==== Sys2Proof/WellFormed.lean ====
section
/-!
DEFINITION. Which commands name units that the block has. An ill-formed command has no meaning: it faults.
-/
namespace Sys2Proof

/-- The units that command `i` names exist (sites, pins, channels, lanes, ports and the rest by their counts; tracker entries and
values are free). -/
def wf (i : Instr) : Bool :=
  match i with
  | .registerWrite _ bytes _ => decide (1 ≤ bytes) && decide (bytes ≤ 8)
  | .lowHalfRead addr => decide (addr / 2 ^ 28 ≤ 8)
  | .highHalfRead _ => true
  | .hbmWindowAccess _ _ _ => true
  | .siteCommit n _ => decide (n < 64)
  | .pinTsCommit p _ => decide (p < 256)
  | .pinTfCommit p _ => decide (p < 256)
  | .wvCommit w _ => decide (w < 8)
  | .siteMemberWrite n k _ _ => decide (n < 64) && decide (k < 4)
  | .dozeEntry n => decide (n < 64)
  | .run _ => true
  | .preparingEntry n => decide (n < 64)
  | .preparationComplete n => decide (n < 64)
  | .burstStartSeam n => decide (n < 64)
  | .siteStart n => decide (n < 64)
  | .eventPinEdge ev _ => decide (ev < 8)
  | .armTimeout n => decide (n < 64)
  | .stopAbort _ => true
  | .stopPause _ => true
  | .resume _ => true
  | .resumeStart n => decide (n < 64)
  | .seamAtBoundary l => decide (l < 320)
  | .vectorLaunch l => decide (l < 320)
  | .burstEnd n => decide (n < 64)
  | .drainEnd n => decide (n < 64)
  | .conditionChange n => decide (n < 64)
  | .gridPoint l => decide (l < 320)
  | .seamDeadline n => decide (n < 64)
  | .ucodeLoad _ _ => true
  | .ucodeVerify _ => true
  | .ucodeLoadComplete _ _ => true
  | .copyVerify k _ _ => decide (k < 32)
  | .interruptTake l => decide (l < 576)
  | .hardStop l => decide (l < 576)
  | .halt l => decide (l < 320)
  | .emit l => decide (l < 320)
  | .emitt l => decide (l < 320)
  | .repeatW l => decide (l < 320)
  | .idleW l => decide (l < 320)
  | .loopW l => decide (l < 320)
  | .endloop l => decide (l < 320)
  | .call l => decide (l < 320)
  | .ret l => decide (l < 320)
  | .jump l => decide (l < 320)
  | .branch l => decide (l < 320)
  | .matchW l => decide (l < 320)
  | .matchPassEnd l => decide (l < 320)
  | .waitcond l => decide (l < 320)
  | .waittrig l => decide (l < 320)
  | .waittime l => decide (l < 320)
  | .rdv l => decide (l < 320)
  | .decisionCycle l => decide (l < 320)
  | .waitRelease l => decide (l < 320)
  | .waitTimeout l => decide (l < 320)
  | .setc l => decide (l < 320)
  | .markW l => decide (l < 320)
  | .stamp l => decide (l < 320)
  | .latsrch l => decide (l < 320)
  | .failmode l => decide (l < 320)
  | .seam l => decide (l < 320)
  | .pstream l => decide (l < 320)
  | .ldcnt l => decide (l < 320)
  | .badOp l => decide (l < 320)
  | .refillRequest => true
  | .lineArrival p => decide (p < 256)
  | .tsetLoad _ _ => true
  | .edgePllLockLoss q => decide (q < 4)
  | .pllReady pll => decide (pll < 5)
  | .pllRestartTimeout pll => decide (pll < 5)
  | .strobe p _ _ => decide (p < 256)
  | .failRecordTransfer => true
  | .captureBlockWrite => true
  | .frSiteClear n _ => decide (n < 64)
  | .measure _ => true
  | .jobArm _ => true
  | .qualifyingEdge i _ _ => decide (i < 512)
  | .jobEnd _ => true
  | .jobArmTimeout _ => true
  | .wavePlay _ => true
  | .wavePreparationComplete w => decide (w < 8)
  | .waveStart w => decide (w < 8)
  | .samplePoint _ _ => true
  | .jumpRequest w => decide (w < 8)
  | .wvJump w _ => decide (w < 8)
  | .wvStreamWp w _ => decide (w < 8)
  | .waveStop _ => true
  | .wavePark w => decide (w < 8)
  | .wavePllLockLoss => true
  | .dacDisable => true
  | .slotEnable k _ => decide (k < 16)
  | .slotArm k _ => decide (k < 16)
  | .taForce _ => true
  | .firing k => decide (k < 16)
  | .forcedFiring k => decide (k < 16)
  | .acquire _ => true
  | .acquisitionArm w => decide (w < 8)
  | .acquisitionEnd w => decide (w < 8)
  | .acquisitionTimeout w => decide (w < 8)
  | .sqTail r _ => decide (r < 65536)
  | .cqHead r _ => decide (r < 65536)
  | .contextLoad r => decide (r < 65536)
  | .contextStore r => decide (r < 65536)
  | .enable r => decide (r < 65536)
  | .disable r => decide (r < 65536)
  | .restart r => decide (r < 65536)
  | .contextCommandComplete => true
  | .tokenWrite t _ => decide (t < 4096)
  | .descriptorRead r _ => decide (r < 65536)
  | .dispatch => true
  | .hostReadError _ _ => true
  | .completionReport _ => true
  | .completionRecordWrite r => decide (r < 65536)
  | .msixHoldoffEnd vec => decide (vec < 2048)
  | .tokenWaitRelease r => decide (r < 65536)
  | .tokenWaitTimeout r => decide (r < 65536)
  | .nop _ => true
  | .fence _ => true
  | .tokenSet _ => true
  | .tokenWait r => decide (r < 65536)
  | .regWrite _ _ => true
  | .regRead _ => true
  | .copyIn _ _ => true
  | .copyOut _ => true
  | .fill _ => true
  | .peXfer _ _ _ => true
  | .peXferTimeout _ => true
  | .failFetch _ _ => true
  | .captureFetch _ => true
  | .calRequestGaps _ => true
  | .calRequestForce _ => true
  | .calRequestDiscard _ => true
  | .calReport _ => true
  | .journalRead _ => true
  | .twinCheckpoint _ => true
  | .functionLevelReset => true
  | .hbmRequestService pc _ => decide (pc < 64)
  | .refreshIssue pc => decide (pc < 64)
  | .stackTemperatureRead st _ => decide (st < 2)
  | .retrain pc _ => decide (pc < 64)
  | .oppointWrite _ => true
  | .oppointSwitch => true
  | .selfRefreshEntry st => decide (st < 2)
  | .selfRefreshExit st _ => decide (st < 2)
  | .patrolScrub _ => true
  | .referenceLoss => true
  | .holdoverExpiry => true
  | .corePllLockLoss => true
  | .stepCommit _ => true
  | .ppsPulse frac => decide (frac < 16384)
  | .disciplineHoldover => true
  | .disciplineModeWrite _ => true
  | .ageNowAdvance => true
  | .portEnable pt _ => decide (pt < 4)
  | .train pt _ => decide (pt < 4)
  | .trainingEnd pt _ _ _ _ => decide (pt < 4)
  | .blockLockLoss pt => decide (pt < 4)
  | .fomSample lane _ _ => decide (lane < 16)
  | .rateMaxWrite pt _ => decide (pt < 4)
  | .frame pt _ _ _ _ _ => decide (pt < 4)
  | .ack pt _ _ => decide (pt < 4)
  | .nak pt _ _ => decide (pt < 4)
  | .replayTimeout pt => decide (pt < 4)
  | .timeExchangeStart pt => decide (pt < 4)
  | .treq pt _ => decide (pt < 4)
  | .timeExchangeComplete pt _ _ _ _ _ _ => decide (pt < 4)
  | .condPacket pt _ _ _ _ => decide (pt < 4)
  | .startPacket pt _ _ => decide (pt < 4)
  | .haltPacket pt _ _ => decide (pt < 4)
  | .markPacket pt _ _ _ => decide (pt < 4)
  | .trigPacket pt _ _ _ => decide (pt < 4)
  | .faultBlock pt => decide (pt < 4)
  | .twinEnable _ => true
  | .pairing _ _ _ _ _ => true
  | .seekTimeout => true
  | .heartbeat => true
  | .heartbeatLoss => true
  | .leaseExpiry => true
  | .twinPeerAsserted => true
  | .peerWaitTimeout => true
  | .takeover _ => true
  | .mirrorFrame _ _ _ _ => true
  | .completionNotice ring _ _ _ => decide (ring < 65536)
  | .noticeAck _ => true
  | .syncComplete => true
  | .modelStep _ => true
  | .boardSenseRead _ => true
  | .boundaryWrite _ => true
  | .boundaryStale => true
  | .sleepRequest _ => true
  | .autoSleep => true
  | .sleepEntry => true
  | .wake => true
  | .pllIdleStop q => decide (q < 4)
  | .ballastEnd => true
  | .calibrationStep kind unit _ _ _ => decide (unit < (if kind = 0 ∨ kind = 2 then 256 else if kind = 1 ∨ kind = 5 then 512 else if kind = 3 then 4 else if kind = 4 then 8 else 0))
  | .outRetry kind unit => decide (unit < (if kind = 0 ∨ kind = 2 then 256 else if kind = 1 ∨ kind = 5 then 512 else if kind = 3 then 4 else if kind = 4 then 8 else 0))
  | .resultAged kind unit => decide (unit < (if kind = 0 ∨ kind = 2 then 256 else if kind = 1 ∨ kind = 5 then 512 else if kind = 3 then 4 else if kind = 4 then 8 else 0))
  | .forcedWindowOpen p => decide (p < 256)
  | .forcedWindowEnd p => decide (p < 256)
  | .faultEvent => true
  | .logWrite => true
  | .exit _ => true
  | .reinit _ => true
  | .parityError => true
  | .fcInject _ => true
  | .fcAlias _ => true
  | .journalWrite _ => true
  | .counterWrap i => decide (i < 64)
  | .tlCfgWrite i _ => decide (i < 64)
  | .tlCntWrite i _ _ => decide (i < 64)
  | .snap _ => true
  | .userPageSnapshot g => decide (g < 16)
  | .sampleCapture => true
  | .tlSampleHiRead => true
  | .powerOn _ => true
  | .fundamentalReset _ => true
  | .warmReset _ _ => true
  | .windowRead _ => true
  | .windowProgram _ => true
  | .windowErase _ => true
  | .otpCust _ => true
  | .otpSeal _ => true
  | .windowCommandComplete _ => true
  | .windowCommandTimeout => true
  | .extest _ => true
  | .supplyRemoval => true
  | .hxPerstDeassertion => true
  | .referenceReturn => true
  | .twinPeerDeassertion => true
  | .peerFaultClear pt => decide (pt < 4)
  | .imageOpcode l => decide (l < 576)
  | .keepOpenRowClose pc bank => decide (pc < 64) && decide (bank < 64)
  | .trainingStepEnd pt => decide (pt < 4)

end Sys2Proof
end

