-- ==== Sys2Proof/Safety.lean ====
section
/-!
DEFINITION. What counts as a safe state and a safe run: the memories and register tables in canonical form, and every command that
waits naming units that exist.
-/
namespace Sys2Proof.Machine

/-- Every memory is in canonical form: addresses rising, no byte listed that reads as an unlisted one. -/
def Mems.wf (m : Mems) : Bool :=
  tcanon byte0 m.hbm && tcanon byte0 m.host && tcanon byteF m.flash && tcanon otpByte m.otp && tcanon byte0 m.win &&
    tcanon byte0 m.vlb && tcanon byte0 m.ents

/-- The commands that wait name units that exist. -/
def State.queueOk (s : State) : Bool := s.pending.all wf

/-- A safe state. -/
def State.safe (s : State) : Bool := s.mem.wf && s.queueOk

/-- A step that goes on. -/
def goesOn (s : State) : Prop := ∃ t, step s = .next t

/-! ## What a command does -/

/-- Command `c` answers a next state in which the commands that wait and every byte of memory are as before, and `P` holds of the
block. -/
def Acts (c : Instr) (s : State) (P : Dev → Prop) : Prop :=
  ∃ t, exec c s = .next t ∧ t.pending = s.pending ∧ t.mem = s.mem ∧ P t.dev

/-- Command `c` answers a next state in which the commands that wait are as before, and `P` holds of the memories and the block. -/
def Writes (c : Instr) (s : State) (P : Mems → Dev → Prop) : Prop :=
  ∃ t, exec c s = .next t ∧ t.pending = s.pending ∧ P t.mem t.dev

/-- Every register field but those listed holds what it held. -/
def Dev.keepsBut (d e : Dev) (l : List (Fld × Nat)) : Prop := ∀ f i, (f, i) ∉ l → e.rd f i = d.rd f i

/-- Every register field of another name holds what it held. -/
def Dev.keepsFields (d e : Dev) (l : List Fld) : Prop := ∀ f i, f ∉ l → e.rd f i = d.rd f i

/-- Every field that software sets, but those named, holds what it held. -/
def Dev.keepsSet (d e : Dev) (l : List Fld) : Prop := ∀ f i, f.spec.acc = .RW → f ∉ l → e.rd f i = d.rd f i

/-- The descriptor in entry `id` has been decided with `status`: its completion report is due. -/
def Dev.decided (e : Dev) (id status : Nat) : Prop := ∃ x, e.entry? id = some x ∧ x.done = true ∧ x.status = status

/-- Every descriptor in flight but that of entry `id` is as before. -/
def Dev.entriesBut (d e : Dev) (id : Nat) : Prop := ∀ k, k ≠ id → e.entry? k = d.entry? k

/-- The next word of lane `l` has opcode `op`, its sequencers run the standard image, and it can be taken whole (R103 to R105). -/
def Dev.atWord (m : Mems) (d : Dev) (l op : Nat) : Bool :=
  let w := Dev.curWord m d l
  decide (l < 320) && d.canTake l && wOp w == op && d.opValid l op && d.native l &&
    (!wXw w || (decide ((d.lane l).waddr + 1 < (d.lane l).len) && d.held l ((d.lane l).waddr + 1)))

/-- The word of lane `l` is complete and the lane is at word `t`. -/
def Dev.atNext (e : Dev) (l t : Nat) : Prop :=
  (e.lane l).waddr = t ∧ (e.lane l).phase = .ready ∧ (e.lane l).complete = true ∧ (e.lane l).left = 0 ∧ (e.lane l).wait = 0

/-- Every other sequencer and every register is as before. -/
def Dev.wordFrame (d e : Dev) (l : Nat) : Prop := (∀ k, k ≠ l → e.lane k = d.lane k) ∧ d.keepsBut e []

/-- The next `k` vectors of pin `p`'s stream can be drawn one after another: none waits for data. -/
def Dev.dataFor (m : Mems) (p : Nat) : Nat → Dev → Bool
  | 0, _ => true
  | k + 1, d =>
    match Dev.peek m d p with
    | (.missing, _) => false
    | (.bad, _) => true
    | (.ok _ _ _ _, pos) => Dev.dataFor m p k (Dev.drewAt m d p pos)

/-- The word after the present one of lane `l`, its extension word passed over. -/
def Dev.nextOf (m : Mems) (d : Dev) (l : Nat) : Nat := nextWaddr (Dev.curWord m d l) (d.lane l).waddr

/-- A host access finds the part serving (R473, R513), its link up and the part awake. -/
def Dev.hostReady (d : Dev) : Bool := d.kl.powered && d.serves && !d.gd.perst && d.rd .KL_STATUS_PSTATE 0 != 1

/-- The block when a host access has reached it: the access is noted for the sleep timer (R421), nothing else. -/
def Dev.reached (d : Dev) : Dev := d.upKl (fun K => { K with hostAt := d.now })

/-- The registers whose write does more than write their fields: each has a rule of its own. -/
def ownWrite : List Reg :=
  [.DEV_REFUSED, .DEV_RESET, .DEV_EV_CTRL, .GD_WIN_CMD, .FC_CTRL, .FC_AON, .FC_INJECT, .FC_ALIAS, .FC_SUMMARY, .FC_IRQ, .FC_SRC_CFG, .FC_SRC_STAT,
   .KL_BOUNDARY, .KL_PSTATE, .BR_CTRL, .BR_COMMIT, .BR_FCW, .BR_AGE_RATE, .BR_AGE_EPOCH, .TL_CTRL, .TL_CFG, .TL_CNT, .CS_POLICY, .RG_CTX_CMD,
   .RG_TOKEN, .RG_MSIX_CTRL, .MC_CTRL, .MC_ERR, .TW_CTRL, .TA_SLOT_CTRL, .TA_FORCE, .SITE_MEMBER, .SITE_COMMIT, .PIN_TS_COMMIT,
   .PIN_TF_COMMIT, .PIN_TS_REJECT, .PIN_DSQ_STATUS, .PIN_TM_CTRL, .PIN_SEQ_CTRL, .FR_SITE_CTRL, .WV_CTRL, .WV_COMMIT, .WV_JUMP,
   .WV_STREAM_WP, .RN_PORT_CTRL]

/-- The fields in which a write of another register is noted: a refusal (R20), a staged group that becomes pending (R19). -/
def notedFields : List Fld :=
  [.DEV_REFUSED_VALID, .DEV_REFUSED_MORE, .DEV_REFUSED_KIND, .DEV_REFUSED_ADDR, .PIN_TS_PENDING_SET, .PIN_TF_STATUS_DESKEW_PENDING,
   .WV_STATUS_TONE_PENDING]

/-- What a field that held `old` holds after a write that gives it the bits `new`, of which the write itself sets `ones`, where events have
set the bits `just` in this engine cycle (R17 to R20). -/
def Fld.written (f : Fld) (running : Bool) (old new ones just : Nat) : Nat :=
  match f.spec.acc with
  | .RO => old
  | .WO => old
  | .RW1C => (old &&& (((2 ^ f.spec.width - 1) ^^^ ones) ||| just)) % 2 ^ f.spec.width
  | .RW => if f.spec.cls == .I && running then old else new

/-- The commands that may write a memory; every other leaves each byte as it is. -/
def storing : Instr → Bool
  | .registerWrite _ _ _ => true
  | .hbmWindowAccess _ _ _ => true
  | .dozeEntry _ => true
  | .drainEnd _ => true
  | .lineArrival _ => true
  | .failRecordTransfer => true
  | .captureBlockWrite => true
  | .jobEnd _ => true
  | .jobArmTimeout _ => true
  | .samplePoint _ _ => true
  | .acquisitionEnd _ => true
  | .acquisitionTimeout _ => true
  | .completionRecordWrite _ => true
  | .msixHoldoffEnd _ => true
  | .regWrite _ _ => true
  | .regRead _ => true
  | .copyIn _ _ => true
  | .copyOut _ => true
  | .fill _ => true
  | .peXfer _ _ _ => true
  | .failFetch _ _ => true
  | .captureFetch _ => true
  | .calReport _ => true
  | .journalRead _ => true
  | .functionLevelReset => true
  | .hbmRequestService _ _ => true
  | .ageNowAdvance => true
  | .takeover _ => true
  | .mirrorFrame _ _ _ _ => true
  | .modelStep _ => true
  | .sleepEntry => true
  | .faultEvent => true
  | .parityError => true
  | .journalWrite _ => true
  | .sampleCapture => true
  | .powerOn _ => true
  | .fundamentalReset _ => true
  | .warmReset _ _ => true
  | .windowCommandComplete _ => true
  | .windowCommandTimeout => true
  | .supplyRemoval => true
  | _ => false

end Sys2Proof.Machine
end

