-- ==== Sys2Proof/Certificates/Slice0/Obligations.lean ====
section
/-!
DEFINITION. The statements for the provers: what the commands of the block do, family by family, and what every step keeps.
-/
open Sys2Proof Sys2Proof.Machine

/-- The model's step (log entries 1 and 2; R6): the command at the front of the queue runs on the rest of the queue; an empty queue lets one engine cycle
pass. -/
def Obligations.StepTakesFrontCommand : Prop :=
  (∀ (c : Instr) (s : State), step { s with pending := c :: s.pending } = exec c s) ∧
  (∀ s : State, s.pending = [] → ∃ t, step s = .next t ∧ t.pending = [] ∧ t.mem = s.mem ∧ t.dev.now = s.dev.now + 16384)

/-- The model's choice (log entry 1; R23): every command whose operands name units that exist answers a next state and leaves the queue. The model's
choice (log entry 1; R23): a command that names a unit the block has not faults by name. -/
def Obligations.CommandsCompleteWhereTheirUnitsExist : Prop :=
  (∀ (c : Instr) (s : State), wf c = true → ∃ t, exec c s = .next t ∧ t.pending = s.pending) ∧
  (∀ (c : Instr) (s : State), wf c = false → exec c s = .fault .noSuchUnit)

/-- Which commands store bytes (R334): every other leaves each byte of every memory as it is. -/
def Obligations.MemoriesChangeOnlyByStores : Prop :=
  ∀ (c : Instr) (s t : State), storing c = false → exec c s = .next t → t.mem = s.mem

/-- The memories' canonical form (log entries 3 and 4; R334, R489): every step keeps it. -/
def Obligations.StepsKeepMemoriesCanonical : Prop :=
  ∀ s t : State, s.mem.wf = true → step s = .next t → t.mem.wf = true

/-- R514 and the Default columns: after reset the memories are canonical, nothing waits, and a register field that no command has written reads as its
default. -/
def Obligations.ResetMemoriesAreCanonical : Prop :=
  State.reset.safe = true ∧ State.reset.pending = [] ∧ ∀ f i, State.reset.dev.rd f i = f.dfltAt i

/-- R15, R17, R18, R19, R20: what a 32-bit or 64-bit host write leaves in each field of the register it hits, by the field's access code and update class.
R11, R13, R21: a write of another width, or not aligned, changes nothing but the refusal record. -/
def Obligations.RegisterWritesActByAccessClassAndWidth : Prop :=
  (∀ (s : State) (a n o : Nat) (v : Word) (r : RegAt) (p : Part) (x : Fld × Nat × Nat),
    s.dev.hostReady = true → regHit a = some (r, o) → a % n = 0 →
    (n = 4 ∧ r.card.width = 32 ∧ o = 0 ∧ p = .whole ∨ n = 4 ∧ r.card.width = 64 ∧ o = 0 ∧ p = .low ∨
      n = 4 ∧ r.card.width = 64 ∧ o = 4 ∧ p = .high ∨ n = 8 ∧ r.card.width = 64 ∧ o = 0 ∧ p = .whole) →
    r.card.reg ∉ ownWrite → x ∈ r.parts → (r.parts.map (fun y => (y.1, y.2.1))).Nodup → x.1 ∉ notedFields →
    Acts (.registerWrite a n v) s (fun e => e.rd x.1 x.2.1 =
      x.1.written (s.dev.regRunning r && !s.dev.on .FC_STATE_SAFE 0) (s.dev.rd x.1 x.2.1)
        (bits (p.onto (s.dev.regWord r) (v.toNat % 2 ^ (8 * n))) x.2.2 x.1.spec.width)
        (bits (p.onto 0 (v.toNat % 2 ^ (8 * n))) x.2.2 x.1.spec.width) (s.dev.justSet x.1 x.2.1))) ∧
  (∀ (s : State) (a n : Nat) (v : Word), s.dev.hostReady = true → 1 ≤ n → n ≤ 8 → ¬(n = 4 ∧ a % 4 = 0) → ¬(n = 8 ∧ a % 8 = 0) →
    Acts (.registerWrite a n v) s (fun e => e =
      if (List.range n).any (fun k => s.dev.responds (a + k) && (regHit (a + k)).isSome) then s.dev.reached.refuse 1 a else s.dev.reached))

/-- R13, R14: a 32-bit read of a low half latches the high half, which the next read of the high half returns; without a latch it reads the live half; a
64-bit read is atomic and ends the latch; a narrower read returns the addressed bytes and touches no latch. R288, R334: an access through the window
reads or writes pattern memory at the window base plus the offset; in LOCAL mode and outside it reads zero and writes nothing. R287, R468, by log
entry 98 at offset 2^27 and beyond: page g shows the counts and snapshots of group g's counters, 0 for any other, and a write to its 0xFF00 takes its
snapshot. -/
def Obligations.HalfReadsLatchAndWindowAccessesReachMemory : Prop :=
  ((∀ (s : State) (a : Nat) (r : RegAt), s.dev.hostReady = true → a < 2 ^ 28 → a % 4 = 0 → s.dev.responds a = true →
    regHit a = some (r, 0) → r.card.width = 64 → r.card.reg ≠ .TL_SAMPLE_HI →
    Acts (.lowHalfRead a) s (fun e => e.readData = bytesOf 4 (s.dev.reached.regValue r % 2 ^ 32) ∧ e.poisoned = false ∧
      tget (fun _ => 0) e.latch r.latchKey = s.dev.reached.regValue r / 2 ^ 32 + 1 ∧
      (∀ k, k ≠ r.latchKey → tget (fun _ => 0) e.latch k = tget (fun _ => 0) s.dev.latch k) ∧ s.dev.keepsBut e [])) ∧
  (∀ (s : State) (a h : Nat) (r : RegAt), s.dev.hostReady = true → a % 4 = 0 → s.dev.responds a = true → regHit a = some (r, 4) →
    r.card.width = 64 → r.card.reg ≠ .TL_SAMPLE_HI → tget (fun _ => 0) s.dev.latch r.latchKey = h + 1 →
    Acts (.highHalfRead a) s (fun e => e.readData = bytesOf 4 h ∧ e.poisoned = false ∧ tget (fun _ => 0) e.latch r.latchKey = 0 ∧
      (∀ k, k ≠ r.latchKey → tget (fun _ => 0) e.latch k = tget (fun _ => 0) s.dev.latch k) ∧ s.dev.keepsBut e [])) ∧
  (∀ (s : State) (a : Nat) (r : RegAt), s.dev.hostReady = true → a % 4 = 0 → s.dev.responds a = true → regHit a = some (r, 4) →
    r.card.width = 64 → r.card.reg ≠ .TL_SAMPLE_HI → tget (fun _ => 0) s.dev.latch r.latchKey = 0 →
    Acts (.highHalfRead a) s (fun e => e.readData = bytesOf 4 (s.dev.reached.regValue r / 2 ^ 32) ∧ e.poisoned = false ∧
      e.latch = s.dev.latch ∧ s.dev.keepsBut e [])) ∧
  (∀ (s : State) (a : Nat) (r : RegAt), s.dev.hostReady = true → a < 2 ^ 28 → a % 8 = 0 → s.dev.responds a = true →
    regHit a = some (r, 0) → r.card.width = 64 → r.card.reg ≠ .TL_SAMPLE_HI →
    Acts (.lowHalfRead (8 * 2 ^ 28 + a)) s (fun e => e.readData = bytesOf 8 (s.dev.reached.regValue r) ∧
      tget (fun _ => 0) e.latch r.latchKey = 0 ∧
      (∀ k, k ≠ r.latchKey → tget (fun _ => 0) e.latch k = tget (fun _ => 0) s.dev.latch k) ∧ s.dev.keepsBut e [])) ∧
  (∀ (s : State) (a n o : Nat) (r : RegAt), s.dev.hostReady = true → a < 2 ^ 28 → ((n = 1 ∨ n = 2) ∧ a % n = 0 ∨ n = 3 ∧ a % 4 ≤ 1) →
    s.dev.responds a = true → regHit a = some (r, o) → r.card.reg ≠ .TL_SAMPLE_HI →
    Acts (.lowHalfRead (n * 2 ^ 28 + a)) s (fun e => e.readData = bytesOf n (bits (s.dev.reached.regValue r) (8 * o) (8 * n)) ∧
      e.latch = s.dev.latch ∧ s.dev.keepsBut e []))) ∧
  ((∀ (s : State) (off : Nat) (bs : List Byte), s.dev.hostReady = true → winAccess off bs.length = true → s.dev.localMode = false →
    s.dev.hbmOk (s.dev.rd .RG_WIN_BASE_ADDR 0 * 2 ^ 20 + off) bs.length = true →
    Writes (.hbmWindowAccess off 0 (some bs)) s (fun m e =>
      m = { s.mem with hbm := writeMem byte0 s.mem.hbm (s.dev.rd .RG_WIN_BASE_ADDR 0 * 2 ^ 20 + off) bs } ∧ s.dev.keepsBut e [])) ∧
  (∀ (s : State) (off len : Nat), s.dev.hostReady = true → winAccess off len = true → s.dev.localMode = false →
    s.dev.hbmOk (s.dev.rd .RG_WIN_BASE_ADDR 0 * 2 ^ 20 + off) len = true →
    Acts (.hbmWindowAccess off len none) s (fun e =>
      e.readData = readMem byte0 s.mem.hbm (s.dev.rd .RG_WIN_BASE_ADDR 0 * 2 ^ 20 + off) len ∧ s.dev.keepsBut e [])) ∧
  (∀ (s : State) (off len : Nat) (data : Option (List Byte)), s.dev.hostReady = true → off < 2 ^ 27 →
    (s.dev.localMode = true ∨ winAccess off ((data.map List.length).getD len) = false) →
    Acts (.hbmWindowAccess off len data) s (fun e => s.dev.keepsBut e [] ∧ (data = none → e.readData = bytesOf len 0))) ∧
  (∀ (s : State) (g i : Nat), s.dev.hostReady = true → g < 256 → i < 512 →
    Acts (.hbmWindowAccess (2 ^ 27 + g * 65536 + 8 * i) 8 none) s (fun e => s.dev.keepsBut e [] ∧
      e.readData = bytesOf 8 (if i % 256 < 64 ∧ s.dev.rd .TL_CFG_GROUP (i % 256) = g then
        (if i < 256 then s.dev.rd .TL_CNT_COUNT i else s.dev.rd .TL_SNAP_COUNT (i - 256)) else 0))) ∧
  (∀ (s : State) (g : Nat) (bs : List Byte), s.dev.hostReady = true → g < 256 → (bs.length = 4 ∨ bs.length = 8) →
    Acts (.hbmWindowAccess (2 ^ 27 + g * 65536 + 0xFF00) 0 (some bs)) s (fun e =>
      (∀ i, i < 64 → e.rd .TL_SNAP_COUNT i = if s.dev.rd .TL_CFG_GROUP i = g then s.dev.rd .TL_CNT_COUNT i % 2 ^ 48 else s.dev.rd .TL_SNAP_COUNT i) ∧
      s.dev.keepsFields e [.TL_SNAP_COUNT])) ∧
  (∀ (s : State) (off len : Nat), s.dev.hostReady = true → 2 ^ 27 + 2 ^ 24 ≤ off →
    Acts (.hbmWindowAccess off len none) s (fun e => e.readData = bytesOf len 0 ∧ s.dev.keepsBut e [])))

/-- R19, R188: SITE_COMMIT moves the pending COND group of a site that is not running; otherwise nothing changes. R19, R171, R172, R264: the DESKEW group
of a pin and the tone group of a channel move when they are pending and the unit is not running. -/
def Obligations.SiteAndPinCommitsMoveTheirGroups : Prop :=
  ((∀ (s : State) (n : Nat) (v : Word), n < 64 → s.dev.hostReady = true → s.dev.siteRunning n = false → bitAt v.toNat 0 = true →
    (s.dev.site n).condPend = true →
    Acts (.siteCommit n v) s (fun e =>
      (∀ c, c < 32 → e.act .SITE_CSRC_SRC (n * 32 + c) = s.dev.rd .SITE_CSRC_SRC (n * 32 + c)) ∧
      e.act .SITE_SPAN_CMASK_CMASK n = s.dev.rd .SITE_SPAN_CMASK_CMASK n ∧ (e.site n).condPend = false ∧
      (∀ f i, (f ≠ .SITE_CSRC_SRC ∨ i / 32 ≠ n) → (f ≠ .SITE_SPAN_CMASK_CMASK ∨ i ≠ n) → e.act f i = s.dev.act f i) ∧ s.dev.keepsBut e [])) ∧
  (∀ (s : State) (n : Nat) (v : Word), n < 64 → s.dev.hostReady = true →
    (s.dev.siteRunning n = true ∨ bitAt v.toNat 0 = false ∨ (s.dev.site n).condPend = false) →
    Acts (.siteCommit n v) s (fun e => e = s.dev.reached))) ∧
  ((∀ (s : State) (p : Nat) (v : Word), p < 256 → s.dev.hostReady = true →
    Acts (.pinTfCommit p v) s (fun e =>
      if s.dev.pinRunning p = false ∧ bitAt v.toNat 0 = true ∧ s.dev.on .PIN_TF_STATUS_DESKEW_PENDING p = true then
        (∀ f, f ∈ deskewFields → e.act f p = s.dev.rd f p) ∧ e.on .PIN_TF_STATUS_DESKEW_PENDING p = false ∧
        (∀ f i, (f ∉ deskewFields ∨ i ≠ p) → e.act f i = s.dev.act f i) ∧ s.dev.keepsBut e [(.PIN_TF_STATUS_DESKEW_PENDING, p)]
      else e = s.dev.reached)) ∧
  (∀ (s : State) (w : Nat) (v : Word), w < 8 → s.dev.hostReady = true →
    Acts (.wvCommit w v) s (fun e =>
      if s.dev.wvRunning w = false ∧ bitAt v.toNat 0 = true ∧ s.dev.on .WV_STATUS_TONE_PENDING w = true then
        (∀ f, f ∈ toneFields → e.act f w = s.dev.rd f w) ∧ e.on .WV_STATUS_TONE_PENDING w = false ∧
        (∀ f i, (f ∉ toneFields ∨ i ≠ w) → e.act f i = s.dev.act f i) ∧ s.dev.keepsBut e [(.WV_STATUS_TONE_PENDING, w)]
      else e = s.dev.reached)))

/-- R19, R171, R172, R173: PIN_TS_COMMIT moves each named pending set that meets its checks, rejects the others by name, and does nothing while the site
runs. -/
def Obligations.TimingSetCommitMovesCheckedSets : Prop :=
  (∀ (s : State) (p : Nat) (v : Word), p < 256 → s.dev.hostReady = true → s.dev.pinRunning p = false →
    Acts (.pinTsCommit p v) s (fun e =>
      (∀ k, k < 32 → bitAt v.toNat k = true → s.dev.tsPending p k = true → s.dev.tsCheck p k = 0 →
        (∀ f, f ∈ tsFields → e.act f (tsKey p k) = s.dev.rd f (tsKey p k)) ∧ e.tsPending p k = false) ∧
      (∀ k, k < 32 → bitAt v.toNat k = true → s.dev.tsPending p k = true → s.dev.tsCheck p k ≠ 0 →
        (∀ f, e.act f (tsKey p k) = s.dev.act f (tsKey p k)) ∧ e.tsPending p k = false ∧ e.on .PIN_TS_REJECT_VALID p = true) ∧
      (∀ k, k < 32 → bitAt v.toNat k = false → (∀ f, e.act f (tsKey p k) = s.dev.act f (tsKey p k)) ∧ e.tsPending p k = s.dev.tsPending p k) ∧
      s.dev.keepsBut e [(.PIN_TS_PENDING_SET, p), (.PIN_TS_REJECT_VALID, p), (.PIN_TS_REJECT_MORE, p), (.PIN_TS_REJECT_REASON, p),
        (.PIN_TS_REJECT_SET, p)])) ∧
  (∀ (s : State) (p : Nat) (v : Word), p < 256 → s.dev.hostReady = true → s.dev.pinRunning p = true →
    Acts (.pinTsCommit p v) s (fun e => e = s.dev.reached))

/-- R20, R43, R44, R45, R49: a written mask takes the pins that no other site holds and notes the others; a running site refuses. R218: CLEAR discards the
site's records and counts; a running site refuses. -/
def Obligations.MemberAndFailStoreWritesAct : Prop :=
  ((∀ (s : State) (n k : Nat) (part : Part) (v : Word), n < 64 → k < 4 → s.dev.hostReady = true → s.dev.siteRunning n = false →
    part.onto (s.dev.rd .SITE_MEMBER_MASK (n * 4 + k)) v.toNat ≠ s.dev.rd .SITE_MEMBER_MASK (n * 4 + k) →
    let old := s.dev.rd .SITE_MEMBER_MASK (n * 4 + k)
    let new := part.onto old v.toNat
    let held := fun j => !bitAt old j && bitAt new j && (List.range 64).any (fun m => m != n && bitAt (s.dev.rd .SITE_MEMBER_MASK (m * 4 + k)) j)
    Acts (.siteMemberWrite n k part v) s (fun e =>
      (∀ j, j < 64 → bitAt (e.rd .SITE_MEMBER_MASK (n * 4 + k)) j = (bitAt new j && !held j)) ∧
      e.siteState n = (if (List.range 4).all (fun k => e.rd .SITE_MEMBER_MASK (n * 4 + k) == 0) then
          (if s.dev.siteState n = SiteState.DOZE ∨ s.dev.siteState n = SiteState.IDLE then SiteState.EMPTY else s.dev.siteState n)
        else if s.dev.siteState n = SiteState.EMPTY then SiteState.IDLE else s.dev.siteState n) ∧
      (e.on .SITE_STATUS_CONFLICT n = true ↔ s.dev.on .SITE_STATUS_CONFLICT n = true ∨ ∃ j, j < 64 ∧ held j = true) ∧
      s.dev.keepsBut e [(.SITE_MEMBER_MASK, n * 4 + k), (.SITE_STATUS_STATE, n), (.SITE_STATUS_CONFLICT, n)])) ∧
  (∀ (s : State) (n k : Nat) (part : Part) (v : Word), n < 64 → k < 4 → s.dev.hostReady = true → s.dev.siteRunning n = true →
    s.dev.on .FC_STATE_SAFE 0 = false → part.onto (s.dev.rd .SITE_MEMBER_MASK (n * 4 + k)) v.toNat ≠ s.dev.rd .SITE_MEMBER_MASK (n * 4 + k) →
    Acts (.siteMemberWrite n k part v) s (fun e => e.on .DEV_REFUSED_VALID 0 = true ∧
      s.dev.keepsBut e [(.DEV_REFUSED_VALID, 0), (.DEV_REFUSED_MORE, 0), (.DEV_REFUSED_KIND, 0), (.DEV_REFUSED_ADDR, 0)]))) ∧
  ((∀ (s : State) (n : Nat) (v : Word), n < 64 → s.dev.hostReady = true → s.dev.siteRunning n = false → bitAt v.toNat 1 = true →
    Acts (.frSiteClear n v) s (fun e => (e.failSite n).store = [] ∧ (e.failSite n).spilled = 0 ∧ e.rd .FR_SITE_RECORDS_COUNT n = 0 ∧
      e.rd .FR_SITE_CAPTURED_COUNT n = 0 ∧ e.rd .FR_SITE_CTRL_SPILL_EN n = b2n (bitAt v.toNat 0) ∧
      (∀ m, m ≠ n → e.failSite m = s.dev.failSite m) ∧
      s.dev.keepsBut e [(.FR_SITE_RECORDS_COUNT, n), (.FR_SITE_CAPTURED_COUNT, n), (.FR_SITE_CTRL_SPILL_EN, n)])) ∧
  (∀ (s : State) (n : Nat) (v : Word), n < 64 → s.dev.hostReady = true → s.dev.siteRunning n = true → s.dev.on .FC_STATE_SAFE 0 = false →
    bitAt v.toNat 1 = true →
    Acts (.frSiteClear n v) s (fun e => e.on .DEV_REFUSED_VALID 0 = true ∧ (∀ m, e.failSite m = s.dev.failSite m) ∧
      s.dev.keepsBut e [(.DEV_REFUSED_VALID, 0), (.DEV_REFUSED_MORE, 0), (.DEV_REFUSED_KIND, 0), (.DEV_REFUSED_ADDR, 0)])))

/-- R65, R108: the members' buffers lose their contents and the site's sequencers their counters, stack and registers; every other byte stays. R49, R55:
the armed RUN ends with TIMEOUT, pins untouched. -/
def Obligations.DozeAndArmTimeoutReleaseTheSite : Prop :=
  (∀ (s : State) (n : Nat), n < 64 → s.dev.asleep = false → s.dev.siteState n = SiteState.IDLE → s.dev.on .SITE_CTRL_DOZE_EN n = true →
    (s.dev.site n).idleSince + us (s.dev.rd .SITE_DOZE_DELAY_US n) ≤ s.dev.now →
    Writes (.dozeEntry n) s (fun m e =>
      m = { s.mem with vlb := s.mem.vlb.filter (fun c => !(s.dev.members n).contains (c.1 / 131072)) } ∧
      e.siteState n = SiteState.DOZE ∧ (∀ p, p ∈ s.dev.members n → (e.pin p).lines = [] ∧ (e.pin p).fifo = []) ∧
      (∀ p, p ∉ s.dev.members n → e.pin p = s.dev.pin p) ∧
      (∀ l, l ∈ s.dev.siteLanes n → (e.lane l).stack = [] ∧ (e.lane l).act = 0 ∧ (e.lane l).phase = .stopped) ∧
      (∀ l, l ∉ s.dev.siteLanes n → e.lane l = s.dev.lane l) ∧ s.dev.keepsBut e [(.SITE_STATUS_STATE, n)])) ∧
  (∀ (s : State) (n : Nat) (x : Entry), n < 64 → s.dev.siteState n = SiteState.ARMED → (s.dev.site n).early = none → s.dev.rd .SITE_ARM_TIMEOUT_MS n ≠ 0 →
    (s.dev.site n).armedAt + ms (s.dev.rd .SITE_ARM_TIMEOUT_MS n) ≤ s.dev.now → (s.dev.site n).run = some x.id →
    s.dev.entry? x.id = some x → x.done = false →
    Acts (.armTimeout n) s (fun e =>
      e.siteState n = SiteState.IDLE ∧ e.on .SITE_STATUS_ARM_TIMEOUT n = true ∧ e.decided x.id Status.TIMEOUT ∧ s.dev.entriesBut e x.id ∧
      e.raised = s.dev.raised ++ [⟨0x1C5, n, 0, s.dev.cycle⟩] ∧ (∀ m, m ≠ n → e.site m = s.dev.site m) ∧
      (∀ p, (e.pin p).placed = (s.dev.pin p).placed ∧ (e.pin p).trans = (s.dev.pin p).trans ∧ (e.pin p).dd = (s.dev.pin p).dd ∧
        (e.pin p).de = (s.dev.pin p).de) ∧
      (∀ m, m ≠ n → e.siteState m = s.dev.siteState m ∧ e.on .SITE_STATUS_ARM_TIMEOUT m = s.dev.on .SITE_STATUS_ARM_TIMEOUT m) ∧
      s.dev.keepsFields e [.SITE_STATUS_STATE, .SITE_STATUS_ARM_TIMEOUT, .PIN_TF_STATUS_BAND, .PIN_TF_STATUS_TRIM_PENDING]))

/-- R49, R100, R317, R418: a RUN that reaches the Site Fabric is refused by an EMPTY site and judged at once by one that is IDLE or DOZE; it waits for any
other and for a microcode load, and a unit that is down is judged a cycle later, behind a load that reaches in this one. R49, R57, R102, R103, R218,
R303: PREPARING with the program at its word 0, the conditions at 0; a bad address ends the RUN instead, and so does what stands against it by then. -/
def Obligations.RunsWaitAreRefusedOrPrepare : Prop :=
  (∀ (s : State) (id : Nat) (x : Entry), s.dev.open? id 0x21 = some x →
    let n := descTarget x.desc
    let st := s.dev.siteState n
    let now_ := (st = SiteState.IDLE ∨ st = SiteState.DOZE) ∧ s.dev.cs.load = none
    Acts (.run id) s (fun e => s.dev.keepsBut e [] ∧ s.dev.entriesBut e id ∧ e.sites = s.dev.sites ∧
      (st = SiteState.EMPTY → e.decided id Status.INVALID) ∧
      (∀ v, now_ → s.dev.runStatus n x = some v → v ≠ Status.UNIT_DOWN → e.decided id v) ∧
      (st ≠ SiteState.EMPTY → (now_ → s.dev.runStatus n x = none ∨ s.dev.runStatus n x = some Status.UNIT_DOWN) →
        e.entry? id = some { x with begun := true, reach := s.dev.cycle + 1 }))) ∧
  ((∀ (s : State) (n v : Nat) (x : Entry), n < 64 → (s.dev.siteState n = SiteState.IDLE ∨ s.dev.siteState n = SiteState.DOZE) →
    s.dev.nextRun n = some x → descOp x.desc = 0x21 → s.dev.runStatus n x = some v → s.dev.entry? x.id = some x →
    Acts (.preparingEntry n) s (fun e => e.decided x.id v ∧ e.sites = s.dev.sites ∧ s.dev.entriesBut e x.id ∧ s.dev.keepsBut e [])) ∧
  (∀ (s : State) (n : Nat) (x : Entry), n < 64 → (s.dev.siteState n = SiteState.IDLE ∨ s.dev.siteState n = SiteState.DOZE) →
    s.dev.nextRun n = some x → descOp x.desc = 0x21 → s.dev.runStatus n x = none →
    s.dev.entry? x.id = some x →
    Acts (.preparingEntry n) s (fun e =>
      (Dev.prepBad s.mem s.dev n x = false → e.siteState n = SiteState.PREPARING ∧ (e.site n).run = some x.id ∧ (e.site n).start = none ∧
        e.entry? x.id = some { x with begun := true, started := true } ∧ (e.lane n).phase = .ready ∧ (e.lane n).waddr = 0 ∧
        (e.lane n).base = descField x.desc 8 0 64 ∧ (e.lane n).len = descField x.desc 16 0 32 ∧
        (e.lane n).upc = (if s.dev.native n then none else some 0) ∧
        (∀ p, p ∈ s.dev.members n → (e.pin p).fifo = [] ∧ (e.pin p).pos = {}) ∧
        s.dev.keepsBut e [(.SITE_STATUS_STATE, n), (.SITE_COND_C, n), (.FR_SITE_RECORDS_COUNT, n),
          (.FR_SITE_CAPTURED_COUNT, n), (.FR_SITE_DROPPED_BLOCKS, n), (.FR_SITE_DROPPED_RECORDS, n), (.MC_CTRL_OPPOINT, 0),
          (.MC_STATUS_OP_PENDING, 0)]) ∧
      (Dev.prepBad s.mem s.dev n x = true → e.siteState n = SiteState.IDLE ∧ e.decided x.id Status.INVALID ∧
        s.dev.keepsFields e [.SITE_STATUS_STATE, .SITE_COND_C, .FR_SITE_RECORDS_COUNT, .FR_SITE_CAPTURED_COUNT, .FR_SITE_DROPPED_BLOCKS,
          .FR_SITE_DROPPED_RECORDS, .MC_CTRL_OPPOINT, .MC_STATUS_OP_PENDING, .PIN_TF_STATUS_BAND, .PIN_TF_STATUS_TRIM_PENDING]) ∧
      e.rd .SITE_COND_C n = 0 ∧ e.rd .FR_SITE_RECORDS_COUNT n = 0 ∧ e.rd .FR_SITE_DROPPED_RECORDS n = 0 ∧ s.dev.entriesBut e x.id ∧
      (∀ m, m ≠ n → e.site m = s.dev.site m))))

/-- R53, R54, R62, R63, R103: a prepared site starts 200 ns from now, waits for its time, its edge or its span, or is too late. -/
def Obligations.PreparedSiteStartsOrWaits : Prop :=
  ∀ (s : State) (n : Nat) (x : Entry), n < 64 → s.dev.siteState n = SiteState.PREPARING → (s.dev.site n).run = some x.id →
    s.dev.entry? x.id = some x → x.done = false → (s.dev.site n).early = none → (s.dev.site n).start = none → (s.dev.members n).all s.dev.pinPrepared = true →
    (s.dev.siteLanes n).all s.dev.homeLoaded = true → s.dev.awake n = true → s.dev.badHeads (s.dev.members n) = [] →
    let mode := descField x.desc 20 0 2
    let t := s.dev.startTime (descField x.desc 24 0 64)
    let late := decide (t < s.dev.bed + ns 200)
    let lead := s.dev.rd .SITE_CTRL_SPAN_ROLE n == 1
    let named := descField x.desc 20 2 1 == 1
    Acts (.preparationComplete n) s (fun e =>
      (mode = 0 → e.siteState n = SiteState.PREPARING ∧ (e.site n).start = some s.dev.soonest) ∧
      (mode = 1 → late = false → e.siteState n = SiteState.ARMED ∧ (e.site n).start = some t) ∧
      ((mode = 1 ∨ mode = 3 ∧ lead = true ∧ named = true) → late = true →
        e.siteState n = SiteState.IDLE ∧ e.decided x.id Status.LATE_START) ∧
      ((mode = 2 ∨ mode = 3 ∧ lead = false) → e.siteState n = SiteState.ARMED ∧ (e.site n).start = none ∧ (e.site n).armedAt = s.dev.now) ∧
      (mode = 3 → lead = true → (named = false ∨ late = false) → e.siteState n = SiteState.ARMED ∧
        (e.site n).start = some ((if named then t else s.dev.soonest) + ns (s.dev.rd .SITE_SPAN_LAT_LAT n))) ∧
      (∀ m, m ≠ n → e.site m = s.dev.site m) ∧
      s.dev.keepsFields e [.SITE_STATUS_STATE, .RN_PORT_COUNT_FWD, .PIN_TF_STATUS_BAND, .PIN_TF_STATUS_TRIM_PENDING] ∧
      (∀ m, m ≠ n → e.siteState m = s.dev.siteState m))

/-- R19, R188, R189, R190: what is pending on the members and on the site moves, where nothing was staged in this engine cycle. R48, R57, R120, R197,
R223: vector 0 begins, counts are 0, the RUN has touched pins. -/
def Obligations.SiteStartsAtVectorZeroAfterItsSeam : Prop :=
  (∀ (s : State) (n t : Nat), n < 64 → (s.dev.siteState n = SiteState.PREPARING ∨ s.dev.siteState n = SiteState.ARMED) →
    (s.dev.site n).early = none → (s.dev.site n).start = some t → (s.dev.site n).startSeam = false → t ≤ s.dev.bed + ns 100 →
    s.dev.cycNow.staged = [] →
    Acts (.burstStartSeam n) s (fun e =>
      (e.site n).startSeam = true ∧ (e.site n).condPend = false ∧
      ((s.dev.site n).condPend = true → ∀ c, c < 32 → e.act .SITE_CSRC_SRC (n * 32 + c) = s.dev.rd .SITE_CSRC_SRC (n * 32 + c)) ∧
      (∀ p, p ∈ s.dev.members n → s.dev.on .PIN_TF_STATUS_DESKEW_PENDING p = true →
        (∀ f, f ∈ deskewFields → e.act f p = s.dev.rd f p) ∧ e.on .PIN_TF_STATUS_DESKEW_PENDING p = false) ∧
      (∀ p k, p ∈ s.dev.members n → k < 32 → s.dev.tsPending p k = true → s.dev.loadingSets p k = false → s.dev.tsCheck p k = 0 →
        (∀ f, f ∈ tsFields → e.act f (tsKey p k) = s.dev.rd f (tsKey p k)) ∧ e.tsPending p k = false) ∧
      (∀ p b, p ∈ s.dev.members n → (s.dev.pin p).trimBand = some b → (e.pin p).trimBand = none ∧ e.on .PIN_TF_STATUS_TRIM_PENDING p = false) ∧
      s.dev.keepsFields e [.PIN_TS_PENDING_SET, .PIN_TS_REJECT_VALID, .PIN_TS_REJECT_MORE, .PIN_TS_REJECT_REASON, .PIN_TS_REJECT_SET,
        .PIN_TF_STATUS_DESKEW_PENDING, .PIN_TF_STATUS_TRIM_PENDING, .PIN_TF_STATUS_BAND, .SITE_STATUS_STALE_ACTIVE])) ∧
  (∀ (s : State) (n t : Nat) (x : Entry), n < 64 → (s.dev.siteState n = SiteState.PREPARING ∨ s.dev.siteState n = SiteState.ARMED) →
    (s.dev.site n).early = none → (s.dev.site n).start = some t → t ≤ s.dev.bed → s.dev.badHeads (s.dev.members n) = [] → (s.dev.site n).run = some x.id →
    s.dev.entry? x.id = some x → s.dev.cycNow.staged = [] →
    Acts (.siteStart n) s (fun e =>
      e.siteState n = SiteState.RUNNING ∧ e.rd .SITE_START_TIME_T n = t % 2 ^ 64 ∧ e.rd .SITE_VCOUNT_COUNT n = 0 ∧ e.rd .SITE_COND_C n = 0 ∧
      e.entry? x.id = some { x with begun := true, started := true, touched := true } ∧ s.dev.entriesBut e x.id ∧
      (∀ p, p ∈ s.dev.members n → e.rd .PIN_FAIL_COUNT_COUNT p = 0 ∧ e.on .PIN_FAIL_FIRST_VALID p = false ∧ e.rd .PIN_CMP_STATUS_LSTATE p = 0) ∧
      (∀ m, m ≠ n → e.site m = s.dev.site m ∧ e.siteState m = s.dev.siteState m ∧ e.rd .SITE_COND_C m = s.dev.rd .SITE_COND_C m)))

/-- R51, R52, R83, R328: a STOP in ABORT mode withdraws a RUN before vector 0 at the end of the engine cycle, drains a running site, and is done at once
elsewhere; from the start time on it finds the site running. R50, R51, R304: a STOP in PAUSE mode waits for the next seam; private programs and spans
refuse it whatever the site does. -/
def Obligations.StopWithdrawsDrainsOrPauses : Prop :=
  ((∀ (s : State) (id : Nat) (x : Entry), s.dev.stopOf id 0 = some x →
    let n := descTarget x.desc
    let st := s.dev.siteState n
    ((st = SiteState.PREPARING ∨ st = SiteState.ARMED) → ∀ t, (s.dev.site n).start = some t → s.dev.bed < t) →
    Acts (.stopAbort id) s (fun e =>
      ((st = SiteState.PREPARING ∨ st = SiteState.ARMED) → e.siteState n = st ∧ id ∈ (e.site n).stops ∧ s.dev.keepsBut e [] ∧
        e.entry? id = some { x with begun := true, started := true } ∧
        ((s.dev.site n).early = none → (e.site n).early = some (5, Status.WITHDRAWN)) ∧
        (∀ r v, (s.dev.site n).early = some (r, v) → r ≤ 5 → (e.site n).early = some (r, v))) ∧
      ((st = SiteState.RUNNING ∨ st = SiteState.PAUSED) → e.siteState n = SiteState.DRAINING ∧ (e.site n).cause = some (5, Status.ABORTED_PARTIAL) ∧
        e.entry? id = some { x with begun := true, started := true } ∧ id ∈ (e.site n).stops ∧
        (∀ l, l ∈ s.dev.siteLanes n → (0, s.dev.now) ∈ (e.lane l).irqs) ∧ (∀ p, p ∈ s.dev.members n → (e.pin p).fifo = []) ∧
        (∀ p, (e.pin p).placed = (s.dev.pin p).placed ∧ (e.pin p).trans = (s.dev.pin p).trans) ∧ s.dev.keepsBut e [(.SITE_STATUS_STATE, n)]) ∧
      (st = SiteState.DRAINING → e.siteState n = SiteState.DRAINING ∧ id ∈ (e.site n).stops ∧
        e.entry? id = some { x with begun := true, started := true } ∧ s.dev.keepsBut e []) ∧
      (st ≤ SiteState.DOZE → e.siteState n = st ∧ e.decided id Status.OK ∧ e.sites = s.dev.sites ∧ s.dev.keepsBut e []) ∧
      (∀ m, m ≠ n → e.site m = s.dev.site m ∧ e.siteState m = s.dev.siteState m) ∧
      s.dev.keepsFields e [.SITE_STATUS_STATE, .PIN_TF_STATUS_BAND, .PIN_TF_STATUS_TRIM_PENDING])) ∧
  (∀ (s : State) (id t : Nat) (x : Entry), s.dev.stopOf id 0 = some x → s.dev.cycNow.staged = [] →
    (s.dev.siteState (descTarget x.desc) = SiteState.PREPARING ∨ s.dev.siteState (descTarget x.desc) = SiteState.ARMED) →
    (s.dev.site (descTarget x.desc)).early = none → (s.dev.site (descTarget x.desc)).start = some t → t ≤ s.dev.bed → s.dev.badHeads (s.dev.members (descTarget x.desc)) = [] →
    Acts (.stopAbort id) s (fun e => e.siteState (descTarget x.desc) = SiteState.DRAINING ∧
      (e.site (descTarget x.desc)).cause = some (5, Status.ABORTED_PARTIAL) ∧ id ∈ (e.site (descTarget x.desc)).stops)) ∧
  (∀ (s : State) (n r v : Nat) (y : Entry), s.pending = [] → n < 64 → (∀ m, m < 64 → s.dev.spanHaltDue m s.dev.bed = false) →
    s.dev.sites.filter (fun x => x.2.early.isSome) = [(n, s.dev.site n)] → (s.dev.site n).early = some (r, v) →
    (s.dev.site n).run = some y.id → s.dev.entry? y.id = some y → y.done = false → y.id ∉ (s.dev.site n).stops →
    ∃ t, step s = .next t ∧ t.dev.siteState n = SiteState.IDLE ∧ (t.dev.site n).run = none ∧ t.dev.decided y.id v ∧
      (∀ z, z.id ∈ (s.dev.site n).stops → s.dev.entry? z.id = some z → z.done = false → t.dev.decided z.id Status.OK ∧
        ∀ w, t.dev.entry? z.id = some w → w.after = some y.id) ∧
      (∀ p, (t.dev.pin p).placed = (s.dev.pin p).placed ∧ (t.dev.pin p).trans = (s.dev.pin p).trans) ∧
      (∀ m, m ≠ n → t.dev.site m = s.dev.site m ∧ t.dev.siteState m = s.dev.siteState m))) ∧
  (∀ (s : State) (id : Nat) (x : Entry), s.dev.stopOf id 1 = some x →
    let n := descTarget x.desc
    let st := s.dev.siteState n
    let plain := s.dev.privatePins n = [] ∧ s.dev.inSpan n = false
    ((st = SiteState.PREPARING ∨ st = SiteState.ARMED) → ∀ t, (s.dev.site n).start = some t → s.dev.bed < t) →
    Acts (.stopPause id) s (fun e =>
      (st = SiteState.RUNNING → plain → e.siteState n = SiteState.RUNNING ∧
        (e.site n).pausePend = true ∧ id ∈ (e.site n).stops ∧ e.entry? id = some { x with begun := true, started := true }) ∧
      (st ≠ SiteState.PREPARING → st ≠ SiteState.ARMED → ¬plain → e.decided id Status.INVALID ∧ e.sites = s.dev.sites) ∧
      (st = SiteState.DRAINING → plain → id ∈ (e.site n).stops ∧ e.entry? id = some { x with begun := true, started := true }) ∧
      ((st = SiteState.PAUSED ∨ st ≤ SiteState.DOZE) → plain → e.decided id Status.OK ∧ e.sites = s.dev.sites) ∧
      ((st = SiteState.PREPARING ∨ st = SiteState.ARMED) → e.siteState n = st ∧ id ∈ (e.site n).stops ∧
        e.entry? id = some { x with begun := true, started := true } ∧
        ((s.dev.site n).early = none → (e.site n).early = some (5, Status.WITHDRAWN)) ∧
        (∀ r v, (s.dev.site n).early = some (r, v) → r ≤ 5 → (e.site n).early = some (r, v))) ∧
      (∀ m, m ≠ n → e.site m = s.dev.site m ∧ e.siteState m = s.dev.siteState m) ∧ s.dev.keepsBut e []))

/-- R50, R53, R303, R418: a RESUME of a paused site sets its start, another is decided at once. R50, R196: the paused site runs again from its start time,
the RESUME is done with that time as its RESULT. -/
def Obligations.ResumeRunsAPausedSiteAgain : Prop :=
  (∀ (s : State) (id : Nat) (x : Entry), s.dev.open? id 0x23 = some x → x.started = false → s.dev.behind x = false →
    (s.dev.members (descTarget x.desc)).all (fun p => !(s.dev.pin p).forced) = true →
    let n := descTarget x.desc
    let mode := descField x.desc 8 0 2
    let t := s.dev.startTime (descField x.desc 16 0 64)
    Acts (.resume id) s (fun e => s.dev.keepsBut e [] ∧ s.dev.entriesBut e id ∧ (∀ m, m ≠ n → e.site m = s.dev.site m) ∧
      ((s.dev.siteState n ≠ SiteState.PAUSED ∨ 2 ≤ mode) → e.decided id Status.INVALID) ∧
      (s.dev.siteState n = SiteState.PAUSED → mode < 2 → (s.dev.site n).resume = none →
        (s.dev.hot = true → e.decided id Status.UNIT_DOWN) ∧
        (s.dev.hot = false → mode = 1 → t < s.dev.bed + ns 200 → e.decided id Status.LATE_START) ∧
        (s.dev.hot = false → (mode = 0 ∨ s.dev.bed + ns 200 ≤ t) → e.entry? id = some { x with begun := true, started := true, touched := true } ∧
          (e.site n).resume = some id ∧ (e.site n).resumeAt = some (if mode = 1 then t else s.dev.soonest))))) ∧
  (∀ (s : State) (n t : Nat) (x : Entry), n < 64 → s.dev.siteState n = SiteState.PAUSED → (s.dev.site n).resumeAt = some t → t ≤ s.dev.bed →
    (s.dev.site n).resume = some x.id → s.dev.entry? x.id = some x → x.done = false →
    Acts (.resumeStart n) s (fun e =>
      e.siteState n = SiteState.RUNNING ∧ e.decided x.id Status.OK ∧ (∀ y, e.entry? x.id = some y → y.result = t % 2 ^ 64 * 2 ^ 64) ∧
      (e.site n).resumeAt = none ∧ (e.site n).resume = none ∧
      (∀ p, p ∈ s.dev.members n → (e.pin p).tNext = t ∧ (e.csq p).slots = [] ∧
        (e.pin p).fifo = (match (s.dev.pin p).fifo with | v :: r => { v with grid := none } :: r | [] => [])) ∧
      (∀ m, m ≠ n → e.site m = s.dev.site m) ∧ s.dev.entriesBut e x.id ∧ s.dev.keepsBut e [(.SITE_STATUS_STATE, n)]))

/-- R50, R136, R137, R138, R188: a boundary with a seam, at the head vectors or before an RDV hold, moves what is pending on the lane's pins; a pending
PAUSE stops the site there. -/
def Obligations.SeamAtBoundaryMovesGroupsOrPauses : Prop :=
  ∀ (s : State) (l n p k : Nat), l < 320 → s.dev.laneSite l = some n → s.dev.lanePin l = some p →
    s.dev.siteState n = SiteState.RUNNING → (s.dev.pin p).tNext ≤ s.dev.bed + ns 12 → s.dev.cycNow.staged = [] →
    let atHead := ∃ v, (s.dev.pin p).fifo.head? = some v ∧ v.grid = none ∧ v.seam = k ∧ k ≠ 0
    let atRest := ∃ t, (s.dev.lane l).rests = [(t, k)] ∧ t ≤ s.dev.bed + ns 12 ∧ (s.dev.lane l).seamNext = 0 ∧
      ∀ v, (s.dev.pin p).fifo.head? = some v → v.grid ≠ none
    atHead ∨ atRest →
    let asked := k = 2 ∨ s.dev.seamp n = true ∨ (l < 64 ∧ (s.dev.site n).pausePend = true)
    Acts (.seamAtBoundary l) s (fun e =>
      (∀ q w, atHead → q ∈ s.dev.lanePins l → (s.dev.pin q).fifo.head? = some w →
        (e.pin q).fifo = { w with seam := 0 } :: (s.dev.pin q).fifo.tail) ∧
      (atRest → (e.lane l).rests = [] ∧ ∀ q, (e.pin q).fifo = (s.dev.pin q).fifo) ∧
      (asked → e.on .SITE_STATUS_STALE_ACTIVE n = false ∧ (e.site n).seamClock = none ∧
        (l < 64 → (e.site n).condPend = false) ∧
        (∀ q, q ∈ s.dev.lanePins l → s.dev.on .PIN_TF_STATUS_DESKEW_PENDING q = true →
          (∀ f, f ∈ deskewFields → e.act f q = s.dev.rd f q) ∧ e.on .PIN_TF_STATUS_DESKEW_PENDING q = false) ∧
        (∀ q k, q ∈ s.dev.lanePins l → k < 32 → s.dev.tsPending q k = true → s.dev.loadingSets q k = false → s.dev.tsCheck q k = 0 →
          (∀ f, f ∈ tsFields → e.act f (tsKey q k) = s.dev.rd f (tsKey q k)) ∧ e.tsPending q k = false)) ∧
      (l < 64 → (s.dev.site n).pausePend = true → e.siteState n = SiteState.PAUSED ∧ (e.site n).pausePend = false ∧ (e.site n).stops = [] ∧
        (1, s.dev.now) ∈ (e.lane l).irqs ∧
        (∀ x, x.id ∈ (s.dev.site n).stops → s.dev.entry? x.id = some x → x.done = false → e.decided x.id Status.OK)) ∧
      ((64 ≤ l ∨ (s.dev.site n).pausePend = false) → e.siteState n = SiteState.RUNNING) ∧
      (¬asked → ∀ f i, e.act f i = s.dev.act f i) ∧
      s.dev.keepsFields e [.PIN_TS_PENDING_SET, .PIN_TS_REJECT_VALID, .PIN_TS_REJECT_MORE, .PIN_TS_REJECT_REASON, .PIN_TS_REJECT_SET,
        .PIN_TF_STATUS_DESKEW_PENDING, .PIN_TF_STATUS_TRIM_PENDING, .PIN_TF_STATUS_BAND, .PIN_TF_STATUS_SPACING, .PIN_TF_STATUS_SPACING_COUNT,
        .SITE_STATUS_STALE_ACTIVE, .SITE_STATUS_STATE])

/-- R48, R49, R52, R190, R222: when the drive has ended the site drains, its sequencers stop; a FAIL_STOP that is due stops it as well. R49, R108, R222,
R304, R307, R328: a drained site with nothing left to judge or store completes its RUN, then its STOPs, and is IDLE. -/
def Obligations.BurstEndDrainsAndCompletesTheRun : Prop :=
  ((∀ (s : State) (n p : Nat), n < 64 → s.dev.siteState n = SiteState.RUNNING → s.dev.failStopDue n s.dev.bed = false →
    s.dev.lanePin n = some p → s.dev.programEnded n = true → (s.dev.lane n).seamNext = 0 → (s.dev.lane n).rests = [] → s.dev.cycNow.staged = [] →
    Acts (.burstEnd n) s (fun e => e.siteState n = SiteState.DRAINING ∧ (e.site n).ended = true ∧ (e.site n).endAt = some (s.dev.pin p).tNext ∧
      (∀ l, l ∈ s.dev.siteLanes n → (s.dev.lane l).upc = none → (e.lane l).phase = .stopped) ∧
      (∀ l, l ∈ s.dev.siteLanes n → (s.dev.lane l).upc ≠ none → (s.dev.lane l).hand = some 0 → e.lane l = s.dev.lane l) ∧ (e.site n).condPend = false ∧
      (∀ m, m ≠ n → e.site m = s.dev.site m ∧ e.siteState m = s.dev.siteState m) ∧ e.tracker = s.dev.tracker)) ∧
  (∀ (s : State) (n t : Nat), n < 64 → s.dev.siteState n = SiteState.DRAINING → (s.dev.site n).ended = false → (s.dev.site n).endAt = some t →
    t ≤ s.dev.bed → s.dev.cycNow.staged = [] →
    Acts (.burstEnd n) s (fun e => e.siteState n = SiteState.DRAINING ∧ (e.site n).ended = true ∧ (e.site n).endAt = some t ∧
      (∀ l, l ∈ s.dev.siteLanes n → (s.dev.lane l).upc = none → (e.lane l).phase = .stopped) ∧
      (∀ l, l ∈ s.dev.siteLanes n → (s.dev.lane l).upc ≠ none → (s.dev.lane l).hand = some 0 → e.lane l = s.dev.lane l) ∧ e.tracker = s.dev.tracker)) ∧
  (∀ (s : State) (n : Nat), n < 64 → (s.dev.siteState n = SiteState.RUNNING ∨ s.dev.siteState n = SiteState.PAUSED) →
    s.dev.failStopDue n s.dev.bed = true →
    Acts (.burstEnd n) s (fun e => e.siteState n = SiteState.DRAINING ∧ (e.site n).cause = some (2, Status.FAIL_STOP) ∧
      e.tracker = s.dev.tracker ∧ s.dev.keepsBut e [(.SITE_STATUS_STATE, n)]))) ∧
  (∀ (s : State) (n : Nat) (x : Entry), n < 64 → s.dev.siteState n = SiteState.DRAINING → (s.dev.site n).ended = true →
    (∀ p, p ∈ s.dev.members n → (s.dev.csq p).exps = [] ∧ (s.dev.csq p).search = none ∧ (s.dev.csq p).cap = none ∧
      (s.dev.csq p).endNow = false) →
    s.dev.queuesEmpty n = true → (s.dev.failSite n).run = none → (s.dev.site n).run = some x.id → s.dev.entry? x.id = some x → x.done = false →
    x.id ∉ (s.dev.site n).stops → (s.dev.site n).resume = none →
    Acts (.drainEnd n) s (fun e => e.siteState n = SiteState.IDLE ∧ (e.site n).run = none ∧ (e.site n).idleSince = s.dev.now ∧
      e.decided x.id (match (s.dev.site n).cause with
        | some c => c.2
        | none => if (s.dev.site n).failStop.isSome then Status.FAIL_STOP else Status.OK) ∧
      (∀ l, l ∈ s.dev.siteLanes n → (e.lane l).stack = [] ∧ (e.lane l).act = 0) ∧
      (∀ y, e.entry? x.id = some y → y.reported = true ∧ y.result = s.dev.runResult n) ∧
      (∀ y, y.id ∈ (s.dev.site n).stops → s.dev.entry? y.id = some y → y.done = false → e.decided y.id Status.OK ∧
        ∀ z, e.entry? y.id = some z → z.after = some x.id) ∧
      (∀ m, m ≠ n → e.site m = s.dev.site m ∧ e.siteState m = s.dev.siteState m) ∧
      s.dev.keepsFields e [.SITE_STATUS_STATE, .PIN_DSQ_STATUS_PARTIAL, .PIN_TF_STATUS_BAND, .PIN_TF_STATUS_TRIM_PENDING]))

/-- R109, R119, R120, R169, R194: each pin of the lane drives the vector at the head of its FIFO; the next begins a period later. R67, R68, R69, R163 to
R165, R167: a vector whose data is missing at its boundary, behind an RDV the grid point, is repeated where the word and the site allow it; elsewhere
the site halts, with this status unless another program has a cause of lower rank at the same boundary. -/
def Obligations.VectorsAreDrivenStretchedOrHalted : Prop :=
  (∀ (s : State) (l n p : Nat) (v : Vec), l < 320 → s.dev.laneSite l = some n → s.dev.lanePin l = some p →
    s.dev.siteState n = SiteState.RUNNING → (s.dev.pin p).tNext ≤ s.dev.bed + ns 12 → s.dev.endedBy n l (s.dev.pin p).tNext = false →
    s.dev.failStopDue n ((s.dev.pin p).tNext - ns 12) = false → s.dev.spanHaltDue n ((s.dev.pin p).tNext - ns 12) = false →
    (s.dev.pin p).fifo.head? = some v → v.seam = 0 → v.grid = none →
    v.enter / cycleTicks ≤ ((s.dev.pin p).tNext - ns 12) / cycleTicks → s.dev.badHeads (s.dev.lanePins l) = [] →
    (∀ q, q ∈ s.dev.lanePins l → (s.dev.pin q).fifo ≠ []) →
    Acts (.vectorLaunch l) s (fun e =>
      (∀ q w r, q ∈ s.dev.lanePins l → (s.dev.pin q).fifo = w :: r →
        (e.pin q).tNext = (s.dev.pin q).tNext + s.dev.period q w.tset ∧ r <+: (e.pin q).fifo ∧ (e.pin q).prev = some w ∧
        (e.pin q).vcount = (s.dev.pin q).vcount + 1 ∧
        (e.csq q).exps = (s.dev.csq q).exps ++ (if (s.dev.csq q).dead then [] else [s.dev.expOf q w (s.dev.csq q).slotNo (s.dev.pin q).vcount])) ∧
      e.rd .SITE_VCOUNT_COUNT n = (if l < 64 then (s.dev.rd .SITE_VCOUNT_COUNT n + 1) % 2 ^ 48 else s.dev.rd .SITE_VCOUNT_COUNT n) ∧
      e.siteState n = SiteState.RUNNING ∧ e.tracker = s.dev.tracker ∧
      s.dev.keepsFields e [.SITE_VCOUNT_COUNT, .SITE_STATUS_STRETCHED, .PIN_TF_STATUS_SPACING, .PIN_TF_STATUS_SPACING_COUNT,
        .PIN_STREAM_STATUS_BADCODE, .RN_PORT_COUNT_FWD])) ∧
  (∀ (s : State) (l n p q : Nat) (r : List Nat), l < 320 → s.dev.laneSite l = some n → s.dev.lanePin l = some p →
    let T := s.dev.nextAt l p
    s.dev.siteState n = SiteState.RUNNING → T ≤ s.dev.bed + ns 12 → s.dev.endedBy n l T = false →
    s.dev.failStopDue n (T - ns 12) = false → s.dev.spanHaltDue n (T - ns 12) = false →
    ((Dev.feed s.mem s.dev l s.dev.bed).pin p).fifo = [] → (s.dev.pin p).fifo = [] → (s.dev.lane l).fault = none → (s.dev.lane l).phase = .emit →
    (s.dev.lane l).kind ≠ .k → (s.dev.lane l).kind ≠ .idle → Dev.missing s.mem s.dev l = q :: r →
    let w := Dev.curWord s.mem s.dev l
    let may : Bool := decide (l < 64) && s.dev.on .SITE_CTRL_UNDERRUN_POL n && wStretch w && (s.dev.privatePins n).isEmpty && !s.dev.inSpan n &&
      decide ((s.dev.site n).stretching < s.dev.rd .SITE_STRETCH_MAX_COUNT n)
    Acts (.vectorLaunch l) s (fun e =>
      (may = true → e.siteState n = SiteState.RUNNING ∧ (e.site n).stretching = (s.dev.site n).stretching + 1 ∧
        e.rd .SITE_VCOUNT_COUNT n = s.dev.rd .SITE_VCOUNT_COUNT n ∧ e.on .PIN_STREAM_STATUS_STRETCHED ((s.dev.site n).underPin.getD q) = true ∧
        (∀ k, k ∈ s.dev.lanePins l → (e.pin k).tNext = (s.dev.lane l).gridNext.getD (s.dev.pin k).tNext +
          s.dev.period k (match (s.dev.pin k).prev with | some v => v.tset | none => wTset w))) ∧
      (may = false → e.siteState n = SiteState.DRAINING ∧ e.on .SITE_STATUS_UNDERRUN n = true ∧
        e.on .PIN_STREAM_STATUS_UNDERRUN ((s.dev.site n).underPin.getD q) = true ∧ ⟨0x1C2, n, 0, s.dev.cycle⟩ ∈ e.raised ∧
        (∃ r st, (e.site n).cause = some (r, st) ∧ r ≤ 2) ∧
        ((∀ k j, k ∈ s.dev.siteLanes n → k ≠ l → s.dev.lanePin k = some j → (s.dev.nextAt k j - ns 12) / cycleTicks ≠ (T - ns 12) / cycleTicks) →
          (e.site n).cause = some (2, Status.UNDERRUN) ∧ e.raised = s.dev.raised ++ [⟨0x1C2, n, 0, s.dev.cycle⟩]) ∧
        e.rd .SITE_VCOUNT_COUNT n = s.dev.rd .SITE_VCOUNT_COUNT n)))

/-- R56, R57, R61: the events of the first due cycle act together, a set wins over a clear. R48, R58, R169: the pins that hold at an RDV begin their next
vector at the grid point, unless the site has ended by then. R70: no seam came in time: the results are STALE, once. -/
def Obligations.RunningEventsChangeConditionsAndPins : Prop :=
  (∀ (s : State) (n c : Nat), n < 64 → s.dev.asleep = false → let due := (s.dev.site n).conds.filter (fun e => decide (e.cycle ≤ s.dev.bed / cycleTicks))
    (∃ x, x ∈ due ∧ x.cycle = c) → (∀ x, x ∈ due → c ≤ x.cycle) →
    Acts (.conditionChange n) s (fun e =>
      let hit := fun (b : Bool) (i : Nat) => due.any (fun x => x.cycle == c && x.value == b && (s.dev.condsOf n x).contains i)
      (∀ i, i < 32 → bitAt (e.rd .SITE_COND_C n) i = (hit true i || (!hit false i && bitAt (s.dev.rd .SITE_COND_C n) i))) ∧
      (e.site n).conds = (s.dev.site n).conds.filter (fun x => x.cycle != c) ∧ (∀ m, m ≠ n → e.site m = s.dev.site m) ∧
      s.dev.keepsBut e [(.SITE_COND_C, n)])) ∧
  (∀ (s : State) (l n p g : Nat) (v : Vec), l < 320 → s.dev.laneSite l = some n → s.dev.lanePin l = some p → (s.dev.pin p).fifo.head? = some v →
    v.grid = some g → (s.dev.lane l).rests = [] → s.dev.siteState n = SiteState.RUNNING → g ≤ s.dev.bed + ns 12 →
    Acts (.gridPoint l) s (fun e =>
      (s.dev.endedBy n l g = false → ∀ q w r, q ∈ s.dev.lanePins l → (s.dev.pin q).fifo = w :: r →
        (e.pin q).tNext = g ∧ (e.pin q).fifo = { w with grid := none } :: r) ∧
      (s.dev.endedBy n l g = true → e.pins = s.dev.pins) ∧
      (∀ q, q ∉ s.dev.lanePins l → e.pin q = s.dev.pin q) ∧ e.sites = s.dev.sites ∧
      s.dev.keepsFields e [.RN_PORT_COUNT_FWD, .PIN_TF_STATUS_SPACING, .PIN_TF_STATUS_SPACING_COUNT])) ∧
  (∀ (s : State) (n c : Nat), n < 64 → (s.dev.site n).seamClock = some c → (s.dev.site n).seamNoted = false →
    c + ns (s.dev.rd .SITE_SEAM_DEADLINE_NS n) ≤ s.dev.now →
    Acts (.seamDeadline n) s (fun e => e.on .SITE_STATUS_STALE n = true ∧ (e.site n).stale = true ∧ (e.site n).seamNoted = true ∧
      e.raised = s.dev.raised ++ [⟨0x1C1, n, 0, s.dev.cycle⟩] ∧ (∀ m, m ≠ n → e.site m = s.dev.site m) ∧
      s.dev.keepsBut e [(.SITE_STATUS_STALE, n)]))

/-- R54, R56, R497: an edge starts the sites armed on it, is counted by those not armed, and posts the event condition of every site with members. -/
def Obligations.EventEdgeStartsArmedSites : Prop :=
  ∀ (s : State) (ev : Nat) (rise : Bool), ev < 8 → s.dev.asleep = false →
    let t := s.dev.bed / cycleTicks * cycleTicks
    Acts (.eventPinEdge ev rise) s (fun e =>
      bitAt e.evLevel ev = rise ∧ (∀ k, k ≠ ev → bitAt e.evLevel k = bitAt s.dev.evLevel k) ∧
      (∀ n, n < 64 → s.dev.edgeQualifies n ev rise = true → s.dev.siteState n = SiteState.ARMED → (s.dev.site n).mode = 2 →
        (s.dev.site n).start = none → (e.site n).start = some (t + ns (max 1000 (s.dev.rd .SITE_EV_DELAY_DELAY n)))) ∧
      (∀ n, n < 64 → s.dev.edgeQualifies n ev rise = true → s.dev.siteState n ≠ SiteState.ARMED →
        e.rd .SITE_STATUS_EV_IGNORED n = min (s.dev.rd .SITE_STATUS_EV_IGNORED n + 1) (2 ^ Fld.SITE_STATUS_EV_IGNORED.spec.width - 1)) ∧
      (∀ n, n < 64 → s.dev.edgeQualifies n ev rise = false → (e.site n).start = (s.dev.site n).start ∧
        e.rd .SITE_STATUS_EV_IGNORED n = s.dev.rd .SITE_STATUS_EV_IGNORED n) ∧
      (∀ n, n < 64 → s.dev.siteState n ≠ SiteState.EMPTY → ∃ x, x ∈ (e.site n).conds ∧ x.src = 0x30 + ev ∧ x.value = rise ∧ x.cycle = cycleAfter (t + ns 96)) ∧
      (∀ n, e.siteState n = s.dev.siteState n) ∧ s.dev.keepsFields e [.SITE_STATUS_EV_IGNORED, .RN_PORT_COUNT_FWD])

/-- R90, R96, R100: a load waits for no running site, is checked whole, and only then begins to write. R72, R94, R95: at the end of a load every copy in
service holds the image but those that differed twice. -/
def Obligations.UcodeLoadChecksThenInstallsTheImage : Prop :=
  (∀ (s : State) (id : Nat) (bytes : List Byte) (x : Entry), s.dev.reload? id 0 = some x →
    Acts (.ucodeLoad id bytes) s (fun e =>
      (s.dev.anyRunning = true → e.decided id Status.BUSY ∧ e.cs = s.dev.cs ∧ s.dev.keepsBut e []) ∧
      (s.dev.anyRunning = false →
        match ucodeReject s.mem (s.dev.rd .CS_POLICY_SLOTS 0) (bytes.take (descField x.desc 16 0 32)) with
        | some r => e.decided id Status.UCODE_REJECT ∧ e.cs = s.dev.cs ∧ e.on .CS_LOAD_ERR_VALID 0 = true ∧
            e.rd .CS_LOAD_ERR_REASON 0 = r.reason % 2 ^ 4 ∧ e.raised = s.dev.raised ++ [⟨0x100, 0, 0, s.dev.cycle⟩] ∧
            s.dev.keepsBut e [(.CS_LOAD_ERR_VALID, 0), (.CS_LOAD_ERR_NANO, 0), (.CS_LOAD_ERR_REASON, 0), (.CS_LOAD_ERR_ADDR, 0)]
        | none => e.entry? id = some { x with begun := true, started := true } ∧ e.on .CS_STATUS_BUSY 0 = true ∧ e.cs.load = some id ∧
            e.cs.payload = conPayload (bytes.take (descField x.desc 16 0 32)) ∧ e.cs.micro = s.dev.cs.micro ∧ e.cs.dsq = s.dev.cs.dsq ∧
            s.dev.keepsBut e [(.CS_STATUS_BUSY, 0)]))) ∧
  (∀ (s : State) (bad lost id : Nat) (x : Entry), s.dev.cs.load = some id → s.dev.entry? id = some x → x.done = false →
    Acts (.ucodeLoadComplete bad lost) s (fun e =>
      (∀ k, k < 32 → bitAt (e.rd .CS_STATUS_COPY_OK 0) k = (bitAt (s.dev.rd .DEV_UNITS_OCT_OK 0) k && !(bitAt bad k && bitAt lost k))) ∧
      (e.on .CS_STATUS_LOADED 0 = true ↔ e.rd .CS_STATUS_COPY_OK 0 ≠ 0) ∧ e.on .CS_STATUS_BUSY 0 = false ∧ e.cs.load = none ∧
      e.rd .CS_IMAGE_SLOT 0 = s.dev.cs.slot % 2 ^ Fld.CS_IMAGE_SLOT.spec.width ∧
      e.rd .CS_IMAGE_BUILD 0 = (imageOf s.dev.cs.payload).build % 2 ^ Fld.CS_IMAGE_BUILD.spec.width ∧
      (∀ a, a < (imageOf s.dev.cs.payload).micro.length → tget (fun _ => 0) e.cs.micro a = (imageOf s.dev.cs.payload).micro.getD a 0) ∧
      ((∀ k, k < 32 → (bitAt bad k && bitAt lost k) = false) →
        e.decided id (if e.rd .CS_STATUS_COPY_OK 0 = 0 then Status.UCODE_FAIL else Status.OK))))

/-- R95, R99: a verify begins at the first copy in service that holds the image and whose cluster is idle. R94, R97, R98, R99: a copy that differs is
repaired, one that differs again is lost with its octet. -/
def Obligations.UcodeVerifyRepairsOrLosesCopies : Prop :=
  ((∀ (s : State) (id k : Nat) (x : Entry), s.dev.reload? id 1 = some x → k < 32 →
    let holds := fun j => bitAt (s.dev.rd .DEV_UNITS_OCT_OK 0) j && bitAt (s.dev.rd .CS_STATUS_COPY_OK 0) j
    holds k = true → s.dev.clusterIdle k = true → (∀ j, j < k → holds j = false) →
    Acts (.ucodeVerify id) s (fun e => e.cs.verify = some id ∧ e.cs.vnext = k ∧ e.cs.vlost = 0 ∧ e.cs.vskip = 0 ∧ e.on .CS_STATUS_BUSY 0 = true ∧
      e.entry? id = some { x with begun := true, started := true } ∧ s.dev.keepsBut e [(.CS_STATUS_BUSY, 0)])) ∧
  (∀ (s : State) (id : Nat) (x : Entry), s.dev.reload? id 1 = some x →
    (∀ j, j < 32 → (bitAt (s.dev.rd .DEV_UNITS_OCT_OK 0) j && bitAt (s.dev.rd .CS_STATUS_COPY_OK 0) j) = false) →
    Acts (.ucodeVerify id) s (fun e => e.cs.verify = none ∧ e.on .CS_STATUS_BUSY 0 = false ∧
      e.decided id (if s.dev.rd .CS_STATUS_COPY_OK 0 = 0 then Status.UCODE_FAIL else Status.OK)))) ∧
  (∀ (s : State) (k : Nat) (bad lost : Bool), k < 32 → s.dev.asleep = false → s.dev.verifyDue k = true →
    bitAt (s.dev.rd .CS_STATUS_COPY_OK 0) k = true → s.dev.clusterIdle k = true → s.dev.cs.load = none →
    let differs := bad || !s.dev.cs.same k
    Acts (.copyVerify k bad lost) s (fun e =>
      tget (fun _ => 0) e.cs.lastVerify k = s.dev.now ∧ bitAt e.cs.wanted k = false ∧ e.cs.same k = true ∧
      (differs = false → e.raised = s.dev.raised ∧ e.rd .CS_STATUS_COPY_OK 0 = s.dev.rd .CS_STATUS_COPY_OK 0) ∧
      (differs = true → lost = false → e.raised = s.dev.raised ++ [⟨0x101, k, 0, s.dev.cycle⟩] ∧ e.on .CS_REPAIR_VALID 0 = true ∧
        e.rd .CS_REPAIR_LAST_COPY 0 = k ∧ e.rd .CS_STATUS_COPY_OK 0 = s.dev.rd .CS_STATUS_COPY_OK 0 ∧
        e.rd .CS_REPAIR_COUNT 0 = min (s.dev.rd .CS_REPAIR_COUNT 0 + 1) (2 ^ Fld.CS_REPAIR_COUNT.spec.width - 1)) ∧
      (differs = true → lost = true → ⟨0x102, k, 0, s.dev.cycle⟩ ∈ e.raised ∧ bitAt (e.rd .CS_STATUS_COPY_OK 0) k = false ∧
        bitAt (e.rd .DEV_UNITS_OCT_OK 0) k = false ∧
        (∀ j, j < 32 → j ≠ k → bitAt (e.rd .CS_STATUS_COPY_OK 0) j = bitAt (s.dev.rd .CS_STATUS_COPY_OK 0) j))))

/-- R78, R80, R83 to R87: an interrupt taken at a yield point saves where to resume, an ABORT stops the sequencer, and an image's own routine enters the
handler's address; lower numbers go first, and inside a handler or between yield points nothing is taken. R84, R87, R89: an ABORT not taken in 256
microcycles resets the sequencer and has its clusters' copies verified; another interrupt not taken becomes an ABORT, with which a site that runs
drains (its cause there by log entry 90) and a CSQ's judgements end. -/
def Obligations.InterruptsAndHardStopsActOnTheSequencer : Prop :=
  ((∀ (s : State) (l t : Nat), l < 320 → s.dev.atYield l = true → (s.dev.lane l).hand ≠ some 0 → (0, t) ∈ (s.dev.lane l).irqs →
    Acts (.interruptTake l) s (fun e => (e.lane l).irqs = [] ∧ (e.lane l).link = some (s.dev.resumeAt l).1 ∧
      (s.dev.native l = true → (e.lane l).phase = .stopped ∧ (e.lane l).upc = none ∧ (e.lane l).hand = none) ∧
      (s.dev.native l = false → (e.lane l).upc = some 0x10 ∧ (e.lane l).hand = some 0) ∧
      (∀ p, p ∈ s.dev.lanePins l → e.on .PIN_DSQ_STATUS_PARTIAL p = (!(s.dev.lane l).complete || s.dev.on .PIN_DSQ_STATUS_PARTIAL p)) ∧
      (∀ k, k ≠ l → e.lane k = s.dev.lane k) ∧ s.dev.keepsFields e [.PIN_DSQ_STATUS_PARTIAL])) ∧
  (∀ (s : State) (l k : Nat), l < 320 → s.dev.atYield l = true → (s.dev.lane l).hand = none → (∀ i, i ∈ (s.dev.lane l).irqs → i.1 ≠ 0) →
    ((s.dev.lane l).irqs.map (·.1)).min? = some k →
    Acts (.interruptTake l) s (fun e => (e.lane l).link = some (s.dev.resumeAt l).1 ∧ (e.lane l).hand = some k ∧
      (e.lane l).irqs = (s.dev.lane l).irqs.filter (fun i => i.1 != k) ∧
      (s.dev.native l = true → (e.lane l).phase = (s.dev.lane l).phase ∧ (e.lane l).upc = (s.dev.lane l).upc) ∧
      (s.dev.native l = false → (e.lane l).upc = some (0x10 + k)) ∧
      (∀ k, k ≠ l → e.lane k = s.dev.lane k) ∧ s.dev.keepsBut e [])) ∧
  (∀ (s : State) (l : Nat), l < 320 → (s.dev.atYield l = false ∨ (s.dev.lane l).hand = some 0 ∨
      (s.dev.lane l).hand ≠ none ∧ ∀ i, i ∈ (s.dev.lane l).irqs → i.1 ≠ 0) →
    Acts (.interruptTake l) s (fun e => e = s.dev)) ∧
  (∀ (s : State) (p a : Nat), p < 256 → (s.dev.csq p).micro = true → (s.dev.csq p).yields = true → (s.dev.csq p).macc = [] → (s.dev.csq p).hand = none →
    (s.dev.csq p).irqs ≠ [] → (s.dev.csq p).upc = some a →
    Acts (.interruptTake (320 + p)) s (fun e => (e.csq p).irqs = [] ∧ (e.csq p).link.isSome = true ∧
      ((∃ t, (0, t) ∈ (s.dev.csq p).irqs) → (e.csq p).upc = some 0x18 ∧ (e.csq p).hand = some 0 ∧
        e.on .PIN_CSQ_STATUS_PARTIAL p = ((s.dev.csq p).wordOpen || s.dev.on .PIN_CSQ_STATUS_PARTIAL p)) ∧
      ((∀ i, i ∈ (s.dev.csq p).irqs → i.1 ≠ 0) → (e.csq p).upc = some 0x19 ∧ (e.csq p).hand = some 1) ∧
      (∀ q, q ≠ p → e.csq q = s.dev.csq q) ∧ s.dev.keepsBut e [(.PIN_CSQ_STATUS_PARTIAL, p)]))) ∧
  ((∀ (s : State) (l t : Nat), l < 320 → (0, t) ∈ (s.dev.lane l).irqs → t + ns 256 ≤ s.dev.now →
    Acts (.hardStop l) s (fun e => (e.lane l).phase = .stopped ∧ (e.lane l).irqs = [] ∧ (e.lane l).waddr = (s.dev.lane l).waddr ∧
      (∀ p, p ∈ s.dev.lanePins l → e.on .PIN_DSQ_STATUS_PARTIAL p = (!(s.dev.lane l).complete || s.dev.on .PIN_DSQ_STATUS_PARTIAL p)) ∧
      e.raised = s.dev.raised ++ ((List.range 32).filter (fun k => (s.dev.lanePins l).any (fun p => p / 8 == k))).map
        (fun k => ⟨0x104, k, 0, s.dev.cycle⟩) ∧
      (∀ p, p ∈ s.dev.lanePins l → p < 256 → bitAt e.cs.wanted (p / 8) = true) ∧ s.dev.keepsFields e [.PIN_DSQ_STATUS_PARTIAL])) ∧
  (∀ (s : State) (l k t : Nat), l < 320 → (k, t) ∈ (s.dev.lane l).irqs → t + ns 256 ≤ s.dev.now →
    (∀ i, i ∈ (s.dev.lane l).irqs → i.2 + ns 256 ≤ s.dev.now → i.1 ≠ 0) →
    Acts (.hardStop l) s (fun e => (k, t) ∉ (e.lane l).irqs ∧ e.raised = s.dev.raised ∧
      (∀ n, s.dev.laneSite l = some n → l ∈ s.dev.siteLanes n → (s.dev.siteState n = SiteState.RUNNING ∨ s.dev.siteState n = SiteState.PAUSED) →
        e.siteState n = SiteState.DRAINING ∧ (e.site n).cause = some (3, Status.ABORTED_PARTIAL) ∧
        (∀ j, j ∈ s.dev.siteLanes n → (0, s.dev.now) ∈ (e.lane j).irqs) ∧ (∀ p, p ∈ s.dev.members n → (e.pin p).fifo = []) ∧
        s.dev.keepsBut e [(.SITE_STATUS_STATE, n)]) ∧
      ((∀ n, s.dev.laneSite l = some n → s.dev.siteState n ≠ SiteState.RUNNING ∧ s.dev.siteState n ≠ SiteState.PAUSED) →
        (0, s.dev.now) ∈ (e.lane l).irqs ∧ (∀ p, p ∈ s.dev.lanePins l → (e.pin p).fifo = []) ∧ s.dev.keepsBut e []))) ∧
  (∀ (s : State) (p t : Nat), p < 256 → (0, t) ∈ (s.dev.csq p).irqs → t + ns 256 ≤ s.dev.now →
    Acts (.hardStop (320 + p)) s (fun e => (e.csq p).irqs = [] ∧ (e.csq p).upc = none ∧ (e.csq p).exps = [] ∧ (e.csq p).dead = true ∧
      e.on .PIN_CSQ_STATUS_PARTIAL p = ((s.dev.csq p).wordOpen || s.dev.on .PIN_CSQ_STATUS_PARTIAL p) ∧
      e.raised = s.dev.raised ++ [⟨0x104, p / 8, 0, s.dev.cycle⟩] ∧ bitAt e.cs.wanted (p / 8) = true ∧
      s.dev.keepsBut e [(.PIN_CSQ_STATUS_PARTIAL, p)])) ∧
  (∀ (s : State) (p : Nat), p < 256 → (∃ i, i ∈ (s.dev.csq p).irqs ∧ i.2 + ns 256 ≤ s.dev.now) →
    (∀ i, i ∈ (s.dev.csq p).irqs → i.2 + ns 256 ≤ s.dev.now → i.1 ≠ 0) →
    Acts (.hardStop (320 + p)) s (fun e => (e.csq p).irqs = [(0, s.dev.now)] ∧ (e.csq p).exps = [] ∧ (e.csq p).dead = true ∧
      (∀ q, q ≠ p → e.csq q = s.dev.csq q) ∧ s.dev.keepsBut e [])))

/-- R73, R74, R75, R77, R79, R85: one microword of an image's routine. Its nano-word joins the stitch, unseen outside; GOTO and BRANCH choose the next,
IRET goes back to the link, which with the handler ends when its stitch commits, a YIELD commits; the routine of an opcode that SSI 4.2 does not
define begins at its table entry's address. -/
def Obligations.ImageOpcodeRunsItsRoutine : Prop :=
  (∀ (s : State) (l a : Nat), l < 320 → (s.dev.lane l).upc = some a → s.dev.microLive l = true → (s.dev.lane l).goes = true →
    (s.dev.lane l).freeAt ≤ s.dev.bed →
    let w := s.dev.cs.read (s.dev.laneCopy l) 0 a
    let v := s.dev.cs.read (s.dev.laneCopy l) 1 (mwNano w)
    mwMode w < 2 →
    Acts (.imageOpcode l) s (fun e => (e.lane l).acc = (s.dev.lane l).acc ++ [v] ∧ (e.lane l).freeAt = s.dev.bed + cycleTicks ∧
      (mwMode w = 0 → (bits v 185 3 ≠ 5 ∨ (s.dev.lane l).link = none) → (e.lane l).upc = some (mwNext w)) ∧
      (mwMode w = 1 → (bits v 185 3 ≠ 5 ∨ (s.dev.lane l).link = none) → (e.lane l).upc = some (mwNext w / 2 * 2 +
        b2n (Dev.microCond s.mem (Dev.microView s.mem s.dev l) l (mwCsel w) v).1)) ∧
      (∀ b, bits v 185 3 = 5 → (s.dev.lane l).link = some b → (e.lane l).upc = some b ∧ (e.lane l).hand = (s.dev.lane l).hand ∧
        (e.lane l).link = (if (s.dev.lane l).yields then none else some b) ∧ (e.lane l).ret = !(s.dev.lane l).yields) ∧
      (∀ c, (e.lane l).counter c = (s.dev.lane l).counter c) ∧ (e.lane l).waddr = (s.dev.lane l).waddr ∧
      (∀ k, k ≠ l → e.lane k = s.dev.lane k) ∧ e.pins = s.dev.pins ∧ e.sites = s.dev.sites ∧ s.dev.keepsBut e [])) ∧
  (∀ (s : State) (l a : Nat), l < 320 → (s.dev.lane l).upc = some a → s.dev.microLive l = true → (s.dev.lane l).goes = true →
    (s.dev.lane l).freeAt ≤ s.dev.bed → (s.dev.lane l).acc = [] → (s.dev.lane l).yields = false → (s.dev.lane l).irqWaits = false →
    let w := s.dev.cs.read (s.dev.laneCopy l) 0 a
    let v := s.dev.cs.read (s.dev.laneCopy l) 1 (mwNano w)
    mwMode w = 3 → bits v 176 3 = 2 → bits v 185 3 = 0 → bits v 188 4 = 0 → bits v 182 3 = 0 → bits v 173 3 = 0 → bits v 168 3 = 0 →
    bits v 162 4 = 0 → bits v 160 2 = 0 → bits v 156 4 = 0 → bits v 152 4 = 0 →
    Acts (.imageOpcode l) s (fun e => (e.lane l).upc = some (mwNext w) ∧ (e.lane l).acc = [] ∧ (e.lane l).yields = false ∧
      (e.lane l).counter (bits v 179 3) = bits v 96 32 ∧ (∀ c, c ≠ bits v 179 3 → (e.lane l).counter c = (s.dev.lane l).counter c) ∧
      (e.lane l).waddr = (s.dev.lane l).waddr ∧ (e.lane l).stack = (s.dev.lane l).stack ∧ (e.lane l).gr = (s.dev.lane l).gr ∧
      (∀ k, k ≠ l → e.lane k = s.dev.lane k) ∧ e.pins = s.dev.pins ∧ s.dev.keepsBut e [])) ∧
  (∀ (s : State) (l : Nat), l < 320 → s.dev.canTake l = true →
    let op := wOp (Dev.curWord s.mem s.dev l)
    let w := s.dev.cs.read (s.dev.laneCopy l) 0 (bits (s.dev.dsqEntry l op) 0 14)
    s.dev.opValid l op = true → (s.dev.native l = false ∨ ssiOps.contains op = false) → mwMode w = 0 →
    bits (s.dev.cs.read (s.dev.laneCopy l) 1 (mwNano w)) 185 3 ≠ 5 →
    Acts (.imageOpcode l) s (fun e => (e.lane l).upc = some (mwNext w) ∧ (e.lane l).acc = [s.dev.cs.read (s.dev.laneCopy l) 1 (mwNano w)] ∧
      (e.lane l).complete = false ∧ (e.lane l).waddr = (s.dev.lane l).waddr ∧ (∀ k, k ≠ l → e.lane k = s.dev.lane k) ∧
      e.pins = s.dev.pins ∧ s.dev.keepsBut e [])) ∧
  (∀ (s : State) (p n a : Nat), p < 256 → s.dev.siteOf p = some n → s.dev.siteRunning n = true → (s.dev.csq p).upc = some a →
    (s.dev.csq p).freeAt ≤ s.dev.bed →
    let w := s.dev.cs.read (p / 8) 0 a
    let v := s.dev.cs.read (p / 8) 1 (mwNano w)
    mwMode w = 0 → bits v 185 3 ≠ 5 →
    Acts (.imageOpcode (320 + p)) s (fun e => (e.csq p).macc = (s.dev.csq p).macc ++ [v] ∧ (e.csq p).upc = some (mwNext w) ∧
      (e.csq p).exps = (s.dev.csq p).exps ∧ (∀ q, q ≠ p → e.csq q = s.dev.csq q) ∧ e.lanes = s.dev.lanes ∧ s.dev.keepsBut e []))

/-- R109, R110, R118, R137, R144: an emitting word places vectors of its kind on every pin of its program, all of them or as many as there is room and
data for; of none left the next word follows. Where the FIFO has room for the word's N vectors and the data of those it draws from the stream are
there, the word completes: N vectors are placed and the next word follows. A stream error at the head of a FIFO before vector 0 is another matter
(R141). -/
def Obligations.EmittingWordsPlaceTheirVectors : Prop :=
  (∀ (s : State) (l op : Nat) (kind : EmitKind) (c : Instr),
    (c, op, kind) ∈ [(Instr.emit l, 0x01, EmitKind.stream), (.emitt l, 0x02, .side), (.repeatW l, 0x03, .repeat_), (.idleW l, 0x04, .idle),
      (.seam l, 0x1D, .k)] →
    s.dev.atWord s.mem l op = true → Dev.nextOf s.mem s.dev l < (s.dev.lane l).len →
    (∀ n, s.dev.laneSite l = some n → (s.dev.siteState n = SiteState.PREPARING ∨ s.dev.siteState n = SiteState.ARMED) →
      s.dev.badHeads (s.dev.members n) = [] ∧ ∀ p, p ∈ s.dev.lanePins l → (s.dev.pin p).fifo = [] → (Dev.peek s.mem s.dev p).1 ≠ .bad) →
    let w := Dev.curWord s.mem s.dev l
    Acts c s (fun e =>
      (∀ p, p ∈ s.dev.lanePins l → ∃ vs, (e.pin p).fifo = (s.dev.pin p).fifo ++ vs ∧
        (∀ v, v ∈ vs → v.op = op ∧ v.waddr = (s.dev.lane l).waddr ∧ (kind = .idle → v.code = s.dev.idleCode p ∧ v.tset = wTset w) ∧
          (kind = .k → v.code = Code.K)) ∧
        (op = 0x1D → ∀ v, vs.head? = some v → v.seam = 2) ∧
        ((e.lane l).phase = .emit ∧ (e.lane l).kind = kind ∧ (e.lane l).waddr = (s.dev.lane l).waddr ∧ vs.length + (e.lane l).left = wA32 w ∨
          vs.length = wA32 w ∧ e.atNext l (Dev.nextOf s.mem s.dev l))) ∧
      s.dev.wordFrame e l)) ∧
  (∀ (s : State) (l op q : Nat) (kind : EmitKind) (c : Instr),
    (c, op, kind) ∈ [(Instr.emit l, 0x01, EmitKind.stream), (.emitt l, 0x02, .side), (.repeatW l, 0x03, .repeat_), (.idleW l, 0x04, .idle),
      (.seam l, 0x1D, .k)] →
    s.dev.atWord s.mem l op = true → Dev.nextOf s.mem s.dev l < (s.dev.lane l).len →
    (∀ n, s.dev.laneSite l = some n → (s.dev.siteState n = SiteState.PREPARING ∨ s.dev.siteState n = SiteState.ARMED) →
      s.dev.badHeads (s.dev.members n) = [] ∧ ∀ p, p ∈ s.dev.lanePins l → (s.dev.pin p).fifo = [] → (Dev.peek s.mem s.dev p).1 ≠ .bad) →
    let w := Dev.curWord s.mem s.dev l
    let drawn := if kind = .stream ∨ kind = .side then wA32 w else if kind = .repeat_ then min 1 (wA32 w) else 0
    s.dev.lanePin l = some q → s.dev.fifoLevel q + wA32 w ≤ 64 →
    (∀ p, p ∈ s.dev.lanePins l → Dev.dataFor s.mem p drawn s.dev = true) →
    (∀ p, p ∈ s.dev.lanePins l → (s.dev.pin p).rep = none) →
    Acts c s (fun e => e.atNext l (Dev.nextOf s.mem s.dev l) ∧ s.dev.wordFrame e l ∧
      ∀ p, p ∈ s.dev.lanePins l → ∃ vs, (e.pin p).fifo = (s.dev.pin p).fifo ++ vs ∧ vs.length = wA32 w ∧
        (∀ v, v ∈ vs → v.op = op ∧ v.waddr = (s.dev.lane l).waddr ∧ (kind = .idle → v.code = s.dev.idleCode p ∧ v.tset = wTset w) ∧
          (kind = .k → v.code = Code.K ∧ v.tset = wTset w)) ∧
        (op = 0x1D → ∀ v, vs.head? = some v → v.seam = 2) ∧
        (∀ code side ui burst pos, drawn ≠ 0 → Dev.peek s.mem s.dev p = (.ok code side ui burst, pos) →
          (∀ v, vs.head? = some v → v.code = code ∧ v.tset = (if kind = .side then (wTset w + side) % 32 else wTset w)) ∧
          (kind = .repeat_ → ∀ v, v ∈ vs → v.code = code ∧ v.ui = ui ∧ v.tset = wTset w))))

/-- R121, R122: LOOP loads and marks, ENDLOOP counts down and returns to the mark or goes on; a wrong ACTIVE bit is LOOP_ERR at the next vector's
boundary. -/
def Obligations.LoopWordsCountAndReturn : Prop :=
  (∀ (s : State) (l : Nat), s.dev.atWord s.mem l 0x08 = true → let w := Dev.curWord s.mem s.dev l; let k := bits (wA16 w) 0 3
    bitAt (s.dev.lane l).act k = false → Dev.nextOf s.mem s.dev l < (s.dev.lane l).len →
    Acts (.loopW l) s (fun e =>
      (e.lane l).counter k = max (if bitAt (wA16 w) 3 then (s.dev.lane l).reg (bits (wA16 w) 4 2) else wA32 w) 1 % 2 ^ 32 ∧
      bitAt (e.lane l).act k = true ∧ (∀ p, p ∈ s.dev.lanePins l → tget (fun _ => {}) (e.pin p).marks k = (s.dev.pin p).pos) ∧
      e.atNext l (Dev.nextOf s.mem s.dev l) ∧ s.dev.wordFrame e l)) ∧
  (∀ (s : State) (l : Nat), s.dev.atWord s.mem l 0x09 = true → let w := Dev.curWord s.mem s.dev l; let k := bits (wA16 w) 0 3
    bitAt (s.dev.lane l).act k = true → 1 < (s.dev.lane l).counter k →
    targetFault (s.dev.lane l).len (s.dev.lane l).waddr (wA32 w) = none → (s.dev.lane l).counter k ≤ 2 ^ 32 →
    Acts (.endloop l) s (fun e => (e.lane l).counter k = (s.dev.lane l).counter k - 1 ∧ (e.lane l).act = (s.dev.lane l).act ∧
      (∀ p, p ∈ s.dev.lanePins l → (e.pin p).pos = tget (fun _ => {}) (s.dev.pin p).marks k) ∧ e.atNext l (wA32 w) ∧ s.dev.wordFrame e l)) ∧
  (∀ (s : State) (l : Nat), s.dev.atWord s.mem l 0x09 = true → let w := Dev.curWord s.mem s.dev l; let k := bits (wA16 w) 0 3
    bitAt (s.dev.lane l).act k = true → (s.dev.lane l).counter k ≤ 1 → Dev.nextOf s.mem s.dev l < (s.dev.lane l).len →
    Acts (.endloop l) s (fun e => (e.lane l).counter k = 0 ∧ bitAt (e.lane l).act k = false ∧ e.atNext l (Dev.nextOf s.mem s.dev l) ∧
      (∀ p, (e.pin p).pos = (s.dev.pin p).pos) ∧ s.dev.wordFrame e l)) ∧
  (∀ (s : State) (l : Nat), (s.dev.lane l).emitted ≠ 0 → let k := bits (wA16 (Dev.curWord s.mem s.dev l)) 0 3
    (s.dev.atWord s.mem l 0x08 = true → bitAt (s.dev.lane l).act k = true → Acts (.loopW l) s (fun e => (e.lane l).fault = some 6 ∧ s.dev.wordFrame e l)) ∧
    (s.dev.atWord s.mem l 0x09 = true → bitAt (s.dev.lane l).act k = false → Acts (.endloop l) s (fun e => (e.lane l).fault = some 6 ∧ s.dev.wordFrame e l)))

/-- R123: CALL pushes the return address, with an extension word also the stream position, and RET restores them; a full or empty stack is a fault. -/
def Obligations.CallAndRetUseTheStack : Prop :=
  (∀ (s : State) (l : Nat), s.dev.atWord s.mem l 0x0A = true → let w := Dev.curWord s.mem s.dev l
    (s.dev.lane l).stack.length < 16 → targetFault (s.dev.lane l).len (s.dev.lane l).waddr (wA32 w) = none →
    Acts (.call l) s (fun e => (e.lane l).stack = (Dev.nextOf s.mem s.dev l, wXw w) :: (s.dev.lane l).stack ∧ e.atNext l (wA32 w) ∧
      (∀ p, p ∈ s.dev.lanePins l → (e.pin p).pos = if wXw w then { entry := Dev.xarg s.mem s.dev l } else (s.dev.pin p).pos) ∧
      (∀ p, p ∈ s.dev.lanePins l → (e.pin p).stk = (if wXw w then some (s.dev.pin p).pos else none) :: (s.dev.pin p).stk) ∧ s.dev.wordFrame e l)) ∧
  (∀ (s : State) (l t : Nat) (saved : Bool) (r : List (Nat × Bool)), s.dev.atWord s.mem l 0x0B = true → (s.dev.lane l).stack = (t, saved) :: r →
    targetFault (s.dev.lane l).len (s.dev.lane l).waddr t = none →
    Acts (.ret l) s (fun e => (e.lane l).stack = r ∧ e.atNext l t ∧
      (∀ p q x, p ∈ s.dev.lanePins l → (s.dev.pin p).stk = x :: q → (e.pin p).stk = q ∧
        (e.pin p).pos = if saved then x.getD (s.dev.pin p).pos else (s.dev.pin p).pos) ∧ s.dev.wordFrame e l)) ∧
  (∀ (s : State) (l : Nat), (s.dev.lane l).emitted ≠ 0 →
    (s.dev.atWord s.mem l 0x0A = true → 16 ≤ (s.dev.lane l).stack.length → Acts (.call l) s (fun e => (e.lane l).fault = some 4 ∧ s.dev.wordFrame e l)) ∧
    (s.dev.atWord s.mem l 0x0B = true → (s.dev.lane l).stack = [] → Acts (.ret l) s (fun e => (e.lane l).fault = some 5 ∧ s.dev.wordFrame e l)))

/-- R104, R124, R125: JUMP goes to its target, BRANCH on a register or counter goes there or on, on a site condition it waits for its decision cycle; a
bad target is a fault. -/
def Obligations.JumpsAndBranchesPassControl : Prop :=
  (∀ (s : State) (l : Nat), s.dev.atWord s.mem l 0x0C = true → let t := wA32 (Dev.curWord s.mem s.dev l)
    (targetFault (s.dev.lane l).len (s.dev.lane l).waddr t = none → Acts (.jump l) s (fun e => e.atNext l t ∧
      (e.lane l).cnt = (s.dev.lane l).cnt ∧ (e.lane l).act = (s.dev.lane l).act ∧ (e.lane l).stack = (s.dev.lane l).stack ∧
      e.pins = s.dev.pins ∧ s.dev.wordFrame e l)) ∧
    (∀ v, targetFault (s.dev.lane l).len (s.dev.lane l).waddr t = some v → (s.dev.lane l).emitted ≠ 0 →
      Acts (.jump l) s (fun e => (e.lane l).fault = some v ∧ (e.lane l).waddr = (s.dev.lane l).waddr ∧ s.dev.wordFrame e l))) ∧
  (∀ (s : State) (l : Nat), s.dev.atWord s.mem l 0x0D = true → let w := Dev.curWord s.mem s.dev l
    targetFault (s.dev.lane l).len (s.dev.lane l).waddr (wA32 w) = none → Dev.nextOf s.mem s.dev l < (s.dev.lane l).len →
    (bits (wA16 w) 6 2 = 3 → (s.dev.lane l).emitted ≠ 0) →
    Acts (.branch l) s (fun e => e.pins = s.dev.pins ∧ s.dev.wordFrame e l ∧
      (bits (wA16 w) 6 2 = 0 → (e.lane l).phase = .sync ∧ (e.lane l).waddr = (s.dev.lane l).waddr) ∧
      (bits (wA16 w) 6 2 = 1 → e.atNext l (if ((s.dev.lane l).reg (bits (wA16 w) 0 2) == 0) == bitAt (wA16 w) 5 then wA32 w else Dev.nextOf s.mem s.dev l)) ∧
      (bits (wA16 w) 6 2 = 2 → e.atNext l (if ((s.dev.lane l).counter (bits (wA16 w) 0 3) == 0) == bitAt (wA16 w) 5 then wA32 w else Dev.nextOf s.mem s.dev l)) ∧
      (bits (wA16 w) 6 2 = 3 → (e.lane l).fault = some 11)))

/-- R130, R152: MATCH marks the stream and emits a pass; at the pass's end the condition leads on, to another pass, or to the timeout. -/
def Obligations.MatchRepeatsItsPassUntilTheCondition : Prop :=
  (∀ (s : State) (l : Nat), s.dev.atWord s.mem l 0x10 = true → let w := Dev.curWord s.mem s.dev l; let n := bits (wA32 w) 0 16
    (n ≠ 0 → (∀ n, s.dev.laneSite l = some n → (s.dev.siteState n = SiteState.PREPARING ∨ s.dev.siteState n = SiteState.ARMED) →
        s.dev.badHeads (s.dev.members n) = [] ∧ ∀ p, p ∈ s.dev.lanePins l → (s.dev.pin p).fifo = [] → (Dev.peek s.mem s.dev p).1 ≠ .bad) →
      Acts (.matchW l) s (fun e => (e.lane l).passes = 1 ∧ (e.lane l).waddr = (s.dev.lane l).waddr ∧ s.dev.wordFrame e l ∧
      (∀ p, p ∈ s.dev.lanePins l → tget (fun _ => {}) (e.pin p).marks 8 = (s.dev.pin p).pos ∧ ∃ vs, (e.pin p).fifo = (s.dev.pin p).fifo ++ vs ∧
        ((e.lane l).phase = .emit ∧ vs.length + (e.lane l).left = n ∨ (e.lane l).phase = .passEnd ∧ vs.length = n)))) ∧
    (n = 0 → (s.dev.lane l).emitted ≠ 0 → Acts (.matchW l) s (fun e => (e.lane l).fault = some 11 ∧ s.dev.wordFrame e l))) ∧
  (∀ (s : State) (l n S w : Nat), l < 320 → s.dev.laneSite l = some n → Dev.dueS s.mem s.dev l (· == .passEnd) = some (S, w) → s.dev.dwells l w S = false →
    (s.dev.lane l).upc = none → Dev.nextOf s.mem s.dev l < (s.dev.lane l).len → (s.dev.lane l).emitted ≠ 0 →
    ((s.dev.siteState n = SiteState.PREPARING ∨ s.dev.siteState n = SiteState.ARMED) → s.dev.badHeads (s.dev.members n) = [] ∧
      ∀ p, p ∈ s.dev.lanePins l → (s.dev.pin p).fifo ≠ []) →
    let holds := s.dev.cond n (bits (wA16 w) 0 5) (s.dev.actAt l S) == bitAt (wA16 w) 5
    let max_ := bits (wA32 w) 16 16
    Acts (.matchPassEnd l) s (fun e => s.dev.wordFrame e l ∧
      (holds = true → e.atNext l (Dev.nextOf s.mem s.dev l)) ∧
      (holds = false → (max_ = 0 ∨ (s.dev.lane l).passes < max_) → (e.lane l).passes = (s.dev.lane l).passes + 1 ∧
        (e.lane l).waddr = (s.dev.lane l).waddr ∧ ((e.lane l).phase = .emit ∨ (e.lane l).phase = .passEnd)) ∧
      (holds = false → max_ ≠ 0 → max_ ≤ (s.dev.lane l).passes →
        (wXw w = true → targetFault (s.dev.lane l).len (s.dev.lane l).waddr (Dev.xarg s.mem s.dev l) = none → e.atNext l (Dev.xarg s.mem s.dev l)) ∧
        (wXw w = false → (e.lane l).fault = some 10))))

/-- R58, R112, R126, R128, R129: a synchronised word holds its sequencer for its decision cycle; until then nothing else changes. R126, R127, R194: a
released wait goes on, one whose count is reached goes to its target or is WAIT_TMO; the last vector it placed ends the word. -/
def Obligations.WaitingWordsEndByDecisionReleaseOrTimeout : Prop :=
  (∀ (s : State) (l op : Nat) (c : Instr),
    (c, op) ∈ [(Instr.waitcond l, 0x11), (.waittrig l, 0x12), (.waittime l, 0x13), (.rdv l, 0x14), (.setc l, 0x18), (.markW l, 0x1A)] →
    s.dev.atWord s.mem l op = true →
    Acts c s (fun e => (e.lane l).phase = .sync ∧ (e.lane l).wait = 0 ∧ (e.lane l).firstAt = none ∧ (e.lane l).waddr = (s.dev.lane l).waddr ∧
      (e.lane l).complete = false ∧ e.pins = s.dev.pins ∧ e.sites = s.dev.sites ∧ s.dev.wordFrame e l)) ∧
  ((∀ (s : State) (l : Nat), l < 320 → s.dev.laneLive l = true → (s.dev.lane l).phase = .released → (s.dev.lane l).upc = none →
    Dev.nextOf s.mem s.dev l < (s.dev.lane l).len →
    Acts (.waitRelease l) s (fun e => e.atNext l (Dev.nextOf s.mem s.dev l) ∧ s.dev.wordFrame e l ∧
      ((s.dev.lane l).wordVecs = 0 → e.pins = s.dev.pins) ∧ (∀ p, (e.pin p).pos = (s.dev.pin p).pos) ∧
      ((s.dev.lane l).wordVecs ≠ 0 → ∀ p f v, p ∈ s.dev.lanePins l → (s.dev.pin p).fifo = f ++ [v] →
        (e.pin p).fifo = f ++ [{ v with endMatch := true }]))) ∧
  (∀ (s : State) (l : Nat), l < 320 → s.dev.laneLive l = true → (s.dev.lane l).phase = .timedOut → (s.dev.lane l).fault = none →
    (s.dev.lane l).upc = none → (s.dev.lane l).emitted ≠ 0 →
    Acts (.waitTimeout l) s (fun e => s.dev.wordFrame e l ∧ (∀ p, (e.pin p).pos = (s.dev.pin p).pos) ∧
      (wXw (Dev.curWord s.mem s.dev l) = false → (e.lane l).fault = some 9) ∧
      (wXw (Dev.curWord s.mem s.dev l) = true → targetFault (s.dev.lane l).len (s.dev.lane l).waddr (Dev.xarg s.mem s.dev l) = none →
        e.atNext l (Dev.xarg s.mem s.dev l)))))

/-- R58, R59, R112 to R115, R125 to R129: what the decision cycle of a due synchronised word does. -/
def Obligations.DecisionCycleActsOnItsWord : Prop :=
  ∀ (s : State) (l n S w : Nat), l < 320 → s.dev.laneSite l = some n → Dev.dueS s.mem s.dev l (fun p => p == .sync || p == .wait) = some (S, w) →
    (s.dev.lane l).upc = none → Dev.nextOf s.mem s.dev l < (s.dev.lane l).len →
    ((s.dev.siteState n = SiteState.PREPARING ∨ s.dev.siteState n = SiteState.ARMED) → s.dev.badHeads (s.dev.members n) = []) →
    let late := decide ((s.dev.lane l).phase = .sync) && s.dev.dwells l w S
    ((s.dev.lane l).emitted ≠ 0 ∨ (late = false ∧ wOp w ∈ [0x11, 0x12, 0x13, 0x18, 0x1A])) →
    let a := s.dev.actAt l S
    let k := bits (wA16 w) 0 5
    Acts (.decisionCycle l) s (fun e =>
      (∀ j, j ≠ l → e.lane j = s.dev.lane j) ∧
      (late = true → (e.lane l).fault = some 7 ∧ s.dev.keepsBut e []) ∧
      (late = false → wOp w = 0x0D → targetFault (s.dev.lane l).len (s.dev.lane l).waddr (wA32 w) = none →
        e.atNext l (if s.dev.cond n k a == bitAt (wA16 w) 5 then wA32 w else Dev.nextOf s.mem s.dev l)) ∧
      (late = false → wOp w = 0x18 → e.atNext l (Dev.nextOf s.mem s.dev l) ∧ (e.site n).conds = (s.dev.site n).conds ++
        [if s.dev.spanWide n k then ⟨cycleAfter (a + ns (s.dev.rd .SITE_SPAN_LAT_LAT n)), 256 + k, bitAt (wA16 w) 5, true, a⟩
          else ⟨cycleAfter (a + ns 96), 256 + k, bitAt (wA16 w) 5, false, a⟩]) ∧
      (late = false → wOp w = 0x1A → e.atNext l (Dev.nextOf s.mem s.dev l) ∧ ∃ i, ⟨i, .mark, S + (if s.dev.inSpan n then ns (s.dev.rd .SITE_SPAN_LAT_LAT n) else 0), n,
        bits (wA16 w) 0 4, true⟩ ∈ e.signals) ∧
      (late = false → wOp w = 0x14 →
        match gridPointOf ((s.dev.site n).start.getD 0) (s.dev.rd .SITE_GRID_PERIOD n) S (bitAt (wA16 w) 0) (wA32 w) with
        | none => (e.lane l).fault = some missCode
        | some g => e.atNext l (Dev.nextOf s.mem s.dev l) ∧ (e.lane l).gridNext = (if g = S then (s.dev.lane l).gridNext else some g) ∧
            (e.lane l).rests = (s.dev.lane l).rests ++ (if g = S ∨ (s.dev.lane l).seamNext = 0 then [] else [(S, (s.dev.lane l).seamNext)])) ∧
      (late = false → (wOp w = 0x11 ∨ wOp w = 0x12 ∨ wOp w = 0x13) →
        let free := s.dev.releases n w S a ((s.dev.lane l).firstAt.getD a)
        let ended := wOp w ≠ 0x13 ∧ wA32 w ≠ 0 ∧ wA32 w ≤ (s.dev.lane l).wait
        (free = true → (e.lane l).phase = .released) ∧ (free = false → ended → (e.lane l).phase = .timedOut) ∧
        (free = false → ¬ended → (e.lane l).wait = (s.dev.lane l).wait + 1 ∧ ∀ p, p ∈ s.dev.lanePins l →
          ((e.lane l).phase = .emit ∧ (e.pin p).fifo = (s.dev.pin p).fifo ∨
            (e.lane l).phase = .wait ∧ ∃ v, (e.pin p).fifo = (s.dev.pin p).fifo ++ [v] ∧ v.code = Code.K))) ∧
      s.dev.keepsFields e [.RN_PORT_COUNT_FWD, .PIN_TF_STATUS_SPACING, .PIN_TF_STATUS_SPACING_COUNT])

/-- R131, R132: a compare-side word attaches its control entry to the next vector; a reserved argument is BAD_ARG. R133: PSTREAM moves the stream of every
pin of the program to its entry. -/
def Obligations.CompareAndStreamWordsAct : Prop :=
  (∀ (s : State) (l op : Nat) (c : Instr) (bad : Bool), let w := Dev.curWord s.mem s.dev l
    (c, op, bad) ∈ [(Instr.stamp l, 0x19, bits (wA16 w) 2 2 == 3), (.latsrch l, 0x1B, latsrchBad w), (.failmode l, 0x1C, decide (4 < bits (wA16 w) 0 4))] →
    s.dev.atWord s.mem l op = true → Dev.nextOf s.mem s.dev l < (s.dev.lane l).len →
    Acts c s (fun e =>
      (bad = false → (e.lane l).ctlNext = (s.dev.lane l).ctlNext ++ [⟨op, wA16 w, wA32 w⟩] ∧ e.atNext l (Dev.nextOf s.mem s.dev l) ∧
        e.pins = s.dev.pins ∧ s.dev.wordFrame e l) ∧
      (bad = true → (s.dev.lane l).emitted ≠ 0 → (e.lane l).fault = some 11 ∧ e.pins = s.dev.pins ∧ s.dev.wordFrame e l))) ∧
  (∀ (s : State) (l : Nat), s.dev.atWord s.mem l 0x20 = true → Dev.nextOf s.mem s.dev l < (s.dev.lane l).len →
    Acts (.pstream l) s (fun e => (∀ p, p ∈ s.dev.lanePins l → (e.pin p).pos = { entry := wA32 (Dev.curWord s.mem s.dev l) } ∧
        (e.pin p).fifo = (s.dev.pin p).fifo) ∧
      e.atNext l (Dev.nextOf s.mem s.dev l) ∧ s.dev.wordFrame e l))

/-- R134: what LDCNT loads by its kind. -/
def Obligations.LdcntActsByItsKind : Prop :=
  ∀ (s : State) (l : Nat), s.dev.atWord s.mem l 0x21 = true → Dev.nextOf s.mem s.dev l < (s.dev.lane l).len →
    let w := Dev.curWord s.mem s.dev l
    let c := bits (wA16 w) 0 3
    let r := bits (wA16 w) 0 2
    let kind := bits (wA16 w) 8 3
    let L := s.dev.lane l
    (4 < kind → L.emitted ≠ 0) →
    Acts (.ldcnt l) s (fun e => s.dev.wordFrame e l ∧ (e.lane l).stack = L.stack ∧
      (kind ≤ 4 → e.atNext l (Dev.nextOf s.mem s.dev l)) ∧
      (kind = 0 → (e.lane l).counter c = wA32 w) ∧
      (kind = 1 → (e.lane l).counter c = L.reg (bits (wA16 w) 4 2) % 2 ^ 32) ∧
      (kind = 2 → (e.lane l).reg r = wA32 w) ∧
      (kind = 3 → (e.lane l).reg r = (L.reg r + wA32 w) % 2 ^ 32) ∧
      (kind = 4 → (e.lane l).counter c = 0 ∧ bitAt (e.lane l).act c = false) ∧
      (4 < kind → (e.lane l).fault = some 11) ∧
      (kind ≤ 1 ∨ kind = 4 → (e.lane l).gr = L.gr ∧ ∀ k, k ≠ c → (e.lane l).counter k = L.counter k) ∧
      (kind = 2 ∨ kind = 3 → (e.lane l).cnt = L.cnt ∧ ∀ k, k ≠ r → (e.lane l).reg k = L.reg k))

/-- R48, R77, R129, R135, R140, R141: HALT stops the sequencer at its word; a reserved opcode is BAD_OP, which before vector 0 ends the RUN with the
engine cycle. -/
def Obligations.HaltStopsAndBadOpFaults : Prop :=
  (∀ (s : State) (l : Nat), s.dev.atWord s.mem l 0x00 = true →
    Acts (.halt l) s (fun e => (e.lane l).phase = .halted ∧ (e.lane l).waddr = (s.dev.lane l).waddr ∧ (e.lane l).fault = none ∧
      (∀ p, (e.pin p).fifo = (s.dev.pin p).fifo ∧ (e.pin p).pos = (s.dev.pin p).pos) ∧ (∀ k, k ≠ l → e.lane k = s.dev.lane k) ∧
      e.sites = s.dev.sites ∧ s.dev.keepsFields e [.PIN_TF_STATUS_SPACING, .PIN_TF_STATUS_SPACING_COUNT, .RN_PORT_COUNT_FWD])) ∧
  (∀ (s : State) (l : Nat), l < 320 → s.dev.canTake l = true → s.dev.opValid l (wOp (Dev.curWord s.mem s.dev l)) = false →
    (s.dev.lane l).emitted ≠ 0 →
    Acts (.badOp l) s (fun e => (e.lane l).fault = some 1 ∧ (e.lane l).waddr = (s.dev.lane l).waddr ∧ e.pins = s.dev.pins ∧ s.dev.wordFrame e l)) ∧
  (∀ (s : State) (l n : Nat), l < 320 → s.dev.canTake l = true → s.dev.opValid l (wOp (Dev.curWord s.mem s.dev l)) = false →
    (s.dev.lane l).emitted = 0 → s.dev.laneSite l = some n → (s.dev.siteState n = SiteState.PREPARING ∨ s.dev.siteState n = SiteState.ARMED) →
    ((s.dev.site n).early = none ∨ ∃ r v, (s.dev.site n).early = some (r, v) ∧ 1 < r) →
    Acts (.badOp l) s (fun e => e.siteState n = s.dev.siteState n ∧ (e.site n).early = some (1, Status.seqFault 1)))

/-- R153, R154, R156, R157: the Stream Refill Unit asks for up to 16 lines for the pin it serves next, those of a hinted page first; when the memory has
served the oldest request its lines stand in the pin's buffer. -/
def Obligations.RefillAsksForLinesAndTheyArrive : Prop :=
  (∀ (s : State) (p : Nat) (x : SEntry), s.dev.refillNext = some p → (s.dev.pin p).hints = none → tget (fun _ => none) (s.dev.pin p).ents (s.dev.pin p).fetchE = some x →
    s.dev.sentryBad p (s.dev.pin p).fetchE x = false → (x.typ = 2 → (s.dev.pin p).refills.any (fun r => r.entry == (s.dev.pin p).fetchE && !r.hint) = false) → x.linesFrom (s.dev.pin p).fetchL (s.dev.pin p).runGot (s.dev.pin p).runFrom ≠ 0 →
    let n := min 16 (x.linesFrom (s.dev.pin p).fetchL (s.dev.pin p).runGot (s.dev.pin p).runFrom)
    Acts .refillRequest s (fun e =>
      (e.pin p).refills = (s.dev.pin p).refills ++ [⟨(s.dev.pin p).fetchE, (s.dev.pin p).fetchL, min n (s.dev.pin p).freeSlots.length, false⟩] ∧
      (e.pin p).fetchL = (s.dev.pin p).fetchL + n ∧ (e.pin p).fetchE = (s.dev.pin p).fetchE ∧ (e.pin p).pos = (s.dev.pin p).pos ∧
      (∀ q, q ≠ p → e.pin q = s.dev.pin q) ∧ s.dev.keepsBut e [(.PIN_STREAM_COUNT_REFETCH, p)])) ∧
  (∀ (s : State) (p : Nat) (h : SEntry), s.dev.refillNext = some p → (s.dev.pin p).hints = some h →
    let n := min 16 ((s.dev.pin p).hintEnd - (s.dev.pin p).hintLine)
    Acts .refillRequest s (fun e =>
      (e.pin p).refills = (s.dev.pin p).refills ++ [⟨(s.dev.pin p).hintOf.getD 0, (s.dev.pin p).hintLine, min n (s.dev.pin p).freeSlots.length, true⟩] ∧
      (e.pin p).hintLine = (s.dev.pin p).hintLine + n ∧ (e.pin p).fetchE = (s.dev.pin p).fetchE ∧ (e.pin p).fetchL = (s.dev.pin p).fetchL ∧
      (∀ q, q ≠ p → e.pin q = s.dev.pin q) ∧ s.dev.keepsBut e [])) ∧
  (∀ (s : State) (p : Nat) (r : Refill) (t : List Refill) (x : SEntry), p < 256 → (s.dev.pin p).refills = r :: t → r.hint = false →
    tget (fun _ => none) (s.dev.pin p).ents r.entry = some x →
    s.dev.pcs.any (fun c => c.2.reads.any (fun q => q.who == .stream p && decide (x.addr + 64 * r.line ≤ q.addr) &&
      decide (q.addr < x.addr + 64 * (r.line + r.n)))) = false →
    ((s.dev.pin p).lines.map (·.1)).Nodup → (∀ y, y ∈ (s.dev.pin p).lines → y.1 < 2048) →
    Writes (.lineArrival p) s (fun m e =>
      ((∀ n, s.dev.siteOf p = some n → s.dev.siteState n ≠ SiteState.PREPARING ∧ s.dev.siteState n ≠ SiteState.ARMED) →
        (e.pin p).refills = t) ∧
      (∀ k y, k < r.n → (s.dev.pin p).lines.find? (fun z => z.2.used && z.2.entry == r.entry && z.2.idx == r.line + k && z.2.hint == r.hint) = some y →
        readMem byte0 m.vlb (p * 131072 + y.1 * 64) 64 = readMem byte0 s.mem.hbm (x.addr + 64 * (r.line + k)) 64) ∧
      (∀ a, a / 131072 ≠ p → tget byte0 m.vlb a = tget byte0 s.mem.vlb a) ∧ m = { s.mem with vlb := m.vlb }))

/-- R171, R174, R303, R307: TSET_LOAD writes its images to the shadows, one set of one pin at a time, and marks them pending. -/
def Obligations.TsetLoadWritesShadowSets : Prop :=
  ∀ (s : State) (id : Nat) (img : List Byte) (x : Entry), s.dev.open? id 0x24 = some x →
    let sets := (List.range 32).filter (bitAt (descField x.desc 16 0 32))
    let pins := descField x.desc 20 0 16
    let p := descTarget x.desc + x.progress / sets.length
    let k := sets.getD (x.progress % sets.length) 0
    let word := fun i => ofBytes ((img.drop (4 * i)).take 4)
    Acts (.tsetLoad id img) s (fun e =>
      ((sets = [] ∨ pins = 0 ∨ 256 < descTarget x.desc + pins) → e.decided id Status.INVALID ∧ s.dev.keepsBut e []) ∧
      (sets ≠ [] → pins ≠ 0 → descTarget x.desc + pins ≤ 256 →
        e.rd .PIN_TS_PERIOD_PERIOD (tsKey p k) = word 0 % 2 ^ Fld.PIN_TS_PERIOD_PERIOD.spec.width ∧
        e.rd .PIN_TS_MODE_FORMAT (tsKey p k) = word 1 % 2 ^ Fld.PIN_TS_MODE_FORMAT.spec.width ∧
        e.rd .PIN_TS_MODE_CMODE (tsKey p k) = bits (word 1) 4 2 ∧ e.rd .PIN_TS_MODE_BURST (tsKey p k) = bits (word 1) 8 1 ∧
        e.rd .PIN_TS_DON_T (tsKey p k) = word 2 % 2 ^ Fld.PIN_TS_DON_T.spec.width ∧
        e.rd .PIN_TS_DDAT_T (tsKey p k) = word 3 % 2 ^ Fld.PIN_TS_DDAT_T.spec.width ∧
        e.rd .PIN_TS_DRET_T (tsKey p k) = word 4 % 2 ^ Fld.PIN_TS_DRET_T.spec.width ∧
        e.rd .PIN_TS_DOFF_T (tsKey p k) = word 5 % 2 ^ Fld.PIN_TS_DOFF_T.spec.width ∧
        e.rd .PIN_TS_SOPEN_T (tsKey p k) = word 6 % 2 ^ Fld.PIN_TS_SOPEN_T.spec.width ∧
        e.rd .PIN_TS_SCLOSE_T (tsKey p k) = word 7 % 2 ^ Fld.PIN_TS_SCLOSE_T.spec.width ∧
        (descField x.desc 22 0 1 = 0 → e.tsPending p k = true ∧ ∀ f i, e.act f i = s.dev.act f i) ∧
        (∀ y, e.entry? id = some y → y.progress = x.progress + 1 ∧ y.started = true ∧
          (y.done = true ↔ x.progress + 1 = pins * sets.length)) ∧
        s.dev.keepsFields e (tsFields ++ [.PIN_TS_PENDING_SET, .PIN_TS_REJECT_VALID, .PIN_TS_REJECT_MORE, .PIN_TS_REJECT_REASON, .PIN_TS_REJECT_SET])) ∧
      s.dev.entriesBut e id)

/-- R30, R192, R355, R356: a PLL that loses lock halts the running sites of its quadrant and deasserts DE there, is started again, and after three
attempts is out of service with its octets. -/
def Obligations.PllLossRestartAndFailure : Prop :=
  (∀ (s : State) (q : Nat), q < 4 → bitAt (s.dev.rd .BR_STATUS_QPLL_READY 0) q = true →
    Acts (.edgePllLockLoss q) s (fun e => bitAt (e.rd .BR_STATUS_QPLL_READY 0) q = false ∧
      (∀ k, k < 4 → k ≠ q → bitAt (e.rd .BR_STATUS_QPLL_READY 0) k = bitAt (s.dev.rd .BR_STATUS_QPLL_READY 0) k) ∧
      (∀ n, n < 64 → s.dev.siteState n = SiteState.RUNNING → (s.dev.quads n).contains q = true →
        e.siteState n = SiteState.DRAINING ∧ (e.site n).cause = some (3, Status.ABORTED_PARTIAL) ∧ ⟨0x208, q, 0, s.dev.cycle⟩ ∈ e.raised ∧
        (∀ p, p < 256 → p / 64 = q → (e.pin p).de = false ∧ (e.pin p).pllLost = true ∧ e.on .PIN_TF_STATUS_PLL_LOSS p = true)) ∧
      (∀ n, n < 64 → (s.dev.quads n).contains q = false → e.siteState n = s.dev.siteState n))) ∧
  (∀ (s : State) (q : Nat), q < 5 → (s.dev.pll q).starting = true →
    Acts (.pllReady q) s (fun e => (e.pll q).starting = false ∧
      (q < 4 → bitAt (e.rd .BR_STATUS_QPLL_READY 0) q = true ∧ ∀ p, p < 256 → p / 64 = q → (e.pin p).pllLost = false) ∧
      (q = 4 → e.on .BR_STATUS_WAVE_READY 0 = true))) ∧
  (∀ (s : State) (q : Nat), q < 5 → (s.dev.pll q).starting = true → (s.dev.pll q).at_ + us 80 ≤ s.dev.now →
    Acts (.pllRestartTimeout q) s (fun e =>
      ((s.dev.pll q).tries < 2 → (e.pll q).starting = true ∧ (e.pll q).tries = (s.dev.pll q).tries + 1 ∧ (e.pll q).at_ = s.dev.now ∧ s.dev.keepsBut e []) ∧
      (2 ≤ (s.dev.pll q).tries → (e.pll q).starting = false ∧ ⟨0x083, q, 0, s.dev.cycle⟩ ∈ e.raised ∧
        (q < 4 → bitAt (e.rd .DEV_UNITS_QPLL_OK 0) q = false ∧ ∀ k, k < 8 → bitAt (e.rd .DEV_UNITS_OCT_OK 0) (8 * q + k) = false) ∧
        (q = 4 → e.rd .DEV_UNITS_WAVE_OK 0 = 0))))

/-- R195, R198 to R201, R205, R221, R223: the strobe of an edge-mode vector that is judged alone: a reading that fails its code counts, and the first fail
of the burst is kept; the next slot follows. -/
def Obligations.StrobeJudgesAndCountsFails : Prop :=
  ∀ (s : State) (p n S : Nat) (reading : List (Bool × Bool)) (unstable : Bool) (x : Exp) (t : List Exp), p < 256 → s.dev.siteOf p = some n →
    s.dev.slotStart n p = some S → (s.dev.csq p).search = none → (s.dev.csq p).exps = x :: t →
    (s.dev.csq p).micro = false → (s.dev.csq p).endNow = false →
    x.slot + s.dev.rd .PIN_CMP_STATUS_OFFSET_NOW p = (s.dev.csq p).nextSlot → x.ctl = [] → x.wordEnd = false → x.cmode = 1 →
    x.acts ∈ [2, 3, 5, 6, 10] → (s.dev.rd .PIN_CMP_STATUS_LSTATE p = 0 ∨ s.dev.rd .PIN_CMP_STATUS_LSTATE p = 3) →
    let close := (S : Int) + x.opens + (s.dev.csq p).fine
    S ≤ s.dev.bed → close ≤ s.dev.bed → (∀ c, (s.dev.csq p).lastClose = some c → c + 1800 ≤ close) →
    let r := readOf (reading.getD 0 (false, false))
    let fails := !passes x.acts r (s.dev.csq p).prevRead && !x.maskf
    let first := fails && !s.dev.on .PIN_FAIL_FIRST_VALID p
    Acts (.strobe p reading unstable) s (fun e =>
      (e.csq p).exps = t ∧ (e.csq p).nextSlot = (s.dev.csq p).nextSlot + 1 ∧ (e.csq p).prevRead = some r ∧ (e.csq p).lastClose = some close ∧
      e.rd .PIN_FAIL_COUNT_COUNT p = (if fails then (s.dev.rd .PIN_FAIL_COUNT_COUNT p + 1) % 2 ^ 48 else s.dev.rd .PIN_FAIL_COUNT_COUNT p) ∧
      (e.site n).fails = (s.dev.site n).fails + b2n fails ∧
      (first = true → e.on .PIN_FAIL_FIRST_VALID p = true ∧ e.rd .PIN_FAIL_FIRST_VCOUNT p = x.vcount % 2 ^ 48 ∧
        e.rd .PIN_FAIL_FIRST_ADDR_SEQADDR p = x.waddr % 2 ^ 32) ∧
      (first = false → e.rd .PIN_FAIL_FIRST_VALID p = s.dev.rd .PIN_FAIL_FIRST_VALID p ∧
        e.rd .PIN_FAIL_FIRST_VCOUNT p = s.dev.rd .PIN_FAIL_FIRST_VCOUNT p) ∧
      (∀ q, q ≠ p → e.csq q = s.dev.csq q ∧ e.rd .PIN_FAIL_COUNT_COUNT q = s.dev.rd .PIN_FAIL_COUNT_COUNT q) ∧
      s.dev.keepsFields e [.PIN_FAIL_COUNT_COUNT, .PIN_FAIL_FIRST_VALID, .PIN_FAIL_FIRST_VCOUNT, .PIN_FAIL_FIRST_ADDR_SEQADDR, .PIN_FAIL_FIRST_TIME_T,
        .PIN_CMP_STATUS_CONTRA, .FR_SITE_DROPPED_RECORDS, .FR_SITE_DROPPED_BLOCKS, .PIN_CAP_COUNT_DROPPED, .RN_PORT_COUNT_FWD])

/-- R214 to R217, R224, R226: a queued fail record moves to its store share, else to the spill region, else is dropped and counted; the oldest closed
capture block moves to the capture region, or is dropped. -/
def Obligations.FailRecordsAndBlocksReachTheirRegions : Prop :=
  (∀ (s : State) (r : FailRec), s.dev.failQ.flatMap (·.2) = [r] → tget (fun _ => []) s.dev.failQ (r.pin / 8) = [r] →
    (s.dev.failSite r.site).run = none →
    let k := s.dev.rd .FR_SITE_RECORDS_COUNT r.site
    Writes .failRecordTransfer s (fun m e => e.failQ.flatMap (·.2) = [] ∧
      (s.dev.frPlace r.site false false = .store → m = s.mem ∧ (e.failSite r.site).store = (s.dev.failSite r.site).store ++ [r.data] ∧
        e.rd .FR_SITE_RECORDS_COUNT r.site = (k + 1) % 2 ^ 48) ∧
      (s.dev.frPlace r.site false false = .spill → (e.failSite r.site).spilled = (s.dev.failSite r.site).spilled + 1 ∧
        m = { s.mem with hbm := writeMem byte0 s.mem.hbm (s.dev.rd .FR_SITE_SPILL_BASE_ADDR r.site * 16 + 16 * (s.dev.failSite r.site).spilled) (bytesOf 16 r.data) } ∧ e.rd .FR_SITE_RECORDS_COUNT r.site = (k + 1) % 2 ^ 48) ∧
      (s.dev.frPlace r.site false false = .none → m = s.mem ∧ (e.failSite r.site).run = some (r.data, 1, r.close) ∧
        (e.site r.site).drops = (s.dev.site r.site).drops + 1 ∧ e.rd .FR_SITE_RECORDS_COUNT r.site = k) ∧
      (∀ j, j ≠ r.site → e.failSite j = s.dev.failSite j) ∧
      s.dev.keepsBut e [(.FR_SITE_RECORDS_COUNT, r.site), (.FR_SITE_DROPPED_RECORDS, r.site)])) ∧
  (∀ (s : State) (b : CapBlock), oldestBlock (s.dev.capQ.flatMap (·.2)) = some b →
    let k := (s.dev.failSite b.site).blocks
    Writes .captureBlockWrite s (fun m e =>
      tget (fun _ => []) e.capQ (b.pin / 8) = (tget (fun _ => []) s.dev.capQ (b.pin / 8)).erase b ∧
      (k < s.dev.rd .FR_SITE_CAP_SIZE_BLOCKS b.site → (e.failSite b.site).blocks = k + 1 ∧ e.rd .FR_SITE_CAPTURED_COUNT b.site = (k + 1) % 2 ^ 48 ∧
        m = { s.mem with hbm := writeMem byte0 s.mem.hbm (s.dev.rd .FR_SITE_CAP_BASE_ADDR b.site * 64 + 64 * k) (bytesOf 64 b.bits_) }) ∧ (s.dev.rd .FR_SITE_CAP_SIZE_BLOCKS b.site ≤ k → m = s.mem ∧ (e.site b.site).drops = (s.dev.site b.site).drops + 1 ∧ (e.csq b.pin).gap = true) ∧
      s.dev.keepsBut e [(.FR_SITE_CAPTURED_COUNT, b.site), (.FR_SITE_DROPPED_BLOCKS, b.site), (.PIN_CAP_COUNT_BLOCKS, b.pin),
        (.PIN_CAP_COUNT_DROPPED, b.pin)]))

/-- R41, R162, R303, R307, R323, R338, R398: the copying descriptors move their next burst and are done with the last; a bad address ends them at once; a
full write queue makes the writes wait. -/
def Obligations.CopiesMoveTheirBursts : Prop :=
  (∀ (s : State) (id op : Nat) (data : List Byte) (c : Instr) (x : Entry) (st : Nat),
    (c, op) ∈ [(Instr.copyIn id data, 0x10), (.copyOut id, 0x11), (.fill id, 0x12)] → s.dev.open? id op = some x → s.dev.copyRefused x = some st →
    Acts c s (fun e => e.decided id st ∧ s.dev.entriesBut e id ∧ s.dev.keepsBut e [])) ∧
  (∀ (s : State) (id op n : Nat) (data : List Byte) (c : Instr) (x : Entry), let bs := data.take (copyLen x - x.progress)
    (c, op, n) ∈ [(Instr.copyIn id data, 0x10, bs.length), (.copyOut id, 0x11, min 64 (copyLen x - x.progress)),
      (.fill id, 0x12, min 64 (copyLen x - x.progress))] →
    s.dev.open? id op = some x → s.dev.copyRefused x = none → n ≠ 0 →
    let src := descField x.desc 8 0 64 + x.progress
    let dst := descField x.desc 16 0 64 + x.progress
    let full := op = 0x10 ∧ descField x.desc 28 0 2 = 0 ∧ s.dev.writeFull dst = true ∨ op = 0x12 ∧ s.dev.writeFull src = true
    ¬full →
    Writes c s (fun m e =>
      (∀ y, e.entry? id = some y → y.progress = x.progress + n ∧ y.result = (x.progress + n) * 2 ^ 96 ∧ y.started = true ∧
        (y.done = true ↔ x.progress + n = copyLen x)) ∧
      s.dev.entriesBut e id ∧ s.dev.keepsBut e [] ∧
      (op = 0x10 → m = if descField x.desc 28 0 2 = 0 then { s.mem with hbm := writeMem byte0 s.mem.hbm dst bs }
        else if descField x.desc 28 0 2 = 1 then { s.mem with vlb := writeMem byte0 s.mem.vlb (descTarget x.desc * 131072 + dst) bs }
        else { s.mem with ents := writeMem byte0 s.mem.ents (descTarget x.desc * 2048 + dst) bs }) ∧
      (op = 0x11 → m = if s.dev.follows then s.mem else { s.mem with host := writeMem byte0 s.mem.host dst (readMem byte0 s.mem.hbm src n) }) ∧ (op = 0x12 → m = { s.mem with hbm := writeMem byte0 s.mem.hbm src ((List.range (n / 8)).flatMap (fun _ => bytesOf 8 (descField x.desc 24 0 64))) }))) ∧
  (∀ (s : State) (id op : Nat) (data : List Byte) (c : Instr) (x : Entry), (c, op) ∈ [(Instr.copyIn id data, 0x10), (.fill id, 0x12)] →
    s.dev.open? id op = some x → s.dev.copyRefused x = none →
    (op = 0x10 ∧ descField x.desc 28 0 2 = 0 ∧ s.dev.writeFull (descField x.desc 16 0 64 + x.progress) = true ∨
      op = 0x12 ∧ s.dev.writeFull (descField x.desc 8 0 64 + x.progress) = true) →
    Acts c s (fun e => e.tracker = s.dev.tracker ∧ e.pcs = s.dev.pcs ∧ s.dev.keepsBut e []))

/-- R220, R227, R228, R307: a fetch whose turn has come copies its next record or block to host memory and counts it. -/
def Obligations.FetchesCopyRecordsAndBlocks : Prop :=
  (∀ (s : State) (id err : Nat) (x : Entry), s.dev.open? id 0x40 = some x → s.dev.fetchGo x = true → descField x.desc 16 0 32 ≠ 0 →
    let F := s.dev.failSite (descTarget x.desc)
    let total := F.store.length + F.spilled
    let i := descField x.desc 8 0 64 + x.progress
    let dst := descField x.desc 24 0 64 + 16 * x.progress
    i < total → s.dev.follows = false →
    Writes (.failFetch id err) s (fun m e =>
      (∀ y, e.entry? id = some y → y.progress = x.progress + 1 ∧ y.started = true ∧
        (y.done = true ↔ x.stopping = true ∧ 4 ∣ x.progress + 1 ∨ x.progress + 1 = min (descField x.desc 16 0 32) (total - descField x.desc 8 0 64))) ∧
      (∀ r, F.store[i]? = some r →
        m = { s.mem with host := writeMem byte0 s.mem.host dst (bytesOf 16 (if err = 2 then damaged (descTarget x.desc) else r)) } ∧ (err = 2 → e.on .FR_STATUS_UE 0 = true) ∧ (err = 1 → e.on .FR_STATUS_CE 0 = true)) ∧
      (F.store[i]? = none → m = { s.mem with host := writeMem byte0 s.mem.host dst (readMem byte0 s.mem.hbm (s.dev.rd .FR_SITE_SPILL_BASE_ADDR (descTarget x.desc) * 16 + 16 * (i - F.store.length)) 16) }) ∧
      s.dev.entriesBut e id ∧ s.dev.keepsBut e [(.FR_STATUS_CE, 0), (.FR_STATUS_UE, 0)])) ∧
  (∀ (s : State) (id : Nat) (x : Entry), s.dev.open? id 0x41 = some x → s.dev.localMode = false → s.dev.fetchGo x = true →
    descField x.desc 16 0 32 ≠ 0 →
    let total := (s.dev.failSite (descTarget x.desc)).blocks
    let i := descField x.desc 8 0 64 + x.progress
    i < total → s.dev.follows = false →
    Writes (.captureFetch id) s (fun m e =>
      (∀ y, e.entry? id = some y → y.progress = x.progress + 1 ∧ y.started = true ∧
        (y.done = true ↔ x.stopping = true ∧ 4 ∣ x.progress + 1 ∨ x.progress + 1 = min (descField x.desc 16 0 32) (total - descField x.desc 8 0 64))) ∧
      m = { s.mem with host := writeMem byte0 s.mem.host (descField x.desc 24 0 64 + 64 * x.progress) (readMem byte0 s.mem.hbm (s.dev.rd .FR_SITE_CAP_BASE_ADDR (descTarget x.desc) * 64 + 64 * i) 64) } ∧
      s.dev.entriesBut e id ∧ s.dev.keepsBut e []))

/-- R230, R238, R239, R240, R249: a MEASURE is refused by its checks or opens its job; the job arms at its arm time, and where its arm does not come in
time ends with TIMEOUT and a summary. -/
def Obligations.MeasureOpensArmsAndTimesOut : Prop :=
  (∀ (s : State) (id : Nat) (x : Entry), s.dev.open? id 0x30 = some x → x.begun = false →
    let J := jobSpec x
    let down := (J.hbm && s.dev.localMode) || J.inputs.any s.dev.inpDown ||
      J.inputs.any (fun i => !s.dev.octOk (i / 2) || !bitAt (s.dev.rd .DEV_UNITS_QPLL_OK 0) (i / 128))
    let late := J.arm == 1 && decide (s.dev.fullTime J.armTime < x.born + ns 500)
    let waits := J.inputs.any s.dev.inpBusy || J.inputs.any s.dev.calHolds || s.dev.measureAhead x J ||
      (J.kind == 5 && decide (32 ≤ s.dev.rd .TM_STATUS_HISTS 0))
    Acts (.measure id) s (fun e => s.dev.entriesBut e id ∧
      (s.dev.jobInvalid J = true → e.decided id Status.INVALID) ∧
      (s.dev.jobInvalid J = false → down = true → e.decided id Status.UNIT_DOWN) ∧
      (s.dev.jobInvalid J = false → down = false → late = true → e.decided id Status.LATE_START) ∧
      (s.dev.jobInvalid J = false → down = false → late = false → waits = true → e = s.dev) ∧
      (s.dev.jobInvalid J = false → down = false → late = false → waits = false →
        e.entry? id = some { x with begun := true } ∧ (∃ j, e.tmu.jobs = s.dev.tmu.jobs ++ [j] ∧ j.e = id ∧ j.inputs = J.inputs ∧ j.arm = none) ∧
        e.rd .TM_STATUS_JOBS 0 = (s.dev.rd .TM_STATUS_JOBS 0 + 1) % 2 ^ Fld.TM_STATUS_JOBS.spec.width ∧
        (∀ i, i ∈ J.inputs → e.on (inpFld .PIN_TM_STATUS_CH_BUSY .PIN_TM_STATUS_CL_BUSY i) (i / 2) = true ∧
          e.rd (inpFld .PIN_TM_SEQ_CH_SEQ .PIN_TM_SEQ_CL_SEQ i) (i / 2) = 0)) ∧
      s.dev.keepsFields e [.TM_STATUS_JOBS, .TM_STATUS_HISTS, .PIN_TM_STATUS_CH_BUSY, .PIN_TM_STATUS_CL_BUSY, .PIN_TM_SEQ_CH_SEQ, .PIN_TM_SEQ_CL_SEQ])) ∧
  (∀ (s : State) (id t : Nat) (x : Entry) (j : Job), s.dev.open? id 0x30 = some x → s.dev.job? id = some j → j.arm = none → j.stop = none →
    j.waitPll = false → s.dev.armOf x (jobSpec x) j = some t → max t j.floor ≤ s.dev.bed →
    Acts (.jobArm id) s (fun e => (∃ k, e.job? id = some k ∧ k.arm = some (max t j.floor) ∧ k.inputs = j.inputs) ∧
      e.entry? id = some { x with begun := true, started := true } ∧ s.dev.entriesBut e id ∧ s.dev.keepsFields e [.PIN_TM_STATUS_LOST])) ∧
  (∀ (s : State) (id : Nat) (x : Entry) (j : Job), s.dev.open? id 0x30 = some x → s.dev.job? id = some j → j.arm = none → j.stop = none →
    (jobSpec x).tmo ≠ 0 → x.born + ms (jobSpec x).tmo ≤ s.dev.bed →
    Writes (.jobArmTimeout id) s (fun m e => e.decided id Status.TIMEOUT ∧ e.tmu.jobs = s.dev.tmu.jobs.filter (fun k => k.e != j.e) ∧
      ⟨0x284, (jobSpec x).aIn, 0, s.dev.cycle⟩ ∈ e.raised ∧ s.dev.entriesBut e id ∧
      (∃ sum body : List Byte, sum.length = 64 ∧ m = (if (jobSpec x).hbm then
          { s.mem with hbm := writeMem byte0 (writeMem byte0 s.mem.hbm ((jobSpec x).dest + 64) body) (jobSpec x).dest sum }
        else { s.mem with host := writeMem byte0 (writeMem byte0 s.mem.host ((jobSpec x).dest + 64) body) (jobSpec x).dest sum }) ∧
        ((jobSpec x).kind ≠ 5 → body = []))))

/-- R229 to R233, R235, R242 to R247: an edge that a job detects is stamped with its time, by the tap table and the path correction of its input, and its
sequence count, and takes its place in the order of T; behind the end of the job or of its burst it is not used; at the job's end its record stands at
its destination and its inputs are free. -/
def Obligations.EdgesAreStampedAndJobsWriteTheirRecord : Prop :=
  (∀ (s : State) (i raw : Nat) (rise : Bool) (x : Entry) (j : Job) (tap path : Int), i < 512 →
    s.dev.tmu.jobs.find? (fun j => j.inputs.contains i) = some j → s.dev.open? j.e 0x30 = some x → s.dev.pllOk (i / 2) = true →
    s.dev.inpCap i = false → (s.dev.calUnit 1 i).taps[raw % 288]? = some tap → (s.dev.calUnit 1 i).path = some path →
    (jobSpec x).kind ≠ 0 → (jobSpec x).count = 0 →
    let t := ((((2 * (s.dev.bed / cycleTicks) + raw / 288 % 2) * 8192 : Nat) : Int) + tap + path).toNat
    let f := inpFld .PIN_TM_SEQ_CH_SEQ .PIN_TM_SEQ_CL_SEQ i
    let J := if (jobSpec x).arm = 4 then { j with sels := j.sels ++ s.dev.stampsDue ((jobSpec x).aIn / 2) } else j
    let seen := J.detects (jobSpec x) ⟨t, i, !rise, false, 0, false⟩
    Acts (.qualifyingEdge i rise raw) s (fun e =>
      ((seen = false ∨ t + 1 < tget (fun _ => 0) s.dev.tmu.lastEdge i + cycleTicks) → e = s.dev) ∧
      (seen = true → tget (fun _ => 0) s.dev.tmu.lastEdge i + cycleTicks ≤ t + 1 →
        e.tmu.jobs = (if j.mayUse t = false ∨ s.dev.afterBurst (jobSpec x) j t = true then s.dev.tmu.jobs else s.dev.tmu.jobs.map (fun k =>
          if k.e = j.e then { k with edges := insertBy Stamp.upTo ⟨t, i, !rise, false, s.dev.rd f (i / 2), false⟩ j.edges } else k)) ∧
        e.rd f (i / 2) = (s.dev.rd f (i / 2) + 1) % 2 ^ 32 ∧ tget (fun _ => 0) e.tmu.lastEdge i = t + 1 ∧ s.dev.keepsBut e [(f, i / 2)]))) ∧
  (∀ (s : State) (id t code st : Nat) (x : Entry) (j : Job), s.dev.open? id 0x30 = some x → s.dev.job? id = some j → j.stop = some (t, code, st) →
    t ≤ s.dev.bed →
    let J := jobSpec x
    Writes (.jobEnd id) s (fun m e =>
      (∃ sum body : List Byte, sum.length = 64 ∧ m = (if J.hbm then
          { s.mem with hbm := writeMem byte0 (writeMem byte0 s.mem.hbm (J.dest + 64) body) J.dest sum }
        else { s.mem with host := writeMem byte0 (writeMem byte0 s.mem.host (J.dest + 64) body) J.dest sum }) ∧
        (J.kind = 0 → body = stampBytes J (j.pool J)) ∧
        (J.kind = 5 → body = (List.range 4096).flatMap (fun k => bytesOf 4 (binCount J (s.dev.formed J (j.pool J)).vals k))) ∧
        (J.kind ≠ 0 → J.kind ≠ 5 → body = [])) ∧
      (J.kind ≠ 6 → e.decided id st) ∧ e.tmu.jobs = s.dev.tmu.jobs.filter (fun k => k.e != j.e) ∧ s.dev.entriesBut e id ∧
      s.dev.keepsFields e [.TM_STATUS_JOBS, .TM_STATUS_HISTS, .PIN_TM_STATUS_CH_BUSY, .PIN_TM_STATUS_CL_BUSY, .PIN_TM_STATUS_LOST,
        .PIN_TM_STATUS_CH_ROUTED, .PIN_TM_STATUS_CL_ROUTED, .PIN_TM_STATUS_CH_DOWN, .PIN_TM_STATUS_CL_DOWN, .TM_CTDC_ROUTE_VALID,
        .TM_CTDC_ROUTE_INPUT, .TM_CTDC_ROUTE_PIN]))

/-- R253, R255, R267, R290: a WAVE_PLAY ends as INVALID, UNIT_DOWN or BAD_STREAM, waits for its channel, or prepares it; a prepared play starts at once,
waits for its time or its trigger, or is too late. R257, R259, R264, R265: a play starts at its start point with its tone group moved; a jump request
is made, sets the latch, merges or marks the tone; WP moves a stream on or is refused. -/
def Obligations.WavePlaysPrepareStartAndJump : Prop :=
  ((∀ (s : State) (id : Nat) (x : Entry), s.dev.open? id 0x38 = some x → x.begun = false →
    let w := descTarget x.desc
    let mode := descField x.desc 16 0 2
    let l := if mode = 0 then Dev.wtable s.mem s.dev w else []
    let first := descField x.desc 16 4 12
    let down := s.dev.wvState w = WvState.OFF ∨ s.dev.wvOk w = false ∨ (s.dev.localMode = true ∧ mode ≠ 1)
    let free := s.dev.wvState w = WvState.IDLE ∧ s.dev.playAhead x = false
    let bad := mode = 0 ∧ s.dev.tableBad l first = true
    Acts (.wavePlay id) s (fun e => s.dev.entriesBut e id ∧ (∀ v, v ≠ w → e.wave v = s.dev.wave v) ∧
      (mode = 3 → e.decided id Status.INVALID) ∧
      (mode ≠ 3 → down → e.decided id Status.UNIT_DOWN) ∧
      (mode ≠ 3 → ¬ down → ¬ free → e = s.dev) ∧
      (¬ down → free → bad → e.decided id Status.BAD_STREAM ∧ e.on .WV_STATUS_BAD_ENTRY w = true ∧
        e.raised = s.dev.raised ++ [⟨0x2C0, w, 0, s.dev.cycle⟩] ∧ e.wave w = s.dev.wave w ∧ s.dev.keepsBut e [(.WV_STATUS_BAD_ENTRY, w)]) ∧
      (mode ≠ 3 → ¬ down → free → ¬ bad → s.dev.playInvalid w mode l = true → e.decided id Status.INVALID ∧ e.wave w = s.dev.wave w) ∧
      (mode ≠ 3 → ¬ down → free → ¬ bad → s.dev.playInvalid w mode l = false →
        e.wvState w = WvState.PREPARING ∧ e.entry? id = some { x with begun := true, started := true } ∧ (e.wave w).play = some id ∧
        (e.wave w).mode = mode ∧ (e.wave w).ents = l ∧ (e.wave w).ent = first ∧ (e.wave w).start = none ∧
        (e.wave w).out = (s.dev.wave w).out ∧ e.rd .WV_STATUS_ENTRY w = (if mode = 0 then first else 0) ∧ e.rd .WV_STATUS_MERGED w = 0) ∧
      s.dev.keepsFields e [.WV_STATUS_STATE, .WV_STATUS_ENTRY, .WV_STATUS_MERGED, .WV_STATUS_BAD_ENTRY, .WV_STREAM_RP_RP, .MC_CTRL_OPPOINT,
        .MC_STATUS_OP_PENDING])) ∧
  (∀ (s : State) (w : Nat) (x : Entry), w < 8 → s.dev.wvState w = WvState.PREPARING → (s.dev.wave w).play = some x.id →
    s.dev.entry? x.id = some x → x.done = false → (s.dev.wave w).start = none → s.dev.wvAwake w = true →
    let mode := descField x.desc 16 2 2
    let t := s.dev.fullTime (descField x.desc 8 0 64)
    Acts (.wavePreparationComplete w) s (fun e =>
      (mode = 0 → e.wvState w = WvState.PREPARING ∧ (e.wave w).start = some (pointAfter (s.dev.bed + ns 200))) ∧
      (mode = 1 → t < s.dev.bed + ns 200 → e.wvState w = WvState.IDLE ∧ e.decided x.id Status.LATE_START ∧ (e.wave w).play = none) ∧
      (mode = 1 → s.dev.bed + ns 200 ≤ t → e.wvState w = WvState.ARMED ∧ (e.wave w).start = some (pointAfter t)) ∧
      (2 ≤ mode → e.wvState w = WvState.ARMED ∧ (e.wave w).start = none ∧ (e.wave w).armNo = s.dev.sigNo) ∧
      (∀ v, v ≠ w → e.wave v = s.dev.wave v) ∧ s.dev.keepsBut e [(.WV_STATUS_STATE, w), (.WV_STATUS_JUMP_PENDING, w)]))) ∧
  ((∀ (s : State) (w t : Nat) (x : Entry), w < 8 → (s.dev.wvState w = WvState.PREPARING ∨ s.dev.wvState w = WvState.ARMED) →
    (s.dev.wave w).play = some x.id → s.dev.entry? x.id = some x → (s.dev.wave w).start = some t → t < s.dev.bed + cycleTicks →
    Acts (.waveStart w) s (fun e =>
      e.wvState w = WvState.PLAYING ∧ e.rd .WV_START_TIME_T w = t % 2 ^ Fld.WV_START_TIME_T.spec.width ∧ e.on .WV_STATUS_JUMP_PENDING w = false ∧
      e.entry? x.id = some { x with begun := true, started := true, touched := true } ∧ s.dev.entriesBut e x.id ∧
      (e.wave w).latch = false ∧ (e.wave w).acc = 0 ∧ (e.wave w).reqs = (s.dev.wave w).reqs ∧ (e.wave w).start = some t ∧
      (s.dev.cycNow.staged = [] → s.dev.on .WV_STATUS_TONE_PENDING w = true → (∀ f, f ∈ toneFields → e.act f w = s.dev.rd f w) ∧ e.on .WV_STATUS_TONE_PENDING w = false) ∧
      (∀ v, v ≠ w → e.wave v = s.dev.wave v) ∧
      (s.dev.cycNow.staged = [] →
        s.dev.keepsBut e [(.WV_STATUS_STATE, w), (.WV_START_TIME_T, w), (.WV_STATUS_JUMP_PENDING, w), (.WV_STATUS_TONE_PENDING, w)]))) ∧
  (∀ (s : State) (w : Nat) (v : Word), w < 8 → s.dev.hostReady = true →
    Acts (.wvJump w v) s (fun e => if bitAt v.toNat 0 = true then
        (e.wave w).reqs = (s.dev.wave w).reqs ++ [pointAfter (s.dev.bed / cycleTicks * cycleTicks + ns 16)] ∧
        (e.wave w).latch = (s.dev.wave w).latch ∧ (∀ u, u ≠ w → e.wave u = s.dev.wave u) ∧ s.dev.keepsBut e []
      else e = s.dev.reached)) ∧
  (∀ (s : State) (w P : Nat), w < 8 → (s.dev.wave w).reqs.min? = some P → P < s.dev.bed + cycleTicks →
    (s.dev.wvState w = WvState.PLAYING ∨ ∀ t, (s.dev.wave w).start = some t → P < t) →
    let mode := if (s.dev.wave w).play = none then 0 else (s.dev.wave w).mode
    let early := s.dev.wvState w = WvState.PLAYING ∧ P < (s.dev.wave w).start.getD 0
    Acts (.jumpRequest w) s (fun e => (e.wave w).reqs = (s.dev.wave w).reqs.erase P ∧ (∀ u, u ≠ w → e.wave u = s.dev.wave u) ∧
      (mode = 0 → early → (e.wave w).latch = (s.dev.wave w).latch ∧ s.dev.keepsBut e []) ∧
      (mode = 0 → ¬ early → (e.wave w).latch = true ∧
        ((s.dev.wave w).latch = false → e.on .WV_STATUS_JUMP_PENDING w = true ∧ s.dev.keepsBut e [(.WV_STATUS_JUMP_PENDING, w)]) ∧
        ((s.dev.wave w).latch = true → s.dev.keepsBut e [(.WV_STATUS_MERGED, w)] ∧
          e.rd .WV_STATUS_MERGED w = min (s.dev.rd .WV_STATUS_MERGED w + 1) (2 ^ Fld.WV_STATUS_MERGED.spec.width - 1))) ∧
      (mode = 1 → s.dev.keepsBut e [] ∧ (e.wave w).toneAt =
        (if s.dev.wvState w = WvState.PLAYING ∧ (s.dev.wave w).start.getD 0 ≤ P ∧ s.dev.on .WV_STATUS_TONE_PENDING w = true ∧ (s.dev.wave w).toneAt = none then some P else (s.dev.wave w).toneAt)) ∧
      (2 ≤ mode → s.dev.keepsBut e [] ∧ (e.wave w).latch = (s.dev.wave w).latch))) ∧
  (∀ (s : State) (w : Nat) (v : Word), w < 8 → s.dev.hostReady = true →
    let p := v.toNat % 2 ^ 32
    Acts (.wvStreamWp w v) s (fun e => (∀ u, u ≠ w → e.wave u = s.dev.wave u) ∧
      (s.dev.rd .WV_STREAM_SIZE_GRANULES w ≤ p → e.on .WV_STATUS_WP_RANGE w = true ∧ e.raised = s.dev.raised ++ [⟨0x2C5, w, 0, s.dev.cycle⟩] ∧
        e.wave w = s.dev.wave w ∧ s.dev.keepsBut e [(.WV_STATUS_WP_RANGE, w)]) ∧
      (p < s.dev.rd .WV_STREAM_SIZE_GRANULES w → e.rd .WV_STREAM_WP_WP w = p % 2 ^ Fld.WV_STREAM_WP_WP.spec.width ∧ e.raised = s.dev.raised ∧
        s.dev.keepsBut e [(.WV_STREAM_WP_WP, w), (.WV_STREAM_RP_RP, w)] ∧
        (s.dev.wvRunning w = false ∨ (s.dev.wave w).mode ≠ 2 → e.wave w = s.dev.wave w ∧ e.rd .WV_STREAM_RP_RP w = s.dev.rd .WV_STREAM_RP_RP w) ∧
        (s.dev.wvRunning w = true → (s.dev.wave w).mode = 2 →
          e.rd .WV_STREAM_RP_RP w = e.rd .WV_STREAM_WP_WP w ∨ 4096 ≤ (e.wave w).fifo.length)))))

/-- R250, R252, R256, R258, R263, R272, R283: at a sample point each channel that plays drives its next sample, a tone the rounded and clipped code of its
accumulator, and each enabled ADC's sample joins its history; before the point nothing happens. R268, R269, R270, R285: WAVE_STOP withdraws what has
not started and asks a play to stop; a play parks at its boundary with its status; a lost wave PLL takes every channel to OFF at mid-code and the DACs
are disabled 1 µs later. -/
def Obligations.SamplePointsPlayAndWaveStopsPark : Prop :=
  ((∀ (s : State) (adc : List Int) (cmp : List Nat), s.dev.on .BR_STATUS_WAVE_READY 0 = true → s.dev.nextPoint < s.dev.bed + cycleTicks →
    let P := s.dev.nextPoint
    Writes (.samplePoint adc cmp) s (fun _ e => e.sampleAt = P + 1 ∧ (∀ w, w < 8 →
      (s.dev.wvOk w = true → s.dev.on .WV_CTRL_ADC_EN w = true →
        (e.wave w).hist = (clampInt (-2048) 2047 (adc.getD w 0) :: (s.dev.wave w).hist).take 1048576 ∧ (e.wave w).histAt = P ∧
        (e.on .WV_STATUS_OVERRANGE w = true ↔ s.dev.on .WV_STATUS_OVERRANGE w = true ∨ adc.getD w 0 ≤ -2048 ∨ 2047 ≤ adc.getD w 0)) ∧
      (s.dev.on .WV_CTRL_ADC_EN w = false → (e.wave w).hist = (s.dev.wave w).hist) ∧
      (s.dev.wvState w = WvState.PLAYING → (s.dev.wave w).start.getD 0 ≤ P → (s.dev.wave w).atPark = false → (s.dev.wave w).mode = 1 →
        (s.dev.wave w).toneAt = none →
        let c := toneCode (s.dev.act .WV_TONE_LEVEL_AMP w) (s.dev.act .WV_TONE_PHASE_PHASE w) (sgn 12 (s.dev.act .WV_TONE_LEVEL_OFFSET w))
          (s.dev.wave w).acc
        (e.wave w).out = clampInt (-2048) 2047 c ∧ (e.wave w).acc = ((s.dev.wave w).acc + s.dev.act .WV_TONE_FTW_FTW w) % 2 ^ 48 ∧
        (e.on .WV_STATUS_CLIPPED w = true ↔ s.dev.on .WV_STATUS_CLIPPED w = true ∨ c < -2048 ∨ 2047 < c)) ∧
      (s.dev.wvState w = WvState.PLAYING → (s.dev.wave w).start.getD 0 ≤ P → (s.dev.wave w).atPark = false → (s.dev.wave w).mode = 0 →
        (s.dev.wave w).k % 64 ≠ 0 → (s.dev.wave w).k < 64 * ((s.dev.wave w).entry (s.dev.wave w).ent).len →
        (e.wave w).out = sgn 12 (bits ((s.dev.wave w).cur.getD ((s.dev.wave w).k % 64) 0) 4 12) ∧ (e.wave w).n = (s.dev.wave w).n + 1) ∧
      ((s.dev.wvState w ≠ WvState.PLAYING ∨ P < (s.dev.wave w).start.getD 0) → (e.wave w).out = (s.dev.wave w).out ∧ e.wvState w = s.dev.wvState w)))) ∧
  (∀ (s : State) (adc : List Int) (cmp : List Nat), (s.dev.on .BR_STATUS_WAVE_READY 0 = false ∨ s.dev.bed + cycleTicks ≤ s.dev.nextPoint) →
    Acts (.samplePoint adc cmp) s (fun e => e = s.dev))) ∧
  ((∀ (s : State) (id : Nat) (x : Entry), s.dev.open? id 0x39 = some x → x.begun = false →
    let w := descTarget x.desc
    (s.dev.wave w).play ≠ some id →
    Acts (.waveStop id) s (fun e =>
      (∀ k y, k < id → s.dev.entry? k = some y → descOp y.desc = 0x38 → descTarget y.desc = w → y.done = false → y.begun = false →
        e.decided k Status.WITHDRAWN) ∧
      (s.dev.wvState w = WvState.PLAYING → e.entry? id = some { x with begun := true, started := true, touched := true } ∧
        (e.wave w).stops = (s.dev.wave w).stops ++ [id] ∧ e.wvState w = WvState.PLAYING ∧ (e.wave w).stopMode.isSome = true ∧
        ((s.dev.wave w).stopMode = none → (s.dev.wave w).mode = 0 → (e.wave w).stopMode = some (descField x.desc 8 0 1)) ∧ s.dev.keepsBut e []) ∧
      (s.dev.wvRunning w = true → s.dev.wvState w ≠ WvState.PLAYING → e.wvState w = WvState.IDLE ∧ e.decided id Status.OK ∧ (e.wave w).play = none ∧
        (∀ p z, (s.dev.wave w).play = some p → s.dev.entry? p = some z → z.done = false → e.decided p Status.WITHDRAWN)) ∧
      (s.dev.wvRunning w = false → e.decided id Status.OK ∧ e.waves = s.dev.waves ∧ s.dev.keepsBut e []))) ∧
  (∀ (s : State) (w p : Nat) (z : Entry), w < 8 → s.dev.wvState w = WvState.PLAYING → (s.dev.wave w).atPark = true → (s.dev.wave w).play = some p →
    s.dev.entry? p = some z → z.done = false →
    Acts (.wavePark w) s (fun e => e.wvState w = WvState.IDLE ∧ (e.wave w).play = none ∧ (e.wave w).mark = false ∧
      (e.wave w).out = (if s.dev.on .WV_CTRL_PARK w = true then 0 else (s.dev.wave w).out) ∧
      e.decided p (if (s.dev.wave w).ended = false ∧ (s.dev.wave w).stopMode = some 2 then Status.ABORTED_PARTIAL else Status.OK) ∧
      (∀ q y, q ∈ (s.dev.wave w).stops → q ≠ p → s.dev.entry? q = some y → y.done = false → e.decided q Status.OK) ∧
      (∀ u, u ≠ w → e.wave u = s.dev.wave u) ∧ s.dev.keepsFields e [.WV_STATUS_STATE, .WV_STATUS_JUMP_PENDING, .RN_PORT_COUNT_FWD])) ∧
  (∀ s : State, s.dev.on .BR_STATUS_WAVE_READY 0 = true →
    Acts .wavePllLockLoss s (fun e => e.on .BR_STATUS_WAVE_READY 0 = false ∧ ⟨0x2C4, 0, 0, s.dev.cycle⟩ ∈ e.raised ∧
      ((∃ w, w < 8 ∧ s.dev.wvOk w = true ∧ (s.dev.on .WV_CTRL_DAC_EN w = true ∨ s.dev.on .WV_CTRL_ADC_EN w = true)) →
        s.dev.on .FC_STATE_SAFE 0 = false → (e.pll 4).starting = true) ∧
      (∀ w, w < 8 → e.wvState w = WvState.OFF ∧ (e.wave w).out = 0 ∧ (e.wave w).hist = [] ∧ e.on .WV_STATUS_PLL_LOSS w = true ∧
        ((s.dev.wave w).dacOn = true → (e.wave w).offAt = some (pointAfter s.dev.bed + us 1)) ∧
        (∀ a, s.dev.acq w = some a → a.stop = none → e.acq w = some { a with stop := some (3, Status.UNIT_DOWN) }) ∧
        (∀ p z, s.dev.wvRunning w = true → (s.dev.wave w).play = some p → s.dev.entry? p = some z → z.done = false →
          (∀ v, v < 8 → v ≠ w → (s.dev.wave v).play ≠ some p ∧ p ∉ (s.dev.wave v).stops) → e.decided p Status.UNIT_DOWN)))) ∧
  (∀ s : State, Acts .dacDisable s (fun e => s.dev.keepsBut e [] ∧ (∀ w, w < 8 →
    ((∃ t, (s.dev.wave w).offAt = some t ∧ t ≤ s.dev.bed) → (e.wave w).dacOn = false ∧ (e.wave w).offAt = none ∧ (e.wave w).out = (s.dev.wave w).out) ∧
    ((s.dev.wave w).offAt = none ∨ (∃ t, (s.dev.wave w).offAt = some t ∧ s.dev.bed < t) → e.wave w = s.dev.wave w)))))

/-- R20, R271, R273, R274, R276: enabling a slot takes its configuration, arms it and starts its counts again; ARM arms a SINGLE slot; TA_FORCE makes an
event of each live SOFT slot named. R275 to R280: an armed slot fires on its event of the earliest sample outside a holdoff, one in a holdoff is
counted, one of an unarmed slot is lost; the first unforced firing from a site's start on posts its TRIG condition; the auto timer forces a firing,
which acts on nothing else. R281, R282, R284, R285: an ACQUIRE is refused by its checks, waits for its channel or opens; it arms at its arm point and
starts, re-arming SINGLE slots where it asks; its end and its timeout write the header, complete it and free the channel. -/
def Obligations.SlotsFireAndAcquisitionsRun : Prop :=
  ((∀ (s : State) (k : Nat) (v : Word), k < 16 → s.dev.hostReady = true → s.dev.on .TA_SLOT_CTRL_EN k = false →
    Acts (.slotEnable k v) s (fun e => e.on .TA_SLOT_CTRL_EN k = true ∧ e.rd .TA_SLOT_CTRL_MODE k = bits v.toNat 26 2 ∧
      e.rd .TA_SLOT_CTRL_SRC k = bits v.toNat 22 4 ∧ e.rd .TA_SLOT_CTRL_COND k = bits v.toNat 20 2 ∧ e.rd .TA_SLOT_CTRL_EDGE k = bits v.toNat 18 2 ∧
      e.rd .TA_SLOT_CTRL_SEL k = bits v.toNat 0 14 ∧ e.rd .TA_SLOT_CTRL_FWD k = bits v.toNat 29 1 ∧
      e.rd .TA_SLOT_STATUS_SEQ k = 0 ∧ e.rd .TA_SLOT_STATUS_HELDOFF k = 0 ∧ e.on .TA_SLOT_STATUS_ARMED k = true ∧
      (e.on .TA_SLOT_STATUS_BADCFG k = true ↔ e.badSlot k = true) ∧ (e.slot k).evs = [] ∧ (e.slot k).fires = [] ∧
      (e.slot k).autoAt = s.dev.bed ∧ (∀ j, j ≠ k → e.slot j = s.dev.slot j) ∧
      s.dev.keepsBut e [(.TA_SLOT_CTRL_EN, k), (.TA_SLOT_CTRL_FWD, k), (.TA_SLOT_CTRL_MODE, k), (.TA_SLOT_CTRL_SRC, k), (.TA_SLOT_CTRL_COND, k),
        (.TA_SLOT_CTRL_EDGE, k), (.TA_SLOT_CTRL_SEL, k), (.TA_SLOT_STATUS_SEQ, k), (.TA_SLOT_STATUS_HELDOFF, k), (.TA_SLOT_STATUS_ARMED, k),
        (.TA_SLOT_STATUS_BADCFG, k)])) ∧
  (∀ (s : State) (k : Nat) (v : Word), k < 16 → s.dev.hostReady = true → s.dev.on .TA_SLOT_CTRL_EN k = true → s.dev.on .FC_STATE_SAFE 0 = false →
    Acts (.slotArm k v) s (fun e => (s.dev.rd .TA_SLOT_CTRL_MODE k = 2 → e.on .TA_SLOT_STATUS_ARMED k = true) ∧
      (s.dev.rd .TA_SLOT_CTRL_MODE k ≠ 2 → e.rd .TA_SLOT_STATUS_ARMED k = s.dev.rd .TA_SLOT_STATUS_ARMED k) ∧
      e.on .TA_SLOT_CTRL_EN k = bitAt v.toNat 31 ∧ e.slots = s.dev.slots ∧
      (bitAt v.toNat 31 = false ∨ s.dev.badSlot k = false → e.rd .TA_SLOT_STATUS_BADCFG k = s.dev.rd .TA_SLOT_STATUS_BADCFG k) ∧
      s.dev.keepsBut e [(.TA_SLOT_CTRL_EN, k), (.TA_SLOT_STATUS_BADCFG, k), (.TA_SLOT_STATUS_ARMED, k), (.DEV_REFUSED_VALID, 0), (.DEV_REFUSED_MORE, 0), (.DEV_REFUSED_KIND, 0),
        (.DEV_REFUSED_ADDR, 0)])) ∧
  (∀ (s : State) (v : Word), s.dev.hostReady = true →
    Acts (.taForce v) s (fun e => s.dev.keepsBut e [] ∧ (∀ k, k < 16 →
      let n := pointAfter (s.dev.bed / cycleTicks * cycleTicks)
      if bitAt v.toNat k = true ∧ s.dev.slotLive k = true ∧ s.dev.rd .TA_SLOT_CTRL_SRC k = 7 then
        (e.slot k).evs = (s.dev.slot k).evs ++ [⟨n, n, false, false, false⟩] ∧ (e.slot k).fires = (s.dev.slot k).fires
      else e.slot k = s.dev.slot k)))) ∧
  ((∀ (s : State) (k : Nat) (ev : TrigEv) (S : Slot), k < 16 → s.dev.slotLive k = true → s.dev.nextEvent k = some (ev, S) →
    ev.n < s.dev.bed + cycleTicks →
    let seq := (s.dev.rd .TA_SLOT_STATUS_SEQ k + 1) % 2 ^ 32
    let co := (List.range k).any (fun j => (s.dev.slot j).firedIn ev.n)
    Acts (.firing k) s (fun e => (e.slot k).evs = (s.dev.slotHears k).evs.erase ev ∧ (∀ y, y ∈ (s.dev.slotHears k).evs → ev.n ≤ y.n) ∧
      (s.dev.inHold k ev.n = true → s.dev.keepsBut e [(.TA_SLOT_STATUS_HELDOFF, k)] ∧ (e.slot k).fires = (s.dev.slot k).fires ∧
        e.rd .TA_SLOT_STATUS_HELDOFF k = min (s.dev.rd .TA_SLOT_STATUS_HELDOFF k + 1) (2 ^ 16 - 1)) ∧
      (s.dev.inHold k ev.n = false → s.dev.on .TA_SLOT_STATUS_ARMED k = false →
        s.dev.keepsBut e [] ∧ (e.slot k).fires = (s.dev.slot k).fires) ∧
      (s.dev.inHold k ev.n = false → s.dev.on .TA_SLOT_STATUS_ARMED k = true →
        e.rd .TA_SLOT_STATUS_SEQ k = seq ∧ e.on .TA_SLOT_STATUS_FIRED k = true ∧ e.on .TA_SLOT_STATUS_FORCED k = ev.forced ∧
        e.rd .TA_SLOT_LAST_T k = ev.t % 2 ^ 64 ∧ (e.slot k).fires = ⟨k, s.dev.rd .TA_SLOT_CTRL_SRC k, ev, seq, co⟩ :: (s.dev.slot k).fires ∧
        (e.slot k).autoAt = max (s.dev.slot k).autoAt ev.n ∧
        e.on .TA_SLOT_STATUS_ARMED k = decide (s.dev.rd .TA_SLOT_CTRL_MODE k ≠ 2) ∧
        (ev.late = true → e.on .TA_SLOT_STATUS_LATE k = true ∧ ⟨0x2E0, k, 0, s.dev.cycle⟩ ∈ e.raised) ∧
        (ev.late = false → e.raised = s.dev.raised) ∧
        (ev.forced = false → ev.late = false →
          tget (fun _ => []) e.trigAt k = tget (fun _ => []) s.dev.trigAt k ++ [ev.t + s.dev.trigDelay k] ∧
          ∀ n, n < 64 → s.dev.siteState n ≠ SiteState.EMPTY →
            let first := bitAt (s.dev.site n).trigs k = false ∧ ∃ b, (s.dev.site n).start = some b ∧ b ≤ ev.t
            (first → bitAt (e.site n).trigs k = true ∧ ⟨cycleAfter (ev.t + s.dev.trigDelay k), 0x20 + k, true, false, ev.t⟩ ∈ (e.site n).conds) ∧
            (¬ first → (e.site n).conds = (s.dev.site n).conds)) ∧
        s.dev.keepsFields e [.TA_SLOT_STATUS_SEQ, .TA_SLOT_STATUS_FIRED, .TA_SLOT_STATUS_FORCED, .TA_SLOT_LAST_T, .TA_SLOT_STATUS_COINCIDENT,
          .TA_SLOT_STATUS_ARMED, .TA_SLOT_STATUS_LATE, .RN_PORT_COUNT_FWD]))) ∧
  (∀ (s : State) (k : Nat), k < 16 → s.dev.slotLive k = true → s.dev.rd .TA_SLOT_CTRL_MODE k = 1 → s.dev.rd .TA_SLOT_AUTO_US k ≠ 0 →
    s.dev.forcedPoint k < s.dev.bed + cycleTicks →
    Acts (.forcedFiring k) s (fun e => e.rd .TA_SLOT_STATUS_SEQ k = (s.dev.rd .TA_SLOT_STATUS_SEQ k + 1) % 2 ^ 32 ∧
      e.on .TA_SLOT_STATUS_FIRED k = true ∧ e.on .TA_SLOT_STATUS_FORCED k = true ∧ e.rd .TA_SLOT_LAST_T k = s.dev.forcedPoint k % 2 ^ 64 ∧
      (e.slot k).autoAt = s.dev.forcedPoint k ∧ (e.slot k).evs = (s.dev.slot k).evs ∧ e.trigAt = s.dev.trigAt ∧ e.signals = s.dev.signals ∧
      e.sites = s.dev.sites ∧ e.raised = s.dev.raised ∧
      s.dev.keepsFields e [.TA_SLOT_STATUS_SEQ, .TA_SLOT_STATUS_FIRED, .TA_SLOT_STATUS_FORCED, .TA_SLOT_LAST_T, .TA_SLOT_STATUS_COINCIDENT]))) ∧
  ((∀ (s : State) (id : Nat) (x : Entry), s.dev.open? id 0x3A = some x → x.begun = false →
    let S := acqSpec x
    let soon := x.born + ns 500
    let arm := if S.arm = 0 then pointAfter soon else pointAfter (s.dev.fullTime S.armTime)
    let inv := s.dev.acqInvalid S = true
    let down := s.dev.wvOk S.w = false ∨ s.dev.on .WV_CTRL_ADC_EN S.w = false ∨ s.dev.on .DEV_UNITS_TAU_OK 0 = false ∨ (S.hbm = true ∧ s.dev.localMode = true)
    let busy := (s.dev.acq S.w).isSome = true ∨ s.dev.acqAhead x = true
    Acts (.acquire id) s (fun e => s.dev.entriesBut e id ∧ s.dev.keepsBut e [] ∧ (∀ u, u ≠ S.w → e.acq u = s.dev.acq u) ∧
      (inv → e.decided id Status.INVALID) ∧
      (¬ inv → arm < soon → e.decided id Status.LATE_START) ∧
      (¬ inv → soon ≤ arm → down → e.decided id Status.UNIT_DOWN) ∧
      (¬ inv → soon ≤ arm → ¬ down → busy → e = s.dev) ∧
      (¬ inv → soon ≤ arm → ¬ down → ¬ busy → e.entry? id = some { x with begun := true } ∧
        ∃ A, e.acq S.w = some A ∧ A.e = id ∧ A.arm = arm ∧ A.armed = false ∧ A.stop = none ∧ A.written = 0))) ∧
  (∀ (s : State) (w : Nat) (A : Acq) (x : Entry), w < 8 → s.dev.acq w = some A → s.dev.open? A.e 0x3A = some x → A.armed = false →
    A.arm < s.dev.bed + cycleTicks →
    Acts (.acquisitionArm w) s (fun e => e.acq w = some { A with armed := true } ∧ e.entry? A.e = some { x with begun := true, started := true } ∧
      (∀ k, k < 16 → (acqSpec x).rearm = true → bitAt (acqSpec x).mask k = true → s.dev.on .TA_SLOT_CTRL_EN k = true →
        s.dev.rd .TA_SLOT_CTRL_MODE k = 2 → e.on .TA_SLOT_STATUS_ARMED k = true) ∧
      ((acqSpec x).rearm = false → s.dev.keepsBut e []) ∧
      (∀ u, u ≠ w → e.acq u = s.dev.acq u) ∧ s.dev.entriesBut e A.e ∧ s.dev.keepsFields e [.TA_SLOT_STATUS_ARMED])) ∧
  (∀ (s : State) (w c st : Nat) (A : Acq) (x : Entry), w < 8 → s.dev.acq w = some A → s.dev.open? A.e 0x3A = some x →
    (A.stop = some (c, st) ∨ A.stop = none ∧ A.trig.isSome = true ∧ (acqSpec x).pre + (acqSpec x).post ≤ A.written ∧ st = Status.OK) →
    Writes (.acquisitionEnd w) s (fun m e => e.decided A.e st ∧ e.acq w = none ∧ (∀ u, u ≠ w → e.acq u = s.dev.acq u) ∧ s.dev.entriesBut e A.e ∧
      (∃ bs, bs.length = 64 ∧ m = (if (acqSpec x).hbm then { s.mem with hbm := writeMem byte0 s.mem.hbm (acqSpec x).dest bs }
        else { s.mem with host := writeMem byte0 s.mem.host (acqSpec x).dest bs })) ∧ s.dev.keepsBut e [])) ∧
  (∀ (s : State) (w : Nat) (A : Acq) (x : Entry), w < 8 → s.dev.acq w = some A → s.dev.open? A.e 0x3A = some x → A.trig = none → A.stop = none →
    (acqSpec x).tmo ≠ 0 → A.arm + ms (acqSpec x).tmo ≤ s.dev.bed →
    Writes (.acquisitionTimeout w) s (fun m e => e.decided A.e Status.TIMEOUT ∧ e.acq w = none ∧ e.raised = s.dev.raised ++ [⟨0x2E2, w, 0, s.dev.cycle⟩] ∧
      (∃ bs, bs.length = 64 ∧ m = (if (acqSpec x).hbm then { s.mem with hbm := writeMem byte0 s.mem.hbm (acqSpec x).dest bs }
        else { s.mem with host := writeMem byte0 s.mem.host (acqSpec x).dest bs })) ∧ s.dev.keepsBut e [])))

/-- R290, R291, R292: a context command that is not allowed, or given while one is busy, is refused; LOAD copies the context to the window, STORE the
window to the context, ENABLE starts the ring at zero, DISABLE stops it, RESTART lets a halted ring go on. R293, R294, R297, R310: a doorbell that
names no ring in use, or a place outside it, is dropped and counted; else the tail or the head moves; a token write sets the token. -/
def Obligations.ContextsDoorbellsAndTokensAct : Prop :=
  ((∀ (s : State) (r k : Nat) (c : Instr), r < 65536 → s.dev.hostReady = true →
    (c, k) ∈ [(Instr.contextLoad r, 1), (.contextStore r, 2), (.enable r, 3), (.disable r, 4), (.restart r, 5)] →
    let W := s.dev.ctxWin
    let R := s.dev.ring r
    Acts c s (fun e => (∀ q, q ≠ r → e.ring q = s.dev.ring q) ∧ e.tracker = s.dev.tracker ∧
      (s.dev.on .RG_CTX_CMD_BUSY 0 = true → e.on .RG_STATUS_CMD_ERR 0 = true ∧ e.ring r = R ∧
        e.raised = s.dev.raised ++ [⟨0x140, s.dev.rd .RG_CTX_CMD_RING 0, 0, s.dev.cycle⟩] ∧ s.dev.keepsBut e [(.RG_STATUS_CMD_ERR, 0)]) ∧
      (s.dev.on .RG_CTX_CMD_BUSY 0 = false → s.dev.ctxAllowed r k W = false → e.on .RG_STATUS_CMD_ERR 0 = true ∧ e.ring r = R ∧
        e.raised = s.dev.raised ++ [⟨0x140, r, 0, s.dev.cycle⟩] ∧ s.dev.keepsBut e [(.RG_STATUS_CMD_ERR, 0), (.RG_CTX_CMD_RING, 0)]) ∧
      (s.dev.on .RG_CTX_CMD_BUSY 0 = false → s.dev.ctxAllowed r k W = true →
        e.on .RG_CTX_CMD_BUSY 0 = true ∧ e.rd .RG_CTX_CMD_RING 0 = r ∧ e.raised = s.dev.raised ∧
        (k = 1 → e.ring r = R ∧ e.rd .RG_CTX_STATE_STATE 0 = R.state % 2 ^ Fld.RG_CTX_STATE_STATE.spec.width ∧
          e.rd .RG_CTX_SQ_BASE 0 = R.sqBase % 2 ^ Fld.RG_CTX_SQ_BASE.spec.width ∧ e.rd .RG_CTX_CQ_BASE 0 = R.cqBase % 2 ^ Fld.RG_CTX_CQ_BASE.spec.width ∧
          e.rd .RG_CTX_IDX_SQ_TAIL 0 = R.tail % 2 ^ Fld.RG_CTX_IDX_SQ_TAIL.spec.width ∧
          e.rd .RG_CTX_IDX_CQ_TAIL 0 = R.cqTail % 2 ^ Fld.RG_CTX_IDX_CQ_TAIL.spec.width) ∧
        (k = 2 → e.ring r = R.store W) ∧
        (k = 3 → (e.ring r).state = RingState.ACTIVE ∧ (e.ring r).cqOn = true ∧ (e.ring r).fetch = 0 ∧ (e.ring r).tail = 0 ∧ (e.ring r).head = 0 ∧
          (e.ring r).cqTail = 0 ∧ (e.ring r).phase = true ∧ (e.ring r).sqBase = R.sqBase ∧ (e.ring r).cqBase = R.cqBase) ∧
        (k = 4 → (e.ring r).state = (if R.state = RingState.ACTIVE ∧ s.dev.entriesOf r ≠ [] then RingState.QUIESCING else RingState.DISABLED) ∧
          (e.ring r).descs = [] ∧ (e.ring r).tail = R.tail) ∧
        (k = 5 → (e.ring r).state = RingState.ACTIVE ∧ (e.ring r).fetch = bits W 192 20 ∧ (e.ring r).tail = R.tail ∧ (e.ring r).cqTail = R.cqTail) ∧
        (k ≠ 1 → s.dev.keepsBut e [(.RG_CTX_CMD_BUSY, 0), (.RG_CTX_CMD_RING, 0)])))) ∧
  (∀ s : State, Acts .contextCommandComplete s (fun e => e.rings = s.dev.rings ∧ s.dev.keepsBut e [(.RG_CTX_CMD_BUSY, 0)] ∧
    (s.dev.asleep = false → e.on .RG_CTX_CMD_BUSY 0 = false) ∧ (s.dev.asleep = true → e = s.dev)))) ∧
  ((∀ (s : State) (r : Nat) (v : Word), r < 65536 → s.dev.hostReady = true →
    let R := s.dev.ring r
    let t := v.toNat % 2 ^ 32
    let drop := R.state ≠ RingState.ACTIVE ∨ 2 ^ R.sqLog ≤ t ∨ s.dev.follows = true ∨ (s.dev.localMode = true ∧ 4096 ≤ r)
    Acts (.sqTail r v) s (fun e => (∀ q, q ≠ r → e.ring q = s.dev.ring q) ∧ (e.ring r).fetch = R.fetch ∧ (e.ring r).descs = R.descs ∧
      (drop → e.ring r = R ∧ e.raised = s.dev.raised ++ [⟨0x141, r, 0, s.dev.cycle⟩] ∧ s.dev.keepsBut e [(.RG_STATUS_DOORBELL_DROP, 0)] ∧
        e.rd .RG_STATUS_DOORBELL_DROP 0 = min (s.dev.rd .RG_STATUS_DOORBELL_DROP 0 + 1) (2 ^ Fld.RG_STATUS_DOORBELL_DROP.spec.width - 1)) ∧
      (¬ drop → (e.ring r).tail = t ∧ e.raised = s.dev.raised ∧ s.dev.keepsBut e []))) ∧
  (∀ (s : State) (r : Nat) (v : Word), r < 65536 → s.dev.hostReady = true →
    let R := s.dev.ring r
    let h := v.toNat % 2 ^ 32
    let drop := R.cqOn = false ∨ 2 ^ R.cqLog ≤ h ∨ R.unread < R.frees h ∨ s.dev.follows = true ∨ (s.dev.localMode = true ∧ 4096 ≤ r)
    Acts (.cqHead r v) s (fun e => (∀ q, q ≠ r → e.ring q = s.dev.ring q) ∧
      (drop → e.ring r = R ∧ e.raised = s.dev.raised ++ [⟨0x141, r, 0, s.dev.cycle⟩] ∧ s.dev.keepsBut e [(.RG_STATUS_DOORBELL_DROP, 0)]) ∧
      (¬ drop → h ≠ R.head → (e.ring r).head = h ∧ (e.ring r).unread = R.unread - R.frees h ∧ (e.ring r).cqTail = R.cqTail ∧ s.dev.keepsBut e []) ∧
      (¬ drop → h = R.head → e = s.dev.reached))) ∧
  (∀ (s : State) (t : Nat) (v : Word), t < 4096 → s.dev.hostReady = true →
    let k := s.dev.tokenCyc t
    Acts (.tokenWrite t v) s (fun e => s.dev.keepsBut e [(.RG_TOKEN_VALUE, t)] ∧ e.tokenSeen t = s.dev.tokenSeen t ∧
      e.rd .RG_TOKEN_VALUE t = (k.sets.foldl (fun y z => if z.1 then (y + z.2) % 2 ^ 32 else z.2) (v.toNat % 2 ^ 32) + k.notes) % 2 ^ 32 ∧
      ((tget (fun _ => {}) s.dev.ringEng.tokens t).cycle ≠ s.dev.cycle + 1 →
        e.rd .RG_TOKEN_VALUE t = v.toNat % 2 ^ 32 ∧ e.tokenSeen t = s.dev.rd .RG_TOKEN_VALUE t))))

/-- R295, R301, R323, R325: descriptors are read in ring order, at most 8 and none past the end of the ring; a failed host read is a ring error: the ring
halts, at once where nothing is left to dispatch before it, and the descriptors behind that have not begun are withdrawn. R298 to R302, R315, R398:
where one ring is ready its head descriptor takes the next entry and goes to its block, or is a ring error, or is answered at once on a standby or an
unpaired twin; nothing is dispatched while none is ready. R310, R311, R316: NOP completes, FENCE and TOKEN_SET when all earlier ones of their ring
have, a TOKEN_WAIT holds its ring until its token reaches the value or its time runs out. R296, R297, R305, R309, R325: a completion report waits for
the descriptor's data and takes the time; the record is written at the completion tail with the phase, frees the entry and raises NTOKEN, and its
message is sent, held off or kept pending. -/
def Obligations.DescriptorsAreReadDispatchedOrderedAndReported : Prop :=
  ((∀ (s : State) (r : Nat) (data : List Nat), r < 65536 → s.dev.asleep = false → s.dev.mayRead r = true →
    let R := s.dev.ring r
    let n := min (min 8 (2 ^ R.sqLog - R.readIdx)) (min data.length R.unfetched)
    Acts (.descriptorRead r data) s (fun e => (n = 0 → e = s.dev) ∧ (n ≠ 0 → e.asked = some (R.sqBase * 4096 + 64 * R.readIdx, 64 * n)) ∧
      (e.ring r).descs = R.descs ++ (data.take n).zipIdx.map (fun p => ((R.fetch + R.descs.length + p.2) % 2 ^ R.sqLog, some (p.1 % 2 ^ 512))) ∧
      (e.ring r).fetch = R.fetch ∧ (∀ q, q ≠ r → e.ring q = s.dev.ring q) ∧ e.tracker = s.dev.tracker ∧ s.dev.keepsBut e [])) ∧
  (∀ (s : State) (r : Nat), s.dev.asleep = false → s.dev.mayRead r = true → (s.dev.ring r).unfetched ≠ 0 →
    ((∃ i y t, (s.dev.ring r).descs = (i, some y) :: t) ∨ s.dev.room r = false) →
    Acts (.hostReadError r true) s (fun e => (e.ring r).descs = (s.dev.ring r).descs ++ [((s.dev.ring r).readIdx, none)] ∧
      e.asked = some ((s.dev.ring r).sqBase * 4096 + 64 * (s.dev.ring r).readIdx, 64) ∧
      e.raised = s.dev.raised ++ [⟨0x143, r, 0, s.dev.cycle⟩] ∧ (∀ q, q ≠ r → e.ring q = s.dev.ring q) ∧ s.dev.keepsBut e [])) ∧
  (∀ (s : State) (r : Nat), s.dev.asleep = false → s.dev.mayRead r = true → (s.dev.ring r).unfetched ≠ 0 → (s.dev.ring r).descs = [] →
    s.dev.room r = true → (∀ y, y ∈ s.dev.tracker → y.id < s.dev.nextId) →
    Acts (.hostReadError r true) s (fun e => e.decided s.dev.nextId Status.HOST_ERR ∧ (e.ring r).state = RingState.HALTED ∧
      (e.ring r).lastErr = Status.HOST_ERR ∧ (e.ring r).order = some s.dev.nextId ∧ (e.ring r).descs = [] ∧
      (∃ y, e.entry? s.dev.nextId = some y ∧ y.ring = r ∧ y.idx = (s.dev.ring r).readIdx) ∧
      e.raised = s.dev.raised ++ [⟨0x143, r, 0, s.dev.cycle⟩, ⟨0x142, r, 0, s.dev.cycle⟩] ∧ s.dev.entriesBut e s.dev.nextId ∧
      (∀ q, q ≠ r → e.ring q = s.dev.ring q) ∧ s.dev.keepsBut e [])) ∧
  (∀ (s : State) (id : Nat) (x : Entry), s.dev.asleep = false → s.dev.entry? id = some x → x.done = false → (s.dev.ring x.ring).state ≠ RingState.HALTED →
    (∀ y, y ∈ s.dev.entriesOf x.ring → id < y.id → y.begun = false) →
    Acts (.hostReadError id false) s (fun e => e.decided id Status.HOST_ERR ∧ (e.ring x.ring).state = RingState.HALTED ∧
      (∃ y, e.entry? id = some y ∧ y.result = x.doneSoFar) ∧
      (e.ring x.ring).lastErr = Status.HOST_ERR ∧ (e.ring x.ring).order = some id ∧ (e.ring x.ring).descs = [] ∧
      e.raised = s.dev.raised ++ [⟨0x143, x.ring, 0, s.dev.cycle⟩, ⟨0x142, x.ring, 0, s.dev.cycle⟩] ∧
      (∀ y, y ∈ s.dev.entriesOf x.ring → id < y.id → s.dev.entry? y.id = some y → y.done = false → e.decided y.id Status.WITHDRAWN) ∧
      (∀ k, k < id → e.entry? k = s.dev.entry? k) ∧ (∀ q, q ≠ x.ring → e.ring q = s.dev.ring q) ∧ s.dev.keepsBut e []))) ∧
  ((∀ (s : State) (r idx desc : Nat) (t : List (Nat × Option Nat)), s.dev.asleep = false →
    (s.dev.rings.map (·.1)).filter (fun q => s.dev.ready q || s.dev.waitOver q) = [r] → s.dev.waitOver r = false → (s.dev.ring r).cls < 4 →
    s.dev.ringEng.freeAt ≤ s.dev.now → (s.dev.ring r).descs = (idx, some desc) :: t → (∀ i u, t ≠ (i, none) :: u) →
    (∀ y, y ∈ s.dev.tracker → y.id < s.dev.nextId) →
    let id := s.dev.nextId
    let bad := badDesc desc = true
    let ended := s.dev.follows = true ∧ standbyRuns (descOp desc) = false
    let down := (s.dev.role = 1 ∨ s.dev.role = 6) ∧ touchesPins (descOp desc) = true
    Acts .dispatch s (fun e => e.nextId = id + 1 ∧ (e.ring r).fetch = (idx + 1) % 2 ^ (s.dev.ring r).sqLog ∧ s.dev.entriesBut e id ∧
      e.ringEng.freeAt = s.dev.now + ns 4 ∧ (∀ q, q ≠ r → e.ring q = s.dev.ring q) ∧ s.dev.keepsBut e [] ∧
      (bad → e.decided id Status.BAD_DESC ∧ (e.ring r).state = RingState.HALTED ∧ e.raised = s.dev.raised ++ [⟨0x142, r, 0, s.dev.cycle⟩]) ∧
      (¬ bad → (e.ring r).descs = t ∧ (e.ring r).state = RingState.ACTIVE ∧ e.raised = s.dev.raised) ∧
      (¬ bad → ended → e.decided id Status.TAKEOVER) ∧ (¬ bad → down → e.decided id Status.UNIT_DOWN) ∧
      (¬ bad → ¬ ended → ¬ down → ∃ x, e.entry? id = some x ∧ x.ring = r ∧ x.idx = idx ∧ x.desc = desc ∧ x.born = s.dev.bed ∧ x.begun = false ∧
        x.done = false))) ∧
  (∀ (s : State) (r idx : Nat) (t : List (Nat × Option Nat)), s.dev.asleep = false →
    (s.dev.rings.map (·.1)).filter (fun q => s.dev.ready q || s.dev.waitOver q) = [r] → s.dev.waitOver r = false → (s.dev.ring r).cls < 4 →
    s.dev.ringEng.freeAt ≤ s.dev.now → (s.dev.ring r).descs = (idx, none) :: t → s.dev.follows = false →
    (∀ y, y ∈ s.dev.tracker → y.id < s.dev.nextId) →
    Acts .dispatch s (fun e => e.decided s.dev.nextId Status.HOST_ERR ∧ (e.ring r).state = RingState.HALTED ∧
      e.raised = s.dev.raised ++ [⟨0x142, r, 0, s.dev.cycle⟩] ∧ s.dev.entriesBut e s.dev.nextId ∧ (∀ q, q ≠ r → e.ring q = s.dev.ring q) ∧
      s.dev.keepsBut e [])) ∧
  (∀ s : State, (s.dev.asleep = true ∨ s.dev.now < s.dev.ringEng.freeAt ∨
      (s.dev.rings.map (·.1)).filter (fun q => s.dev.ready q || s.dev.waitOver q) = []) → Acts .dispatch s (fun e => e = s.dev)) ∧
  (∀ (s : State) (r id v : Nat) (data : List Nat) (f : Bool) (c : Instr), s.dev.asleep = true → r < 65536 → v < 2048 →
    c ∈ [Instr.descriptorRead r data, .hostReadError id f, .tokenWait r, .tokenWaitRelease r, .tokenWaitTimeout r, .completionRecordWrite r,
      .msixHoldoffEnd v] → Acts c s (fun e => e = s.dev))) ∧
  ((∀ (s : State) (id : Nat) (x : Entry), s.dev.open? id 0x00 = some x →
    Acts (.nop id) s (fun e => e.decided id Status.OK ∧ s.dev.entriesBut e id ∧ s.dev.keepsBut e [])) ∧
  (∀ (s : State) (id : Nat) (x : Entry), s.dev.open? id 0x01 = some x →
    Acts (.fence id) s (fun e => s.dev.entriesBut e id ∧ s.dev.keepsBut e [] ∧ (s.dev.aloneBefore x = true → e.decided id Status.OK) ∧
      (s.dev.aloneBefore x = false → e = s.dev))) ∧
  (∀ (s : State) (id : Nat) (x : Entry), s.dev.open? id 0x02 = some x →
    let t := descTarget x.desc
    let v := descField x.desc 8 0 32
    Acts (.tokenSet id) s (fun e => s.dev.entriesBut e id ∧ s.dev.keepsBut e [(.RG_TOKEN_VALUE, t)] ∧
      (s.dev.aloneBefore x = true → e.decided id Status.OK ∧ e.tokenSeen t = s.dev.tokenSeen t ∧
        (let k := s.dev.tokenCyc t
         let b := k.sets.foldl (fun y z => if z.1 then (y + z.2) % 2 ^ 32 else z.2) (k.mmio.getD k.before)
         let a := if descField x.desc 12 0 1 = 1 then (b + v) % 2 ^ 32 else v
         (∃ y, e.entry? id = some y ∧ y.result = a * 2 ^ 96) ∧ e.rd .RG_TOKEN_VALUE t = (a + k.notes) % 2 ^ 32)) ∧
      (s.dev.aloneBefore x = true → (tget (fun _ => {}) s.dev.ringEng.tokens t).cycle ≠ s.dev.cycle + 1 →
        e.rd .RG_TOKEN_VALUE t = (if descField x.desc 12 0 1 = 1 then (s.dev.rd .RG_TOKEN_VALUE t + v) % 2 ^ 32 else v)) ∧
      (s.dev.aloneBefore x = false → e = s.dev))) ∧
  (∀ (s : State) (r idx : Nat) (x : Option Nat) (t : List (Nat × Option Nat)), r < 65536 → s.dev.asleep = false → (s.dev.ring r).descs = (idx, x) :: t →
    (s.dev.ring r).state = RingState.ACTIVE → isWait x = true → s.dev.headFree r x = true → (s.dev.ring r).waitAt = none →
    Acts (.tokenWait r) s (fun e => e.ring r = { s.dev.ring r with waitAt := some s.dev.now } ∧ (∀ q, q ≠ r → e.ring q = s.dev.ring q) ∧
      s.dev.keepsBut e [])) ∧
  (∀ (s : State) (r idx desc t : Nat), r < 65536 → s.dev.asleep = false → s.dev.heldWait r = some (idx, desc, t) →
    (∀ y, y ∈ s.dev.tracker → y.id < s.dev.nextId) → (∀ i u, (s.dev.ring r).descs.drop 1 ≠ (i, none) :: u) →
    let v := s.dev.tokenSeen (descTarget desc)
    let go := (v + 2 ^ 32 - descField desc 8 0 32) % 2 ^ 32 < 2 ^ 31 ∧ s.dev.waitOver r = true ∧ s.dev.nextTurn.map (·.2.1) = some r
    Acts (.tokenWaitRelease r) s (fun e => (¬ go → e = s.dev) ∧
      (go → e.ringEng.freeAt = s.dev.now + ns 4 ∧ e.decided s.dev.nextId Status.OK ∧ e.nextId = s.dev.nextId + 1 ∧ (e.ring r).waitAt = none ∧
        (e.ring r).descs = (s.dev.ring r).descs.drop 1 ∧ (e.ring r).fetch = (idx + 1) % 2 ^ (s.dev.ring r).sqLog ∧ s.dev.entriesBut e s.dev.nextId ∧
        (∃ y, e.entry? s.dev.nextId = some y ∧ y.result = v * 2 ^ 96 + resAt ((s.dev.now - t) / us 1) 64 32) ∧ s.dev.keepsBut e []))) ∧
  (∀ (s : State) (r idx desc t : Nat), r < 65536 → s.dev.asleep = false → s.dev.heldWait r = some (idx, desc, t) →
    (∀ y, y ∈ s.dev.tracker → y.id < s.dev.nextId) → s.dev.satisfied desc = false → s.dev.nextTurn.map (·.2.1) = some r →
    descField desc 12 0 32 ≠ 0 → t + ms (descField desc 12 0 32) ≤ s.dev.now → s.dev.room r = true → s.dev.waiting (fun w => w == .ctx r) = false →
    Acts (.tokenWaitTimeout r) s (fun e => e.decided s.dev.nextId Status.TOKEN_TMO ∧ (e.ring r).state = RingState.HALTED ∧
      (e.ring r).lastErr = Status.TOKEN_TMO ∧ e.raised = s.dev.raised ++ [⟨0x142, r, 0, s.dev.cycle⟩] ∧ s.dev.entriesBut e s.dev.nextId ∧
      s.dev.keepsBut e []))) ∧
  ((∀ (s : State) (id : Nat) (x : Entry), s.dev.entry? id = some x → x.done = true → x.reported = false → s.dev.role ≠ 3 → s.dev.follows = false →
    s.dev.noteOf x = none →
    Acts (.completionReport id) s (fun e => s.dev.keepsBut e [] ∧ s.dev.entriesBut e id ∧
      (s.dev.unseen (Requester.ofEntry id) = true → e = s.dev) ∧
      (s.dev.unseen (Requester.ofEntry id) = false → e.entry? id = some { x with reported := true, time := s.dev.bed }))) ∧
  (∀ (s : State) (r : Nat) (x : Entry), r < 65536 → s.dev.asleep = false → s.dev.role ≠ 3 → s.dev.follows = false → s.dev.freeSlots (s.dev.ring r).cq ≠ 0 →
    s.dev.nextRecord r = some x →
    let c := (s.dev.ring r).cq
    let C := s.dev.ring c
    let free := ∀ t, (s.dev.vec C.vector).sent = some t → t + us C.holdoff ≤ s.dev.now
    let now_ := s.dev.masked C.vector = false ∧ free
    let h := writeMem byte0 s.mem.host (C.cqBase * 4096 + 32 * (C.slotAt 0).1) (bytesOf 32 (x.record (C.slotAt 0).2))
    let msg := bytesOf 4 (s.dev.rd .RG_MSIX_DATA_DATA C.vector)
    Writes (.completionRecordWrite r) s (fun m e =>
      (descFlag x.desc 1 = false ∨ ¬ now_ → m = { s.mem with host := h }) ∧
      (descFlag x.desc 1 = true → now_ → m = { s.mem with host := writeMem byte0 h (s.dev.rd .RG_MSIX_ADDR_ADDR C.vector) msg }) ∧
      (descFlag x.desc 1 = true → s.dev.masked C.vector = true → (e.vec C.vector).pba = true) ∧
      (descFlag x.desc 1 = true → s.dev.masked C.vector = false → ¬ free → (e.vec C.vector).req = true) ∧
      (descFlag x.desc 1 = true → now_ → e.vec C.vector = { sent := some s.dev.now }) ∧ (e.ring r).recAt = s.dev.cycle + 1 ∧
      e.entry? x.id = none ∧ s.dev.entriesBut e x.id ∧ (e.ring c).cqTail = (C.cqTail + 1) % 2 ^ C.cqLog ∧ (e.ring c).unread = C.unread + 1 ∧
      (descFlag x.desc 2 = true → s.dev.keepsBut e [(.RG_TOKEN_VALUE, descNtoken x.desc)] ∧
        e.rd .RG_TOKEN_VALUE (descNtoken x.desc) =
          { s.dev.tokenCyc (descNtoken x.desc) with notes := (s.dev.tokenCyc (descNtoken x.desc)).notes + 1 }.value ∧
        ((tget (fun _ => {}) s.dev.ringEng.tokens (descNtoken x.desc)).cycle ≠ s.dev.cycle + 1 →
          e.rd .RG_TOKEN_VALUE (descNtoken x.desc) = (s.dev.rd .RG_TOKEN_VALUE (descNtoken x.desc) + 1) % 2 ^ 32)) ∧
      (descFlag x.desc 2 = false → s.dev.keepsBut e []))) ∧
  (∀ (s : State) (v : Nat), v < 2048 →
    let V := s.dev.vec v
    let due := s.dev.asleep = false ∧ V.req = true ∧ V.hold ≤ s.dev.now
    let msg := bytesOf 4 (s.dev.rd .RG_MSIX_DATA_DATA v)
    Writes (.msixHoldoffEnd v) s (fun m e => (∀ u, u ≠ v → e.vec u = s.dev.vec u) ∧ s.dev.keepsBut e [] ∧ (¬ due → m = s.mem ∧ e = s.dev) ∧
      (due → s.dev.masked v = true → m = s.mem ∧ (e.vec v).req = false ∧ (e.vec v).pba = true) ∧
      (due → s.dev.masked v = false → e.vec v = { sent := some s.dev.now } ∧
        m = { s.mem with host := writeMem byte0 s.mem.host (s.dev.rd .RG_MSIX_ADDR_ADDR v) msg }))))

/-- R303, R307, R308, R313: a REG_WRITE applies its pairs in order, each as the register write it stands for, a REG_READ puts each value in host memory;
both are done with the last. R495, R496: a PE_XFER takes its port, sends its bytes, and ends with the companion's answer, its NAK or the timeout.
R307, R401, R440, R487: a CAL_REQUEST is refused, discards its units' results, or asks each of its units; CAL_REPORT and JOURNAL_READ put their next
record in host memory; a TWIN_CHECKPOINT waits for what was mirrored before it. R332, R487: a function-level reset ends every descriptor, leaves every
ring DISABLED at its start and every token 0, and owes the journal an entry. -/
def Obligations.RegisterCompanionAndReportDescriptorsAct : Prop :=
  ((∀ (s : State) (id pr : Nat) (x : Entry), s.dev.open? id 0x08 = some x → x.due = 0 →
    let n := descField x.desc 16 0 32
    let inv := n = 0 ∨ 65536 < n ∨ descField x.desc 8 0 64 % 16 ≠ 0
    let q := Dev.applyPair s.mem (s.dev.ask (descField x.desc 8 0 64 + 16 * x.progress) 16) pr
    let w := q.2.pairDue (bits pr 0 28)
    Writes (.regWrite id [pr]) s (fun m e =>
      (inv → m = s.mem ∧ e.decided id Status.INVALID ∧ s.dev.entriesBut e id ∧ s.dev.keepsBut e []) ∧
      (¬ inv → x.progress < n → m = q.1.foldl Mems.put s.mem ∧ q.2.keepsBut e [] ∧
        (∀ y, q.2.entry? id = some y → y.done = false → y.desc = x.desc → ∃ z, e.entry? id = some z ∧ z.progress = x.progress + 1 ∧ z.due = w ∧
          (z.done = true ↔ x.progress + 1 = n ∧ w = 0))))) ∧
  (∀ (s : State) (id : Nat) (x : Entry), s.dev.open? id 0x09 = some x → s.dev.follows = false →
    let n := descField x.desc 12 0 16
    let wide := bitAt (descField x.desc 14 0 8) 0
    let w := if wide then 8 else 4
    let v := Dev.readReg s.mem s.dev (descField x.desc 8 0 32 + w * x.progress) w
    Writes (.regRead id) s (fun m e => s.dev.keepsBut e [] ∧ s.dev.entriesBut e id ∧
      ((n = 0 ∨ 4096 < n) → m = s.mem ∧ e.decided id Status.INVALID) ∧
      (n ≠ 0 → n ≤ 4096 → m = { s.mem with host := writeMem byte0 s.mem.host (descField x.desc 16 0 64 + w * x.progress) (bytesOf w v.1) } ∧
        (∃ y, e.entry? id = some y ∧ y.progress = x.progress + 1 ∧ (y.done = true ↔ x.progress + 1 = n)))))) ∧
  ((∀ (s : State) (id : Nat) (tx : List Byte) (x : Entry), s.dev.open? id 0x28 = some x → x.begun = false → x.stopping = false →
    let k := descTarget x.desc
    let inv := peTx x = 0 ∨ 4096 < peTx x ∨ 4096 < peRx x
    Acts (.peXfer id tx none) s (fun e => s.dev.entriesBut e id ∧
      (inv → e.decided id Status.INVALID ∧ s.dev.keepsBut e []) ∧ (¬ inv → s.dev.peAhead x = true → e = s.dev) ∧
      (¬ inv → s.dev.peAhead x = false → e.on .OCT_PEC_STATUS_BUSY (2 * k) = true ∧ tget (fun _ => []) e.pec k = tx.take (peTx x) ∧
        e.entry? id = some { x with begun := true, started := true, touched := true, due := s.dev.now } ∧
        e.asked = some (descField x.desc 8 0 64, peTx x) ∧
        s.dev.keepsBut e [(.OCT_PEC_STATUS_BUSY, 2 * k), (.OCT_PEC_STATUS_XFERS, 2 * k)]))) ∧
  (∀ (s : State) (id : Nat) (tx rx : List Byte) (st : Byte) (x : Entry), s.dev.open? id 0x28 = some x → x.begun = true → x.stopping = false →
    peTx x ≠ 0 → peTx x ≤ 4096 → peRx x ≤ 4096 → s.dev.peAhead x = false → st.getLsbD 7 = true → s.dev.follows = false →
    let k := descTarget x.desc
    let got := (List.range (peRx x)).map (fun i => rx.getD i 0)
    Writes (.peXfer id tx (some (st :: rx))) s (fun m e => e.on .OCT_PEC_STATUS_BUSY (2 * k) = false ∧ s.dev.entriesBut e id ∧
      s.dev.keepsBut e [(.OCT_PEC_STATUS_BUSY, 2 * k), (.OCT_PEC_STATUS_NAKS, 2 * k)] ∧
      (st.getLsbD 6 = true → m = s.mem ∧ e.decided id Status.PE_NAK) ∧
      (st.getLsbD 6 = false → e.decided id x.status ∧ (peRx x ≠ 0 →
        m = { s.mem with host := writeMem byte0 s.mem.host (descField x.desc 16 0 64) got })))) ∧
  (∀ (s : State) (id : Nat) (tx : List Byte) (reply : Option (List Byte)) (x : Entry), s.dev.open? id 0x28 = some x → x.stopping = true →
    s.dev.follows = false →
    let k := descTarget x.desc
    let st := (reply.getD []).headD 0
    let rx := if st.getLsbD 7 && !st.getLsbD 6 then ((reply.getD []).drop 1).take (peRx x) else []
    Writes (.peXfer id tx reply) s (fun m e => e.on .OCT_PEC_STATUS_BUSY (2 * k) = false ∧ s.dev.entriesBut e id ∧
      s.dev.keepsBut e [(.OCT_PEC_STATUS_BUSY, 2 * k)] ∧ e.decided id Status.ABORTED_PARTIAL ∧
      (∃ y, e.entry? id = some y ∧ y.result = rx.length * 2 ^ 112 + st.toNat * 2 ^ 104) ∧ (rx = [] → m = s.mem) ∧
      (rx ≠ [] → m = { s.mem with host := writeMem byte0 s.mem.host (descField x.desc 16 0 64) rx }))) ∧
  (∀ (s : State) (id : Nat) (x : Entry), s.dev.open? id 0x28 = some x → x.begun = true → x.stopping = false → x.due + us (peTmo x) ≤ s.dev.now →
    Acts (.peXferTimeout id) s (fun e => e.decided id Status.PE_TMO ∧ e.on .OCT_PEC_STATUS_BUSY (2 * descTarget x.desc) = false ∧
      s.dev.entriesBut e id ∧ s.dev.keepsBut e [(.OCT_PEC_STATUS_BUSY, 2 * descTarget x.desc), (.OCT_PEC_STATUS_TMOS, 2 * descTarget x.desc)]))) ∧
  ((∀ (s : State) (id mode : Nat) (c : Instr) (x : Entry), (c, mode) ∈ [(Instr.calRequestGaps id, 0), (.calRequestForce id, 1), (.calRequestDiscard id, 2)] →
    s.dev.open? id 0x48 = some x → x.begun = false → x.stopping = false → descField x.desc 8 4 2 = mode →
    let k := (calNamed x).1
    let inv := calRange x = false ∨ (mode = 2 ∧ k = 5)
    let down := (calList x).any (s.dev.calDown k) = true
    Acts c s (fun e => s.dev.entriesBut e id ∧ (inv → e.decided id Status.INVALID ∧ s.dev.keepsBut e []) ∧
      (¬ inv → down → e.decided id Status.UNIT_DOWN ∧ s.dev.keepsBut e []) ∧
      (¬ inv → ¬ down → mode = 2 → e.decided id Status.OK ∧ (∀ u, u ∈ calList x → (e.calUnit k u).res = [] ∧ (e.calUnit k u).state = 0)) ∧
      (¬ inv → ¬ down → mode ≠ 2 → (∀ u, u ∈ calList x → (s.dev.calUnit k u).req = none) → (∃ u, u ∈ calList x ∧ (s.dev.calUnit k u).state ≠ 4) →
        e.entry? id = some { x with begun := true } ∧ e.on .SP_STATUS_REQ_OPEN 0 = true ∧
        (∀ u, u ∈ calList x → (e.calUnit k u).req = some id ∧ (e.calUnit k u).said = none) ∧ s.dev.keepsBut e [(.SP_STATUS_REQ_OPEN, 0)]))) ∧
  (∀ (s : State) (id : Nat) (x : Entry), s.dev.open? id 0x49 = some x → s.dev.follows = false →
    let most := min (calNamed x).2.2 (descField x.desc 24 0 32 / 32)
    let rec_ := bytesOf 32 (s.dev.calRecord (calNamed x).1 ((calNamed x).2.1 + x.progress))
    Writes (.calReport id) s (fun m e => s.dev.entriesBut e id ∧ s.dev.keepsBut e [] ∧
      ((calRange x = false ∨ most = 0) → m = s.mem ∧ e.decided id Status.INVALID) ∧
      (calRange x = true → most ≠ 0 → m = { s.mem with host := writeMem byte0 s.mem.host (descField x.desc 16 0 64 + 32 * x.progress) rec_ } ∧
        (∃ y, e.entry? id = some y ∧ y.progress = x.progress + 1 ∧ (y.done = true ↔ most ≤ x.progress + 1 ∨ (x.stopping = true ∧ 2 ∣ x.progress + 1)) ∧
          (x.progress + 1 < most → x.stopping = true → 2 ∣ x.progress + 1 → y.status = Status.WITHDRAWN ∧ y.result = resAt (x.progress + 1) 112 16))))) ∧
  (∀ (s : State) (id : Nat) (x : Entry), s.dev.open? id 0x58 = some x → s.dev.follows = false →
    let start := descField x.desc 8 0 16
    let n := descField x.desc 10 0 16
    let ent := readMem byteF s.mem.flash (jnAddr ((start + x.progress) % 4096)) 64
    Writes (.journalRead id) s (fun m e => s.dev.entriesBut e id ∧ s.dev.keepsBut e [] ∧
      ((4096 ≤ start ∨ n = 0 ∨ 4096 < n) → m = s.mem ∧ e.decided id Status.INVALID) ∧
      (start < 4096 → n ≠ 0 → n ≤ 4096 →
        m = { s.mem with host := writeMem byte0 s.mem.host (descField x.desc 16 0 64 + 64 * x.progress) ent } ∧
        (∃ y, e.entry? id = some y ∧ y.progress = x.progress + 1 ∧ (y.done = true ↔ x.progress + 1 = n))))) ∧
  (∀ (s : State) (id : Nat) (x : Entry), s.dev.open? id 0x60 = some x →
    let waits := s.dev.role = 3 ∧ ∃ y, y ∈ s.dev.entriesOf x.ring ∧ y.id < id ∧ y.mirrored = true ∧ y.acked = false
    Acts (.twinCheckpoint id) s (fun e => (waits → e.entry? id = some { x with begun := true, started := true } ∧ s.dev.entriesBut e id ∧ s.dev.keepsBut e []) ∧
      (¬ waits → e.decided id Status.OK ∧ e.tw.since = 0 ∧ s.dev.entriesBut e id ∧ s.dev.keepsBut e [])))) ∧
  (∀ s : State, s.dev.kl.powered = true → s.dev.serves = true →
    Writes .functionLevelReset s (fun m e => m = { s.mem with hbm := m.hbm } ∧ e.tracker = [] ∧ e.acqs = [] ∧
      (∀ r, (e.ring r).state = RingState.DISABLED ∧ (e.ring r).fetch = 0 ∧ (e.ring r).tail = 0 ∧ (e.ring r).head = 0 ∧ (e.ring r).cqTail = 0 ∧
        (e.ring r).phase = true ∧ (e.ring r).sqBase = (s.dev.ring r).sqBase ∧ (e.ring r).cqBase = (s.dev.ring r).cqBase) ∧
      (∀ t, e.rd .RG_TOKEN_VALUE t = 0) ∧ e.on .SP_STATUS_REQ_OPEN 0 = false ∧ (∀ k, k < 16 → e.on .OCT_PEC_STATUS_BUSY (2 * k) = false) ∧
      (∃ l, e.journal = l ++ [⟨s.dev.bed, s.dev.rd .GD_STATUS_BOOTS 0, 7, 0, some 0, 0⟩])))

/-- R337, R342, R345, R350: a pseudo-channel serves the request it picks; without an error nothing else changes, an uncorrectable word of a stream read is
recorded and raised. R339, R340, R341, R342, R347: a refresh lowers the debt and goes to the next bank, a held row closes by its times, a temperature
report sets the band, a retrain takes its time and counts its failures. R20, R348, R349, R351, R352: the operating point changes when idle and
switches when no retrain is in hand; self-refresh is entered when idle and left when wanted, with no debt; the patrol scrub goes word by word. -/
def Obligations.MemoryServesRefreshesAndSwitches : Prop :=
  ((∀ (s : State) (c : Nat) (r : Req), c < 64 → s.dev.pcFree c = true → s.dev.urgentNow c = false → s.dev.mc.bad = [] →
    let P := s.dev.pc c
    let n := (P.writes.take 64).length
    let drain : Bool := if P.draining then decide (16 < n) && decide (P.moved < 32)
      else decide (48 ≤ n) && (decide (P.moved < 32) || (P.reads.take 64).all (fun q => q.who.cls != 0))
    s.dev.pick c drain = some r → s.dev.bankHeld c (s.dev.bankOf r.addr) = false →
    Acts (.hbmRequestService c 0) s (fun e => (r.write = false → (e.pc c).moved = 0) ∧
      (r.write = true → drain = true → (e.pc c).moved = (if P.draining then P.moved else 0) + 1) ∧ (e.pc c).reads = (if r.write then P.reads else P.reads.erase r) ∧
      (e.pc c).writes = (if r.write then P.writes.erase r else P.writes) ∧ (e.pc c).draining = drain ∧ e.raised = s.dev.raised ∧
      e.mc.bad = [] ∧ (∀ k, k ≠ c → (e.pc k).reads = (s.dev.pc k).reads ∧ (e.pc k).writes = (s.dev.pc k).writes) ∧ e.tracker = s.dev.tracker ∧
      s.dev.keepsFields e [.MC_PC_COUNT_NEIGHBOUR])) ∧
  (∀ (s : State) (c p : Nat) (r : Req), c < 64 → s.dev.pcFree c = true → s.dev.urgentNow c = false → s.dev.mc.bad = [] →
    (s.dev.pc c).draining = false → (s.dev.pc c).writes = [] → s.dev.pick c false = some r → s.dev.bankHeld c (s.dev.bankOf r.addr) = false →
    r.who = .stream p → r.write = false → r.len ≠ 0 →
    Acts (.hbmRequestService c 2) s (fun e => e.on .MC_STATUS_UE 0 = true ∧ e.on .MC_ERR_VALID 0 = true ∧ e.mc.bad = [r.addr / 32] ∧
      e.raised = s.dev.raised ++ [⟨0x181, c, s.dev.unitOf r.who, s.dev.cycle⟩] ∧
      e.rd .MC_PC_COUNT_UE c = min (s.dev.rd .MC_PC_COUNT_UE c + 1) (2 ^ Fld.MC_PC_COUNT_UE.spec.width - 1) ∧
      (s.dev.on .MC_ERR_VALID 0 = false → e.rd .MC_ERR_ADDR 0 = r.addr / 32 % 2 ^ Fld.MC_ERR_ADDR.spec.width ∧ e.rd .MC_ERR_KIND 0 = 0) ∧
      (s.dev.on .MC_ERR_VALID 0 = true → e.on .MC_ERR_MORE 0 = true ∧ e.rd .MC_ERR_ADDR 0 = s.dev.rd .MC_ERR_ADDR 0))) ∧
  (∀ (s : State) (c err : Nat), c < 64 → (s.dev.pcFree c = false ∨ s.dev.urgentNow c = true ∨ s.dev.pick c (s.dev.drains c) = none ∨
      ∃ r, s.dev.pick c (s.dev.drains c) = some r ∧ s.dev.bankHeld c (s.dev.bankOf r.addr) = true) →
    Acts (.hbmRequestService c err) s (fun e => e = s.dev))) ∧
  ((∀ (s : State) (c : Nat), c < 64 →
    let b := s.dev.rd .MC_PC_STATUS_NEXT_BANK c
    Acts (.refreshIssue c) s (fun e =>
      (s.dev.pcFree c = true → s.dev.refreshDue c = true → s.dev.bankHeld c b = false →
        tget (fun _ => 0) (e.pc c).bankTo b ≤ s.dev.now + ns 200 ∧ e.debt64 c = s.dev.debt64 c - trefi (s.dev.rd .MC_PC_STATUS_RBAND c) ∧
        e.rd .MC_PC_STATUS_NEXT_BANK c = (b + 1) % 64 ∧ tget (fun _ => none) (e.pc c).rows b = none ∧ (e.pc c).reads = (s.dev.pc c).reads ∧
        s.dev.keepsBut e [(.MC_PC_STATUS_NEXT_BANK, c)]) ∧
      (s.dev.pcFree c = false ∨ s.dev.refreshDue c = false ∨ s.dev.bankHeld c b = true → e = s.dev))) ∧
  (∀ (s : State) (c b : Nat) (r : Row), c < 64 → b < 64 → tget (fun _ => none) (s.dev.pc c).rows b = some r →
    Acts (.keepOpenRowClose c b) s (fun e => s.dev.keepsBut e [] ∧ (∀ k, k ≠ c → e.pc k = s.dev.pc k) ∧
      (s.dev.asleep = false → (r.lastAt + ns 200 ≤ s.dev.now ∨ r.openedAt + us 1 ≤ s.dev.now) → tget (fun _ => none) (e.pc c).rows b = none ∧
        (∀ k, k ≠ b → tget (fun _ => none) (e.pc c).rows k = tget (fun _ => none) (s.dev.pc c).rows k)) ∧
      (s.dev.now < r.lastAt + ns 200 → s.dev.now < r.openedAt + us 1 → e = s.dev))) ∧
  (∀ (s : State) (st rep : Nat), st < 2 → s.dev.stackOk st = true → s.dev.inSR st = false → tget (fun _ => 0) s.dev.mc.repDue st ≤ s.dev.now →
    Acts (.stackTemperatureRead st rep) s (fun e => e.rd .MC_TEMP_REPORT st = rep % 2 ^ 12 ∧
      e.rd .MC_TEMP_RBAND st = bandStep (s.dev.rd .MC_TEMP_RBAND st) (e.refreshTemp st) ∧
      (e.rd .MC_TEMP_RBAND st ≠ s.dev.rd .MC_TEMP_RBAND st → ∀ k, k < 32 → e.rd .MC_PC_STATUS_RBAND (k + 32 * st) = e.rd .MC_TEMP_RBAND st) ∧
      tget (fun _ => 0) e.mc.repDue st = s.dev.now + ms 1 ∧
      s.dev.keepsFields e [.MC_TEMP_REPORT, .MC_TEMP_RBAND, .MC_PC_STATUS_RBAND, .MC_STATUS_CATCHUP, .MC_PC_COUNT_CATCHUPS])) ∧
  (∀ (s : State) (c : Nat) (ok : Bool), c < 64 → s.dev.pcFree c = true → s.dev.retrainDue c = true → s.dev.stackTraining (c / 32) = false →
    s.dev.on .MC_STATUS_OP_PENDING 0 = false →
    let k := (s.dev.pc c).trainFails + 1
    Acts (.retrain c ok) s (fun e => (e.pc c).trainAt = s.dev.now ∧ s.dev.now ≤ (e.pc c).trainEnd ∧ (e.pc c).trainEnd < s.dev.now + us 50 ∧
      (e.pc c).trainFrom = s.dev.now ∧ (e.pc c).trainHold ≤ ns 500 ∧ (ok = false → 2 ≤ k → bitAt e.mc.lostStacks (c / 32) = true) ∧
      (ok = true → (e.pc c).trainFails = 0 ∧ e.raised = s.dev.raised) ∧
      (ok = false → (e.pc c).trainFails = k ∧ e.raised = s.dev.raised ++ (⟨0x186, c, 0, s.dev.cycle⟩ :: if 2 ≤ k then [⟨0x187, c, 0, s.dev.cycle⟩] else [])) ∧
      (∀ j, j ≠ c → e.pc j = s.dev.pc j) ∧ s.dev.keepsBut e []))) ∧
  ((∀ (s : State) (v : Word), s.dev.hostReady = true → s.dev.on .FC_STATE_SAFE 0 = false →
    let new := bits v.toNat 0 1
    let old := s.dev.rd .MC_CTRL_OPPOINT 0
    Acts (.oppointWrite v) s (fun e => e.rd .MC_CTRL_KEEPOPEN 0 = bits v.toNat 1 1 ∧ e.rd .MC_CTRL_SCRUB_H 0 = bits v.toNat 8 8 ∧
      e.rd .MC_CTRL_SR_IDLE_US 0 = bits v.toNat 16 16 ∧ e.rd .MC_STATUS_OP_NOW 0 = s.dev.rd .MC_STATUS_OP_NOW 0 ∧
      (s.dev.mcIdle = true → e.rd .MC_CTRL_OPPOINT 0 = new ∧ (e.on .MC_STATUS_OP_PENDING 0 = true ↔
        s.dev.on .MC_STATUS_OP_PENDING 0 = true ∨ (new ≠ old ∧ new ≠ s.dev.rd .MC_STATUS_OP_NOW 0))) ∧
      (s.dev.mcIdle = false → e.rd .MC_CTRL_OPPOINT 0 = old ∧ (new ≠ old → e.on .DEV_REFUSED_VALID 0 = true) ∧
        e.rd .MC_STATUS_OP_PENDING 0 = s.dev.rd .MC_STATUS_OP_PENDING 0))) ∧
  (∀ s : State, s.dev.asleep = false → s.dev.on .MC_STATUS_OP_PENDING 0 = true → s.dev.pcs.all (fun x => decide (x.2.trainEnd ≤ s.dev.now)) = true →
    Acts .oppointSwitch s (fun e => e.rd .MC_STATUS_OP_NOW 0 = s.dev.rd .MC_CTRL_OPPOINT 0 % 2 ∧ e.on .MC_STATUS_OP_PENDING 0 = false ∧
      (∀ k, k < 2 → s.dev.stackOk k = true → e.inSR k = false ∧ ∀ c, c < 32 → e.debt64 (c + 32 * k) = 0) ∧
      (∀ k, k < 2 → s.dev.stackOk k = false → e.inSR k = s.dev.inSR k) ∧
      e.rd .MC_STATUS_DEFER_NS 0 = min s.dev.opWait (2 ^ 32 - 1) % 2 ^ Fld.MC_STATUS_DEFER_NS.spec.width ∧
      e.tracker = s.dev.tracker.map (fun x => if x.due % 8 = 1 ∧ descOp x.desc = 0x08 ∧ x.done = false then
        { x with due := 0, status := Status.DEFERRED_OK
                 result := x.result / 2 ^ 32 * 2 ^ 32 + min (x.result % 2 ^ 32 + (s.dev.trainsEnd - (x.due / 8 - 1)) / cycleTicks) (2 ^ 32 - 1) } else x))) ∧
  (∀ (s : State) (st : Nat), st < 2 → s.dev.stackOk st = true → s.dev.inSR st = false → s.dev.isSafe = false → s.dev.mcIdle = true →
    s.dev.rd .KL_STATUS_PSTATE 0 = 2 → s.dev.memInFlight = false → s.dev.rd .MC_CTRL_SR_IDLE_US 0 ≠ 0 →
    (∀ k, k < 2 → tget (fun _ => 0) s.dev.mc.lastReq k + us (s.dev.rd .MC_CTRL_SR_IDLE_US 0) ≤ s.dev.now) →
    s.dev.pcs.all (fun x => x.2.reads.isEmpty && x.2.writes.isEmpty) = true → s.dev.on .MC_STATUS_OP_PENDING 0 = false →
    Acts (.selfRefreshEntry st) s (fun e => (∀ k, k < 2 → e.inSR k = (s.dev.inSR k || s.dev.stackOk k)) ∧
      (∀ k, k < 2 → s.dev.stackOk k = true → s.dev.inSR k = false → tget (fun _ => 0) e.mc.srAt k = s.dev.now) ∧ s.dev.keepsBut e [(.MC_STATUS_SR, 0)])) ∧
  (∀ (s : State) (st : Nat), st < 2 → s.dev.stackOk st = true → s.dev.inSR st = false → s.dev.isSafe = true →
    let late := s.dev.fullTime (s.dev.rd .FC_SAFE_TIME_T 0) + us 250 ≤ s.dev.bed
    Acts (.selfRefreshEntry st) s (fun e => s.dev.keepsBut e [(.MC_STATUS_SR, 0)] ∧
      (late ∨ (s.dev.recordsDone = true ∧ s.dev.storeContexts.ctxWaits = false) → ∀ k, k < 2 → e.inSR k = (s.dev.inSR k || s.dev.stackOk k)) ∧
      (¬ late → s.dev.recordsDone = false → e = s.dev) ∧
      (¬ late → s.dev.recordsDone = true → s.dev.storeContexts.ctxWaits = true → e.mc.stored = true ∧ e.tracker = s.dev.tracker ∧ ∀ k, e.inSR k = s.dev.inSR k))) ∧
  (∀ (s : State) (st rep : Nat), st < 2 → s.dev.inSR st = true → s.dev.stackOk st = true → s.dev.memWanted st = true →
    s.dev.rd .KL_STATUS_PSTATE 0 ≠ 1 → s.dev.isSafe = false →
    Acts (.selfRefreshExit st rep) s (fun e => e.inSR st = false ∧ (∀ k, k < 2 → k ≠ st → e.inSR k = s.dev.inSR k) ∧ e.rd .MC_TEMP_REPORT st = rep % 2 ^ 12 ∧
      (∀ c, c < 32 → e.debt64 (c + 32 * st) = 0) ∧ e.tracker = s.dev.tracker)) ∧
  (∀ (s : State) (err : Nat), s.dev.scrubDue = true →
    let w := s.dev.mc.scrub
    let c := s.dev.pcOf (32 * w)
    s.dev.pcFree c = true → (s.dev.pc c).reads = [] → s.dev.drains c = false → s.dev.debt64 c < 64 * trefi (s.dev.rd .MC_PC_STATUS_RBAND c) →
    s.dev.bankHeld c (s.dev.bankOf (32 * w)) = false → w ∉ s.dev.mc.bad →
    Acts (.patrolScrub err) s (fun e => e.mc.scrub = (if (w + 1) * 32 < s.dev.memEnd then w + 1 else 0) ∧
      (err = 0 → e.raised = s.dev.raised ∧ s.dev.keepsFields e [.MC_PC_COUNT_NEIGHBOUR]) ∧
      (err = 1 → e.raised = s.dev.raised ++ [⟨0x180, c, 0, s.dev.cycle⟩] ∧ e.on .MC_STATUS_CE 0 = true) ∧
      (err = 2 → e.raised = s.dev.raised ++ [⟨0x183, c, 0, s.dev.cycle⟩] ∧ e.on .MC_STATUS_SCRUB_UE 0 = true ∧ w ∈ e.mc.bad))) ∧
  (∀ (s : State) (err : Nat),
    let c := s.dev.pcOf (32 * s.dev.mc.scrub)
    (s.dev.scrubDue = false ∨ s.dev.pcFree c = false ∨ (s.dev.pc c).reads ≠ [] ∨ s.dev.drains c = true ∨ s.dev.refi64 c ≤ s.dev.debt64 c ∨
      s.dev.bankHeld c (s.dev.bankOf (32 * s.dev.mc.scrub)) = true) → Acts (.patrolScrub err) s (fun e => e = s.dev)))

/-- R353, R354, R366: a lost reference fails over to the crystal or holds over; 100 ms without one, or the loss of the core PLL, ends the lock; a
reference that returns restores it. R361 to R365: a step moves Bedrock time while nothing runs; an accepted pulse sets the correction of the servo,
the first large one steps; a mode change, 2.5 s without a pulse and a day act on DSTATE, DISC and AGE_NOW. -/
def Obligations.BedrockHoldsOverStepsAndFollows : Prop :=
  ((∀ s : State, s.dev.asleep = false → s.dev.br.lossNow = false →
    let ok := s.dev.on .BR_CTRL_FAILOVER 0 = true ∧ s.dev.rd .BR_CTRL_REFSEL 0 ≠ 0 ∧ s.dev.rd .BR_STATUS_REF_NOW 0 ≠ 0 ∧ s.dev.on .BR_STATUS_XTAL_OK 0 = true
    Acts .referenceLoss s (fun e => e.on .BR_STATUS_REF_LOSS 0 = true ∧ e.raised = s.dev.raised ++ [⟨0x082, 0, 0, s.dev.cycle⟩] ∧
      (ok → e.rd .BR_STATUS_REF_NOW 0 = 0 ∧ e.br = s.dev.br) ∧ (¬ ok → e.br.lossNow = true ∧ e.br.holdAt = some s.dev.now ∧
        e.rd .BR_STATUS_REF_NOW 0 = s.dev.rd .BR_STATUS_REF_NOW 0) ∧
      s.dev.keepsBut e [(.BR_STATUS_REF_LOSS, 0), (.BR_STATUS_REF_NOW, 0), (.BR_STATUS_XTAL_OK, 0)])) ∧
  (∀ s : State, s.dev.asleep = false → Acts .holdoverExpiry s (fun e =>
    ((∃ t, s.dev.br.holdAt = some t ∧ t + ms 100 ≤ s.dev.now) → e.on .BR_STATUS_CORE_LOCK 0 = false ∧ e.br.holdAt = none ∧
      e.raised = s.dev.raised ++ [⟨0x084, 0, 0, s.dev.cycle⟩] ∧ s.dev.keepsBut e [(.BR_STATUS_CORE_LOCK, 0)]) ∧
    ((¬ ∃ t, s.dev.br.holdAt = some t ∧ t + ms 100 ≤ s.dev.now) → e = s.dev))) ∧
  (∀ s : State, s.dev.on .BR_STATUS_CORE_LOCK 0 = true →
    Acts .corePllLockLoss s (fun e => e.on .BR_STATUS_CORE_LOCK 0 = false ∧ e.raised = s.dev.raised ++ [⟨0x084, 0, 0, s.dev.cycle⟩] ∧
      s.dev.keepsBut e [(.BR_STATUS_CORE_LOCK, 0)])) ∧
  (∀ s : State,
    let sel := s.dev.rd .BR_CTRL_REFSEL 0
    let was := s.dev.rd .BR_STATUS_REF_NOW 0
    let off := s.dev.asleep = true ∨ s.dev.kl.powered = false
    Acts .referenceReturn s (fun e =>
    (s.dev.booting = none → (off → e.rd .BR_STATUS_CORE_LOCK 0 = s.dev.rd .BR_STATUS_CORE_LOCK 0) ∧ (¬ off → e.on .BR_STATUS_CORE_LOCK 0 = true) ∧
      s.dev.keepsBut e [(.BR_STATUS_CORE_LOCK, 0), (.BR_STATUS_REF_NOW, 0), (.BR_STATUS_XTAL_OK, 0)]) ∧
    (s.dev.booting = none → s.dev.br.lossNow = true → e.br = { s.dev.br with lossNow := false, holdAt := none } ∧
      ∃ x, (x = was ∨ x = sel) ∧ e.rd .BR_STATUS_REF_NOW 0 = x % 2 ^ Fld.BR_STATUS_REF_NOW.spec.width ∧ (x = 0 → e.on .BR_STATUS_XTAL_OK 0 = true)) ∧
    (s.dev.br.lossNow = false → e.br = s.dev.br ∧ s.dev.keepsBut e [(.BR_STATUS_CORE_LOCK, 0)]) ∧
    (∀ b, s.dev.br.lossNow = true → s.dev.booting = some b → e.booting = none ∧ e.on .BR_STATUS_CORE_LOCK 0 = true)))) ∧
  ((∀ (s : State) (v : Word), s.dev.hostReady = true →
    let refused := (s.dev.brRunning = true ∧ s.dev.on .FC_STATE_SAFE 0 = false) ∨ s.dev.rd .BR_CTRL_MODE 0 = 2
    Acts (.stepCommit v) s (fun e => (bitAt v.toNat 0 = false → e = s.dev.reached) ∧
      (bitAt v.toNat 0 = true → refused → e.on .BR_STATUS_STEP_REF 0 = true ∧ e.raised = s.dev.raised ++ [⟨0x086, 0, 0, s.dev.cycle⟩] ∧
        e.bedOff = s.dev.bedOff ∧ s.dev.keepsBut e [(.BR_STATUS_STEP_REF, 0)]) ∧
      (bitAt v.toNat 0 = true → ¬ refused → e.bedOff = s.dev.bedOff + sgn 32 (s.dev.rd .BR_STEP_NS 0) * cycleTicks ∧ s.dev.keepsBut e []))) ∧
  (∀ (s : State) (frac : Nat), frac < cycleTicks → s.dev.asleep = false → s.dev.rd .BR_CTRL_MODE 0 = 1 →
    let T := (s.dev.bed + frac) / 64 * 64
    let now_ := s.dev.now + frac
    let rej := s.dev.br.ppsAny = true ∧ (now_ + ms 1 < s.dev.br.ppsAt + secs 1 ∨ s.dev.br.ppsAt + secs 1 + ms 1 < now_)
    let err : Rat := (phaseError T : Rat) / cycleTicks
    let tau : Rat := max 1 (s.dev.rd .BR_SERVO_TAU_S 0)
    let big := s.dev.rd .BR_STATUS_DSTATE 0 = 1 ∧ s.dev.br.stepped = false ∧ (1000 ≤ err ∨ err ≤ -1000) ∧
      (s.dev.brRunning = false ∨ s.dev.on .FC_STATE_SAFE 0 = true)
    Acts (.ppsPulse frac) s (fun e =>
      (rej → e.raised = s.dev.raised ++ [⟨0x080, 0, 0, s.dev.cycle⟩] ∧ e.br = s.dev.br ∧ s.dev.keepsBut e [(.BR_STATUS_PPS_REJ, 0)]) ∧
      (¬ rej → e.rd .BR_PPS_LAST_T 0 = T % 2 ^ 64 ∧ e.br.ppsAny = true ∧ e.br.ppsAt = now_ ∧
        e.rd .BR_STATUS_PPS_ACC 0 = min (s.dev.rd .BR_STATUS_PPS_ACC 0 + 1) (2 ^ 16 - 1) ∧
        (big → e.bedOff = s.dev.bedOff + -(ratRound err) * cycleTicks ∧ e.rd .BR_DISC_PPT 0 = s.dev.rd .BR_DISC_PPT 0) ∧
        (¬ big → e.bedOff = s.dev.bedOff ∧ e.br.integ = s.dev.br.integ - 250 / (tau * tau) * err ∧
          e.rd .BR_DISC_PPT 0 = unsgn 32 (ratRound (clampRat (-10000000) 10000000 (s.dev.br.integ - 1000 / tau * err))) % 2 ^ 32)) ∧
      s.dev.keepsFields e [.BR_STATUS_PPS_REJ, .BR_STATUS_PPS_ACC, .BR_PPS_LAST_T, .BR_PPS_ERR_NS, .BR_DISC_PPT, .BR_STATUS_DSTATE, .BR_STATUS_CLAMP])) ∧
  (∀ s : State, s.dev.asleep = false → s.dev.br.ppsAt + ms 2500 ≤ s.dev.now →
    let on_ := s.dev.rd .BR_STATUS_DSTATE 0 = 1 ∨ s.dev.rd .BR_STATUS_DSTATE 0 = 2
    Acts .disciplineHoldover s (fun e => (¬ on_ → e = s.dev) ∧ (on_ → e.rd .BR_STATUS_DSTATE 0 = 3 ∧
      e.raised = s.dev.raised ++ [⟨0x081, 0, 0, s.dev.cycle⟩] ∧ s.dev.keepsBut e [(.BR_STATUS_DSTATE, 0)]))) ∧
  (∀ (s : State) (v : Word), s.dev.hostReady = true →
    let m := bits v.toNat 4 2
    let old := s.dev.rd .BR_STATUS_DSTATE 0
    Acts (.disciplineModeWrite v) s (fun e => e.rd .BR_CTRL_MODE 0 = m ∧ e.rd .BR_CTRL_FAILOVER 0 = bits v.toNat 7 1 ∧
      e.rd .BR_CTRL_REFSEL 0 = (if s.dev.br.locked then s.dev.rd .BR_CTRL_REFSEL 0 else bits v.toNat 0 2) ∧
      (m = s.dev.rd .BR_CTRL_MODE 0 → e.rd .BR_STATUS_DSTATE 0 = old ∧ e.br = s.dev.br) ∧
      (m ≠ s.dev.rd .BR_CTRL_MODE 0 → (m = 1 ∨ m = 2) → e.rd .BR_STATUS_DSTATE 0 = (if old = 0 then 1 else old) ∧ e.br.ppsAny = false) ∧
      (m ≠ s.dev.rd .BR_CTRL_MODE 0 → m ≠ 1 → m ≠ 2 → e.rd .BR_STATUS_DSTATE 0 = 0 ∧ e.rd .BR_DISC_PPT 0 = 0 ∧ e.br.integ = 0) ∧
      s.dev.keepsFields e [.BR_CTRL_MODE, .BR_CTRL_FAILOVER, .BR_CTRL_REFSEL, .BR_STATUS_DSTATE, .BR_DISC_PPT, .BR_STATUS_CLAMP, .DEV_REFUSED_VALID,
        .DEV_REFUSED_MORE, .DEV_REFUSED_KIND, .DEV_REFUSED_ADDR])) ∧
  (∀ s : State, Writes .ageNowAdvance s (fun m e =>
    (∀ a, (a < 0x26_0000 ∨ 0x26_2000 ≤ a) → tget byteF m.flash a = tget byteF s.mem.flash a) ∧ m = { s.mem with flash := m.flash } ∧
    (s.dev.rd .KL_STATUS_PSTATE 0 < 2 → m = s.mem) ∧
    (s.dev.br.dayAt + secs 86400 ≤ s.dev.bed → 2 ≤ s.dev.rd .KL_STATUS_PSTATE 0 → e.br.ageSaved = (s.dev.rd .BR_AGE_NOW_DAYS 0 + 1) % 2 ^ 32) ∧
    (s.dev.br.dayAt + secs 86400 ≤ s.dev.bed → e.rd .BR_AGE_NOW_DAYS 0 = (s.dev.rd .BR_AGE_NOW_DAYS 0 + 1) % 2 ^ 32 ∧
      e.br.dayAt = s.dev.br.dayAt + secs 86400 ∧ s.dev.keepsFields e [.BR_AGE_NOW_DAYS, .BR_STATUS_CLAMP]) ∧
    (s.dev.bed < s.dev.br.dayAt + secs 86400 → m = s.mem ∧ e = s.dev))))

/-- R374, R375, R376, R377: a port that is enabled detects, trains where a TRAIN block comes, goes up or falls back at the end of a training, and detects
again without block lock; a new rate is taken at once when UP and at the end of the step while it trains. R371, R372, R373, R379, R389: frames are
taken in order and each else marks the gap; ACK releases, NAK and the timeout send again, the eighth time retrains; the figure of merit reverts a
lane; FAULT blocks are noted. R61, R64, R280, R380, R381, R385, R386, R387: a time exchange is numbered, answered and accepted or rejected; a span
packet acts on the site that carries its tag at its time plus the latency, and one that matches nothing is counted. -/
def Obligations.PortsTrainCarryFramesAndTime : Prop :=
  ((∀ (s : State) (p : Nat) (v : Word), p < 4 → s.dev.hostReady = true → s.dev.on .RN_PORT_CTRL_EN p = false → s.dev.lstate p = Lst.OFF →
    bitAt v.toNat 31 = true → bits v.toNat 8 2 < 2 → s.dev.reinOn p = true →
    Acts (.portEnable p v) s (fun e => e.on .RN_PORT_CTRL_EN p = true ∧ e.rd .RN_PORT_CTRL_ROLE p = bits v.toNat 8 2 ∧
      e.rd .RN_PORT_CTRL_RATE_MAX p = bits v.toNat 0 2 ∧ e.lstate p = Lst.DETECT ∧ e.rd .RN_PORT_STATUS_RATE_NOW p = 0 ∧
      (e.port p).detectAt = s.dev.now ∧ (e.port p).failed = 0 ∧ (∀ q, q ≠ p → e.lstate q = s.dev.lstate q ∧ e.port q = s.dev.port q))) ∧
  (∀ (s : State) (p : Nat) (v : Word), p < 4 → s.dev.hostReady = true → s.dev.on .RN_PORT_CTRL_EN p = true → bitAt v.toNat 31 = true →
    bits v.toNat 0 2 ≠ s.dev.rd .RN_PORT_CTRL_RATE_MAX p →
    let top := min (bits v.toNat 0 2) (s.dev.rd .RN_PORT_PEER_PEER_RATE p)
    Acts (.rateMaxWrite p v) s (fun e => e.rd .RN_PORT_CTRL_RATE_MAX p = bits v.toNat 0 2 ∧
      (s.dev.lstate p = Lst.UP → e.lstate p = Lst.TRAIN ∧ e.rd .RN_PORT_STATUS_RATE_NOW p = top ∧ ⟨0x303, p, 0, s.dev.cycle⟩ ∈ e.raised) ∧
      (s.dev.lstate p = Lst.TRAIN → (s.dev.port p).step.isSome = true → e.lstate p = Lst.TRAIN ∧ e.on .RN_PORT_STATUS_RATE_PENDING p = true ∧
        (e.port p).pendAt = some s.dev.now ∧ e.rd .RN_PORT_STATUS_RATE_NOW p = s.dev.rd .RN_PORT_STATUS_RATE_NOW p))) ∧
  (∀ (s : State) (p rate : Nat), p < 4 →
    Acts (.train p rate) s (fun e => (s.dev.lstate p = Lst.OFF → e = s.dev) ∧
      (s.dev.lstate p = Lst.DETECT → (s.dev.port p).detectAt ≤ s.dev.now → e.lstate p = Lst.TRAIN ∧ e.rd .RN_PORT_STATUS_RATE_NOW p = 0 ∧
        e.rd .RN_PORT_PEER_PEER_RATE p = rate % 4 ∧ (e.port p).step = some s.dev.now) ∧
      (s.dev.lstate p = Lst.UP → e.lstate p = Lst.TRAIN ∧ e.on .RN_PORT_STATUS_LINK_LOSS p = true ∧ ⟨0x303, p, 0, s.dev.cycle⟩ ∈ e.raised))) ∧
  (∀ (s : State) (p : Nat), p < 4 → s.dev.lstate p = Lst.TRAIN →
    Acts (.trainingStepEnd p) s (fun e => e.lstate p = Lst.TRAIN ∧ (e.port p).step = some s.dev.now ∧ (e.port p).pendAt = none ∧
      e.tracker = (if (s.dev.port p).pendAt.isSome then s.dev.stepOver (2 + p) s.dev.now else s.dev).tracker ∧
      ((s.dev.port p).pendAt.isSome = true → e.on .RN_PORT_STATUS_RATE_PENDING p = false ∧ e.rd .RN_PORT_STATUS_RATE_NOW p = s.dev.rateTop p % 4) ∧
      ((s.dev.port p).pendAt = none → s.dev.keepsBut e []))) ∧
  (∀ (s : State) (p lanes peerLanes pw : Nat) (fom : List Nat), p < 4 → s.dev.lstate p = Lst.TRAIN → (s.dev.port p).pendAt = none →
    let r := s.dev.rd .RN_PORT_STATUS_RATE_NOW p
    let w := widthFit (s.dev.goodLanes p lanes fom &&& peerLanes) (min (widthOf (s.dev.rd .RN_PORT_CTRL_WIDTH_MAX p)) (widthOf pw))
    let less := ∃ r0 w0, (s.dev.port p).good = some (r0, w0) ∧ r0 < r ∧ w < w0
    Acts (.trainingEnd p lanes fom peerLanes pw) s (fun e =>
      (∀ i, i < 4 → e.on .RN_LANE_STATUS_LOCK (4 * p + i) = bitAt lanes i ∧ e.rd .RN_LANE_STATUS_FOM (4 * p + i) = min (fom.getD i 0) 4095) ∧
      (w = 0 → r = 0 → e.lstate p = Lst.DETECT ∧ ⟨0x30A, p, 0, s.dev.cycle⟩ ∈ e.raised) ∧
      (¬ (w = 0 ∧ r = 0) → (w = 0 ∨ less) → e.lstate p = Lst.TRAIN ∧ e.on .RN_PORT_STATUS_FALLBACK p = true ∧
        ⟨0x304, p, 0, s.dev.cycle⟩ ∈ e.raised ∧ bitAt (e.port p).failed r = true ∧
        (∀ r0 w0, (s.dev.port p).good = some (r0, w0) → r0 < r → e.rd .RN_PORT_STATUS_RATE_NOW p = r0 % 2 ^ Fld.RN_PORT_STATUS_RATE_NOW.spec.width)) ∧
      (∀ x, w ≠ 0 → ¬ less → s.dev.rateUp p r = some x → e.lstate p = Lst.TRAIN ∧ e.rd .RN_PORT_STATUS_RATE_NOW p = x ∧ (e.port p).good = some (r, w)) ∧
      (w ≠ 0 → ¬ less → s.dev.rateUp p r = none → ((s.dev.port p).txN ≠ [] → ⟨0x300, p, 0, s.dev.cycle⟩ ∈ e.raised) ∧ e.lstate p = Lst.UP ∧ e.rd .RN_PORT_STATUS_WIDTH_NOW p = w / 2 ∧ e.rd .RN_PORT_STATUS_LANES p = 2 ^ w - 1))) ∧
  (∀ (s : State) (p : Nat), p < 4 →
    Acts (.blockLockLoss p) s (fun e => (s.dev.lstate p < 2 → e = s.dev) ∧
      (2 ≤ s.dev.lstate p → e.lstate p = Lst.DETECT ∧ e.rd .RN_PORT_STATUS_RATE_NOW p = 0 ∧ ⟨0x303, p, 0, s.dev.cycle⟩ ∈ e.raised ∧
        (∀ i, i < 4 → e.on .RN_LANE_STATUS_LOCK (4 * p + i) = false))))) ∧
  ((∀ (s : State) (l fom : Nat) (quiet : Bool), l < 16 → s.dev.lstate (l / 4) = Lst.UP →
    s.dev.rd .RN_PORT_CTRL_FOM_MIN (l / 4) ≤ min fom 4095 →
    let f := min fom 4095
    let snap := s.dev.rd .RN_LANE_STATUS_SNAP l
    let revert := 10 * f < 9 * snap ∧ (s.dev.rnLane l).calmTo ≤ s.dev.now
    Acts (.fomSample l fom quiet) s (fun e => e.rd .RN_LANE_STATUS_FOM l = f ∧ e.on .RN_LANE_STATUS_FROZEN l = quiet ∧
      e.rd .RN_LANE_STATUS_SNAP l = max snap f ∧
      (revert → e.on .RN_LANE_STATUS_REVERTED l = true ∧ e.raised = s.dev.raised ++ [⟨0x301, l, 0, s.dev.cycle⟩] ∧
        (e.rnLane l).calmTo = s.dev.now + us 100) ∧
      (¬ revert → e.raised = s.dev.raised) ∧
      s.dev.keepsBut e [(.RN_LANE_STATUS_FOM, l), (.RN_LANE_STATUS_FROZEN, l), (.RN_LANE_STATUS_SNAP, l), (.RN_LANE_STATUS_REVERTED, l),
        (.RN_LANE_STATUS_REVERTS, l)])) ∧
  (∀ (s : State) (p seq : Nat) (pri crc elastic : Bool) (lanes : List Nat), p < 4 →
    let want := (s.dev.port p).rx pri
    let n := seq % 4096
    let nak := stripe (s.dev.width p) [replyBlock Blk.NAK pri want]
    let F := (laneFrames ((lanes.take (s.dev.width p)).map laneBlocks)).find? (fun f => f.pri == pri && f.seq == n)
    Acts (.frame p pri seq crc elastic lanes) s (fun e => (s.dev.lstate p ≠ Lst.UP → e = s.dev) ∧
      (s.dev.lstate p = Lst.UP → elastic = false → e.on .RN_PORT_STATUS_ELASTIC p = true ∧ e.lstate p = Lst.TRAIN ∧
        ⟨0x308, p, 0, s.dev.cycle⟩ ∈ e.raised) ∧
      (s.dev.lstate p = Lst.UP → elastic = true → F = none → (e.port p).rx pri = want ∧ (e.port p).gap pri = true ∧
        (e.port p).out = nak ∧ s.dev.keepsFields e [.RN_LANE_STATUS_FROZEN]) ∧
      (∀ f, s.dev.lstate p = Lst.UP → elastic = true → F = some f →
        let ok := (crc && f.ok) = true
        (¬ (ok ∧ n = want) → s.dev.keepsFields e [.RN_LANE_STATUS_FROZEN]) ∧
        (¬ ok → (e.port p).rx pri = want ∧ (e.port p).gap pri = true ∧ (e.port p).out = nak) ∧
        (ok → n = want → (pri = false ∨ s.dev.rd .RN_PORT_CTRL_ROLE p ≠ 0 ∨ pktsOf f.data = []) →
          (e.port p).rx pri = (want + 1) % 4096 ∧ (e.port p).gap pri = false ∧
            (e.port p).out = stripe (s.dev.width p) [replyBlock Blk.ACK pri want] ∧ s.dev.keepsFields e [.RN_LANE_STATUS_FROZEN]) ∧
        (∀ k, ok → n = want → pri = true → s.dev.rd .RN_PORT_CTRL_ROLE p = 0 → pktsOf f.data = [k] →
          ∃ d, e = d.delivered p k ∧ (d.port p).rx true = (want + 1) % 4096 ∧ (d.port p).gap true = false ∧ d.sites = s.dev.sites ∧
            s.dev.keepsFields d [.RN_LANE_STATUS_FROZEN]) ∧
        (ok → n ≠ want → seqFrom n want = true → (e.port p).rx pri = want ∧ (e.port p).gap pri = true ∧ (e.port p).out = nak) ∧
        (ok → n ≠ want → seqFrom n want = false → e.port p =
          { s.dev.port p with out := stripe (s.dev.width p) [replyBlock Blk.ACK pri ((want + 4095) % 4096)] })))) ∧
  (∀ (s : State) (p seq : Nat) (pri : Bool), p < 4 → s.dev.lstate p = Lst.UP → (pri = true ∨ s.dev.twinPort ≠ p) →
    Acts (.ack p pri seq) s (fun e => (e.port p).tx pri = ((s.dev.port p).tx pri).filter (fun f => !seqFrom (seq % 4096) f.seq) ∧
      (e.port p).tx (!pri) = (s.dev.port p).tx (!pri) ∧ (∀ q, q ≠ p → e.port q = s.dev.port q) ∧ s.dev.keepsFields e [.RN_LANE_STATUS_FROZEN])) ∧
  (∀ (s : State) (p seq : Nat) (pri : Bool), p < 4 → s.dev.lstate p = Lst.UP → s.dev.sends p = true →
    let l := (s.dev.port p).tx pri
    let sel := fun (f : TxFrame) => seqFrom f.seq (seq % 4096)
    l.any sel = true →
    Acts (.nak p pri seq) s (fun e =>
      (l.any (fun f => sel f && decide (8 ≤ f.sent)) = true → e.lstate p = Lst.TRAIN ∧ ⟨0x307, p, 0, s.dev.cycle⟩ ∈ e.raised) ∧
      (l.any (fun f => sel f && decide (8 ≤ f.sent)) = false → e.raised = s.dev.raised ++ [⟨0x300, p, 0, s.dev.cycle⟩] ∧
        (e.port p).tx pri = l.map (fun f => if sel f then { f with at_ := s.dev.now, sent := f.sent + 1 } else f) ∧
        e.rd .RN_PORT_STATUS_REPLAYS p = min (s.dev.rd .RN_PORT_STATUS_REPLAYS p + (l.filter sel).length) (2 ^ 16 - 1) ∧
        s.dev.keepsFields e [.RN_PORT_STATUS_REPLAYS, .RN_LANE_STATUS_FROZEN]))) ∧
  (∀ (s : State) (p : Nat), p < 4 → s.dev.sends p = true →
    let late := fun (f : TxFrame) => decide (f.at_ + us 8 ≤ s.dev.now)
    (s.dev.port p).txN.any late = false → (s.dev.port p).txP.any (fun f => late f && decide (8 ≤ f.sent)) = false →
    Acts (.replayTimeout p) s (fun e => ((s.dev.port p).txP.any late = false → e = s.dev) ∧
      ((s.dev.port p).txP.any late = true → e.raised = s.dev.raised ++ [⟨0x300, p, 0, s.dev.cycle⟩] ∧
        (e.port p).txP = (s.dev.port p).txP.map (fun f => if late f then { f with at_ := s.dev.now, sent := f.sent + 1 } else f)))) ∧
  (∀ (s : State) (p : Nat), p < 4 → s.dev.lstate p = Lst.UP →
    Acts (.faultBlock p) s (fun e => e.on .RN_PORT_STATUS_PEER_FAULT_NOW p = true ∧
      (s.dev.on .RN_PORT_STATUS_PEER_FAULT_NOW p = true → e.raised = s.dev.raised ∧ s.dev.keepsFields e [.RN_LANE_STATUS_FROZEN] ∧
        (∀ i, i < s.dev.width p → e.on .RN_LANE_STATUS_FROZEN (4 * p + i) = false)) ∧ (s.dev.on .RN_PORT_STATUS_PEER_FAULT_NOW p = false →
        e.on .RN_PORT_STATUS_PEER_FAULT p = true ∧ ⟨0x305, p, 0, s.dev.cycle⟩ ∈ e.raised))) ∧
  (∀ (s : State) (p : Nat), p < 4 → s.dev.lstate p = Lst.UP →
    Acts (.peerFaultClear p) s (fun e => e.on .RN_PORT_STATUS_PEER_FAULT_NOW p = false ∧ s.dev.keepsBut e [(.RN_PORT_STATUS_PEER_FAULT_NOW, p)]))) ∧
  ((∀ (s : State) (p : Nat), p < 4 → s.dev.lstate p = Lst.UP → s.dev.on .RN_PORT_CTRL_UPSTREAM p = true →
    ((s.dev.port p).exAt = none ∨ ∃ t, (s.dev.port p).exAt = some t ∧ t + us 16 ≤ s.dev.now) →
    Acts (.timeExchangeStart p) s (fun e => (e.port p).ex = ((s.dev.port p).ex + 1) % 256 ∧ (e.port p).t1 = some s.dev.stamp16 ∧
      (e.port p).exAt = some s.dev.now ∧ (∀ q, q ≠ p → e.port q = s.dev.port q) ∧ s.dev.keepsBut e [(.RN_PORT_PEER_REJECTS, p)] ∧
      ((s.dev.port p).t1 = none → e.raised = s.dev.raised ∧ s.dev.keepsBut e []) ∧
      ((s.dev.port p).t1.isSome = true → e.raised = s.dev.raised ++ [⟨0x306, p, 0, s.dev.cycle⟩]))) ∧
  (∀ (s : State) (p n : Nat), p < 4 → s.dev.lstate p = Lst.UP →
    Acts (.treq p n) s (fun e => (∃ t3, s.dev.stamp16 ≤ t3 ∧ t3 % 16 = 0 ∧ (e.port p).answered = some (n % 256, s.dev.stamp16, t3)) ∧
      (∀ q, q ≠ p → e.port q = s.dev.port q) ∧ s.dev.keepsBut e [(.RN_LANE_STATUS_FROZEN, 4 * p)])) ∧
  (∀ (s : State) (p n t1 t2 turn dly tin : Nat) (intact : Bool), p < 4 → s.dev.lstate p = Lst.UP → n % 256 = (s.dev.port p).ex →
    (s.dev.port p).t1 = some t1 → (intact = false ∨ (s.dev.port p).accepts < 16) → s.dev.rd .BR_CTRL_MODE 0 ≠ 2 →
    let t4 := tin / 16 * 16
    let rt : Int := ((t4 : Int) - t1) - turn
    let asym : Int := ((bits dly 26 26 : Int) + s.dev.rnDelay p 1) - (s.dev.rnDelay p 0 + (bits dly 0 26 : Int)) + sgn 16 (s.dev.rd .RN_PORT_TIMECAL_BOARD_ASYM p)
    let err : Rat := ((((t1 : Int) - t2) + ((t4 : Int) - (t2 + turn : Nat)) - asym : Int) : Rat) / 2
    Acts (.timeExchangeComplete p n t2 turn dly tin intact) s (fun e => (e.port p).t1 = none ∧
      (intact = false → e.raised = s.dev.raised ++ [⟨0x306, p, 0, s.dev.cycle⟩] ∧ s.dev.keepsBut e [(.RN_PORT_PEER_REJECTS, p), (.RN_LANE_STATUS_FROZEN, 4 * p)]) ∧
      (intact = true → (e.port p).rts = (rt :: (s.dev.port p).rts).take 16 ∧ (e.port p).accepts = (s.dev.port p).accepts + 1 ∧
        e.rd .RN_PORT_TIME_THETA p = unsgn 32 (clampInt (-(2 ^ 31)) (2 ^ 31 - 1) (ratRound err)) % 2 ^ 32 ∧
        e.rd .RN_PORT_PEER_ASYM p = unsgn 32 asym % 2 ^ 32 ∧
        s.dev.keepsBut e [(.RN_PORT_TIME_THETA, p), (.RN_PORT_TIME_DELAY, p), (.RN_PORT_PEER_ASYM, p), (.RN_LANE_STATUS_FROZEN, 4 * p)]))) ∧
  (∀ (s : State) (p tag n c t m k : Nat) (v : Bool), p < 4 → s.dev.spanIn p = true → s.dev.tagged tag = [n] →
    let low := t % 2 ^ 64
    let at_ := s.dev.fullTime low + ns (s.dev.rd .SITE_SPAN_LAT_LAT n)
    s.dev.bed + ns 20 ≤ at_ →
    Acts (.condPacket p tag c v t) s (fun e => (∀ j, j ≠ n → e.site j = s.dev.site j) ∧
      (s.dev.spanWide n (c % 32) = true → (e.site n).conds = (s.dev.site n).conds ++ [⟨cycleAfter at_, 256 + c % 32, v, true, low⟩])) ∧
    Acts (.haltPacket p tag t) s (fun e => (∀ j, j ≠ n → e.site j = s.dev.site j) ∧
      (e.site n).spanHalt = some (match (s.dev.site n).spanHalt with | some x => min x at_ | none => at_)) ∧
    Acts (.markPacket p tag m t) s (fun e => ∃ g, e.signals.head? = some g ∧ g.kind = .mark ∧ g.t = at_ ∧ g.unit = n ∧ g.idx = m % 16 ∧ g.level = true) ∧
    (s.dev.siteState n = SiteState.ARMED → (s.dev.site n).mode = 3 →
      Acts (.startPacket p tag t) s (fun e => (e.site n).start = some at_ ∧ (∀ j, j ≠ n → e.site j = s.dev.site j))) ∧
    (k < 16 → tag = s.dev.rd .TA_SPAN_TAG 0 → k ∈ s.dev.trigTagged tag (m % 16) →
      Acts (.trigPacket p tag m t) s (fun e => ∃ x, (e.slot k).evs = (s.dev.slot k).evs ++ [x] ∧ x.t = s.dev.fullTime low ∧ x.remote = true))) ∧
  (∀ (s : State) (p tag c t : Nat) (v : Bool), p < 4 → s.dev.spanIn p = true → s.dev.tagged tag = [] →
    Acts (.condPacket p tag c v t) s (fun e => e.sites = s.dev.sites ∧ ⟨0x309, p, 0, s.dev.cycle⟩ ∈ e.raised ∧
      s.dev.keepsFields e [.RN_PORT_COUNT_NOMATCH, .RN_PORT_COUNT_DUP, .RN_PORT_COUNT_FWD])))

/-- R390, R392, R393, R394, R395, R396, R397: roles change with EN, with the pairing, with the end of seeking, of the sync and of the wait; a heartbeat
renews the lease, a lost one and an ended lease act; two owners give way. R396, R398, R399, R400, R402, R403, R406: a follower applies the frames of
its primary and notes its completions, a primary takes the acknowledgements; a takeover takes the pins first and the rings when the board has
switched. -/
def Obligations.TwinsTakeRolesMirrorAndTakeOver : Prop :=
  ((∀ (s : State) (v : Word), s.dev.hostReady = true → s.dev.anyRunning = false → s.dev.role ≠ 2 →
    let new := bitAt v.toNat 31
    let old := s.dev.on .TW_CTRL_EN 0
    Acts (.twinEnable v) s (fun e => e.on .TW_CTRL_EN 0 = new ∧ e.rd .TW_CTRL_PORT 0 = bits v.toNat 28 2 ∧ e.on .TW_CTRL_PREFER 0 = bitAt v.toNat 30 ∧
      (new = old → e.role = s.dev.role ∧ e.tracker = s.dev.tracker) ∧
      (new = true → old = false → e.role = 1 ∧ e.on .TW_STATUS_OWN 0 = false ∧ e.tw.seekAt = s.dev.now) ∧
      (new = false → old = true → e.role = 0 ∧ e.on .TW_STATUS_OWN 0 = false))) ∧
  (∀ (s : State) (img dig serial : Nat) (prefer solo : Bool), (s.dev.role = 1 ∨ s.dev.role = 5) → s.dev.twinUp = true →
    let mine := ofBytes (readMem otpByte s.mem.otp 0 16)
    let first : Bool := if s.dev.role = 5 then true else if solo then false
      else if s.dev.on .TW_CTRL_PREFER 0 != prefer then !s.dev.on .TW_CTRL_PREFER 0 else decide (mine < serial)
    Acts (.pairing img dig serial prefer solo) s (fun e =>
      ((img ≠ s.dev.imageOf ∨ dig ≠ s.dev.digestOf) → e.on .TW_STATUS_DIGEST_MISMATCH 0 = true ∧ e.role = s.dev.role ∧
        e.raised = s.dev.raised ++ [⟨0x343, 0, 0, s.dev.cycle⟩] ∧ s.dev.keepsBut e [(.TW_STATUS_DIGEST_MISMATCH, 0)]) ∧
      (img = s.dev.imageOf → dig = s.dev.digestOf → e.rd .TW_SYNC_DONE_BYTES 0 = 0 ∧
        (first = true → e.role = 3 ∧ e.on .TW_STATUS_OWN 0 = true) ∧ (first = false → e.role = 2 ∧ e.on .TW_STATUS_OWN 0 = false)))) ∧
  (∀ s : State, s.dev.asleep = false → s.dev.role = 1 → s.dev.twinUp = false → s.dev.tw.seekAt + ms (s.dev.rd .TW_LEASE_SEEK_MS 0) ≤ s.dev.now →
    Acts .seekTimeout s (fun e => e.role = (if s.dev.on .TW_STATUS_PEER_OWN 0 then 6 else 5) ∧
      e.on .TW_STATUS_OWN 0 = (!s.dev.on .TW_STATUS_PEER_OWN 0))) ∧
  (∀ s : State, s.dev.asleep = false → 2 ≤ s.dev.role → s.dev.role ≤ 5 → s.dev.isSafe = false → s.dev.tw.hbAt + s.dev.hbTicks ≤ s.dev.now →
    Acts .heartbeat s (fun e => e.tw.hbAt = s.dev.now ∧ s.dev.keepsBut e [] ∧
      e.tw.lease = (if s.dev.on .TW_STATUS_OWN 0 then s.dev.now + s.dev.leaseTicks else s.dev.tw.lease))) ∧
  (∀ s : State, s.dev.asleep = false → s.dev.heartbeatGone = true →
    Acts .heartbeatLoss s (fun e =>
      (s.dev.role = 3 → e.role = 5 ∧ e.on .TW_STATUS_OWN 0 = true ∧ e.on .TW_STATUS_PEER_LOST 0 = true ∧ e.tw.queue = [] ∧
        (∀ x, x ∈ e.tracker → x.noticed = true → x.acked = true)) ∧
      (s.dev.role = 4 → s.dev.tw.lostAt = none → e.tw.lostAt = some s.dev.now ∧ e.on .TW_STATUS_PEER_LOST 0 = true ∧
        s.dev.keepsBut e [(.TW_STATUS_PEER_LOST, 0)]) ∧
      (s.dev.role = 2 → e.on .TW_STATUS_PEER_LOST 0 = true ∧ s.dev.keepsBut e [(.TW_STATUS_PEER_LOST, 0)]))) ∧
  (∀ s : State, Acts .leaseExpiry s (fun e =>
    (s.dev.asleep = false → s.dev.on .TW_STATUS_OWN 0 = true → s.dev.tw.lease ≤ s.dev.now → e.on .TW_STATUS_OWN 0 = false ∧
      e.raised = s.dev.raised ++ [⟨0x345, 0, 0, s.dev.cycle⟩] ∧ s.dev.keepsBut e [(.TW_STATUS_OWN, 0)]) ∧
    (s.dev.on .TW_STATUS_OWN 0 = false ∨ s.dev.now < s.dev.tw.lease → e = s.dev))) ∧
  (∀ s : State, Acts .twinPeerAsserted s (fun e => e.on .TW_STATUS_PEER_OWN 0 = true ∧
    (s.dev.on .TW_STATUS_OWN 0 = true → e.role = 6 ∧ e.on .TW_STATUS_OWN 0 = false ∧ e.on .TW_STATUS_CONTENTION 0 = true ∧
      ⟨0x344, 0, 0, s.dev.cycle⟩ ∈ e.raised) ∧
    (s.dev.on .TW_STATUS_OWN 0 = false → e.tw.peerOnAt = s.dev.now ∧ s.dev.keepsBut e [(.TW_STATUS_PEER_OWN, 0)]))) ∧
  (∀ s : State, Acts .twinPeerDeassertion s (fun e => e.on .TW_STATUS_PEER_OWN 0 = false ∧ e.tw.peerOffAt = s.dev.now ∧
    (s.dev.role = 6 → s.dev.twinUp = true → e.role = 1) ∧ (s.dev.role ≠ 6 → s.dev.keepsBut e [(.TW_STATUS_PEER_OWN, 0)]))) ∧
  (∀ (s : State) (t : Nat), s.dev.asleep = false → s.dev.tw.lostAt = some t → s.dev.role = 4 → s.dev.on .TW_STATUS_PEER_OWN 0 = true →
    t + s.dev.leaseTicks + us 50 ≤ s.dev.now →
    Acts .peerWaitTimeout s (fun e => e.role = 6 ∧ ⟨0x340, 0, 0, s.dev.cycle⟩ ∈ e.raised)) ∧
  (∀ s : State, Acts .syncComplete s (fun e => (s.dev.role = 2 → e.role = 4) ∧ (s.dev.role ≠ 2 → e = s.dev)))) ∧
  ((∀ (s : State) (r a t : Nat), r < 65536 → t < 4096 → s.dev.twinUp = true → s.dev.follows = true →
    Acts (.mirrorFrame 0 r a 0) s (fun e => (e.ring r).tail = a ∧ (∀ q, q ≠ r → e.ring q = s.dev.ring q) ∧ s.dev.keepsBut e []) ∧
    Acts (.mirrorFrame 1 r a 0) s (fun e => (e.ring r).head = a ∧ (∀ q, q ≠ r → e.ring q = s.dev.ring q) ∧ s.dev.keepsBut e []) ∧
    Acts (.mirrorFrame 3 t a 0) s (fun e => e.rd .RG_TOKEN_VALUE t = { s.dev.tokenCyc t with mmio := some (a % 2 ^ 32) }.value ∧
      ((tget (fun _ => {}) s.dev.ringEng.tokens t).cycle ≠ s.dev.cycle + 1 → e.rd .RG_TOKEN_VALUE t = a % 2 ^ 32) ∧
      e.tokenSeen t = s.dev.tokenSeen t ∧ s.dev.keepsBut e [(.RG_TOKEN_VALUE, t)]) ∧
    Acts (.mirrorFrame 12 t a 0) s (fun e => e.rd .RG_TOKEN_VALUE t = a % 2 ^ 32 ∧ s.dev.keepsBut e [(.RG_TOKEN_VALUE, t)])) ∧
  (∀ (s : State) (r idx desc : Nat), r < 65536 → s.dev.twinUp = true → s.dev.follows = true → s.dev.nextMirror r = idx →
    idx < 2 ^ (s.dev.ring r).sqLog →
    Acts (.mirrorFrame 4 r idx desc) s (fun e => (e.ring r).descs = (s.dev.ring r).descs ++ [(idx, some (desc % 2 ^ 512))] ∧
      e.nextMirror r = (idx + 1) % 2 ^ (s.dev.ring r).sqLog ∧ (∀ q, q ≠ r → e.ring q = s.dev.ring q) ∧ e.tracker = s.dev.tracker ∧ s.dev.keepsBut e [])) ∧
  (∀ (s : State) (a n c : Nat), s.dev.twinUp = true → s.dev.follows = true →
    Writes (.mirrorFrame 11 a n c) s (fun m e =>
      (s.dev.hbmOk a n = true → m = { s.mem with hbm := writeMem byte0 s.mem.hbm a (bytesOf n c) } ∧
        e.rd .TW_SYNC_DONE_BYTES 0 = (s.dev.rd .TW_SYNC_DONE_BYTES 0 + n) % 2 ^ 64) ∧
      (s.dev.hbmOk a n = false → m = s.mem) ∧ s.dev.keepsBut e [(.TW_SYNC_DONE_BYTES, 0)])) ∧
  (∀ (s : State) (r idx slot rec_ : Nat), r < 65536 → s.dev.follows = true → s.dev.twinUp = true →
    s.dev.tracker.any (fun x => x.ring == r && x.idx == idx) = false → (s.dev.ring r).descs.any (fun x => x.1 == idx) = true →
    Acts (.completionNotice r idx slot rec_) s (fun e => e.tw.notes = s.dev.tw.notes ++ [(r, idx, rec_ % 2 ^ 256)] ∧
      e.tw.acked = s.dev.tw.acked ++ [((s.dev.ring r).cq, slot, rec_ % 2 ^ 256)] ∧ e.tw.rxAt = s.dev.now ∧ e.tracker = s.dev.tracker ∧
      s.dev.keepsFields e [.RG_TOKEN_VALUE])) ∧
  (∀ (s : State) (id : Nat) (x : Entry), s.dev.role = 3 → s.dev.twinUp = true → s.dev.entry? id = some x →
    Acts (.noticeAck id) s (fun e => e.entry? id = some { x with acked := x.acked || x.noticed } ∧ e.tw.rxAt = s.dev.now ∧ s.dev.entriesBut e id ∧
      s.dev.keepsBut e [])) ∧
  (∀ (s : State) (skipped : List Nat), s.dev.role = 4 → s.dev.tw.lostAt.isSome = true → s.dev.on .TW_STATUS_PEER_OWN 0 = false →
    s.dev.tw.peerOffAt + us 10 ≤ s.dev.now →
    Writes (.takeover skipped) s (fun m e =>
      (s.dev.tw.ownAt = none → m = s.mem ∧ e.on .TW_STATUS_OWN 0 = true ∧ e.tw.ownAt = some s.dev.now ∧ e.role = 4 ∧
        s.dev.keepsBut e [(.TW_STATUS_OWN, 0)]) ∧
      (∀ t, s.dev.tw.ownAt = some t → t + us (s.dev.rd .TW_TIMING_SWITCH_US 0) ≤ s.dev.now →
        e.role = 3 ∧ e.on .TW_STATUS_TOOK_OVER 0 = true ∧ e.on .TW_STATUS_OWN 0 = true ∧ ⟨0x341, 0, 0, s.dev.cycle⟩ ∈ e.raised ∧
        e.rd .TW_STATUS_TAKEOVERS 0 = min (s.dev.rd .TW_STATUS_TAKEOVERS 0 + 1) (2 ^ 16 - 1) ∧ e.tw.acked = [] ∧ (∀ r, (e.ring r).descs = [])) ∧
      (∀ t, s.dev.tw.ownAt = some t → s.dev.now < t + us (s.dev.rd .TW_TIMING_SWITCH_US 0) → m = s.mem ∧ e = s.dev))))

/-- R407, R409, R417, R419, R421: every 10 µs the thermal model takes a step: the monitors' powers are shown, the nodes move, the limits are judged at the
temperatures of the step, a new TRIP shuts down; before that nothing happens. R411, R412, R413: a boundary value in range is taken with its time,
another and a failed read are counted; without one for 10 s the device is STALE at 95 °C; above 85 °C it is derated. R421, R422, R423, R424: a request
asks for sleep, AUTO_MS without a host access does; entry waits for its conditions, then stops clocks, stacks and ports; a wake brings clock and time
back; an idle edge PLL and an idle ballast stop (R425, R426). -/
def Obligations.KilnStepsHoldsItsBoundaryAndSleeps : Prop :=
  ((∀ (s : State) (mw : List Nat), (s.dev.kl.powered = false ∨ s.dev.now < s.dev.kl.stepAt + us 10) → Acts (.modelStep mw) s (fun e => e = s.dev)) ∧
  (∀ (s : State) (mw : List Nat), s.dev.kl.powered = true → s.dev.kl.stepAt + us 10 ≤ s.dev.now → s.dev.on .KL_STATUS_STALE 0 = false →
    Writes (.modelStep mw) s (fun m e => m = (s.dev.dark e).foldl Mems.put s.mem ∧ e.kl.stepAt = s.dev.now ∧
      (∀ m, m < 24 → e.rd .KL_DOMAIN_P_MW m = mw.getD m 0 % 2 ^ 32) ∧
      (∀ i, i < 47 → e.nodeT i = s.dev.nodeStep (s.dev.monitors mw).1 i) ∧ e.nodeT 47 = s.dev.nodeT 47 ∧
      (∀ i, i < 48 → e.rd .KL_NODE_T_T i = tempCode (e.nodeT i)) ∧
      (e.on .KL_STATUS_WARN 0 = limitNow (s.dev.on .KL_STATUS_WARN 0) (e.hottest logicNodes) 100 none) ∧
      (e.on .KL_STATUS_HOT 0 = limitNow (s.dev.on .KL_STATUS_HOT 0) (e.hottest logicNodes) 108 none) ∧
      (e.on .KL_STATUS_TRIP 0 = limitNow (s.dev.on .KL_STATUS_TRIP 0) (e.hottest logicNodes) 115 (some 100)) ∧
      (e.on .KL_STATUS_TRIP 0 = true → s.dev.on .KL_STATUS_TRIP 0 = false → e.kl.shut = true ∧ ⟨0x042, 0, 0, s.dev.cycle⟩ ∈ e.raised ∧
        e.rd .BR_STATUS_QPLL_READY 0 = 0 ∧ (∀ p, p < 4 → e.lstate p = 0)) ∧
      s.dev.keepsSet e []))) ∧
  ((∀ (s : State) (raw : Option Nat), s.dev.kl.powered = true → s.dev.on .KL_CTRL_BSRC 0 = true →
    s.dev.kl.bsAt + ms (max 1 (s.dev.rd .KL_BS_CFG_PERIOD_MS 0)) ≤ s.dev.now →
    Acts (.boardSenseRead raw) s (fun e => e.kl.bsAt = s.dev.now ∧
      (raw = none → e.rd .KL_STATUS_BS_FAIL 0 = min (s.dev.rd .KL_STATUS_BS_FAIL 0 + 1) 65535 ∧ e.kl.bsRun = s.dev.kl.bsRun + 1 ∧
        e.raised = s.dev.raised ++ (if s.dev.kl.bsRun = 2 then [⟨0x046, 0, 0, s.dev.cycle⟩] else []) ∧ e.kl.bound = s.dev.kl.bound ∧
        s.dev.keepsBut e [(.KL_STATUS_BS_FAIL, 0)]) ∧
      (∀ w v, raw = some w → v = w % 65536 / 16 → (-640 : Int) ≤ sgn 12 v → sgn 12 v ≤ 2000 → e.rd .KL_BOUNDARY_T 0 = v ∧ e.kl.bound = some (v, s.dev.now) ∧ e.kl.bsRun = 0 ∧
          (s.dev.on .KL_STATUS_STALE 0 = false → e.rd .KL_TEMP_BOUND 0 = v ∧ e.on .KL_STATUS_DERATED 0 = decide (1360 < sgn 12 v)) ∧
          s.dev.keepsBut e [(.KL_BOUNDARY_T, 0), (.KL_TEMP_BOUND, 0), (.KL_STATUS_DERATED, 0)]))) ∧
  (∀ (s : State) (v : Word), s.dev.hostReady = true → let t := v.toNat % 4096
    Acts (.boundaryWrite v) s (fun e => (s.dev.on .KL_CTRL_BSRC 0 = true → e = s.dev.reached) ∧
      (s.dev.on .KL_CTRL_BSRC 0 = false → (sgn 12 t < -640 ∨ 2000 < sgn 12 t) →
        e.rd .KL_STATUS_BS_FAIL 0 = min (s.dev.rd .KL_STATUS_BS_FAIL 0 + 1) 65535 ∧ e.kl.bound = s.dev.kl.bound ∧
        s.dev.keepsBut e [(.KL_STATUS_BS_FAIL, 0)]) ∧
      (s.dev.on .KL_CTRL_BSRC 0 = false → -640 ≤ sgn 12 t → sgn 12 t ≤ 2000 → e.rd .KL_BOUNDARY_T 0 = t ∧ e.kl.bound = some (t, s.dev.now) ∧
        s.dev.keepsBut e [(.KL_BOUNDARY_T, 0), (.KL_TEMP_BOUND, 0), (.KL_STATUS_DERATED, 0)]))) ∧
  (∀ s : State, let stale := s.dev.kl.powered = true ∧ s.dev.boundNow.2 = true ∧ s.dev.on .KL_STATUS_STALE 0 = false
    Acts .boundaryStale s (fun e => (¬ stale → e = s.dev) ∧
      (stale → e.on .KL_STATUS_STALE 0 = true ∧ e.rd .KL_TEMP_BOUND 0 = 0x5F0 ∧ e.on .KL_STATUS_DERATED 0 = true ∧
        ⟨0x045, 0, 0, s.dev.cycle⟩ ∈ e.raised ∧ (s.dev.on .KL_STATUS_DERATED 0 = false → ⟨0x048, 0, 0, s.dev.cycle⟩ ∈ e.raised) ∧
        s.dev.keepsBut e [(.KL_STATUS_STALE, 0), (.KL_TEMP_BOUND, 0), (.KL_STATUS_DERATED, 0)])))) ∧
  ((∀ (s : State) (v : Word), s.dev.hostReady = true →
    Acts (.sleepRequest v) s (fun e => e.kl.reqSleep = decide (bits v.toNat 4 2 = 1) ∧ e.on .KL_STATUS_SLEEP_WAIT 0 = decide (bits v.toNat 4 2 = 1) ∧
      e.rd .KL_PSTATE_REQ 0 = bits v.toNat 4 2 ∧ e.rd .KL_PSTATE_AUTO_MS 0 = bits v.toNat 16 16 ∧
      s.dev.keepsBut e [(.KL_PSTATE_REQ, 0), (.KL_PSTATE_AUTO_MS, 0), (.KL_STATUS_SLEEP_WAIT, 0)])) ∧
  (∀ s : State, let a := s.dev.rd .KL_PSTATE_AUTO_MS 0
    let asks := a ≠ 0 ∧ s.dev.pstate = 2 ∧ s.dev.serves = true ∧ s.dev.kl.hostAt + ms a ≤ s.dev.now
    Acts .autoSleep s (fun e => (asks → e.kl.reqSleep = true ∧ e.on .KL_STATUS_SLEEP_WAIT 0 = true ∧ s.dev.keepsBut e [(.KL_STATUS_SLEEP_WAIT, 0)]) ∧
      (¬ asks → e = s.dev))) ∧
  (∀ s : State, Writes .sleepEntry s (fun m e => m = (s.dev.dark e).foldl Mems.put s.mem ∧
    ((s.dev.kl.reqSleep = false ∨ s.dev.maySleep = false) → e = s.dev) ∧
    (s.dev.kl.reqSleep = true → s.dev.maySleep = true → e.rd .KL_STATUS_PSTATE 0 = 1 ∧ e.rd .KL_PSTATE_STATE 0 = 1 ∧ e.kl.reqSleep = false ∧
      e.on .KL_STATUS_SLEEP_WAIT 0 = false ∧ e.on .BR_STATUS_CORE_LOCK 0 = false ∧ e.rd .BR_STATUS_QPLL_READY 0 = 0 ∧
      e.on .BR_STATUS_WAVE_READY 0 = false ∧ e.ringEng.cache = [] ∧ (∀ p, p < 4 → e.lstate p = 0) ∧
      (∀ k, k < 2 → s.dev.stackOk k = true → e.inSR k = true) ∧ s.dev.keepsSet e []))) ∧
  (∀ s : State, Acts .wake s (fun e =>
    ((s.dev.rd .KL_STATUS_PSTATE 0 ≠ 1 ∨ s.dev.kl.powered = false) → e = s.dev) ∧
    (s.dev.rd .KL_STATUS_PSTATE 0 = 1 → s.dev.kl.powered = true → e.rd .KL_STATUS_PSTATE 0 = 2 ∧ e.rd .KL_PSTATE_STATE 0 = 2 ∧
      e.on .BR_STATUS_CORE_LOCK 0 = (!s.dev.br.lossNow) ∧ e.kl.hostAt = s.dev.now ∧ s.dev.bedOff - cycleTicks ≤ e.bedOff ∧
      e.bedOff ≤ s.dev.bedOff + cycleTicks ∧ s.dev.keepsSet e []))) ∧
  (∀ (s : State) (q : Nat), q < 4 →
    let idle := bitAt (s.dev.rd .BR_STATUS_QPLL_READY 0) q = true ∧ s.dev.pllNeed q = false ∧
      (s.dev.pll q).idleSince + us (s.dev.rd .KL_CTRL_PLL_IDLE_US 0) ≤ s.dev.now
    Acts (.pllIdleStop q) s (fun e => (¬ idle → e = s.dev) ∧ (idle → s.dev.keepsBut e [(.BR_STATUS_QPLL_READY, 0)] ∧ e.plls = s.dev.plls ∧
      ∀ k, k < 4 → bitAt (e.rd .BR_STATUS_QPLL_READY 0) k = (bitAt (s.dev.rd .BR_STATUS_QPLL_READY 0) k && k != q)))) ∧
  (∀ s : State, Acts .ballastEnd s (fun e =>
    (s.dev.kl.burstAt = none → e = s.dev) ∧
    (∀ t, s.dev.kl.burstAt = some t → (s.dev.now < t + secs (s.dev.rd .KL_BALLAST_HOLD_S 0) → e = s.dev) ∧
      (t + secs (s.dev.rd .KL_BALLAST_HOLD_S 0) ≤ s.dev.now → e.kl.burstAt = none ∧ e.kl.target = [] ∧ e.on .KL_STATUS_BALLAST 0 = false ∧
        s.dev.keepsBut e [(.KL_STATUS_BALLAST, 0)])))))

/-- R431, R433, R434, R436, R437: a step on a unit that is not free, or that Strop does not want, does nothing; a rejected result is counted and raises
the source of its kind; an accepted one without a request is kept for the present band with its time. R430, R437, R438: an OUT unit that is free is
tried again 10 minutes after the last try; a VALID unit with a result older than MAX_AGE_H is AGED. R435: a forced window opens for a CAL_REQUEST in
mode FORCE or, where it is due, for a site that is not running; DE of its pins is off; at its end the pins are free again. -/
def Obligations.StropStepsRetriesAndForcesWindows : Prop :=
  (∀ (s : State) (k u c : Nat) (vals : List Int) (sigma : Nat), u < calUnits k →
    let goes := s.dev.serves = true ∧ s.dev.isSafe = false ∧ 2 ≤ s.dev.rd .KL_STATUS_PSTATE 0 ∧ c < calSteps k ∧ s.dev.calFree k u = true ∧
      s.dev.calWanted k u c = true
    let U := s.dev.calUnit k u
    Acts (.calibrationStep k u c vals sigma) s (fun e =>
      (¬ goes → e = s.dev) ∧
      (goes → s.dev.calBad k u c vals sigma = true → k ≠ 5 → U.req = none → (e.calUnit k u).run = U.run + 1 ∧ (e.calUnit k u).rejects = U.rejects + 1 ∧
        (e.calUnit k u).res = U.res ∧ ⟨calSrc k, u, k, s.dev.cycle⟩ ∈ e.raised ∧
        e.rd .SP_STATUS_REJECTS 0 = min (s.dev.rd .SP_STATUS_REJECTS 0 + 1) (2 ^ Fld.SP_STATUS_REJECTS.spec.width - 1) ∧
        (U.state ≠ 4 → (e.calUnit k u).state = (if s.dev.calRetries ≤ U.run + 1 then 4 else 3)) ∧ (U.state = 4 → (e.calUnit k u).state = 4)) ∧
      (goes → s.dev.calBad k u c vals sigma = false → U.req = none → (e.calUnit k u).run = 0 ∧ (e.calUnit k u).accepts = U.accepts + 1 ∧
        (∃ r, (e.calUnit k u).at_ (s.dev.calBandOf k u) c = some r ∧ r.t = s.dev.bed ∧ r.vals = vals ∧ r.sigma = sigma) ∧
        (∀ b j, j < 16 → c < 16 → (b, j) ≠ (s.dev.calBandOf k u, c) → (e.calUnit k u).at_ b j = U.at_ b j) ∧
        (e.calUnit k u).state = e.calJudge k u) ∧
      (U.req = none → ∀ j, j < 512 → j ≠ u → e.calUnit k j = s.dev.calUnit k j) ∧ s.dev.keepsSet e [])) ∧
  ((∀ (s : State) (k u : Nat), u < calUnits k →
    let U := s.dev.calUnit k u
    let due := s.dev.asleep = false ∧ U.state = 4 ∧ s.dev.calFree k u = true ∧ U.triedAt + secs 600 ≤ s.dev.now
    Acts (.outRetry k u) s (fun e => (¬ due → e = s.dev) ∧ (due → e.calUnit k u = { U with tried := true, triedAt := s.dev.now } ∧
      (∀ j, j < 512 → j ≠ u → e.calUnit k j = s.dev.calUnit k j) ∧ s.dev.keepsBut e []))) ∧
  (∀ (s : State) (k u : Nat), u < calUnits k →
    let aged := s.dev.asleep = false ∧ (s.dev.calUnit k u).state = 1 ∧ s.dev.calJudge k u = 2
    Acts (.resultAged k u) s (fun e => (¬ aged → e = s.dev) ∧ (aged → (e.calUnit k u).state = 2 ∧ (e.calUnit k u).res = (s.dev.calUnit k u).res ∧
      (∀ j, j < 512 → j ≠ u → e.calUnit k j = s.dev.calUnit k j) ∧
      s.dev.keepsFields e [.PIN_CAL_STATUS_EDGE, .PIN_CAL_STATUS_TDC_CH, .PIN_CAL_STATUS_TDC_CL, .PIN_CAL_STATUS_COMP, .SP_AUX_REIN, .SP_AUX_WAVE,
        .SP_STATUS_OUT])))) ∧
  ((∀ (s : State) (p : Nat), p < 256 →
    let may := s.dev.serves = true ∧ s.dev.isSafe = false ∧ (∀ n, s.dev.siteOf p = some n → s.dev.siteRunning n = false) ∧ (s.dev.pin p).forced = false
    let opens := fun (e : Dev) (pins : List Nat) (len : Nat) (req : Option Nat) => e.windows = s.dev.windows ++ [⟨pins, s.dev.now, len, req⟩] ∧
      (∀ q, q ∈ pins → (e.pin q).forced = true ∧ (e.pin q).de = false) ∧ (∀ q, q ∉ pins → e.pin q = s.dev.pin q) ∧
      e.on .SP_STATUS_FORCE_OPEN 0 = true ∧ e.raised = s.dev.raised ++ [⟨0x385, pins.headD 0, 0, s.dev.cycle⟩] ∧
      s.dev.keepsBut e [(.SP_STATUS_FORCE_OPEN, 0), (.SP_STATUS_FORCED, 0)]
    Acts (.forcedWindowOpen p) s (fun e => (¬ may → e = s.dev) ∧
      (∀ x, may → s.dev.windowReq p = some x →
        opens e (s.dev.askedPins x p) (if descField x.desc 16 0 32 = 0 then s.dev.windowUs else max 160 (descField x.desc 16 0 32)) (some x.id)) ∧
      (may → s.dev.windowReq p = none → (∀ n, s.dev.siteOf p = some n → s.dev.windowDue n = true → opens e (s.dev.members n) s.dev.windowUs none) ∧
        ((∀ n, s.dev.siteOf p = some n → s.dev.windowDue n = false) → e = s.dev)))) ∧
  (∀ (s : State) (p : Nat), p < 256 →
    Acts (.forcedWindowEnd p) s (fun e =>
      (∀ w, s.dev.windows.find? (fun w => w.pins.contains p) = some w → (s.dev.now < w.from_ + us w.len → e = s.dev) ∧
        (w.from_ + us w.len ≤ s.dev.now → e.windows = s.dev.windows.filter (· != w) ∧ (∀ q, q ∈ w.pins → (e.pin q).forced = false) ∧
          (∀ q, q ∉ w.pins → e.pin q = s.dev.pin q) ∧ e.on .SP_STATUS_FORCE_OPEN 0 = !e.windows.isEmpty ∧ s.dev.keepsSet e [])) ∧
      (s.dev.windows.find? (fun w => w.pins.contains p) = none → e = s.dev))))

/-- R444, R445, R446, R448, R450, R451, R452, R454, R457: an event sets and counts its source, is recorded and is the first fault if none was; a FATAL one
brings safe state with its cause, a MINOR one that fills its window escalates. R451: the oldest record that waits goes to the place NEXT of the log,
which advances over its 256 places. R463: FC_INJECT raises a source, FC_ALIAS clears STATUS by class but where the cause stands (R449, R462) or the
event came in this engine cycle (R17). -/
def Obligations.FaultEventsAreRecordedLoggedAndInjected : Prop :=
  ((∀ s : State, s.dev.raised = [] → Writes .faultEvent s (fun m e => m = s.mem ∧ e = s.dev)) ∧
  (∀ (s : State) (r : Raise) (c : Nat), s.dev.raised = [r] → srcClass r.src = some c → (c = 0 ∨ c = 2) → s.dev.on .FC_SRC_CFG_HALT r.src = false →
    s.dev.on .FC_SRC_CFG_SAFE r.src = false → s.dev.on .FC_SRC_CFG_JOURNAL r.src = false →
    (s.dev.on .FC_SRC_CFG_IRQ r.src = false ∨ s.dev.on .FC_CTRL_IRQ_EN 0 = false ∨ s.dev.on .FC_IRQ_PENDING 0 = true) → s.dev.fc.queue.length < 64 →
    let t := (((r.cycle * cycleTicks : Nat) : Int) + s.dev.bedOff).toNat
    let R := (FcEvent.mk r.src r.inst (if r.src / 64 = 14 ∨ r.src / 64 = 6 then r.ukind else 0) c false 0).record t false
    let first := s.dev.rd .FC_CTRL_FIRST_MIN 0 ≤ c ∧ s.dev.on .FC_SUMMARY_FIRST_VALID 0 = false
    Acts .faultEvent s (fun e => e.on .FC_SRC_STAT_STATUS r.src = true ∧ e.raised = [] ∧
      e.rd .FC_SRC_STAT_COUNT r.src = min (s.dev.rd .FC_SRC_STAT_COUNT r.src + 1) (2 ^ 32 - 1) ∧ e.fc.queue = s.dev.fc.queue ++ [R] ∧
      e.on .FC_IRQ_PENDING 0 = (s.dev.on .FC_IRQ_PENDING 0 || s.dev.on .FC_SRC_CFG_IRQ r.src) ∧
      (first → e.on .FC_SUMMARY_FIRST_VALID 0 = true ∧ e.rd .FC_FIRST0_REC_LO 0 = R % 2 ^ 64 ∧ e.rd .FC_FIRST1_REC_HI 0 = R / 2 ^ 64 % 2 ^ 64) ∧
      (¬ first → e.rd .FC_FIRST0_REC_LO 0 = s.dev.rd .FC_FIRST0_REC_LO 0 ∧ e.rd .FC_FIRST1_REC_HI 0 = s.dev.rd .FC_FIRST1_REC_HI 0) ∧
      s.dev.keepsBut e [(.FC_SRC_STAT_STATUS, r.src), (.FC_SRC_STAT_COUNT, r.src), (.FC_IRQ_PENDING, 0), (.FC_SUMMARY_FIRST_VALID, 0),
        (.FC_SUMMARY_FIRST_MORE, 0), (.FC_FIRST0_REC_LO, 0), (.FC_FIRST1_REC_HI, 0)])) ∧
  (∀ (s : State) (r : Raise), s.dev.raised = [r] → srcClass r.src = some 1 → (s.dev.window r.src (r.cycle * cycleTicks)).2.1 = true →
    Writes .faultEvent s (fun _ e => e.on .FC_SRC_STAT_STATUS r.src = true ∧ e.on .FC_SRC_STAT_ESCALATED r.src = true ∧ s.dev.keepsSet e [])) ∧
  (∀ (s : State) (r : Raise), s.dev.raised = [r] → srcClass r.src = some 3 → s.dev.isSafe = false →
    Writes .faultEvent s (fun _ e => e.on .FC_SRC_STAT_STATUS r.src = true ∧ e.isSafe = true ∧ e.rd .FC_STATE_CAUSE 0 = r.src % 1024 ∧
      e.rd .FC_STATE_CAUSE_CLASS 0 = 3 ∧ e.rd .FC_STATE_CAUSE_INST 0 = r.inst % 65536 ∧ s.dev.keepsSet e []))) ∧
  ((∀ s : State, Acts .logWrite s (fun e => (s.dev.fc.queue = [] → e = s.dev) ∧
    (∀ r t, s.dev.fc.queue = r :: t → let i := s.dev.rd .FC_LOG_IDX_NEXT 0
      e.fc.queue = t ∧ e.rd .FC_LOG_LO_REC i = r % 2 ^ 64 ∧ e.rd .FC_LOG_HI_REC i = r / 2 ^ 64 % 2 ^ 64 ∧
      e.rd .FC_LOG_IDX_NEXT 0 = (i + 1) % 256 ∧ s.dev.keepsBut e [(.FC_LOG_LO_REC, i), (.FC_LOG_HI_REC, i), (.FC_LOG_IDX_NEXT, 0)]))) ∧
  (∀ (s : State) (v : Word), s.dev.hostReady = true → let x := bits v.toNat 0 10
    Acts (.fcInject v) s (fun e => ((x = 0 ∨ srcClass x = none) → e = s.dev.reached) ∧
      (x ≠ 0 → srcClass x ≠ none → s.dev.keepsBut e [] ∧
        e.raised = s.dev.raised ++ [⟨x, bits v.toNat 10 16, if x / 64 = 14 then bits v.toNat 26 4 else 0, s.dev.cycle⟩]))) ∧
  (∀ (s : State) (v : Word), s.dev.hostReady = true →
    Acts (.fcAlias v) s (fun e => s.dev.keepsFields e [.FC_SRC_STAT_STATUS] ∧
      (∀ x c, srcClass x = some c → s.dev.justSet .FC_SRC_STAT_STATUS x = 0 → e.on .FC_SRC_STAT_STATUS x = (s.dev.on .FC_SRC_STAT_STATUS x &&
        !(bitAt v.toNat (28 + c) && !s.dev.srcActive x && !(s.dev.on .FC_MODE_LEGACY 0 && c == 3)))) ∧
      (∀ x, srcClass x = none → e.rd .FC_SRC_STAT_STATUS x = s.dev.rd .FC_SRC_STAT_STATUS x))))

/-- R459, R460, R461, R462: EXIT leaves safe state unless a cause bars it, then EXIT_REF; REINIT acts in safe state after a parity error, which latches
and enters safe state. R487: the oldest entry that can be written goes to the next of the 4,096 places of the journal, whose sector is erased first at
its start; where the flash fails the source is raised. -/
def Obligations.SafeStateParityAndJournalAct : Prop :=
  ((∀ (s : State) (v : Word), s.dev.hostReady = true → bitAt v.toNat 30 = false →
    let off := s.dev.on .FC_MODE_LEGACY 0 = true ∨ s.dev.isSafe = false
    Acts (.exit v) s (fun e => e.rd .FC_CTRL_VECTOR 0 = bits v.toNat 16 11 ∧
      (off → s.dev.keepsBut e [(.FC_CTRL_VECTOR, 0), (.FC_CTRL_FIRST_MIN, 0), (.FC_CTRL_IRQ_EN, 0)]) ∧
      (¬ off → s.dev.exitBarred = true → e.on .FC_STATE_EXIT_REF 0 = true ∧
        s.dev.keepsBut e [(.FC_CTRL_VECTOR, 0), (.FC_CTRL_FIRST_MIN, 0), (.FC_CTRL_IRQ_EN, 0), (.FC_STATE_EXIT_REF, 0)]) ∧
      (¬ off → s.dev.exitBarred = false → e.isSafe = false ∧ e.kl.shut = false ∧
        s.dev.keepsSet e [.FC_CTRL_VECTOR, .FC_CTRL_FIRST_MIN, .FC_CTRL_IRQ_EN]))) ∧
  (∀ (s : State) (v : Word), s.dev.hostReady = true → bitAt v.toNat 31 = false → (∀ x, x ∈ s.dev.fc.image → fcKey x.1 = true) →
    let off := s.dev.on .FC_MODE_LEGACY 0 = true ∨ s.dev.isSafe = false ∨ s.dev.on .FC_AON_LATCH 0 = false
    Acts (.reinit v) s (fun e => (off → e.fc = s.dev.fc ∧ s.dev.keepsBut e [(.FC_CTRL_VECTOR, 0), (.FC_CTRL_FIRST_MIN, 0), (.FC_CTRL_IRQ_EN, 0)]) ∧
      (¬ off → e.fc.queue = [] ∧ e.fc.winAt = [] ∧ e.fc.winCnt = [] ∧ e.fc.reinit = true ∧ e.isSafe = true ∧ e.on .FC_AON_LATCH 0 = true ∧
        e.rd .FC_AON_COUNT 0 = s.dev.rd .FC_AON_COUNT 0 % 2 ^ 16 ∧ (∀ f i, fcKey (fkey f i) = false → e.rd f i = s.dev.rd f i)))) ∧
  (∀ s : State, Writes .parityError s (fun m e => e.on .FC_AON_LATCH 0 = true ∧
    e.rd .FC_AON_COUNT 0 = min (s.dev.rd .FC_AON_COUNT 0 + 1) (2 ^ 16 - 1) ∧
    (s.dev.on .FC_AON_LATCH 0 = true → m = s.mem ∧ s.dev.keepsBut e [(.FC_AON_COUNT, 0)]) ∧
    (s.dev.on .FC_AON_LATCH 0 = false → e.isSafe = true ∧ e.on .FC_STATE_AON_LATCH 0 = true ∧ e.fc.reinit = false ∧ s.dev.keepsSet e [] ∧
      (s.dev.isSafe = false → e.rd .FC_STATE_CAUSE 0 = 0 ∧ e.rd .FC_STATE_CAUSE_CLASS 0 = 3))))) ∧
  (∀ (s : State) (ok : Bool),
    let i := s.dev.gd.place
    let busy := s.dev.asleep = true ∨ s.dev.serves = false ∨ (s.dev.gd.op ≠ 0 ∧ s.dev.gd.before = 0)
    Writes (.journalWrite ok) s (fun m e =>
      ((busy ∨ s.dev.journal.find? s.dev.writable = none) → m = s.mem ∧ e = s.dev) ∧
      (∀ o, ¬ busy → s.dev.journal.find? s.dev.writable = some o → e.journal = s.dev.journal.erase o ∧ e.gd.place = (i + 1) % 4096 ∧
        e.gd.seq = (s.dev.gd.seq + 1) % 2 ^ 32 ∧ s.dev.keepsBut e [] ∧ m.hbm = s.mem.hbm ∧ m.host = s.mem.host ∧ m.otp = s.mem.otp ∧ m.win = s.mem.win ∧
        (ok = true → e.raised = s.dev.raised ∧
          ∀ k, k < 64 → tget byteF m.flash (jnAddr i + k) = (entryBytes o (s.dev.owedData o) s.dev.gd.seq).getD k 0) ∧
        (ok = false → e.raised = s.dev.raised ++ [⟨0x0C5, i, 0, s.dev.cycle⟩]) ∧
        (∀ a, (a < jnAddr i ∨ jnAddr i + 64 ≤ a) → (i % 64 ≠ 0 ∨ a < jnAddr i ∨ jnAddr i + 4096 ≤ a) →
          tget byteF m.flash a = tget byteF s.mem.flash a))))

/-- R466, R467, R468, R469, R470: a wrap sets its bit, adds one to the counter chained to it or reloads a sampling counter and asks for a sample; a
configuration written clears the counter, a count written is set; a snapshot copies the counters it covers. R470, R471: one sample request an engine
cycle is served: its record enters the queue of 64, or is dropped, counted and noted once for a run of drops; a read of the high half takes the head
record out. -/
def Obligations.TallyCountsSnapshotsAndSamples : Prop :=
  ((∀ (s : State) (i : Nat), i < 64 →
    let chain := i % 2 = 0 ∧ s.dev.chained (i + 1) = true
    let samp := s.dev.on .TL_CFG_SAMPLE i = true
    Acts (.counterWrap i) s (fun e => ((s.dev.asleep = true ∨ s.dev.tl.wraps.find? (fun w => w.1 == i) = none) → e = s.dev) ∧
      (∀ w, s.dev.asleep = false → s.dev.tl.wraps.find? (fun w => w.1 == i) = some w →
        (∀ k, k < 64 → bitAt (e.rd .TL_OVF_WRAP 0) k = (bitAt (s.dev.rd .TL_OVF_WRAP 0) k || k == i)) ∧
        e.rd .TL_CNT_COUNT (i + 1) = (if chain then (s.dev.rd .TL_CNT_COUNT (i + 1) + 1) % 2 ^ 48 else s.dev.rd .TL_CNT_COUNT (i + 1)) ∧
        (samp → e.rd .TL_CNT_COUNT i = (s.dev.rd .TL_CNT_COUNT i + s.dev.rd .TL_RELOAD_VALUE i) % 2 ^ 48 ∧ e.tl.reqs = s.dev.tl.reqs ++ [w]) ∧
        (¬ samp → e.rd .TL_CNT_COUNT i = s.dev.rd .TL_CNT_COUNT i ∧ e.tl.reqs = s.dev.tl.reqs ∧ (¬ chain → e.tl.wraps = s.dev.tl.wraps.erase w)) ∧
        s.dev.keepsBut e [(.TL_OVF_WRAP, 0), (.TL_CNT_COUNT, i), (.TL_CNT_COUNT, i + 1)]))) ∧
  (∀ (s : State) (i : Nat) (v : Word), i < 64 → s.dev.hostReady = true →
    Acts (.tlCfgWrite i v) s (fun e => e.rd .TL_CNT_COUNT i = 0 ∧ e.rd .TL_CFG_EVENT i = bits v.toNat 0 8 ∧ e.rd .TL_CFG_INST i = bits v.toNat 8 16 ∧
      e.rd .TL_CFG_GROUP i = bits v.toNat 24 4 ∧ e.on .TL_CFG_CHAIN i = bitAt v.toNat 30 ∧ e.on .TL_CFG_SAMPLE i = bitAt v.toNat 31 ∧
      s.dev.keepsBut e [(.TL_CNT_COUNT, i), (.TL_CFG_EVENT, i), (.TL_CFG_INST, i), (.TL_CFG_GROUP, i), (.TL_CFG_CHAIN, i), (.TL_CFG_SAMPLE, i)])) ∧
  (∀ (s : State) (i : Nat) (part : Part) (v : Word), i < 64 → s.dev.hostReady = true →
    Acts (.tlCntWrite i part v) s (fun e => e.rd .TL_CNT_COUNT i = bits (part.onto (s.dev.rd .TL_CNT_COUNT i) v.toNat) 0 48 ∧
      s.dev.keepsBut e [(.TL_CNT_COUNT, i)])) ∧
  (∀ (s : State) (v : Word), s.dev.hostReady = true →
    Acts (.snap v) s (fun e => (∀ k, k < 64 → e.rd .TL_SNAP_COUNT k = s.dev.rd .TL_CNT_COUNT k % 2 ^ 48) ∧
      s.dev.keepsFields e [.TL_SNAP_COUNT, .TL_CTRL_SAMPLE_IRQ, .TL_CTRL_VECTOR])) ∧
  (∀ (s : State) (g : Nat), g < 16 → s.dev.hostReady = true →
    Acts (.userPageSnapshot g) s (fun e => (∀ k, k < 64 → e.rd .TL_SNAP_COUNT k =
        (if s.dev.rd .TL_CFG_GROUP k = g then s.dev.rd .TL_CNT_COUNT k % 2 ^ 48 else s.dev.rd .TL_SNAP_COUNT k)) ∧
      s.dev.keepsFields e [.TL_SNAP_COUNT]))) ∧
  ((∀ s : State, Writes .sampleCapture s (fun m e =>
    ((s.dev.asleep = true ∨ s.dev.cycle < s.dev.tl.freeAt ∨ s.dev.nextSample = none) → m = s.mem ∧ e = s.dev) ∧
    (∀ w, s.dev.asleep = false → s.dev.tl.freeAt ≤ s.dev.cycle → s.dev.nextSample = some w → e.tl.reqs = s.dev.tl.reqs.erase w ∧ e.tl.freeAt = s.dev.cycle + 1 ∧
      (s.dev.tl.queue.length < 64 → e.tl.queue = s.dev.tl.queue ++ [s.dev.bed % 2 ^ 64 * 2 ^ 64 + s.dev.sampleWaddr w.1 % 2 ^ 32 * 2 ^ 32 +
        (s.dev.cycle - w.2) % 256 * 2 ^ 24 + w.1 % 64 * 2 ^ 18] ∧ e.raised = s.dev.raised ∧ s.dev.keepsBut e [] ∧
        ((s.dev.tl.queue ≠ [] ∨ s.dev.on .TL_CTRL_SAMPLE_IRQ 0 = false) → m = s.mem)) ∧
      (64 ≤ s.dev.tl.queue.length → m = s.mem ∧ e.tl.queue = s.dev.tl.queue ∧
        e.rd .TL_STATUS_SAMPLE_LOST 0 = min (s.dev.rd .TL_STATUS_SAMPLE_LOST 0 + 1) (2 ^ 32 - 1) ∧
        e.raised = s.dev.raised ++ (if s.dev.tl.dropping then [] else [⟨0x3C0, 0, 0, s.dev.cycle⟩]) ∧
        s.dev.keepsBut e [(.TL_STATUS_SAMPLE_LOST, 0)])))) ∧
  (∀ s : State, s.dev.hostReady = true →
    Acts .tlSampleHiRead s (fun e => e.readData = bytesOf 8 (s.dev.tl.queue.headD 0 / 2 ^ 64) ∧ e.poisoned = false ∧
      e.tl.queue = s.dev.tl.queue.drop 1 ∧ s.dev.keepsBut e [])))

/-- R472, R476, R478, R504: power-on, a fundamental and a warm reset lose pattern memory and boot: without a clock boot waits in stage 3, without firmware
or with a broken Subsoil the part is in RECOVERY, else it is READY. R421, R501: the supplies gone, the part is OFF; a boundary instruction drives the
balls while HX_PERST_L is asserted. R489: a window command is refused while one runs, ends at once with its error where it may not start, else runs;
done, it has read, programmed or erased flash, or written the CUSTOMER region or the seal; a failed or late one ends with its error and its source,
and touches no byte outside its range. -/
def Obligations.ResetsBootAndWindowCommandsAct : Prop :=
  (let lost := fun (s : State) (m : Mems) => m = { s.mem with hbm := [], win := [], vlb := [], ents := [] }
  let boots := fun (s : State) (b : BootResult) (n : Nat) (e : Dev) =>
    let fw := candidate (conSeqOk s.mem 1 1 0 0x100000) (conSeqOk s.mem 1 1 0x100000 0x100000)
    e.rd .GD_STATUS_BOOTS 0 = n % 2 ^ 16 ∧ e.kl.powered = true ∧
    (b.lock = false → e.rd .GD_STATUS_STAGE 0 = 3 ∧ e.booting = some b ∧ e.br.lossNow = true ∧ (∃ t, ⟨0x084, 0, 0, t⟩ ∈ e.raised) ∧
      e.tracker = [] ∧ (s.dev.kl.powered = true → e.rings = []) ∧ (s.dev.kl.powered = false → ∀ r, (e.ring r).state = (s.dev.ring r).state) ∧
      e.on .DEV_UNITS_FINAL 0 = false) ∧
    (b.lock = true → fw = none → e.rd .DEV_UNITS_MODE 0 = 2 ∧ e.on .DEV_UNITS_FINAL 0 = true ∧ e.rd .GD_STATUS_WHY 0 = 2 ∧ e.rd .GD_STATUS_STAGE 0 = 4 ∧
      ∃ t, ⟨0x0C3, 0, 0, t⟩ ∈ e.raised) ∧
    (∀ k, b.lock = true → fw = some k → e.rd .GD_STATUS_STAGE 0 = 7 ∧ e.on .DEV_UNITS_FINAL 0 = true ∧ e.rd .KL_STATUS_PSTATE 0 = 2 ∧
      e.rd .GD_STATUS_FW_SLOT 0 = k)
  (∀ (s : State) (b : BootResult), Writes (.powerOn b) s (fun m e =>
    (s.dev.kl.powered = true → m = s.mem ∧ e = s.dev) ∧
    (s.dev.kl.powered = false → lost s m ∧ (subsoilOk s.mem = true → boots s b 1 e) ∧
      (subsoilOk s.mem = false → e.kl.powered = true ∧ e.rd .DEV_UNITS_MODE 0 = 2 ∧ e.on .DEV_UNITS_FINAL 0 = true ∧ e.rd .GD_STATUS_WHY 0 = 1 ∧
        e.rd .GD_STATUS_STAGE 0 = 1 ∧ ∃ t, ⟨0x0C2, 0, 0, t⟩ ∈ e.raised)))) ∧
  (∀ (s : State) (b : BootResult), s.dev.gd.op = 0 → Writes (.fundamentalReset b) s (fun m e => e.gd.perst = true ∧
    (s.dev.gd.perst = true → m = s.mem ∧ e = s.dev) ∧ (s.dev.kl.powered = false → m = s.mem ∧ s.dev.keepsBut e []) ∧
    (s.dev.gd.perst = false → s.dev.kl.powered = true → lost s m ∧ boots s b (s.dev.rd .GD_STATUS_BOOTS 0 + 1) e))) ∧
  (∀ (s : State) (v : Word) (b : BootResult), s.dev.gd.op = 0 →
    let acts := s.dev.kl.powered = true ∧ s.dev.on .DEV_UNITS_FINAL 0 = true ∧ (s.dev.gd.keyed = true ∨ (v.toNat % 65536 = 0x0B07 ∧ s.dev.gd.perst = false))
    Writes (.warmReset v b) s (fun m e => (¬ acts → m = s.mem ∧ e = s.dev) ∧
      (acts → lost s m ∧ boots s b (s.dev.rd .GD_STATUS_BOOTS 0 + 1) e))) ∧
  (∀ s : State, s.dev.gd.op = 0 → Writes .supplyRemoval s (fun m e => lost s m ∧ e.kl.powered = false ∧ e.now = s.dev.now ∧ e.tracker = [] ∧
    e.on .DEV_UNITS_FINAL 0 = false ∧
    (s.dev.kl.powered = true → (s.dev.isSafe = false ∨ s.dev.on .FC_MODE_LEGACY 0 = false) → e.rings = [] ∧ ∀ t, e.rd .RG_TOKEN_VALUE t = 0) ∧
    (s.dev.isSafe = true → s.dev.on .FC_MODE_LEGACY 0 = true →
      (∀ r, (e.ring r).state = (s.dev.ring r).state) ∧ ∀ t, e.rd .RG_TOKEN_VALUE t = s.dev.rd .RG_TOKEN_VALUE t))) ∧
  (∀ (s : State) (balls : Nat), Acts (.extest balls) s (fun e =>
    (s.dev.gd.perst = true → s.dev.kl.powered = true → e.gd.extest = some balls ∧ s.dev.keepsBut e []) ∧
    ((s.dev.gd.perst = false ∨ s.dev.kl.powered = false) → e = s.dev))) ∧
  (∀ s : State, Acts .hxPerstDeassertion s (fun e => e.gd.perst = false ∧ e.gd.extest = none ∧ s.dev.keepsBut e []))) ∧
  ((∀ (s : State) (v : Word) (c : Instr) (k : Nat), s.dev.kl.powered = true → s.dev.on .DEV_UNITS_FINAL 0 = true → s.dev.gd.perst = false →
    s.dev.rd .KL_STATUS_PSTATE 0 ≠ 1 →
    (c, k) ∈ [(Instr.windowRead v, 1), (.windowProgram v, 2), (.windowErase v, 3), (.otpCust v, 4), (.otpSeal v, 5)] →
    let a := s.dev.rd .GD_WIN_ADDR_ADDR 0
    let n := if bits v.toNat 0 16 = 0 then 32768 else bits v.toNat 0 16
    Acts c s (fun e =>
      (s.dev.on .GD_WIN_STATUS_BUSY 0 = true → e.rd .GD_WIN_STATUS_ERR 0 = 6 ∧ e.gd = s.dev.gd ∧ e.raised = s.dev.raised ∧
        s.dev.keepsBut e [(.GD_WIN_STATUS_ERR, 0)]) ∧
      (s.dev.on .GD_WIN_STATUS_BUSY 0 = false → Dev.winErr s.mem s.dev k a n ≠ 0 → e.rd .GD_WIN_STATUS_ERR 0 = Dev.winErr s.mem s.dev k a n ∧
        e.gd.op = 0 ∧ e.raised = s.dev.raised ++ [⟨0x0C6, 0, 0, s.dev.cycle⟩] ∧ s.dev.keepsBut e [(.GD_WIN_STATUS_ERR, 0), (.GD_WIN_STATUS_BUSY, 0)]) ∧
      (s.dev.on .GD_WIN_STATUS_BUSY 0 = false → Dev.winErr s.mem s.dev k a n = 0 → e.on .GD_WIN_STATUS_BUSY 0 = true ∧ e.gd.op = k ∧ e.gd.addr = a ∧
        e.gd.len = (if k = 3 then 4096 else n) ∧ e.gd.before = s.dev.journal.length ∧ e.raised = s.dev.raised ∧
        s.dev.keepsBut e [(.GD_WIN_STATUS_BUSY, 0)]))) ∧
  (∀ (s : State) (ok : Bool),
    let G := s.dev.gd
    let waits := s.dev.asleep = true ∨ G.op = 0 ∨ (s.dev.serves = true ∧ 0 < G.before ∧ s.dev.journal.any s.dev.writable = true)
    Writes (.windowCommandComplete ok) s (fun m e => (waits → m = s.mem ∧ e = s.dev) ∧
      (¬ waits → e.gd.op = 0 ∧ e.on .GD_WIN_STATUS_BUSY 0 = false ∧ e.rd .GD_WIN_STATUS_ERR 0 = (if ok then 0 else 3) ∧ m.hbm = s.mem.hbm ∧
        m.host = s.mem.host ∧ e.raised = s.dev.raised ++ (if ok then [] else [⟨0x0C6, 0, 0, s.dev.cycle⟩]) ∧
        s.dev.keepsBut e [(.GD_WIN_STATUS_ERR, 0), (.GD_WIN_STATUS_BUSY, 0)] ∧
        (G.op ≠ 2 → G.op ≠ 3 → m.flash = s.mem.flash) ∧ (G.op ≠ 4 → G.op ≠ 5 → m.otp = s.mem.otp) ∧
        (∀ x, (x < G.addr ∨ G.addr + G.len ≤ x) → tget byteF m.flash x = tget byteF s.mem.flash x) ∧
        (ok = true → (G.op = 1 → m.win = writeMem byte0 s.mem.win 0 (readMem byteF s.mem.flash G.addr G.len)) ∧
          (G.op = 2 → m.flash = writeMem byteF s.mem.flash G.addr (readMem byte0 s.mem.win 0 G.len)) ∧
          (G.op = 3 → ∀ x, G.addr ≤ x → x < G.addr + G.len → tget byteF m.flash x = 0xFF) ∧
          (G.op = 4 → m.otp = writeMem otpByte s.mem.otp 0x70 (readMem byte0 s.mem.win 0 48)) ∧ (G.op = 5 → tsSigned m = true))))) ∧
  (∀ s : State,
    let G := s.dev.gd
    let waits := s.dev.asleep = true ∨ G.op = 0 ∨ s.dev.now < G.at_ + secs 5
    Writes .windowCommandTimeout s (fun m e => (waits → m = s.mem ∧ e = s.dev) ∧
      (¬ waits → e.gd.op = 0 ∧ e.on .GD_WIN_STATUS_BUSY 0 = false ∧ e.rd .GD_WIN_STATUS_ERR 0 = 4 ∧ m.hbm = s.mem.hbm ∧ m.host = s.mem.host ∧
        e.raised = s.dev.raised ++ [⟨0x0C6, 0, 0, s.dev.cycle⟩] ∧ (G.op ≠ 2 → G.op ≠ 3 → m.flash = s.mem.flash) ∧
        (∀ x, (x < G.addr ∨ G.addr + G.len ≤ x) → tget byteF m.flash x = tget byteF s.mem.flash x) ∧
        s.dev.keepsBut e [(.GD_WIN_STATUS_ERR, 0), (.GD_WIN_STATUS_BUSY, 0)]))))
end

