-- ==== Sys2Proof/Laws/Tab.lean ====
section
/-!
SUPPORT. The laws of tables: a read after a write, and that a write keeps the canonical form.
-/
namespace Sys2Proof.Machine

theorem tget_tdrop_self {α : Type} (d : Nat → α) (t : Tab α) (n : Nat) : tget d (tdrop t n) n = d n := by
  induction t with
  | nil => rfl
  | cons c t ih =>
    obtain ⟨k, v⟩ := c
    by_cases h : k = n
    · subst h; simpa [tdrop] using ih
    · simp only [tdrop, List.filter_cons, bne_iff_ne, ne_eq, h, not_false_eq_true, if_true, tget, if_false] at ih ⊢
      exact ih

theorem tget_tdrop_other {α : Type} (d : Nat → α) (t : Tab α) (n m : Nat) (h : m ≠ n) :
    tget d (tdrop t n) m = tget d t m := by
  induction t with
  | nil => rfl
  | cons c t ih =>
    obtain ⟨k, v⟩ := c
    by_cases hk : k = n
    · subst hk
      simp only [tdrop, List.filter_cons, bne_self_eq_false, Bool.false_eq_true, if_false, tget, Ne.symm h] at ih ⊢
      exact ih
    · simp only [tdrop, List.filter_cons, bne_iff_ne, ne_eq, hk, not_false_eq_true, if_true, tget] at ih ⊢
      split
      · rfl
      · exact ih

theorem tget_tins_self {α : Type} (d : Nat → α) (t : Tab α) (n : Nat) (v : α) (h : ∀ c ∈ t, c.1 ≠ n) :
    tget d (tins t n v) n = v := by
  induction t with
  | nil => simp [tins, tget]
  | cons c t ih =>
    obtain ⟨k, w⟩ := c
    have hk : k ≠ n := h (k, w) (by simp)
    simp only [tins]
    split
    · simp [tget]
    · simp only [tget, hk, if_false]
      exact ih (fun c hc => h c (by simp [hc]))

theorem tget_tins_other {α : Type} (d : Nat → α) (t : Tab α) (n m : Nat) (v : α) (h : m ≠ n) :
    tget d (tins t n v) m = tget d t m := by
  induction t with
  | nil => simp [tins, tget, Ne.symm h]
  | cons c t ih =>
    obtain ⟨k, w⟩ := c
    simp only [tins]
    split
    · simp [tget, Ne.symm h]
    · simp only [tget, ih]

theorem tdrop_ne {α : Type} (t : Tab α) (n : Nat) : ∀ c ∈ tdrop t n, c.1 ≠ n := by
  intro c hc
  simpa using (List.mem_filter.mp hc).2

/-- A read after a write. -/
@[simp] theorem tget_tset {α : Type} [DecidableEq α] (d : Nat → α) (t : Tab α) (n m : Nat) (v : α) :
    tget d (tset d t n v) m = if m = n then v else tget d t m := by
  unfold tset
  by_cases h : m = n
  · subst h
    split
    · rename_i hv; simp [hv, tget_tdrop_self]
    · simp [tget_tins_self d _ m v (tdrop_ne t m)]
  · split
    · rw [tget_tdrop_other d t n m h]
    · rw [tget_tins_other d _ n m v h, tget_tdrop_other d t n m h]

/-- A write leaves every other key, whatever the default that it is read with. -/
theorem tget_tset_other {α : Type} [DecidableEq α] (d e : Nat → α) (t : Tab α) (n m : Nat) (v : α) (h : m ≠ n) :
    tget e (tset d t n v) m = tget e t m := by
  unfold tset
  split
  · exact tget_tdrop_other e t n m h
  · rw [tget_tins_other e _ n m v h, tget_tdrop_other e t n m h]

/-! ## The canonical form -/

theorem tcanonFrom_mono {α : Type} [DecidableEq α] (d : Nat → α) (t : Tab α) {a b : Nat} (h : a ≤ b)
    (ht : tcanonFrom d b t = true) : tcanonFrom d a t = true := by
  cases t with
  | nil => rfl
  | cons c t =>
    obtain ⟨k, v⟩ := c
    simp only [tcanonFrom, Bool.and_eq_true, decide_eq_true_eq] at ht ⊢
    exact ⟨⟨h.trans ht.1.1, ht.1.2⟩, ht.2⟩

theorem tcanonFrom_filter {α : Type} [DecidableEq α] (d : Nat → α) (t : Tab α) (f : Nat × α → Bool) (a : Nat)
    (ht : tcanonFrom d a t = true) : tcanonFrom d a (t.filter f) = true := by
  induction t generalizing a with
  | nil => rfl
  | cons c t ih =>
    obtain ⟨k, v⟩ := c
    simp only [tcanonFrom, Bool.and_eq_true, decide_eq_true_eq] at ht
    simp only [List.filter_cons]
    split
    · simp only [tcanonFrom, Bool.and_eq_true, decide_eq_true_eq]
      exact ⟨ht.1, ih _ ht.2⟩
    · exact tcanonFrom_mono d _ (ht.1.1.trans (Nat.le_succ k)) (ih _ ht.2)

theorem tcanonFrom_tins {α : Type} [DecidableEq α] (d : Nat → α) (t : Tab α) (n : Nat) (v : α) (a : Nat) (ha : a ≤ n)
    (hv : v ≠ d n) (hn : ∀ c ∈ t, c.1 ≠ n) (ht : tcanonFrom d a t = true) : tcanonFrom d a (tins t n v) = true := by
  induction t generalizing a with
  | nil => simp [tins, tcanonFrom, ha, hv]
  | cons c t ih =>
    obtain ⟨k, w⟩ := c
    have hk : k ≠ n := hn (k, w) (by simp)
    simp only [tcanonFrom, Bool.and_eq_true, decide_eq_true_eq] at ht
    simp only [tins]
    split
    · simp only [tcanonFrom, Bool.and_eq_true, decide_eq_true_eq]
      exact ⟨⟨ha, hv⟩, ⟨by omega, ht.1.2⟩, ht.2⟩
    · simp only [tcanonFrom, Bool.and_eq_true, decide_eq_true_eq]
      exact ⟨ht.1, ih (k + 1) (by omega) (fun c hc => hn c (by simp [hc])) ht.2⟩

/-- A write keeps the canonical form. -/
theorem tcanon_tset {α : Type} [DecidableEq α] (d : Nat → α) (t : Tab α) (n : Nat) (v : α) (ht : tcanon d t = true) :
    tcanon d (tset d t n v) = true := by
  unfold tset
  split
  · exact tcanonFrom_filter d t _ 0 ht
  · exact tcanonFrom_tins d _ n v 0 (Nat.zero_le n) ‹_› (tdrop_ne t n) (tcanonFrom_filter d t _ 0 ht)

/-- A filter keeps the canonical form. -/
theorem tcanon_filter {α : Type} [DecidableEq α] (d : Nat → α) (t : Tab α) (f : Nat × α → Bool) (ht : tcanon d t = true) :
    tcanon d (t.filter f) = true := tcanonFrom_filter d t f 0 ht

/-! ## Memories -/

/-- A write of bytes keeps the canonical form. -/
theorem tcanon_writeMem (d : Nat → Byte) (m : Mem) (a : Nat) (bs : List Byte) (hm : tcanon d m = true) :
    tcanon d (writeMem d m a bs) = true := by
  induction bs generalizing m a with
  | nil => exact hm
  | cons b t ih => exact ih _ _ (tcanon_tset d m a b hm)

/-- A byte outside the bytes written is unchanged. -/
theorem tget_writeMem_other (d : Nat → Byte) (m : Mem) (a n : Nat) (bs : List Byte) (h : n < a ∨ a + bs.length ≤ n) :
    tget d (writeMem d m a bs) n = tget d m n := by
  induction bs generalizing m a with
  | nil => rfl
  | cons b t ih =>
    simp only [List.length_cons] at h
    simp only [writeMem]
    rw [ih _ _ (by omega), tget_tset, if_neg (by omega)]

/-- A byte written reads back. -/
theorem tget_writeMem_at (d : Nat → Byte) (m : Mem) (a k : Nat) (bs : List Byte) (h : k < bs.length) :
    tget d (writeMem d m a bs) (a + k) = bs[k] := by
  induction bs generalizing m a k with
  | nil => simp at h
  | cons b t ih =>
    simp only [writeMem]
    cases k with
    | zero => rw [tget_writeMem_other d _ _ _ _ (by omega)]; simp
    | succ k =>
      have := ih (tset d m a b) (a + 1) k (by simpa using h)
      simpa [Nat.add_assoc, Nat.add_comm 1 k] using this

/-- The bytes written read back. -/
theorem readMem_writeMem (d : Nat → Byte) (m : Mem) (a : Nat) (bs : List Byte) :
    readMem d (writeMem d m a bs) a bs.length = bs := by
  induction bs generalizing m a with
  | nil => rfl
  | cons b t ih =>
    simp only [List.length_cons, readMem, writeMem, ih]
    rw [tget_writeMem_other d _ _ _ _ (by omega), tget_tset, if_pos rfl]

end Sys2Proof.Machine
end

