-- ==== Sys2Proof/Laws/State.lean ====
section
/-!
SUPPORT. What each update of the block leaves: every other part, and every accessor of another part, reads as before; and what the
updated part reads as. No later proof unfolds a record update.
-/
namespace Sys2Proof.Machine

@[simp] theorem Dev.wr_frame (d : Dev) (f : Fld) (i v : Nat) :
    (d.wr f i v).now = d.now ∧ (d.wr f i v).bedOff = d.bedOff ∧ (d.wr f i v).free = d.free ∧ (d.wr f i v).active = d.active ∧
    (d.wr f i v).latch = d.latch ∧ (d.wr f i v).cyc = d.cyc ∧ (d.wr f i v).readData = d.readData ∧
    (d.wr f i v).poisoned = d.poisoned ∧ (d.wr f i v).raised = d.raised ∧ (d.wr f i v).journal = d.journal ∧
    (d.wr f i v).sites = d.sites ∧ (d.wr f i v).lanes = d.lanes ∧ (d.wr f i v).pins = d.pins ∧ (d.wr f i v).cs = d.cs ∧
    (d.wr f i v).csqs = d.csqs ∧ (d.wr f i v).failQ = d.failQ ∧ (d.wr f i v).capQ = d.capQ ∧
    (d.wr f i v).failSites = d.failSites ∧ (d.wr f i v).capNo = d.capNo ∧ (d.wr f i v).sigNo = d.sigNo ∧
    (d.wr f i v).signals = d.signals ∧ (d.wr f i v).trigAt = d.trigAt ∧ (d.wr f i v).evLevel = d.evLevel ∧
    (d.wr f i v).pcs = d.pcs ∧ (d.wr f i v).mc = d.mc ∧ (d.wr f i v).tmu = d.tmu ∧ (d.wr f i v).waves = d.waves ∧
    (d.wr f i v).sampleAt = d.sampleAt ∧ (d.wr f i v).slots = d.slots ∧ (d.wr f i v).acqs = d.acqs ∧
    (d.wr f i v).ports = d.ports ∧ (d.wr f i v).lanesRn = d.lanesRn ∧ (d.wr f i v).tw = d.tw ∧ (d.wr f i v).rings = d.rings ∧
    (d.wr f i v).ringEng = d.ringEng ∧ (d.wr f i v).vectors = d.vectors ∧ (d.wr f i v).plls = d.plls ∧
    (d.wr f i v).kl = d.kl ∧ (d.wr f i v).tl = d.tl ∧ (d.wr f i v).fc = d.fc ∧ (d.wr f i v).gd = d.gd ∧
    (d.wr f i v).evOut = d.evOut ∧ (d.wr f i v).booting = d.booting ∧ (d.wr f i v).pec = d.pec ∧ (d.wr f i v).cal = d.cal ∧
    (d.wr f i v).windows = d.windows ∧ (d.wr f i v).br = d.br ∧ (d.wr f i v).tracker = d.tracker ∧
    (d.wr f i v).nextId = d.nextId := by
  refine ⟨rfl, rfl, rfl, rfl, rfl, rfl, rfl, rfl, rfl, rfl, rfl, rfl, rfl, rfl, rfl, rfl, rfl, rfl, rfl, rfl, rfl, rfl, rfl, rfl, rfl, rfl, rfl, rfl, rfl, rfl, rfl, rfl, rfl, rfl, rfl, rfl, rfl, rfl, rfl, rfl, rfl, rfl, rfl, rfl, rfl, rfl, rfl, rfl, rfl⟩

@[simp] theorem Dev.wr_reads (d : Dev) (f : Fld) (i v : Nat) :
    (∀ f' i', (d.wr f i v).act f' i' = d.act f' i') ∧ (∀ k, (d.wr f i v).site k = d.site k) ∧
    (∀ k, (d.wr f i v).lane k = d.lane k) ∧ (∀ k, (d.wr f i v).pin k = d.pin k) ∧ (∀ k, (d.wr f i v).csq k = d.csq k) ∧
    (∀ k, (d.wr f i v).failSite k = d.failSite k) ∧ (∀ k, (d.wr f i v).pc k = d.pc k) ∧ (∀ k, (d.wr f i v).pll k = d.pll k) ∧
    (∀ k, (d.wr f i v).wave k = d.wave k) ∧ (∀ k, (d.wr f i v).slot k = d.slot k) ∧ (∀ k, (d.wr f i v).acq k = d.acq k) ∧
    (∀ k, (d.wr f i v).port k = d.port k) ∧ (∀ k, (d.wr f i v).rnLane k = d.rnLane k) ∧
    (∀ k, (d.wr f i v).ring k = d.ring k) ∧ (∀ k, (d.wr f i v).vec k = d.vec k) ∧
    (∀ k k', (d.wr f i v).calUnit k k' = d.calUnit k k') ∧ (d.wr f i v).bed = d.bed ∧ (d.wr f i v).cycle = d.cycle ∧
    (d.wr f i v).cycNow = d.cycNow ∧ (∀ f' i', (d.wr f i v).justSet f' i' = d.justSet f' i') := by
  refine ⟨fun _ _ => rfl, fun _ => rfl, fun _ => rfl, fun _ => rfl, fun _ => rfl, fun _ => rfl, fun _ => rfl, fun _ => rfl, fun _ => rfl, fun _ => rfl, fun _ => rfl, fun _ => rfl, fun _ => rfl, fun _ => rfl, fun _ => rfl, fun _ _ => rfl, rfl, rfl, rfl, fun _ _ => rfl⟩

@[simp] theorem Dev.setTo_frame (d : Dev) (f : Fld) (i v m : Nat) :
    (d.setTo f i v m).now = d.now ∧ (d.setTo f i v m).bedOff = d.bedOff ∧ (d.setTo f i v m).free = d.free ∧
    (d.setTo f i v m).active = d.active ∧ (d.setTo f i v m).latch = d.latch ∧ (d.setTo f i v m).readData = d.readData ∧
    (d.setTo f i v m).poisoned = d.poisoned ∧ (d.setTo f i v m).raised = d.raised ∧ (d.setTo f i v m).journal = d.journal ∧
    (d.setTo f i v m).sites = d.sites ∧ (d.setTo f i v m).lanes = d.lanes ∧ (d.setTo f i v m).pins = d.pins ∧
    (d.setTo f i v m).cs = d.cs ∧ (d.setTo f i v m).csqs = d.csqs ∧ (d.setTo f i v m).failQ = d.failQ ∧
    (d.setTo f i v m).capQ = d.capQ ∧ (d.setTo f i v m).failSites = d.failSites ∧ (d.setTo f i v m).capNo = d.capNo ∧
    (d.setTo f i v m).sigNo = d.sigNo ∧ (d.setTo f i v m).signals = d.signals ∧ (d.setTo f i v m).trigAt = d.trigAt ∧
    (d.setTo f i v m).evLevel = d.evLevel ∧ (d.setTo f i v m).pcs = d.pcs ∧ (d.setTo f i v m).mc = d.mc ∧
    (d.setTo f i v m).tmu = d.tmu ∧ (d.setTo f i v m).waves = d.waves ∧ (d.setTo f i v m).sampleAt = d.sampleAt ∧
    (d.setTo f i v m).slots = d.slots ∧ (d.setTo f i v m).acqs = d.acqs ∧ (d.setTo f i v m).ports = d.ports ∧
    (d.setTo f i v m).lanesRn = d.lanesRn ∧ (d.setTo f i v m).tw = d.tw ∧ (d.setTo f i v m).rings = d.rings ∧
    (d.setTo f i v m).ringEng = d.ringEng ∧ (d.setTo f i v m).vectors = d.vectors ∧ (d.setTo f i v m).plls = d.plls ∧
    (d.setTo f i v m).kl = d.kl ∧ (d.setTo f i v m).tl = d.tl ∧ (d.setTo f i v m).fc = d.fc ∧ (d.setTo f i v m).gd = d.gd ∧
    (d.setTo f i v m).evOut = d.evOut ∧ (d.setTo f i v m).booting = d.booting ∧ (d.setTo f i v m).pec = d.pec ∧
    (d.setTo f i v m).cal = d.cal ∧ (d.setTo f i v m).windows = d.windows ∧ (d.setTo f i v m).br = d.br ∧
    (d.setTo f i v m).tracker = d.tracker ∧ (d.setTo f i v m).nextId = d.nextId := by
  refine ⟨rfl, rfl, rfl, rfl, rfl, rfl, rfl, rfl, rfl, rfl, rfl, rfl, rfl, rfl, rfl, rfl, rfl, rfl, rfl, rfl, rfl, rfl, rfl, rfl, rfl, rfl, rfl, rfl, rfl, rfl, rfl, rfl, rfl, rfl, rfl, rfl, rfl, rfl, rfl, rfl, rfl, rfl, rfl, rfl, rfl, rfl, rfl, rfl⟩

@[simp] theorem Dev.setTo_reads (d : Dev) (f : Fld) (i v m : Nat) :
    (∀ f' i', (d.setTo f i v m).act f' i' = d.act f' i') ∧ (∀ k, (d.setTo f i v m).site k = d.site k) ∧
    (∀ k, (d.setTo f i v m).lane k = d.lane k) ∧ (∀ k, (d.setTo f i v m).pin k = d.pin k) ∧
    (∀ k, (d.setTo f i v m).csq k = d.csq k) ∧ (∀ k, (d.setTo f i v m).failSite k = d.failSite k) ∧
    (∀ k, (d.setTo f i v m).pc k = d.pc k) ∧ (∀ k, (d.setTo f i v m).pll k = d.pll k) ∧
    (∀ k, (d.setTo f i v m).wave k = d.wave k) ∧ (∀ k, (d.setTo f i v m).slot k = d.slot k) ∧
    (∀ k, (d.setTo f i v m).acq k = d.acq k) ∧ (∀ k, (d.setTo f i v m).port k = d.port k) ∧
    (∀ k, (d.setTo f i v m).rnLane k = d.rnLane k) ∧ (∀ k, (d.setTo f i v m).ring k = d.ring k) ∧
    (∀ k, (d.setTo f i v m).vec k = d.vec k) ∧ (∀ k k', (d.setTo f i v m).calUnit k k' = d.calUnit k k') ∧
    (d.setTo f i v m).bed = d.bed ∧ (d.setTo f i v m).cycle = d.cycle := by
  refine ⟨fun _ _ => rfl, fun _ => rfl, fun _ => rfl, fun _ => rfl, fun _ => rfl, fun _ => rfl, fun _ => rfl, fun _ => rfl, fun _ => rfl, fun _ => rfl, fun _ => rfl, fun _ => rfl, fun _ => rfl, fun _ => rfl, fun _ => rfl, fun _ _ => rfl, rfl, rfl⟩

@[simp] theorem Dev.set1_frame (d : Dev) (f : Fld) (i : Nat) :
    (d.set1 f i).now = d.now ∧ (d.set1 f i).bedOff = d.bedOff ∧ (d.set1 f i).free = d.free ∧ (d.set1 f i).active = d.active ∧
    (d.set1 f i).latch = d.latch ∧ (d.set1 f i).readData = d.readData ∧ (d.set1 f i).poisoned = d.poisoned ∧
    (d.set1 f i).raised = d.raised ∧ (d.set1 f i).journal = d.journal ∧ (d.set1 f i).sites = d.sites ∧
    (d.set1 f i).lanes = d.lanes ∧ (d.set1 f i).pins = d.pins ∧ (d.set1 f i).cs = d.cs ∧ (d.set1 f i).csqs = d.csqs ∧
    (d.set1 f i).failQ = d.failQ ∧ (d.set1 f i).capQ = d.capQ ∧ (d.set1 f i).failSites = d.failSites ∧
    (d.set1 f i).capNo = d.capNo ∧ (d.set1 f i).sigNo = d.sigNo ∧ (d.set1 f i).signals = d.signals ∧
    (d.set1 f i).trigAt = d.trigAt ∧ (d.set1 f i).evLevel = d.evLevel ∧ (d.set1 f i).pcs = d.pcs ∧ (d.set1 f i).mc = d.mc ∧
    (d.set1 f i).tmu = d.tmu ∧ (d.set1 f i).waves = d.waves ∧ (d.set1 f i).sampleAt = d.sampleAt ∧
    (d.set1 f i).slots = d.slots ∧ (d.set1 f i).acqs = d.acqs ∧ (d.set1 f i).ports = d.ports ∧
    (d.set1 f i).lanesRn = d.lanesRn ∧ (d.set1 f i).tw = d.tw ∧ (d.set1 f i).rings = d.rings ∧
    (d.set1 f i).ringEng = d.ringEng ∧ (d.set1 f i).vectors = d.vectors ∧ (d.set1 f i).plls = d.plls ∧
    (d.set1 f i).kl = d.kl ∧ (d.set1 f i).tl = d.tl ∧ (d.set1 f i).fc = d.fc ∧ (d.set1 f i).gd = d.gd ∧
    (d.set1 f i).evOut = d.evOut ∧ (d.set1 f i).booting = d.booting ∧ (d.set1 f i).pec = d.pec ∧ (d.set1 f i).cal = d.cal ∧
    (d.set1 f i).windows = d.windows ∧ (d.set1 f i).br = d.br ∧ (d.set1 f i).tracker = d.tracker ∧
    (d.set1 f i).nextId = d.nextId := by
  exact Dev.setTo_frame d f i 1 1

@[simp] theorem Dev.set1_reads (d : Dev) (f : Fld) (i : Nat) :
    (∀ f' i', (d.set1 f i).act f' i' = d.act f' i') ∧ (∀ k, (d.set1 f i).site k = d.site k) ∧
    (∀ k, (d.set1 f i).lane k = d.lane k) ∧ (∀ k, (d.set1 f i).pin k = d.pin k) ∧ (∀ k, (d.set1 f i).csq k = d.csq k) ∧
    (∀ k, (d.set1 f i).failSite k = d.failSite k) ∧ (∀ k, (d.set1 f i).pc k = d.pc k) ∧ (∀ k, (d.set1 f i).pll k = d.pll k) ∧
    (∀ k, (d.set1 f i).wave k = d.wave k) ∧ (∀ k, (d.set1 f i).slot k = d.slot k) ∧ (∀ k, (d.set1 f i).acq k = d.acq k) ∧
    (∀ k, (d.set1 f i).port k = d.port k) ∧ (∀ k, (d.set1 f i).rnLane k = d.rnLane k) ∧
    (∀ k, (d.set1 f i).ring k = d.ring k) ∧ (∀ k, (d.set1 f i).vec k = d.vec k) ∧
    (∀ k k', (d.set1 f i).calUnit k k' = d.calUnit k k') ∧ (d.set1 f i).bed = d.bed ∧ (d.set1 f i).cycle = d.cycle := by
  exact Dev.setTo_reads d f i 1 1

@[simp] theorem Dev.clrBy_frame (d : Dev) (f : Fld) (i : Nat) :
    (d.clrBy f i).now = d.now ∧ (d.clrBy f i).bedOff = d.bedOff ∧ (d.clrBy f i).free = d.free ∧
    (d.clrBy f i).active = d.active ∧ (d.clrBy f i).latch = d.latch ∧ (d.clrBy f i).cyc = d.cyc ∧
    (d.clrBy f i).readData = d.readData ∧ (d.clrBy f i).poisoned = d.poisoned ∧ (d.clrBy f i).raised = d.raised ∧
    (d.clrBy f i).journal = d.journal ∧ (d.clrBy f i).sites = d.sites ∧ (d.clrBy f i).lanes = d.lanes ∧
    (d.clrBy f i).pins = d.pins ∧ (d.clrBy f i).cs = d.cs ∧ (d.clrBy f i).csqs = d.csqs ∧ (d.clrBy f i).failQ = d.failQ ∧
    (d.clrBy f i).capQ = d.capQ ∧ (d.clrBy f i).failSites = d.failSites ∧ (d.clrBy f i).capNo = d.capNo ∧
    (d.clrBy f i).sigNo = d.sigNo ∧ (d.clrBy f i).signals = d.signals ∧ (d.clrBy f i).trigAt = d.trigAt ∧
    (d.clrBy f i).evLevel = d.evLevel ∧ (d.clrBy f i).pcs = d.pcs ∧ (d.clrBy f i).mc = d.mc ∧ (d.clrBy f i).tmu = d.tmu ∧
    (d.clrBy f i).waves = d.waves ∧ (d.clrBy f i).sampleAt = d.sampleAt ∧ (d.clrBy f i).slots = d.slots ∧
    (d.clrBy f i).acqs = d.acqs ∧ (d.clrBy f i).ports = d.ports ∧ (d.clrBy f i).lanesRn = d.lanesRn ∧
    (d.clrBy f i).tw = d.tw ∧ (d.clrBy f i).rings = d.rings ∧ (d.clrBy f i).ringEng = d.ringEng ∧
    (d.clrBy f i).vectors = d.vectors ∧ (d.clrBy f i).plls = d.plls ∧ (d.clrBy f i).kl = d.kl ∧ (d.clrBy f i).tl = d.tl ∧
    (d.clrBy f i).fc = d.fc ∧ (d.clrBy f i).gd = d.gd ∧ (d.clrBy f i).evOut = d.evOut ∧ (d.clrBy f i).booting = d.booting ∧
    (d.clrBy f i).pec = d.pec ∧ (d.clrBy f i).cal = d.cal ∧ (d.clrBy f i).windows = d.windows ∧ (d.clrBy f i).br = d.br ∧
    (d.clrBy f i).tracker = d.tracker ∧ (d.clrBy f i).nextId = d.nextId := by
  refine ⟨rfl, rfl, rfl, rfl, rfl, rfl, rfl, rfl, rfl, rfl, rfl, rfl, rfl, rfl, rfl, rfl, rfl, rfl, rfl, rfl, rfl, rfl, rfl, rfl, rfl, rfl, rfl, rfl, rfl, rfl, rfl, rfl, rfl, rfl, rfl, rfl, rfl, rfl, rfl, rfl, rfl, rfl, rfl, rfl, rfl, rfl, rfl, rfl, rfl⟩

@[simp] theorem Dev.clrBy_reads (d : Dev) (f : Fld) (i : Nat) :
    (∀ f' i', (d.clrBy f i).act f' i' = d.act f' i') ∧ (∀ k, (d.clrBy f i).site k = d.site k) ∧
    (∀ k, (d.clrBy f i).lane k = d.lane k) ∧ (∀ k, (d.clrBy f i).pin k = d.pin k) ∧ (∀ k, (d.clrBy f i).csq k = d.csq k) ∧
    (∀ k, (d.clrBy f i).failSite k = d.failSite k) ∧ (∀ k, (d.clrBy f i).pc k = d.pc k) ∧
    (∀ k, (d.clrBy f i).pll k = d.pll k) ∧ (∀ k, (d.clrBy f i).wave k = d.wave k) ∧ (∀ k, (d.clrBy f i).slot k = d.slot k) ∧
    (∀ k, (d.clrBy f i).acq k = d.acq k) ∧ (∀ k, (d.clrBy f i).port k = d.port k) ∧
    (∀ k, (d.clrBy f i).rnLane k = d.rnLane k) ∧ (∀ k, (d.clrBy f i).ring k = d.ring k) ∧
    (∀ k, (d.clrBy f i).vec k = d.vec k) ∧ (∀ k k', (d.clrBy f i).calUnit k k' = d.calUnit k k') ∧
    (d.clrBy f i).bed = d.bed ∧ (d.clrBy f i).cycle = d.cycle ∧ (d.clrBy f i).cycNow = d.cycNow ∧
    (∀ f' i', (d.clrBy f i).justSet f' i' = d.justSet f' i') := by
  refine ⟨fun _ _ => rfl, fun _ => rfl, fun _ => rfl, fun _ => rfl, fun _ => rfl, fun _ => rfl, fun _ => rfl, fun _ => rfl, fun _ => rfl, fun _ => rfl, fun _ => rfl, fun _ => rfl, fun _ => rfl, fun _ => rfl, fun _ => rfl, fun _ _ => rfl, rfl, rfl, rfl, fun _ _ => rfl⟩

@[simp] theorem Dev.unlatchAt_frame (d : Dev) (a : Nat) :
    (d.unlatchAt a).now = d.now ∧ (d.unlatchAt a).bedOff = d.bedOff ∧ (d.unlatchAt a).free = d.free ∧
    (d.unlatchAt a).regs = d.regs ∧ (d.unlatchAt a).active = d.active ∧ (d.unlatchAt a).cyc = d.cyc ∧
    (d.unlatchAt a).readData = d.readData ∧ (d.unlatchAt a).poisoned = d.poisoned ∧ (d.unlatchAt a).raised = d.raised ∧
    (d.unlatchAt a).journal = d.journal ∧ (d.unlatchAt a).sites = d.sites ∧ (d.unlatchAt a).lanes = d.lanes ∧
    (d.unlatchAt a).pins = d.pins ∧ (d.unlatchAt a).cs = d.cs ∧ (d.unlatchAt a).csqs = d.csqs ∧
    (d.unlatchAt a).failQ = d.failQ ∧ (d.unlatchAt a).capQ = d.capQ ∧ (d.unlatchAt a).failSites = d.failSites ∧
    (d.unlatchAt a).capNo = d.capNo ∧ (d.unlatchAt a).sigNo = d.sigNo ∧ (d.unlatchAt a).signals = d.signals ∧
    (d.unlatchAt a).trigAt = d.trigAt ∧ (d.unlatchAt a).evLevel = d.evLevel ∧ (d.unlatchAt a).pcs = d.pcs ∧
    (d.unlatchAt a).mc = d.mc ∧ (d.unlatchAt a).tmu = d.tmu ∧ (d.unlatchAt a).waves = d.waves ∧
    (d.unlatchAt a).sampleAt = d.sampleAt ∧ (d.unlatchAt a).slots = d.slots ∧ (d.unlatchAt a).acqs = d.acqs ∧
    (d.unlatchAt a).ports = d.ports ∧ (d.unlatchAt a).lanesRn = d.lanesRn ∧ (d.unlatchAt a).tw = d.tw ∧
    (d.unlatchAt a).rings = d.rings ∧ (d.unlatchAt a).ringEng = d.ringEng ∧ (d.unlatchAt a).vectors = d.vectors ∧
    (d.unlatchAt a).plls = d.plls ∧ (d.unlatchAt a).kl = d.kl ∧ (d.unlatchAt a).tl = d.tl ∧ (d.unlatchAt a).fc = d.fc ∧
    (d.unlatchAt a).gd = d.gd ∧ (d.unlatchAt a).evOut = d.evOut ∧ (d.unlatchAt a).booting = d.booting ∧
    (d.unlatchAt a).pec = d.pec ∧ (d.unlatchAt a).cal = d.cal ∧ (d.unlatchAt a).windows = d.windows ∧
    (d.unlatchAt a).br = d.br ∧ (d.unlatchAt a).tracker = d.tracker ∧ (d.unlatchAt a).nextId = d.nextId := by
  refine ⟨rfl, rfl, rfl, rfl, rfl, rfl, rfl, rfl, rfl, rfl, rfl, rfl, rfl, rfl, rfl, rfl, rfl, rfl, rfl, rfl, rfl, rfl, rfl, rfl, rfl, rfl, rfl, rfl, rfl, rfl, rfl, rfl, rfl, rfl, rfl, rfl, rfl, rfl, rfl, rfl, rfl, rfl, rfl, rfl, rfl, rfl, rfl, rfl, rfl⟩

@[simp] theorem Dev.unlatchAt_reads (d : Dev) (a : Nat) :
    (∀ f' i', (d.unlatchAt a).rd f' i' = d.rd f' i') ∧ (∀ f' i', (d.unlatchAt a).act f' i' = d.act f' i') ∧
    (∀ f' i', (d.unlatchAt a).on f' i' = d.on f' i') ∧ (∀ k, (d.unlatchAt a).site k = d.site k) ∧
    (∀ k, (d.unlatchAt a).lane k = d.lane k) ∧ (∀ k, (d.unlatchAt a).pin k = d.pin k) ∧
    (∀ k, (d.unlatchAt a).csq k = d.csq k) ∧ (∀ k, (d.unlatchAt a).failSite k = d.failSite k) ∧
    (∀ k, (d.unlatchAt a).pc k = d.pc k) ∧ (∀ k, (d.unlatchAt a).pll k = d.pll k) ∧
    (∀ k, (d.unlatchAt a).wave k = d.wave k) ∧ (∀ k, (d.unlatchAt a).slot k = d.slot k) ∧
    (∀ k, (d.unlatchAt a).acq k = d.acq k) ∧ (∀ k, (d.unlatchAt a).port k = d.port k) ∧
    (∀ k, (d.unlatchAt a).rnLane k = d.rnLane k) ∧ (∀ k, (d.unlatchAt a).ring k = d.ring k) ∧
    (∀ k, (d.unlatchAt a).vec k = d.vec k) ∧ (∀ k k', (d.unlatchAt a).calUnit k k' = d.calUnit k k') ∧
    (d.unlatchAt a).bed = d.bed ∧ (d.unlatchAt a).cycle = d.cycle ∧ (d.unlatchAt a).cycNow = d.cycNow ∧
    (∀ f' i', (d.unlatchAt a).justSet f' i' = d.justSet f' i') := by
  refine ⟨fun _ _ => rfl, fun _ _ => rfl, fun _ _ => rfl, fun _ => rfl, fun _ => rfl, fun _ => rfl, fun _ => rfl, fun _ => rfl, fun _ => rfl, fun _ => rfl, fun _ => rfl, fun _ => rfl, fun _ => rfl, fun _ => rfl, fun _ => rfl, fun _ => rfl, fun _ => rfl, fun _ _ => rfl, rfl, rfl, rfl, fun _ _ => rfl⟩

@[simp] theorem Dev.clr_frame (d : Dev) (f : Fld) (i : Nat) :
    (d.clr f i).now = d.now ∧ (d.clr f i).bedOff = d.bedOff ∧ (d.clr f i).free = d.free ∧ (d.clr f i).active = d.active ∧
    (d.clr f i).latch = d.latch ∧ (d.clr f i).cyc = d.cyc ∧ (d.clr f i).readData = d.readData ∧
    (d.clr f i).poisoned = d.poisoned ∧ (d.clr f i).raised = d.raised ∧ (d.clr f i).journal = d.journal ∧
    (d.clr f i).sites = d.sites ∧ (d.clr f i).lanes = d.lanes ∧ (d.clr f i).pins = d.pins ∧ (d.clr f i).cs = d.cs ∧
    (d.clr f i).csqs = d.csqs ∧ (d.clr f i).failQ = d.failQ ∧ (d.clr f i).capQ = d.capQ ∧
    (d.clr f i).failSites = d.failSites ∧ (d.clr f i).capNo = d.capNo ∧ (d.clr f i).sigNo = d.sigNo ∧
    (d.clr f i).signals = d.signals ∧ (d.clr f i).trigAt = d.trigAt ∧ (d.clr f i).evLevel = d.evLevel ∧
    (d.clr f i).pcs = d.pcs ∧ (d.clr f i).mc = d.mc ∧ (d.clr f i).tmu = d.tmu ∧ (d.clr f i).waves = d.waves ∧
    (d.clr f i).sampleAt = d.sampleAt ∧ (d.clr f i).slots = d.slots ∧ (d.clr f i).acqs = d.acqs ∧
    (d.clr f i).ports = d.ports ∧ (d.clr f i).lanesRn = d.lanesRn ∧ (d.clr f i).tw = d.tw ∧ (d.clr f i).rings = d.rings ∧
    (d.clr f i).ringEng = d.ringEng ∧ (d.clr f i).vectors = d.vectors ∧ (d.clr f i).plls = d.plls ∧ (d.clr f i).kl = d.kl ∧
    (d.clr f i).tl = d.tl ∧ (d.clr f i).fc = d.fc ∧ (d.clr f i).gd = d.gd ∧ (d.clr f i).evOut = d.evOut ∧
    (d.clr f i).booting = d.booting ∧ (d.clr f i).pec = d.pec ∧ (d.clr f i).cal = d.cal ∧ (d.clr f i).windows = d.windows ∧
    (d.clr f i).br = d.br ∧ (d.clr f i).tracker = d.tracker ∧ (d.clr f i).nextId = d.nextId := by
  refine ⟨rfl, rfl, rfl, rfl, rfl, rfl, rfl, rfl, rfl, rfl, rfl, rfl, rfl, rfl, rfl, rfl, rfl, rfl, rfl, rfl, rfl, rfl, rfl, rfl, rfl, rfl, rfl, rfl, rfl, rfl, rfl, rfl, rfl, rfl, rfl, rfl, rfl, rfl, rfl, rfl, rfl, rfl, rfl, rfl, rfl, rfl, rfl, rfl, rfl⟩

@[simp] theorem Dev.clr_reads (d : Dev) (f : Fld) (i : Nat) :
    (∀ f' i', (d.clr f i).act f' i' = d.act f' i') ∧ (∀ k, (d.clr f i).site k = d.site k) ∧
    (∀ k, (d.clr f i).lane k = d.lane k) ∧ (∀ k, (d.clr f i).pin k = d.pin k) ∧ (∀ k, (d.clr f i).csq k = d.csq k) ∧
    (∀ k, (d.clr f i).failSite k = d.failSite k) ∧ (∀ k, (d.clr f i).pc k = d.pc k) ∧ (∀ k, (d.clr f i).pll k = d.pll k) ∧
    (∀ k, (d.clr f i).wave k = d.wave k) ∧ (∀ k, (d.clr f i).slot k = d.slot k) ∧ (∀ k, (d.clr f i).acq k = d.acq k) ∧
    (∀ k, (d.clr f i).port k = d.port k) ∧ (∀ k, (d.clr f i).rnLane k = d.rnLane k) ∧ (∀ k, (d.clr f i).ring k = d.ring k) ∧
    (∀ k, (d.clr f i).vec k = d.vec k) ∧ (∀ k k', (d.clr f i).calUnit k k' = d.calUnit k k') ∧ (d.clr f i).bed = d.bed ∧
    (d.clr f i).cycle = d.cycle ∧ (d.clr f i).cycNow = d.cycNow ∧ (∀ f' i', (d.clr f i).justSet f' i' = d.justSet f' i') := by
  refine ⟨fun _ _ => rfl, fun _ => rfl, fun _ => rfl, fun _ => rfl, fun _ => rfl, fun _ => rfl, fun _ => rfl, fun _ => rfl, fun _ => rfl, fun _ => rfl, fun _ => rfl, fun _ => rfl, fun _ => rfl, fun _ => rfl, fun _ => rfl, fun _ _ => rfl, rfl, rfl, rfl, fun _ _ => rfl⟩

@[simp] theorem Dev.count_frame (d : Dev) (f : Fld) (i n : Nat) :
    (d.count f i n).now = d.now ∧ (d.count f i n).bedOff = d.bedOff ∧ (d.count f i n).free = d.free ∧
    (d.count f i n).active = d.active ∧ (d.count f i n).latch = d.latch ∧ (d.count f i n).cyc = d.cyc ∧
    (d.count f i n).readData = d.readData ∧ (d.count f i n).poisoned = d.poisoned ∧ (d.count f i n).raised = d.raised ∧
    (d.count f i n).journal = d.journal ∧ (d.count f i n).sites = d.sites ∧ (d.count f i n).lanes = d.lanes ∧
    (d.count f i n).pins = d.pins ∧ (d.count f i n).cs = d.cs ∧ (d.count f i n).csqs = d.csqs ∧
    (d.count f i n).failQ = d.failQ ∧ (d.count f i n).capQ = d.capQ ∧ (d.count f i n).failSites = d.failSites ∧
    (d.count f i n).capNo = d.capNo ∧ (d.count f i n).sigNo = d.sigNo ∧ (d.count f i n).signals = d.signals ∧
    (d.count f i n).trigAt = d.trigAt ∧ (d.count f i n).evLevel = d.evLevel ∧ (d.count f i n).pcs = d.pcs ∧
    (d.count f i n).mc = d.mc ∧ (d.count f i n).tmu = d.tmu ∧ (d.count f i n).waves = d.waves ∧
    (d.count f i n).sampleAt = d.sampleAt ∧ (d.count f i n).slots = d.slots ∧ (d.count f i n).acqs = d.acqs ∧
    (d.count f i n).ports = d.ports ∧ (d.count f i n).lanesRn = d.lanesRn ∧ (d.count f i n).tw = d.tw ∧
    (d.count f i n).rings = d.rings ∧ (d.count f i n).ringEng = d.ringEng ∧ (d.count f i n).vectors = d.vectors ∧
    (d.count f i n).plls = d.plls ∧ (d.count f i n).kl = d.kl ∧ (d.count f i n).tl = d.tl ∧ (d.count f i n).fc = d.fc ∧
    (d.count f i n).gd = d.gd ∧ (d.count f i n).evOut = d.evOut ∧ (d.count f i n).booting = d.booting ∧
    (d.count f i n).pec = d.pec ∧ (d.count f i n).cal = d.cal ∧ (d.count f i n).windows = d.windows ∧
    (d.count f i n).br = d.br ∧ (d.count f i n).tracker = d.tracker ∧ (d.count f i n).nextId = d.nextId := by
  refine ⟨rfl, rfl, rfl, rfl, rfl, rfl, rfl, rfl, rfl, rfl, rfl, rfl, rfl, rfl, rfl, rfl, rfl, rfl, rfl, rfl, rfl, rfl, rfl, rfl, rfl, rfl, rfl, rfl, rfl, rfl, rfl, rfl, rfl, rfl, rfl, rfl, rfl, rfl, rfl, rfl, rfl, rfl, rfl, rfl, rfl, rfl, rfl, rfl, rfl⟩

@[simp] theorem Dev.count_reads (d : Dev) (f : Fld) (i n : Nat) :
    (∀ f' i', (d.count f i n).act f' i' = d.act f' i') ∧ (∀ k, (d.count f i n).site k = d.site k) ∧
    (∀ k, (d.count f i n).lane k = d.lane k) ∧ (∀ k, (d.count f i n).pin k = d.pin k) ∧
    (∀ k, (d.count f i n).csq k = d.csq k) ∧ (∀ k, (d.count f i n).failSite k = d.failSite k) ∧
    (∀ k, (d.count f i n).pc k = d.pc k) ∧ (∀ k, (d.count f i n).pll k = d.pll k) ∧
    (∀ k, (d.count f i n).wave k = d.wave k) ∧ (∀ k, (d.count f i n).slot k = d.slot k) ∧
    (∀ k, (d.count f i n).acq k = d.acq k) ∧ (∀ k, (d.count f i n).port k = d.port k) ∧
    (∀ k, (d.count f i n).rnLane k = d.rnLane k) ∧ (∀ k, (d.count f i n).ring k = d.ring k) ∧
    (∀ k, (d.count f i n).vec k = d.vec k) ∧ (∀ k k', (d.count f i n).calUnit k k' = d.calUnit k k') ∧
    (d.count f i n).bed = d.bed ∧ (d.count f i n).cycle = d.cycle ∧ (d.count f i n).cycNow = d.cycNow ∧
    (∀ f' i', (d.count f i n).justSet f' i' = d.justSet f' i') := by
  refine ⟨fun _ _ => rfl, fun _ => rfl, fun _ => rfl, fun _ => rfl, fun _ => rfl, fun _ => rfl, fun _ => rfl, fun _ => rfl, fun _ => rfl, fun _ => rfl, fun _ => rfl, fun _ => rfl, fun _ => rfl, fun _ => rfl, fun _ => rfl, fun _ _ => rfl, rfl, rfl, rfl, fun _ _ => rfl⟩

@[simp] theorem Dev.move_frame (d : Dev) (f : Fld) (i : Nat) :
    (d.move f i).now = d.now ∧ (d.move f i).bedOff = d.bedOff ∧ (d.move f i).free = d.free ∧ (d.move f i).regs = d.regs ∧
    (d.move f i).latch = d.latch ∧ (d.move f i).cyc = d.cyc ∧ (d.move f i).readData = d.readData ∧
    (d.move f i).poisoned = d.poisoned ∧ (d.move f i).raised = d.raised ∧ (d.move f i).journal = d.journal ∧
    (d.move f i).sites = d.sites ∧ (d.move f i).lanes = d.lanes ∧ (d.move f i).pins = d.pins ∧ (d.move f i).cs = d.cs ∧
    (d.move f i).csqs = d.csqs ∧ (d.move f i).failQ = d.failQ ∧ (d.move f i).capQ = d.capQ ∧
    (d.move f i).failSites = d.failSites ∧ (d.move f i).capNo = d.capNo ∧ (d.move f i).sigNo = d.sigNo ∧
    (d.move f i).signals = d.signals ∧ (d.move f i).trigAt = d.trigAt ∧ (d.move f i).evLevel = d.evLevel ∧
    (d.move f i).pcs = d.pcs ∧ (d.move f i).mc = d.mc ∧ (d.move f i).tmu = d.tmu ∧ (d.move f i).waves = d.waves ∧
    (d.move f i).sampleAt = d.sampleAt ∧ (d.move f i).slots = d.slots ∧ (d.move f i).acqs = d.acqs ∧
    (d.move f i).ports = d.ports ∧ (d.move f i).lanesRn = d.lanesRn ∧ (d.move f i).tw = d.tw ∧ (d.move f i).rings = d.rings ∧
    (d.move f i).ringEng = d.ringEng ∧ (d.move f i).vectors = d.vectors ∧ (d.move f i).plls = d.plls ∧
    (d.move f i).kl = d.kl ∧ (d.move f i).tl = d.tl ∧ (d.move f i).fc = d.fc ∧ (d.move f i).gd = d.gd ∧
    (d.move f i).evOut = d.evOut ∧ (d.move f i).booting = d.booting ∧ (d.move f i).pec = d.pec ∧ (d.move f i).cal = d.cal ∧
    (d.move f i).windows = d.windows ∧ (d.move f i).br = d.br ∧ (d.move f i).tracker = d.tracker ∧
    (d.move f i).nextId = d.nextId := by
  refine ⟨rfl, rfl, rfl, rfl, rfl, rfl, rfl, rfl, rfl, rfl, rfl, rfl, rfl, rfl, rfl, rfl, rfl, rfl, rfl, rfl, rfl, rfl, rfl, rfl, rfl, rfl, rfl, rfl, rfl, rfl, rfl, rfl, rfl, rfl, rfl, rfl, rfl, rfl, rfl, rfl, rfl, rfl, rfl, rfl, rfl, rfl, rfl, rfl, rfl⟩

@[simp] theorem Dev.move_reads (d : Dev) (f : Fld) (i : Nat) :
    (∀ f' i', (d.move f i).rd f' i' = d.rd f' i') ∧ (∀ f' i', (d.move f i).on f' i' = d.on f' i') ∧
    (∀ k, (d.move f i).site k = d.site k) ∧ (∀ k, (d.move f i).lane k = d.lane k) ∧ (∀ k, (d.move f i).pin k = d.pin k) ∧
    (∀ k, (d.move f i).csq k = d.csq k) ∧ (∀ k, (d.move f i).failSite k = d.failSite k) ∧ (∀ k, (d.move f i).pc k = d.pc k) ∧
    (∀ k, (d.move f i).pll k = d.pll k) ∧ (∀ k, (d.move f i).wave k = d.wave k) ∧ (∀ k, (d.move f i).slot k = d.slot k) ∧
    (∀ k, (d.move f i).acq k = d.acq k) ∧ (∀ k, (d.move f i).port k = d.port k) ∧ (∀ k, (d.move f i).rnLane k = d.rnLane k) ∧
    (∀ k, (d.move f i).ring k = d.ring k) ∧ (∀ k, (d.move f i).vec k = d.vec k) ∧
    (∀ k k', (d.move f i).calUnit k k' = d.calUnit k k') ∧ (d.move f i).bed = d.bed ∧ (d.move f i).cycle = d.cycle ∧
    (d.move f i).cycNow = d.cycNow ∧ (∀ f' i', (d.move f i).justSet f' i' = d.justSet f' i') := by
  refine ⟨fun _ _ => rfl, fun _ _ => rfl, fun _ => rfl, fun _ => rfl, fun _ => rfl, fun _ => rfl, fun _ => rfl, fun _ => rfl, fun _ => rfl, fun _ => rfl, fun _ => rfl, fun _ => rfl, fun _ => rfl, fun _ => rfl, fun _ => rfl, fun _ => rfl, fun _ _ => rfl, rfl, rfl, rfl, fun _ _ => rfl⟩

@[simp] theorem Dev.upSite_frame (d : Dev) (n : Nat) (f : Site → Site) :
    (d.upSite n f).now = d.now ∧ (d.upSite n f).bedOff = d.bedOff ∧ (d.upSite n f).free = d.free ∧
    (d.upSite n f).regs = d.regs ∧ (d.upSite n f).active = d.active ∧ (d.upSite n f).latch = d.latch ∧
    (d.upSite n f).cyc = d.cyc ∧ (d.upSite n f).readData = d.readData ∧ (d.upSite n f).poisoned = d.poisoned ∧
    (d.upSite n f).raised = d.raised ∧ (d.upSite n f).journal = d.journal ∧ (d.upSite n f).lanes = d.lanes ∧
    (d.upSite n f).pins = d.pins ∧ (d.upSite n f).cs = d.cs ∧ (d.upSite n f).csqs = d.csqs ∧ (d.upSite n f).failQ = d.failQ ∧
    (d.upSite n f).capQ = d.capQ ∧ (d.upSite n f).failSites = d.failSites ∧ (d.upSite n f).capNo = d.capNo ∧
    (d.upSite n f).sigNo = d.sigNo ∧ (d.upSite n f).signals = d.signals ∧ (d.upSite n f).trigAt = d.trigAt ∧
    (d.upSite n f).evLevel = d.evLevel ∧ (d.upSite n f).pcs = d.pcs ∧ (d.upSite n f).mc = d.mc ∧ (d.upSite n f).tmu = d.tmu ∧
    (d.upSite n f).waves = d.waves ∧ (d.upSite n f).sampleAt = d.sampleAt ∧ (d.upSite n f).slots = d.slots ∧
    (d.upSite n f).acqs = d.acqs ∧ (d.upSite n f).ports = d.ports ∧ (d.upSite n f).lanesRn = d.lanesRn ∧
    (d.upSite n f).tw = d.tw ∧ (d.upSite n f).rings = d.rings ∧ (d.upSite n f).ringEng = d.ringEng ∧
    (d.upSite n f).vectors = d.vectors ∧ (d.upSite n f).plls = d.plls ∧ (d.upSite n f).kl = d.kl ∧ (d.upSite n f).tl = d.tl ∧
    (d.upSite n f).fc = d.fc ∧ (d.upSite n f).gd = d.gd ∧ (d.upSite n f).evOut = d.evOut ∧
    (d.upSite n f).booting = d.booting ∧ (d.upSite n f).pec = d.pec ∧ (d.upSite n f).cal = d.cal ∧
    (d.upSite n f).windows = d.windows ∧ (d.upSite n f).br = d.br ∧ (d.upSite n f).tracker = d.tracker ∧
    (d.upSite n f).nextId = d.nextId := by
  refine ⟨rfl, rfl, rfl, rfl, rfl, rfl, rfl, rfl, rfl, rfl, rfl, rfl, rfl, rfl, rfl, rfl, rfl, rfl, rfl, rfl, rfl, rfl, rfl, rfl, rfl, rfl, rfl, rfl, rfl, rfl, rfl, rfl, rfl, rfl, rfl, rfl, rfl, rfl, rfl, rfl, rfl, rfl, rfl, rfl, rfl, rfl, rfl, rfl, rfl⟩

@[simp] theorem Dev.upSite_reads (d : Dev) (n : Nat) (f : Site → Site) :
    (∀ f' i', (d.upSite n f).rd f' i' = d.rd f' i') ∧ (∀ f' i', (d.upSite n f).act f' i' = d.act f' i') ∧
    (∀ f' i', (d.upSite n f).on f' i' = d.on f' i') ∧ (∀ k, (d.upSite n f).lane k = d.lane k) ∧
    (∀ k, (d.upSite n f).pin k = d.pin k) ∧ (∀ k, (d.upSite n f).csq k = d.csq k) ∧
    (∀ k, (d.upSite n f).failSite k = d.failSite k) ∧ (∀ k, (d.upSite n f).pc k = d.pc k) ∧
    (∀ k, (d.upSite n f).pll k = d.pll k) ∧ (∀ k, (d.upSite n f).wave k = d.wave k) ∧
    (∀ k, (d.upSite n f).slot k = d.slot k) ∧ (∀ k, (d.upSite n f).acq k = d.acq k) ∧
    (∀ k, (d.upSite n f).port k = d.port k) ∧ (∀ k, (d.upSite n f).rnLane k = d.rnLane k) ∧
    (∀ k, (d.upSite n f).ring k = d.ring k) ∧ (∀ k, (d.upSite n f).vec k = d.vec k) ∧
    (∀ k k', (d.upSite n f).calUnit k k' = d.calUnit k k') ∧ (d.upSite n f).bed = d.bed ∧ (d.upSite n f).cycle = d.cycle ∧
    (d.upSite n f).cycNow = d.cycNow ∧ (∀ f' i', (d.upSite n f).justSet f' i' = d.justSet f' i') := by
  refine ⟨fun _ _ => rfl, fun _ _ => rfl, fun _ _ => rfl, fun _ => rfl, fun _ => rfl, fun _ => rfl, fun _ => rfl, fun _ => rfl, fun _ => rfl, fun _ => rfl, fun _ => rfl, fun _ => rfl, fun _ => rfl, fun _ => rfl, fun _ => rfl, fun _ => rfl, fun _ _ => rfl, rfl, rfl, rfl, fun _ _ => rfl⟩

@[simp] theorem Dev.upLane_frame (d : Dev) (n : Nat) (f : Lane → Lane) :
    (d.upLane n f).now = d.now ∧ (d.upLane n f).bedOff = d.bedOff ∧ (d.upLane n f).free = d.free ∧
    (d.upLane n f).regs = d.regs ∧ (d.upLane n f).active = d.active ∧ (d.upLane n f).latch = d.latch ∧
    (d.upLane n f).cyc = d.cyc ∧ (d.upLane n f).readData = d.readData ∧ (d.upLane n f).poisoned = d.poisoned ∧
    (d.upLane n f).raised = d.raised ∧ (d.upLane n f).journal = d.journal ∧ (d.upLane n f).sites = d.sites ∧
    (d.upLane n f).pins = d.pins ∧ (d.upLane n f).cs = d.cs ∧ (d.upLane n f).csqs = d.csqs ∧ (d.upLane n f).failQ = d.failQ ∧
    (d.upLane n f).capQ = d.capQ ∧ (d.upLane n f).failSites = d.failSites ∧ (d.upLane n f).capNo = d.capNo ∧
    (d.upLane n f).sigNo = d.sigNo ∧ (d.upLane n f).signals = d.signals ∧ (d.upLane n f).trigAt = d.trigAt ∧
    (d.upLane n f).evLevel = d.evLevel ∧ (d.upLane n f).pcs = d.pcs ∧ (d.upLane n f).mc = d.mc ∧ (d.upLane n f).tmu = d.tmu ∧
    (d.upLane n f).waves = d.waves ∧ (d.upLane n f).sampleAt = d.sampleAt ∧ (d.upLane n f).slots = d.slots ∧
    (d.upLane n f).acqs = d.acqs ∧ (d.upLane n f).ports = d.ports ∧ (d.upLane n f).lanesRn = d.lanesRn ∧
    (d.upLane n f).tw = d.tw ∧ (d.upLane n f).rings = d.rings ∧ (d.upLane n f).ringEng = d.ringEng ∧
    (d.upLane n f).vectors = d.vectors ∧ (d.upLane n f).plls = d.plls ∧ (d.upLane n f).kl = d.kl ∧ (d.upLane n f).tl = d.tl ∧
    (d.upLane n f).fc = d.fc ∧ (d.upLane n f).gd = d.gd ∧ (d.upLane n f).evOut = d.evOut ∧
    (d.upLane n f).booting = d.booting ∧ (d.upLane n f).pec = d.pec ∧ (d.upLane n f).cal = d.cal ∧
    (d.upLane n f).windows = d.windows ∧ (d.upLane n f).br = d.br ∧ (d.upLane n f).tracker = d.tracker ∧
    (d.upLane n f).nextId = d.nextId := by
  refine ⟨rfl, rfl, rfl, rfl, rfl, rfl, rfl, rfl, rfl, rfl, rfl, rfl, rfl, rfl, rfl, rfl, rfl, rfl, rfl, rfl, rfl, rfl, rfl, rfl, rfl, rfl, rfl, rfl, rfl, rfl, rfl, rfl, rfl, rfl, rfl, rfl, rfl, rfl, rfl, rfl, rfl, rfl, rfl, rfl, rfl, rfl, rfl, rfl, rfl⟩

@[simp] theorem Dev.upLane_reads (d : Dev) (n : Nat) (f : Lane → Lane) :
    (∀ f' i', (d.upLane n f).rd f' i' = d.rd f' i') ∧ (∀ f' i', (d.upLane n f).act f' i' = d.act f' i') ∧
    (∀ f' i', (d.upLane n f).on f' i' = d.on f' i') ∧ (∀ k, (d.upLane n f).site k = d.site k) ∧
    (∀ k, (d.upLane n f).pin k = d.pin k) ∧ (∀ k, (d.upLane n f).csq k = d.csq k) ∧
    (∀ k, (d.upLane n f).failSite k = d.failSite k) ∧ (∀ k, (d.upLane n f).pc k = d.pc k) ∧
    (∀ k, (d.upLane n f).pll k = d.pll k) ∧ (∀ k, (d.upLane n f).wave k = d.wave k) ∧
    (∀ k, (d.upLane n f).slot k = d.slot k) ∧ (∀ k, (d.upLane n f).acq k = d.acq k) ∧
    (∀ k, (d.upLane n f).port k = d.port k) ∧ (∀ k, (d.upLane n f).rnLane k = d.rnLane k) ∧
    (∀ k, (d.upLane n f).ring k = d.ring k) ∧ (∀ k, (d.upLane n f).vec k = d.vec k) ∧
    (∀ k k', (d.upLane n f).calUnit k k' = d.calUnit k k') ∧ (d.upLane n f).bed = d.bed ∧ (d.upLane n f).cycle = d.cycle ∧
    (d.upLane n f).cycNow = d.cycNow ∧ (∀ f' i', (d.upLane n f).justSet f' i' = d.justSet f' i') := by
  refine ⟨fun _ _ => rfl, fun _ _ => rfl, fun _ _ => rfl, fun _ => rfl, fun _ => rfl, fun _ => rfl, fun _ => rfl, fun _ => rfl, fun _ => rfl, fun _ => rfl, fun _ => rfl, fun _ => rfl, fun _ => rfl, fun _ => rfl, fun _ => rfl, fun _ => rfl, fun _ _ => rfl, rfl, rfl, rfl, fun _ _ => rfl⟩

@[simp] theorem Dev.upPin_frame (d : Dev) (n : Nat) (f : Pin → Pin) :
    (d.upPin n f).now = d.now ∧ (d.upPin n f).bedOff = d.bedOff ∧ (d.upPin n f).free = d.free ∧ (d.upPin n f).regs = d.regs ∧
    (d.upPin n f).active = d.active ∧ (d.upPin n f).latch = d.latch ∧ (d.upPin n f).cyc = d.cyc ∧
    (d.upPin n f).readData = d.readData ∧ (d.upPin n f).poisoned = d.poisoned ∧ (d.upPin n f).raised = d.raised ∧
    (d.upPin n f).journal = d.journal ∧ (d.upPin n f).sites = d.sites ∧ (d.upPin n f).lanes = d.lanes ∧
    (d.upPin n f).cs = d.cs ∧ (d.upPin n f).csqs = d.csqs ∧ (d.upPin n f).failQ = d.failQ ∧ (d.upPin n f).capQ = d.capQ ∧
    (d.upPin n f).failSites = d.failSites ∧ (d.upPin n f).capNo = d.capNo ∧ (d.upPin n f).sigNo = d.sigNo ∧
    (d.upPin n f).signals = d.signals ∧ (d.upPin n f).trigAt = d.trigAt ∧ (d.upPin n f).evLevel = d.evLevel ∧
    (d.upPin n f).pcs = d.pcs ∧ (d.upPin n f).mc = d.mc ∧ (d.upPin n f).tmu = d.tmu ∧ (d.upPin n f).waves = d.waves ∧
    (d.upPin n f).sampleAt = d.sampleAt ∧ (d.upPin n f).slots = d.slots ∧ (d.upPin n f).acqs = d.acqs ∧
    (d.upPin n f).ports = d.ports ∧ (d.upPin n f).lanesRn = d.lanesRn ∧ (d.upPin n f).tw = d.tw ∧
    (d.upPin n f).rings = d.rings ∧ (d.upPin n f).ringEng = d.ringEng ∧ (d.upPin n f).vectors = d.vectors ∧
    (d.upPin n f).plls = d.plls ∧ (d.upPin n f).kl = d.kl ∧ (d.upPin n f).tl = d.tl ∧ (d.upPin n f).fc = d.fc ∧
    (d.upPin n f).gd = d.gd ∧ (d.upPin n f).evOut = d.evOut ∧ (d.upPin n f).booting = d.booting ∧ (d.upPin n f).pec = d.pec ∧
    (d.upPin n f).cal = d.cal ∧ (d.upPin n f).windows = d.windows ∧ (d.upPin n f).br = d.br ∧
    (d.upPin n f).tracker = d.tracker ∧ (d.upPin n f).nextId = d.nextId := by
  refine ⟨rfl, rfl, rfl, rfl, rfl, rfl, rfl, rfl, rfl, rfl, rfl, rfl, rfl, rfl, rfl, rfl, rfl, rfl, rfl, rfl, rfl, rfl, rfl, rfl, rfl, rfl, rfl, rfl, rfl, rfl, rfl, rfl, rfl, rfl, rfl, rfl, rfl, rfl, rfl, rfl, rfl, rfl, rfl, rfl, rfl, rfl, rfl, rfl, rfl⟩

@[simp] theorem Dev.upPin_reads (d : Dev) (n : Nat) (f : Pin → Pin) :
    (∀ f' i', (d.upPin n f).rd f' i' = d.rd f' i') ∧ (∀ f' i', (d.upPin n f).act f' i' = d.act f' i') ∧
    (∀ f' i', (d.upPin n f).on f' i' = d.on f' i') ∧ (∀ k, (d.upPin n f).site k = d.site k) ∧
    (∀ k, (d.upPin n f).lane k = d.lane k) ∧ (∀ k, (d.upPin n f).csq k = d.csq k) ∧
    (∀ k, (d.upPin n f).failSite k = d.failSite k) ∧ (∀ k, (d.upPin n f).pc k = d.pc k) ∧
    (∀ k, (d.upPin n f).pll k = d.pll k) ∧ (∀ k, (d.upPin n f).wave k = d.wave k) ∧ (∀ k, (d.upPin n f).slot k = d.slot k) ∧
    (∀ k, (d.upPin n f).acq k = d.acq k) ∧ (∀ k, (d.upPin n f).port k = d.port k) ∧
    (∀ k, (d.upPin n f).rnLane k = d.rnLane k) ∧ (∀ k, (d.upPin n f).ring k = d.ring k) ∧
    (∀ k, (d.upPin n f).vec k = d.vec k) ∧ (∀ k k', (d.upPin n f).calUnit k k' = d.calUnit k k') ∧
    (d.upPin n f).bed = d.bed ∧ (d.upPin n f).cycle = d.cycle ∧ (d.upPin n f).cycNow = d.cycNow ∧
    (∀ f' i', (d.upPin n f).justSet f' i' = d.justSet f' i') := by
  refine ⟨fun _ _ => rfl, fun _ _ => rfl, fun _ _ => rfl, fun _ => rfl, fun _ => rfl, fun _ => rfl, fun _ => rfl, fun _ => rfl, fun _ => rfl, fun _ => rfl, fun _ => rfl, fun _ => rfl, fun _ => rfl, fun _ => rfl, fun _ => rfl, fun _ => rfl, fun _ _ => rfl, rfl, rfl, rfl, fun _ _ => rfl⟩

@[simp] theorem Dev.upCsq_frame (d : Dev) (n : Nat) (f : Csq → Csq) :
    (d.upCsq n f).now = d.now ∧ (d.upCsq n f).bedOff = d.bedOff ∧ (d.upCsq n f).free = d.free ∧ (d.upCsq n f).regs = d.regs ∧
    (d.upCsq n f).active = d.active ∧ (d.upCsq n f).latch = d.latch ∧ (d.upCsq n f).cyc = d.cyc ∧
    (d.upCsq n f).readData = d.readData ∧ (d.upCsq n f).poisoned = d.poisoned ∧ (d.upCsq n f).raised = d.raised ∧
    (d.upCsq n f).journal = d.journal ∧ (d.upCsq n f).sites = d.sites ∧ (d.upCsq n f).lanes = d.lanes ∧
    (d.upCsq n f).pins = d.pins ∧ (d.upCsq n f).cs = d.cs ∧ (d.upCsq n f).failQ = d.failQ ∧ (d.upCsq n f).capQ = d.capQ ∧
    (d.upCsq n f).failSites = d.failSites ∧ (d.upCsq n f).capNo = d.capNo ∧ (d.upCsq n f).sigNo = d.sigNo ∧
    (d.upCsq n f).signals = d.signals ∧ (d.upCsq n f).trigAt = d.trigAt ∧ (d.upCsq n f).evLevel = d.evLevel ∧
    (d.upCsq n f).pcs = d.pcs ∧ (d.upCsq n f).mc = d.mc ∧ (d.upCsq n f).tmu = d.tmu ∧ (d.upCsq n f).waves = d.waves ∧
    (d.upCsq n f).sampleAt = d.sampleAt ∧ (d.upCsq n f).slots = d.slots ∧ (d.upCsq n f).acqs = d.acqs ∧
    (d.upCsq n f).ports = d.ports ∧ (d.upCsq n f).lanesRn = d.lanesRn ∧ (d.upCsq n f).tw = d.tw ∧
    (d.upCsq n f).rings = d.rings ∧ (d.upCsq n f).ringEng = d.ringEng ∧ (d.upCsq n f).vectors = d.vectors ∧
    (d.upCsq n f).plls = d.plls ∧ (d.upCsq n f).kl = d.kl ∧ (d.upCsq n f).tl = d.tl ∧ (d.upCsq n f).fc = d.fc ∧
    (d.upCsq n f).gd = d.gd ∧ (d.upCsq n f).evOut = d.evOut ∧ (d.upCsq n f).booting = d.booting ∧ (d.upCsq n f).pec = d.pec ∧
    (d.upCsq n f).cal = d.cal ∧ (d.upCsq n f).windows = d.windows ∧ (d.upCsq n f).br = d.br ∧
    (d.upCsq n f).tracker = d.tracker ∧ (d.upCsq n f).nextId = d.nextId := by
  refine ⟨rfl, rfl, rfl, rfl, rfl, rfl, rfl, rfl, rfl, rfl, rfl, rfl, rfl, rfl, rfl, rfl, rfl, rfl, rfl, rfl, rfl, rfl, rfl, rfl, rfl, rfl, rfl, rfl, rfl, rfl, rfl, rfl, rfl, rfl, rfl, rfl, rfl, rfl, rfl, rfl, rfl, rfl, rfl, rfl, rfl, rfl, rfl, rfl, rfl⟩

@[simp] theorem Dev.upCsq_reads (d : Dev) (n : Nat) (f : Csq → Csq) :
    (∀ f' i', (d.upCsq n f).rd f' i' = d.rd f' i') ∧ (∀ f' i', (d.upCsq n f).act f' i' = d.act f' i') ∧
    (∀ f' i', (d.upCsq n f).on f' i' = d.on f' i') ∧ (∀ k, (d.upCsq n f).site k = d.site k) ∧
    (∀ k, (d.upCsq n f).lane k = d.lane k) ∧ (∀ k, (d.upCsq n f).pin k = d.pin k) ∧
    (∀ k, (d.upCsq n f).failSite k = d.failSite k) ∧ (∀ k, (d.upCsq n f).pc k = d.pc k) ∧
    (∀ k, (d.upCsq n f).pll k = d.pll k) ∧ (∀ k, (d.upCsq n f).wave k = d.wave k) ∧ (∀ k, (d.upCsq n f).slot k = d.slot k) ∧
    (∀ k, (d.upCsq n f).acq k = d.acq k) ∧ (∀ k, (d.upCsq n f).port k = d.port k) ∧
    (∀ k, (d.upCsq n f).rnLane k = d.rnLane k) ∧ (∀ k, (d.upCsq n f).ring k = d.ring k) ∧
    (∀ k, (d.upCsq n f).vec k = d.vec k) ∧ (∀ k k', (d.upCsq n f).calUnit k k' = d.calUnit k k') ∧
    (d.upCsq n f).bed = d.bed ∧ (d.upCsq n f).cycle = d.cycle ∧ (d.upCsq n f).cycNow = d.cycNow ∧
    (∀ f' i', (d.upCsq n f).justSet f' i' = d.justSet f' i') := by
  refine ⟨fun _ _ => rfl, fun _ _ => rfl, fun _ _ => rfl, fun _ => rfl, fun _ => rfl, fun _ => rfl, fun _ => rfl, fun _ => rfl, fun _ => rfl, fun _ => rfl, fun _ => rfl, fun _ => rfl, fun _ => rfl, fun _ => rfl, fun _ => rfl, fun _ => rfl, fun _ _ => rfl, rfl, rfl, rfl, fun _ _ => rfl⟩

@[simp] theorem Dev.upFailSite_frame (d : Dev) (n : Nat) (f : FailSite → FailSite) :
    (d.upFailSite n f).now = d.now ∧ (d.upFailSite n f).bedOff = d.bedOff ∧ (d.upFailSite n f).free = d.free ∧
    (d.upFailSite n f).regs = d.regs ∧ (d.upFailSite n f).active = d.active ∧ (d.upFailSite n f).latch = d.latch ∧
    (d.upFailSite n f).cyc = d.cyc ∧ (d.upFailSite n f).readData = d.readData ∧ (d.upFailSite n f).poisoned = d.poisoned ∧
    (d.upFailSite n f).raised = d.raised ∧ (d.upFailSite n f).journal = d.journal ∧ (d.upFailSite n f).sites = d.sites ∧
    (d.upFailSite n f).lanes = d.lanes ∧ (d.upFailSite n f).pins = d.pins ∧ (d.upFailSite n f).cs = d.cs ∧
    (d.upFailSite n f).csqs = d.csqs ∧ (d.upFailSite n f).failQ = d.failQ ∧ (d.upFailSite n f).capQ = d.capQ ∧
    (d.upFailSite n f).capNo = d.capNo ∧ (d.upFailSite n f).sigNo = d.sigNo ∧ (d.upFailSite n f).signals = d.signals ∧
    (d.upFailSite n f).trigAt = d.trigAt ∧ (d.upFailSite n f).evLevel = d.evLevel ∧ (d.upFailSite n f).pcs = d.pcs ∧
    (d.upFailSite n f).mc = d.mc ∧ (d.upFailSite n f).tmu = d.tmu ∧ (d.upFailSite n f).waves = d.waves ∧
    (d.upFailSite n f).sampleAt = d.sampleAt ∧ (d.upFailSite n f).slots = d.slots ∧ (d.upFailSite n f).acqs = d.acqs ∧
    (d.upFailSite n f).ports = d.ports ∧ (d.upFailSite n f).lanesRn = d.lanesRn ∧ (d.upFailSite n f).tw = d.tw ∧
    (d.upFailSite n f).rings = d.rings ∧ (d.upFailSite n f).ringEng = d.ringEng ∧ (d.upFailSite n f).vectors = d.vectors ∧
    (d.upFailSite n f).plls = d.plls ∧ (d.upFailSite n f).kl = d.kl ∧ (d.upFailSite n f).tl = d.tl ∧
    (d.upFailSite n f).fc = d.fc ∧ (d.upFailSite n f).gd = d.gd ∧ (d.upFailSite n f).evOut = d.evOut ∧
    (d.upFailSite n f).booting = d.booting ∧ (d.upFailSite n f).pec = d.pec ∧ (d.upFailSite n f).cal = d.cal ∧
    (d.upFailSite n f).windows = d.windows ∧ (d.upFailSite n f).br = d.br ∧ (d.upFailSite n f).tracker = d.tracker ∧
    (d.upFailSite n f).nextId = d.nextId := by
  refine ⟨rfl, rfl, rfl, rfl, rfl, rfl, rfl, rfl, rfl, rfl, rfl, rfl, rfl, rfl, rfl, rfl, rfl, rfl, rfl, rfl, rfl, rfl, rfl, rfl, rfl, rfl, rfl, rfl, rfl, rfl, rfl, rfl, rfl, rfl, rfl, rfl, rfl, rfl, rfl, rfl, rfl, rfl, rfl, rfl, rfl, rfl, rfl, rfl, rfl⟩

@[simp] theorem Dev.upFailSite_reads (d : Dev) (n : Nat) (f : FailSite → FailSite) :
    (∀ f' i', (d.upFailSite n f).rd f' i' = d.rd f' i') ∧ (∀ f' i', (d.upFailSite n f).act f' i' = d.act f' i') ∧
    (∀ f' i', (d.upFailSite n f).on f' i' = d.on f' i') ∧ (∀ k, (d.upFailSite n f).site k = d.site k) ∧
    (∀ k, (d.upFailSite n f).lane k = d.lane k) ∧ (∀ k, (d.upFailSite n f).pin k = d.pin k) ∧
    (∀ k, (d.upFailSite n f).csq k = d.csq k) ∧ (∀ k, (d.upFailSite n f).pc k = d.pc k) ∧
    (∀ k, (d.upFailSite n f).pll k = d.pll k) ∧ (∀ k, (d.upFailSite n f).wave k = d.wave k) ∧
    (∀ k, (d.upFailSite n f).slot k = d.slot k) ∧ (∀ k, (d.upFailSite n f).acq k = d.acq k) ∧
    (∀ k, (d.upFailSite n f).port k = d.port k) ∧ (∀ k, (d.upFailSite n f).rnLane k = d.rnLane k) ∧
    (∀ k, (d.upFailSite n f).ring k = d.ring k) ∧ (∀ k, (d.upFailSite n f).vec k = d.vec k) ∧
    (∀ k k', (d.upFailSite n f).calUnit k k' = d.calUnit k k') ∧ (d.upFailSite n f).bed = d.bed ∧
    (d.upFailSite n f).cycle = d.cycle ∧ (d.upFailSite n f).cycNow = d.cycNow ∧
    (∀ f' i', (d.upFailSite n f).justSet f' i' = d.justSet f' i') := by
  refine ⟨fun _ _ => rfl, fun _ _ => rfl, fun _ _ => rfl, fun _ => rfl, fun _ => rfl, fun _ => rfl, fun _ => rfl, fun _ => rfl, fun _ => rfl, fun _ => rfl, fun _ => rfl, fun _ => rfl, fun _ => rfl, fun _ => rfl, fun _ => rfl, fun _ => rfl, fun _ _ => rfl, rfl, rfl, rfl, fun _ _ => rfl⟩

@[simp] theorem Dev.upPc_frame (d : Dev) (n : Nat) (f : Pc → Pc) :
    (d.upPc n f).now = d.now ∧ (d.upPc n f).bedOff = d.bedOff ∧ (d.upPc n f).free = d.free ∧ (d.upPc n f).regs = d.regs ∧
    (d.upPc n f).active = d.active ∧ (d.upPc n f).latch = d.latch ∧ (d.upPc n f).cyc = d.cyc ∧
    (d.upPc n f).readData = d.readData ∧ (d.upPc n f).poisoned = d.poisoned ∧ (d.upPc n f).raised = d.raised ∧
    (d.upPc n f).journal = d.journal ∧ (d.upPc n f).sites = d.sites ∧ (d.upPc n f).lanes = d.lanes ∧
    (d.upPc n f).pins = d.pins ∧ (d.upPc n f).cs = d.cs ∧ (d.upPc n f).csqs = d.csqs ∧ (d.upPc n f).failQ = d.failQ ∧
    (d.upPc n f).capQ = d.capQ ∧ (d.upPc n f).failSites = d.failSites ∧ (d.upPc n f).capNo = d.capNo ∧
    (d.upPc n f).sigNo = d.sigNo ∧ (d.upPc n f).signals = d.signals ∧ (d.upPc n f).trigAt = d.trigAt ∧
    (d.upPc n f).evLevel = d.evLevel ∧ (d.upPc n f).mc = d.mc ∧ (d.upPc n f).tmu = d.tmu ∧ (d.upPc n f).waves = d.waves ∧
    (d.upPc n f).sampleAt = d.sampleAt ∧ (d.upPc n f).slots = d.slots ∧ (d.upPc n f).acqs = d.acqs ∧
    (d.upPc n f).ports = d.ports ∧ (d.upPc n f).lanesRn = d.lanesRn ∧ (d.upPc n f).tw = d.tw ∧ (d.upPc n f).rings = d.rings ∧
    (d.upPc n f).ringEng = d.ringEng ∧ (d.upPc n f).vectors = d.vectors ∧ (d.upPc n f).plls = d.plls ∧
    (d.upPc n f).kl = d.kl ∧ (d.upPc n f).tl = d.tl ∧ (d.upPc n f).fc = d.fc ∧ (d.upPc n f).gd = d.gd ∧
    (d.upPc n f).evOut = d.evOut ∧ (d.upPc n f).booting = d.booting ∧ (d.upPc n f).pec = d.pec ∧ (d.upPc n f).cal = d.cal ∧
    (d.upPc n f).windows = d.windows ∧ (d.upPc n f).br = d.br ∧ (d.upPc n f).tracker = d.tracker ∧
    (d.upPc n f).nextId = d.nextId := by
  refine ⟨rfl, rfl, rfl, rfl, rfl, rfl, rfl, rfl, rfl, rfl, rfl, rfl, rfl, rfl, rfl, rfl, rfl, rfl, rfl, rfl, rfl, rfl, rfl, rfl, rfl, rfl, rfl, rfl, rfl, rfl, rfl, rfl, rfl, rfl, rfl, rfl, rfl, rfl, rfl, rfl, rfl, rfl, rfl, rfl, rfl, rfl, rfl, rfl, rfl⟩

@[simp] theorem Dev.upPc_reads (d : Dev) (n : Nat) (f : Pc → Pc) :
    (∀ f' i', (d.upPc n f).rd f' i' = d.rd f' i') ∧ (∀ f' i', (d.upPc n f).act f' i' = d.act f' i') ∧
    (∀ f' i', (d.upPc n f).on f' i' = d.on f' i') ∧ (∀ k, (d.upPc n f).site k = d.site k) ∧
    (∀ k, (d.upPc n f).lane k = d.lane k) ∧ (∀ k, (d.upPc n f).pin k = d.pin k) ∧ (∀ k, (d.upPc n f).csq k = d.csq k) ∧
    (∀ k, (d.upPc n f).failSite k = d.failSite k) ∧ (∀ k, (d.upPc n f).pll k = d.pll k) ∧
    (∀ k, (d.upPc n f).wave k = d.wave k) ∧ (∀ k, (d.upPc n f).slot k = d.slot k) ∧ (∀ k, (d.upPc n f).acq k = d.acq k) ∧
    (∀ k, (d.upPc n f).port k = d.port k) ∧ (∀ k, (d.upPc n f).rnLane k = d.rnLane k) ∧
    (∀ k, (d.upPc n f).ring k = d.ring k) ∧ (∀ k, (d.upPc n f).vec k = d.vec k) ∧
    (∀ k k', (d.upPc n f).calUnit k k' = d.calUnit k k') ∧ (d.upPc n f).bed = d.bed ∧ (d.upPc n f).cycle = d.cycle ∧
    (d.upPc n f).cycNow = d.cycNow ∧ (∀ f' i', (d.upPc n f).justSet f' i' = d.justSet f' i') := by
  refine ⟨fun _ _ => rfl, fun _ _ => rfl, fun _ _ => rfl, fun _ => rfl, fun _ => rfl, fun _ => rfl, fun _ => rfl, fun _ => rfl, fun _ => rfl, fun _ => rfl, fun _ => rfl, fun _ => rfl, fun _ => rfl, fun _ => rfl, fun _ => rfl, fun _ => rfl, fun _ _ => rfl, rfl, rfl, rfl, fun _ _ => rfl⟩

@[simp] theorem Dev.upPll_frame (d : Dev) (n : Nat) (f : Pll → Pll) :
    (d.upPll n f).now = d.now ∧ (d.upPll n f).bedOff = d.bedOff ∧ (d.upPll n f).free = d.free ∧ (d.upPll n f).regs = d.regs ∧
    (d.upPll n f).active = d.active ∧ (d.upPll n f).latch = d.latch ∧ (d.upPll n f).cyc = d.cyc ∧
    (d.upPll n f).readData = d.readData ∧ (d.upPll n f).poisoned = d.poisoned ∧ (d.upPll n f).raised = d.raised ∧
    (d.upPll n f).journal = d.journal ∧ (d.upPll n f).sites = d.sites ∧ (d.upPll n f).lanes = d.lanes ∧
    (d.upPll n f).pins = d.pins ∧ (d.upPll n f).cs = d.cs ∧ (d.upPll n f).csqs = d.csqs ∧ (d.upPll n f).failQ = d.failQ ∧
    (d.upPll n f).capQ = d.capQ ∧ (d.upPll n f).failSites = d.failSites ∧ (d.upPll n f).capNo = d.capNo ∧
    (d.upPll n f).sigNo = d.sigNo ∧ (d.upPll n f).signals = d.signals ∧ (d.upPll n f).trigAt = d.trigAt ∧
    (d.upPll n f).evLevel = d.evLevel ∧ (d.upPll n f).pcs = d.pcs ∧ (d.upPll n f).mc = d.mc ∧ (d.upPll n f).tmu = d.tmu ∧
    (d.upPll n f).waves = d.waves ∧ (d.upPll n f).sampleAt = d.sampleAt ∧ (d.upPll n f).slots = d.slots ∧
    (d.upPll n f).acqs = d.acqs ∧ (d.upPll n f).ports = d.ports ∧ (d.upPll n f).lanesRn = d.lanesRn ∧
    (d.upPll n f).tw = d.tw ∧ (d.upPll n f).rings = d.rings ∧ (d.upPll n f).ringEng = d.ringEng ∧
    (d.upPll n f).vectors = d.vectors ∧ (d.upPll n f).kl = d.kl ∧ (d.upPll n f).tl = d.tl ∧ (d.upPll n f).fc = d.fc ∧
    (d.upPll n f).gd = d.gd ∧ (d.upPll n f).evOut = d.evOut ∧ (d.upPll n f).booting = d.booting ∧ (d.upPll n f).pec = d.pec ∧
    (d.upPll n f).cal = d.cal ∧ (d.upPll n f).windows = d.windows ∧ (d.upPll n f).br = d.br ∧
    (d.upPll n f).tracker = d.tracker ∧ (d.upPll n f).nextId = d.nextId := by
  refine ⟨rfl, rfl, rfl, rfl, rfl, rfl, rfl, rfl, rfl, rfl, rfl, rfl, rfl, rfl, rfl, rfl, rfl, rfl, rfl, rfl, rfl, rfl, rfl, rfl, rfl, rfl, rfl, rfl, rfl, rfl, rfl, rfl, rfl, rfl, rfl, rfl, rfl, rfl, rfl, rfl, rfl, rfl, rfl, rfl, rfl, rfl, rfl, rfl, rfl⟩

@[simp] theorem Dev.upPll_reads (d : Dev) (n : Nat) (f : Pll → Pll) :
    (∀ f' i', (d.upPll n f).rd f' i' = d.rd f' i') ∧ (∀ f' i', (d.upPll n f).act f' i' = d.act f' i') ∧
    (∀ f' i', (d.upPll n f).on f' i' = d.on f' i') ∧ (∀ k, (d.upPll n f).site k = d.site k) ∧
    (∀ k, (d.upPll n f).lane k = d.lane k) ∧ (∀ k, (d.upPll n f).pin k = d.pin k) ∧ (∀ k, (d.upPll n f).csq k = d.csq k) ∧
    (∀ k, (d.upPll n f).failSite k = d.failSite k) ∧ (∀ k, (d.upPll n f).pc k = d.pc k) ∧
    (∀ k, (d.upPll n f).wave k = d.wave k) ∧ (∀ k, (d.upPll n f).slot k = d.slot k) ∧ (∀ k, (d.upPll n f).acq k = d.acq k) ∧
    (∀ k, (d.upPll n f).port k = d.port k) ∧ (∀ k, (d.upPll n f).rnLane k = d.rnLane k) ∧
    (∀ k, (d.upPll n f).ring k = d.ring k) ∧ (∀ k, (d.upPll n f).vec k = d.vec k) ∧
    (∀ k k', (d.upPll n f).calUnit k k' = d.calUnit k k') ∧ (d.upPll n f).bed = d.bed ∧ (d.upPll n f).cycle = d.cycle ∧
    (d.upPll n f).cycNow = d.cycNow ∧ (∀ f' i', (d.upPll n f).justSet f' i' = d.justSet f' i') := by
  refine ⟨fun _ _ => rfl, fun _ _ => rfl, fun _ _ => rfl, fun _ => rfl, fun _ => rfl, fun _ => rfl, fun _ => rfl, fun _ => rfl, fun _ => rfl, fun _ => rfl, fun _ => rfl, fun _ => rfl, fun _ => rfl, fun _ => rfl, fun _ => rfl, fun _ => rfl, fun _ _ => rfl, rfl, rfl, rfl, fun _ _ => rfl⟩

@[simp] theorem Dev.upWave_frame (d : Dev) (n : Nat) (f : Wave → Wave) :
    (d.upWave n f).now = d.now ∧ (d.upWave n f).bedOff = d.bedOff ∧ (d.upWave n f).free = d.free ∧
    (d.upWave n f).regs = d.regs ∧ (d.upWave n f).active = d.active ∧ (d.upWave n f).latch = d.latch ∧
    (d.upWave n f).cyc = d.cyc ∧ (d.upWave n f).readData = d.readData ∧ (d.upWave n f).poisoned = d.poisoned ∧
    (d.upWave n f).raised = d.raised ∧ (d.upWave n f).journal = d.journal ∧ (d.upWave n f).sites = d.sites ∧
    (d.upWave n f).lanes = d.lanes ∧ (d.upWave n f).pins = d.pins ∧ (d.upWave n f).cs = d.cs ∧ (d.upWave n f).csqs = d.csqs ∧
    (d.upWave n f).failQ = d.failQ ∧ (d.upWave n f).capQ = d.capQ ∧ (d.upWave n f).failSites = d.failSites ∧
    (d.upWave n f).capNo = d.capNo ∧ (d.upWave n f).sigNo = d.sigNo ∧ (d.upWave n f).signals = d.signals ∧
    (d.upWave n f).trigAt = d.trigAt ∧ (d.upWave n f).evLevel = d.evLevel ∧ (d.upWave n f).pcs = d.pcs ∧
    (d.upWave n f).mc = d.mc ∧ (d.upWave n f).tmu = d.tmu ∧ (d.upWave n f).sampleAt = d.sampleAt ∧
    (d.upWave n f).slots = d.slots ∧ (d.upWave n f).acqs = d.acqs ∧ (d.upWave n f).ports = d.ports ∧
    (d.upWave n f).lanesRn = d.lanesRn ∧ (d.upWave n f).tw = d.tw ∧ (d.upWave n f).rings = d.rings ∧
    (d.upWave n f).ringEng = d.ringEng ∧ (d.upWave n f).vectors = d.vectors ∧ (d.upWave n f).plls = d.plls ∧
    (d.upWave n f).kl = d.kl ∧ (d.upWave n f).tl = d.tl ∧ (d.upWave n f).fc = d.fc ∧ (d.upWave n f).gd = d.gd ∧
    (d.upWave n f).evOut = d.evOut ∧ (d.upWave n f).booting = d.booting ∧ (d.upWave n f).pec = d.pec ∧
    (d.upWave n f).cal = d.cal ∧ (d.upWave n f).windows = d.windows ∧ (d.upWave n f).br = d.br ∧
    (d.upWave n f).tracker = d.tracker ∧ (d.upWave n f).nextId = d.nextId := by
  refine ⟨rfl, rfl, rfl, rfl, rfl, rfl, rfl, rfl, rfl, rfl, rfl, rfl, rfl, rfl, rfl, rfl, rfl, rfl, rfl, rfl, rfl, rfl, rfl, rfl, rfl, rfl, rfl, rfl, rfl, rfl, rfl, rfl, rfl, rfl, rfl, rfl, rfl, rfl, rfl, rfl, rfl, rfl, rfl, rfl, rfl, rfl, rfl, rfl, rfl⟩

@[simp] theorem Dev.upWave_reads (d : Dev) (n : Nat) (f : Wave → Wave) :
    (∀ f' i', (d.upWave n f).rd f' i' = d.rd f' i') ∧ (∀ f' i', (d.upWave n f).act f' i' = d.act f' i') ∧
    (∀ f' i', (d.upWave n f).on f' i' = d.on f' i') ∧ (∀ k, (d.upWave n f).site k = d.site k) ∧
    (∀ k, (d.upWave n f).lane k = d.lane k) ∧ (∀ k, (d.upWave n f).pin k = d.pin k) ∧ (∀ k, (d.upWave n f).csq k = d.csq k) ∧
    (∀ k, (d.upWave n f).failSite k = d.failSite k) ∧ (∀ k, (d.upWave n f).pc k = d.pc k) ∧
    (∀ k, (d.upWave n f).pll k = d.pll k) ∧ (∀ k, (d.upWave n f).slot k = d.slot k) ∧ (∀ k, (d.upWave n f).acq k = d.acq k) ∧
    (∀ k, (d.upWave n f).port k = d.port k) ∧ (∀ k, (d.upWave n f).rnLane k = d.rnLane k) ∧
    (∀ k, (d.upWave n f).ring k = d.ring k) ∧ (∀ k, (d.upWave n f).vec k = d.vec k) ∧
    (∀ k k', (d.upWave n f).calUnit k k' = d.calUnit k k') ∧ (d.upWave n f).bed = d.bed ∧ (d.upWave n f).cycle = d.cycle ∧
    (d.upWave n f).cycNow = d.cycNow ∧ (∀ f' i', (d.upWave n f).justSet f' i' = d.justSet f' i') := by
  refine ⟨fun _ _ => rfl, fun _ _ => rfl, fun _ _ => rfl, fun _ => rfl, fun _ => rfl, fun _ => rfl, fun _ => rfl, fun _ => rfl, fun _ => rfl, fun _ => rfl, fun _ => rfl, fun _ => rfl, fun _ => rfl, fun _ => rfl, fun _ => rfl, fun _ => rfl, fun _ _ => rfl, rfl, rfl, rfl, fun _ _ => rfl⟩

@[simp] theorem Dev.upSlot_frame (d : Dev) (n : Nat) (f : Slot → Slot) :
    (d.upSlot n f).now = d.now ∧ (d.upSlot n f).bedOff = d.bedOff ∧ (d.upSlot n f).free = d.free ∧
    (d.upSlot n f).regs = d.regs ∧ (d.upSlot n f).active = d.active ∧ (d.upSlot n f).latch = d.latch ∧
    (d.upSlot n f).cyc = d.cyc ∧ (d.upSlot n f).readData = d.readData ∧ (d.upSlot n f).poisoned = d.poisoned ∧
    (d.upSlot n f).raised = d.raised ∧ (d.upSlot n f).journal = d.journal ∧ (d.upSlot n f).sites = d.sites ∧
    (d.upSlot n f).lanes = d.lanes ∧ (d.upSlot n f).pins = d.pins ∧ (d.upSlot n f).cs = d.cs ∧ (d.upSlot n f).csqs = d.csqs ∧
    (d.upSlot n f).failQ = d.failQ ∧ (d.upSlot n f).capQ = d.capQ ∧ (d.upSlot n f).failSites = d.failSites ∧
    (d.upSlot n f).capNo = d.capNo ∧ (d.upSlot n f).sigNo = d.sigNo ∧ (d.upSlot n f).signals = d.signals ∧
    (d.upSlot n f).trigAt = d.trigAt ∧ (d.upSlot n f).evLevel = d.evLevel ∧ (d.upSlot n f).pcs = d.pcs ∧
    (d.upSlot n f).mc = d.mc ∧ (d.upSlot n f).tmu = d.tmu ∧ (d.upSlot n f).waves = d.waves ∧
    (d.upSlot n f).sampleAt = d.sampleAt ∧ (d.upSlot n f).acqs = d.acqs ∧ (d.upSlot n f).ports = d.ports ∧
    (d.upSlot n f).lanesRn = d.lanesRn ∧ (d.upSlot n f).tw = d.tw ∧ (d.upSlot n f).rings = d.rings ∧
    (d.upSlot n f).ringEng = d.ringEng ∧ (d.upSlot n f).vectors = d.vectors ∧ (d.upSlot n f).plls = d.plls ∧
    (d.upSlot n f).kl = d.kl ∧ (d.upSlot n f).tl = d.tl ∧ (d.upSlot n f).fc = d.fc ∧ (d.upSlot n f).gd = d.gd ∧
    (d.upSlot n f).evOut = d.evOut ∧ (d.upSlot n f).booting = d.booting ∧ (d.upSlot n f).pec = d.pec ∧
    (d.upSlot n f).cal = d.cal ∧ (d.upSlot n f).windows = d.windows ∧ (d.upSlot n f).br = d.br ∧
    (d.upSlot n f).tracker = d.tracker ∧ (d.upSlot n f).nextId = d.nextId := by
  refine ⟨rfl, rfl, rfl, rfl, rfl, rfl, rfl, rfl, rfl, rfl, rfl, rfl, rfl, rfl, rfl, rfl, rfl, rfl, rfl, rfl, rfl, rfl, rfl, rfl, rfl, rfl, rfl, rfl, rfl, rfl, rfl, rfl, rfl, rfl, rfl, rfl, rfl, rfl, rfl, rfl, rfl, rfl, rfl, rfl, rfl, rfl, rfl, rfl, rfl⟩

@[simp] theorem Dev.upSlot_reads (d : Dev) (n : Nat) (f : Slot → Slot) :
    (∀ f' i', (d.upSlot n f).rd f' i' = d.rd f' i') ∧ (∀ f' i', (d.upSlot n f).act f' i' = d.act f' i') ∧
    (∀ f' i', (d.upSlot n f).on f' i' = d.on f' i') ∧ (∀ k, (d.upSlot n f).site k = d.site k) ∧
    (∀ k, (d.upSlot n f).lane k = d.lane k) ∧ (∀ k, (d.upSlot n f).pin k = d.pin k) ∧ (∀ k, (d.upSlot n f).csq k = d.csq k) ∧
    (∀ k, (d.upSlot n f).failSite k = d.failSite k) ∧ (∀ k, (d.upSlot n f).pc k = d.pc k) ∧
    (∀ k, (d.upSlot n f).pll k = d.pll k) ∧ (∀ k, (d.upSlot n f).wave k = d.wave k) ∧ (∀ k, (d.upSlot n f).acq k = d.acq k) ∧
    (∀ k, (d.upSlot n f).port k = d.port k) ∧ (∀ k, (d.upSlot n f).rnLane k = d.rnLane k) ∧
    (∀ k, (d.upSlot n f).ring k = d.ring k) ∧ (∀ k, (d.upSlot n f).vec k = d.vec k) ∧
    (∀ k k', (d.upSlot n f).calUnit k k' = d.calUnit k k') ∧ (d.upSlot n f).bed = d.bed ∧ (d.upSlot n f).cycle = d.cycle ∧
    (d.upSlot n f).cycNow = d.cycNow ∧ (∀ f' i', (d.upSlot n f).justSet f' i' = d.justSet f' i') := by
  refine ⟨fun _ _ => rfl, fun _ _ => rfl, fun _ _ => rfl, fun _ => rfl, fun _ => rfl, fun _ => rfl, fun _ => rfl, fun _ => rfl, fun _ => rfl, fun _ => rfl, fun _ => rfl, fun _ => rfl, fun _ => rfl, fun _ => rfl, fun _ => rfl, fun _ => rfl, fun _ _ => rfl, rfl, rfl, rfl, fun _ _ => rfl⟩

@[simp] theorem Dev.setAcq_frame (d : Dev) (n : Nat) (a : Option Acq) :
    (d.setAcq n a).now = d.now ∧ (d.setAcq n a).bedOff = d.bedOff ∧ (d.setAcq n a).free = d.free ∧
    (d.setAcq n a).regs = d.regs ∧ (d.setAcq n a).active = d.active ∧ (d.setAcq n a).latch = d.latch ∧
    (d.setAcq n a).cyc = d.cyc ∧ (d.setAcq n a).readData = d.readData ∧ (d.setAcq n a).poisoned = d.poisoned ∧
    (d.setAcq n a).raised = d.raised ∧ (d.setAcq n a).journal = d.journal ∧ (d.setAcq n a).sites = d.sites ∧
    (d.setAcq n a).lanes = d.lanes ∧ (d.setAcq n a).pins = d.pins ∧ (d.setAcq n a).cs = d.cs ∧ (d.setAcq n a).csqs = d.csqs ∧
    (d.setAcq n a).failQ = d.failQ ∧ (d.setAcq n a).capQ = d.capQ ∧ (d.setAcq n a).failSites = d.failSites ∧
    (d.setAcq n a).capNo = d.capNo ∧ (d.setAcq n a).sigNo = d.sigNo ∧ (d.setAcq n a).signals = d.signals ∧
    (d.setAcq n a).trigAt = d.trigAt ∧ (d.setAcq n a).evLevel = d.evLevel ∧ (d.setAcq n a).pcs = d.pcs ∧
    (d.setAcq n a).mc = d.mc ∧ (d.setAcq n a).tmu = d.tmu ∧ (d.setAcq n a).waves = d.waves ∧
    (d.setAcq n a).sampleAt = d.sampleAt ∧ (d.setAcq n a).slots = d.slots ∧ (d.setAcq n a).ports = d.ports ∧
    (d.setAcq n a).lanesRn = d.lanesRn ∧ (d.setAcq n a).tw = d.tw ∧ (d.setAcq n a).rings = d.rings ∧
    (d.setAcq n a).ringEng = d.ringEng ∧ (d.setAcq n a).vectors = d.vectors ∧ (d.setAcq n a).plls = d.plls ∧
    (d.setAcq n a).kl = d.kl ∧ (d.setAcq n a).tl = d.tl ∧ (d.setAcq n a).fc = d.fc ∧ (d.setAcq n a).gd = d.gd ∧
    (d.setAcq n a).evOut = d.evOut ∧ (d.setAcq n a).booting = d.booting ∧ (d.setAcq n a).pec = d.pec ∧
    (d.setAcq n a).cal = d.cal ∧ (d.setAcq n a).windows = d.windows ∧ (d.setAcq n a).br = d.br ∧
    (d.setAcq n a).tracker = d.tracker ∧ (d.setAcq n a).nextId = d.nextId := by
  refine ⟨rfl, rfl, rfl, rfl, rfl, rfl, rfl, rfl, rfl, rfl, rfl, rfl, rfl, rfl, rfl, rfl, rfl, rfl, rfl, rfl, rfl, rfl, rfl, rfl, rfl, rfl, rfl, rfl, rfl, rfl, rfl, rfl, rfl, rfl, rfl, rfl, rfl, rfl, rfl, rfl, rfl, rfl, rfl, rfl, rfl, rfl, rfl, rfl, rfl⟩

@[simp] theorem Dev.setAcq_reads (d : Dev) (n : Nat) (a : Option Acq) :
    (∀ f' i', (d.setAcq n a).rd f' i' = d.rd f' i') ∧ (∀ f' i', (d.setAcq n a).act f' i' = d.act f' i') ∧
    (∀ f' i', (d.setAcq n a).on f' i' = d.on f' i') ∧ (∀ k, (d.setAcq n a).site k = d.site k) ∧
    (∀ k, (d.setAcq n a).lane k = d.lane k) ∧ (∀ k, (d.setAcq n a).pin k = d.pin k) ∧ (∀ k, (d.setAcq n a).csq k = d.csq k) ∧
    (∀ k, (d.setAcq n a).failSite k = d.failSite k) ∧ (∀ k, (d.setAcq n a).pc k = d.pc k) ∧
    (∀ k, (d.setAcq n a).pll k = d.pll k) ∧ (∀ k, (d.setAcq n a).wave k = d.wave k) ∧
    (∀ k, (d.setAcq n a).slot k = d.slot k) ∧ (∀ k, (d.setAcq n a).port k = d.port k) ∧
    (∀ k, (d.setAcq n a).rnLane k = d.rnLane k) ∧ (∀ k, (d.setAcq n a).ring k = d.ring k) ∧
    (∀ k, (d.setAcq n a).vec k = d.vec k) ∧ (∀ k k', (d.setAcq n a).calUnit k k' = d.calUnit k k') ∧
    (d.setAcq n a).bed = d.bed ∧ (d.setAcq n a).cycle = d.cycle ∧ (d.setAcq n a).cycNow = d.cycNow ∧
    (∀ f' i', (d.setAcq n a).justSet f' i' = d.justSet f' i') := by
  refine ⟨fun _ _ => rfl, fun _ _ => rfl, fun _ _ => rfl, fun _ => rfl, fun _ => rfl, fun _ => rfl, fun _ => rfl, fun _ => rfl, fun _ => rfl, fun _ => rfl, fun _ => rfl, fun _ => rfl, fun _ => rfl, fun _ => rfl, fun _ => rfl, fun _ => rfl, fun _ _ => rfl, rfl, rfl, rfl, fun _ _ => rfl⟩

@[simp] theorem Dev.upPort_frame (d : Dev) (n : Nat) (f : RnPort → RnPort) :
    (d.upPort n f).now = d.now ∧ (d.upPort n f).bedOff = d.bedOff ∧ (d.upPort n f).free = d.free ∧
    (d.upPort n f).regs = d.regs ∧ (d.upPort n f).active = d.active ∧ (d.upPort n f).latch = d.latch ∧
    (d.upPort n f).cyc = d.cyc ∧ (d.upPort n f).readData = d.readData ∧ (d.upPort n f).poisoned = d.poisoned ∧
    (d.upPort n f).raised = d.raised ∧ (d.upPort n f).journal = d.journal ∧ (d.upPort n f).sites = d.sites ∧
    (d.upPort n f).lanes = d.lanes ∧ (d.upPort n f).pins = d.pins ∧ (d.upPort n f).cs = d.cs ∧ (d.upPort n f).csqs = d.csqs ∧
    (d.upPort n f).failQ = d.failQ ∧ (d.upPort n f).capQ = d.capQ ∧ (d.upPort n f).failSites = d.failSites ∧
    (d.upPort n f).capNo = d.capNo ∧ (d.upPort n f).sigNo = d.sigNo ∧ (d.upPort n f).signals = d.signals ∧
    (d.upPort n f).trigAt = d.trigAt ∧ (d.upPort n f).evLevel = d.evLevel ∧ (d.upPort n f).pcs = d.pcs ∧
    (d.upPort n f).mc = d.mc ∧ (d.upPort n f).tmu = d.tmu ∧ (d.upPort n f).waves = d.waves ∧
    (d.upPort n f).sampleAt = d.sampleAt ∧ (d.upPort n f).slots = d.slots ∧ (d.upPort n f).acqs = d.acqs ∧
    (d.upPort n f).lanesRn = d.lanesRn ∧ (d.upPort n f).tw = d.tw ∧ (d.upPort n f).rings = d.rings ∧
    (d.upPort n f).ringEng = d.ringEng ∧ (d.upPort n f).vectors = d.vectors ∧ (d.upPort n f).plls = d.plls ∧
    (d.upPort n f).kl = d.kl ∧ (d.upPort n f).tl = d.tl ∧ (d.upPort n f).fc = d.fc ∧ (d.upPort n f).gd = d.gd ∧
    (d.upPort n f).evOut = d.evOut ∧ (d.upPort n f).booting = d.booting ∧ (d.upPort n f).pec = d.pec ∧
    (d.upPort n f).cal = d.cal ∧ (d.upPort n f).windows = d.windows ∧ (d.upPort n f).br = d.br ∧
    (d.upPort n f).tracker = d.tracker ∧ (d.upPort n f).nextId = d.nextId := by
  refine ⟨rfl, rfl, rfl, rfl, rfl, rfl, rfl, rfl, rfl, rfl, rfl, rfl, rfl, rfl, rfl, rfl, rfl, rfl, rfl, rfl, rfl, rfl, rfl, rfl, rfl, rfl, rfl, rfl, rfl, rfl, rfl, rfl, rfl, rfl, rfl, rfl, rfl, rfl, rfl, rfl, rfl, rfl, rfl, rfl, rfl, rfl, rfl, rfl, rfl⟩

@[simp] theorem Dev.upPort_reads (d : Dev) (n : Nat) (f : RnPort → RnPort) :
    (∀ f' i', (d.upPort n f).rd f' i' = d.rd f' i') ∧ (∀ f' i', (d.upPort n f).act f' i' = d.act f' i') ∧
    (∀ f' i', (d.upPort n f).on f' i' = d.on f' i') ∧ (∀ k, (d.upPort n f).site k = d.site k) ∧
    (∀ k, (d.upPort n f).lane k = d.lane k) ∧ (∀ k, (d.upPort n f).pin k = d.pin k) ∧ (∀ k, (d.upPort n f).csq k = d.csq k) ∧
    (∀ k, (d.upPort n f).failSite k = d.failSite k) ∧ (∀ k, (d.upPort n f).pc k = d.pc k) ∧
    (∀ k, (d.upPort n f).pll k = d.pll k) ∧ (∀ k, (d.upPort n f).wave k = d.wave k) ∧
    (∀ k, (d.upPort n f).slot k = d.slot k) ∧ (∀ k, (d.upPort n f).acq k = d.acq k) ∧
    (∀ k, (d.upPort n f).rnLane k = d.rnLane k) ∧ (∀ k, (d.upPort n f).ring k = d.ring k) ∧
    (∀ k, (d.upPort n f).vec k = d.vec k) ∧ (∀ k k', (d.upPort n f).calUnit k k' = d.calUnit k k') ∧
    (d.upPort n f).bed = d.bed ∧ (d.upPort n f).cycle = d.cycle ∧ (d.upPort n f).cycNow = d.cycNow ∧
    (∀ f' i', (d.upPort n f).justSet f' i' = d.justSet f' i') := by
  refine ⟨fun _ _ => rfl, fun _ _ => rfl, fun _ _ => rfl, fun _ => rfl, fun _ => rfl, fun _ => rfl, fun _ => rfl, fun _ => rfl, fun _ => rfl, fun _ => rfl, fun _ => rfl, fun _ => rfl, fun _ => rfl, fun _ => rfl, fun _ => rfl, fun _ => rfl, fun _ _ => rfl, rfl, rfl, rfl, fun _ _ => rfl⟩

@[simp] theorem Dev.upRnLane_frame (d : Dev) (n : Nat) (f : RnLane → RnLane) :
    (d.upRnLane n f).now = d.now ∧ (d.upRnLane n f).bedOff = d.bedOff ∧ (d.upRnLane n f).free = d.free ∧
    (d.upRnLane n f).regs = d.regs ∧ (d.upRnLane n f).active = d.active ∧ (d.upRnLane n f).latch = d.latch ∧
    (d.upRnLane n f).cyc = d.cyc ∧ (d.upRnLane n f).readData = d.readData ∧ (d.upRnLane n f).poisoned = d.poisoned ∧
    (d.upRnLane n f).raised = d.raised ∧ (d.upRnLane n f).journal = d.journal ∧ (d.upRnLane n f).sites = d.sites ∧
    (d.upRnLane n f).lanes = d.lanes ∧ (d.upRnLane n f).pins = d.pins ∧ (d.upRnLane n f).cs = d.cs ∧
    (d.upRnLane n f).csqs = d.csqs ∧ (d.upRnLane n f).failQ = d.failQ ∧ (d.upRnLane n f).capQ = d.capQ ∧
    (d.upRnLane n f).failSites = d.failSites ∧ (d.upRnLane n f).capNo = d.capNo ∧ (d.upRnLane n f).sigNo = d.sigNo ∧
    (d.upRnLane n f).signals = d.signals ∧ (d.upRnLane n f).trigAt = d.trigAt ∧ (d.upRnLane n f).evLevel = d.evLevel ∧
    (d.upRnLane n f).pcs = d.pcs ∧ (d.upRnLane n f).mc = d.mc ∧ (d.upRnLane n f).tmu = d.tmu ∧
    (d.upRnLane n f).waves = d.waves ∧ (d.upRnLane n f).sampleAt = d.sampleAt ∧ (d.upRnLane n f).slots = d.slots ∧
    (d.upRnLane n f).acqs = d.acqs ∧ (d.upRnLane n f).ports = d.ports ∧ (d.upRnLane n f).tw = d.tw ∧
    (d.upRnLane n f).rings = d.rings ∧ (d.upRnLane n f).ringEng = d.ringEng ∧ (d.upRnLane n f).vectors = d.vectors ∧
    (d.upRnLane n f).plls = d.plls ∧ (d.upRnLane n f).kl = d.kl ∧ (d.upRnLane n f).tl = d.tl ∧ (d.upRnLane n f).fc = d.fc ∧
    (d.upRnLane n f).gd = d.gd ∧ (d.upRnLane n f).evOut = d.evOut ∧ (d.upRnLane n f).booting = d.booting ∧
    (d.upRnLane n f).pec = d.pec ∧ (d.upRnLane n f).cal = d.cal ∧ (d.upRnLane n f).windows = d.windows ∧
    (d.upRnLane n f).br = d.br ∧ (d.upRnLane n f).tracker = d.tracker ∧ (d.upRnLane n f).nextId = d.nextId := by
  refine ⟨rfl, rfl, rfl, rfl, rfl, rfl, rfl, rfl, rfl, rfl, rfl, rfl, rfl, rfl, rfl, rfl, rfl, rfl, rfl, rfl, rfl, rfl, rfl, rfl, rfl, rfl, rfl, rfl, rfl, rfl, rfl, rfl, rfl, rfl, rfl, rfl, rfl, rfl, rfl, rfl, rfl, rfl, rfl, rfl, rfl, rfl, rfl, rfl, rfl⟩

@[simp] theorem Dev.upRnLane_reads (d : Dev) (n : Nat) (f : RnLane → RnLane) :
    (∀ f' i', (d.upRnLane n f).rd f' i' = d.rd f' i') ∧ (∀ f' i', (d.upRnLane n f).act f' i' = d.act f' i') ∧
    (∀ f' i', (d.upRnLane n f).on f' i' = d.on f' i') ∧ (∀ k, (d.upRnLane n f).site k = d.site k) ∧
    (∀ k, (d.upRnLane n f).lane k = d.lane k) ∧ (∀ k, (d.upRnLane n f).pin k = d.pin k) ∧
    (∀ k, (d.upRnLane n f).csq k = d.csq k) ∧ (∀ k, (d.upRnLane n f).failSite k = d.failSite k) ∧
    (∀ k, (d.upRnLane n f).pc k = d.pc k) ∧ (∀ k, (d.upRnLane n f).pll k = d.pll k) ∧
    (∀ k, (d.upRnLane n f).wave k = d.wave k) ∧ (∀ k, (d.upRnLane n f).slot k = d.slot k) ∧
    (∀ k, (d.upRnLane n f).acq k = d.acq k) ∧ (∀ k, (d.upRnLane n f).port k = d.port k) ∧
    (∀ k, (d.upRnLane n f).ring k = d.ring k) ∧ (∀ k, (d.upRnLane n f).vec k = d.vec k) ∧
    (∀ k k', (d.upRnLane n f).calUnit k k' = d.calUnit k k') ∧ (d.upRnLane n f).bed = d.bed ∧
    (d.upRnLane n f).cycle = d.cycle ∧ (d.upRnLane n f).cycNow = d.cycNow ∧
    (∀ f' i', (d.upRnLane n f).justSet f' i' = d.justSet f' i') := by
  refine ⟨fun _ _ => rfl, fun _ _ => rfl, fun _ _ => rfl, fun _ => rfl, fun _ => rfl, fun _ => rfl, fun _ => rfl, fun _ => rfl, fun _ => rfl, fun _ => rfl, fun _ => rfl, fun _ => rfl, fun _ => rfl, fun _ => rfl, fun _ => rfl, fun _ => rfl, fun _ _ => rfl, rfl, rfl, rfl, fun _ _ => rfl⟩

@[simp] theorem Dev.upRing_frame (d : Dev) (n : Nat) (f : Ring → Ring) :
    (d.upRing n f).now = d.now ∧ (d.upRing n f).bedOff = d.bedOff ∧ (d.upRing n f).free = d.free ∧
    (d.upRing n f).regs = d.regs ∧ (d.upRing n f).active = d.active ∧ (d.upRing n f).latch = d.latch ∧
    (d.upRing n f).cyc = d.cyc ∧ (d.upRing n f).readData = d.readData ∧ (d.upRing n f).poisoned = d.poisoned ∧
    (d.upRing n f).raised = d.raised ∧ (d.upRing n f).journal = d.journal ∧ (d.upRing n f).sites = d.sites ∧
    (d.upRing n f).lanes = d.lanes ∧ (d.upRing n f).pins = d.pins ∧ (d.upRing n f).cs = d.cs ∧ (d.upRing n f).csqs = d.csqs ∧
    (d.upRing n f).failQ = d.failQ ∧ (d.upRing n f).capQ = d.capQ ∧ (d.upRing n f).failSites = d.failSites ∧
    (d.upRing n f).capNo = d.capNo ∧ (d.upRing n f).sigNo = d.sigNo ∧ (d.upRing n f).signals = d.signals ∧
    (d.upRing n f).trigAt = d.trigAt ∧ (d.upRing n f).evLevel = d.evLevel ∧ (d.upRing n f).pcs = d.pcs ∧
    (d.upRing n f).mc = d.mc ∧ (d.upRing n f).tmu = d.tmu ∧ (d.upRing n f).waves = d.waves ∧
    (d.upRing n f).sampleAt = d.sampleAt ∧ (d.upRing n f).slots = d.slots ∧ (d.upRing n f).acqs = d.acqs ∧
    (d.upRing n f).ports = d.ports ∧ (d.upRing n f).lanesRn = d.lanesRn ∧ (d.upRing n f).tw = d.tw ∧
    (d.upRing n f).ringEng = d.ringEng ∧ (d.upRing n f).vectors = d.vectors ∧ (d.upRing n f).plls = d.plls ∧
    (d.upRing n f).kl = d.kl ∧ (d.upRing n f).tl = d.tl ∧ (d.upRing n f).fc = d.fc ∧ (d.upRing n f).gd = d.gd ∧
    (d.upRing n f).evOut = d.evOut ∧ (d.upRing n f).booting = d.booting ∧ (d.upRing n f).pec = d.pec ∧
    (d.upRing n f).cal = d.cal ∧ (d.upRing n f).windows = d.windows ∧ (d.upRing n f).br = d.br ∧
    (d.upRing n f).tracker = d.tracker ∧ (d.upRing n f).nextId = d.nextId := by
  refine ⟨rfl, rfl, rfl, rfl, rfl, rfl, rfl, rfl, rfl, rfl, rfl, rfl, rfl, rfl, rfl, rfl, rfl, rfl, rfl, rfl, rfl, rfl, rfl, rfl, rfl, rfl, rfl, rfl, rfl, rfl, rfl, rfl, rfl, rfl, rfl, rfl, rfl, rfl, rfl, rfl, rfl, rfl, rfl, rfl, rfl, rfl, rfl, rfl, rfl⟩

@[simp] theorem Dev.upRing_reads (d : Dev) (n : Nat) (f : Ring → Ring) :
    (∀ f' i', (d.upRing n f).rd f' i' = d.rd f' i') ∧ (∀ f' i', (d.upRing n f).act f' i' = d.act f' i') ∧
    (∀ f' i', (d.upRing n f).on f' i' = d.on f' i') ∧ (∀ k, (d.upRing n f).site k = d.site k) ∧
    (∀ k, (d.upRing n f).lane k = d.lane k) ∧ (∀ k, (d.upRing n f).pin k = d.pin k) ∧ (∀ k, (d.upRing n f).csq k = d.csq k) ∧
    (∀ k, (d.upRing n f).failSite k = d.failSite k) ∧ (∀ k, (d.upRing n f).pc k = d.pc k) ∧
    (∀ k, (d.upRing n f).pll k = d.pll k) ∧ (∀ k, (d.upRing n f).wave k = d.wave k) ∧
    (∀ k, (d.upRing n f).slot k = d.slot k) ∧ (∀ k, (d.upRing n f).acq k = d.acq k) ∧
    (∀ k, (d.upRing n f).port k = d.port k) ∧ (∀ k, (d.upRing n f).rnLane k = d.rnLane k) ∧
    (∀ k, (d.upRing n f).vec k = d.vec k) ∧ (∀ k k', (d.upRing n f).calUnit k k' = d.calUnit k k') ∧
    (d.upRing n f).bed = d.bed ∧ (d.upRing n f).cycle = d.cycle ∧ (d.upRing n f).cycNow = d.cycNow ∧
    (∀ f' i', (d.upRing n f).justSet f' i' = d.justSet f' i') := by
  refine ⟨fun _ _ => rfl, fun _ _ => rfl, fun _ _ => rfl, fun _ => rfl, fun _ => rfl, fun _ => rfl, fun _ => rfl, fun _ => rfl, fun _ => rfl, fun _ => rfl, fun _ => rfl, fun _ => rfl, fun _ => rfl, fun _ => rfl, fun _ => rfl, fun _ => rfl, fun _ _ => rfl, rfl, rfl, rfl, fun _ _ => rfl⟩

@[simp] theorem Dev.upVec_frame (d : Dev) (n : Nat) (f : MsiVec → MsiVec) :
    (d.upVec n f).now = d.now ∧ (d.upVec n f).bedOff = d.bedOff ∧ (d.upVec n f).free = d.free ∧ (d.upVec n f).regs = d.regs ∧
    (d.upVec n f).active = d.active ∧ (d.upVec n f).latch = d.latch ∧ (d.upVec n f).cyc = d.cyc ∧
    (d.upVec n f).readData = d.readData ∧ (d.upVec n f).poisoned = d.poisoned ∧ (d.upVec n f).raised = d.raised ∧
    (d.upVec n f).journal = d.journal ∧ (d.upVec n f).sites = d.sites ∧ (d.upVec n f).lanes = d.lanes ∧
    (d.upVec n f).pins = d.pins ∧ (d.upVec n f).cs = d.cs ∧ (d.upVec n f).csqs = d.csqs ∧ (d.upVec n f).failQ = d.failQ ∧
    (d.upVec n f).capQ = d.capQ ∧ (d.upVec n f).failSites = d.failSites ∧ (d.upVec n f).capNo = d.capNo ∧
    (d.upVec n f).sigNo = d.sigNo ∧ (d.upVec n f).signals = d.signals ∧ (d.upVec n f).trigAt = d.trigAt ∧
    (d.upVec n f).evLevel = d.evLevel ∧ (d.upVec n f).pcs = d.pcs ∧ (d.upVec n f).mc = d.mc ∧ (d.upVec n f).tmu = d.tmu ∧
    (d.upVec n f).waves = d.waves ∧ (d.upVec n f).sampleAt = d.sampleAt ∧ (d.upVec n f).slots = d.slots ∧
    (d.upVec n f).acqs = d.acqs ∧ (d.upVec n f).ports = d.ports ∧ (d.upVec n f).lanesRn = d.lanesRn ∧
    (d.upVec n f).tw = d.tw ∧ (d.upVec n f).rings = d.rings ∧ (d.upVec n f).ringEng = d.ringEng ∧
    (d.upVec n f).plls = d.plls ∧ (d.upVec n f).kl = d.kl ∧ (d.upVec n f).tl = d.tl ∧ (d.upVec n f).fc = d.fc ∧
    (d.upVec n f).gd = d.gd ∧ (d.upVec n f).evOut = d.evOut ∧ (d.upVec n f).booting = d.booting ∧ (d.upVec n f).pec = d.pec ∧
    (d.upVec n f).cal = d.cal ∧ (d.upVec n f).windows = d.windows ∧ (d.upVec n f).br = d.br ∧
    (d.upVec n f).tracker = d.tracker ∧ (d.upVec n f).nextId = d.nextId := by
  refine ⟨rfl, rfl, rfl, rfl, rfl, rfl, rfl, rfl, rfl, rfl, rfl, rfl, rfl, rfl, rfl, rfl, rfl, rfl, rfl, rfl, rfl, rfl, rfl, rfl, rfl, rfl, rfl, rfl, rfl, rfl, rfl, rfl, rfl, rfl, rfl, rfl, rfl, rfl, rfl, rfl, rfl, rfl, rfl, rfl, rfl, rfl, rfl, rfl, rfl⟩

@[simp] theorem Dev.upVec_reads (d : Dev) (n : Nat) (f : MsiVec → MsiVec) :
    (∀ f' i', (d.upVec n f).rd f' i' = d.rd f' i') ∧ (∀ f' i', (d.upVec n f).act f' i' = d.act f' i') ∧
    (∀ f' i', (d.upVec n f).on f' i' = d.on f' i') ∧ (∀ k, (d.upVec n f).site k = d.site k) ∧
    (∀ k, (d.upVec n f).lane k = d.lane k) ∧ (∀ k, (d.upVec n f).pin k = d.pin k) ∧ (∀ k, (d.upVec n f).csq k = d.csq k) ∧
    (∀ k, (d.upVec n f).failSite k = d.failSite k) ∧ (∀ k, (d.upVec n f).pc k = d.pc k) ∧
    (∀ k, (d.upVec n f).pll k = d.pll k) ∧ (∀ k, (d.upVec n f).wave k = d.wave k) ∧ (∀ k, (d.upVec n f).slot k = d.slot k) ∧
    (∀ k, (d.upVec n f).acq k = d.acq k) ∧ (∀ k, (d.upVec n f).port k = d.port k) ∧
    (∀ k, (d.upVec n f).rnLane k = d.rnLane k) ∧ (∀ k, (d.upVec n f).ring k = d.ring k) ∧
    (∀ k k', (d.upVec n f).calUnit k k' = d.calUnit k k') ∧ (d.upVec n f).bed = d.bed ∧ (d.upVec n f).cycle = d.cycle ∧
    (d.upVec n f).cycNow = d.cycNow ∧ (∀ f' i', (d.upVec n f).justSet f' i' = d.justSet f' i') := by
  refine ⟨fun _ _ => rfl, fun _ _ => rfl, fun _ _ => rfl, fun _ => rfl, fun _ => rfl, fun _ => rfl, fun _ => rfl, fun _ => rfl, fun _ => rfl, fun _ => rfl, fun _ => rfl, fun _ => rfl, fun _ => rfl, fun _ => rfl, fun _ => rfl, fun _ => rfl, fun _ _ => rfl, rfl, rfl, rfl, fun _ _ => rfl⟩

@[simp] theorem Dev.upCal_frame (d : Dev) (n u : Nat) (f : CalUnit → CalUnit) :
    (d.upCal n u f).now = d.now ∧ (d.upCal n u f).bedOff = d.bedOff ∧ (d.upCal n u f).free = d.free ∧
    (d.upCal n u f).regs = d.regs ∧ (d.upCal n u f).active = d.active ∧ (d.upCal n u f).latch = d.latch ∧
    (d.upCal n u f).cyc = d.cyc ∧ (d.upCal n u f).readData = d.readData ∧ (d.upCal n u f).poisoned = d.poisoned ∧
    (d.upCal n u f).raised = d.raised ∧ (d.upCal n u f).journal = d.journal ∧ (d.upCal n u f).sites = d.sites ∧
    (d.upCal n u f).lanes = d.lanes ∧ (d.upCal n u f).pins = d.pins ∧ (d.upCal n u f).cs = d.cs ∧
    (d.upCal n u f).csqs = d.csqs ∧ (d.upCal n u f).failQ = d.failQ ∧ (d.upCal n u f).capQ = d.capQ ∧
    (d.upCal n u f).failSites = d.failSites ∧ (d.upCal n u f).capNo = d.capNo ∧ (d.upCal n u f).sigNo = d.sigNo ∧
    (d.upCal n u f).signals = d.signals ∧ (d.upCal n u f).trigAt = d.trigAt ∧ (d.upCal n u f).evLevel = d.evLevel ∧
    (d.upCal n u f).pcs = d.pcs ∧ (d.upCal n u f).mc = d.mc ∧ (d.upCal n u f).tmu = d.tmu ∧ (d.upCal n u f).waves = d.waves ∧
    (d.upCal n u f).sampleAt = d.sampleAt ∧ (d.upCal n u f).slots = d.slots ∧ (d.upCal n u f).acqs = d.acqs ∧
    (d.upCal n u f).ports = d.ports ∧ (d.upCal n u f).lanesRn = d.lanesRn ∧ (d.upCal n u f).tw = d.tw ∧
    (d.upCal n u f).rings = d.rings ∧ (d.upCal n u f).ringEng = d.ringEng ∧ (d.upCal n u f).vectors = d.vectors ∧
    (d.upCal n u f).plls = d.plls ∧ (d.upCal n u f).kl = d.kl ∧ (d.upCal n u f).tl = d.tl ∧ (d.upCal n u f).fc = d.fc ∧
    (d.upCal n u f).gd = d.gd ∧ (d.upCal n u f).evOut = d.evOut ∧ (d.upCal n u f).booting = d.booting ∧
    (d.upCal n u f).pec = d.pec ∧ (d.upCal n u f).windows = d.windows ∧ (d.upCal n u f).br = d.br ∧
    (d.upCal n u f).tracker = d.tracker ∧ (d.upCal n u f).nextId = d.nextId := by
  refine ⟨rfl, rfl, rfl, rfl, rfl, rfl, rfl, rfl, rfl, rfl, rfl, rfl, rfl, rfl, rfl, rfl, rfl, rfl, rfl, rfl, rfl, rfl, rfl, rfl, rfl, rfl, rfl, rfl, rfl, rfl, rfl, rfl, rfl, rfl, rfl, rfl, rfl, rfl, rfl, rfl, rfl, rfl, rfl, rfl, rfl, rfl, rfl, rfl, rfl⟩

@[simp] theorem Dev.upCal_reads (d : Dev) (n u : Nat) (f : CalUnit → CalUnit) :
    (∀ f' i', (d.upCal n u f).rd f' i' = d.rd f' i') ∧ (∀ f' i', (d.upCal n u f).act f' i' = d.act f' i') ∧
    (∀ f' i', (d.upCal n u f).on f' i' = d.on f' i') ∧ (∀ k, (d.upCal n u f).site k = d.site k) ∧
    (∀ k, (d.upCal n u f).lane k = d.lane k) ∧ (∀ k, (d.upCal n u f).pin k = d.pin k) ∧
    (∀ k, (d.upCal n u f).csq k = d.csq k) ∧ (∀ k, (d.upCal n u f).failSite k = d.failSite k) ∧
    (∀ k, (d.upCal n u f).pc k = d.pc k) ∧ (∀ k, (d.upCal n u f).pll k = d.pll k) ∧
    (∀ k, (d.upCal n u f).wave k = d.wave k) ∧ (∀ k, (d.upCal n u f).slot k = d.slot k) ∧
    (∀ k, (d.upCal n u f).acq k = d.acq k) ∧ (∀ k, (d.upCal n u f).port k = d.port k) ∧
    (∀ k, (d.upCal n u f).rnLane k = d.rnLane k) ∧ (∀ k, (d.upCal n u f).ring k = d.ring k) ∧
    (∀ k, (d.upCal n u f).vec k = d.vec k) ∧ (d.upCal n u f).bed = d.bed ∧ (d.upCal n u f).cycle = d.cycle ∧
    (d.upCal n u f).cycNow = d.cycNow ∧ (∀ f' i', (d.upCal n u f).justSet f' i' = d.justSet f' i') := by
  refine ⟨fun _ _ => rfl, fun _ _ => rfl, fun _ _ => rfl, fun _ => rfl, fun _ => rfl, fun _ => rfl, fun _ => rfl, fun _ => rfl, fun _ => rfl, fun _ => rfl, fun _ => rfl, fun _ => rfl, fun _ => rfl, fun _ => rfl, fun _ => rfl, fun _ => rfl, fun _ => rfl, rfl, rfl, rfl, fun _ _ => rfl⟩

@[simp] theorem Dev.upKl_frame (d : Dev) (f : Kl → Kl) :
    (d.upKl f).now = d.now ∧ (d.upKl f).bedOff = d.bedOff ∧ (d.upKl f).free = d.free ∧ (d.upKl f).regs = d.regs ∧
    (d.upKl f).active = d.active ∧ (d.upKl f).latch = d.latch ∧ (d.upKl f).cyc = d.cyc ∧ (d.upKl f).readData = d.readData ∧
    (d.upKl f).poisoned = d.poisoned ∧ (d.upKl f).raised = d.raised ∧ (d.upKl f).journal = d.journal ∧
    (d.upKl f).sites = d.sites ∧ (d.upKl f).lanes = d.lanes ∧ (d.upKl f).pins = d.pins ∧ (d.upKl f).cs = d.cs ∧
    (d.upKl f).csqs = d.csqs ∧ (d.upKl f).failQ = d.failQ ∧ (d.upKl f).capQ = d.capQ ∧ (d.upKl f).failSites = d.failSites ∧
    (d.upKl f).capNo = d.capNo ∧ (d.upKl f).sigNo = d.sigNo ∧ (d.upKl f).signals = d.signals ∧ (d.upKl f).trigAt = d.trigAt ∧
    (d.upKl f).evLevel = d.evLevel ∧ (d.upKl f).pcs = d.pcs ∧ (d.upKl f).mc = d.mc ∧ (d.upKl f).tmu = d.tmu ∧
    (d.upKl f).waves = d.waves ∧ (d.upKl f).sampleAt = d.sampleAt ∧ (d.upKl f).slots = d.slots ∧ (d.upKl f).acqs = d.acqs ∧
    (d.upKl f).ports = d.ports ∧ (d.upKl f).lanesRn = d.lanesRn ∧ (d.upKl f).tw = d.tw ∧ (d.upKl f).rings = d.rings ∧
    (d.upKl f).ringEng = d.ringEng ∧ (d.upKl f).vectors = d.vectors ∧ (d.upKl f).plls = d.plls ∧ (d.upKl f).tl = d.tl ∧
    (d.upKl f).fc = d.fc ∧ (d.upKl f).gd = d.gd ∧ (d.upKl f).evOut = d.evOut ∧ (d.upKl f).booting = d.booting ∧
    (d.upKl f).pec = d.pec ∧ (d.upKl f).cal = d.cal ∧ (d.upKl f).windows = d.windows ∧ (d.upKl f).br = d.br ∧
    (d.upKl f).tracker = d.tracker ∧ (d.upKl f).nextId = d.nextId := by
  refine ⟨rfl, rfl, rfl, rfl, rfl, rfl, rfl, rfl, rfl, rfl, rfl, rfl, rfl, rfl, rfl, rfl, rfl, rfl, rfl, rfl, rfl, rfl, rfl, rfl, rfl, rfl, rfl, rfl, rfl, rfl, rfl, rfl, rfl, rfl, rfl, rfl, rfl, rfl, rfl, rfl, rfl, rfl, rfl, rfl, rfl, rfl, rfl, rfl, rfl⟩

@[simp] theorem Dev.upKl_reads (d : Dev) (f : Kl → Kl) :
    (∀ f' i', (d.upKl f).rd f' i' = d.rd f' i') ∧ (∀ f' i', (d.upKl f).act f' i' = d.act f' i') ∧
    (∀ f' i', (d.upKl f).on f' i' = d.on f' i') ∧ (∀ k, (d.upKl f).site k = d.site k) ∧ (∀ k, (d.upKl f).lane k = d.lane k) ∧
    (∀ k, (d.upKl f).pin k = d.pin k) ∧ (∀ k, (d.upKl f).csq k = d.csq k) ∧ (∀ k, (d.upKl f).failSite k = d.failSite k) ∧
    (∀ k, (d.upKl f).pc k = d.pc k) ∧ (∀ k, (d.upKl f).pll k = d.pll k) ∧ (∀ k, (d.upKl f).wave k = d.wave k) ∧
    (∀ k, (d.upKl f).slot k = d.slot k) ∧ (∀ k, (d.upKl f).acq k = d.acq k) ∧ (∀ k, (d.upKl f).port k = d.port k) ∧
    (∀ k, (d.upKl f).rnLane k = d.rnLane k) ∧ (∀ k, (d.upKl f).ring k = d.ring k) ∧ (∀ k, (d.upKl f).vec k = d.vec k) ∧
    (∀ k k', (d.upKl f).calUnit k k' = d.calUnit k k') ∧ (d.upKl f).bed = d.bed ∧ (d.upKl f).cycle = d.cycle ∧
    (d.upKl f).cycNow = d.cycNow ∧ (∀ f' i', (d.upKl f).justSet f' i' = d.justSet f' i') := by
  refine ⟨fun _ _ => rfl, fun _ _ => rfl, fun _ _ => rfl, fun _ => rfl, fun _ => rfl, fun _ => rfl, fun _ => rfl, fun _ => rfl, fun _ => rfl, fun _ => rfl, fun _ => rfl, fun _ => rfl, fun _ => rfl, fun _ => rfl, fun _ => rfl, fun _ => rfl, fun _ => rfl, fun _ _ => rfl, rfl, rfl, rfl, fun _ _ => rfl⟩

@[simp] theorem Dev.raiseK_frame (d : Dev) (s i k : Nat) :
    (d.raiseK s i k).now = d.now ∧ (d.raiseK s i k).bedOff = d.bedOff ∧ (d.raiseK s i k).free = d.free ∧
    (d.raiseK s i k).regs = d.regs ∧ (d.raiseK s i k).active = d.active ∧ (d.raiseK s i k).latch = d.latch ∧
    (d.raiseK s i k).cyc = d.cyc ∧ (d.raiseK s i k).readData = d.readData ∧ (d.raiseK s i k).poisoned = d.poisoned ∧
    (d.raiseK s i k).journal = d.journal ∧ (d.raiseK s i k).sites = d.sites ∧ (d.raiseK s i k).lanes = d.lanes ∧
    (d.raiseK s i k).pins = d.pins ∧ (d.raiseK s i k).cs = d.cs ∧ (d.raiseK s i k).csqs = d.csqs ∧
    (d.raiseK s i k).failQ = d.failQ ∧ (d.raiseK s i k).capQ = d.capQ ∧ (d.raiseK s i k).failSites = d.failSites ∧
    (d.raiseK s i k).capNo = d.capNo ∧ (d.raiseK s i k).sigNo = d.sigNo ∧ (d.raiseK s i k).signals = d.signals ∧
    (d.raiseK s i k).trigAt = d.trigAt ∧ (d.raiseK s i k).evLevel = d.evLevel ∧ (d.raiseK s i k).pcs = d.pcs ∧
    (d.raiseK s i k).mc = d.mc ∧ (d.raiseK s i k).tmu = d.tmu ∧ (d.raiseK s i k).waves = d.waves ∧
    (d.raiseK s i k).sampleAt = d.sampleAt ∧ (d.raiseK s i k).slots = d.slots ∧ (d.raiseK s i k).acqs = d.acqs ∧
    (d.raiseK s i k).ports = d.ports ∧ (d.raiseK s i k).lanesRn = d.lanesRn ∧ (d.raiseK s i k).tw = d.tw ∧
    (d.raiseK s i k).rings = d.rings ∧ (d.raiseK s i k).ringEng = d.ringEng ∧ (d.raiseK s i k).vectors = d.vectors ∧
    (d.raiseK s i k).plls = d.plls ∧ (d.raiseK s i k).kl = d.kl ∧ (d.raiseK s i k).tl = d.tl ∧ (d.raiseK s i k).fc = d.fc ∧
    (d.raiseK s i k).gd = d.gd ∧ (d.raiseK s i k).evOut = d.evOut ∧ (d.raiseK s i k).booting = d.booting ∧
    (d.raiseK s i k).pec = d.pec ∧ (d.raiseK s i k).cal = d.cal ∧ (d.raiseK s i k).windows = d.windows ∧
    (d.raiseK s i k).br = d.br ∧ (d.raiseK s i k).tracker = d.tracker ∧ (d.raiseK s i k).nextId = d.nextId := by
  refine ⟨rfl, rfl, rfl, rfl, rfl, rfl, rfl, rfl, rfl, rfl, rfl, rfl, rfl, rfl, rfl, rfl, rfl, rfl, rfl, rfl, rfl, rfl, rfl, rfl, rfl, rfl, rfl, rfl, rfl, rfl, rfl, rfl, rfl, rfl, rfl, rfl, rfl, rfl, rfl, rfl, rfl, rfl, rfl, rfl, rfl, rfl, rfl, rfl, rfl⟩

@[simp] theorem Dev.raiseK_reads (d : Dev) (s i k : Nat) :
    (∀ f' i', (d.raiseK s i k).rd f' i' = d.rd f' i') ∧ (∀ f' i', (d.raiseK s i k).act f' i' = d.act f' i') ∧
    (∀ f' i', (d.raiseK s i k).on f' i' = d.on f' i') ∧ (∀ k, (d.raiseK s i k).site k = d.site k) ∧
    (∀ k, (d.raiseK s i k).lane k = d.lane k) ∧ (∀ k, (d.raiseK s i k).pin k = d.pin k) ∧
    (∀ k, (d.raiseK s i k).csq k = d.csq k) ∧ (∀ k, (d.raiseK s i k).failSite k = d.failSite k) ∧
    (∀ k, (d.raiseK s i k).pc k = d.pc k) ∧ (∀ k, (d.raiseK s i k).pll k = d.pll k) ∧
    (∀ k, (d.raiseK s i k).wave k = d.wave k) ∧ (∀ k, (d.raiseK s i k).slot k = d.slot k) ∧
    (∀ k, (d.raiseK s i k).acq k = d.acq k) ∧ (∀ k, (d.raiseK s i k).port k = d.port k) ∧
    (∀ k, (d.raiseK s i k).rnLane k = d.rnLane k) ∧ (∀ k, (d.raiseK s i k).ring k = d.ring k) ∧
    (∀ k, (d.raiseK s i k).vec k = d.vec k) ∧ (∀ k k', (d.raiseK s i k).calUnit k k' = d.calUnit k k') ∧
    (d.raiseK s i k).bed = d.bed ∧ (d.raiseK s i k).cycle = d.cycle ∧ (d.raiseK s i k).cycNow = d.cycNow ∧
    (∀ f' i', (d.raiseK s i k).justSet f' i' = d.justSet f' i') := by
  refine ⟨fun _ _ => rfl, fun _ _ => rfl, fun _ _ => rfl, fun _ => rfl, fun _ => rfl, fun _ => rfl, fun _ => rfl, fun _ => rfl, fun _ => rfl, fun _ => rfl, fun _ => rfl, fun _ => rfl, fun _ => rfl, fun _ => rfl, fun _ => rfl, fun _ => rfl, fun _ => rfl, fun _ _ => rfl, rfl, rfl, rfl, fun _ _ => rfl⟩

@[simp] theorem Dev.raise_frame (d : Dev) (s i : Nat) :
    (d.raise s i).now = d.now ∧ (d.raise s i).bedOff = d.bedOff ∧ (d.raise s i).free = d.free ∧ (d.raise s i).regs = d.regs ∧
    (d.raise s i).active = d.active ∧ (d.raise s i).latch = d.latch ∧ (d.raise s i).cyc = d.cyc ∧
    (d.raise s i).readData = d.readData ∧ (d.raise s i).poisoned = d.poisoned ∧ (d.raise s i).journal = d.journal ∧
    (d.raise s i).sites = d.sites ∧ (d.raise s i).lanes = d.lanes ∧ (d.raise s i).pins = d.pins ∧ (d.raise s i).cs = d.cs ∧
    (d.raise s i).csqs = d.csqs ∧ (d.raise s i).failQ = d.failQ ∧ (d.raise s i).capQ = d.capQ ∧
    (d.raise s i).failSites = d.failSites ∧ (d.raise s i).capNo = d.capNo ∧ (d.raise s i).sigNo = d.sigNo ∧
    (d.raise s i).signals = d.signals ∧ (d.raise s i).trigAt = d.trigAt ∧ (d.raise s i).evLevel = d.evLevel ∧
    (d.raise s i).pcs = d.pcs ∧ (d.raise s i).mc = d.mc ∧ (d.raise s i).tmu = d.tmu ∧ (d.raise s i).waves = d.waves ∧
    (d.raise s i).sampleAt = d.sampleAt ∧ (d.raise s i).slots = d.slots ∧ (d.raise s i).acqs = d.acqs ∧
    (d.raise s i).ports = d.ports ∧ (d.raise s i).lanesRn = d.lanesRn ∧ (d.raise s i).tw = d.tw ∧
    (d.raise s i).rings = d.rings ∧ (d.raise s i).ringEng = d.ringEng ∧ (d.raise s i).vectors = d.vectors ∧
    (d.raise s i).plls = d.plls ∧ (d.raise s i).kl = d.kl ∧ (d.raise s i).tl = d.tl ∧ (d.raise s i).fc = d.fc ∧
    (d.raise s i).gd = d.gd ∧ (d.raise s i).evOut = d.evOut ∧ (d.raise s i).booting = d.booting ∧ (d.raise s i).pec = d.pec ∧
    (d.raise s i).cal = d.cal ∧ (d.raise s i).windows = d.windows ∧ (d.raise s i).br = d.br ∧
    (d.raise s i).tracker = d.tracker ∧ (d.raise s i).nextId = d.nextId := by
  refine ⟨rfl, rfl, rfl, rfl, rfl, rfl, rfl, rfl, rfl, rfl, rfl, rfl, rfl, rfl, rfl, rfl, rfl, rfl, rfl, rfl, rfl, rfl, rfl, rfl, rfl, rfl, rfl, rfl, rfl, rfl, rfl, rfl, rfl, rfl, rfl, rfl, rfl, rfl, rfl, rfl, rfl, rfl, rfl, rfl, rfl, rfl, rfl, rfl, rfl⟩

@[simp] theorem Dev.raise_reads (d : Dev) (s i : Nat) :
    (∀ f' i', (d.raise s i).rd f' i' = d.rd f' i') ∧ (∀ f' i', (d.raise s i).act f' i' = d.act f' i') ∧
    (∀ f' i', (d.raise s i).on f' i' = d.on f' i') ∧ (∀ k, (d.raise s i).site k = d.site k) ∧
    (∀ k, (d.raise s i).lane k = d.lane k) ∧ (∀ k, (d.raise s i).pin k = d.pin k) ∧ (∀ k, (d.raise s i).csq k = d.csq k) ∧
    (∀ k, (d.raise s i).failSite k = d.failSite k) ∧ (∀ k, (d.raise s i).pc k = d.pc k) ∧
    (∀ k, (d.raise s i).pll k = d.pll k) ∧ (∀ k, (d.raise s i).wave k = d.wave k) ∧ (∀ k, (d.raise s i).slot k = d.slot k) ∧
    (∀ k, (d.raise s i).acq k = d.acq k) ∧ (∀ k, (d.raise s i).port k = d.port k) ∧
    (∀ k, (d.raise s i).rnLane k = d.rnLane k) ∧ (∀ k, (d.raise s i).ring k = d.ring k) ∧
    (∀ k, (d.raise s i).vec k = d.vec k) ∧ (∀ k k', (d.raise s i).calUnit k k' = d.calUnit k k') ∧
    (d.raise s i).bed = d.bed ∧ (d.raise s i).cycle = d.cycle ∧ (d.raise s i).cycNow = d.cycNow ∧
    (∀ f' i', (d.raise s i).justSet f' i' = d.justSet f' i') := by
  refine ⟨fun _ _ => rfl, fun _ _ => rfl, fun _ _ => rfl, fun _ => rfl, fun _ => rfl, fun _ => rfl, fun _ => rfl, fun _ => rfl, fun _ => rfl, fun _ => rfl, fun _ => rfl, fun _ => rfl, fun _ => rfl, fun _ => rfl, fun _ => rfl, fun _ => rfl, fun _ => rfl, fun _ _ => rfl, rfl, rfl, rfl, fun _ _ => rfl⟩

@[simp] theorem Dev.refusedEvent_frame (d : Dev) (k a : Nat) :
    (d.refusedEvent k a).now = d.now ∧ (d.refusedEvent k a).bedOff = d.bedOff ∧ (d.refusedEvent k a).free = d.free ∧
    (d.refusedEvent k a).regs = d.regs ∧ (d.refusedEvent k a).active = d.active ∧ (d.refusedEvent k a).latch = d.latch ∧
    (d.refusedEvent k a).readData = d.readData ∧ (d.refusedEvent k a).poisoned = d.poisoned ∧
    (d.refusedEvent k a).journal = d.journal ∧ (d.refusedEvent k a).sites = d.sites ∧ (d.refusedEvent k a).lanes = d.lanes ∧
    (d.refusedEvent k a).pins = d.pins ∧ (d.refusedEvent k a).cs = d.cs ∧ (d.refusedEvent k a).csqs = d.csqs ∧
    (d.refusedEvent k a).failQ = d.failQ ∧ (d.refusedEvent k a).capQ = d.capQ ∧
    (d.refusedEvent k a).failSites = d.failSites ∧ (d.refusedEvent k a).capNo = d.capNo ∧
    (d.refusedEvent k a).sigNo = d.sigNo ∧ (d.refusedEvent k a).signals = d.signals ∧
    (d.refusedEvent k a).trigAt = d.trigAt ∧ (d.refusedEvent k a).evLevel = d.evLevel ∧ (d.refusedEvent k a).pcs = d.pcs ∧
    (d.refusedEvent k a).mc = d.mc ∧ (d.refusedEvent k a).tmu = d.tmu ∧ (d.refusedEvent k a).waves = d.waves ∧
    (d.refusedEvent k a).sampleAt = d.sampleAt ∧ (d.refusedEvent k a).slots = d.slots ∧ (d.refusedEvent k a).acqs = d.acqs ∧
    (d.refusedEvent k a).ports = d.ports ∧ (d.refusedEvent k a).lanesRn = d.lanesRn ∧ (d.refusedEvent k a).tw = d.tw ∧
    (d.refusedEvent k a).rings = d.rings ∧ (d.refusedEvent k a).ringEng = d.ringEng ∧
    (d.refusedEvent k a).vectors = d.vectors ∧ (d.refusedEvent k a).plls = d.plls ∧ (d.refusedEvent k a).kl = d.kl ∧
    (d.refusedEvent k a).tl = d.tl ∧ (d.refusedEvent k a).fc = d.fc ∧ (d.refusedEvent k a).gd = d.gd ∧
    (d.refusedEvent k a).evOut = d.evOut ∧ (d.refusedEvent k a).booting = d.booting ∧ (d.refusedEvent k a).pec = d.pec ∧
    (d.refusedEvent k a).cal = d.cal ∧ (d.refusedEvent k a).windows = d.windows ∧ (d.refusedEvent k a).br = d.br ∧
    (d.refusedEvent k a).tracker = d.tracker ∧ (d.refusedEvent k a).nextId = d.nextId := by
  refine ⟨rfl, rfl, rfl, rfl, rfl, rfl, rfl, rfl, rfl, rfl, rfl, rfl, rfl, rfl, rfl, rfl, rfl, rfl, rfl, rfl, rfl, rfl, rfl, rfl, rfl, rfl, rfl, rfl, rfl, rfl, rfl, rfl, rfl, rfl, rfl, rfl, rfl, rfl, rfl, rfl, rfl, rfl, rfl, rfl, rfl, rfl, rfl, rfl⟩

@[simp] theorem Dev.refusedEvent_reads (d : Dev) (k a : Nat) :
    (∀ f' i', (d.refusedEvent k a).rd f' i' = d.rd f' i') ∧ (∀ f' i', (d.refusedEvent k a).act f' i' = d.act f' i') ∧
    (∀ f' i', (d.refusedEvent k a).on f' i' = d.on f' i') ∧ (∀ k, (d.refusedEvent k a).site k = d.site k) ∧
    (∀ k, (d.refusedEvent k a).lane k = d.lane k) ∧ (∀ k, (d.refusedEvent k a).pin k = d.pin k) ∧
    (∀ k, (d.refusedEvent k a).csq k = d.csq k) ∧ (∀ k, (d.refusedEvent k a).failSite k = d.failSite k) ∧
    (∀ k, (d.refusedEvent k a).pc k = d.pc k) ∧ (∀ k, (d.refusedEvent k a).pll k = d.pll k) ∧
    (∀ k, (d.refusedEvent k a).wave k = d.wave k) ∧ (∀ k, (d.refusedEvent k a).slot k = d.slot k) ∧
    (∀ k, (d.refusedEvent k a).acq k = d.acq k) ∧ (∀ k, (d.refusedEvent k a).port k = d.port k) ∧
    (∀ k, (d.refusedEvent k a).rnLane k = d.rnLane k) ∧ (∀ k, (d.refusedEvent k a).ring k = d.ring k) ∧
    (∀ k, (d.refusedEvent k a).vec k = d.vec k) ∧ (∀ k k', (d.refusedEvent k a).calUnit k k' = d.calUnit k k') ∧
    (d.refusedEvent k a).bed = d.bed ∧ (d.refusedEvent k a).cycle = d.cycle := by
  refine ⟨fun _ _ => rfl, fun _ _ => rfl, fun _ _ => rfl, fun _ => rfl, fun _ => rfl, fun _ => rfl, fun _ => rfl, fun _ => rfl, fun _ => rfl, fun _ => rfl, fun _ => rfl, fun _ => rfl, fun _ => rfl, fun _ => rfl, fun _ => rfl, fun _ => rfl, fun _ => rfl, fun _ _ => rfl, rfl, rfl⟩

@[simp] theorem Dev.oweFault_frame (d : Dev) (a b c : Nat) :
    (d.oweFault a b c).now = d.now ∧ (d.oweFault a b c).bedOff = d.bedOff ∧ (d.oweFault a b c).free = d.free ∧
    (d.oweFault a b c).regs = d.regs ∧ (d.oweFault a b c).active = d.active ∧ (d.oweFault a b c).latch = d.latch ∧
    (d.oweFault a b c).cyc = d.cyc ∧ (d.oweFault a b c).readData = d.readData ∧ (d.oweFault a b c).poisoned = d.poisoned ∧
    (d.oweFault a b c).raised = d.raised ∧ (d.oweFault a b c).sites = d.sites ∧ (d.oweFault a b c).lanes = d.lanes ∧
    (d.oweFault a b c).pins = d.pins ∧ (d.oweFault a b c).cs = d.cs ∧ (d.oweFault a b c).csqs = d.csqs ∧
    (d.oweFault a b c).failQ = d.failQ ∧ (d.oweFault a b c).capQ = d.capQ ∧ (d.oweFault a b c).failSites = d.failSites ∧
    (d.oweFault a b c).capNo = d.capNo ∧ (d.oweFault a b c).sigNo = d.sigNo ∧ (d.oweFault a b c).signals = d.signals ∧
    (d.oweFault a b c).trigAt = d.trigAt ∧ (d.oweFault a b c).evLevel = d.evLevel ∧ (d.oweFault a b c).pcs = d.pcs ∧
    (d.oweFault a b c).mc = d.mc ∧ (d.oweFault a b c).tmu = d.tmu ∧ (d.oweFault a b c).waves = d.waves ∧
    (d.oweFault a b c).sampleAt = d.sampleAt ∧ (d.oweFault a b c).slots = d.slots ∧ (d.oweFault a b c).acqs = d.acqs ∧
    (d.oweFault a b c).ports = d.ports ∧ (d.oweFault a b c).lanesRn = d.lanesRn ∧ (d.oweFault a b c).tw = d.tw ∧
    (d.oweFault a b c).rings = d.rings ∧ (d.oweFault a b c).ringEng = d.ringEng ∧ (d.oweFault a b c).vectors = d.vectors ∧
    (d.oweFault a b c).plls = d.plls ∧ (d.oweFault a b c).kl = d.kl ∧ (d.oweFault a b c).tl = d.tl ∧
    (d.oweFault a b c).fc = d.fc ∧ (d.oweFault a b c).gd = d.gd ∧ (d.oweFault a b c).evOut = d.evOut ∧
    (d.oweFault a b c).booting = d.booting ∧ (d.oweFault a b c).pec = d.pec ∧ (d.oweFault a b c).cal = d.cal ∧
    (d.oweFault a b c).windows = d.windows ∧ (d.oweFault a b c).br = d.br ∧ (d.oweFault a b c).tracker = d.tracker ∧
    (d.oweFault a b c).nextId = d.nextId := by
  refine ⟨rfl, rfl, rfl, rfl, rfl, rfl, rfl, rfl, rfl, rfl, rfl, rfl, rfl, rfl, rfl, rfl, rfl, rfl, rfl, rfl, rfl, rfl, rfl, rfl, rfl, rfl, rfl, rfl, rfl, rfl, rfl, rfl, rfl, rfl, rfl, rfl, rfl, rfl, rfl, rfl, rfl, rfl, rfl, rfl, rfl, rfl, rfl, rfl, rfl⟩

@[simp] theorem Dev.oweFault_reads (d : Dev) (a b c : Nat) :
    (∀ f' i', (d.oweFault a b c).rd f' i' = d.rd f' i') ∧ (∀ f' i', (d.oweFault a b c).act f' i' = d.act f' i') ∧
    (∀ f' i', (d.oweFault a b c).on f' i' = d.on f' i') ∧ (∀ k, (d.oweFault a b c).site k = d.site k) ∧
    (∀ k, (d.oweFault a b c).lane k = d.lane k) ∧ (∀ k, (d.oweFault a b c).pin k = d.pin k) ∧
    (∀ k, (d.oweFault a b c).csq k = d.csq k) ∧ (∀ k, (d.oweFault a b c).failSite k = d.failSite k) ∧
    (∀ k, (d.oweFault a b c).pc k = d.pc k) ∧ (∀ k, (d.oweFault a b c).pll k = d.pll k) ∧
    (∀ k, (d.oweFault a b c).wave k = d.wave k) ∧ (∀ k, (d.oweFault a b c).slot k = d.slot k) ∧
    (∀ k, (d.oweFault a b c).acq k = d.acq k) ∧ (∀ k, (d.oweFault a b c).port k = d.port k) ∧
    (∀ k, (d.oweFault a b c).rnLane k = d.rnLane k) ∧ (∀ k, (d.oweFault a b c).ring k = d.ring k) ∧
    (∀ k, (d.oweFault a b c).vec k = d.vec k) ∧ (∀ k k', (d.oweFault a b c).calUnit k k' = d.calUnit k k') ∧
    (d.oweFault a b c).bed = d.bed ∧ (d.oweFault a b c).cycle = d.cycle ∧ (d.oweFault a b c).cycNow = d.cycNow ∧
    (∀ f' i', (d.oweFault a b c).justSet f' i' = d.justSet f' i') := by
  refine ⟨fun _ _ => rfl, fun _ _ => rfl, fun _ _ => rfl, fun _ => rfl, fun _ => rfl, fun _ => rfl, fun _ => rfl, fun _ => rfl, fun _ => rfl, fun _ => rfl, fun _ => rfl, fun _ => rfl, fun _ => rfl, fun _ => rfl, fun _ => rfl, fun _ => rfl, fun _ => rfl, fun _ _ => rfl, rfl, rfl, rfl, fun _ _ => rfl⟩

@[simp] theorem Dev.owe_frame (d : Dev) (a b : Nat) :
    (d.owe a b).now = d.now ∧ (d.owe a b).bedOff = d.bedOff ∧ (d.owe a b).free = d.free ∧ (d.owe a b).regs = d.regs ∧
    (d.owe a b).active = d.active ∧ (d.owe a b).latch = d.latch ∧ (d.owe a b).cyc = d.cyc ∧
    (d.owe a b).readData = d.readData ∧ (d.owe a b).poisoned = d.poisoned ∧ (d.owe a b).raised = d.raised ∧
    (d.owe a b).sites = d.sites ∧ (d.owe a b).lanes = d.lanes ∧ (d.owe a b).pins = d.pins ∧ (d.owe a b).cs = d.cs ∧
    (d.owe a b).csqs = d.csqs ∧ (d.owe a b).failQ = d.failQ ∧ (d.owe a b).capQ = d.capQ ∧
    (d.owe a b).failSites = d.failSites ∧ (d.owe a b).capNo = d.capNo ∧ (d.owe a b).sigNo = d.sigNo ∧
    (d.owe a b).signals = d.signals ∧ (d.owe a b).trigAt = d.trigAt ∧ (d.owe a b).evLevel = d.evLevel ∧
    (d.owe a b).pcs = d.pcs ∧ (d.owe a b).mc = d.mc ∧ (d.owe a b).tmu = d.tmu ∧ (d.owe a b).waves = d.waves ∧
    (d.owe a b).sampleAt = d.sampleAt ∧ (d.owe a b).slots = d.slots ∧ (d.owe a b).acqs = d.acqs ∧
    (d.owe a b).ports = d.ports ∧ (d.owe a b).lanesRn = d.lanesRn ∧ (d.owe a b).tw = d.tw ∧ (d.owe a b).rings = d.rings ∧
    (d.owe a b).ringEng = d.ringEng ∧ (d.owe a b).vectors = d.vectors ∧ (d.owe a b).plls = d.plls ∧ (d.owe a b).kl = d.kl ∧
    (d.owe a b).tl = d.tl ∧ (d.owe a b).fc = d.fc ∧ (d.owe a b).gd = d.gd ∧ (d.owe a b).evOut = d.evOut ∧
    (d.owe a b).booting = d.booting ∧ (d.owe a b).pec = d.pec ∧ (d.owe a b).cal = d.cal ∧ (d.owe a b).windows = d.windows ∧
    (d.owe a b).br = d.br ∧ (d.owe a b).tracker = d.tracker ∧ (d.owe a b).nextId = d.nextId := by
  refine ⟨rfl, rfl, rfl, rfl, rfl, rfl, rfl, rfl, rfl, rfl, rfl, rfl, rfl, rfl, rfl, rfl, rfl, rfl, rfl, rfl, rfl, rfl, rfl, rfl, rfl, rfl, rfl, rfl, rfl, rfl, rfl, rfl, rfl, rfl, rfl, rfl, rfl, rfl, rfl, rfl, rfl, rfl, rfl, rfl, rfl, rfl, rfl, rfl, rfl⟩

@[simp] theorem Dev.owe_reads (d : Dev) (a b : Nat) :
    (∀ f' i', (d.owe a b).rd f' i' = d.rd f' i') ∧ (∀ f' i', (d.owe a b).act f' i' = d.act f' i') ∧
    (∀ f' i', (d.owe a b).on f' i' = d.on f' i') ∧ (∀ k, (d.owe a b).site k = d.site k) ∧
    (∀ k, (d.owe a b).lane k = d.lane k) ∧ (∀ k, (d.owe a b).pin k = d.pin k) ∧ (∀ k, (d.owe a b).csq k = d.csq k) ∧
    (∀ k, (d.owe a b).failSite k = d.failSite k) ∧ (∀ k, (d.owe a b).pc k = d.pc k) ∧ (∀ k, (d.owe a b).pll k = d.pll k) ∧
    (∀ k, (d.owe a b).wave k = d.wave k) ∧ (∀ k, (d.owe a b).slot k = d.slot k) ∧ (∀ k, (d.owe a b).acq k = d.acq k) ∧
    (∀ k, (d.owe a b).port k = d.port k) ∧ (∀ k, (d.owe a b).rnLane k = d.rnLane k) ∧ (∀ k, (d.owe a b).ring k = d.ring k) ∧
    (∀ k, (d.owe a b).vec k = d.vec k) ∧ (∀ k k', (d.owe a b).calUnit k k' = d.calUnit k k') ∧ (d.owe a b).bed = d.bed ∧
    (d.owe a b).cycle = d.cycle ∧ (d.owe a b).cycNow = d.cycNow ∧ (∀ f' i', (d.owe a b).justSet f' i' = d.justSet f' i') := by
  refine ⟨fun _ _ => rfl, fun _ _ => rfl, fun _ _ => rfl, fun _ => rfl, fun _ => rfl, fun _ => rfl, fun _ => rfl, fun _ => rfl, fun _ => rfl, fun _ => rfl, fun _ => rfl, fun _ => rfl, fun _ => rfl, fun _ => rfl, fun _ => rfl, fun _ => rfl, fun _ => rfl, fun _ _ => rfl, rfl, rfl, rfl, fun _ _ => rfl⟩

@[simp] theorem Dev.took_frame (d : Dev) :
    (d.took).now = d.now ∧ (d.took).bedOff = d.bedOff ∧ (d.took).regs = d.regs ∧ (d.took).active = d.active ∧
    (d.took).latch = d.latch ∧ (d.took).cyc = d.cyc ∧ (d.took).readData = d.readData ∧ (d.took).poisoned = d.poisoned ∧
    (d.took).raised = d.raised ∧ (d.took).journal = d.journal ∧ (d.took).sites = d.sites ∧ (d.took).lanes = d.lanes ∧
    (d.took).pins = d.pins ∧ (d.took).cs = d.cs ∧ (d.took).csqs = d.csqs ∧ (d.took).failQ = d.failQ ∧
    (d.took).capQ = d.capQ ∧ (d.took).failSites = d.failSites ∧ (d.took).capNo = d.capNo ∧ (d.took).sigNo = d.sigNo ∧
    (d.took).signals = d.signals ∧ (d.took).trigAt = d.trigAt ∧ (d.took).evLevel = d.evLevel ∧ (d.took).pcs = d.pcs ∧
    (d.took).mc = d.mc ∧ (d.took).tmu = d.tmu ∧ (d.took).waves = d.waves ∧ (d.took).sampleAt = d.sampleAt ∧
    (d.took).slots = d.slots ∧ (d.took).acqs = d.acqs ∧ (d.took).ports = d.ports ∧ (d.took).lanesRn = d.lanesRn ∧
    (d.took).tw = d.tw ∧ (d.took).rings = d.rings ∧ (d.took).ringEng = d.ringEng ∧ (d.took).vectors = d.vectors ∧
    (d.took).plls = d.plls ∧ (d.took).kl = d.kl ∧ (d.took).tl = d.tl ∧ (d.took).fc = d.fc ∧ (d.took).gd = d.gd ∧
    (d.took).evOut = d.evOut ∧ (d.took).booting = d.booting ∧ (d.took).pec = d.pec ∧ (d.took).cal = d.cal ∧
    (d.took).windows = d.windows ∧ (d.took).br = d.br ∧ (d.took).tracker = d.tracker ∧ (d.took).nextId = d.nextId := by
  refine ⟨rfl, rfl, rfl, rfl, rfl, rfl, rfl, rfl, rfl, rfl, rfl, rfl, rfl, rfl, rfl, rfl, rfl, rfl, rfl, rfl, rfl, rfl, rfl, rfl, rfl, rfl, rfl, rfl, rfl, rfl, rfl, rfl, rfl, rfl, rfl, rfl, rfl, rfl, rfl, rfl, rfl, rfl, rfl, rfl, rfl, rfl, rfl, rfl, rfl⟩

@[simp] theorem Dev.took_reads (d : Dev) :
    (∀ f' i', (d.took).rd f' i' = d.rd f' i') ∧ (∀ f' i', (d.took).act f' i' = d.act f' i') ∧
    (∀ f' i', (d.took).on f' i' = d.on f' i') ∧ (∀ k, (d.took).site k = d.site k) ∧ (∀ k, (d.took).lane k = d.lane k) ∧
    (∀ k, (d.took).pin k = d.pin k) ∧ (∀ k, (d.took).csq k = d.csq k) ∧ (∀ k, (d.took).failSite k = d.failSite k) ∧
    (∀ k, (d.took).pc k = d.pc k) ∧ (∀ k, (d.took).pll k = d.pll k) ∧ (∀ k, (d.took).wave k = d.wave k) ∧
    (∀ k, (d.took).slot k = d.slot k) ∧ (∀ k, (d.took).acq k = d.acq k) ∧ (∀ k, (d.took).port k = d.port k) ∧
    (∀ k, (d.took).rnLane k = d.rnLane k) ∧ (∀ k, (d.took).ring k = d.ring k) ∧ (∀ k, (d.took).vec k = d.vec k) ∧
    (∀ k k', (d.took).calUnit k k' = d.calUnit k k') ∧ (d.took).bed = d.bed ∧ (d.took).cycle = d.cycle ∧
    (d.took).cycNow = d.cycNow ∧ (∀ f' i', (d.took).justSet f' i' = d.justSet f' i') := by
  refine ⟨fun _ _ => rfl, fun _ _ => rfl, fun _ _ => rfl, fun _ => rfl, fun _ => rfl, fun _ => rfl, fun _ => rfl, fun _ => rfl, fun _ => rfl, fun _ => rfl, fun _ => rfl, fun _ => rfl, fun _ => rfl, fun _ => rfl, fun _ => rfl, fun _ => rfl, fun _ => rfl, fun _ _ => rfl, rfl, rfl, rfl, fun _ _ => rfl⟩

@[simp] theorem Dev.tick_frame (d : Dev) :
    (d.tick).bedOff = d.bedOff ∧ (d.tick).free = d.free ∧ (d.tick).regs = d.regs ∧ (d.tick).active = d.active ∧
    (d.tick).latch = d.latch ∧ (d.tick).cyc = d.cyc ∧ (d.tick).readData = d.readData ∧ (d.tick).poisoned = d.poisoned ∧
    (d.tick).raised = d.raised ∧ (d.tick).journal = d.journal ∧ (d.tick).sites = d.sites ∧ (d.tick).lanes = d.lanes ∧
    (d.tick).pins = d.pins ∧ (d.tick).cs = d.cs ∧ (d.tick).csqs = d.csqs ∧ (d.tick).failQ = d.failQ ∧
    (d.tick).capQ = d.capQ ∧ (d.tick).failSites = d.failSites ∧ (d.tick).capNo = d.capNo ∧ (d.tick).sigNo = d.sigNo ∧
    (d.tick).signals = d.signals ∧ (d.tick).trigAt = d.trigAt ∧ (d.tick).evLevel = d.evLevel ∧ (d.tick).pcs = d.pcs ∧
    (d.tick).mc = d.mc ∧ (d.tick).tmu = d.tmu ∧ (d.tick).waves = d.waves ∧ (d.tick).sampleAt = d.sampleAt ∧
    (d.tick).slots = d.slots ∧ (d.tick).acqs = d.acqs ∧ (d.tick).ports = d.ports ∧ (d.tick).lanesRn = d.lanesRn ∧
    (d.tick).tw = d.tw ∧ (d.tick).rings = d.rings ∧ (d.tick).ringEng = d.ringEng ∧ (d.tick).vectors = d.vectors ∧
    (d.tick).plls = d.plls ∧ (d.tick).kl = d.kl ∧ (d.tick).tl = d.tl ∧ (d.tick).fc = d.fc ∧ (d.tick).gd = d.gd ∧
    (d.tick).evOut = d.evOut ∧ (d.tick).booting = d.booting ∧ (d.tick).pec = d.pec ∧ (d.tick).cal = d.cal ∧
    (d.tick).windows = d.windows ∧ (d.tick).br = d.br ∧ (d.tick).tracker = d.tracker ∧ (d.tick).nextId = d.nextId := by
  refine ⟨rfl, rfl, rfl, rfl, rfl, rfl, rfl, rfl, rfl, rfl, rfl, rfl, rfl, rfl, rfl, rfl, rfl, rfl, rfl, rfl, rfl, rfl, rfl, rfl, rfl, rfl, rfl, rfl, rfl, rfl, rfl, rfl, rfl, rfl, rfl, rfl, rfl, rfl, rfl, rfl, rfl, rfl, rfl, rfl, rfl, rfl, rfl, rfl, rfl⟩

@[simp] theorem Dev.tick_reads (d : Dev) :
    (∀ f' i', (d.tick).rd f' i' = d.rd f' i') ∧ (∀ f' i', (d.tick).act f' i' = d.act f' i') ∧
    (∀ f' i', (d.tick).on f' i' = d.on f' i') ∧ (∀ k, (d.tick).site k = d.site k) ∧ (∀ k, (d.tick).lane k = d.lane k) ∧
    (∀ k, (d.tick).pin k = d.pin k) ∧ (∀ k, (d.tick).csq k = d.csq k) ∧ (∀ k, (d.tick).failSite k = d.failSite k) ∧
    (∀ k, (d.tick).pc k = d.pc k) ∧ (∀ k, (d.tick).pll k = d.pll k) ∧ (∀ k, (d.tick).wave k = d.wave k) ∧
    (∀ k, (d.tick).slot k = d.slot k) ∧ (∀ k, (d.tick).acq k = d.acq k) ∧ (∀ k, (d.tick).port k = d.port k) ∧
    (∀ k, (d.tick).rnLane k = d.rnLane k) ∧ (∀ k, (d.tick).ring k = d.ring k) ∧ (∀ k, (d.tick).vec k = d.vec k) ∧
    (∀ k k', (d.tick).calUnit k k' = d.calUnit k k') := by
  refine ⟨fun _ _ => rfl, fun _ _ => rfl, fun _ _ => rfl, fun _ => rfl, fun _ => rfl, fun _ => rfl, fun _ => rfl, fun _ => rfl, fun _ => rfl, fun _ => rfl, fun _ => rfl, fun _ => rfl, fun _ => rfl, fun _ => rfl, fun _ => rfl, fun _ => rfl, fun _ => rfl, fun _ _ => rfl⟩

/-! ## What the updated part reads as -/

@[simp] theorem Dev.upSite_site (d : Dev) (n k : Nat) (f : Site → Site) :
    (d.upSite n f).site k = if k = n then f (d.site n) else d.site k := tget_tset _ _ _ _ _

@[simp] theorem Dev.upLane_lane (d : Dev) (n k : Nat) (f : Lane → Lane) :
    (d.upLane n f).lane k = if k = n then f (d.lane n) else d.lane k := tget_tset _ _ _ _ _

@[simp] theorem Dev.upPin_pin (d : Dev) (n k : Nat) (f : Pin → Pin) :
    (d.upPin n f).pin k = if k = n then f (d.pin n) else d.pin k := tget_tset _ _ _ _ _

@[simp] theorem Dev.upCsq_csq (d : Dev) (n k : Nat) (f : Csq → Csq) :
    (d.upCsq n f).csq k = if k = n then f (d.csq n) else d.csq k := tget_tset _ _ _ _ _

@[simp] theorem Dev.upFailSite_failSite (d : Dev) (n k : Nat) (f : FailSite → FailSite) :
    (d.upFailSite n f).failSite k = if k = n then f (d.failSite n) else d.failSite k := tget_tset _ _ _ _ _

@[simp] theorem Dev.upPc_pc (d : Dev) (n k : Nat) (f : Pc → Pc) :
    (d.upPc n f).pc k = if k = n then f (d.pc n) else d.pc k := tget_tset _ _ _ _ _

@[simp] theorem Dev.upPll_pll (d : Dev) (n k : Nat) (f : Pll → Pll) :
    (d.upPll n f).pll k = if k = n then f (d.pll n) else d.pll k := tget_tset _ _ _ _ _

@[simp] theorem Dev.upWave_wave (d : Dev) (n k : Nat) (f : Wave → Wave) :
    (d.upWave n f).wave k = if k = n then f (d.wave n) else d.wave k := tget_tset _ _ _ _ _

@[simp] theorem Dev.upSlot_slot (d : Dev) (n k : Nat) (f : Slot → Slot) :
    (d.upSlot n f).slot k = if k = n then f (d.slot n) else d.slot k := tget_tset _ _ _ _ _

@[simp] theorem Dev.upPort_port (d : Dev) (n k : Nat) (f : RnPort → RnPort) :
    (d.upPort n f).port k = if k = n then f (d.port n) else d.port k := tget_tset _ _ _ _ _

@[simp] theorem Dev.upRnLane_rnLane (d : Dev) (n k : Nat) (f : RnLane → RnLane) :
    (d.upRnLane n f).rnLane k = if k = n then f (d.rnLane n) else d.rnLane k := tget_tset _ _ _ _ _

@[simp] theorem Dev.upRing_ring (d : Dev) (n k : Nat) (f : Ring → Ring) :
    (d.upRing n f).ring k = if k = n then f (d.ring n) else d.ring k := tget_tset _ _ _ _ _

@[simp] theorem Dev.upVec_vec (d : Dev) (n k : Nat) (f : MsiVec → MsiVec) :
    (d.upVec n f).vec k = if k = n then f (d.vec n) else d.vec k := tget_tset _ _ _ _ _

@[simp] theorem Dev.setAcq_acq (d : Dev) (n k : Nat) (a : Option Acq) :
    (d.setAcq n a).acq k = if k = n then a else d.acq k := tget_tset _ _ _ _ _

@[simp] theorem Dev.upKl_kl (d : Dev) (f : Kl → Kl) : (d.upKl f).kl = f d.kl := rfl
@[simp] theorem Dev.raiseK_raised (d : Dev) (s i k : Nat) : (d.raiseK s i k).raised = d.raised ++ [⟨s, i, k, d.cycle⟩] := rfl
@[simp] theorem Dev.raise_raised (d : Dev) (s i : Nat) : (d.raise s i).raised = d.raised ++ [⟨s, i, 0, d.cycle⟩] := rfl
@[simp] theorem Dev.took_free (d : Dev) : d.took.free = d.free + 1 := rfl
@[simp] theorem Dev.tick_now (d : Dev) : d.tick.now = d.now + cycleTicks := rfl

/-! ## Register fields -/

theorem Fld.ctorIdx_lt (f : Fld) : f.ctorIdx < 1024 := by cases f <;> decide

theorem Fld.ctorIdx_inj {f g : Fld} (h : f.ctorIdx = g.ctorIdx) : f = g := by
  rw [← Fld.ofNat_ctorIdx f, h, Fld.ofNat_ctorIdx]

/-- The key names the field and the unit. -/
theorem fkey_inj {f g : Fld} {i j : Nat} : fkey f i = fkey g j ↔ f = g ∧ i = j := by
  constructor
  · intro h
    have hf := f.ctorIdx_lt
    have hg := g.ctorIdx_lt
    unfold fkey at h
    exact ⟨Fld.ctorIdx_inj (by omega), by omega⟩
  · rintro ⟨rfl, rfl⟩; rfl

/-- A register field after a write. -/
theorem Dev.wr_rd (d : Dev) (f g : Fld) (i j v : Nat) :
    (d.wr f i v).rd g j = if g = f ∧ j = i then v % 2 ^ f.spec.width else d.rd g j := by
  unfold Dev.wr Dev.rd
  by_cases h : g = f ∧ j = i
  · obtain ⟨rfl, rfl⟩ := h; simp
  · rw [if_neg h, tget_tset_other _ _ _ _ _ _ (fun e => h (fkey_inj.mp e))]

/-- A field that an event sets. -/
theorem Dev.setTo_rd (d : Dev) (f g : Fld) (i j v m : Nat) :
    (d.setTo f i v m).rd g j = if g = f ∧ j = i then v % 2 ^ f.spec.width else d.rd g j := Dev.wr_rd d f g i j v

/-- A one-bit field that an event sets. -/
theorem Dev.set1_rd (d : Dev) (f g : Fld) (i j : Nat) :
    (d.set1 f i).rd g j = if g = f ∧ j = i then 1 % 2 ^ f.spec.width else d.rd g j := Dev.wr_rd d f g i j 1

/-- A staged field keeps its shadow. -/
@[simp] theorem Dev.stage_rd (d : Dev) (f g : Fld) (i j : Nat) : (d.stage f i).rd g j = d.rd g j := by
  unfold Dev.stage; split <;> rfl

/-- What the present engine cycle has set is as before a staged write. -/
@[simp] theorem Dev.stage_now (d : Dev) (f : Fld) (i : Nat) : (d.stage f i).now = d.now ∧ (d.stage f i).raised = d.raised := by
  unfold Dev.stage; split <;> exact ⟨rfl, rfl⟩

/-- The field written. -/
@[simp] theorem Dev.wr_rd_same (d : Dev) (f : Fld) (i v : Nat) : (d.wr f i v).rd f i = v % 2 ^ f.spec.width := by
  simp [Dev.wr_rd]

/-- Another field. -/
theorem Dev.wr_rd_ne (d : Dev) (f g : Fld) (i j v : Nat) (h : g ≠ f) : (d.wr f i v).rd g j = d.rd g j := by
  simp [Dev.wr_rd, h]

/-- The same field of another unit. -/
theorem Dev.wr_rd_at (d : Dev) (f g : Fld) (i j v : Nat) (h : j ≠ i) : (d.wr f i v).rd g j = d.rd g j := by
  simp [Dev.wr_rd, h]

/-- An active copy after a move (R18). -/
theorem Dev.move_act (d : Dev) (f g : Fld) (i j : Nat) :
    (d.move f i).act g j = if g = f ∧ j = i then d.rd f i else d.act g j := by
  unfold Dev.move Dev.act
  by_cases h : g = f ∧ j = i
  · obtain ⟨rfl, rfl⟩ := h; simp
  · rw [if_neg h, tget_tset_other _ _ _ _ _ _ (fun e => h (fkey_inj.mp e))]

end Sys2Proof.Machine
end

