-- ==== Sys2Proof/Laws/Outcome.lean ====
section
/-!
SUPPORT. What the shapes of an outcome give: the queue, the memories, the block.
-/
namespace Sys2Proof.Machine

@[simp] theorem guardUnit_true (s : State) : guardUnit true s = .next s := rfl
@[simp] theorem guardUnit_false (s : State) : guardUnit false s = .fault .noSuchUnit := rfl
@[simp] theorem State.onDev_frame (s : State) (f : Dev → Dev) :
    (s.onDev f).pending = s.pending ∧ (s.onDev f).mem = s.mem ∧ (s.onDev f).dev = f s.dev := ⟨rfl, rfl, rfl⟩
@[simp] theorem State.onDevM_frame (s : State) (f : Mems → Dev → Dev) :
    (s.onDevM f).pending = s.pending ∧ (s.onDevM f).mem = s.mem ∧ (s.onDevM f).dev = f s.mem s.dev := ⟨rfl, rfl, rfl⟩
@[simp] theorem State.onMem_frame (s : State) (f : Mems → Dev → List Put × Dev) :
    (s.onMem f).pending = s.pending ∧ (s.onMem f).mem = (f s.mem s.dev).1.foldl Mems.put s.mem ∧
      (s.onMem f).dev = (f s.mem s.dev).2 := ⟨rfl, rfl, rfl⟩

/-- A command that changes only the block. -/
theorem acts_onDev {c : Instr} {s : State} {ok : Bool} {f : Dev → Dev} {P : Dev → Prop}
    (h : exec c s = guardUnit ok (s.onDev f)) (hok : ok = true) (hP : P (f s.dev)) : Acts c s P :=
  ⟨s.onDev f, by rw [h, hok]; rfl, rfl, rfl, hP⟩

/-- A command that changes only the block, and reads the memories. -/
theorem acts_onDevM {c : Instr} {s : State} {ok : Bool} {f : Mems → Dev → Dev} {P : Dev → Prop}
    (h : exec c s = guardUnit ok (s.onDevM f)) (hok : ok = true) (hP : P (f s.mem s.dev)) : Acts c s P :=
  ⟨s.onDevM f, by rw [h, hok]; rfl, rfl, rfl, hP⟩

/-- A command that may change the memories, and here does not. -/
theorem acts_onMem {c : Instr} {s : State} {ok : Bool} {f : Mems → Dev → List Put × Dev} {P : Dev → Prop}
    (h : exec c s = guardUnit ok (s.onMem f)) (hok : ok = true) (hm : (f s.mem s.dev).1 = []) (hP : P (f s.mem s.dev).2) :
    Acts c s P :=
  ⟨s.onMem f, by rw [h, hok]; rfl, rfl, by simp [hm], hP⟩

/-- A command that may change the memories. -/
theorem writes_onMem {c : Instr} {s : State} {ok : Bool} {f : Mems → Dev → List Put × Dev} {P : Mems → Dev → Prop}
    (h : exec c s = guardUnit ok (s.onMem f)) (hok : ok = true)
    (hP : P ((f s.mem s.dev).1.foldl Mems.put s.mem) (f s.mem s.dev).2) : Writes c s P :=
  ⟨s.onMem f, by rw [h, hok]; rfl, rfl, hP⟩

/-! ## Host accesses -/

theorem Dev.hostReady_access {d : Dev} (h : d.hostReady = true) : d.access? = some d.reached := by
  simp only [Dev.hostReady, Bool.and_eq_true, bne_iff_ne, ne_eq, Bool.not_eq_true'] at h
  simp [Dev.access?, Dev.wake, Dev.reached, h.1.1.1, h.1.1.2, h.1.2, h.2]

theorem Dev.hostReady_hosted {d : Dev} (h : d.hostReady = true) (f : Dev → Dev) : Dev.hosted f d = f d.reached := by
  simp [Dev.hosted, Dev.hostReady_access h]

@[simp] theorem Dev.reached_frame (d : Dev) : (∀ f i, d.reached.rd f i = d.rd f i) ∧ (∀ f i, d.reached.act f i = d.act f i) ∧
    (∀ n, d.reached.site n = d.site n) ∧ d.reached.bed = d.bed ∧ d.reached.now = d.now ∧ d.reached.raised = d.raised := by
  simp [Dev.reached]

/-! ## The memories keep their canonical form -/

theorem Mems.put_wf (m : Mems) (p : Put) (h : m.wf = true) : (m.put p).wf = true := by
  simp only [Mems.wf, Bool.and_eq_true] at h ⊢
  obtain ⟨⟨⟨⟨⟨⟨h1, h2⟩, h3⟩, h4⟩, h5⟩, h6⟩, h7⟩ := h
  cases p <;> simp only [Mems.put] <;>
    refine ⟨⟨⟨⟨⟨⟨?_, ?_⟩, ?_⟩, ?_⟩, ?_⟩, ?_⟩, ?_⟩ <;>
    first | assumption | (apply tcanon_writeMem; assumption) | (apply tcanon_filter; assumption) | rfl

theorem Mems.puts_wf (l : List Put) (m : Mems) (h : m.wf = true) : (l.foldl Mems.put m).wf = true := by
  induction l generalizing m with
  | nil => exact h
  | cons p t ih => exact ih _ (Mems.put_wf m p h)

end Sys2Proof.Machine
end

