-- ==== Sys2Proof/Laws/Exec.lean ====
section
/-!
SUPPORT. What a command can do at all: it faults where it names a unit that the block does not have, and otherwise goes on, keeps the
queue, and changes a memory only by the shared puts.
-/
namespace Sys2Proof.Machine

/-- The outcome is a fault where `ok` fails and else a next state with the queue of `s`, whose memories are canonical where those of
`s` are; with `keeps`, they are those of `s`. -/
def Shape (o : Host.Outcome State Fault Refusal) (ok : Bool) (keeps : Bool) (s : State) : Prop :=
  ∃ t, o = guardUnit ok t ∧ t.pending = s.pending ∧ (s.mem.wf = true → t.mem.wf = true) ∧ (keeps = true → t.mem = s.mem)

theorem shape_onDev (ok : Bool) (s : State) (f : Dev → Dev) (keeps : Bool) : Shape (guardUnit ok (s.onDev f)) ok keeps s :=
  ⟨_, rfl, rfl, id, fun _ => rfl⟩

theorem shape_onDevM (ok : Bool) (s : State) (f : Mems → Dev → Dev) (keeps : Bool) : Shape (guardUnit ok (s.onDevM f)) ok keeps s :=
  ⟨_, rfl, rfl, id, fun _ => rfl⟩

theorem shape_onMem (ok : Bool) (s : State) (f : Mems → Dev → List Put × Dev) : Shape (guardUnit ok (s.onMem f)) ok false s :=
  ⟨_, rfl, rfl, fun h => Mems.puts_wf _ _ h, fun h => nomatch h⟩


theorem exec_registerWrite (s : State) x0 x1 x2 : Shape (exec (.registerWrite x0 x1 x2) s) (wf (.registerWrite x0 x1 x2)) false s := shape_onMem _ s _

theorem exec_lowHalfRead (s : State) x0 : Shape (exec (.lowHalfRead x0) s) (wf (.lowHalfRead x0)) true s := shape_onDevM _ s _ _

theorem exec_highHalfRead (s : State) x0 : Shape (exec (.highHalfRead x0) s) (wf (.highHalfRead x0)) true s := shape_onDevM true s _ _

theorem exec_hbmWindowAccess (s : State) x0 x1 x2 : Shape (exec (.hbmWindowAccess x0 x1 x2) s) (wf (.hbmWindowAccess x0 x1 x2)) false s := shape_onMem true s _

theorem exec_siteCommit (s : State) x0 x1 : Shape (exec (.siteCommit x0 x1) s) (wf (.siteCommit x0 x1)) true s := shape_onDev _ s _ _

theorem exec_pinTsCommit (s : State) x0 x1 : Shape (exec (.pinTsCommit x0 x1) s) (wf (.pinTsCommit x0 x1)) true s := shape_onDev _ s _ _

theorem exec_pinTfCommit (s : State) x0 x1 : Shape (exec (.pinTfCommit x0 x1) s) (wf (.pinTfCommit x0 x1)) true s := shape_onDev _ s _ _

theorem exec_wvCommit (s : State) x0 x1 : Shape (exec (.wvCommit x0 x1) s) (wf (.wvCommit x0 x1)) true s := shape_onDev _ s _ _

theorem exec_siteMemberWrite (s : State) x0 x1 x2 x3 : Shape (exec (.siteMemberWrite x0 x1 x2 x3) s) (wf (.siteMemberWrite x0 x1 x2 x3)) true s := shape_onDev _ s _ _

theorem exec_dozeEntry (s : State) x0 : Shape (exec (.dozeEntry x0) s) (wf (.dozeEntry x0)) false s := shape_onMem _ s _

theorem exec_run (s : State) x0 : Shape (exec (.run x0) s) (wf (.run x0)) true s := shape_onDev true s _ _

theorem exec_preparingEntry (s : State) x0 : Shape (exec (.preparingEntry x0) s) (wf (.preparingEntry x0)) true s := shape_onDevM _ s _ _

theorem exec_preparationComplete (s : State) x0 : Shape (exec (.preparationComplete x0) s) (wf (.preparationComplete x0)) true s := shape_onDev _ s _ _

theorem exec_burstStartSeam (s : State) x0 : Shape (exec (.burstStartSeam x0) s) (wf (.burstStartSeam x0)) true s := shape_onDev _ s _ _

theorem exec_siteStart (s : State) x0 : Shape (exec (.siteStart x0) s) (wf (.siteStart x0)) true s := shape_onDev _ s _ _

theorem exec_eventPinEdge (s : State) x0 x1 : Shape (exec (.eventPinEdge x0 x1) s) (wf (.eventPinEdge x0 x1)) true s := shape_onDev _ s _ _

theorem exec_armTimeout (s : State) x0 : Shape (exec (.armTimeout x0) s) (wf (.armTimeout x0)) true s := shape_onDev _ s _ _

theorem exec_stopAbort (s : State) x0 : Shape (exec (.stopAbort x0) s) (wf (.stopAbort x0)) true s := shape_onDev true s _ _

theorem exec_stopPause (s : State) x0 : Shape (exec (.stopPause x0) s) (wf (.stopPause x0)) true s := shape_onDev true s _ _

theorem exec_resume (s : State) x0 : Shape (exec (.resume x0) s) (wf (.resume x0)) true s := shape_onDev true s _ _

theorem exec_resumeStart (s : State) x0 : Shape (exec (.resumeStart x0) s) (wf (.resumeStart x0)) true s := shape_onDev _ s _ _

theorem exec_seamAtBoundary (s : State) x0 : Shape (exec (.seamAtBoundary x0) s) (wf (.seamAtBoundary x0)) true s := shape_onDev _ s _ _

theorem exec_vectorLaunch (s : State) x0 : Shape (exec (.vectorLaunch x0) s) (wf (.vectorLaunch x0)) true s := shape_onDevM _ s _ _

theorem exec_burstEnd (s : State) x0 : Shape (exec (.burstEnd x0) s) (wf (.burstEnd x0)) true s := shape_onDev _ s _ _

theorem exec_drainEnd (s : State) x0 : Shape (exec (.drainEnd x0) s) (wf (.drainEnd x0)) false s := shape_onMem _ s _

theorem exec_conditionChange (s : State) x0 : Shape (exec (.conditionChange x0) s) (wf (.conditionChange x0)) true s := shape_onDev _ s _ _

theorem exec_gridPoint (s : State) x0 : Shape (exec (.gridPoint x0) s) (wf (.gridPoint x0)) true s := shape_onDev _ s _ _

theorem exec_seamDeadline (s : State) x0 : Shape (exec (.seamDeadline x0) s) (wf (.seamDeadline x0)) true s := shape_onDev _ s _ _

theorem exec_ucodeLoad (s : State) x0 x1 : Shape (exec (.ucodeLoad x0 x1) s) (wf (.ucodeLoad x0 x1)) true s := shape_onDevM true s _ _

theorem exec_ucodeVerify (s : State) x0 : Shape (exec (.ucodeVerify x0) s) (wf (.ucodeVerify x0)) true s := shape_onDev true s _ _

theorem exec_ucodeLoadComplete (s : State) x0 x1 : Shape (exec (.ucodeLoadComplete x0 x1) s) (wf (.ucodeLoadComplete x0 x1)) true s := shape_onDev true s _ _

theorem exec_copyVerify (s : State) x0 x1 x2 : Shape (exec (.copyVerify x0 x1 x2) s) (wf (.copyVerify x0 x1 x2)) true s := shape_onDev _ s _ _

theorem exec_interruptTake (s : State) x0 : Shape (exec (.interruptTake x0) s) (wf (.interruptTake x0)) true s := shape_onDev _ s _ _

theorem exec_hardStop (s : State) x0 : Shape (exec (.hardStop x0) s) (wf (.hardStop x0)) true s := shape_onDev _ s _ _

theorem exec_halt (s : State) x0 : Shape (exec (.halt x0) s) (wf (.halt x0)) true s := shape_onDevM _ s _ _

theorem exec_emit (s : State) x0 : Shape (exec (.emit x0) s) (wf (.emit x0)) true s := shape_onDevM _ s _ _

theorem exec_emitt (s : State) x0 : Shape (exec (.emitt x0) s) (wf (.emitt x0)) true s := shape_onDevM _ s _ _

theorem exec_repeatW (s : State) x0 : Shape (exec (.repeatW x0) s) (wf (.repeatW x0)) true s := shape_onDevM _ s _ _

theorem exec_idleW (s : State) x0 : Shape (exec (.idleW x0) s) (wf (.idleW x0)) true s := shape_onDevM _ s _ _

theorem exec_loopW (s : State) x0 : Shape (exec (.loopW x0) s) (wf (.loopW x0)) true s := shape_onDevM _ s _ _

theorem exec_endloop (s : State) x0 : Shape (exec (.endloop x0) s) (wf (.endloop x0)) true s := shape_onDevM _ s _ _

theorem exec_call (s : State) x0 : Shape (exec (.call x0) s) (wf (.call x0)) true s := shape_onDevM _ s _ _

theorem exec_ret (s : State) x0 : Shape (exec (.ret x0) s) (wf (.ret x0)) true s := shape_onDevM _ s _ _

theorem exec_jump (s : State) x0 : Shape (exec (.jump x0) s) (wf (.jump x0)) true s := shape_onDevM _ s _ _

theorem exec_branch (s : State) x0 : Shape (exec (.branch x0) s) (wf (.branch x0)) true s := shape_onDevM _ s _ _

theorem exec_matchW (s : State) x0 : Shape (exec (.matchW x0) s) (wf (.matchW x0)) true s := shape_onDevM _ s _ _

theorem exec_matchPassEnd (s : State) x0 : Shape (exec (.matchPassEnd x0) s) (wf (.matchPassEnd x0)) true s := shape_onDevM _ s _ _

theorem exec_waitcond (s : State) x0 : Shape (exec (.waitcond x0) s) (wf (.waitcond x0)) true s := shape_onDevM _ s _ _

theorem exec_waittrig (s : State) x0 : Shape (exec (.waittrig x0) s) (wf (.waittrig x0)) true s := shape_onDevM _ s _ _

theorem exec_waittime (s : State) x0 : Shape (exec (.waittime x0) s) (wf (.waittime x0)) true s := shape_onDevM _ s _ _

theorem exec_rdv (s : State) x0 : Shape (exec (.rdv x0) s) (wf (.rdv x0)) true s := shape_onDevM _ s _ _

theorem exec_decisionCycle (s : State) x0 : Shape (exec (.decisionCycle x0) s) (wf (.decisionCycle x0)) true s := shape_onDevM _ s _ _

theorem exec_waitRelease (s : State) x0 : Shape (exec (.waitRelease x0) s) (wf (.waitRelease x0)) true s := shape_onDevM _ s _ _

theorem exec_waitTimeout (s : State) x0 : Shape (exec (.waitTimeout x0) s) (wf (.waitTimeout x0)) true s := shape_onDevM _ s _ _

theorem exec_setc (s : State) x0 : Shape (exec (.setc x0) s) (wf (.setc x0)) true s := shape_onDevM _ s _ _

theorem exec_markW (s : State) x0 : Shape (exec (.markW x0) s) (wf (.markW x0)) true s := shape_onDevM _ s _ _

theorem exec_stamp (s : State) x0 : Shape (exec (.stamp x0) s) (wf (.stamp x0)) true s := shape_onDevM _ s _ _

theorem exec_latsrch (s : State) x0 : Shape (exec (.latsrch x0) s) (wf (.latsrch x0)) true s := shape_onDevM _ s _ _

theorem exec_failmode (s : State) x0 : Shape (exec (.failmode x0) s) (wf (.failmode x0)) true s := shape_onDevM _ s _ _

theorem exec_seam (s : State) x0 : Shape (exec (.seam x0) s) (wf (.seam x0)) true s := shape_onDevM _ s _ _

theorem exec_pstream (s : State) x0 : Shape (exec (.pstream x0) s) (wf (.pstream x0)) true s := shape_onDevM _ s _ _

theorem exec_ldcnt (s : State) x0 : Shape (exec (.ldcnt x0) s) (wf (.ldcnt x0)) true s := shape_onDevM _ s _ _

theorem exec_badOp (s : State) x0 : Shape (exec (.badOp x0) s) (wf (.badOp x0)) true s := shape_onDevM _ s _ _

theorem exec_refillRequest (s : State) : Shape (exec (.refillRequest) s) (wf (.refillRequest)) true s := shape_onDevM true s _ _

theorem exec_lineArrival (s : State) x0 : Shape (exec (.lineArrival x0) s) (wf (.lineArrival x0)) false s := shape_onMem _ s _

theorem exec_tsetLoad (s : State) x0 x1 : Shape (exec (.tsetLoad x0 x1) s) (wf (.tsetLoad x0 x1)) true s := shape_onDev true s _ _

theorem exec_edgePllLockLoss (s : State) x0 : Shape (exec (.edgePllLockLoss x0) s) (wf (.edgePllLockLoss x0)) true s := shape_onDev _ s _ _

theorem exec_pllReady (s : State) x0 : Shape (exec (.pllReady x0) s) (wf (.pllReady x0)) true s := shape_onDev _ s _ _

theorem exec_pllRestartTimeout (s : State) x0 : Shape (exec (.pllRestartTimeout x0) s) (wf (.pllRestartTimeout x0)) true s := shape_onDev _ s _ _

theorem exec_strobe (s : State) x0 x1 x2 : Shape (exec (.strobe x0 x1 x2) s) (wf (.strobe x0 x1 x2)) true s := shape_onDev _ s _ _

theorem exec_failRecordTransfer (s : State) : Shape (exec (.failRecordTransfer) s) (wf (.failRecordTransfer)) false s := shape_onMem true s _

theorem exec_captureBlockWrite (s : State) : Shape (exec (.captureBlockWrite) s) (wf (.captureBlockWrite)) false s := shape_onMem true s _

theorem exec_frSiteClear (s : State) x0 x1 : Shape (exec (.frSiteClear x0 x1) s) (wf (.frSiteClear x0 x1)) true s := shape_onDev _ s _ _

theorem exec_measure (s : State) x0 : Shape (exec (.measure x0) s) (wf (.measure x0)) true s := shape_onDev true s _ _

theorem exec_jobArm (s : State) x0 : Shape (exec (.jobArm x0) s) (wf (.jobArm x0)) true s := shape_onDev true s _ _

theorem exec_qualifyingEdge (s : State) x0 x1 x2 : Shape (exec (.qualifyingEdge x0 x1 x2) s) (wf (.qualifyingEdge x0 x1 x2)) true s := shape_onDev _ s _ _

theorem exec_jobEnd (s : State) x0 : Shape (exec (.jobEnd x0) s) (wf (.jobEnd x0)) false s := shape_onMem true s _

theorem exec_jobArmTimeout (s : State) x0 : Shape (exec (.jobArmTimeout x0) s) (wf (.jobArmTimeout x0)) false s := shape_onMem true s _

theorem exec_wavePlay (s : State) x0 : Shape (exec (.wavePlay x0) s) (wf (.wavePlay x0)) true s := shape_onDevM true s _ _

theorem exec_wavePreparationComplete (s : State) x0 : Shape (exec (.wavePreparationComplete x0) s) (wf (.wavePreparationComplete x0)) true s := shape_onDev _ s _ _

theorem exec_waveStart (s : State) x0 : Shape (exec (.waveStart x0) s) (wf (.waveStart x0)) true s := shape_onDev _ s _ _

theorem exec_samplePoint (s : State) x0 x1 : Shape (exec (.samplePoint x0 x1) s) (wf (.samplePoint x0 x1)) false s := shape_onMem true s _

theorem exec_jumpRequest (s : State) x0 : Shape (exec (.jumpRequest x0) s) (wf (.jumpRequest x0)) true s := shape_onDev _ s _ _

theorem exec_wvJump (s : State) x0 x1 : Shape (exec (.wvJump x0 x1) s) (wf (.wvJump x0 x1)) true s := shape_onDev _ s _ _

theorem exec_wvStreamWp (s : State) x0 x1 : Shape (exec (.wvStreamWp x0 x1) s) (wf (.wvStreamWp x0 x1)) true s := shape_onDevM _ s _ _

theorem exec_waveStop (s : State) x0 : Shape (exec (.waveStop x0) s) (wf (.waveStop x0)) true s := shape_onDev true s _ _

theorem exec_wavePark (s : State) x0 : Shape (exec (.wavePark x0) s) (wf (.wavePark x0)) true s := shape_onDev _ s _ _

theorem exec_wavePllLockLoss (s : State) : Shape (exec (.wavePllLockLoss) s) (wf (.wavePllLockLoss)) true s := shape_onDev true s _ _

theorem exec_dacDisable (s : State) : Shape (exec (.dacDisable) s) (wf (.dacDisable)) true s := shape_onDev true s _ _

theorem exec_slotEnable (s : State) x0 x1 : Shape (exec (.slotEnable x0 x1) s) (wf (.slotEnable x0 x1)) true s := shape_onDev _ s _ _

theorem exec_slotArm (s : State) x0 x1 : Shape (exec (.slotArm x0 x1) s) (wf (.slotArm x0 x1)) true s := shape_onDev _ s _ _

theorem exec_taForce (s : State) x0 : Shape (exec (.taForce x0) s) (wf (.taForce x0)) true s := shape_onDev true s _ _

theorem exec_firing (s : State) x0 : Shape (exec (.firing x0) s) (wf (.firing x0)) true s := shape_onDev _ s _ _

theorem exec_forcedFiring (s : State) x0 : Shape (exec (.forcedFiring x0) s) (wf (.forcedFiring x0)) true s := shape_onDev _ s _ _

theorem exec_acquire (s : State) x0 : Shape (exec (.acquire x0) s) (wf (.acquire x0)) true s := shape_onDev true s _ _

theorem exec_acquisitionArm (s : State) x0 : Shape (exec (.acquisitionArm x0) s) (wf (.acquisitionArm x0)) true s := shape_onDev _ s _ _

theorem exec_acquisitionEnd (s : State) x0 : Shape (exec (.acquisitionEnd x0) s) (wf (.acquisitionEnd x0)) false s := shape_onMem _ s _

theorem exec_acquisitionTimeout (s : State) x0 : Shape (exec (.acquisitionTimeout x0) s) (wf (.acquisitionTimeout x0)) false s := shape_onMem _ s _

theorem exec_sqTail (s : State) x0 x1 : Shape (exec (.sqTail x0 x1) s) (wf (.sqTail x0 x1)) true s := shape_onDev _ s _ _

theorem exec_cqHead (s : State) x0 x1 : Shape (exec (.cqHead x0 x1) s) (wf (.cqHead x0 x1)) true s := shape_onDev _ s _ _

theorem exec_contextLoad (s : State) x0 : Shape (exec (.contextLoad x0) s) (wf (.contextLoad x0)) true s := shape_onDev _ s _ _

theorem exec_contextStore (s : State) x0 : Shape (exec (.contextStore x0) s) (wf (.contextStore x0)) true s := shape_onDev _ s _ _

theorem exec_enable (s : State) x0 : Shape (exec (.enable x0) s) (wf (.enable x0)) true s := shape_onDev _ s _ _

theorem exec_disable (s : State) x0 : Shape (exec (.disable x0) s) (wf (.disable x0)) true s := shape_onDev _ s _ _

theorem exec_restart (s : State) x0 : Shape (exec (.restart x0) s) (wf (.restart x0)) true s := shape_onDev _ s _ _

theorem exec_contextCommandComplete (s : State) : Shape (exec (.contextCommandComplete) s) (wf (.contextCommandComplete)) true s := shape_onDev true s _ _

theorem exec_tokenWrite (s : State) x0 x1 : Shape (exec (.tokenWrite x0 x1) s) (wf (.tokenWrite x0 x1)) true s := shape_onDev _ s _ _

theorem exec_descriptorRead (s : State) x0 x1 : Shape (exec (.descriptorRead x0 x1) s) (wf (.descriptorRead x0 x1)) true s := shape_onDev _ s _ _

theorem exec_dispatch (s : State) : Shape (exec (.dispatch) s) (wf (.dispatch)) true s := shape_onDev true s _ _

theorem exec_hostReadError (s : State) x0 x1 : Shape (exec (.hostReadError x0 x1) s) (wf (.hostReadError x0 x1)) true s := shape_onDev true s _ _

theorem exec_completionReport (s : State) x0 : Shape (exec (.completionReport x0) s) (wf (.completionReport x0)) true s := shape_onDev true s _ _

theorem exec_completionRecordWrite (s : State) x0 : Shape (exec (.completionRecordWrite x0) s) (wf (.completionRecordWrite x0)) false s := shape_onMem _ s _

theorem exec_msixHoldoffEnd (s : State) x0 : Shape (exec (.msixHoldoffEnd x0) s) (wf (.msixHoldoffEnd x0)) false s := shape_onMem _ s _

theorem exec_tokenWaitRelease (s : State) x0 : Shape (exec (.tokenWaitRelease x0) s) (wf (.tokenWaitRelease x0)) true s := shape_onDev _ s _ _

theorem exec_tokenWaitTimeout (s : State) x0 : Shape (exec (.tokenWaitTimeout x0) s) (wf (.tokenWaitTimeout x0)) true s := shape_onDev _ s _ _

theorem exec_nop (s : State) x0 : Shape (exec (.nop x0) s) (wf (.nop x0)) true s := shape_onDev true s _ _

theorem exec_fence (s : State) x0 : Shape (exec (.fence x0) s) (wf (.fence x0)) true s := shape_onDev true s _ _

theorem exec_tokenSet (s : State) x0 : Shape (exec (.tokenSet x0) s) (wf (.tokenSet x0)) true s := shape_onDev true s _ _

theorem exec_tokenWait (s : State) x0 : Shape (exec (.tokenWait x0) s) (wf (.tokenWait x0)) true s := shape_onDev _ s _ _

theorem exec_regWrite (s : State) x0 x1 : Shape (exec (.regWrite x0 x1) s) (wf (.regWrite x0 x1)) false s := shape_onMem true s _

theorem exec_regRead (s : State) x0 : Shape (exec (.regRead x0) s) (wf (.regRead x0)) false s := shape_onMem true s _

theorem exec_copyIn (s : State) x0 x1 : Shape (exec (.copyIn x0 x1) s) (wf (.copyIn x0 x1)) false s := shape_onMem true s _

theorem exec_copyOut (s : State) x0 : Shape (exec (.copyOut x0) s) (wf (.copyOut x0)) false s := shape_onMem true s _

theorem exec_fill (s : State) x0 : Shape (exec (.fill x0) s) (wf (.fill x0)) false s := shape_onMem true s _

theorem exec_peXfer (s : State) x0 x1 x2 : Shape (exec (.peXfer x0 x1 x2) s) (wf (.peXfer x0 x1 x2)) false s := shape_onMem true s _

theorem exec_peXferTimeout (s : State) x0 : Shape (exec (.peXferTimeout x0) s) (wf (.peXferTimeout x0)) true s := shape_onDev true s _ _

theorem exec_failFetch (s : State) x0 x1 : Shape (exec (.failFetch x0 x1) s) (wf (.failFetch x0 x1)) false s := shape_onMem true s _

theorem exec_captureFetch (s : State) x0 : Shape (exec (.captureFetch x0) s) (wf (.captureFetch x0)) false s := shape_onMem true s _

theorem exec_calRequestGaps (s : State) x0 : Shape (exec (.calRequestGaps x0) s) (wf (.calRequestGaps x0)) true s := shape_onDev true s _ _

theorem exec_calRequestForce (s : State) x0 : Shape (exec (.calRequestForce x0) s) (wf (.calRequestForce x0)) true s := shape_onDev true s _ _

theorem exec_calRequestDiscard (s : State) x0 : Shape (exec (.calRequestDiscard x0) s) (wf (.calRequestDiscard x0)) true s := shape_onDev true s _ _

theorem exec_calReport (s : State) x0 : Shape (exec (.calReport x0) s) (wf (.calReport x0)) false s := shape_onMem true s _

theorem exec_journalRead (s : State) x0 : Shape (exec (.journalRead x0) s) (wf (.journalRead x0)) false s := shape_onMem true s _

theorem exec_twinCheckpoint (s : State) x0 : Shape (exec (.twinCheckpoint x0) s) (wf (.twinCheckpoint x0)) true s := shape_onDev true s _ _

theorem exec_functionLevelReset (s : State) : Shape (exec (.functionLevelReset) s) (wf (.functionLevelReset)) false s := shape_onMem true s _

theorem exec_hbmRequestService (s : State) x0 x1 : Shape (exec (.hbmRequestService x0 x1) s) (wf (.hbmRequestService x0 x1)) false s := shape_onMem _ s _

theorem exec_refreshIssue (s : State) x0 : Shape (exec (.refreshIssue x0) s) (wf (.refreshIssue x0)) true s := shape_onDev _ s _ _

theorem exec_stackTemperatureRead (s : State) x0 x1 : Shape (exec (.stackTemperatureRead x0 x1) s) (wf (.stackTemperatureRead x0 x1)) true s := shape_onDev _ s _ _

theorem exec_retrain (s : State) x0 x1 : Shape (exec (.retrain x0 x1) s) (wf (.retrain x0 x1)) true s := shape_onDev _ s _ _

theorem exec_oppointWrite (s : State) x0 : Shape (exec (.oppointWrite x0) s) (wf (.oppointWrite x0)) true s := shape_onDev true s _ _

theorem exec_oppointSwitch (s : State) : Shape (exec (.oppointSwitch) s) (wf (.oppointSwitch)) true s := shape_onDev true s _ _

theorem exec_selfRefreshEntry (s : State) x0 : Shape (exec (.selfRefreshEntry x0) s) (wf (.selfRefreshEntry x0)) true s := shape_onDev _ s _ _

theorem exec_selfRefreshExit (s : State) x0 x1 : Shape (exec (.selfRefreshExit x0 x1) s) (wf (.selfRefreshExit x0 x1)) true s := shape_onDev _ s _ _

theorem exec_patrolScrub (s : State) x0 : Shape (exec (.patrolScrub x0) s) (wf (.patrolScrub x0)) true s := shape_onDev true s _ _

theorem exec_referenceLoss (s : State) : Shape (exec (.referenceLoss) s) (wf (.referenceLoss)) true s := shape_onDev true s _ _

theorem exec_holdoverExpiry (s : State) : Shape (exec (.holdoverExpiry) s) (wf (.holdoverExpiry)) true s := shape_onDev true s _ _

theorem exec_corePllLockLoss (s : State) : Shape (exec (.corePllLockLoss) s) (wf (.corePllLockLoss)) true s := shape_onDev true s _ _

theorem exec_stepCommit (s : State) x0 : Shape (exec (.stepCommit x0) s) (wf (.stepCommit x0)) true s := shape_onDev true s _ _

theorem exec_ppsPulse (s : State) x0 : Shape (exec (.ppsPulse x0) s) (wf (.ppsPulse x0)) true s := shape_onDev _ s _ _

theorem exec_disciplineHoldover (s : State) : Shape (exec (.disciplineHoldover) s) (wf (.disciplineHoldover)) true s := shape_onDev true s _ _

theorem exec_disciplineModeWrite (s : State) x0 : Shape (exec (.disciplineModeWrite x0) s) (wf (.disciplineModeWrite x0)) true s := shape_onDev true s _ _

theorem exec_ageNowAdvance (s : State) : Shape (exec (.ageNowAdvance) s) (wf (.ageNowAdvance)) false s := shape_onMem true s _

theorem exec_portEnable (s : State) x0 x1 : Shape (exec (.portEnable x0 x1) s) (wf (.portEnable x0 x1)) true s := shape_onDev _ s _ _

theorem exec_train (s : State) x0 x1 : Shape (exec (.train x0 x1) s) (wf (.train x0 x1)) true s := shape_onDev _ s _ _

theorem exec_trainingEnd (s : State) x0 x1 x2 x3 x4 : Shape (exec (.trainingEnd x0 x1 x2 x3 x4) s) (wf (.trainingEnd x0 x1 x2 x3 x4)) true s := shape_onDev _ s _ _

theorem exec_blockLockLoss (s : State) x0 : Shape (exec (.blockLockLoss x0) s) (wf (.blockLockLoss x0)) true s := shape_onDev _ s _ _

theorem exec_fomSample (s : State) x0 x1 x2 : Shape (exec (.fomSample x0 x1 x2) s) (wf (.fomSample x0 x1 x2)) true s := shape_onDev _ s _ _

theorem exec_rateMaxWrite (s : State) x0 x1 : Shape (exec (.rateMaxWrite x0 x1) s) (wf (.rateMaxWrite x0 x1)) true s := shape_onDev _ s _ _

theorem exec_frame (s : State) x0 x1 x2 x3 x4 x5 : Shape (exec (.frame x0 x1 x2 x3 x4 x5) s) (wf (.frame x0 x1 x2 x3 x4 x5)) true s := shape_onDev _ s _ _

theorem exec_ack (s : State) x0 x1 x2 : Shape (exec (.ack x0 x1 x2) s) (wf (.ack x0 x1 x2)) true s := shape_onDev _ s _ _

theorem exec_nak (s : State) x0 x1 x2 : Shape (exec (.nak x0 x1 x2) s) (wf (.nak x0 x1 x2)) true s := shape_onDev _ s _ _

theorem exec_replayTimeout (s : State) x0 : Shape (exec (.replayTimeout x0) s) (wf (.replayTimeout x0)) true s := shape_onDev _ s _ _

theorem exec_timeExchangeStart (s : State) x0 : Shape (exec (.timeExchangeStart x0) s) (wf (.timeExchangeStart x0)) true s := shape_onDev _ s _ _

theorem exec_treq (s : State) x0 x1 : Shape (exec (.treq x0 x1) s) (wf (.treq x0 x1)) true s := shape_onDev _ s _ _

theorem exec_timeExchangeComplete (s : State) x0 x1 x2 x3 x4 x5 x6 : Shape (exec (.timeExchangeComplete x0 x1 x2 x3 x4 x5 x6) s) (wf (.timeExchangeComplete x0 x1 x2 x3 x4 x5 x6)) true s := shape_onDev _ s _ _

theorem exec_condPacket (s : State) x0 x1 x2 x3 x4 : Shape (exec (.condPacket x0 x1 x2 x3 x4) s) (wf (.condPacket x0 x1 x2 x3 x4)) true s := shape_onDev _ s _ _

theorem exec_startPacket (s : State) x0 x1 x2 : Shape (exec (.startPacket x0 x1 x2) s) (wf (.startPacket x0 x1 x2)) true s := shape_onDev _ s _ _

theorem exec_haltPacket (s : State) x0 x1 x2 : Shape (exec (.haltPacket x0 x1 x2) s) (wf (.haltPacket x0 x1 x2)) true s := shape_onDev _ s _ _

theorem exec_markPacket (s : State) x0 x1 x2 x3 : Shape (exec (.markPacket x0 x1 x2 x3) s) (wf (.markPacket x0 x1 x2 x3)) true s := shape_onDev _ s _ _

theorem exec_trigPacket (s : State) x0 x1 x2 x3 : Shape (exec (.trigPacket x0 x1 x2 x3) s) (wf (.trigPacket x0 x1 x2 x3)) true s := shape_onDev _ s _ _

theorem exec_faultBlock (s : State) x0 : Shape (exec (.faultBlock x0) s) (wf (.faultBlock x0)) true s := shape_onDev _ s _ _

theorem exec_twinEnable (s : State) x0 : Shape (exec (.twinEnable x0) s) (wf (.twinEnable x0)) true s := shape_onDev true s _ _

theorem exec_pairing (s : State) x0 x1 x2 x3 x4 : Shape (exec (.pairing x0 x1 x2 x3 x4) s) (wf (.pairing x0 x1 x2 x3 x4)) true s := shape_onDevM true s _ _

theorem exec_seekTimeout (s : State) : Shape (exec (.seekTimeout) s) (wf (.seekTimeout)) true s := shape_onDev true s _ _

theorem exec_heartbeat (s : State) : Shape (exec (.heartbeat) s) (wf (.heartbeat)) true s := shape_onDev true s _ _

theorem exec_heartbeatLoss (s : State) : Shape (exec (.heartbeatLoss) s) (wf (.heartbeatLoss)) true s := shape_onDev true s _ _

theorem exec_leaseExpiry (s : State) : Shape (exec (.leaseExpiry) s) (wf (.leaseExpiry)) true s := shape_onDev true s _ _

theorem exec_twinPeerAsserted (s : State) : Shape (exec (.twinPeerAsserted) s) (wf (.twinPeerAsserted)) true s := shape_onDev true s _ _

theorem exec_peerWaitTimeout (s : State) : Shape (exec (.peerWaitTimeout) s) (wf (.peerWaitTimeout)) true s := shape_onDev true s _ _

theorem exec_takeover (s : State) x0 : Shape (exec (.takeover x0) s) (wf (.takeover x0)) false s := shape_onMem true s _

theorem exec_mirrorFrame (s : State) x0 x1 x2 x3 : Shape (exec (.mirrorFrame x0 x1 x2 x3) s) (wf (.mirrorFrame x0 x1 x2 x3)) false s := shape_onMem true s _

theorem exec_completionNotice (s : State) x0 x1 x2 x3 : Shape (exec (.completionNotice x0 x1 x2 x3) s) (wf (.completionNotice x0 x1 x2 x3)) true s := shape_onDev _ s _ _

theorem exec_noticeAck (s : State) x0 : Shape (exec (.noticeAck x0) s) (wf (.noticeAck x0)) true s := shape_onDev true s _ _

theorem exec_syncComplete (s : State) : Shape (exec (.syncComplete) s) (wf (.syncComplete)) true s := shape_onDev true s _ _

theorem exec_modelStep (s : State) x0 : Shape (exec (.modelStep x0) s) (wf (.modelStep x0)) false s := shape_onMem true s _

theorem exec_boardSenseRead (s : State) x0 : Shape (exec (.boardSenseRead x0) s) (wf (.boardSenseRead x0)) true s := shape_onDev true s _ _

theorem exec_boundaryWrite (s : State) x0 : Shape (exec (.boundaryWrite x0) s) (wf (.boundaryWrite x0)) true s := shape_onDev true s _ _

theorem exec_boundaryStale (s : State) : Shape (exec (.boundaryStale) s) (wf (.boundaryStale)) true s := shape_onDev true s _ _

theorem exec_sleepRequest (s : State) x0 : Shape (exec (.sleepRequest x0) s) (wf (.sleepRequest x0)) true s := shape_onDev true s _ _

theorem exec_autoSleep (s : State) : Shape (exec (.autoSleep) s) (wf (.autoSleep)) true s := shape_onDev true s _ _

theorem exec_sleepEntry (s : State) : Shape (exec (.sleepEntry) s) (wf (.sleepEntry)) false s := shape_onMem true s _

theorem exec_wake (s : State) : Shape (exec (.wake) s) (wf (.wake)) true s := shape_onDev true s _ _

theorem exec_pllIdleStop (s : State) x0 : Shape (exec (.pllIdleStop x0) s) (wf (.pllIdleStop x0)) true s := shape_onDev _ s _ _

theorem exec_ballastEnd (s : State) : Shape (exec (.ballastEnd) s) (wf (.ballastEnd)) true s := shape_onDev true s _ _

theorem exec_calibrationStep (s : State) x0 x1 x2 x3 x4 : Shape (exec (.calibrationStep x0 x1 x2 x3 x4) s) (wf (.calibrationStep x0 x1 x2 x3 x4)) true s := shape_onDev _ s _ _

theorem exec_outRetry (s : State) x0 x1 : Shape (exec (.outRetry x0 x1) s) (wf (.outRetry x0 x1)) true s := shape_onDev _ s _ _

theorem exec_resultAged (s : State) x0 x1 : Shape (exec (.resultAged x0 x1) s) (wf (.resultAged x0 x1)) true s := shape_onDev _ s _ _

theorem exec_forcedWindowOpen (s : State) x0 : Shape (exec (.forcedWindowOpen x0) s) (wf (.forcedWindowOpen x0)) true s := shape_onDev _ s _ _

theorem exec_forcedWindowEnd (s : State) x0 : Shape (exec (.forcedWindowEnd x0) s) (wf (.forcedWindowEnd x0)) true s := shape_onDev _ s _ _

theorem exec_faultEvent (s : State) : Shape (exec (.faultEvent) s) (wf (.faultEvent)) false s := shape_onMem true s _

theorem exec_logWrite (s : State) : Shape (exec (.logWrite) s) (wf (.logWrite)) true s := shape_onDev true s _ _

theorem exec_exit (s : State) x0 : Shape (exec (.exit x0) s) (wf (.exit x0)) true s := shape_onDev true s _ _

theorem exec_reinit (s : State) x0 : Shape (exec (.reinit x0) s) (wf (.reinit x0)) true s := shape_onDev true s _ _

theorem exec_parityError (s : State) : Shape (exec (.parityError) s) (wf (.parityError)) false s := shape_onMem true s _

theorem exec_fcInject (s : State) x0 : Shape (exec (.fcInject x0) s) (wf (.fcInject x0)) true s := shape_onDev true s _ _

theorem exec_fcAlias (s : State) x0 : Shape (exec (.fcAlias x0) s) (wf (.fcAlias x0)) true s := shape_onDev true s _ _

theorem exec_journalWrite (s : State) x0 : Shape (exec (.journalWrite x0) s) (wf (.journalWrite x0)) false s := shape_onMem true s _

theorem exec_counterWrap (s : State) x0 : Shape (exec (.counterWrap x0) s) (wf (.counterWrap x0)) true s := shape_onDev _ s _ _

theorem exec_tlCfgWrite (s : State) x0 x1 : Shape (exec (.tlCfgWrite x0 x1) s) (wf (.tlCfgWrite x0 x1)) true s := shape_onDev _ s _ _

theorem exec_tlCntWrite (s : State) x0 x1 x2 : Shape (exec (.tlCntWrite x0 x1 x2) s) (wf (.tlCntWrite x0 x1 x2)) true s := shape_onDev _ s _ _

theorem exec_snap (s : State) x0 : Shape (exec (.snap x0) s) (wf (.snap x0)) true s := shape_onDev true s _ _

theorem exec_userPageSnapshot (s : State) x0 : Shape (exec (.userPageSnapshot x0) s) (wf (.userPageSnapshot x0)) true s := shape_onDev _ s _ _

theorem exec_sampleCapture (s : State) : Shape (exec (.sampleCapture) s) (wf (.sampleCapture)) false s := shape_onMem true s _

theorem exec_tlSampleHiRead (s : State) : Shape (exec (.tlSampleHiRead) s) (wf (.tlSampleHiRead)) true s := shape_onDev true s _ _

theorem exec_powerOn (s : State) x0 : Shape (exec (.powerOn x0) s) (wf (.powerOn x0)) false s := shape_onMem true s _

theorem exec_fundamentalReset (s : State) x0 : Shape (exec (.fundamentalReset x0) s) (wf (.fundamentalReset x0)) false s := shape_onMem true s _

theorem exec_warmReset (s : State) x0 x1 : Shape (exec (.warmReset x0 x1) s) (wf (.warmReset x0 x1)) false s := shape_onMem true s _

theorem exec_windowRead (s : State) x0 : Shape (exec (.windowRead x0) s) (wf (.windowRead x0)) true s := shape_onDevM true s _ _

theorem exec_windowProgram (s : State) x0 : Shape (exec (.windowProgram x0) s) (wf (.windowProgram x0)) true s := shape_onDevM true s _ _

theorem exec_windowErase (s : State) x0 : Shape (exec (.windowErase x0) s) (wf (.windowErase x0)) true s := shape_onDevM true s _ _

theorem exec_otpCust (s : State) x0 : Shape (exec (.otpCust x0) s) (wf (.otpCust x0)) true s := shape_onDevM true s _ _

theorem exec_otpSeal (s : State) x0 : Shape (exec (.otpSeal x0) s) (wf (.otpSeal x0)) true s := shape_onDevM true s _ _

theorem exec_windowCommandComplete (s : State) x0 : Shape (exec (.windowCommandComplete x0) s) (wf (.windowCommandComplete x0)) false s := shape_onMem true s _

theorem exec_windowCommandTimeout (s : State) : Shape (exec (.windowCommandTimeout) s) (wf (.windowCommandTimeout)) false s := shape_onMem true s _

theorem exec_extest (s : State) x0 : Shape (exec (.extest x0) s) (wf (.extest x0)) true s := shape_onDev true s _ _

theorem exec_supplyRemoval (s : State) : Shape (exec (.supplyRemoval) s) (wf (.supplyRemoval)) false s := shape_onMem true s _

theorem exec_hxPerstDeassertion (s : State) : Shape (exec (.hxPerstDeassertion) s) (wf (.hxPerstDeassertion)) true s := shape_onDev true s _ _

theorem exec_referenceReturn (s : State) : Shape (exec (.referenceReturn) s) (wf (.referenceReturn)) true s := shape_onDevM true s _ _

theorem exec_twinPeerDeassertion (s : State) : Shape (exec (.twinPeerDeassertion) s) (wf (.twinPeerDeassertion)) true s := shape_onDev true s _ _

theorem exec_peerFaultClear (s : State) x0 : Shape (exec (.peerFaultClear x0) s) (wf (.peerFaultClear x0)) true s := shape_onDev _ s _ _

theorem exec_imageOpcode (s : State) x0 : Shape (exec (.imageOpcode x0) s) (wf (.imageOpcode x0)) true s := shape_onDevM _ s _ _

theorem exec_keepOpenRowClose (s : State) x0 x1 : Shape (exec (.keepOpenRowClose x0 x1) s) (wf (.keepOpenRowClose x0 x1)) true s := shape_onDev _ s _ _

theorem exec_trainingStepEnd (s : State) x0 : Shape (exec (.trainingStepEnd x0) s) (wf (.trainingStepEnd x0)) true s := shape_onDev _ s _ _

/-- What a command can do. -/
theorem exec_shape (s : State) (c : Instr) : Shape (exec c s) (wf c) (!storing c) s :=
  match c with
  | .registerWrite x0 x1 x2 => exec_registerWrite s x0 x1 x2
  | .lowHalfRead x0 => exec_lowHalfRead s x0
  | .highHalfRead x0 => exec_highHalfRead s x0
  | .hbmWindowAccess x0 x1 x2 => exec_hbmWindowAccess s x0 x1 x2
  | .siteCommit x0 x1 => exec_siteCommit s x0 x1
  | .pinTsCommit x0 x1 => exec_pinTsCommit s x0 x1
  | .pinTfCommit x0 x1 => exec_pinTfCommit s x0 x1
  | .wvCommit x0 x1 => exec_wvCommit s x0 x1
  | .siteMemberWrite x0 x1 x2 x3 => exec_siteMemberWrite s x0 x1 x2 x3
  | .dozeEntry x0 => exec_dozeEntry s x0
  | .run x0 => exec_run s x0
  | .preparingEntry x0 => exec_preparingEntry s x0
  | .preparationComplete x0 => exec_preparationComplete s x0
  | .burstStartSeam x0 => exec_burstStartSeam s x0
  | .siteStart x0 => exec_siteStart s x0
  | .eventPinEdge x0 x1 => exec_eventPinEdge s x0 x1
  | .armTimeout x0 => exec_armTimeout s x0
  | .stopAbort x0 => exec_stopAbort s x0
  | .stopPause x0 => exec_stopPause s x0
  | .resume x0 => exec_resume s x0
  | .resumeStart x0 => exec_resumeStart s x0
  | .seamAtBoundary x0 => exec_seamAtBoundary s x0
  | .vectorLaunch x0 => exec_vectorLaunch s x0
  | .burstEnd x0 => exec_burstEnd s x0
  | .drainEnd x0 => exec_drainEnd s x0
  | .conditionChange x0 => exec_conditionChange s x0
  | .gridPoint x0 => exec_gridPoint s x0
  | .seamDeadline x0 => exec_seamDeadline s x0
  | .ucodeLoad x0 x1 => exec_ucodeLoad s x0 x1
  | .ucodeVerify x0 => exec_ucodeVerify s x0
  | .ucodeLoadComplete x0 x1 => exec_ucodeLoadComplete s x0 x1
  | .copyVerify x0 x1 x2 => exec_copyVerify s x0 x1 x2
  | .interruptTake x0 => exec_interruptTake s x0
  | .hardStop x0 => exec_hardStop s x0
  | .halt x0 => exec_halt s x0
  | .emit x0 => exec_emit s x0
  | .emitt x0 => exec_emitt s x0
  | .repeatW x0 => exec_repeatW s x0
  | .idleW x0 => exec_idleW s x0
  | .loopW x0 => exec_loopW s x0
  | .endloop x0 => exec_endloop s x0
  | .call x0 => exec_call s x0
  | .ret x0 => exec_ret s x0
  | .jump x0 => exec_jump s x0
  | .branch x0 => exec_branch s x0
  | .matchW x0 => exec_matchW s x0
  | .matchPassEnd x0 => exec_matchPassEnd s x0
  | .waitcond x0 => exec_waitcond s x0
  | .waittrig x0 => exec_waittrig s x0
  | .waittime x0 => exec_waittime s x0
  | .rdv x0 => exec_rdv s x0
  | .decisionCycle x0 => exec_decisionCycle s x0
  | .waitRelease x0 => exec_waitRelease s x0
  | .waitTimeout x0 => exec_waitTimeout s x0
  | .setc x0 => exec_setc s x0
  | .markW x0 => exec_markW s x0
  | .stamp x0 => exec_stamp s x0
  | .latsrch x0 => exec_latsrch s x0
  | .failmode x0 => exec_failmode s x0
  | .seam x0 => exec_seam s x0
  | .pstream x0 => exec_pstream s x0
  | .ldcnt x0 => exec_ldcnt s x0
  | .badOp x0 => exec_badOp s x0
  | .refillRequest => exec_refillRequest s
  | .lineArrival x0 => exec_lineArrival s x0
  | .tsetLoad x0 x1 => exec_tsetLoad s x0 x1
  | .edgePllLockLoss x0 => exec_edgePllLockLoss s x0
  | .pllReady x0 => exec_pllReady s x0
  | .pllRestartTimeout x0 => exec_pllRestartTimeout s x0
  | .strobe x0 x1 x2 => exec_strobe s x0 x1 x2
  | .failRecordTransfer => exec_failRecordTransfer s
  | .captureBlockWrite => exec_captureBlockWrite s
  | .frSiteClear x0 x1 => exec_frSiteClear s x0 x1
  | .measure x0 => exec_measure s x0
  | .jobArm x0 => exec_jobArm s x0
  | .qualifyingEdge x0 x1 x2 => exec_qualifyingEdge s x0 x1 x2
  | .jobEnd x0 => exec_jobEnd s x0
  | .jobArmTimeout x0 => exec_jobArmTimeout s x0
  | .wavePlay x0 => exec_wavePlay s x0
  | .wavePreparationComplete x0 => exec_wavePreparationComplete s x0
  | .waveStart x0 => exec_waveStart s x0
  | .samplePoint x0 x1 => exec_samplePoint s x0 x1
  | .jumpRequest x0 => exec_jumpRequest s x0
  | .wvJump x0 x1 => exec_wvJump s x0 x1
  | .wvStreamWp x0 x1 => exec_wvStreamWp s x0 x1
  | .waveStop x0 => exec_waveStop s x0
  | .wavePark x0 => exec_wavePark s x0
  | .wavePllLockLoss => exec_wavePllLockLoss s
  | .dacDisable => exec_dacDisable s
  | .slotEnable x0 x1 => exec_slotEnable s x0 x1
  | .slotArm x0 x1 => exec_slotArm s x0 x1
  | .taForce x0 => exec_taForce s x0
  | .firing x0 => exec_firing s x0
  | .forcedFiring x0 => exec_forcedFiring s x0
  | .acquire x0 => exec_acquire s x0
  | .acquisitionArm x0 => exec_acquisitionArm s x0
  | .acquisitionEnd x0 => exec_acquisitionEnd s x0
  | .acquisitionTimeout x0 => exec_acquisitionTimeout s x0
  | .sqTail x0 x1 => exec_sqTail s x0 x1
  | .cqHead x0 x1 => exec_cqHead s x0 x1
  | .contextLoad x0 => exec_contextLoad s x0
  | .contextStore x0 => exec_contextStore s x0
  | .enable x0 => exec_enable s x0
  | .disable x0 => exec_disable s x0
  | .restart x0 => exec_restart s x0
  | .contextCommandComplete => exec_contextCommandComplete s
  | .tokenWrite x0 x1 => exec_tokenWrite s x0 x1
  | .descriptorRead x0 x1 => exec_descriptorRead s x0 x1
  | .dispatch => exec_dispatch s
  | .hostReadError x0 x1 => exec_hostReadError s x0 x1
  | .completionReport x0 => exec_completionReport s x0
  | .completionRecordWrite x0 => exec_completionRecordWrite s x0
  | .msixHoldoffEnd x0 => exec_msixHoldoffEnd s x0
  | .tokenWaitRelease x0 => exec_tokenWaitRelease s x0
  | .tokenWaitTimeout x0 => exec_tokenWaitTimeout s x0
  | .nop x0 => exec_nop s x0
  | .fence x0 => exec_fence s x0
  | .tokenSet x0 => exec_tokenSet s x0
  | .tokenWait x0 => exec_tokenWait s x0
  | .regWrite x0 x1 => exec_regWrite s x0 x1
  | .regRead x0 => exec_regRead s x0
  | .copyIn x0 x1 => exec_copyIn s x0 x1
  | .copyOut x0 => exec_copyOut s x0
  | .fill x0 => exec_fill s x0
  | .peXfer x0 x1 x2 => exec_peXfer s x0 x1 x2
  | .peXferTimeout x0 => exec_peXferTimeout s x0
  | .failFetch x0 x1 => exec_failFetch s x0 x1
  | .captureFetch x0 => exec_captureFetch s x0
  | .calRequestGaps x0 => exec_calRequestGaps s x0
  | .calRequestForce x0 => exec_calRequestForce s x0
  | .calRequestDiscard x0 => exec_calRequestDiscard s x0
  | .calReport x0 => exec_calReport s x0
  | .journalRead x0 => exec_journalRead s x0
  | .twinCheckpoint x0 => exec_twinCheckpoint s x0
  | .functionLevelReset => exec_functionLevelReset s
  | .hbmRequestService x0 x1 => exec_hbmRequestService s x0 x1
  | .refreshIssue x0 => exec_refreshIssue s x0
  | .stackTemperatureRead x0 x1 => exec_stackTemperatureRead s x0 x1
  | .retrain x0 x1 => exec_retrain s x0 x1
  | .oppointWrite x0 => exec_oppointWrite s x0
  | .oppointSwitch => exec_oppointSwitch s
  | .selfRefreshEntry x0 => exec_selfRefreshEntry s x0
  | .selfRefreshExit x0 x1 => exec_selfRefreshExit s x0 x1
  | .patrolScrub x0 => exec_patrolScrub s x0
  | .referenceLoss => exec_referenceLoss s
  | .holdoverExpiry => exec_holdoverExpiry s
  | .corePllLockLoss => exec_corePllLockLoss s
  | .stepCommit x0 => exec_stepCommit s x0
  | .ppsPulse x0 => exec_ppsPulse s x0
  | .disciplineHoldover => exec_disciplineHoldover s
  | .disciplineModeWrite x0 => exec_disciplineModeWrite s x0
  | .ageNowAdvance => exec_ageNowAdvance s
  | .portEnable x0 x1 => exec_portEnable s x0 x1
  | .train x0 x1 => exec_train s x0 x1
  | .trainingEnd x0 x1 x2 x3 x4 => exec_trainingEnd s x0 x1 x2 x3 x4
  | .blockLockLoss x0 => exec_blockLockLoss s x0
  | .fomSample x0 x1 x2 => exec_fomSample s x0 x1 x2
  | .rateMaxWrite x0 x1 => exec_rateMaxWrite s x0 x1
  | .frame x0 x1 x2 x3 x4 x5 => exec_frame s x0 x1 x2 x3 x4 x5
  | .ack x0 x1 x2 => exec_ack s x0 x1 x2
  | .nak x0 x1 x2 => exec_nak s x0 x1 x2
  | .replayTimeout x0 => exec_replayTimeout s x0
  | .timeExchangeStart x0 => exec_timeExchangeStart s x0
  | .treq x0 x1 => exec_treq s x0 x1
  | .timeExchangeComplete x0 x1 x2 x3 x4 x5 x6 => exec_timeExchangeComplete s x0 x1 x2 x3 x4 x5 x6
  | .condPacket x0 x1 x2 x3 x4 => exec_condPacket s x0 x1 x2 x3 x4
  | .startPacket x0 x1 x2 => exec_startPacket s x0 x1 x2
  | .haltPacket x0 x1 x2 => exec_haltPacket s x0 x1 x2
  | .markPacket x0 x1 x2 x3 => exec_markPacket s x0 x1 x2 x3
  | .trigPacket x0 x1 x2 x3 => exec_trigPacket s x0 x1 x2 x3
  | .faultBlock x0 => exec_faultBlock s x0
  | .twinEnable x0 => exec_twinEnable s x0
  | .pairing x0 x1 x2 x3 x4 => exec_pairing s x0 x1 x2 x3 x4
  | .seekTimeout => exec_seekTimeout s
  | .heartbeat => exec_heartbeat s
  | .heartbeatLoss => exec_heartbeatLoss s
  | .leaseExpiry => exec_leaseExpiry s
  | .twinPeerAsserted => exec_twinPeerAsserted s
  | .peerWaitTimeout => exec_peerWaitTimeout s
  | .takeover x0 => exec_takeover s x0
  | .mirrorFrame x0 x1 x2 x3 => exec_mirrorFrame s x0 x1 x2 x3
  | .completionNotice x0 x1 x2 x3 => exec_completionNotice s x0 x1 x2 x3
  | .noticeAck x0 => exec_noticeAck s x0
  | .syncComplete => exec_syncComplete s
  | .modelStep x0 => exec_modelStep s x0
  | .boardSenseRead x0 => exec_boardSenseRead s x0
  | .boundaryWrite x0 => exec_boundaryWrite s x0
  | .boundaryStale => exec_boundaryStale s
  | .sleepRequest x0 => exec_sleepRequest s x0
  | .autoSleep => exec_autoSleep s
  | .sleepEntry => exec_sleepEntry s
  | .wake => exec_wake s
  | .pllIdleStop x0 => exec_pllIdleStop s x0
  | .ballastEnd => exec_ballastEnd s
  | .calibrationStep x0 x1 x2 x3 x4 => exec_calibrationStep s x0 x1 x2 x3 x4
  | .outRetry x0 x1 => exec_outRetry s x0 x1
  | .resultAged x0 x1 => exec_resultAged s x0 x1
  | .forcedWindowOpen x0 => exec_forcedWindowOpen s x0
  | .forcedWindowEnd x0 => exec_forcedWindowEnd s x0
  | .faultEvent => exec_faultEvent s
  | .logWrite => exec_logWrite s
  | .exit x0 => exec_exit s x0
  | .reinit x0 => exec_reinit s x0
  | .parityError => exec_parityError s
  | .fcInject x0 => exec_fcInject s x0
  | .fcAlias x0 => exec_fcAlias s x0
  | .journalWrite x0 => exec_journalWrite s x0
  | .counterWrap x0 => exec_counterWrap s x0
  | .tlCfgWrite x0 x1 => exec_tlCfgWrite s x0 x1
  | .tlCntWrite x0 x1 x2 => exec_tlCntWrite s x0 x1 x2
  | .snap x0 => exec_snap s x0
  | .userPageSnapshot x0 => exec_userPageSnapshot s x0
  | .sampleCapture => exec_sampleCapture s
  | .tlSampleHiRead => exec_tlSampleHiRead s
  | .powerOn x0 => exec_powerOn s x0
  | .fundamentalReset x0 => exec_fundamentalReset s x0
  | .warmReset x0 x1 => exec_warmReset s x0 x1
  | .windowRead x0 => exec_windowRead s x0
  | .windowProgram x0 => exec_windowProgram s x0
  | .windowErase x0 => exec_windowErase s x0
  | .otpCust x0 => exec_otpCust s x0
  | .otpSeal x0 => exec_otpSeal s x0
  | .windowCommandComplete x0 => exec_windowCommandComplete s x0
  | .windowCommandTimeout => exec_windowCommandTimeout s
  | .extest x0 => exec_extest s x0
  | .supplyRemoval => exec_supplyRemoval s
  | .hxPerstDeassertion => exec_hxPerstDeassertion s
  | .referenceReturn => exec_referenceReturn s
  | .twinPeerDeassertion => exec_twinPeerDeassertion s
  | .peerFaultClear x0 => exec_peerFaultClear s x0
  | .imageOpcode x0 => exec_imageOpcode s x0
  | .keepOpenRowClose x0 x1 => exec_keepOpenRowClose s x0 x1
  | .trainingStepEnd x0 => exec_trainingStepEnd s x0

end Sys2Proof.Machine
end

