-- ==== Sys2Proof/Laws/RegFile.lean ====
section
/-!
SUPPORT. The write of a register, field by field (R17 to R20).
-/
namespace Sys2Proof.Machine

theorem Dev.rd_lt_of_wr (d : Dev) (f : Fld) (i v : Nat) : (d.wr f i v).rd f i < 2 ^ f.spec.width := by
  rw [Dev.wr_rd_same]; exact Nat.mod_lt _ (Nat.pow_pos (by decide))

/-- One field's part of a write leaves every other field. -/
theorem Dev.writePart_other (p : Part) (v old : Nat) (run : Bool) (a : Dev × Bool) (x : Fld × Nat × Nat) (g : Fld) (j : Nat)
    (h : (g, j) ≠ (x.1, x.2.1)) : (Dev.writePart p v old run a x).1.rd g j = a.1.rd g j := by
  have h' : ¬(g = x.1 ∧ j = x.2.1) := fun e => h (by rw [e.1, e.2])
  unfold Dev.writePart
  dsimp only
  split
  · rfl
  · simp [Dev.wr_rd, h']
  · rfl
  · split
    · rfl
    · simp [Dev.wr_rd, h']

/-- One field's part of a write. -/
theorem Dev.writePart_self (p : Part) (v old : Nat) (run : Bool) (a : Dev × Bool) (x : Fld × Nat × Nat) :
    (Dev.writePart p v old run a x).1.rd x.1 x.2.1 =
      x.1.written run (a.1.rd x.1 x.2.1) (bits (p.onto old v) x.2.2 x.1.spec.width) (bits (p.onto 0 v) x.2.2 x.1.spec.width)
        (a.1.justSet x.1 x.2.1) := by
  unfold Dev.writePart Fld.written
  dsimp only
  cases x.1.spec.acc <;> dsimp only
  · split
    · rfl
    · simp [bits]
  · simp

/-- One field's part of a write sets no status bit. -/
theorem Dev.writePart_just (p : Part) (v old : Nat) (run : Bool) (a : Dev × Bool) (x : Fld × Nat × Nat) (g : Fld) (j : Nat) :
    (Dev.writePart p v old run a x).1.justSet g j = a.1.justSet g j := by
  unfold Dev.writePart
  dsimp only
  split <;> (try split) <;> simp

/-- A write of fields whose names and units differ: what one of them holds then. -/
theorem Dev.writeParts (p : Part) (v old : Nat) (run : Bool) (l : List (Fld × Nat × Nat)) (a : Dev × Bool)
    (hn : (l.map (fun y => (y.1, y.2.1))).Nodup) :
    (∀ g j, (g, j) ∉ l.map (fun y => (y.1, y.2.1)) → (l.foldl (Dev.writePart p v old run) a).1.rd g j = a.1.rd g j) ∧
    (∀ x ∈ l, (l.foldl (Dev.writePart p v old run) a).1.rd x.1 x.2.1 =
      x.1.written run (a.1.rd x.1 x.2.1) (bits (p.onto old v) x.2.2 x.1.spec.width) (bits (p.onto 0 v) x.2.2 x.1.spec.width)
        (a.1.justSet x.1 x.2.1)) := by
  induction l generalizing a with
  | nil => exact ⟨fun _ _ _ => rfl, fun _ h => nomatch h⟩
  | cons y t ih =>
    simp only [List.map_cons, List.nodup_cons] at hn
    obtain ⟨h1, h2⟩ := ih (Dev.writePart p v old run a y) hn.2
    refine ⟨fun g j hg => ?_, fun x hx => ?_⟩
    · simp only [List.map_cons, List.mem_cons, not_or] at hg
      rw [List.foldl_cons, h1 g j hg.2, Dev.writePart_other _ _ _ _ _ _ _ _ hg.1]
    · rcases List.mem_cons.mp hx with rfl | hx
      · rw [List.foldl_cons, h1 _ _ hn.1, Dev.writePart_self]
      · have hne : (x.1, x.2.1) ≠ (y.1, y.2.1) := by
          intro e; exact hn.1 (e ▸ List.mem_map_of_mem (f := fun y => (y.1, y.2.1)) hx)
        rw [List.foldl_cons, h2 x hx, Dev.writePart_other _ _ _ _ _ _ _ _ hne, Dev.writePart_just]

/-- A refusal changes the register fields of DEV_REFUSED alone (R21). -/
theorem Dev.refuse_rd (d : Dev) (k a : Nat) (g : Fld) (j : Nat)
    (h : g ∉ [Fld.DEV_REFUSED_VALID, .DEV_REFUSED_MORE, .DEV_REFUSED_KIND, .DEV_REFUSED_ADDR]) : (d.refuse k a).rd g j = d.rd g j := by
  simp only [List.mem_cons, List.not_mem_nil, or_false, not_or] at h
  have e : (d.refusedEvent k a).rd g j = d.rd g j := rfl
  unfold Dev.refuse
  dsimp only
  split <;> simp [Dev.set1_rd, Dev.clr, Dev.wr_rd, h, e]

/-- A write of a register leaves every field that is neither its own nor DEV_REFUSED's. -/
theorem Dev.writeReg_rd (d : Dev) (r : RegAt) (p : Part) (v : Nat) (run : Bool)
    (hn : (r.parts.map (fun y => (y.1, y.2.1))).Nodup) (x : Fld × Nat × Nat) (hx : x ∈ r.parts) (hr : x.1 ∉ notedFields) :
    (d.writeReg r p v run).rd x.1 x.2.1 =
      x.1.written (run && (!d.on .FC_STATE_SAFE 0 || r.card.reg == .BR_CTRL)) (d.rd x.1 x.2.1)
        (bits (p.onto (d.regWord r) v) x.2.2 x.1.spec.width) (bits (p.onto 0 v) x.2.2 x.1.spec.width) (d.justSet x.1 x.2.1) := by
  have key := (Dev.writeParts p v (d.regWord r) (run && (!d.on .FC_STATE_SAFE 0 || r.card.reg == .BR_CTRL)) r.parts (d, false) hn).2 x hx
  unfold Dev.writeReg
  dsimp only
  split
  · rw [Dev.refuse_rd _ _ _ _ _ (by simp only [notedFields, List.mem_cons, List.not_mem_nil, or_false, not_or] at hr ⊢; tauto)]
    exact key
  · exact key

/-- The note of a staged write is in the pending fields alone. -/
theorem Dev.stagedWrite_rd (d : Dev) (r : RegAt) (g : Fld) (j : Nat) (h : g ∉ notedFields) : (d.stagedWrite r).rd g j = d.rd g j := by
  simp only [notedFields, List.mem_cons, List.not_mem_nil, or_false, not_or] at h
  unfold Dev.stagedWrite
  split
  · rfl
  · rfl
  · split
    · simp [Dev.wr_rd, h]
    · simp [Dev.set1_rd, h]
  · simp [Dev.set1_rd, h]
  · rfl

end Sys2Proof.Machine
end

