-- ==== Sys2Proof/Tests/Slice0.lean ====
section
/-!
SUPPORT. Tests: what small commands do, words and registers read from the spec's encodings, the checks of `wf`, and for every obligation with hypotheses a
state and operands that meet them (`witness_`), at the bounds of their ranges.
-/
namespace Sys2Proof.Tests
open Sys2Proof.Machine

theorem test_ill_formed_pin : wf (.pinTsCommit 256 0) = false := by decide

/-- The block with the fields of `l` written. -/
def having (d : Dev) (l : List (Fld × Nat × Nat)) : Dev := l.foldl (fun d x => d.wr x.1 x.2.1 x.2.2) d
/-- A part in READY that serves: both stacks, every octet and PLL, a loaded image. -/
def ready : Dev := having { kl := { powered := true } } [(.DEV_UNITS_FINAL, 0, 1), (.KL_STATUS_PSTATE, 0, 2), (.DEV_UNITS_HBM_OK, 0, 3),
  (.DEV_UNITS_OCT_OK, 0, 2 ^ 32 - 1), (.BR_STATUS_QPLL_READY, 0, 15), (.CS_STATUS_LOADED, 0, 1)]
/-- The state of block `d` with nothing listed. -/
def st (d : Dev) : State := { State.reset with dev := d }
/-- A part whose site 0 has pin 0 and the SITE_STATUS.STATE `v`. -/
def site0 (v : Nat) : Dev := having ready [(.SITE_MEMBER_MASK, 0, 1), (.SITE_STATUS_STATE, 0, v)]
/-- The register at BAR0 offset `a`. -/
def regOf (a : Nat) : RegAt := match regHit a with | some (r, _) => r | none => regAt .dev .DEV_ID 0 0

/-! ## Registers -/

/-- The hypotheses of `Obligations.RegisterWritesActByAccessClassAndWidth` hold together here: register write by access and class. -/
theorem witness_RegisterWriteByAccessAndClass :
    (st ready).dev.hostReady = true ∧
    (regHit 0x10_0070 = some (regOf 0x10_0070, 0) ∧ 0x10_0070 % 4 = 0 ∧ (regOf 0x10_0070).card.width = 32 ∧ (regOf 0x10_0070).card.reg ∉ ownWrite ∧
      (Fld.SITE_EVENT_EDGE, 0, Fld.SITE_EVENT_EDGE.spec.lo) ∈ (regOf 0x10_0070).parts ∧ ((regOf 0x10_0070).parts.map (fun y => (y.1, y.2.1))).Nodup ∧
      Fld.SITE_EVENT_EDGE ∉ notedFields) ∧
    (regHit 0x10_0068 = some (regOf 0x10_0068, 0) ∧ 0x10_0068 % 8 = 0 ∧ (regOf 0x10_0068).card.width = 64 ∧ (regOf 0x10_0068).card.reg ∉ ownWrite ∧
      (Fld.SITE_GRID_PERIOD, 0, 0) ∈ (regOf 0x10_0068).parts ∧ Fld.SITE_GRID_PERIOD ∉ notedFields) ∧
    (regHit 0x10_006C = some (regOf 0x10_0068, 4) ∧ ((regOf 0x10_0068).parts.map (fun y => (y.1, y.2.1))).Nodup) := by decide

/-- The hypotheses of `Obligations.RegisterWritesActByAccessClassAndWidth` hold together here: narrow write is discarded and noted. -/
theorem witness_NarrowWriteIsDiscardedAndNoted :
    (st ready).dev.hostReady = true ∧ ¬(1 = 4 ∧ 0x10_0070 % 4 = 0) ∧ ¬(1 = 8 ∧ 0x10_0070 % 8 = 0) ∧ ¬(8 = 4 ∧ 0x10_0074 % 4 = 0) ∧
      ¬(8 = 8 ∧ 0x10_0074 % 8 = 0) := by decide

/-- A part with a latch pending on SITE_GRID of site 0. -/
def latched : Dev := { ready with latch := [(0x10_0068, 8)] }

/-- The hypotheses of `Obligations.HalfReadsLatchAndWindowAccessesReachMemory` hold together here: half reads latch the high half. -/
theorem witness_HalfReadsLatchTheHighHalf :
    (st ready).dev.hostReady = true ∧ ready.responds 0x10_0068 = true ∧ regHit 0x10_0068 = some (regOf 0x10_0068, 0) ∧
      (regOf 0x10_0068).card.width = 64 ∧ (regOf 0x10_0068).card.reg ≠ .TL_SAMPLE_HI ∧
    (latched.hostReady = true ∧ latched.responds 0x10_006C = true ∧ regHit 0x10_006C = some (regOf 0x10_0068, 4) ∧
      tget (fun _ => 0) latched.latch (regOf 0x10_0068).latchKey = 7 + 1) ∧
    (ready.responds 0x10_006C = true ∧ tget (fun _ => 0) ready.latch (regOf 0x10_0068).latchKey = 0) ∧
    (0x10_0068 % 8 = 0 ∧ ready.responds 0x10_0073 = true ∧ regHit 0x10_0073 = some (regOf 0x10_0070, 3)) ∧
    (0x10_0071 % 4 ≤ 1 ∧ ready.responds 0x10_0071 = true ∧ regHit 0x10_0071 = some (regOf 0x10_0070, 1)) := by decide

/-- A part in LOCAL mode. -/
def local_ : Dev := having ready [(.DEV_UNITS_MODE, 0, 1), (.DEV_UNITS_HBM_OK, 0, 0)]

/-- The hypotheses of `Obligations.HalfReadsLatchAndWindowAccessesReachMemory` hold together here: window access maps to pattern memory. -/
theorem witness_WindowAccessMapsToPatternMemory :
    (st ready).dev.hostReady = true ∧ winAccess 64 [(0 : Byte)].length = true ∧ winAccess 0x7FF_FFC0 64 = true ∧ ready.localMode = false ∧
      ready.hbmOk (ready.rd .RG_WIN_BASE_ADDR 0 * 2 ^ 20 + 0x7FF_FFC0) 64 = true ∧ local_.hostReady = true ∧ local_.localMode = true ∧
      winAccess 0x7FF_FFFF 2 = false ∧ 0x7FF_FFFF < 2 ^ 27 ∧ ready.rd .TL_CFG_GROUP (511 % 256 % 64) = 0 ∧ ([1, 2, 3, 4] : List Byte).length = 4 := by decide

/-- The hypotheses of `Obligations.SiteAndPinCommitsMoveTheirGroups` hold together here: site commit moves condition group. -/
theorem witness_SiteCommitMovesConditionGroup :
    ((site0 1).upSite 0 (fun S => { S with condPend := true })).hostReady = true ∧
      ((site0 1).upSite 0 (fun S => { S with condPend := true })).siteRunning 0 = false ∧
      (((site0 1).upSite 0 (fun S => { S with condPend := true })).site 0).condPend = true ∧ bitAt (1 : Word).toNat 0 = true ∧
      (site0 5).hostReady = true ∧ (site0 5).siteRunning 0 = true ∧ bitAt (2 : Word).toNat 0 = false ∧ ((site0 1).site 63).condPend = false := by
  decide

/-- Sets 0 and 31 of pin 0 pending, set 31 with a period below the least. -/
def pended : Dev := having (site0 1) [(.PIN_TS_PENDING_SET, 0, 2 ^ 31 + 1), (.PIN_TS_PERIOD_PERIOD, tsKey 0 31, 1)]

/-- The hypotheses of `Obligations.TimingSetCommitMovesCheckedSets` hold together. -/
theorem witness_TimingSetCommitMovesCheckedSets :
    pended.hostReady = true ∧ pended.pinRunning 0 = false ∧ bitAt (0x80000001 : Word).toNat 0 = true ∧ pended.tsPending 0 0 = true ∧
      pended.tsCheck 0 0 = 0 ∧ bitAt (0x80000001 : Word).toNat 31 = true ∧ pended.tsPending 0 31 = true ∧ pended.tsCheck 0 31 ≠ 0 ∧
      bitAt (0x80000001 : Word).toNat 1 = false ∧ (site0 5).hostReady = true ∧ (site0 5).pinRunning 0 = true := by decide

/-- The hypotheses of `Obligations.SiteAndPinCommitsMoveTheirGroups` hold together here: deskew and tone commits move their groups. -/
theorem witness_DeskewAndToneCommitsMoveTheirGroups :
    (having ready [(.PIN_TF_STATUS_DESKEW_PENDING, 255, 1)]).hostReady = true ∧ (having ready [(.PIN_TF_STATUS_DESKEW_PENDING, 255, 1)]).pinRunning 255 = false ∧
      (having ready [(.PIN_TF_STATUS_DESKEW_PENDING, 255, 1)]).on .PIN_TF_STATUS_DESKEW_PENDING 255 = true ∧
      (having ready [(.WV_STATUS_TONE_PENDING, 7, 1)]).hostReady = true ∧ (having ready [(.WV_STATUS_TONE_PENDING, 7, 1)]).wvRunning 7 = false ∧
      (having ready [(.WV_STATUS_TONE_PENDING, 7, 1)]).on .WV_STATUS_TONE_PENDING 7 = true := by decide

/-! ## Sites -/

/-- The hypotheses of `Obligations.MemberAndFailStoreWritesAct` hold together here: member write takes only free pins. -/
theorem witness_MemberWriteTakesOnlyFreePins :
    (site0 1).hostReady = true ∧ (site0 1).siteRunning 63 = false ∧
      Part.whole.onto ((site0 1).rd .SITE_MEMBER_MASK (63 * 4 + 0)) (3 : Word).toNat ≠ (site0 1).rd .SITE_MEMBER_MASK (63 * 4 + 0) ∧
      bitAt ((site0 1).rd .SITE_MEMBER_MASK (0 * 4 + 0)) 0 = true ∧
      (site0 5).siteRunning 0 = true ∧ (site0 5).on .FC_STATE_SAFE 0 = false ∧
      Part.high.onto ((site0 5).rd .SITE_MEMBER_MASK 0) (3 : Word).toNat ≠ (site0 5).rd .SITE_MEMBER_MASK 0 := by decide

/-- The hypotheses of `Obligations.MemberAndFailStoreWritesAct` hold together here: fail store clear discards records. -/
theorem witness_FailStoreClearDiscardsRecords :
    (site0 1).hostReady = true ∧ (site0 1).siteRunning 0 = false ∧ bitAt (2 : Word).toNat 1 = true ∧ (site0 7).hostReady = true ∧
      (site0 7).siteRunning 0 = true ∧ (site0 7).on .FC_STATE_SAFE 0 = false := by decide

/-- Site 0 IDLE for longer than its DOZE delay. -/
def sleepy : Dev := { having (site0 1) [(.SITE_CTRL_DOZE_EN, 0, 1)] with now := secs 100 }

/-- The hypotheses of `Obligations.DozeAndArmTimeoutReleaseTheSite` hold together here: doze entry empties member buffers. -/
theorem witness_DozeEntryEmptiesMemberBuffers :
    sleepy.asleep = false ∧ sleepy.siteState 0 = SiteState.IDLE ∧ sleepy.on .SITE_CTRL_DOZE_EN 0 = true ∧
      (sleepy.site 0).idleSince + us (sleepy.rd .SITE_DOZE_DELAY_US 0) ≤ sleepy.now ∧ 0 ∈ sleepy.members 0 := by decide

/-- A descriptor with opcode `op` for unit `t`, with `f` at body byte `b`. -/
def desc (op t : Nat) (fs : List (Nat × Nat)) : Nat := op + t * 2 ^ 16 + (fs.map (fun x => x.2 <<< (8 * x.1))).sum
/-- A tracker entry of ring 0. -/
def entry (id : Nat) (d : Nat) : Entry := { id := id, ring := 0, idx := id, desc := d }
/-- Part `d` with the entries `l` in its tracker. -/
def tracking (d : Dev) (l : List Entry) : Dev := { d with tracker := l }
/-- A RUN of site 0: a program of 4 words at 4096, START mode `mode`, start time `t`. -/
def run0 (mode t : Nat) : Entry := entry 1 (desc 0x21 0 [(8, 4096), (16, 4), (20, mode), (24, t)])

/-- The hypotheses of `Obligations.RunsWaitAreRefusedOrPrepare` hold together here: run waits or is refused. -/
theorem witness_RunWaitsOrIsRefused :
    (tracking ready [run0 0 0]).open? 1 0x21 = some (run0 0 0) ∧ ready.siteState (descTarget (run0 0 0).desc) = SiteState.EMPTY ∧
      (tracking (site0 1) [run0 3 0]).runRefused 0 (run0 3 0) = some Status.INVALID ∧ (site0 1).cs.load = none ∧
      (tracking (site0 2) [run0 0 0]).runRefused 0 (run0 0 0) = none ∧ (site0 2).hot = false ∧
      (having (site0 2) [(.KL_STATUS_HOT, 0, 1)]).hot = true ∧ (site0 5).siteState 0 = SiteState.RUNNING := by decide

/-- The RUN that waits at its site. -/
def waiting0 (mode : Nat) : Entry := { run0 mode 0 with begun := true }
/-- A RUN of site 0 whose program lies outside the memory. -/
def bad0 : Entry := { entry 1 (desc 0x21 0 [(8, 2 ^ 50), (16, 4)]) with begun := true }

/-- The hypotheses of `Obligations.RunsWaitAreRefusedOrPrepare` hold together here: preparing entry takes the run. -/
theorem witness_PreparingEntryTakesTheRun :
    (tracking (site0 1) [waiting0 0]).siteState 0 = SiteState.IDLE ∧ (tracking (site0 1) [waiting0 0]).nextRun 0 = some (waiting0 0) ∧
      descOp (waiting0 0).desc = 0x21 ∧ (tracking (site0 1) [waiting0 3]).nextRun 0 = some (waiting0 3) ∧
      (tracking (site0 1) [waiting0 3]).runStatus 0 (waiting0 3) = some Status.INVALID ∧ (tracking (site0 1) [waiting0 3]).entry? 1 = some (waiting0 3) ∧
      (tracking (site0 1) [waiting0 0]).runStatus 0 (waiting0 0) = none ∧ (tracking (site0 1) [waiting0 0]).entry? 1 = some (waiting0 0) ∧
      Dev.prepBad Mems.blank (tracking (site0 1) [waiting0 0]) 0 (waiting0 0) = false ∧
      (tracking (site0 2) [bad0]).nextRun 0 = some bad0 ∧ (tracking (site0 2) [bad0]).runStatus 0 bad0 = none ∧
      Dev.prepBad Mems.blank (tracking (site0 2) [bad0]) 0 bad0 = true := by decide

/-- Site 0 in state `v` with its RUN `x`; its pin has taken what it needs. -/
def held0 (v : Nat) (x : Entry) : Dev :=
  ((tracking (site0 v) [{ x with started := true }]).upSite 0 (fun S => { S with run := some 1 })).upPin 0 (fun P => { P with fetchE := 1 })

/-- The hypotheses of `Obligations.PreparedSiteStartsOrWaits` hold together. -/
theorem witness_PreparedSiteStartsOrWaits :
    ∀ mode, mode < 4 → let x := { waiting0 mode with started := true }
      let d := held0 3 (waiting0 mode)
      d.siteState 0 = SiteState.PREPARING ∧ (d.site 0).run = some x.id ∧ d.entry? x.id = some x ∧ x.done = false ∧ (d.site 0).early = none ∧ (d.site 0).start = none ∧
      (d.members 0).all d.pinPrepared = true ∧ (d.siteLanes 0).all d.homeLoaded = true ∧ d.awake 0 = true ∧ d.badHeads (d.members 0) = [] ∧
      descField x.desc 20 0 2 = mode := by decide

/-- Site 0 ARMED with a start at 0, all its groups pending. -/
def startDue : Dev :=
  ((having (held0 4 (waiting0 1)) [(.PIN_TF_STATUS_DESKEW_PENDING, 0, 1), (.PIN_TS_PENDING_SET, 0, 1)]).upSite 0 (fun S => { S with
    start := some 0, condPend := true })).upPin 0 (fun P => { P with trimBand := some 7 })

/-- The hypotheses of `Obligations.SiteStartsAtVectorZeroAfterItsSeam` hold together here: start seam moves all pending groups. -/
theorem witness_StartSeamMovesAllPendingGroups :
    startDue.siteState 0 = SiteState.ARMED ∧ (startDue.site 0).early = none ∧ (startDue.site 0).start = some 0 ∧ (startDue.site 0).startSeam = false ∧ 0 ≤ startDue.bed + ns 100 ∧
      startDue.cycNow.staged = [] ∧ (startDue.site 0).condPend = true ∧ 0 ∈ startDue.members 0 ∧ startDue.on .PIN_TF_STATUS_DESKEW_PENDING 0 = true ∧
      startDue.tsPending 0 0 = true ∧ startDue.loadingSets 0 0 = false ∧ startDue.tsCheck 0 0 = 0 ∧ (startDue.pin 0).trimBand = some 7 := by decide

/-- The hypotheses of `Obligations.SiteStartsAtVectorZeroAfterItsSeam` hold together here: site start begins vector zero. -/
theorem witness_SiteStartBeginsVectorZero :
    startDue.siteState 0 = SiteState.ARMED ∧ (startDue.site 0).start = some 0 ∧ 0 ≤ startDue.bed ∧ startDue.badHeads (startDue.members 0) = [] ∧
      (startDue.site 0).run = some ({ waiting0 1 with started := true } : Entry).id ∧
      startDue.entry? 1 = some { waiting0 1 with started := true } ∧ startDue.cycNow.staged = [] := by decide

/-- Site 0 ARMED for longer than its timeout. -/
def timedOut0 : Dev := { having (held0 4 (waiting0 2)) [(.SITE_ARM_TIMEOUT_MS, 0, 1)] with now := ms 1 }

/-- The hypotheses of `Obligations.DozeAndArmTimeoutReleaseTheSite` hold together here: arm timeout ends the run. -/
theorem witness_ArmTimeoutEndsTheRun :
    timedOut0.siteState 0 = SiteState.ARMED ∧ (timedOut0.site 0).early = none ∧ timedOut0.rd .SITE_ARM_TIMEOUT_MS 0 ≠ 0 ∧
      (timedOut0.site 0).armedAt + ms (timedOut0.rd .SITE_ARM_TIMEOUT_MS 0) ≤ timedOut0.now ∧ (timedOut0.site 0).run = some 1 ∧
      timedOut0.entry? 1 = some { waiting0 2 with started := true } := by decide

/-- A STOP of site 0. -/
def stop0 (mode : Nat) : Entry := entry 2 (desc 0x22 0 [(8, mode)])
/-- Site 0 in state `v` with its RUN in hand, and the descriptor `x` behind it. -/
def with0 (v : Nat) (x : Entry) : Dev :=
  (tracking (site0 v) [{ waiting0 1 with started := true }, x]).upSite 0 (fun S => { S with run := some 1 })
/-- The same with a start time. -/
def startAt (v : Nat) (x : Entry) (t : Nat) : Dev := (with0 v x).upSite 0 (fun S => { S with start := some t })

/-- The hypotheses of `Obligations.StopWithdrawsDrainsOrPauses` hold together here: stop abort withdraws or drains. -/
theorem witness_StopAbortWithdrawsOrDrains :
    (∀ v, v < 8 → (startAt v (stop0 0) 1).stopOf 2 0 = some (stop0 0) ∧ (startAt v (stop0 0) 1).siteState (descTarget (stop0 0).desc) = v ∧
      ((startAt v (stop0 0) 1).site 0).start = some 1 ∧ (startAt v (stop0 0) 1).bed < 1 ∧ ((startAt v (stop0 0) 1).site 0).run = some 1 ∧
      (startAt v (stop0 0) 1).entry? 1 = some { waiting0 1 with started := true }) ∧
    (startAt 4 (stop0 0) 0).stopOf 2 0 = some (stop0 0) ∧ (startAt 4 (stop0 0) 0).cycNow.staged = [] ∧
      (startAt 4 (stop0 0) 0).siteState 0 = SiteState.ARMED ∧ ((startAt 4 (stop0 0) 0).site 0).start = some 0 ∧ 0 ≤ (startAt 4 (stop0 0) 0).bed ∧
      (startAt 4 (stop0 0) 0).badHeads ((startAt 4 (stop0 0) 0).members 0) = [] ∧ ((startAt 4 (stop0 0) 0).site 0).early = none ∧
    (let d := (startAt 4 (stop0 0) 1).upSite 0 (fun S => { S with early := some (5, Status.WITHDRAWN), stops := [2] })
     (st d).pending = [] ∧ (∀ m, m < 64 → d.spanHaltDue m d.bed = false) ∧ d.sites.filter (fun x => x.2.early.isSome) = [(0, d.site 0)] ∧
       (d.site 0).early = some (5, Status.WITHDRAWN) ∧ (d.site 0).run = some 1 ∧ d.entry? 1 = some { waiting0 1 with started := true } ∧
       1 ∉ (d.site 0).stops ∧ d.entry? 2 = some (stop0 0) ∧ (stop0 0).done = false) := by decide

/-- The hypotheses of `Obligations.StopWithdrawsDrainsOrPauses` hold together here: stop pause waits for a seam. -/
theorem witness_StopPauseWaitsForASeam :
    (∀ v, v < 8 → (startAt v (stop0 1) 1).stopOf 2 1 = some (stop0 1) ∧ (startAt v (stop0 1) 1).siteState (descTarget (stop0 1).desc) = v ∧
      (startAt v (stop0 1) 1).bed < 1 ∧ (startAt v (stop0 1) 1).privatePins 0 = [] ∧ (startAt v (stop0 1) 1).inSpan 0 = false) ∧
    (having (startAt 5 (stop0 1) 1) [(.SITE_CTRL_SPAN_ROLE, 0, 1)]).inSpan 0 = true ∧
    (having (startAt 7 (stop0 1) 1) [(.SITE_PRIVATE_MASK, 0, 1)]).privatePins 0 ≠ [] := by decide

/-- A RESUME of site 0. -/
def resume0 (mode : Nat) : Entry := entry 2 (desc 0x23 0 [(8, mode), (16, 100)])

/-- The hypotheses of `Obligations.ResumeRunsAPausedSiteAgain` hold together here: resume sets the start of a paused site. -/
theorem witness_ResumeSetsTheStartOfAPausedSite :
    (∀ mode, mode < 3 → (with0 6 (resume0 mode)).open? 2 0x23 = some (resume0 mode) ∧ (resume0 mode).started = false ∧
      (with0 6 (resume0 mode)).behind (resume0 mode) = false ∧
      ((with0 6 (resume0 mode)).members (descTarget (resume0 mode).desc)).all (fun p => !((with0 6 (resume0 mode)).pin p).forced) = true ∧
      descField (resume0 mode).desc 8 0 2 = mode) ∧
    (with0 6 (resume0 0)).siteState 0 = SiteState.PAUSED ∧ ((with0 6 (resume0 0)).site 0).resume = none ∧ (with0 6 (resume0 0)).hot = false ∧
      (with0 5 (resume0 0)).siteState 0 ≠ SiteState.PAUSED ∧ (having (with0 6 (resume0 0)) [(.KL_STATUS_HOT, 0, 1)]).hot = true ∧
      (with0 6 (resume0 1)).startTime (descField (resume0 1).desc 16 0 64) < (with0 6 (resume0 1)).bed + ns 200 := by decide

/-- Site 0 PAUSED, a RESUME due. -/
def resuming0 : Dev := (with0 6 { resume0 0 with started := true }).upSite 0 (fun S => { S with resume := some 2, resumeAt := some 0 })

/-- The hypotheses of `Obligations.ResumeRunsAPausedSiteAgain` hold together here: resume start runs the site again. -/
theorem witness_ResumeStartRunsTheSiteAgain :
    resuming0.siteState 0 = SiteState.PAUSED ∧ (resuming0.site 0).resumeAt = some 0 ∧ 0 ≤ resuming0.bed ∧ (resuming0.site 0).resume = some 2 ∧
      resuming0.entry? 2 = some { resume0 0 with started := true } ∧ ({ resume0 0 with started := true } : Entry).done = false ∧
      0 ∈ resuming0.members 0 := by decide

/-- A stream vector. -/
def vec0 : Vec := { code := 0, ui := 0, burst := false, tset := 0, waddr := 0, op := 1, capt := false, maskf := false, stretch := false, counts := true,
                    seam := 0, grid := none, ctl := [], marks := [], bad := false, endMatch := false }
/-- Site 0 RUNNING with `v` at the head of its pin's FIFO. -/
def fed0 (v : Vec) : Dev := (with0 5 (stop0 1)).upPin 0 (fun P => { P with fifo := [v, vec0] })

/-- The hypotheses of `Obligations.SeamAtBoundaryMovesGroupsOrPauses` hold together. -/
theorem witness_SeamAtBoundaryMovesGroupsOrPauses :
    let d := ((having (fed0 { vec0 with seam := 1 }) [(.PIN_TF_STATUS_DESKEW_PENDING, 0, 1), (.PIN_TS_PENDING_SET, 0, 1)]).upSite 0 (fun S => { S with
      pausePend := true, stops := [2] }))
    d.laneSite 0 = some 0 ∧ d.lanePin 0 = some 0 ∧ (d.pin 0).fifo.head? = some { vec0 with seam := 1 } ∧ d.siteState 0 = SiteState.RUNNING ∧
      (d.pin 0).tNext ≤ d.bed + ns 12 ∧ d.cycNow.staged = [] ∧ d.seamp 0 = true ∧ (d.site 0).pausePend = true ∧ d.loadingSets 0 0 = false ∧
      d.tsCheck 0 0 = 0 ∧ d.entry? 2 = some (stop0 1) ∧
    (let d := (fed0 { vec0 with grid := some (ns 100) }).upLane 0 (fun L => { L with rests := [(0, 2)] })
     (d.lane 0).rests = [(0, 2)] ∧ 0 ≤ d.bed + ns 12 ∧ (d.lane 0).seamNext = 0 ∧ (d.pin 0).fifo.head? = some { vec0 with grid := some (ns 100) } ∧
       (d.pin 0).tNext ≤ d.bed + ns 12 ∧ d.cycNow.staged = []) ∧
    (fed0 { vec0 with seam := 1 }).seamp 0 = false := by decide

/-- Site 0 whose program has halted and whose last vector has ended. -/
def halted0 : Dev := (with0 5 (stop0 1)).upLane 0 (fun L => { L with phase := .halted })

/-- The hypotheses of `Obligations.BurstEndDrainsAndCompletesTheRun` hold together here: burst end drains the site. -/
theorem witness_BurstEndDrainsTheSite :
    halted0.siteState 0 = SiteState.RUNNING ∧ halted0.failStopDue 0 halted0.bed = false ∧ halted0.lanePin 0 = some 0 ∧ halted0.programEnded 0 = true ∧
      (halted0.lane 0).seamNext = 0 ∧ (halted0.lane 0).rests = [] ∧ halted0.cycNow.staged = [] ∧ 0 ∈ halted0.siteLanes 0 ∧ (halted0.lane 0).upc = none ∧
    (let d := (with0 7 (stop0 1)).upSite 0 (fun S => { S with endAt := some 0 }) |>.upLane 0 (fun L => { L with upc := some 0x10, hand := some 0 })
     d.siteState 0 = SiteState.DRAINING ∧ (d.site 0).endAt = some 0 ∧ 0 ∈ d.siteLanes 0 ∧ (d.lane 0).upc ≠ none ∧ (d.lane 0).hand = some 0) ∧
    (let d := (with0 7 (stop0 1)).upSite 0 (fun S => { S with endAt := some 0 })
     d.siteState 0 = SiteState.DRAINING ∧ (d.site 0).ended = false ∧ (d.site 0).endAt = some 0 ∧ 0 ≤ d.bed ∧ d.cycNow.staged = []) ∧
    (let d := (with0 6 (stop0 1)).upSite 0 (fun S => { S with failStop := some 0 })
     d.siteState 0 = SiteState.PAUSED ∧ d.failStopDue 0 d.bed = true) := by decide

/-- Site 0 drained, a STOP waiting for its end. -/
def drained0 : Dev := (with0 7 { stop0 0 with started := true }).upSite 0 (fun S => { S with ended := true, stops := [2] })

/-- The hypotheses of `Obligations.BurstEndDrainsAndCompletesTheRun` hold together here: drain end completes the run. -/
theorem witness_DrainEndCompletesTheRun :
    drained0.siteState 0 = SiteState.DRAINING ∧ (drained0.site 0).ended = true ∧
      (∀ p, p ∈ drained0.members 0 → (drained0.csq p).exps = [] ∧ (drained0.csq p).search = none ∧ (drained0.csq p).cap = none ∧ (drained0.csq p).endNow = false) ∧
      drained0.queuesEmpty 0 = true ∧ (drained0.failSite 0).run = none ∧ (drained0.site 0).run = some 1 ∧
      drained0.entry? 1 = some { waiting0 1 with started := true } ∧ 1 ∉ (drained0.site 0).stops ∧ (drained0.site 0).resume = none ∧
      drained0.entry? 2 = some { stop0 0 with started := true } := by decide

/-- The hypotheses of `Obligations.VectorsAreDrivenStretchedOrHalted` hold together here: launch drives the head vectors. -/
theorem witness_LaunchDrivesTheHeadVectors :
    (fed0 vec0).laneSite 0 = some 0 ∧ (fed0 vec0).lanePin 0 = some 0 ∧ (fed0 vec0).siteState 0 = SiteState.RUNNING ∧
      ((fed0 vec0).pin 0).tNext ≤ (fed0 vec0).bed + ns 12 ∧ (fed0 vec0).endedBy 0 0 ((fed0 vec0).pin 0).tNext = false ∧
      (fed0 vec0).failStopDue 0 (((fed0 vec0).pin 0).tNext - ns 12) = false ∧ (fed0 vec0).spanHaltDue 0 (((fed0 vec0).pin 0).tNext - ns 12) = false ∧
      ((fed0 vec0).pin 0).fifo.head? = some vec0 ∧ vec0.seam = 0 ∧ vec0.grid = none ∧ vec0.enter / cycleTicks ≤ (((fed0 vec0).pin 0).tNext - ns 12) / cycleTicks ∧
      (fed0 vec0).badHeads ((fed0 vec0).lanePins 0) = [] ∧ (∀ q, q ∈ (fed0 vec0).lanePins 0 → ((fed0 vec0).pin q).fifo ≠ []) := by decide

/-- Site 0 RUNNING in an EMIT whose data is missing; the stream's entry has not been copied. -/
def starved0 (p : Nat) : Dev := (having (with0 5 (stop0 1)) [(.PIN_STREAM_LEN_ENTRIES, 0, 4), (.SITE_CTRL_UNDERRUN_POL, 0, p), (.SITE_STRETCH_MAX_COUNT, 0, 5)]).upLane 0
  (fun L => { L with phase := .emit, left := 4, len := 1, words := [(0, [1 * 2 ^ 58 + 2 ^ 51 + 4])] })

/-- The hypotheses of `Obligations.VectorsAreDrivenStretchedOrHalted` hold together here: missing data stretches or halts. -/
theorem witness_MissingDataStretchesOrHalts :
    ∀ p, p < 2 → let d := starved0 p
      d.laneSite 0 = some 0 ∧ d.lanePin 0 = some 0 ∧ d.siteState 0 = SiteState.RUNNING ∧ d.nextAt 0 0 ≤ d.bed + ns 12 ∧
      d.endedBy 0 0 (d.nextAt 0 0) = false ∧ d.failStopDue 0 (d.nextAt 0 0 - ns 12) = false ∧ d.spanHaltDue 0 (d.nextAt 0 0 - ns 12) = false ∧
      (∀ k, k ∈ d.siteLanes 0 → k = 0) ∧
      ((Dev.feed Mems.blank d 0 d.bed).pin 0).fifo = [] ∧ (d.pin 0).fifo = [] ∧ (d.lane 0).fault = none ∧ (d.lane 0).phase = .emit ∧
      (d.lane 0).kind ≠ .k ∧ (d.lane 0).kind ≠ .idle ∧ Dev.missing Mems.blank d 0 = [0] ∧
      (decide (0 < 64) && d.on .SITE_CTRL_UNDERRUN_POL 0 && wStretch (Dev.curWord Mems.blank d 0) && (d.privatePins 0).isEmpty && !d.inSpan 0 &&
        decide ((d.site 0).stretching < d.rd .SITE_STRETCH_MAX_COUNT 0)) = decide (p = 1) := by decide

/-- Site 0 with a set and a clear of condition 5 due in cycle 0. -/
def posted0 : Dev := (site0 5).upSite 0 (fun S => { S with conds := [⟨0, 256 + 5, true, false, 0⟩, ⟨0, 256 + 5, false, false, 0⟩, ⟨7, 2, true, false, 0⟩] })

/-- The hypotheses of `Obligations.RunningEventsChangeConditionsAndPins` hold together here: condition change sets win over clears. -/
theorem witness_ConditionChangeSetsWinOverClears :
    posted0.asleep = false ∧
      (∃ x, x ∈ (posted0.site 0).conds.filter (fun e => decide (e.cycle ≤ posted0.bed / cycleTicks)) ∧ x.cycle = 0) ∧
      (∀ x, x ∈ (posted0.site 0).conds.filter (fun e => decide (e.cycle ≤ posted0.bed / cycleTicks)) → 0 ≤ x.cycle) := by decide

/-- The hypotheses of `Obligations.RunningEventsChangeConditionsAndPins` hold together here: grid point starts the holding pins. -/
theorem witness_GridPointStartsTheHoldingPins :
    let d := fed0 { vec0 with grid := some (ns 12) }
    d.laneSite 0 = some 0 ∧ d.lanePin 0 = some 0 ∧ (d.pin 0).fifo.head? = some { vec0 with grid := some (ns 12) } ∧ (d.lane 0).rests = [] ∧ d.siteState 0 = SiteState.RUNNING ∧
      ns 12 ≤ d.bed + ns 12 ∧ d.endedBy 0 0 (ns 12) = false := by decide

/-- The hypotheses of `Obligations.RunningEventsChangeConditionsAndPins` hold together here: seam deadline marks results stale. -/
theorem witness_SeamDeadlineMarksResultsStale :
    let d : Dev := { (site0 5).upSite 0 (fun S => { S with seamClock := some 0 }) with now := secs 100 }
    (d.site 0).seamClock = some 0 ∧ d.siteRunning 0 = true ∧ (d.site 0).seamNoted = false ∧ 0 + ns (d.rd .SITE_SEAM_DEADLINE_NS 0) ≤ d.now := by
  decide

/-- The hypotheses of `Obligations.EventEdgeStartsArmedSites` hold together. -/
theorem witness_EventEdgeStartsArmedSites :
    let d := (having (site0 4) [(.SITE_EVENT_EV_SEL, 0, 7)]).upSite 0 (fun S => { S with mode := 2 })
    d.asleep = false ∧ d.edgeQualifies 0 7 true = true ∧ d.siteState 0 = SiteState.ARMED ∧ (d.site 0).mode = 2 ∧ (d.site 0).start = none ∧
      (having (site0 5) [(.SITE_EVENT_EV_SEL, 0, 7)]).edgeQualifies 0 7 true = true ∧ (site0 5).edgeQualifies 0 7 true = false ∧
      (site0 5).siteState 0 ≠ SiteState.ARMED := by decide

/-! ## The Control Store -/

/-- A UCODE_RELOAD. -/
def reload (mode : Nat) : Entry := entry 1 (desc 0x50 0 [(16, 16), (20, mode)])

/-- The hypotheses of `Obligations.UcodeLoadChecksThenInstallsTheImage` hold together here: ucode load checks before writing. -/
theorem witness_UcodeLoadChecksBeforeWriting :
    (tracking ready [reload 0]).reload? 1 0 = some (reload 0) ∧ (tracking ready [reload 0]).anyRunning = false ∧ (tracking (site0 5) [reload 0]).anyRunning = true ∧
      (tracking (site0 5) [reload 0]).reload? 1 0 = some (reload 0) := by decide

/-- The hypotheses of `Obligations.UcodeLoadChecksThenInstallsTheImage` hold together here: ucode load complete installs the image. -/
theorem witness_UcodeLoadCompleteInstallsTheImage :
    let d : Dev := { tracking ready [{ reload 0 with started := true }] with cs := { load := some 1 } }
    d.cs.load = some 1 ∧ d.entry? 1 = some { reload 0 with started := true } ∧ ({ reload 0 with started := true } : Entry).done = false ∧
      (∀ k, k < 32 → (bitAt 1 k && bitAt 0 k) = false) := by decide

/-- Copies 1 to 31 hold the image. -/
def copied : Dev := having ready [(.CS_STATUS_COPY_OK, 0, 2 ^ 32 - 2)]

/-- The hypotheses of `Obligations.UcodeVerifyRepairsOrLosesCopies` hold together here: ucode verify begins at the first copy. -/
theorem witness_UcodeVerifyBeginsAtTheFirstCopy :
    (tracking copied [reload 1]).reload? 1 1 = some (reload 1) ∧
      (bitAt ((tracking copied [reload 1]).rd .DEV_UNITS_OCT_OK 0) 1 && bitAt ((tracking copied [reload 1]).rd .CS_STATUS_COPY_OK 0) 1) = true ∧
      (tracking copied [reload 1]).clusterIdle 1 = true ∧
      (∀ j, j < 1 → (bitAt ((tracking copied [reload 1]).rd .DEV_UNITS_OCT_OK 0) j && bitAt ((tracking copied [reload 1]).rd .CS_STATUS_COPY_OK 0) j) = false) ∧
      (tracking ready [reload 1]).reload? 1 1 = some (reload 1) ∧
      (∀ j, j < 32 → (bitAt ((tracking ready [reload 1]).rd .DEV_UNITS_OCT_OK 0) j && bitAt ((tracking ready [reload 1]).rd .CS_STATUS_COPY_OK 0) j) = false) := by
  decide

/-- The hypotheses of `Obligations.UcodeVerifyRepairsOrLosesCopies` hold together here: copy verify repairs or loses the copy. -/
theorem witness_CopyVerifyRepairsOrLosesTheCopy :
    let d : Dev := { copied with cs := { wanted := 2 ^ 31 } }
    d.asleep = false ∧ d.verifyDue 31 = true ∧ bitAt (d.rd .CS_STATUS_COPY_OK 0) 31 = true ∧ d.clusterIdle 31 = true ∧ d.cs.load = none ∧
      d.cs.same 31 = true ∧ ({ wanted := 1, differs := [(31, [(0, 1)])] } : CtlStore).same 31 = false := by decide

/-- Copy 0's image is SSI 4.2 with every opcode valid. -/
def ssi (d : Dev) : Dev :=
  { having d [(.CS_IMAGE_SLOT, 0, 0), (.CS_IMAGE_MAJOR, 0, 4), (.CS_IMAGE_MINOR, 0, 2)] with
    cs := { d.cs with dsq := (List.range 64).map (fun i => (i, 2 ^ 15)), csq := (List.range 64).map (fun i => (i, 2 ^ 15)) } }
/-- Site 0 RUNNING with lane 0 changed by `f`. -/
def laned (f : Lane → Lane) : Dev := (ssi (with0 5 (stop0 1))).upLane 0 f

/-- The hypotheses of `Obligations.InterruptsAndHardStopsActOnTheSequencer` hold together here: interrupts stop or suspend the sequencer. -/
theorem witness_InterruptsStopOrSuspendTheSequencer :
    (let d := laned (fun L => { L with irqs := [(0, 0), (1, 0)] })
     d.atYield 0 = true ∧ (d.lane 0).hand ≠ some 0 ∧ (0, 0) ∈ (d.lane 0).irqs ∧ d.native 0 = true ∧ 0 ∈ d.lanePins 0) ∧
    (let d := (with0 5 (stop0 1)).upLane 0 (fun L => { L with irqs := [(2, 0), (1, 0)], upc := some 5, yields := true })
     d.atYield 0 = true ∧ (d.lane 0).hand = none ∧ (∀ i, i ∈ (d.lane 0).irqs → i.1 ≠ 0) ∧ ((d.lane 0).irqs.map (·.1)).min? = some 1 ∧ d.native 0 = false) ∧
    ((laned (fun L => { L with upc := some 5, irqs := [(0, 0)] })).atYield 0 = false ∧
      ((laned (fun L => { L with hand := some 1, irqs := [(2, 0)] })).lane 0).hand ≠ none) ∧
    (let d := (site0 5).upCsq 255 (fun C => { C with micro := true, yields := true, irqs := [(0, 0)], upc := some 0x20 })
     (d.csq 255).micro = true ∧ (d.csq 255).yields = true ∧ (d.csq 255).macc = [] ∧ (d.csq 255).hand = none ∧ (d.csq 255).irqs ≠ [] ∧ (d.csq 255).upc = some 0x20) := by decide

/-- The hypotheses of `Obligations.InterruptsAndHardStopsActOnTheSequencer` hold together here: hard stop resets a late sequencer. -/
theorem witness_HardStopResetsALateSequencer :
    (let d : Dev := { laned (fun L => { L with irqs := [(0, 0)] }) with now := ns 256 }
     (0, 0) ∈ (d.lane 0).irqs ∧ 0 + ns 256 ≤ d.now ∧ 0 ∈ d.lanePins 0) ∧
    (let d : Dev := { laned (fun L => { L with irqs := [(2, 0)] }) with now := ns 256 }
     (2, 0) ∈ (d.lane 0).irqs ∧ 0 + ns 256 ≤ d.now ∧ (∀ i, i ∈ (d.lane 0).irqs → i.2 + ns 256 ≤ d.now → i.1 ≠ 0) ∧ d.laneSite 0 = some 0 ∧
       0 ∈ d.siteLanes 0 ∧ d.siteState 0 = SiteState.RUNNING) ∧
    (let d : Dev := { (ssi (with0 7 (stop0 1))).upLane 0 (fun L => { L with irqs := [(2, 0)] }) with now := ns 256 }
     (2, 0) ∈ (d.lane 0).irqs ∧ d.laneSite 0 = some 0 ∧ d.siteState 0 ≠ SiteState.RUNNING ∧ d.siteState 0 ≠ SiteState.PAUSED) ∧
    (let d : Dev := { (site0 5).upCsq 255 (fun C => { C with irqs := [(1, 0)] }) with now := ns 256 }
     (1, 0) ∈ (d.csq 255).irqs ∧ 0 + ns 256 ≤ d.now ∧ ∀ i, i ∈ (d.csq 255).irqs → i.1 ≠ 0) ∧
    (let d : Dev := { (site0 5).upCsq 255 (fun C => { C with irqs := [(0, 0)] }) with now := ns 256 }
     (0, 0) ∈ (d.csq 255).irqs ∧ 0 + ns 256 ≤ d.now) := by decide

/-- Site 0 RUNNING an image of its own, its sequencers at microword 5, which is `w` with nano-word 0 `v`. -/
def micro0 (w v : Nat) : Dev :=
  ({ with0 5 (stop0 1) with cs := { micro := [(5, w)], nano := [(0, v)], dsq := [(0x30, 2 ^ 15 + 5)] } } : Dev).upLane 0 (fun L =>
    { L with phase := .ready, upc := some 5 })

/-- The hypotheses of `Obligations.ImageOpcodeRunsItsRoutine` hold together. -/
theorem witness_ImageOpcodeRunsItsRoutine :
    (∀ k, k < 2 → (let d := micro0 k 0
      (d.lane 0).upc = some 5 ∧ d.microLive 0 = true ∧ (d.lane 0).goes = true ∧ (d.lane 0).freeAt ≤ d.bed ∧ mwMode (d.cs.read (d.laneCopy 0) 0 5) = k)) ∧
    (let d := (micro0 0 (5 * 2 ^ 185)).upLane 0 (fun L => { L with link := some 9 })
     d.microLive 0 = true ∧ bits (d.cs.read (d.laneCopy 0) 1 0) 185 3 = 5 ∧ (d.lane 0).link = some 9) ∧
    (let d := micro0 3 (2 * 2 ^ 176 + 7 * 2 ^ 96)
     let v := d.cs.read (d.laneCopy 0) 1 (mwNano (d.cs.read (d.laneCopy 0) 0 5))
     d.microLive 0 = true ∧ (d.lane 0).goes = true ∧ (d.lane 0).acc = [] ∧ (d.lane 0).yields = false ∧ (d.lane 0).irqWaits = false ∧
       mwMode (d.cs.read (d.laneCopy 0) 0 5) = 3 ∧ bits v 176 3 = 2 ∧ bits v 185 3 = 0 ∧ bits v 188 4 = 0 ∧ bits v 182 3 = 0 ∧ bits v 173 3 = 0 ∧
       bits v 168 3 = 0 ∧ bits v 162 4 = 0 ∧ bits v 160 2 = 0 ∧ bits v 156 4 = 0 ∧ bits v 152 4 = 0) ∧
    (let d := (micro0 0 0).upLane 0 (fun L => { L with upc := none, len := 1, words := [(0, [0x30 * 2 ^ 58])] })
     d.canTake 0 = true ∧ d.opValid 0 (wOp (Dev.curWord Mems.blank d 0)) = true ∧ d.native 0 = false ∧
      mwMode (d.cs.read (d.laneCopy 0) 0 (bits (d.dsqEntry 0 0x30) 0 14)) = 0 ∧
      bits (d.cs.read (d.laneCopy 0) 1 (mwNano (d.cs.read (d.laneCopy 0) 0 5))) 185 3 ≠ 5) ∧
    (let d := (micro0 0 0).upCsq 0 (fun C => { C with upc := some 5 })
     d.siteOf 0 = some 0 ∧ d.siteRunning 0 = true ∧ (d.csq 0).upc = some 5 ∧ (d.csq 0).freeAt ≤ d.bed ∧ mwMode (d.cs.read 0 0 5) = 0 ∧
       bits (d.cs.read 0 1 (mwNano (d.cs.read 0 0 5))) 185 3 ≠ 5) := by decide

/-! ## Sequence programs -/

/-- A word: opcode, ARG16, ARG32, and whether an extension word follows (R105). -/
def wordOf (op a16 a32 xw : Nat) : Nat := op * 2 ^ 58 + xw * 2 ^ 48 + a16 * 2 ^ 32 + a32
/-- Site 0 RUNNING with lane 0 at word `w` of four, one vector emitted. -/
def atW (w : Nat) (f : Lane → Lane) : Dev := laned (fun L => f { L with phase := .ready, len := 4, words := [(0, [w, 3, 0, 0])], emitted := 1 })
/-- The same with the site's start at 0 and the next boundary at 1 µs, which is now. -/
def atB (w : Nat) (f : Lane → Lane) : Dev :=
  { ((atW w f).upSite 0 (fun S => { S with start := some 0 })).upPin 0 (fun P => { P with tNext := us 1 }) with now := us 1 }

/-- Lane 0 of site 0 in state `v` at word `w`; 64 vectors of code 6 with SIDE 2 stand in pin 0's stream. -/
def fedW (v w : Nat) : Dev := (having (atW w id) [(.PIN_STREAM_LEN_ENTRIES, 0, 4), (.SITE_STATUS_STATE, 0, v)]).upPin 0
  (fun P => { P with ents := [(0, some { count := 64, addr := 0, typ := 3, code := 6, phint := false, side := 2, hint := 0 })] })

/-- The hypotheses of `Obligations.EmittingWordsPlaceTheirVectors` hold together. -/
theorem witness_EmittingWordsPlaceTheirVectors :
    (∀ op, op ∈ [0x01, 0x02, 0x03, 0x04, 0x1D] → let d := atW (wordOf op 0 64 0) id
      d.atWord Mems.blank 0 op = true ∧ Dev.nextOf Mems.blank d 0 < (d.lane 0).len ∧ d.laneSite 0 = some 0 ∧ d.siteState 0 = SiteState.RUNNING) ∧
    (∀ v, v ∈ [SiteState.PREPARING, SiteState.ARMED, SiteState.RUNNING] →
      ∀ x, x ∈ [(0x01, 64, 64), (0x02, 64, 64), (0x03, 64, 1), (0x04, 64, 0), (0x1D, 64, 0), (0x01, 0, 0), (0x1D, 0, 0)] →
      let d := fedW v (wordOf x.1 0 x.2.1 0)
      d.atWord Mems.blank 0 x.1 = true ∧ Dev.nextOf Mems.blank d 0 < (d.lane 0).len ∧ d.laneSite 0 = some 0 ∧ d.siteState 0 = v ∧
        d.badHeads (d.members 0) = [] ∧ d.lanePins 0 = [0] ∧ Dev.peek Mems.blank d 0 = (.ok 6 2 0 false, { off := 1 }) ∧ d.lanePin 0 = some 0 ∧
        d.fifoLevel 0 + wA32 (Dev.curWord Mems.blank d 0) ≤ 64 ∧ Dev.dataFor Mems.blank 0 x.2.2 d = true ∧ (d.pin 0).rep = none) := by decide

/-- The hypotheses of `Obligations.LoopWordsCountAndReturn` hold together. -/
theorem witness_LoopWordsCountAndReturn :
    (let d := atW (wordOf 0x08 7 0xFFFFFFFF 0) id
     d.atWord Mems.blank 0 0x08 = true ∧ bitAt (d.lane 0).act 7 = false ∧ Dev.nextOf Mems.blank d 0 < (d.lane 0).len) ∧
    (let d := atW (wordOf 0x09 7 0 0) (fun L => { L with act := 128, cnt := [(7, 2)] })
     d.atWord Mems.blank 0 0x09 = true ∧ bitAt (d.lane 0).act 7 = true ∧ 1 < (d.lane 0).counter 7 ∧ targetFault (d.lane 0).len (d.lane 0).waddr 0 = none) ∧
    (let d := atW (wordOf 0x09 7 0 0) (fun L => { L with act := 128, cnt := [(7, 1)] })
     d.atWord Mems.blank 0 0x09 = true ∧ bitAt (d.lane 0).act 7 = true ∧ (d.lane 0).counter 7 ≤ 1 ∧ Dev.nextOf Mems.blank d 0 < (d.lane 0).len) ∧
    (let d := atW (wordOf 0x08 0 1 0) (fun L => { L with act := 1 })
     d.atWord Mems.blank 0 0x08 = true ∧ bitAt (d.lane 0).act 0 = true ∧ (d.lane 0).emitted ≠ 0) ∧
    (let d := atW (wordOf 0x09 0 1 0) id
     d.atWord Mems.blank 0 0x09 = true ∧ bitAt (d.lane 0).act 0 = false ∧ (d.lane 0).emitted ≠ 0) := by decide

/-- A stack of `n` entries. -/
def stacked (n : Nat) : List (Nat × Bool) := List.replicate n (3, true)

/-- The hypotheses of `Obligations.CallAndRetUseTheStack` hold together. -/
theorem witness_CallAndRetUseTheStack :
    (∀ x, x < 2 → let d := atW (wordOf 0x0A 0 3 x) (fun L => { L with stack := stacked 15 })
     d.atWord Mems.blank 0 0x0A = true ∧ (d.lane 0).stack.length < 16 ∧ targetFault (d.lane 0).len (d.lane 0).waddr 3 = none) ∧
    (let d := (atW (wordOf 0x0B 0 0 0) (fun L => { L with stack := stacked 1 })).upPin 0 (fun P => { P with stk := [some {}] })
     d.atWord Mems.blank 0 0x0B = true ∧ (d.lane 0).stack = (3, true) :: [] ∧ targetFault (d.lane 0).len (d.lane 0).waddr 3 = none ∧
       (d.pin 0).stk = some {} :: []) ∧
    (let d := atW (wordOf 0x0A 0 3 0) (fun L => { L with stack := stacked 16 })
     (d.lane 0).emitted ≠ 0 ∧ d.atWord Mems.blank 0 0x0A = true ∧ 16 ≤ (d.lane 0).stack.length) ∧
    (let d := atW (wordOf 0x0B 0 0 0) id
     (d.lane 0).emitted ≠ 0 ∧ d.atWord Mems.blank 0 0x0B = true ∧ (d.lane 0).stack = []) := by decide

/-- The hypotheses of `Obligations.JumpsAndBranchesPassControl` hold together. -/
theorem witness_JumpsAndBranchesPassControl :
    (let d := atW (wordOf 0x0C 0 3 0) id
     d.atWord Mems.blank 0 0x0C = true ∧ targetFault (d.lane 0).len (d.lane 0).waddr 3 = none) ∧
    (let d := atW (wordOf 0x0C 0 4 0) id
     d.atWord Mems.blank 0 0x0C = true ∧ targetFault (d.lane 0).len (d.lane 0).waddr 4 = some 2 ∧ (d.lane 0).emitted ≠ 0) ∧
    (∀ k, k < 4 → let d := atW (wordOf 0x0D (64 * k + 32) 3 0) id
     d.atWord Mems.blank 0 0x0D = true ∧ targetFault (d.lane 0).len (d.lane 0).waddr (wA32 (Dev.curWord Mems.blank d 0)) = none ∧
       Dev.nextOf Mems.blank d 0 < (d.lane 0).len ∧ bits (wA16 (Dev.curWord Mems.blank d 0)) 6 2 = k ∧ (d.lane 0).emitted ≠ 0) := by decide

/-- Lane 0 at the end of a pass of the MATCH `w`, `n` passes made. -/
def passed (w n : Nat) : Dev := atB w (fun L => { L with phase := .passEnd, passes := n })
/-- The time of the boundary at which pin 0's next vector begins. -/
def nextS (d : Dev) : Nat := (d.laneS 0).getD 0

/-- The hypotheses of `Obligations.MatchRepeatsItsPassUntilTheCondition` hold together. -/
theorem witness_MatchRepeatsItsPassUntilTheCondition :
    (∀ n, n ∈ [65535, 0] → let d := atW (wordOf 0x10 0 n 0) id
      d.atWord Mems.blank 0 0x10 = true ∧ bits (wA32 (Dev.curWord Mems.blank d 0)) 0 16 = n ∧ (d.lane 0).emitted ≠ 0 ∧ d.laneSite 0 = some 0 ∧
      d.siteState 0 = SiteState.RUNNING) ∧
    (∀ y, y ∈ [(0, 0), (0, 1), (1, 0), (1, 1)] → let w := wordOf 0x10 (32 * y.1) (2 ^ 16 + 8) y.2
      let d := passed w 1
      d.laneSite 0 = some 0 ∧ Dev.dueS Mems.blank d 0 (· == .passEnd) = some (nextS d, w) ∧ d.dwells 0 w (nextS d) = false ∧ (d.lane 0).upc = none ∧
        Dev.nextOf Mems.blank d 0 < (d.lane 0).len ∧ (d.lane 0).emitted ≠ 0 ∧ d.siteState 0 = SiteState.RUNNING ∧
        (d.cond 0 (bits (wA16 w) 0 5) (d.actAt 0 (nextS d)) == bitAt (wA16 w) 5) = decide (y.1 = 0) ∧ bits (wA32 w) 16 16 ≠ 0 ∧
        bits (wA32 w) 16 16 ≤ (d.lane 0).passes ∧ (y.2 = 1 → targetFault (d.lane 0).len (d.lane 0).waddr (Dev.xarg Mems.blank d 0) = none)) := by decide

/-- The hypotheses of `Obligations.WaitingWordsEndByDecisionReleaseOrTimeout` hold together here: synchronised words wait for their decision. -/
theorem witness_SynchronisedWordsWaitForTheirDecision :
    ∀ op, op ∈ [0x11, 0x12, 0x13, 0x14, 0x18, 0x1A] → (atW (wordOf op 0 0 0) id).atWord Mems.blank 0 op = true := by decide

/-- Lane 0 at the due decision cycle of word `w`. -/
def deciding (w : Nat) (f : Lane → Lane) : Dev := atB w (fun L => f { L with phase := .sync })

/-- The hypotheses of `Obligations.DecisionCycleActsOnItsWord` hold together. -/
theorem witness_DecisionCycleActsOnItsWord :
    (∀ w, w ∈ [wordOf 0x0D 32 3 0, wordOf 0x18 (32 + 31) 0 0, wordOf 0x1A 15 0 0, wordOf 0x14 0 0 0, wordOf 0x11 0 0 0, wordOf 0x11 32 1 0, wordOf 0x12 15 5 0,
        wordOf 0x13 0 0 0] →
      let d := deciding w id
      d.laneSite 0 = some 0 ∧ Dev.dueS Mems.blank d 0 (fun p => p == .sync || p == .wait) = some (nextS d, w) ∧ (d.lane 0).upc = none ∧
        Dev.nextOf Mems.blank d 0 < (d.lane 0).len ∧ d.siteState 0 = SiteState.RUNNING ∧ (d.lane 0).emitted ≠ 0 ∧
        (decide ((d.lane 0).phase = .sync) && d.dwells 0 w (nextS d)) = false ∧
        (wOp w = 0x0D → targetFault (d.lane 0).len (d.lane 0).waddr (wA32 w) = none)) ∧
    (∀ P, P ∈ [us 1, us 3] → let d := having (deciding (wordOf 0x14 0 0 0) (fun L => { L with seamNext := 2 })) [(.SITE_GRID_PERIOD, 0, P)]
      Dev.dueS Mems.blank d 0 (fun p => p == .sync || p == .wait) = some (nextS d, wordOf 0x14 0 0 0) ∧ (d.lane 0).seamNext = 2 ∧
        gridPointOf ((d.site 0).start.getD 0) (d.rd .SITE_GRID_PERIOD 0) (nextS d) false 0 = some P ∧ nextS d = us 1) := by decide

/-- The hypotheses of `Obligations.DecisionCycleActsOnItsWord` hold together here: late word dwells. -/
theorem witness_LateWordDwells :
    let w := wordOf 0x1A 0 0 0
    let d := deciding w (fun L => { L with freeAt := us 2 })
    Dev.dueS Mems.blank d 0 (fun p => p == .sync || p == .wait) = some (nextS d, w) ∧
      (decide ((d.lane 0).phase = .sync) && d.dwells 0 w (nextS d)) = true ∧ (d.lane 0).emitted ≠ 0 := by decide

/-- The hypotheses of `Obligations.WaitingWordsEndByDecisionReleaseOrTimeout` hold together here: waits end by release or timeout. -/
theorem witness_WaitsEndByReleaseOrTimeout :
    (let d := (atW (wordOf 0x11 0 0 0) (fun L => { L with phase := .released, wordVecs := 1 })).upPin 0 (fun P => { P with fifo := [vec0, vec0] })
     d.laneLive 0 = true ∧ (d.lane 0).phase = .released ∧ (d.lane 0).upc = none ∧ Dev.nextOf Mems.blank d 0 < (d.lane 0).len ∧
       (d.lane 0).wordVecs ≠ 0 ∧ 0 ∈ d.lanePins 0 ∧ (d.pin 0).fifo = [vec0] ++ [vec0]) ∧
    (∀ x, x < 2 → let d := atW (wordOf 0x11 0 1 x) (fun L => { L with phase := .timedOut })
     d.laneLive 0 = true ∧ (d.lane 0).phase = .timedOut ∧ (d.lane 0).fault = none ∧ (d.lane 0).upc = none ∧ (d.lane 0).emitted ≠ 0 ∧
       wXw (Dev.curWord Mems.blank d 0) = decide (x = 1) ∧ targetFault (d.lane 0).len (d.lane 0).waddr (Dev.xarg Mems.blank d 0) = none) := by decide

/-- The hypotheses of `Obligations.CompareAndStreamWordsAct` hold together here: compare words travel with the next vector. -/
theorem witness_CompareWordsTravelWithTheNextVector :
    ∀ x, x ∈ [(0x19, 0, 0, false), (0x19, 12, 0, true), (0x1B, 4096, 4096, false), (0x1B, 4097, 4096, true), (0x1C, 4, 0, false), (0x1C, 5, 0, true)] →
      let w := wordOf x.1 x.2.1 x.2.2.1 0
      let d := atW w id
      (if x.1 = 0x19 then bits (wA16 w) 2 2 == 3 else if x.1 = 0x1B then latsrchBad w else decide (4 < bits (wA16 w) 0 4)) = x.2.2.2 ∧
        d.atWord Mems.blank 0 x.1 = true ∧ Dev.nextOf Mems.blank d 0 < (d.lane 0).len ∧ (d.lane 0).emitted ≠ 0 := by decide

/-- The hypotheses of `Obligations.CompareAndStreamWordsAct` hold together here: pstream moves every pins stream. -/
theorem witness_PstreamMovesEveryPinsStream :
    let d := atW (wordOf 0x20 0 5 0) id
    d.atWord Mems.blank 0 0x20 = true ∧ Dev.nextOf Mems.blank d 0 < (d.lane 0).len := by decide

/-- The hypotheses of `Obligations.LdcntActsByItsKind` hold together. -/
theorem witness_LdcntActsByItsKind :
    ∀ k, k < 6 → let d := atW (wordOf 0x21 (256 * k + 3) 5 0) id
      d.atWord Mems.blank 0 0x21 = true ∧ Dev.nextOf Mems.blank d 0 < (d.lane 0).len ∧ bits (wA16 (Dev.curWord Mems.blank d 0)) 8 3 = k ∧
        (d.lane 0).emitted ≠ 0 := by decide

/-- The hypotheses of `Obligations.HaltStopsAndBadOpFaults` hold together. -/
theorem witness_HaltStopsAndBadOpFaults :
    (atW (wordOf 0 0 0 0) id).atWord Mems.blank 0 0x00 = true ∧
    (let d := (atW (wordOf 0x3F 0 0 0) id)
     let e := { d with cs := { d.cs with dsq := [] } }
     e.canTake 0 = true ∧ e.opValid 0 (wOp (Dev.curWord Mems.blank e 0)) = false ∧ (e.lane 0).emitted ≠ 0) ∧
    (let d := (ssi (with0 3 (stop0 1))).upLane 0 (fun L => { L with phase := .ready, len := 4, words := [(0, [wordOf 0x3F 0 0 0])] })
     let e := { d with cs := { d.cs with dsq := [] } }
     e.canTake 0 = true ∧ e.opValid 0 (wOp (Dev.curWord Mems.blank e 0)) = false ∧ (e.lane 0).emitted = 0 ∧ e.laneSite 0 = some 0 ∧
       e.siteState 0 = SiteState.PREPARING ∧ (e.site 0).early = none ∧
       ((e.upSite 0 (fun S => { S with early := some (2, Status.BAD_STREAM) })).site 0).early = some (2, Status.BAD_STREAM)) := by decide

/-! ## Refill, timing sets and PLLs -/

/-- Site 0 RUNNING; pin 0's stream has four entries of which the first, `x`, is copied. -/
def streaming (x : SEntry) (f : Pin → Pin) : Dev :=
  (having (with0 5 (stop0 1)) [(.PIN_STREAM_LEN_ENTRIES, 0, 4)]).upPin 0 (fun P => f { P with ents := [(0, some x)] })
/-- An entry of 4,096 vectors of type 0 at 64. -/
def entry0 : SEntry := { count := 4096, addr := 64, typ := 0, code := 0, phint := false, side := 0, hint := 0 }
/-- A RUN entry of 7 vectors at 64. -/
def run1 : SEntry := { entry0 with count := 7, typ := 2 }

/-- A field that a list does not name keeps its value. -/
theorem having_rd (d : Dev) (l : List (Fld × Nat × Nat)) (g : Fld) (j : Nat) (h : ∀ y, y ∈ l → y.1 = g → j ≠ y.2.1) : (having d l).rd g j = d.rd g j := by
  induction l generalizing d with
  | nil => rfl
  | cons y l ih =>
    have e := ih (d.wr y.1 y.2.1 y.2.2) (fun z hz => h z (List.mem_cons_of_mem _ hz))
    simp only [having, List.foldl_cons] at e ⊢
    rw [e, Dev.wr_rd, if_neg]
    exact fun c => h y List.mem_cons_self c.1.symm c.2

/-- The mask of site 0's first 64 pins is the only one that names a pin. -/
theorem streaming_isMember (x : SEntry) (f : Pin → Pin) (n p : Nat) (h : n * 4 + p / 64 ≠ 0) : (streaming x f).isMember n p = false := by
  have e : (streaming x f).rd .SITE_MEMBER_MASK (n * 4 + p / 64) = 0 :=
    (having_rd _ _ _ _ (by simp)).trans ((having_rd _ [(.SITE_MEMBER_MASK, 0, 1), (.SITE_STATUS_STATE, 0, 5)] _ _ (by simpa using h)).trans
      (having_rd { kl := { powered := true } } _ _ _ (by simp)))
  simp [Dev.isMember, e, bitAt]

theorem streaming_pinRunning (x : SEntry) (f : Pin → Pin) (p : Nat) (h : 0 < p) : (streaming x f).pinRunning p = false := by
  have e0 : (streaming x f).rd .SITE_MEMBER_MASK 0 = 1 := by
    refine (having_rd _ _ _ _ (by simp)).trans ((having_rd (having ready [(.SITE_MEMBER_MASK, 0, 1)]) [(.SITE_STATUS_STATE, 0, 5)] _ _ (by simp)).trans ?_)
    exact Dev.wr_rd_same _ _ _ _
  have e : (streaming x f).siteOf p = none := by
    simp only [Dev.siteOf, List.find?_eq_none, List.mem_range, Bool.not_eq_true]
    intro n _
    by_cases hn : n * 4 + p / 64 = 0
    · simp only [Dev.isMember, hn, e0]
      have hp : 1 < 2 ^ (p % 64) := Nat.one_lt_two_pow (by omega)
      simp [bitAt, Nat.div_eq_of_lt hp]
    · exact streaming_isMember x f n p hn
  simp [Dev.pinRunning, e]

/-- Pin 0 alone refills, and it may. -/
theorem streaming_refillNext (x : SEntry) (f : Pin → Pin) (h : (streaming x f).mayRefill 0 = true) : (streaming x f).refillNext = some 0 := by
  have e : (List.range 256).filter (streaming x f).mayRefill = [0] := by
    rw [List.range_succ_eq_map, List.filter_cons_of_pos h, List.filter_eq_nil_iff.mpr]
    intro p hp
    obtain ⟨q, -, rfl⟩ := List.mem_map.mp hp
    simp [Dev.mayRefill, streaming_pinRunning x f (q + 1) (Nat.succ_pos q)]
  simp only [Dev.refillNext, e, List.foldl_nil]

/-- The hypotheses of `Obligations.RefillAsksForLinesAndTheyArrive` hold together here: refill asks for lines. -/
theorem witness_RefillAsksForLines :
    (let d := streaming entry0 id
     d.refillNext = some 0 ∧ (d.pin 0).hints = none ∧ tget (fun _ => none) (d.pin 0).ents (d.pin 0).fetchE = some entry0 ∧
       d.sentryBad 0 (d.pin 0).fetchE entry0 = false ∧ entry0.typ ≠ 2 ∧ entry0.linesFrom (d.pin 0).fetchL (d.pin 0).runGot (d.pin 0).runFrom ≠ 0) ∧
    (let d := streaming run1 (fun P => { P with refills := [⟨0, 0, 4, true⟩] })
     d.refillNext = some 0 ∧ (d.pin 0).hints = none ∧ tget (fun _ => none) (d.pin 0).ents (d.pin 0).fetchE = some run1 ∧ d.sentryBad 0 (d.pin 0).fetchE run1 = false ∧
       run1.typ = 2 ∧ (d.pin 0).refills.any (fun r => r.entry == (d.pin 0).fetchE && !r.hint) = false ∧
       run1.linesFrom (d.pin 0).fetchL (d.pin 0).runGot (d.pin 0).runFrom = 1) :=
  ⟨⟨streaming_refillNext _ _ (by decide), by decide⟩, streaming_refillNext _ _ (by decide), by decide⟩

/-- The hypotheses of `Obligations.RefillAsksForLinesAndTheyArrive` hold together here: refill asks for hints. -/
theorem witness_RefillAsksForHints :
    (let d := streaming entry0 (fun P => { P with hintEnt := some entry0, hintOf := some 3, hintEnd := 64 })
     d.refillNext = some 0 ∧ (d.pin 0).hints = some entry0) := ⟨streaming_refillNext _ _ (by decide), by decide⟩

/-- The hypotheses of `Obligations.RefillAsksForLinesAndTheyArrive` hold together here: refill lines arrive. -/
theorem witness_RefillLinesArrive :
    (let d := streaming entry0 (fun P => { P with refills := [⟨0, 0, 16, false⟩], fetchL := 16, lines := [(2047, { used := true, entry := 0, idx := 0 })] })
     (d.pin 0).refills = ⟨0, 0, 16, false⟩ :: [] ∧ tget (fun _ => none) (d.pin 0).ents 0 = some entry0 ∧
       d.pcs.any (fun c => c.2.reads.any (fun q => q.who == .stream 0 && decide (entry0.addr + 64 * 0 ≤ q.addr) &&
         decide (q.addr < entry0.addr + 64 * (0 + 16)))) = false ∧
       ((d.pin 0).lines.map (·.1)).Nodup ∧ (∀ y, y ∈ (d.pin 0).lines → y.1 < 2048) ∧ d.siteOf 0 = some 0 ∧ d.siteState 0 = SiteState.RUNNING) := by decide

/-- A TSET_LOAD of the sets `m` of `n` pins from pin `t`. -/
def tload (t m n : Nat) : Entry := entry 1 (desc 0x24 t [(16, m), (20, n)])

/-- The hypotheses of `Obligations.TsetLoadWritesShadowSets` hold together. -/
theorem witness_TsetLoadWritesShadowSets :
    (tracking ready [tload 255 (2 ^ 31 + 1) 1]).open? 1 0x24 = some (tload 255 (2 ^ 31 + 1) 1) ∧
      descTarget (tload 255 (2 ^ 31 + 1) 1).desc = 255 ∧ descField (tload 255 (2 ^ 31 + 1) 1).desc 22 0 1 = 0 ∧
      (List.range 32).filter (bitAt (descField (tload 255 (2 ^ 31 + 1) 1).desc 16 0 32)) = [0, 31] ∧
      descField (tload 255 (2 ^ 31 + 1) 1).desc 20 0 16 = 1 ∧
      (tracking ready [tload 255 1 2]).open? 1 0x24 = some (tload 255 1 2) ∧ 256 < descTarget (tload 255 1 2).desc + descField (tload 255 1 2).desc 20 0 16 := by
  decide

/-- The hypotheses of `Obligations.PllLossRestartAndFailure` hold together. -/
theorem witness_PllLossRestartAndFailure :
    (let d := with0 5 (stop0 1)
     bitAt (d.rd .BR_STATUS_QPLL_READY 0) 0 = true ∧ d.siteState 0 = SiteState.RUNNING ∧ (d.quads 0).contains 0 = true ∧ (d.quads 1).contains 0 = false) ∧
    (∀ n, n ∈ [0, 1, 2] → let d : Dev := { ready.upPll 4 (fun P => { P with starting := true, tries := n }) with now := us 80 }
     (d.pll 4).starting = true ∧ (d.pll 4).tries = n ∧ (d.pll 4).at_ + us 80 ≤ d.now) := by decide

/-! ## Compare and capture -/

/-- An expectation of state L at slot 0, edge mode. -/
def exp0 (acts : Nat) : Exp :=
  { slot := 0, code := 4, acts := acts, ui := 0, tset := 0, waddr := 0, vcount := 0, capt := false, maskf := false, wordEnd := false, word := 0, ctl := [],
    cmode := 1, opens := 0, closes := 0, unit := 0 }
/-- Site 0 RUNNING with `x` waiting at pin 0's CSQ for the slot that began at 0. -/
def judging (x : Exp) (c : Option Int) : Dev :=
  { (with0 5 (stop0 1)).upCsq 0 (fun C => { C with exps := [x], slots := [(0, 0)], slotNo := 1, lastClose := c }) with now := us 1 }

/-- The hypotheses of `Obligations.StrobeJudgesAndCountsFails` hold together. -/
theorem witness_StrobeJudgesAndCountsFails :
    ∀ a, a ∈ [2, 3, 5, 6, 10] → ∀ c, c ∈ [none, some (-1800)] → let d := judging (exp0 a) c
      d.siteOf 0 = some 0 ∧ d.slotStart 0 0 = some 0 ∧ (d.csq 0).search = none ∧ (d.csq 0).exps = exp0 a :: [] ∧ (d.csq 0).micro = false ∧
      (d.csq 0).endNow = false ∧ (exp0 a).slot + d.rd .PIN_CMP_STATUS_OFFSET_NOW 0 = (d.csq 0).nextSlot ∧ d.rd .PIN_CMP_STATUS_LSTATE 0 = 0 ∧
      0 ≤ d.bed ∧ (0 : Int) + (exp0 a).opens + (d.csq 0).fine = 0 ∧ (d.csq 0).lastClose = c ∧
      d.on .PIN_FAIL_FIRST_VALID 0 = false := by decide

/-- A fail record of site 0. -/
def rec0 : FailRec := { site := 0, pin := 0, close := 0, data := 5 }
/-- A capture block of site 0. -/
def block0 : CapBlock := { no := 0, pin := 0, site := 0, vcount := 0, waddr := 0, last := 0, burst := false, data := [1], gap := false }

/-- The hypotheses of `Obligations.FailRecordsAndBlocksReachTheirRegions` hold together. -/
theorem witness_FailRecordsAndBlocksReachTheirRegions :
    (let d : Dev := { having ready [(.FR_SITE_QUOTA_RECORDS, 0, 2)] with failQ := [(0, [rec0])] }
     d.failQ.flatMap (·.2) = [rec0] ∧ tget (fun _ => []) d.failQ (rec0.pin / 8) = [rec0] ∧ (d.failSite rec0.site).run = none ∧
       d.frPlace 0 false false = .store) ∧
    (let d : Dev := { having ready [(.FR_SITE_QUOTA_RECORDS, 0, 0), (.FR_SITE_CTRL_SPILL_EN, 0, 1), (.FR_SITE_SPILL_SIZE_RECORDS, 0, 4)] with failQ := [(0, [rec0])] }
     (d.failSite rec0.site).run = none ∧ d.frPlace 0 false false = .spill) ∧
    (let d : Dev := { having ready [(.FR_SITE_QUOTA_RECORDS, 0, 0)] with failQ := [(0, [rec0])] }
     (d.failSite rec0.site).run = none ∧ d.frPlace 0 false false = .none) ∧
    (∀ n, n < 2 → let d : Dev := { having ready [(.FR_SITE_CAP_SIZE_BLOCKS, 0, n)] with capQ := [(0, [block0])] }
     oldestBlock (d.capQ.flatMap (·.2)) = some block0 ∧ ((d.failSite block0.site).blocks < d.rd .FR_SITE_CAP_SIZE_BLOCKS 0 ↔ n = 1)) := by decide

/-- A copy of 64 bytes between 64 and 128, into pattern memory for `sp = 0`. -/
def copy0 (op sp len : Nat) : Entry := entry 1 (desc op 0 [(8, 64), (16, 128), (24, len), (28, sp)])
/-- A part whose pseudo-channel `c` holds 64 writes. -/
def full (c : Nat) : Dev := ready.upPc c (fun P => { P with writes := List.replicate 64 ⟨0, true, .window, 4096, 8⟩ })

/-- The hypotheses of `Obligations.CopiesMoveTheirBursts` hold together. -/
theorem witness_CopiesMoveTheirBursts :
    (∀ op, op ∈ [0x10, 0x11] → (tracking ready [copy0 op 0 64]).open? 1 op = some (copy0 op 0 64) ∧
      (tracking ready [copy0 op 0 64]).copyRefused (copy0 op 0 64) = none ∧ copyLen (copy0 op 0 64) - (copy0 op 0 64).progress = 64 ∧
      (tracking ready [copy0 op 0 62]).copyRefused (copy0 op 0 62) = some Status.INVALID ∧ (tracking ready [copy0 op 0 64]).writeFull 128 = false) ∧
    ((tracking (full 0) [copy0 0x10 0 64]).open? 1 0x10 = some (copy0 0x10 0 64) ∧ (tracking (full 0) [copy0 0x10 0 64]).copyRefused (copy0 0x10 0 64) = none ∧
      (tracking (full 0) [copy0 0x10 0 64]).writeFull 128 = true) ∧
    (let x := entry 1 (desc 0x12 0 [(8, 64), (16, 64), (24, 5)])
     ((tracking ready [x]).open? 1 0x12 = some x ∧ (tracking ready [x]).copyRefused x = none ∧ copyLen x - x.progress ≠ 0 ∧
       (tracking ready [x]).writeFull 64 = false) ∧
     (tracking (full 0) [x]).open? 1 0x12 = some x ∧ (tracking (full 0) [x]).copyRefused x = none ∧ (tracking (full 0) [x]).writeFull 64 = true) ∧
    (∀ sp, sp ∈ [1, 2] → (tracking local_ [copy0 0x10 sp 64]).copyRefused (copy0 0x10 sp 64) = none) := by decide

/-- A fetch of one item from item 0 of site 0. -/
def fetch0 (op : Nat) : Entry := entry 1 (desc op 0 [(16, 1), (24, 4096)])

/-- The hypotheses of `Obligations.FetchesCopyRecordsAndBlocks` hold together. -/
theorem witness_FetchesCopyRecordsAndBlocks :
    (let d := (tracking (site0 1) [fetch0 0x40]).upFailSite 0 (fun F => { F with store := [7] })
     d.open? 1 0x40 = some (fetch0 0x40) ∧ d.fetchGo (fetch0 0x40) = true ∧ descField (fetch0 0x40).desc 16 0 32 ≠ 0 ∧
       0 < (d.failSite 0).store.length + (d.failSite 0).spilled ∧ (d.failSite 0).store[0]? = some 7 ∧ d.follows = false) ∧
    (let x := { fetch0 0x40 with stopping := true, started := true, progress := 3 }
     let d := (tracking (site0 1) [x]).upFailSite 0 (fun F => { F with spilled := 9 })
     d.open? 1 0x40 = some x ∧ d.fetchGo x = true ∧ 3 < (d.failSite 0).store.length + (d.failSite 0).spilled ∧ (d.failSite 0).store[3]? = none ∧
       d.follows = false) ∧
    (let d := (tracking (site0 1) [fetch0 0x41]).upFailSite 0 (fun F => { F with blocks := 1 })
     d.open? 1 0x41 = some (fetch0 0x41) ∧ d.localMode = false ∧ d.fetchGo (fetch0 0x41) = true ∧ 0 < (d.failSite 0).blocks ∧ d.follows = false) := by decide

/-! ## Time measurement -/

/-- A MEASURE of both edges of input 0 with COUNT 1, of kind `k` armed by `a` at `t`; destination of 64 bytes in host memory. -/
def measure0 (k a t tmo : Nat) : Entry :=
  entry 1 (desc 0x30 0 [(8, t), (24, 4096), (38, tmo), (40, 1), (44, 16448), (48, k + a * 16 + 2 * 256)])
/-- Part with that MEASURE as its entry. -/
def measuring (x : Entry) : Dev := tracking ready [x]

/-- The hypotheses of `Obligations.MeasureOpensArmsAndTimesOut` hold together here: measure opens. -/
theorem witness_MeasureOpens :
    (let x := measure0 0 0 0 0; let d := measuring x
     d.open? 1 0x30 = some x ∧ x.begun = false ∧ d.jobInvalid (jobSpec x) = false ∧
       ((jobSpec x).inputs.any d.inpDown || (jobSpec x).inputs.any (fun i => !d.octOk (i / 2) || !bitAt (d.rd .DEV_UNITS_QPLL_OK 0) (i / 128))) =
         !bitAt (d.rd .DEV_UNITS_QPLL_OK 0) 0 ∧
       ((jobSpec x).inputs.any d.inpBusy || (jobSpec x).inputs.any d.calHolds || d.measureAhead x (jobSpec x)) = false) ∧
    (let x := measure0 7 0 0 0; (measuring x).open? 1 0x30 = some x ∧ (measuring x).jobInvalid (jobSpec x) = true) ∧
    (let x := measure0 0 1 1 0; let d := measuring x
     d.jobInvalid (jobSpec x) = false ∧ ((jobSpec x).arm == 1 && decide (d.fullTime (jobSpec x).armTime < x.born + ns 500)) = true) := by decide

/-- The open job of entry 1. -/
def job0 (x : Entry) : Job := { e := 1, inputs := (jobSpec x).inputs, opened := 0 }

/-- The hypotheses of `Obligations.MeasureOpensArmsAndTimesOut` hold together here: measure arms and times out. -/
theorem witness_MeasureArmsAndTimesOut :
    (let x := measure0 0 0 0 0; let d : Dev := { measuring x with tmu := { ready.tmu with jobs := [job0 x] }, now := us 1 }
     d.open? 1 0x30 = some x ∧ d.job? 1 = some (job0 x) ∧ (job0 x).arm = none ∧ (job0 x).stop = none ∧ (job0 x).waitPll = false ∧
       ∃ t, d.armOf x (jobSpec x) (job0 x) = some t ∧ max t (job0 x).floor ≤ d.bed) ∧
    (let x := measure0 0 2 0 1; let d : Dev := { measuring x with tmu := { ready.tmu with jobs := [job0 x] }, now := ms 1 }
     d.open? 1 0x30 = some x ∧ d.job? 1 = some (job0 x) ∧ (jobSpec x).tmo ≠ 0 ∧ x.born + ms (jobSpec x).tmo ≤ d.bed) := by
  refine ⟨⟨by decide, by decide, by decide, by decide, by decide, ?_⟩, by decide⟩
  exact ⟨_, rfl, by decide⟩

/-- The hypotheses of `Obligations.EdgesAreStampedAndJobsWriteTheirRecord` hold together. -/
theorem witness_EdgesAreStampedAndJobsWriteTheirRecord :
    (let x := entry 1 (desc 0x30 0 [(24, 4096), (32, 100), (44, 16448), (48, 1 + 2 * 256 + 1024)])
     let j := { job0 x with arm := some 0 }
     let d := ({ measuring x with tmu := { ready.tmu with jobs := [j] }, now := us 1 } : Dev).upCal 1 0 (fun U => { U with taps := [3], path := some 5 })
     d.tmu.jobs.find? (fun j => j.inputs.contains 0) = some j ∧ d.open? j.e 0x30 = some x ∧ d.pllOk 0 = true ∧ d.inpCap 0 = false ∧
       (d.calUnit 1 0).taps[288 % 288]? = some 3 ∧ (d.calUnit 1 0).path = some 5 ∧ (jobSpec x).kind ≠ 0 ∧ (jobSpec x).count = 0 ∧
       j.detects (jobSpec x) ⟨16392200, 0, false, false, 0, false⟩ = true ∧ j.mayUse 16392200 = true ∧ d.afterBurst (jobSpec x) j 16392200 = false ∧
       ({ j with stop := some (0, 0, Status.OK) } : Job).mayUse 16392200 = false ∧ (2 * (d.bed / cycleTicks) + 288 / 288 % 2) * 8192 + 3 + 5 = 16392200 ∧ tget (fun _ => 0) d.tmu.lastEdge 0 + cycleTicks ≤ 16392200 + 1) ∧
    (∀ k, k ∈ [0, 1, 5, 6] → let x := measure0 k 0 0 0
     let j := { job0 x with arm := some 0, stop := some (0, 1, Status.OK) }
     let d : Dev := { measuring x with tmu := { ready.tmu with jobs := [j] } }
     d.open? 1 0x30 = some x ∧ d.job? 1 = some j ∧ j.stop = some (0, 1, Status.OK) ∧ 0 ≤ d.bed ∧ (jobSpec x).kind = k) := by decide

/-! ## Wave channels -/

/-- A part whose wave channels and PLL serve; channel `w` in state `v`, changed by `f`. -/
def waveAt (d : Dev) (w v : Nat) (f : Wave → Wave) : Dev :=
  (having d [(.DEV_UNITS_WAVE_OK, 0, 255), (.BR_STATUS_WAVE_READY, 0, 1), (.WV_CTRL_DAC_EN, w, 1), (.WV_CTRL_ADC_EN, w, 1), (.WV_STATUS_STATE, w, v)]).upWave w f
/-- A WAVE_PLAY of channel 7: source `m`, start mode `a`, first entry 0, start time `t`. -/
def play7 (m a t : Nat) : Entry := entry 1 (desc 0x38 7 [(8, t), (16, m + 4 * a)])

/-- The hypotheses of `Obligations.WavePlaysPrepareStartAndJump` hold together here: wave plays are refused or prepare. -/
theorem witness_WavePlaysAreRefusedOrPrepare :
    (∀ m, m < 4 → let d := waveAt (tracking ready [play7 m 0 0]) 7 1 id
     d.open? 1 0x38 = some (play7 m 0 0) ∧ d.wvOk 7 = true ∧ d.wvState 7 = WvState.IDLE ∧ d.localMode = false ∧ d.playAhead (play7 m 0 0) = false ∧
       d.tableBad (Dev.wtable Mems.blank d 7) 0 = true ∧ (m = 1 → d.playInvalid 7 m [] = false) ∧ (m = 2 → d.playInvalid 7 m [] = true)) ∧
    (waveAt (tracking ready [play7 1 0 0]) 7 0 id).wvState 7 = WvState.OFF ∧
    (waveAt (tracking ready [play7 1 0 0]) 7 4 id).wvState 7 = WvState.PLAYING := by decide

/-- The hypotheses of `Obligations.WavePlaysPrepareStartAndJump` hold together here: prepared plays start. -/
theorem witness_PreparedPlaysStart :
    ∀ a, a < 4 → ∀ t, t ∈ [0, ns 200] → let x := { play7 1 a t with begun := true, started := true }
      let d := waveAt (tracking ready [x]) 7 2 (fun W => { W with play := some 1, mode := 1 })
      d.wvState 7 = WvState.PREPARING ∧ (d.wave 7).play = some x.id ∧ d.entry? x.id = some x ∧ x.done = false ∧ (d.wave 7).start = none ∧
        d.wvAwake 7 = true ∧ descField x.desc 16 2 2 = a ∧ (d.fullTime (descField x.desc 8 0 64) < d.bed + ns 200 ↔ t = 0) := by decide

/-- Channel 7 PLAYING since 0 from source `m`, and a sample point due. -/
def playing7 (m : Nat) (f : Wave → Wave) : Dev := waveAt ready 7 4 (fun W => f { W with mode := m, start := some 0, play := some 1 })

/-- The hypotheses of `Obligations.SamplePointsPlayAndWaveStopsPark` hold together here: sample point plays and takes samples. -/
theorem witness_SamplePointPlaysAndTakesSamples :
    (let d := having (playing7 1 id) [(.WV_CTRL_ADC_EN, 0, 0)]
     d.on .BR_STATUS_WAVE_READY 0 = true ∧ d.nextPoint < d.bed + cycleTicks ∧ d.wvOk 7 = true ∧ d.on .WV_CTRL_ADC_EN 7 = true ∧
       d.on .WV_CTRL_ADC_EN 0 = false ∧ d.wvState 7 = WvState.PLAYING ∧ (d.wave 7).start.getD 0 ≤ d.nextPoint ∧ (d.wave 7).atPark = false ∧
       (d.wave 7).mode = 1 ∧ (d.wave 7).toneAt = none ∧ d.wvState 0 ≠ WvState.PLAYING) ∧
    (let d := playing7 0 (fun W => { W with k := 63, ents := [⟨0, 1, 1, 0, 0, false, false⟩] })
     d.nextPoint < d.bed + cycleTicks ∧ (d.wave 7).atPark = false ∧ (d.wave 7).mode = 0 ∧ (d.wave 7).k % 64 ≠ 0 ∧
       (d.wave 7).k < 64 * ((d.wave 7).entry (d.wave 7).ent).len) ∧
    (let d := playing7 1 (fun W => { W with start := some 1 })
     d.nextPoint < (d.wave 7).start.getD 0) ∧
    (ready.on .BR_STATUS_WAVE_READY 0 = false ∧
      (let d : Dev := { playing7 1 id with sampleAt := cycleTicks }
       d.bed + cycleTicks ≤ d.nextPoint)) := by decide

/-- The hypotheses of `Obligations.WavePlaysPrepareStartAndJump` hold together here: wave starts jumps and stream pointers. -/
theorem witness_WaveStartsJumpsAndStreamPointers :
    (let x := play7 1 1 0
     let d := having (waveAt (tracking ready [x]) 7 3 (fun W => { W with play := some 1, mode := 1, start := some 0 })) [(.WV_STATUS_TONE_PENDING, 7, 1)]
     d.wvState 7 = WvState.ARMED ∧ (d.wave 7).play = some x.id ∧ d.entry? x.id = some x ∧ (d.wave 7).start = some 0 ∧ 0 < d.bed + cycleTicks ∧
       d.cycNow.staged = [] ∧ d.on .WV_STATUS_TONE_PENDING 7 = true ∧ d.hostReady = true) ∧
    (∀ m, m < 3 → ∀ l, l ∈ [true, false] → let d := playing7 m (fun W => { W with reqs := [0], latch := l })
     (d.wave 7).reqs.min? = some 0 ∧ 0 < d.bed + cycleTicks ∧ d.wvState 7 = WvState.PLAYING ∧ ¬ (0 < (d.wave 7).start.getD 0) ∧ (d.wave 7).mode = m ∧
       (d.wave 7).latch = l) ∧
    (let d := playing7 0 (fun W => { W with reqs := [0], start := some 1 })
     d.wvState 7 = WvState.PLAYING ∧ 0 < (d.wave 7).start.getD 0) ∧
    (let d := waveAt ready 7 3 (fun W => { W with reqs := [0], start := some 1, play := some 1, mode := 1 })
     (d.wave 7).reqs.min? = some 0 ∧ 0 < d.bed + cycleTicks ∧ (d.wave 7).start = some 1) ∧
    (let d := having (playing7 2 id) [(.WV_STREAM_SIZE_GRANULES, 7, 8)]
     d.hostReady = true ∧ 8 ≤ d.rd .WV_STREAM_SIZE_GRANULES 7 ∧ 7 < d.rd .WV_STREAM_SIZE_GRANULES 7 ∧ d.wvRunning 7 = true ∧ (d.wave 7).mode = 2 ∧
       d.wvRunning 0 = false) := by decide

/-- A WAVE_STOP of channel 7 behind its WAVE_PLAY. -/
def stop7 (m : Nat) : Entry := entry 2 (desc 0x39 7 [(8, m)])

/-- The hypotheses of `Obligations.SamplePointsPlayAndWaveStopsPark` hold together here: wave stops ask. -/
theorem witness_WaveStopsAsk :
    ∀ v, v ∈ [1, 2, 3, 4] → ∀ m, m < 2 → let x := { play7 0 0 0 with begun := decide (1 < v) }
      let d := waveAt (tracking ready [x, stop7 m]) 7 v (fun W => { W with play := if 1 < v then some 1 else none })
      d.open? 2 0x39 = some (stop7 m) ∧ (stop7 m).begun = false ∧ (d.wave 7).play ≠ some 2 ∧ d.entry? 1 = some x ∧ descOp x.desc = 0x38 ∧
       descTarget x.desc = 7 ∧ x.done = false ∧ (d.wvState 7 = WvState.PLAYING ↔ v = 4) ∧ (d.wvRunning 7 = true ↔ 1 < v) ∧ (d.wave 7).stopMode = none ∧
       (d.wave 7).mode = 0 := by decide

/-- The hypotheses of `Obligations.SamplePointsPlayAndWaveStopsPark` hold together here: waves park. -/
theorem witness_WavesPark :
    let x := { play7 0 0 0 with begun := true, started := true }
    let d := waveAt (tracking ready [x, stop7 1]) 7 4 (fun W => { W with play := some 1, stopMode := some 2, stops := [2] })
    d.wvState 7 = WvState.PLAYING ∧ (d.wave 7).atPark = true ∧ (d.wave 7).play = some 1 ∧ d.entry? 1 = some x ∧ 2 ∈ (d.wave 7).stops ∧
       d.entry? 2 = some (stop7 1) ∧ (d.wave 7).ended = false := by decide

/-- The hypotheses of `Obligations.SamplePointsPlayAndWaveStopsPark` hold together here: wave pll loss turns off. -/
theorem witness_WavePllLossTurnsOff :
    let x := { play7 0 0 0 with begun := true, started := true }
    let d := ({ waveAt (tracking ready [x]) 7 4 (fun W => { W with play := some 1, dacOn := true }) with
       acqs := [(7, some { e := 2, arm := 0 })] } : Dev)
    d.on .BR_STATUS_WAVE_READY 0 = true ∧ d.wvOk 7 = true ∧ d.on .WV_CTRL_DAC_EN 7 = true ∧ d.on .FC_STATE_SAFE 0 = false ∧ (d.wave 7).dacOn = true ∧
       d.acq 7 = some { e := 2, arm := 0 } ∧ d.wvRunning 7 = true ∧ (d.wave 7).play = some 1 ∧ d.entry? 1 = some x ∧
       (∀ v, v < 8 → v ≠ 7 → (d.wave v).play ≠ some 1 ∧ 1 ∉ (d.wave v).stops) := by decide

/-- The hypotheses of `Obligations.SamplePointsPlayAndWaveStopsPark` hold together here: dacs are disabled. -/
theorem witness_DacsAreDisabled :
    let d := waveAt ready 7 0 (fun W => { W with offAt := some 0 })
    (d.wave 7).offAt = some 0 ∧ 0 ≤ d.bed ∧ (d.wave 0).offAt = none := by decide

/-! ## Triggers and acquisitions -/

/-- Slot 15 enabled with `l` beside, its state `f` of the reset state. -/
def slot15 (l : List (Fld × Nat × Nat)) (f : Slot → Slot) : Dev :=
  (having ready ([(.DEV_UNITS_TAU_OK, 0, 1), (.TA_SLOT_CTRL_EN, 15, 1), (.TA_SLOT_CTRL_SRC, 15, 7)] ++ l)).upSlot 15 f

/-- The hypotheses of `Obligations.SlotsFireAndAcquisitionsRun` hold together here: slots are enabled armed and forced. -/
theorem witness_SlotsAreEnabledArmedAndForced :
    (ready.hostReady = true ∧ ready.on .TA_SLOT_CTRL_EN 15 = false ∧ ready.on .TA_SLOT_CTRL_EN 0 = false) ∧
    (∀ m, m < 4 → let d := slot15 [(.TA_SLOT_CTRL_MODE, 15, m)] id
     d.hostReady = true ∧ d.on .TA_SLOT_CTRL_EN 15 = true ∧ d.on .FC_STATE_SAFE 0 = false ∧ d.rd .TA_SLOT_CTRL_MODE 15 = m ∧
       (d.badSlot 15 = true ↔ m = 3) ∧ (d.slotLive 15 = true ↔ m < 3) ∧ d.rd .TA_SLOT_CTRL_SRC 15 = 7 ∧ d.slotLive 0 = false) := by decide

/-- An event at sample point `n`. -/
def ev0 (n : Nat) (forced late : Bool) : TrigEv := ⟨n, n, forced, false, late⟩

/-- The hypotheses of `Obligations.SlotsFireAndAcquisitionsRun` hold together here: slots fire on their events. -/
theorem witness_SlotsFireOnTheirEvents :
    (∀ a, a < 2 → ∀ l, l ∈ [true, false] → let d := slot15 [(.TA_SLOT_STATUS_ARMED, 15, a)] (fun S => { S with evs := [ev0 0 false l] })
     d.slotLive 15 = true ∧ (d.nextEvent 15).map (·.1) = some (ev0 0 false l) ∧ (ev0 0 false l).n < d.bed + cycleTicks ∧
       d.inHold 15 0 = false ∧ (d.on .TA_SLOT_STATUS_ARMED 15 = true ↔ a = 1)) ∧
    (let d : Dev := { slot15 [(.TA_SLOT_HOLDOFF_SAMPLES, 15, 1)] (fun S =>
       { S with evs := [ev0 8193 false false, ev0 8192 false false], fires := [⟨15, 7, ev0 0 false false, 1, false⟩] }) with now := 8193 }
     d.slotLive 15 = true ∧ (d.nextEvent 15).map (·.1) = some (ev0 8192 false false) ∧ d.inHold 15 8192 = true ∧
       d.inHold 15 8193 = false ∧ d.inHold 15 0 = false) ∧
    (∀ t, t < 2 → let d := (having (slot15 [(.TA_SLOT_STATUS_ARMED, 15, 1)] (fun S => { S with evs := [ev0 0 false false] }))
       [(.SITE_MEMBER_MASK, 0, 1), (.SITE_STATUS_STATE, 0, 5)]).upSite 0 (fun S => { S with start := some 0, trigs := t * 2 ^ 15 })
     d.slotLive 15 = true ∧ (d.nextEvent 15).map (·.1) = some (ev0 0 false false) ∧ d.inHold 15 0 = false ∧ d.on .TA_SLOT_STATUS_ARMED 15 = true ∧
       d.siteState 0 ≠ SiteState.EMPTY ∧ (d.site 0).start = some 0 ∧ (bitAt (d.site 0).trigs 15 = false ↔ t = 0)) ∧
    (let d : Dev := { slot15 [(.TA_SLOT_CTRL_MODE, 15, 1), (.TA_SLOT_AUTO_US, 15, 1)] id with now := us 1 }
     d.slotLive 15 = true ∧ d.rd .TA_SLOT_CTRL_MODE 15 = 1 ∧ d.rd .TA_SLOT_AUTO_US 15 ≠ 0 ∧ d.forcedPoint 15 < d.bed + cycleTicks) :=
  ⟨by decide, by decide, by decide, by decide⟩

/-- An ACQUIRE on channel 7 of 1 sample behind slot 15, with arm mode `a` at `t`, re-arming, timeout 1 ms. -/
def acquire7 (a t : Nat) : Entry :=
  entry 1 (desc 0x3A 7 [(8, t), (16, 4096), (24, 1), (28, 128), (32, 1 + a * 2 ^ 20 + 2 ^ 22), (40, 2 ^ 15), (42, 1)])
/-- Channel 7 with that ACQUIRE in its tracker. -/
def acquiring (a t : Nat) : Dev := having (waveAt (tracking ready [acquire7 a t]) 7 1 id) [(.DEV_UNITS_TAU_OK, 0, 1)]
/-- The acquisition of entry 1 of channel 7, changed by `f`. -/
def acq7 (f : Acq → Acq) : Dev :=
  { having (acquiring 0 0) [(.TA_SLOT_CTRL_EN, 15, 1), (.TA_SLOT_CTRL_MODE, 15, 2)] with acqs := [(7, some (f { e := 1, arm := 0 }))], now := ms 1 }

/-- The hypotheses of `Obligations.SlotsFireAndAcquisitionsRun` hold together here: acquisitions open arm and end. -/
theorem witness_AcquisitionsOpenArmAndEnd :
    (∀ a, a < 3 → let x := acquire7 a 0; let d := acquiring a 0
     d.open? 1 0x3A = some x ∧ x.begun = false ∧ (d.acqInvalid (acqSpec x) = true ↔ a = 2) ∧ d.wvOk 7 = true ∧ d.on .WV_CTRL_ADC_EN 7 = true ∧
       d.on .DEV_UNITS_TAU_OK 0 = true ∧ d.acq 7 = none ∧ d.acqAhead x = false ∧ (acqSpec x).w = 7 ∧
       (a = 1 → pointAfter (d.fullTime (acqSpec x).armTime) < x.born + ns 500)) ∧
    ((acqSpec (acquire7 0 0)).hbm = false ∧ (acqSpec (acquire7 0 0)).rearm = true ∧ bitAt (acqSpec (acquire7 0 0)).mask 15 = true ∧
      (acqSpec (acquire7 0 0)).tmo ≠ 0 ∧ (acqSpec (acquire7 0 0)).pre + (acqSpec (acquire7 0 0)).post = 1) ∧
    (let d := acq7 id
     d.acq 7 = some { e := 1, arm := 0 } ∧ d.open? 1 0x3A = some (acquire7 0 0) ∧ 0 < d.bed + cycleTicks ∧ d.on .TA_SLOT_CTRL_EN 15 = true ∧
       d.rd .TA_SLOT_CTRL_MODE 15 = 2 ∧ 0 + ms (acqSpec (acquire7 0 0)).tmo ≤ d.bed) ∧
    (acq7 (fun A => { A with trig := some ⟨15, 7, ev0 0 false false, 1, false⟩, written := 1 })).acq 7 =
      some { e := 1, arm := 0, trig := some ⟨15, 7, ev0 0 false false, 1, false⟩, written := 1 } ∧
    (acq7 (fun A => { A with stop := some (1, Status.OK) })).acq 7 = some { e := 1, arm := 0, stop := some (1, Status.OK) } := by decide

/-! ## Rings and descriptors -/

/-- Part `d` with ring `r` ACTIVE, changed by `f`. -/
def ringed (d : Dev) (r : Nat) (f : Ring → Ring) : Dev := d.upRing r (fun R => f { R with state := 1, cqOn := true, cq := r })

/-- The hypotheses of `Obligations.ContextsDoorbellsAndTokensAct` hold together here: context commands act. -/
theorem witness_ContextCommandsAct :
    (∀ k, k ∈ [1, 2, 3, 4, 5] → let d := (having ready [(.RG_CTX_SQ_LOG2, 0, 20), (.RG_CTX_CQ_LOG2, 0, 4)]).upRing 65535 (fun R =>
        { R with cq := 65535, state := if k = 4 then 1 else if k = 5 then 3 else 0 })
     d.hostReady = true ∧ d.on .RG_CTX_CMD_BUSY 0 = false ∧ d.ctxAllowed 65535 k d.ctxWin = true) ∧
    (∀ k, k ∈ [2, 3] → (ringed ready 65535 id).ctxAllowed 65535 k (ringed ready 65535 id).ctxWin = false) ∧
    (ready.ctxAllowed 65535 4 ready.ctxWin = false ∧ ready.ctxAllowed 65535 5 ready.ctxWin = false) ∧
    (having ready [(.RG_CTX_CMD_BUSY, 0, 1)]).on .RG_CTX_CMD_BUSY 0 = true := by decide

/-- The hypotheses of `Obligations.ContextsDoorbellsAndTokensAct` hold together here: doorbells and token writes act. -/
theorem witness_DoorbellsAndTokenWritesAct :
    (let d := ringed ready 65535 (fun R => { R with unread := 1 })
     d.hostReady = true ∧ (d.ring 65535).state = RingState.ACTIVE ∧ ¬ 2 ^ (d.ring 65535).sqLog ≤ 15 ∧ 2 ^ (d.ring 65535).sqLog ≤ 16 ∧ d.follows = false ∧
       d.localMode = false ∧ (d.ring 65535).cqOn = true ∧ (d.ring 65535).frees 1 ≤ (d.ring 65535).unread ∧
       (d.ring 65535).unread < (d.ring 65535).frees 2 ∧ 1 ≠ (d.ring 65535).head ∧ (d.ring 65535).head = 0) ∧
    (ready.ring 0).state ≠ RingState.ACTIVE ∧ (tget (fun _ => {}) ready.ringEng.tokens 4095).cycle ≠ ready.cycle + 1 ∧
    (let k : TokenCyc := { cycle := 1, sets := [(true, 3), (false, 7)], notes := 1 }
     ({ ready with ringEng := { ready.ringEng with tokens := [(4095, k)] } } : Dev).tokenCyc 4095 = k) := by decide

/-- The hypotheses of `Obligations.DescriptorsAreReadDispatchedOrderedAndReported` hold together here: descriptor reads and host errors. -/
theorem witness_DescriptorReadsAndHostErrors :
    (let d := ringed ready 65535 (fun R => { R with tail := 15 })
     d.asleep = false ∧ d.mayRead 65535 = true ∧ (d.ring 65535).unfetched = 15 ∧ (d.ring 65535).unfetched ≠ 0 ∧ (d.ring 65535).descs = [] ∧
       d.room 65535 = true ∧ (∀ y, y ∈ d.tracker → y.id < d.nextId)) ∧
    (let d := ringed ready 65535 (fun R => { R with tail := 15, descs := [(0, some 1)] })
     d.mayRead 65535 = true ∧ (d.ring 65535).unfetched ≠ 0 ∧ (d.ring 65535).descs = (0, some 1) :: []) ∧
    (let d := ringed (tracking ready [{ entry 1 0 with ring := 65535 }]) 65535 (fun R => { R with tail := 15, window := 1 })
     d.mayRead 65535 = true ∧ (d.ring 65535).unfetched ≠ 0 ∧ (d.ring 65535).descs = [] ∧ d.room 65535 = false) ∧
    (let x : Entry := { entry 1 0 with ring := 65535 }
     let y : Entry := { entry 2 0 with ring := 65535 }
     let d := ringed (tracking ready [x, y]) 65535 id
     d.asleep = false ∧ d.entry? 1 = some x ∧ x.done = false ∧ (d.ring x.ring).state ≠ RingState.HALTED ∧ (∀ z, z ∈ d.entriesOf x.ring → 1 < z.id → z.begun = false) ∧
       y ∈ d.entriesOf x.ring ∧ d.entry? y.id = some y ∧ y.done = false) := by decide

/-- Part `d` whose ring 65,535 holds descriptor `x` at its head. -/
def atHead (d : Dev) (x : Nat) : Dev := { ringed d 65535 (fun R => { R with descs := [(3, some x)], cls := 3, window := 1 }) with nextId := 9 }

/-- The hypotheses of `Obligations.DescriptorsAreReadDispatchedOrderedAndReported` hold together here: dispatch takes the ready ring. -/
theorem witness_DispatchTakesTheReadyRing :
    (∀ y, y ∈ [(2, 0, 0x00), (2, 64, 0x21), (4, 0, 0x21), (1, 0, 0x21)] →
     let x := desc y.2.2 y.2.1 []
     let d := having (atHead ready x) [(.TW_STATUS_ROLE, 0, if y.1 = 2 then 0 else y.1)]
     d.asleep = false ∧ ((d.rings.map (·.1)).filter (fun q => d.ready q || d.waitOver q) = [65535]) ∧ d.waitOver 65535 = false ∧ (d.ring 65535).cls < 4 ∧
       d.ringEng.freeAt ≤ d.now ∧ (d.ring 65535).descs = (3, some x) :: [] ∧
       (∀ z, z ∈ d.tracker → z.id < d.nextId) ∧ (badDesc x = true ↔ y.2.1 = 64) ∧ (d.follows = true ∧ standbyRuns (descOp x) = false ↔ y.1 = 4) ∧
       ((d.role = 1 ∨ d.role = 6) ∧ touchesPins (descOp x) = true ↔ y.1 = 1)) ∧
    (let d := ringed ready 65535 (fun R => { R with descs := [(3, none)], cls := 3, window := 1 })
     d.asleep = false ∧ ((d.rings.map (·.1)).filter (fun q => d.ready q || d.waitOver q) = [65535]) ∧ d.waitOver 65535 = false ∧
       (d.ring 65535).descs = (3, none) :: [] ∧ d.follows = false) ∧
    ((ready.rings.map (·.1)).filter (fun q => ready.ready q || ready.waitOver q) = []) ∧
    (having ready [(.KL_STATUS_PSTATE, 0, 1)]).asleep = true := by decide

/-- The hypotheses of `Obligations.DescriptorsAreReadDispatchedOrderedAndReported` hold together here: ordering descriptors act. -/
theorem witness_OrderingDescriptorsAct :
    (∀ op, op < 3 → let x := entry 2 (desc op 4095 [(8, 5), (12, 1)])
     (tracking ready [x]).open? 2 op = some x ∧ (tracking ready [x]).aloneBefore x = true ∧ (tracking ready [entry 1 0, x]).aloneBefore x = false ∧
       (tget (fun _ => {}) (tracking ready [x]).ringEng.tokens (descTarget x.desc)).cycle ≠ (tracking ready [x]).cycle + 1) ∧
    (let x := desc 0x03 4095 [(8, 5), (12, 1)]
     (let d := atHead ready x
      d.asleep = false ∧ (d.ring 65535).descs = (3, some x) :: [] ∧ (d.ring 65535).state = RingState.ACTIVE ∧ isWait (some x) = true ∧ d.headFree 65535 (some x) = true ∧
        (d.ring 65535).waitAt = none) ∧
     (∀ v, v ∈ [4, 5] → let d : Dev := { having ((atHead ready x).upRing 65535 (fun R => { R with waitAt := some 0 })) [(.RG_TOKEN_VALUE, 4095, v)] with now := ms 1 }
      d.asleep = false ∧ d.heldWait 65535 = some (3, x, 0) ∧ (d.ring 65535).descs.drop 1 = [] ∧ d.waitOver 65535 = true ∧
        d.nextTurn.map (·.2.1) = some 65535 ∧ d.waiting (fun w => w == .ctx 65535) = false ∧ d.satisfied x = decide (v = 5) ∧ (∀ y, y ∈ d.tracker → y.id < d.nextId) ∧ descField x 12 0 32 ≠ 0 ∧ 0 + ms (descField x 12 0 32) ≤ d.now ∧
        d.room 65535 = true ∧ ((d.tokenSeen (descTarget x) + 2 ^ 32 - descField x 8 0 32) % 2 ^ 32 < 2 ^ 31 ↔ v = 5))) := by decide

/-- A NOP of ring 65,535 that has completed, with a notice of its own and NTOKEN 4,095. -/
def done0 : Entry := { entry 1 (2 ^ 9 + 2 ^ 10 + 4095 <<< 496) with ring := 65535, done := true, reported := true }

/-- The hypotheses of `Obligations.DescriptorsAreReadDispatchedOrderedAndReported` hold together here: completions are reported and written. -/
theorem witness_CompletionsAreReportedAndWritten :
    (let x := { done0 with reported := false }
     let d := tracking ready [x]
     d.entry? 1 = some x ∧ x.done = true ∧ x.reported = false ∧ d.role ≠ 3 ∧ d.follows = false ∧ d.noteOf x = none ∧
       d.unseen (Requester.ofEntry 1) = false) ∧
    (let d := ringed (tracking ready [done0]) 65535 (fun R => { R with vector := 2047 })
     d.asleep = false ∧ d.role ≠ 3 ∧ d.follows = false ∧ d.freeSlots (d.ring 65535).cq ≠ 0 ∧ d.nextRecord 65535 = some done0 ∧ descFlag done0.desc 1 = true ∧
       descFlag done0.desc 2 = true ∧ (d.ring (d.ring 65535).cq).vector = 2047 ∧ d.masked 2047 = true ∧
       (having d [(.RG_MSIX_CTRL_MASK, 2047, 0)]).masked 2047 = false ∧ (d.vec 2047).sent = none ∧
       (tget (fun _ => {}) d.ringEng.tokens 4095).cycle ≠ d.cycle + 1) ∧
    (let d := having (ringed ({ tracking ready [done0] with vectors := [(2047, { sent := some 0 })] } : Dev) 65535 (fun R => { R with vector := 2047, holdoff := 1 }))
       [(.RG_MSIX_CTRL_MASK, 2047, 0)]
     d.nextRecord 65535 = some done0 ∧ d.masked 2047 = false ∧ (d.vec 2047).sent = some 0 ∧ d.now < 0 + us (d.ring 65535).holdoff) ∧
    (let d := having ({ ready with vectors := [(2047, { req := true })] }) [(.RG_MSIX_CTRL_MASK, 2047, 0)]
     d.asleep = false ∧ (d.vec 2047).req = true ∧ (d.vec 2047).hold ≤ d.now ∧ d.masked 2047 = false ∧
       ready.masked 2047 = true) := by decide

/-- The hypotheses of `Obligations.RegisterCompanionAndReportDescriptorsAct` hold together here: register descriptors move their registers. -/
theorem witness_RegisterDescriptorsMoveTheirRegisters :
    (∀ n, n ∈ [0, 1, 65536] → let x := entry 1 (desc 0x08 0 [(8, 4096), (16, n)])
     (tracking ready [x]).open? 1 0x08 = some x ∧ x.due = 0 ∧ (n = 0 ∨ 65536 < n ↔ n = 0) ∧ descField x.desc 8 0 64 % 16 = 0 ∧ (n ≠ 0 → x.progress < n)) ∧
    (let x := entry 1 (desc 0x08 0 [(8, 4096), (16, 1)])
     let q := Dev.applyPair Mems.blank ((tracking ready [x]).ask 4096 16) (0x10_0070 + 5 * 2 ^ 64)
     q.2.entry? 1 = some x ∧ q.2.pairDue 0x10_0070 = 0) ∧
    (∀ n, n ∈ [0, 1, 4096, 4097] → let x := entry 1 (desc 0x09 0 [(8, 0x10_0070), (12, n), (16, 4096)])
     (tracking ready [x]).open? 1 0x09 = some x ∧ (tracking ready [x]).follows = false ∧ descField x.desc 12 0 16 = n) := by decide

/-- A PE_XFER of octet 31: one byte out, `r` back. -/
def xfer31 (r : Nat) : Entry := entry 1 (desc 0x28 31 [(16, 4096), (24, 1), (26, r)])

/-- The hypotheses of `Obligations.RegisterCompanionAndReportDescriptorsAct` hold together here: companion transfers run and end. -/
theorem witness_CompanionTransfersRunAndEnd :
    (∀ r, r ∈ [1, 4096, 4097] → (tracking ready [xfer31 r]).open? 1 0x28 = some (xfer31 r) ∧ (xfer31 r).stopping = false ∧ peTx (xfer31 r) = 1 ∧ peRx (xfer31 r) = r ∧
      (tracking ready [xfer31 r]).peAhead (xfer31 r) = false) ∧
    (let x := { xfer31 1 with stopping := true }
     (tracking ready [x]).open? 1 0x28 = some x ∧ (tracking ready [x]).follows = false) ∧
    (let x := { xfer31 1 with begun := true, started := true }
     let d : Dev := { tracking ready [x] with now := us 1000 }
     d.open? 1 0x28 = some x ∧ x.stopping = false ∧ d.peAhead x = false ∧ d.follows = false ∧ x.due + us (peTmo x) ≤ d.now ∧
       (0xC0 : Byte).getLsbD 7 = true ∧ (0xC0 : Byte).getLsbD 6 = true ∧ (0x80 : Byte).getLsbD 6 = false) := by decide

/-- The hypotheses of `Obligations.RegisterCompanionAndReportDescriptorsAct` hold together here: report descriptors put their records. -/
theorem witness_ReportDescriptorsPutTheirRecords :
    (∀ m, m < 3 → let x := entry 1 (desc 0x48 0 [(8, 1 + m * 16), (10, 511), (12, 1)])
     (tracking ready [x]).open? 1 0x48 = some x ∧ x.stopping = false ∧ descField x.desc 8 4 2 = m ∧ calRange x = true ∧ calList x = [511] ∧
       (tracking ready [x]).calDown 1 511 = false ∧ ((tracking ready [x]).calUnit 1 511).req = none ∧ ((tracking ready [x]).calUnit 1 511).state ≠ 4) ∧
    (let x := entry 1 (desc 0x48 0 [(8, 1), (10, 511), (12, 2)])
     calRange x = false) ∧
    (let x := entry 1 (desc 0x49 0 [(8, 0), (10, 255), (12, 1), (24, 32)])
     (tracking ready [x]).open? 1 0x49 = some x ∧ (tracking ready [x]).follows = false ∧ calRange x = true ∧
       min (calNamed x).2.2 (descField x.desc 24 0 32 / 32) = 1) ∧
    (let x := { entry 1 (desc 0x49 0 [(8, 0), (10, 0), (12, 4), (24, 128)]) with stopping := true, progress := 1 }
     (tracking ready [x]).open? 1 0x49 = some x ∧ (tracking ready [x]).follows = false ∧ calRange x = true ∧
       min (calNamed x).2.2 (descField x.desc 24 0 32 / 32) = 4) ∧
    (∀ s, s ∈ [4095, 4096] → let x := entry 1 (desc 0x58 0 [(8, s), (10, 4096)])
     (tracking ready [x]).open? 1 0x58 = some x ∧ descField x.desc 8 0 16 = s ∧ descField x.desc 10 0 16 = 4096) ∧
    (let x := entry 2 (desc 0x60 0 [])
     (tracking ready [x]).open? 2 0x60 = some x ∧ (tracking ready [x]).role ≠ 3 ∧
       (let d := having (tracking ready [{ entry 1 0 with mirrored := true }, x]) [(.TW_STATUS_ROLE, 0, 3)]
        d.role = 3 ∧ { entry 1 0 with mirrored := true } ∈ d.entriesOf x.ring)) ∧
    (ready.kl.powered = true ∧ ready.serves = true) := by decide

/-! ## Memory -/

/-- A read of a pin's stream at address 64. -/
def req0 : Req := { no := 0, write := false, who := .stream 0, addr := 64, len := 32 }

/-- The hypotheses of `Obligations.MemoryServesRefreshesAndSwitches` hold together here: memory serves the picked request. -/
theorem witness_MemoryServesThePickedRequest :
    (let d : Dev := { ready with pcs := [(63, { reads := [req0] })] }
     d.pcFree 63 = true ∧ d.urgentNow 63 = false ∧ d.mc.bad = [] ∧ d.pick 63 false = some req0 ∧ (d.pc 63).draining = false ∧ (d.pc 63).writes = [] ∧
       d.drains 63 = false ∧ d.bankHeld 63 (d.bankOf req0.addr) = false ∧
       req0.who = .stream 0 ∧ req0.write = false ∧ req0.len ≠ 0 ∧ d.on .MC_ERR_VALID 0 = false) ∧
    (∀ x, x ∈ [(false, 48, 0, true), (true, 17, 31, true), (true, 16, 31, false), (true, 48, 32, false), (false, 47, 0, false)] →
     let w : Req := { no := 0, write := true, who := .window, addr := 64, len := 8 }
     let d : Dev := { ready with pcs := [(63, { reads := [req0], writes := List.replicate x.2.1 w, draining := x.1, moved := x.2.2.1 })] }
     d.pcFree 63 = true ∧ d.urgentNow 63 = false ∧ d.drains 63 = x.2.2.2 ∧ d.pick 63 x.2.2.2 = some (if x.2.2.2 then w else req0)) ∧
    (let d : Dev := { ready with pcs := [(63, { reads := [req0], bankTo := [(0, 1)] })] }
     d.pick 63 (d.drains 63) = some req0 ∧ d.bankHeld 63 (d.bankOf req0.addr) = true) ∧
    (let d : Dev := { ready with pcs := [(63, { catchEnd := 1 })] }
     d.pcFree 63 = false) ∧
    (having ready [(.MC_ERR_VALID, 0, 1)]).on .MC_ERR_VALID 0 = true := by decide

/-- The hypotheses of `Obligations.MemoryServesRefreshesAndSwitches` hold together here: memory refreshes closes and retrains. -/
theorem witness_MemoryRefreshesClosesAndRetrains :
    (let d : Dev := { ready with pcs := [(63, { debt64 := 64 * 3900 })] }
     d.pcFree 63 = true ∧ d.refreshDue 63 = true ∧ d.bankHeld 63 (d.rd .MC_PC_STATUS_NEXT_BANK 63) = false ∧ ready.refreshDue 63 = false) ∧
    (let d : Dev := { ready with pcs := [(63, { rows := [(63, some ⟨5, 0, 0⟩)] })], now := ns 200 }
     tget (fun _ => none) (d.pc 63).rows 63 = some ⟨5, 0, 0⟩ ∧ d.asleep = false ∧ 0 + ns 200 ≤ d.now) ∧
    (ready.stackOk 1 = true ∧ ready.inSR 1 = false ∧ tget (fun _ => 0) ready.mc.repDue 1 ≤ ready.now) ∧
    (∀ n, n < 2 → let d : Dev := { ready with pcs := [(63, { trainFails := n, trainAt := 0 })], now := secs 10 }
     d.pcFree 63 = true ∧ d.retrainDue 63 = true ∧ d.stackTraining (63 / 32) = false ∧ d.on .MC_STATUS_OP_PENDING 0 = false) := by decide

/-- The hypotheses of `Obligations.MemoryServesRefreshesAndSwitches` hold together here: memory modes and patrol scrub. -/
theorem witness_MemoryModesAndPatrolScrub :
    (ready.hostReady = true ∧ ready.on .FC_STATE_SAFE 0 = false ∧ ready.mcIdle = true ∧ (site0 5).mcIdle = false) ∧
    (let d := having ready [(.MC_STATUS_OP_PENDING, 0, 1)]
     d.asleep = false ∧ d.on .MC_STATUS_OP_PENDING 0 = true ∧ d.pcs.all (fun x => decide (x.2.trainEnd ≤ d.now)) = true ∧ d.stackOk 1 = true) ∧
    (let d : Dev := { having ready [(.MC_CTRL_SR_IDLE_US, 0, 1)] with now := us 1 }
     d.stackOk 1 = true ∧ d.inSR 1 = false ∧ d.isSafe = false ∧ d.mcIdle = true ∧ d.memInFlight = false ∧ d.rd .MC_CTRL_SR_IDLE_US 0 ≠ 0 ∧
       d.rd .KL_STATUS_PSTATE 0 = 2 ∧ (∀ k, k < 2 → tget (fun _ => 0) d.mc.lastReq k + us (d.rd .MC_CTRL_SR_IDLE_US 0) ≤ d.now) ∧
       d.pcs.all (fun x => x.2.reads.isEmpty && x.2.writes.isEmpty) = true ∧ d.on .MC_STATUS_OP_PENDING 0 = false) ∧
    (∀ x, x ∈ [(0, true, true), (0, false, true), (0, true, false), (us 250, true, true)] →
     let R : Ring := { state := 3, cqOn := true, cq := 65535 }
     let d : Dev := { having ready [(.FC_STATE_SAFE, 0, 1)] with
       now := x.1, rings := [(65535, R)], ringEng := { cache := if x.2.2 then [] else [65535] }
       tracker := if x.2.1 then [] else [{ done0 with reported := false }] }
     d.stackOk 1 = true ∧ d.inSR 1 = false ∧ d.isSafe = true ∧ d.recordsDone = x.2.1 ∧ d.storeContexts.ctxWaits = !x.2.2 ∧
       (d.fullTime (d.rd .FC_SAFE_TIME_T 0) + us 250 ≤ d.bed ↔ x.1 = us 250)) ∧
    (let d := having (site0 5) [(.MC_STATUS_SR, 0, 2)]
     d.inSR 1 = true ∧ d.stackOk 1 = true ∧ d.memWanted 1 = true ∧ d.rd .KL_STATUS_PSTATE 0 ≠ 1 ∧ d.isSafe = false) ∧
    (let d : Dev := having ready [(.MC_CTRL_SCRUB_H, 0, 1)]
     d.scrubDue = true ∧ d.pcFree (d.pcOf 0) = true ∧ (d.pc (d.pcOf 0)).reads = [] ∧ d.drains (d.pcOf 0) = false ∧
       d.debt64 (d.pcOf 0) < 64 * trefi (d.rd .MC_PC_STATUS_RBAND (d.pcOf 0)) ∧ d.bankHeld (d.pcOf 0) (d.bankOf 0) = false ∧ d.mc.scrub ∉ d.mc.bad) := by decide

/-! ## Bedrock -/

/-- The hypotheses of `Obligations.BedrockHoldsOverStepsAndFollows` hold together here: reference loss holds over. -/
theorem witness_ReferenceLossHoldsOver :
    (∀ x, x < 2 → let d := having ready [(.BR_CTRL_FAILOVER, 0, 1), (.BR_CTRL_REFSEL, 0, 1), (.BR_STATUS_REF_NOW, 0, 1), (.BR_STATUS_XTAL_OK, 0, x)]
     d.asleep = false ∧ d.br.lossNow = false ∧ d.on .BR_CTRL_FAILOVER 0 = true ∧ d.rd .BR_CTRL_REFSEL 0 ≠ 0 ∧ d.rd .BR_STATUS_REF_NOW 0 ≠ 0 ∧
       (d.on .BR_STATUS_XTAL_OK 0 = true ↔ x = 1)) ∧
    (let d : Dev := { having ready [(.BR_STATUS_CORE_LOCK, 0, 1)] with br := { lossNow := true, holdAt := some 0 }, now := ms 100 }
     d.br.holdAt = some 0 ∧ 0 + ms 100 ≤ d.now ∧ d.on .BR_STATUS_CORE_LOCK 0 = true ∧ d.br.lossNow = true ∧ d.booting = none ∧ d.asleep = false) ∧
    (let d : Dev := { having ready [(.KL_STATUS_PSTATE, 0, 1)] with br := { lossNow := true }, booting := some ⟨0, 0, true, true, true, 0, 0, [], 0, 0⟩ }
     d.asleep = true ∧ d.br.lossNow = true ∧ d.booting.isSome = true) ∧
    ready.br.lossNow = false ∧ ready.br.holdAt = none := by decide

/-- The hypotheses of `Obligations.BedrockHoldsOverStepsAndFollows` hold together here: steps and discipline move bedrock time. -/
theorem witness_StepsAndDisciplineMoveBedrockTime :
    (ready.hostReady = true ∧ ready.rd .BR_CTRL_MODE 0 ≠ 2 ∧ ready.brRunning = false ∧ (site0 5).brRunning = true ∧ (site0 5).on .FC_STATE_SAFE 0 = false) ∧
    (let d := having ready [(.BR_CTRL_MODE, 0, 1), (.BR_STATUS_DSTATE, 0, 1)]
     (0 < cycleTicks ∧ 16383 < cycleTicks ∧ d.asleep = false ∧ d.rd .BR_CTRL_MODE 0 = 1) ∧
     (let e : Dev := { d with br := { ppsAny := true } }
      e.br.ppsAny = true ∧ e.now + ms 1 < e.br.ppsAt + secs 1) ∧
     (let e : Dev := { d with now := us 2, bedOff := 0 }
      e.rd .BR_STATUS_DSTATE 0 = 1 ∧ e.br.stepped = false ∧ (1000 : Int) * cycleTicks ≤ phaseError (e.bed / 64 * 64) ∧ e.brRunning = false)) ∧
    (let d : Dev := { having (site0 5) [(.BR_CTRL_MODE, 0, 1), (.BR_STATUS_DSTATE, 0, 1), (.FC_STATE_SAFE, 0, 1)] with now := us 2 }
     d.asleep = false ∧ d.br.stepped = false ∧ d.br.ppsAny = false ∧ (1000 : Int) * cycleTicks ≤ phaseError (d.bed / 64 * 64) ∧ d.brRunning = true ∧
       d.on .FC_STATE_SAFE 0 = true) ∧
    (let d : Dev := { having ready [(.BR_STATUS_DSTATE, 0, 2)] with now := ms 2500 }
     d.asleep = false ∧ d.br.ppsAt + ms 2500 ≤ d.now ∧ d.rd .BR_STATUS_DSTATE 0 = 2) ∧
    (let d : Dev := { ready with now := secs 86400 }
     d.br.dayAt + secs 86400 ≤ d.bed ∧ 2 ≤ d.rd .KL_STATUS_PSTATE 0 ∧ (having d [(.KL_STATUS_PSTATE, 0, 1)]).rd .KL_STATUS_PSTATE 0 < 2 ∧
       ready.bed < ready.br.dayAt + secs 86400) := by decide

/-! ## Rein -/

/-- A part with port 3 enabled in state `v`, with role `r`. -/
def port3 (v r : Nat) (l : List (Fld × Nat × Nat)) : Dev :=
  having ready ([(.DEV_UNITS_REIN_OK, 0, 15), (.RN_PORT_CTRL_EN, 3, 1), (.RN_PORT_CTRL_ROLE, 3, r), (.RN_PORT_STATUS_LSTATE, 3, v)] ++ l)

/-- The hypotheses of `Obligations.PortsTrainCarryFramesAndTime` hold together here: ports train come up and lose lock. -/
theorem witness_PortsTrainComeUpAndLoseLock :
    (let d := having ready [(.DEV_UNITS_REIN_OK, 0, 15)]
     d.hostReady = true ∧ d.on .RN_PORT_CTRL_EN 3 = false ∧ d.lstate 3 = Lst.OFF ∧ bitAt (0x80000103 : Word).toNat 31 = true ∧
       bits (0x80000103 : Word).toNat 8 2 < 2 ∧ d.reinOn 3 = true) ∧
    (∀ v, v ∈ [1, 2, 4] → let d := (port3 v 0 [(.RN_PORT_CTRL_RATE_MAX, 3, 0)]).upPort 3 (fun P => { P with step := some 0 })
     d.hostReady = true ∧ d.on .RN_PORT_CTRL_EN 3 = true ∧ bits (0x80000003 : Word).toNat 0 2 ≠ d.rd .RN_PORT_CTRL_RATE_MAX 3 ∧ d.lstate 3 = v ∧
       (d.port 3).step.isSome = true ∧ (d.port 3).detectAt ≤ d.now ∧ (d.port 3).pendAt = none ∧ (d.port 3).good = none) ∧
    (∀ x, x ∈ [(0, 0, 0), (1, 0, 0), (0, 15, 0), (0, 15, 3)] →
     let d := port3 2 0 [(.RN_PORT_STATUS_RATE_NOW, 3, x.1), (.RN_PORT_CTRL_RATE_MAX, 3, x.2.2), (.RN_PORT_PEER_PEER_RATE, 3, x.2.2),
       (.RN_PORT_CTRL_WIDTH_MAX, 3, 2)]
     let w := widthFit (d.goodLanes 3 x.2.1 [4095, 4095, 4095, 4095] &&& 15) (min (widthOf (d.rd .RN_PORT_CTRL_WIDTH_MAX 3)) (widthOf 2))
     (w = 0 ↔ x.2.1 = 0) ∧ d.rd .RN_PORT_STATUS_RATE_NOW 3 = x.1 ∧ (d.rateUp 3 x.1 = none ↔ x.2.2 = 0)) ∧
    (∀ g, g ∈ [(0, 2), (0, 1), (1, 4)] → let d := (port3 2 0 [(.RN_PORT_STATUS_RATE_NOW, 3, 1), (.RN_PORT_CTRL_WIDTH_MAX, 3, 2)]).upPort 3 (fun P => { P with good := some g })
     let w := widthFit (d.goodLanes 3 1 [4095, 4095, 4095, 4095] &&& 15) (min (widthOf (d.rd .RN_PORT_CTRL_WIDTH_MAX 3)) (widthOf 2))
     d.lstate 3 = Lst.TRAIN ∧ (d.port 3).pendAt = none ∧ w = 1 ∧ d.rd .RN_PORT_STATUS_RATE_NOW 3 = 1 ∧ (d.port 3).good = some g) ∧
    ((port3 2 0 []).upPort 3 (fun P => { P with pendAt := some 0 }) |>.port 3).pendAt.isSome = true := by decide

/-- Blocks as one number of FRAME's operands spells them. -/
def pack (l : List Nat) : Nat := l.foldr (fun b v => b + v * 2 ^ 66) 0
/-- The lanes of a port of width `w` that carry the PRIORITY frame with SEQ 7 and the packets `l`. -/
def carried (w : Nat) (l : List SpanPkt) : List Nat := (stripe w (frameBlocks true 7 (l.flatMap SpanPkt.blocks))).map pack
/-- A HALT packet of tag 9. -/
def halt9 : SpanPkt := ⟨.halt, 9, 0, 64⟩
/-- A sent frame. -/
def tx (seq at_ sent : Nat) : TxFrame := ⟨seq, at_, sent, [], []⟩

/-- What leaves on the lanes is what comes back from them, for every width. -/
theorem test_frames_pass_the_lanes :
    ∀ w, w ∈ [1, 2, 4] → (laneFrames ((carried w [halt9]).map laneBlocks)).map (fun f => (f.pri, f.seq, f.ok, pktsOf f.data)) = [(true, 7, true, [halt9])] := by
  decide +kernel

/-- A bit in error is found by the CRC. -/
theorem test_frame_error_found :
    (laneFrames [(stripe 1 (frameBlocks true 7 halt9.blocks)).flatten.set 1 (dataBlock 5)]).map (·.ok) = [false] := by decide +kernel

/-- The check value of CRC-32C over "123456789". -/
theorem test_crc32c : crc32c [0x31, 0x32, 0x33, 0x34, 0x35, 0x36, 0x37, 0x38, 0x39] = 0xE3069283 := by decide +kernel

/-- Lanes that lie 8 block times apart are aligned on their SKIP sets, 9 apart are not. -/
theorem test_alignment :
    let lane := fun n => List.replicate n (ctlBlock Blk.IDLE 0) ++ [ctlBlock Blk.SKIP 0, dataBlock n]
    (align [lane 0, lane 8]).map (·.map (·.headD 0)) = some [ctlBlock Blk.SKIP 0, ctlBlock Blk.SKIP 0] ∧ align [lane 0, lane 9] = none := by
  decide +kernel

/-- The hypotheses of `Obligations.PortsTrainCarryFramesAndTime` hold together here: frames replay and figure of merit. -/
theorem witness_FramesReplayAndFigureOfMerit :
    (let d := port3 4 0 [(.RN_PORT_CTRL_FOM_MIN, 3, 100), (.RN_LANE_STATUS_SNAP, 15, 200)]
     d.lstate (15 / 4) = Lst.UP ∧ d.rd .RN_PORT_CTRL_FOM_MIN (15 / 4) ≤ min 100 4095 ∧ 10 * 100 < 9 * d.rd .RN_LANE_STATUS_SNAP 15 ∧
       (d.rnLane 15).calmTo ≤ d.now) ∧
    (let d := (port3 4 0 []).upPort 3 (fun P => { P with txP := [tx 4095 0 1, tx 0 0 8], txN := [tx 5 0 1] })
     d.lstate 3 = Lst.UP ∧ d.sends 3 = true ∧ ((d.port 3).tx true).any (fun f => seqFrom f.seq 4095 && decide (8 ≤ f.sent)) = true ∧
       ((d.port 3).tx false).any (fun f => seqFrom f.seq 5) = true ∧ ((d.port 3).tx false).any (fun f => seqFrom f.seq 5 && decide (8 ≤ f.sent)) = false) ∧
    (let d : Dev := { (port3 4 0 []).upPort 3 (fun P => { P with txP := [tx 0 0 1] }) with now := us 8 }
     d.sends 3 = true ∧ (d.port 3).txN.any (fun f => decide (f.at_ + us 8 ≤ d.now)) = false ∧
       (d.port 3).txP.any (fun f => decide (f.at_ + us 8 ≤ d.now) && decide (8 ≤ f.sent)) = false ∧
       (d.port 3).txP.any (fun f => decide (f.at_ + us 8 ≤ d.now)) = true) ∧
    ((port3 4 0 []).on .RN_PORT_STATUS_PEER_FAULT_NOW 3 = false ∧ (port3 4 0 [(.RN_PORT_STATUS_PEER_FAULT_NOW, 3, 1)]).on .RN_PORT_STATUS_PEER_FAULT_NOW 3 = true) := by
  decide

/-- The PRIORITY frame `f` that port 3 receives. -/
def got (n : Nat) (l : List SpanPkt) : Option RxFrame :=
  (laneFrames (((carried 4 l).take ((port3 4 0 ((List.range 4).map (fun i => (.RN_LANE_STATUS_USED, 12 + i, 1)))).width 3)).map laneBlocks)).find? (fun f => f.pri == true && f.seq == n)

/-- The hypotheses of `Obligations.PortsTrainCarryFramesAndTime` hold together here: frames are taken in order. -/
theorem witness_FramesAreTakenInOrder :
    ((port3 4 0 [(.TW_CTRL_PORT, 0, 0)]).twinPort ≠ 3 ∧ (port3 2 0 []).lstate 3 ≠ Lst.UP ∧ (got 7 [halt9, halt9]).map (fun f => pktsOf f.data) = some [halt9, halt9]) ∧
    (port3 4 0 []).lstate 3 = Lst.UP ∧ (port3 4 0 []).rd .RN_PORT_CTRL_ROLE 3 = 0 ∧ got 8 [halt9] = none ∧
    (got 7 [halt9]).map (fun f => (f.ok, pktsOf f.data)) = some (true, [halt9]) ∧
    ((port3 4 0 []).upPort 3 (fun P => { P with rxP := 7 }) |>.port 3).rx true = 7 ∧ seqFrom 7 6 = true ∧ seqFrom 7 8 = false ∧
    seqFrom 7 (7 + 4096 - 2047) = true ∧ seqFrom 7 (7 + 2048) = false := by decide +kernel

/-- Site 0 in state `v`, a member of the span with tag 9 whose condition 31 is span-wide, port 3 carrying it. -/
def spanned (v : Nat) : Dev :=
  { (port3 4 0 [(.SITE_MEMBER_MASK, 0, 1), (.SITE_STATUS_STATE, 0, v), (.SITE_CTRL_SPAN_ROLE, 0, 1), (.SITE_SPAN_SPAN_TAG, 0, 9),
    (.SITE_SPAN_LAT_LAT, 0, 20), (.TA_SPAN_TAG, 0, 9), (.TA_SPAN_LAT, 0, 200), (.DEV_UNITS_TAU_OK, 0, 1), (.TA_SLOT_CTRL_EN, 15, 1), (.TA_SLOT_CTRL_SRC, 15, 6), (.TA_SLOT_CTRL_SEL, 15, 15)]) with
    active := [(fkey .SITE_SPAN_CMASK_CMASK 0, 2 ^ 31)] }

/-- The hypotheses of `Obligations.PortsTrainCarryFramesAndTime` hold together here: time exchanges and span packets act. -/
theorem witness_TimeExchangesAndSpanPacketsAct :
    (∀ t, t ∈ [none, some 0] → let d : Dev := { (port3 4 1 [(.RN_PORT_CTRL_UPSTREAM, 3, 1)]).upPort 3 (fun P => { P with t1 := t, exAt := t, ex := 255 }) with now := us 16 }
     d.lstate 3 = Lst.UP ∧ d.on .RN_PORT_CTRL_UPSTREAM 3 = true ∧ (t = none → (d.port 3).exAt = none) ∧ (t = some 0 → (d.port 3).exAt = some 0 ∧ 0 + us 16 ≤ d.now) ∧
       (d.port 3).t1 = t) ∧
    (let d := (port3 4 1 []).upPort 3 (fun P => { P with t1 := some 0, ex := 255, accepts := 15 })
     d.lstate 3 = Lst.UP ∧ 255 % 256 = (d.port 3).ex ∧ (d.port 3).t1 = some 0 ∧ (d.port 3).accepts < 16 ∧ d.rd .BR_CTRL_MODE 0 ≠ 2) ∧
    (let d := spanned 4
     d.spanIn 3 = true ∧ d.tagged 9 = [0] ∧ d.tagged 8 = [] ∧ d.bed + ns 20 ≤ d.fullTime 0 + ns (d.rd .SITE_SPAN_LAT_LAT 0) ∧ d.spanWide 0 31 = true) ∧
    (let d := (spanned 4).upSite 0 (fun S => { S with mode := 3 })
     d.siteState 0 = SiteState.ARMED ∧ (d.site 0).mode = 3 ∧ d.rd .TA_SPAN_TAG 0 = 9 ∧ 15 ∈ d.trigTagged 9 15) := by decide

/-! ## Twins -/

/-- A part whose twin port, port 0, is UP, in role `r`. -/
def twin (r : Nat) (l : List (Fld × Nat × Nat)) : Dev :=
  having ready ([(.TW_CTRL_EN, 0, 1), (.TW_CTRL_PORT, 0, 0), (.TW_STATUS_ROLE, 0, r), (.RN_PORT_CTRL_ROLE, 0, 1), (.RN_PORT_STATUS_LSTATE, 0, 4)] ++ l)

/-- The hypotheses of `Obligations.TwinsTakeRolesMirrorAndTakeOver` hold together here: twin roles and lease change. -/
theorem witness_TwinRolesAndLeaseChange :
    (ready.hostReady = true ∧ ready.anyRunning = false ∧ ready.role ≠ 2 ∧ ready.on .TW_CTRL_EN 0 = false ∧ (twin 3 []).on .TW_CTRL_EN 0 = true ∧
      (twin 3 []).role ≠ 2 ∧ (twin 3 []).anyRunning = false) ∧
    ((twin 1 []).role = 1 ∧ (twin 1 []).twinUp = true ∧ (twin 1 []).imageOf = 0 ∧ (twin 1 []).digestOf = 0 ∧ (twin 5 []).role = 5) ∧
    (let d : Dev := { having ready [(.TW_STATUS_ROLE, 0, 1)] with now := secs 100 }
     d.asleep = false ∧ d.role = 1 ∧ d.twinUp = false ∧ d.tw.seekAt + ms (d.rd .TW_LEASE_SEEK_MS 0) ≤ d.now) ∧
    (∀ r, r ∈ [2, 3, 4, 5] → let d : Dev := { twin r [] with now := secs 1 }
     2 ≤ d.role ∧ d.role ≤ 5 ∧ d.isSafe = false ∧ d.tw.hbAt + d.hbTicks ≤ d.now ∧ d.heartbeatGone = true ∧ d.tw.lostAt = none ∧ d.asleep = false) ∧
    (let d := twin 3 [(.TW_STATUS_OWN, 0, 1)]
     d.on .TW_STATUS_OWN 0 = true ∧ d.tw.lease ≤ d.now ∧ (twin 3 []).on .TW_STATUS_OWN 0 = false) ∧
    ((twin 6 []).role = 6 ∧ (twin 6 []).twinUp = true) ∧
    (let d : Dev := { twin 4 [(.TW_STATUS_PEER_OWN, 0, 1)] with now := secs 1, tw := { lostAt := some 0 } }
     d.tw.lostAt = some 0 ∧ d.role = 4 ∧ d.on .TW_STATUS_PEER_OWN 0 = true ∧ 0 + d.leaseTicks + us 50 ≤ d.now) := by decide

/-- The hypotheses of `Obligations.TwinsTakeRolesMirrorAndTakeOver` hold together here: mirroring and takeover act. -/
theorem witness_MirroringAndTakeoverAct :
    (let d := (twin 4 []).upRing 65535 (fun R => { R with fetch := 15, sqLog := 4 })
     d.twinUp = true ∧ d.follows = true ∧ d.nextMirror 65535 = 15 ∧ 15 < 2 ^ (d.ring 65535).sqLog ∧ d.hbmOk 4096 64 = true ∧ d.hbmOk (2 ^ 50) 64 = false) ∧
    (let d := (twin 4 []).upRing 65535 (fun R => { R with descs := [(3, some 0)] })
     d.tracker.any (fun x => x.ring == 65535 && x.idx == 3) = false ∧ (d.ring 65535).descs.any (fun x => x.1 == 3) = true) ∧
    (let d := tracking (twin 3 []) [{ entry 1 0 with noticed := true }]
     d.role = 3 ∧ d.twinUp = true ∧ d.entry? 1 = some { entry 1 0 with noticed := true }) ∧
    (∀ o, o ∈ [none, some 0] → let d : Dev := { twin 4 [] with now := secs 1, tw := { lostAt := some 0, ownAt := o } }
     d.role = 4 ∧ d.tw.lostAt.isSome = true ∧ d.on .TW_STATUS_PEER_OWN 0 = false ∧ d.tw.peerOffAt + us 10 ≤ d.now ∧ d.tw.ownAt = o ∧
       0 + us (d.rd .TW_TIMING_SWITCH_US 0) ≤ d.now) := by decide

/-! ## Kiln -/

/-- The hypotheses of `Obligations.KilnStepsHoldsItsBoundaryAndSleeps` hold together here: model step moves nodes and judges limits. -/
theorem witness_ModelStepMovesNodesAndJudgesLimits :
    (let d : Dev := { having ready [(.KL_STATUS_STALE, 0, 0), (.KL_STATUS_TRIP, 0, 0)] with now := us 10 }
     d.kl.powered = true ∧ d.kl.stepAt + us 10 ≤ d.now ∧ d.on .KL_STATUS_STALE 0 = false ∧ d.on .KL_STATUS_TRIP 0 = false) ∧
    ready.now < ready.kl.stepAt + us 10 := by decide

/-- The hypotheses of `Obligations.KilnStepsHoldsItsBoundaryAndSleeps` hold together here: boundary is taken counted or stale. -/
theorem witness_BoundaryIsTakenCountedOrStale :
    (let d : Dev := { having ready [(.KL_CTRL_BSRC, 0, 1), (.KL_STATUS_STALE, 0, 0)] with now := secs 70 }
     d.kl.powered = true ∧ d.on .KL_CTRL_BSRC 0 = true ∧ d.kl.bsAt + ms (max 1 (d.rd .KL_BS_CFG_PERIOD_MS 0)) ≤ d.now ∧ d.on .KL_STATUS_STALE 0 = false ∧
       d.boundNow.2 = true ∧ d.hostReady = true) ∧
    (-640 ≤ sgn 12 (0xD800 % 65536 / 16) ∧ sgn 12 (0xD7F0 % 65536 / 16) < -640 ∧ sgn 12 (0x7D00 % 65536 / 16) ≤ 2000 ∧ 2000 < sgn 12 (0x7D10 % 65536 / 16)) ∧
    (having ready [(.KL_CTRL_BSRC, 0, 0)]).on .KL_CTRL_BSRC 0 = false := by decide

/-- The hypotheses of `Obligations.KilnStepsHoldsItsBoundaryAndSleeps` hold together here: sleep is asked entered and left. -/
theorem witness_SleepIsAskedEnteredAndLeft :
    (let d : Dev := { having ready [(.KL_PSTATE_AUTO_MS, 0, 1)] with now := ms 1 }
     d.hostReady = true ∧ d.rd .KL_PSTATE_AUTO_MS 0 ≠ 0 ∧ d.pstate = 2 ∧ d.serves = true ∧ d.kl.hostAt + ms 1 ≤ d.now) ∧
    (let d := ready.upKl (fun K => { K with reqSleep := true })
     d.kl.reqSleep = true ∧ d.maySleep = true ∧ d.stackOk 0 = true ∧ ready.kl.reqSleep = false ∧ (site0 5).maySleep = false) ∧
    (let d := having ready [(.KL_STATUS_PSTATE, 0, 1)]
     d.rd .KL_STATUS_PSTATE 0 = 1 ∧ d.kl.powered = true ∧ d.br.lossNow = false) ∧
    (let d : Dev := { having ready [(.KL_CTRL_POLICY, 0, 1)] with now := secs 10 }
     bitAt (d.rd .BR_STATUS_QPLL_READY 0) 3 = true ∧ d.pllNeed 3 = false ∧ (d.pll 3).idleSince + us (d.rd .KL_CTRL_PLL_IDLE_US 0) ≤ d.now ∧
       (site0 5).pllNeed 0 = true) ∧
    (let d : Dev := { ready.upKl (fun K => { K with burstAt := some 0 }) with now := secs 100000 }
     d.kl.burstAt = some 0 ∧ 0 + secs (d.rd .KL_BALLAST_HOLD_S 0) ≤ d.now) := by decide

/-! ## Strop -/

/-- The hypotheses of `Obligations.StropStepsRetriesAndForcesWindows` hold together here: calibration steps are rejected or kept. -/
theorem witness_CalibrationStepsAreRejectedOrKept :
    ∀ r, r ∈ [none, some 9] → let d := (having ready [(.DEV_UNITS_WAVE_OK, 0, 255), (.SP_CTRL_EN, 0, 1)]).upCal 4 7 (fun U => { U with req := r })
      (7 < calUnits 4 ∧ d.serves = true ∧ d.isSafe = false ∧ 2 ≤ d.rd .KL_STATUS_PSTATE 0 ∧ 0 < calSteps 4 ∧ ¬ 1 < calSteps 4 ∧ d.calFree 4 7 = true ∧
        d.calWanted 4 7 0 = true ∧ d.calBad 4 7 0 [20001] 0 = true ∧ d.calBad 4 7 0 [20000] 0 = false ∧ (d.calUnit 4 7).req = r ∧
        (d.calUnit 4 7).state ≠ 4) := by decide

/-- The hypotheses of `Obligations.StropStepsRetriesAndForcesWindows` hold together here: out units are retried and results age. -/
theorem witness_OutUnitsAreRetriedAndResultsAge :
    (let d : Dev := { (having ready [(.DEV_UNITS_WAVE_OK, 0, 255)]).upCal 4 7 (fun U => { U with state := 4 }) with now := secs 600 }
     d.asleep = false ∧ (d.calUnit 4 7).state = 4 ∧ d.calFree 4 7 = true ∧ (d.calUnit 4 7).triedAt + secs 600 ≤ d.now) ∧
    (let d : Dev := { (having ready [(.SP_CTRL_MAX_AGE_H, 0, 1)]).upCal 4 7 (fun U => { U with state := 1, res := [(0, some ⟨0, [1], 0, 0⟩)] }) with
       now := secs 36001 }
     d.asleep = false ∧ (d.calUnit 4 7).state = 1 ∧ d.calJudge 4 7 = 2) := by decide

/-- The hypotheses of `Obligations.StropStepsRetriesAndForcesWindows` hold together here: forced windows open and end. -/
theorem witness_ForcedWindowsOpenAndEnd :
    (let x := { entry 1 (desc 0x48 0 [(8, 16), (10, 0), (12, 1)]) with begun := true }
     let d := tracking ready [x]
     d.serves = true ∧ d.isSafe = false ∧ d.siteOf 0 = none ∧ (d.pin 0).forced = false ∧ d.windowReq 0 = some x) ∧
    (let d := having (site0 1) [(.SP_CTRL_AUTO_FORCE, 0, 1), (.SP_FORCE_AFTER_S, 0, 1)]
     let e : Dev := { d.upSite 0 (fun S => { S with idleSince := secs 100000 }) with now := secs 100000 }
     e.siteOf 0 = some 0 ∧ e.siteRunning 0 = false ∧ e.windowReq 0 = none ∧ e.windowDue 0 = true ∧ (site0 1).windowDue 0 = false) ∧
    (let d : Dev := { ready with windows := [⟨[255], 0, 160, none⟩], now := us 160 }
     d.windows.find? (fun w => w.pins.contains 255) = some ⟨[255], 0, 160, none⟩ ∧ 0 + us 160 ≤ d.now ∧ d.windows.find? (fun w => w.pins.contains 0) = none) := by
  decide

/-! ## Fault Collector and Guard -/

/-- A part with source `s` raised by unit 3. -/
def raisedBy (s : Nat) : Dev := having { ready with raised := [⟨s, 3, 0, 0⟩] } [(.FC_SRC_CFG_HALT, s, 0), (.FC_SRC_CFG_SAFE, s, 0), (.FC_SRC_CFG_JOURNAL, s, 0), (.FC_SRC_CFG_IRQ, s, 0), (.FC_SRC_CFG_N, s, 1)]

/-- The hypotheses of `Obligations.FaultEventsAreRecordedLoggedAndInjected` hold together here: fault events are recorded and act. -/
theorem witness_FaultEventsAreRecordedAndAct :
    ready.raised = [] ∧
    (∀ s, s ∈ [0x080, 0x082, 0x042, 0x0C3, 0x180] → (raisedBy s).raised = [⟨s, 3, 0, 0⟩] ∧ (raisedBy s).on .FC_SRC_CFG_HALT s = false ∧
      (raisedBy s).on .FC_SRC_CFG_SAFE s = false ∧ (raisedBy s).on .FC_SRC_CFG_JOURNAL s = false ∧ (raisedBy s).on .FC_SRC_CFG_IRQ s = false ∧
      (raisedBy s).fc.queue.length < 64) ∧
    ([0x080, 0x082, 0x042, 0x0C3, 0x180].map srcClass).dedup.length = 4 ∧
    ((raisedBy 0x042).isSafe = false ∧ srcClass 0x042 = some 3) := by decide

/-- The hypotheses of `Obligations.FaultEventsAreRecordedLoggedAndInjected` hold together here: log inject and alias act. -/
theorem witness_LogInjectAndAliasAct :
    (let d := ready.upFc (fun F => { F with queue := [5] })
     d.fc.queue = 5 :: [] ∧ ready.fc.queue = []) ∧
    (ready.hostReady = true ∧ srcClass 0x3FF = none ∧ srcClass 0x042 ≠ none ∧ ready.justSet .FC_SRC_STAT_STATUS 0x042 = 0) := by decide

/-- The hypotheses of `Obligations.SafeStateParityAndJournalAct` hold together here: safe state is left and parity latches. -/
theorem witness_SafeStateIsLeftAndParityLatches :
    (let d := having ready [(.FC_STATE_SAFE, 0, 1), (.FC_MODE_LEGACY, 0, 0)]
     d.hostReady = true ∧ d.on .FC_MODE_LEGACY 0 = false ∧ d.isSafe = true ∧ d.exitBarred = false ∧
       (having d [(.FC_AON_LATCH, 0, 1)]).exitBarred = true ∧ (having d [(.FC_AON_LATCH, 0, 1)]).on .FC_AON_LATCH 0 = true ∧ (∀ x, x ∈ d.fc.image → fcKey x.1 = true)) ∧
    (ready.isSafe = false ∧ ready.on .FC_AON_LATCH 0 = false ∧ bitAt (0x80000000 : Word).toNat 30 = false ∧ bitAt (0x40000000 : Word).toNat 31 = false) := by decide

/-- An entry that the journal owes. -/
def owed0 : Owed := { t := 0, boots := 0, kind := 7, src := 0, record := some 0, data := 0 }

/-- The hypotheses of `Obligations.SafeStateParityAndJournalAct` hold together here: journal entries are written in ring order. -/
theorem witness_JournalEntriesAreWrittenInRingOrder :
    (let d : Dev := { ready with journal := [owed0], gd := { ready.gd with place := 4095 } }
     d.asleep = false ∧ d.serves = true ∧ d.gd.op = 0 ∧ d.journal.find? d.writable = some owed0 ∧ d.gd.place % 64 ≠ 0) ∧
    ready.journal.find? ready.writable = none := by decide

/-! ## Tally -/

/-- The hypotheses of `Obligations.TallyCountsSnapshotsAndSamples` hold together here: counters wrap are set and snapshot. -/
theorem witness_CountersWrapAreSetAndSnapshot :
    (∀ i, i ∈ [0, 63] → let d : Dev := { having ready [(.TL_CFG_CHAIN, 1, 1), (.TL_CFG_SAMPLE, 63, 1)] with tl := { wraps := [(i, 0)] } }
     d.asleep = false ∧ d.tl.wraps.find? (fun w => w.1 == i) = some (i, 0) ∧ (i % 2 = 0 ∧ d.chained (i + 1) = true ↔ i = 0) ∧
       (d.on .TL_CFG_SAMPLE i = true ↔ i = 63) ∧ d.hostReady = true) ∧
    ready.tl.wraps.find? (fun w => w.1 == 63) = none := by decide

/-- The hypotheses of `Obligations.TallyCountsSnapshotsAndSamples` hold together here: samples are queued dropped and read. -/
theorem witness_SamplesAreQueuedDroppedAndRead :
    (∀ n, n ∈ [0, 63, 64] → let d : Dev := { ready with tl := { reqs := [(63, 0)], queue := List.replicate n 5 } }
     d.asleep = false ∧ d.tl.freeAt ≤ d.cycle ∧ d.nextSample = some (63, 0) ∧ (64 ≤ d.tl.queue.length ↔ n = 64) ∧ d.hostReady = true) ∧
    ready.nextSample = none := by decide

/-! ## Resets and window commands -/

/-- The hypotheses of `Obligations.ResetsBootAndWindowCommandsAct` hold together here: resets boot recover or hold. -/
theorem witness_ResetsBootRecoverOrHold :
    State.reset.dev.kl.powered = false ∧ ready.kl.powered = true ∧ ready.gd.op = 0 ∧ ready.gd.perst = false ∧ ready.on .DEV_UNITS_FINAL 0 = true ∧
      candidate (some 1) none = some 0 ∧ candidate none none = none ∧
      (let d := having ready [(.FC_STATE_SAFE, 0, 1), (.FC_MODE_LEGACY, 0, 1)]
       d.gd.op = 0 ∧ d.isSafe = true ∧ d.on .FC_MODE_LEGACY 0 = true) := by decide

/-- The hypotheses of `Obligations.ResetsBootAndWindowCommandsAct` hold together here: window commands start end and fail. -/
theorem witness_WindowCommandsStartEndAndFail :
    (let d := having ready [(.GD_WIN_STATUS_FLASH_KB, 0, 65535), (.GD_WIN_ADDR_ADDR, 0, 0x300000)]
     d.kl.powered = true ∧ d.on .DEV_UNITS_FINAL 0 = true ∧ d.gd.perst = false ∧ d.rd .KL_STATUS_PSTATE 0 ≠ 1 ∧ d.on .GD_WIN_STATUS_BUSY 0 = false ∧
       Dev.winErr Mems.blank d 1 (d.rd .GD_WIN_ADDR_ADDR 0) 32768 = 0 ∧ Dev.winErr Mems.blank d 1 2 32768 ≠ 0) ∧
    (having ready [(.GD_WIN_STATUS_BUSY, 0, 1)]).on .GD_WIN_STATUS_BUSY 0 = true ∧
    (∀ op, op ∈ [1, 2, 3, 4, 5] → let d : Dev := { ready with gd := { op := op, addr := 4096, len := 4096 }, now := secs 5 }
     d.gd.op = op ∧ d.journal.any d.writable = false ∧ d.gd.at_ + secs 5 ≤ d.now) := by decide

/-! ## The queue, well-formed commands, memories, the table's words -/

/-- The hypotheses of `Obligations.StepTakesFrontCommand` hold together. -/
theorem witness_StepTakesFrontCommand : (st ready).pending = [] := rfl

/-- The hypotheses of `Obligations.StepsKeepMemoriesCanonical` hold together. -/
theorem witness_StepsKeepMemoriesCanonical :
    State.reset.mem.wf = true ∧ storing (.nop 1) = false ∧ exec (.nop 1) State.reset = .next State.reset ∧ step State.reset = .next { State.reset with
      dev := { State.reset.dev with now := 16384 } } := by
  refine ⟨by decide, by decide, rfl, rfl⟩

/-- Each check of `wf` refuses the first number beyond its units and takes the last one within. -/
theorem test_wf_bounds :
    [wf (.siteCommit 64 0), wf (.pinTfCommit 256 0), wf (.emit 320), wf (.imageOpcode 576), wf (.waveStart 8), wf (.slotArm 16 0), wf (.train 4 0),
      wf (.fomSample 16 0 false), wf (.enable 65536), wf (.tokenWrite 4096 0), wf (.msixHoldoffEnd 2048), wf (.refreshIssue 64), wf (.selfRefreshEntry 2),
      wf (.pllReady 5), wf (.edgePllLockLoss 4), wf (.qualifyingEdge 512 true 0), wf (.copyVerify 32 false false), wf (.eventPinEdge 8 true),
      wf (.counterWrap 64), wf (.userPageSnapshot 16), wf (.ppsPulse 16384), wf (.siteMemberWrite 0 4 .whole 0), wf (.keepOpenRowClose 0 64),
      wf (.outRetry 0 256), wf (.outRetry 1 512), wf (.outRetry 2 256), wf (.outRetry 3 4), wf (.outRetry 4 8), wf (.outRetry 5 512), wf (.outRetry 6 0),
      wf (.registerWrite 0 0 0), wf (.registerWrite 0 9 0), wf (.lowHalfRead (9 * 2 ^ 28))].all (· == false) = true ∧
    [wf (.siteCommit 63 0), wf (.pinTfCommit 255 0), wf (.emit 319), wf (.imageOpcode 575), wf (.waveStart 7), wf (.slotArm 15 0), wf (.train 3 0),
      wf (.fomSample 15 0 false), wf (.enable 65535), wf (.tokenWrite 4095 0), wf (.msixHoldoffEnd 2047), wf (.refreshIssue 63), wf (.selfRefreshEntry 1),
      wf (.pllReady 4), wf (.edgePllLockLoss 3), wf (.qualifyingEdge 511 true 0), wf (.copyVerify 31 false false), wf (.eventPinEdge 7 true),
      wf (.counterWrap 63), wf (.userPageSnapshot 15), wf (.ppsPulse 16383), wf (.siteMemberWrite 0 3 .whole 0), wf (.keepOpenRowClose 0 63),
      wf (.outRetry 0 255), wf (.outRetry 1 511), wf (.outRetry 2 255), wf (.outRetry 3 3), wf (.outRetry 4 7), wf (.outRetry 5 511),
      wf (.registerWrite 0 1 0), wf (.registerWrite 0 8 0), wf (.lowHalfRead (9 * 2 ^ 28 - 1))].all id = true := by decide

/-- The hypotheses of `Obligations.CommandsCompleteWhereTheirUnitsExist` hold together. -/
theorem witness_CommandsCompleteWhereTheirUnitsExist : wf (.siteCommit 63 0) = true ∧ wf (.siteCommit 64 0) = false := by decide

/-- The table gives no row any bits: no word spells a command, and `withFetchWord` leaves the state as it is. -/
theorem test_no_word_spells_a_command : decodeTableWord 32 0 = none ∧ State.reset.withFetchWord 32 0 = State.reset := ⟨rfl, rfl⟩

/-- The word that R105 draws field by field. -/
theorem test_word_fields :
    let w := wordOf 0x3F 0xFFFF 0 0 + 31 * 2 ^ 53
    wOp w = 0x3F ∧ wTset w = 31 ∧ [wSeamok w, wStretch w, wCapt w, wMaskf w, wXw w].any id = false ∧ wA16 w = 0xFFFF ∧ wA32 w = 0 := by decide

/-- The rows of the address map at which a few registers stand (chapter 23), and a place that none takes. -/
theorem test_register_addresses :
    (regOf 0x10_0070).card.reg = .SITE_EVENT ∧ (regOf 0x10_0068).card.reg = .SITE_GRID ∧ (regHit 0xFFF_FFF8).isNone = true := by decide

/-- The tone (R263) at its crest and in its trough: full level, no offset. -/
theorem test_tone : (toneCode 2047 0 0 (2 ^ 46), toneCode 2047 0 0 (3 * 2 ^ 46), toneCode 2047 0 0 0) = (2047, -2047, 0) := by decide +kernel

/-- Twelve-bit values read and written with their sign. -/
theorem test_sign : sgn 12 0x800 = -2048 ∧ sgn 12 0x7FF = 2047 ∧ unsgn 12 (-1) = 0xFFF := by decide

/-- The grid points that RDV names (R58, R59). -/
theorem test_grid_point : gridPointOf 100 10 100 false 0 = some 110 ∧ gridPointOf 100 10 105 false 0 = some 110 ∧ gridPointOf 100 10 100 true 0 = none ∧
    gridPointOf 100 10 130 true 3 = some 130 ∧ gridPointOf 100 10 131 true 3 = none := by decide

/-- The part after command `c` runs on part `d`, or `d` itself where it does not complete. -/
def ran (c : Instr) (d : Dev) : Dev := match exec c (st d) with | .next t => t.dev | _ => d

/-- A write reaches its field, one narrower than 32 bits none, one to a read-only field none. -/
theorem test_register_writes :
    (ran (.registerWrite 0x10_0070 4 5) ready).rd .SITE_EVENT_EV_SEL 0 = 5 ∧ (ran (.registerWrite 0x10_0070 2 5) ready).rd .SITE_EVENT_EV_SEL 0 = 0 ∧
      (ran (.registerWrite 0 4 5) ready).rd .DEV_ID_VENDOR 0 = ready.rd .DEV_ID_VENDOR 0 := by decide

/-- The high half that the low half's read latched is what the next read gives, though the register has changed. -/
theorem test_half_reads :
    let d := ran (.lowHalfRead 0x10_0068) (having ready [(.SITE_GRID_PERIOD, 0, 3 * 2 ^ 32 + 7)])
    d.readData = bytesOf 4 7 ∧ (ran (.highHalfRead 0x10_006C) (having d [(.SITE_GRID_PERIOD, 0, 9)])).readData = bytesOf 4 3 := by decide

/-- A loop of two passes returns once. -/
theorem test_endloop_returns_once :
    let d := atW (wordOf 0x09 0 3 0) (fun L => { L with act := 1, cnt := [(0, 2)], waddr := 0 })
    ((ran (.endloop 0) d).lane 0).waddr = 3 ∧ ((ran (.endloop 0) d).lane 0).counter 0 = 1 := by decide

/-- A site whose last pin leaves goes from IDLE to EMPTY. -/
theorem test_members_leave : (ran (.siteMemberWrite 0 0 .whole 0) (site0 1)).siteState 0 = SiteState.EMPTY := by decide

/-- A read of TL_SAMPLE_HI takes the record at the head. -/
theorem test_sample_read : (ran .tlSampleHiRead { ready with tl := { queue := [2 ^ 64 + 5, 7] } }).tl.queue = [7] := by decide

end Sys2Proof.Tests
end

section
/-!
O2. A command goes on exactly where its units exist.
-/
namespace Sys2Proof.Machine

/-- Settles O2: every command's outcome has the one shape of `exec_shape`. -/
theorem commandsCompleteWhereTheirUnitsExist : Obligations.CommandsCompleteWhereTheirUnitsExist := by
  unfold Obligations.CommandsCompleteWhereTheirUnitsExist
  refine ⟨fun c s hwf => ?_, fun c s hwf => ?_⟩ <;> obtain ⟨t, outcome, queue, -⟩ := exec_shape s c
  · exact ⟨t, by rw [outcome, hwf, guardUnit_true], queue⟩
  · rw [outcome, hwf, guardUnit_false]

end Sys2Proof.Machine
end

section
/-!
SUPPORT. Lists of updates: what every update of a list leaves, the whole list leaves; the moves of staged groups (R18, R19); bits of a number.
-/
namespace Sys2Proof.Machine

/-- What each update of a list leaves, the list leaves. -/
theorem foldl_keeps {α β γ : Type} (φ : α → γ) (g : α → β → α) (l : List β) (a : α) (h : ∀ a, ∀ b ∈ l, φ (g a b) = φ a) :
    φ (l.foldl g a) = φ a := by
  induction l generalizing a with
  | nil => rfl
  | cons b t ih =>
    rw [List.foldl_cons, ih _ (fun a c hc => h a c (List.mem_cons_of_mem _ hc)), h a b (List.mem_cons_self ..)]

/-! ## Bits -/

theorem bitAt_eq_testBit (v i : Nat) : bitAt v i = v.testBit i := by
  rw [Nat.testBit_eq_decide_div_mod_eq]; rfl

theorem testBit_add_two_pow {u i : Nat} (h : u.testBit i = false) (j : Nat) :
    (u + 2 ^ i).testBit j = if j = i then true else u.testBit j := by
  rw [Nat.add_comm]
  rcases Nat.lt_trichotomy j i with hj | rfl | hj
  · rw [Nat.testBit_two_pow_add_gt hj, if_neg (by omega)]
  · rw [Nat.testBit_two_pow_add_eq, h, if_pos rfl, Bool.not_false]
  · obtain ⟨k, rfl⟩ := Nat.exists_eq_add_of_lt hj
    have hq : u / 2 ^ i % 2 = 0 := by
      rw [Nat.testBit_eq_decide_div_mod_eq, decide_eq_false_iff_not] at h; omega
    have high : (2 ^ i + u) / 2 ^ (i + 1) = u / 2 ^ (i + 1) := by
      rw [Nat.pow_succ, ← Nat.div_div_eq_div_mul, ← Nat.div_div_eq_div_mul, Nat.add_div_left _ (Nat.two_pow_pos i)]
      omega
    rw [if_neg (by omega), show i + k + 1 = k + (i + 1) by omega, Nat.testBit_add, Nat.testBit_add, high]

/-- A bit set or cleared: that bit, and every other. -/
theorem bitAt_setBit (v i j : Nat) (b : Bool) : bitAt (setBit v i b) j = if j = i then b else bitAt v j := by
  unfold setBit
  by_cases h : bitAt v i = b
  · rw [if_pos h]; split
    · subst_vars; rfl
    · rfl
  · rw [if_neg h]
    simp only [bitAt_eq_testBit] at h ⊢
    cases b
    · have hv : v.testBit i = true := by simpa using h
      have hle : 2 ^ i ≤ v := Nat.ge_two_pow_of_testBit hv
      obtain ⟨u, rfl⟩ := Nat.exists_eq_add_of_le hle
      have hu : u.testBit i = false := by simpa [Nat.testBit_two_pow_add_eq] using hv
      rw [Nat.add_comm (2 ^ i) u, testBit_add_two_pow hu]
      simp only [Bool.false_eq_true, if_false, Nat.add_sub_cancel]
      split
      · subst_vars; exact hu
      · rfl
    · rw [if_pos rfl, testBit_add_two_pow (by simpa using h)]

/-- The bits of a number cut to its low `w` bits. -/
theorem bitAt_mod (v w j : Nat) (h : j < w) : bitAt (v % 2 ^ w) j = bitAt v j := by
  simp [bitAt_eq_testBit, Nat.testBit_mod_two_pow, h]

/-- Bits of a list cleared: those bits, and every other. -/
theorem bitAt_clearAll (l : List Nat) (v j : Nat) :
    bitAt (l.foldl (fun w i => setBit w i false) v) j = (bitAt v j && !l.contains j) := by
  induction l generalizing v with
  | nil => simp
  | cons i t ih =>
    rw [List.foldl_cons, ih, bitAt_setBit]
    by_cases h : j = i <;> simp [h]

/-- Bit 0 as a number. -/
theorem bits_zero_one (v : Nat) : bits v 0 1 = b2n (bitAt v 0) := by
  unfold bits b2n bitAt
  rcases Nat.mod_two_eq_zero_or_one v with h | h <;> simp [h]

/-! ## Moves of staged groups (R18, R19) -/

/-- A list of fields of one unit, or of one field's units, moved: each takes its shadow, no other active copy changes. -/
theorem Dev.moves_act {β : Type} (l : List β) (k : β → Fld × Nat) (d : Dev) (g : Fld) (j : Nat) :
    (l.foldl (fun d b => d.move (k b).1 (k b).2) d).act g j = if (g, j) ∈ l.map k then d.rd g j else d.act g j := by
  induction l generalizing d with
  | nil => rfl
  | cons b t ih =>
    rw [List.foldl_cons, ih]
    by_cases hb : (g, j) = k b
    · obtain rfl : g = (k b).1 := congrArg Prod.fst hb
      obtain rfl : j = (k b).2 := congrArg Prod.snd hb
      simp [Dev.move_act]
    · have : ¬(g = (k b).1 ∧ j = (k b).2) := fun e => hb (Prod.ext e.1 e.2)
      simp [Dev.move_act, this, hb]

/-- A list of moves leaves every register field and every record. -/
theorem Dev.moves_frame {β : Type} (l : List β) (k : β → Fld × Nat) (d : Dev) :
    (l.foldl (fun d b => d.move (k b).1 (k b).2) d).regs = d.regs ∧ (l.foldl (fun d b => d.move (k b).1 (k b).2) d).sites = d.sites ∧
      (l.foldl (fun d b => d.move (k b).1 (k b).2) d).pins = d.pins := by
  refine ⟨foldl_keeps Dev.regs _ _ _ ?_, foldl_keeps Dev.sites _ _ _ ?_, foldl_keeps Dev.pins _ _ _ ?_⟩ <;> intro a b _ <;> simp

/-- Register fields are what the table of fields holds. -/
theorem Dev.rd_congr {d e : Dev} (h : e.regs = d.regs) (f : Fld) (i : Nat) : e.rd f i = d.rd f i := by simp only [Dev.rd, h]

end Sys2Proof.Machine
end

section
/-!
SUPPORT. Host writes that reach the block, and the commits of staged groups (R19, R171, R172, R188, R264).
-/
namespace Sys2Proof.Machine

/-- A host write with a row of its own, where the block is ready for it. -/
theorem acts_hosted {c : Instr} {s : State} {ok : Bool} {f : Dev → Dev} {P : Dev → Prop}
    (h : exec c s = guardUnit ok (s.onDev (Dev.hosted f))) (hok : ok = true) (hr : s.dev.hostReady = true) (hP : P (f s.dev.reached)) :
    Acts c s P :=
  acts_onDev h hok (by rw [Dev.hostReady_hosted hr]; exact hP)

/-- What an access leaves as it is: all that the register fields say of sites, pins and channels. -/
@[simp] theorem Dev.reached_units (d : Dev) : (∀ f i, d.reached.on f i = d.on f i) ∧ (∀ n, d.reached.siteRunning n = d.siteRunning n) ∧
    (∀ n, d.reached.siteState n = d.siteState n) ∧ (∀ p, d.reached.pinRunning p = d.pinRunning p) ∧ (∀ w, d.reached.wvRunning w = d.wvRunning w) ∧
    (∀ p k, d.reached.tsPending p k = d.tsPending p k) ∧ (∀ p k, d.reached.tsCheck p k = d.tsCheck p k) ∧ (∀ n, d.reached.failSite n = d.failSite n) :=
  ⟨fun _ _ => rfl, fun _ => rfl, fun _ => rfl, fun _ => rfl, fun _ => rfl, fun _ _ => rfl, fun _ _ => rfl, fun _ => rfl⟩

/-! ## The COND group -/

theorem Dev.moveCond_act (d : Dev) (n : Nat) (f : Fld) (i : Nat) :
    (d.moveCond n).act f i = if f = .SITE_CSRC_SRC ∧ i / 32 = n ∨ f = .SITE_SPAN_CMASK_CMASK ∧ i = n then d.rd f i else d.act f i := by
  have src : (f, i) ∈ (List.range 32).map (fun c => (Fld.SITE_CSRC_SRC, n * 32 + c)) ↔ f = .SITE_CSRC_SRC ∧ i / 32 = n := by
    simp only [List.mem_map, List.mem_range, Prod.mk.injEq]
    constructor
    · rintro ⟨c, hc, rfl, rfl⟩; exact ⟨rfl, by omega⟩
    · rintro ⟨rfl, hi⟩; exact ⟨i % 32, by omega, rfl, by omega⟩
  have moves := Dev.moves_act (List.range 32) (fun c => (Fld.SITE_CSRC_SRC, n * 32 + c)) d f i
  have regs := (Dev.moves_frame (List.range 32) (fun c => (Fld.SITE_CSRC_SRC, n * 32 + c)) d).1
  simp only [Dev.moveCond, Dev.upSite_reads, Dev.move_act, moves, src, Dev.rd_congr regs]
  by_cases h : f = .SITE_SPAN_CMASK_CMASK ∧ i = n
  · simp [h]
  · simp [h]

@[simp] theorem Dev.moveCond_regs (d : Dev) (n : Nat) : (d.moveCond n).regs = d.regs := by
  simp only [Dev.moveCond, Dev.upSite_frame, Dev.move_frame]
  exact (Dev.moves_frame (List.range 32) (fun c => (Fld.SITE_CSRC_SRC, n * 32 + c)) d).1

theorem Dev.moveCond_sites (d : Dev) (n : Nat) : (d.moveCond n).sites = (d.upSite n (fun S => { S with condPend := false })).sites := by
  have sites := (Dev.moves_frame (List.range 32) (fun c => (Fld.SITE_CSRC_SRC, n * 32 + c)) d).2.1
  simp only [Dev.moveCond, Dev.upSite, Dev.site, Dev.move_frame, sites]

theorem Dev.moveCond_site (d : Dev) (n m : Nat) :
    (d.moveCond n).site m = if m = n then { d.site m with condPend := false } else d.site m := by
  have h : (d.moveCond n).site m = (d.upSite n (fun S => { S with condPend := false })).site m := by
    simp only [Dev.site, Dev.moveCond_sites]
  rw [h, Dev.upSite_site]; split <;> simp [*]

/-- A write of 1 to SITE_COMMIT moves the group where it is pending and the site is not running; any other changes nothing. -/
theorem Dev.siteCommit_eq (d : Dev) (n v : Nat) :
    d.siteCommit n v = if d.siteRunning n = false ∧ bitAt v 0 = true ∧ (d.site n).condPend = true then d.moveCond n else d := by
  unfold Dev.siteCommit
  cases d.siteRunning n <;> cases bitAt v 0 <;> cases (d.site n).condPend <;> rfl

/-! ## Groups of one pin or channel -/

/-- A group with a pending bit: its fields move, the bit goes, nothing else. -/
theorem Dev.moveGroup (fs : List Fld) (pend : Fld) (i : Nat) (d : Dev) (hp : pend ∉ fs) :
    let e := fs.foldl (fun d f => d.move f i) (d.clr pend i)
    (∀ f, f ∈ fs → e.act f i = d.rd f i) ∧ e.on pend i = false ∧ (∀ f j, (f ∉ fs ∨ j ≠ i) → e.act f j = d.act f j) ∧
      d.keepsBut e [(pend, i)] := by
  intro e
  have act := fun g j => Dev.moves_act fs (fun f => (f, i)) (d.clr pend i) g j
  have regs : e.regs = (d.clr pend i).regs := (Dev.moves_frame fs (fun f => (f, i)) (d.clr pend i)).1
  have mem : ∀ f j, (f, j) ∈ fs.map (fun f => (f, i)) ↔ f ∈ fs ∧ j = i := fun f j => by
    simp only [List.mem_map, Prod.mk.injEq]
    exact ⟨fun ⟨g, hg, e1, e2⟩ => ⟨e1 ▸ hg, e2.symm⟩, fun ⟨hf, hj⟩ => ⟨f, hf, rfl, hj.symm⟩⟩
  refine ⟨fun f hf => ?_, ?_, fun f j h => ?_, fun f j h => ?_⟩
  · have hne : f ≠ pend := fun e => hp (e ▸ hf)
    rw [act, if_pos ((mem f i).mpr ⟨hf, rfl⟩), Dev.clr, Dev.wr_rd_ne _ _ _ _ _ _ hne]
  · simp [Dev.on, Dev.rd_congr regs, Dev.clr]
  · rw [act, if_neg (fun e => by rcases (mem f j).mp e with ⟨h1, h2⟩; rcases h with h | h <;> contradiction)]
    simp
  · rw [Dev.rd_congr regs, Dev.clr, Dev.wr_rd, if_neg (by simpa using h)]

/-- A write of 1 to PIN_TF_COMMIT moves the DESKEW group where it is pending and the pin is not running; any other changes nothing. -/
theorem Dev.tfCommit_eq (d : Dev) (p v : Nat) :
    d.tfCommit p v = if d.pinRunning p = false ∧ bitAt v 0 = true ∧ d.on .PIN_TF_STATUS_DESKEW_PENDING p = true then
      deskewFields.foldl (fun d f => d.move f p) (d.clr .PIN_TF_STATUS_DESKEW_PENDING p) else d := by
  unfold Dev.tfCommit Dev.moveDeskew
  cases d.pinRunning p <;> cases bitAt v 0 <;> simp

/-- A write of 1 to WV_COMMIT moves the tone group where it is pending and the channel is not running; any other changes nothing. -/
theorem Dev.wvCommit_eq (d : Dev) (w v : Nat) :
    d.wvCommit w v = if d.wvRunning w = false ∧ bitAt v 0 = true ∧ d.on .WV_STATUS_TONE_PENDING w = true then
      toneFields.foldl (fun d f => d.move f w) (d.clr .WV_STATUS_TONE_PENDING w) else d := by
  unfold Dev.wvCommit Dev.moveTone
  cases d.wvRunning w <;> cases bitAt v 0 <;> simp

end Sys2Proof.Machine
end

section
open Sys2Proof Sys2Proof.Machine

/-- Settles O8: each commit is its group's move or nothing, and a move takes the shadows of its group alone. -/
theorem siteAndPinCommitsMoveTheirGroups : Obligations.SiteAndPinCommitsMoveTheirGroups := by
  unfold Obligations.SiteAndPinCommitsMoveTheirGroups
  refine ⟨⟨fun s n v hn hr hrun hb hpend => ?_, fun s n v hn hr hno => ?_⟩, fun s p v hp hr => ?_, fun s w v hw hr => ?_⟩
  · refine acts_hosted rfl (decide_eq_true hn) hr ?_
    have move : s.dev.reached.siteCommit n v.toNat = s.dev.reached.moveCond n := by
      rw [Dev.siteCommit_eq, if_pos (by simp [hrun, hb, hpend])]
    rw [move]
    refine ⟨fun c hc => ?_, ?_, by simp [Dev.moveCond_site], fun f i h1 h2 => ?_, fun f i _ => by simp [Dev.rd_congr (Dev.moveCond_regs _ n)]⟩
    · rw [Dev.moveCond_act, if_pos (.inl ⟨rfl, by omega⟩), (Dev.reached_frame s.dev).1]
    · rw [Dev.moveCond_act, if_pos (.inr ⟨rfl, rfl⟩), (Dev.reached_frame s.dev).1]
    · rw [Dev.moveCond_act, if_neg (by tauto)]; simp
  · refine acts_hosted rfl (decide_eq_true hn) hr ?_
    rw [Dev.siteCommit_eq, if_neg]
    simp only [Dev.reached_units, Dev.reached_frame]
    rintro ⟨h1, h2, h3⟩
    simp [h1, h2, h3] at hno
  · refine acts_hosted rfl (decide_eq_true hp) hr ?_
    simp only [Dev.tfCommit_eq, Dev.reached_units]
    split
    · simpa [Dev.keepsBut] using Dev.moveGroup deskewFields .PIN_TF_STATUS_DESKEW_PENDING p s.dev.reached (by decide)
    · rfl
  · refine acts_hosted rfl (decide_eq_true hw) hr ?_
    simp only [Dev.wvCommit_eq, Dev.reached_units]
    split
    · simpa [Dev.keepsBut] using Dev.moveGroup toneFields .WV_STATUS_TONE_PENDING w s.dev.reached (by decide)
    · rfl

end

section
/-!
SUPPORT. Timing sets (R171 to R173): what the move of one group, and of a list of groups of one pin, does.
-/
namespace Sys2Proof.Machine

/-- The fields that a commit of timing sets writes. -/
def tsCommitFields : List Fld :=
  [.PIN_TS_PENDING_SET, .PIN_TS_REJECT_VALID, .PIN_TS_REJECT_MORE, .PIN_TS_REJECT_REASON, .PIN_TS_REJECT_SET]

theorem tsCommitFields_disjoint : ∀ f ∈ tsFields, f ∉ tsCommitFields := by decide

theorem tsKey_inj {p k q j : Nat} (hk : k < 32) (hj : j < 32) : tsKey p k = tsKey q j ↔ p = q ∧ k = j := by
  unfold tsKey; omega

/-- A rejection writes PIN_TS_REJECT of its pin alone, and leaves it valid. -/
theorem Dev.tsRejected_rd (d : Dev) (p k r : Nat) :
    (∀ f i, (f ∉ tsCommitFields ∨ i ≠ p ∨ f = .PIN_TS_PENDING_SET) → (d.tsRejected p k r).rd f i = d.rd f i) ∧
      (d.tsRejected p k r).on .PIN_TS_REJECT_VALID p = true := by
  unfold Dev.tsRejected
  by_cases h : (d.raise 0x200 p).on .PIN_TS_REJECT_VALID p = true
  · simp only [h, if_true]
    refine ⟨fun f i hf => ?_, ?_⟩
    · rw [Dev.set1_rd, if_neg, (Dev.raise_reads d 0x200 p).1]
      rintro ⟨rfl, rfl⟩; simp [tsCommitFields] at hf
    · rw [Dev.on, Dev.set1_rd, if_neg (fun e => absurd e.1 (by decide))]; exact h
  · simp only [h, Bool.false_eq_true, if_false]
    refine ⟨fun f i hf => ?_, ?_⟩
    · have hne : ∀ g ∈ [Fld.PIN_TS_REJECT_SET, .PIN_TS_REJECT_REASON, .PIN_TS_REJECT_MORE, .PIN_TS_REJECT_VALID], ¬(f = g ∧ i = p) := by
        rintro g hg ⟨rfl, rfl⟩; simp only [List.mem_cons, List.not_mem_nil, or_false] at hg
        rcases hg with rfl | rfl | rfl | rfl <;> simp [tsCommitFields] at hf
      simp only [List.mem_cons, List.not_mem_nil, or_false, forall_eq_or_imp, forall_eq] at hne
      obtain ⟨h1, h2, h3, h4⟩ := hne
      rw [Dev.wr_rd, if_neg h1, Dev.wr_rd, if_neg h2, Dev.clr, Dev.wr_rd, if_neg h3, Dev.set1_rd, if_neg h4, (Dev.raise_reads d 0x200 p).1]
    · have ne : ∀ g ∈ [Fld.PIN_TS_REJECT_SET, .PIN_TS_REJECT_REASON, .PIN_TS_REJECT_MORE], Fld.PIN_TS_REJECT_VALID ≠ g := by decide
      rw [Dev.on, Dev.wr_rd_ne _ _ _ _ _ _ (ne _ (by decide)), Dev.wr_rd_ne _ _ _ _ _ _ (ne _ (by decide)), Dev.clr,
        Dev.wr_rd_ne _ _ _ _ _ _ (ne _ (by decide)), Dev.set1_rd, if_pos ⟨rfl, rfl⟩]
      rfl

@[simp] theorem Dev.tsRejected_act (d : Dev) (p k r : Nat) (f : Fld) (i : Nat) : (d.tsRejected p k r).act f i = d.act f i := by
  unfold Dev.tsRejected; dsimp only; split <;> simp

/-- The group TSk of pin `p` is pending and meets the checks. -/
def Dev.setReady (d : Dev) (p k : Nat) : Prop := d.tsPending p k = true ∧ d.tsCheck p k = 0

/-- The group TSk of pin `p` is pending and fails a check. -/
def Dev.setBad (d : Dev) (p k : Nat) : Prop := d.tsPending p k = true ∧ d.tsCheck p k ≠ 0

/-- What is left of the register fields when timing sets of pin `p` have been committed. -/
theorem Dev.tsCheck_congr {d e : Dev} (h : ∀ f ∈ tsFields, ∀ i, e.rd f i = d.rd f i) (p k : Nat) : e.tsCheck p k = d.tsCheck p k := by
  unfold Dev.tsCheck
  simp only [h _ (by decide : Fld.PIN_TS_PERIOD_PERIOD ∈ tsFields), h _ (by decide : Fld.PIN_TS_MODE_FORMAT ∈ tsFields),
    h _ (by decide : Fld.PIN_TS_MODE_CMODE ∈ tsFields), h _ (by decide : Fld.PIN_TS_MODE_BURST ∈ tsFields),
    h _ (by decide : Fld.PIN_TS_DON_T ∈ tsFields), h _ (by decide : Fld.PIN_TS_DDAT_T ∈ tsFields), h _ (by decide : Fld.PIN_TS_DRET_T ∈ tsFields),
    h _ (by decide : Fld.PIN_TS_DOFF_T ∈ tsFields), h _ (by decide : Fld.PIN_TS_SOPEN_T ∈ tsFields), h _ (by decide : Fld.PIN_TS_SCLOSE_T ∈ tsFields)]

/-- One group: a ready set's shadow moves, a bad one is rejected, in both cases it pends no more; nothing else changes. -/
structure Dev.SetsMoved (p : Nat) (ks : List Nat) (d e : Dev) : Prop where
  act_ready : ∀ k ∈ ks, d.setReady p k → ∀ f ∈ tsFields, e.act f (tsKey p k) = d.rd f (tsKey p k)
  act_other : ∀ f i, (∀ k ∈ ks, d.setReady p k → f ∈ tsFields → i ≠ tsKey p k) → e.act f i = d.act f i
  pending : ∀ k, k < 32 → e.tsPending p k = (d.tsPending p k && !ks.contains k)
  rd : ∀ f i, (f ∉ tsCommitFields ∨ i ≠ p) → e.rd f i = d.rd f i
  valid : (d.on .PIN_TS_REJECT_VALID p = true ∨ ∃ k ∈ ks, d.setBad p k) → e.on .PIN_TS_REJECT_VALID p = true

theorem Dev.moveSet_pending (d : Dev) (p k j : Nat) (hj : j < 32) :
    bitAt ((d.wr .PIN_TS_PENDING_SET p (setBit (d.rd .PIN_TS_PENDING_SET p) k false)).rd .PIN_TS_PENDING_SET p) j =
      (d.tsPending p j && decide (j ≠ k)) := by
  rw [Dev.wr_rd_same, bitAt_mod _ _ _ (show j < Fld.PIN_TS_PENDING_SET.spec.width from hj), bitAt_setBit]
  by_cases h : j = k <;> simp [h, Dev.tsPending]

theorem Dev.moveSet_moved (d : Dev) (p k : Nat) : Dev.SetsMoved p [k] d (d.moveSet p k) := by
  unfold Dev.moveSet
  by_cases hp : d.tsPending p k = true
  · rw [if_pos hp]
    have pend := Dev.moveSet_pending d p k
    have wr : ∀ f i, (f ∉ tsCommitFields ∨ i ≠ p ∨ f = .PIN_TS_REJECT_VALID) →
        (d.wr .PIN_TS_PENDING_SET p (setBit (d.rd .PIN_TS_PENDING_SET p) k false)).rd f i = d.rd f i := fun f i h => by
      rw [Dev.wr_rd, if_neg]; rintro ⟨rfl, rfl⟩; revert h; simp [show Fld.PIN_TS_PENDING_SET ∈ tsCommitFields by decide]
    have act : ∀ f i, (d.wr .PIN_TS_PENDING_SET p (setBit (d.rd .PIN_TS_PENDING_SET p) k false)).act f i = d.act f i := fun f i => rfl
    generalize d.wr .PIN_TS_PENDING_SET p (setBit (d.rd .PIN_TS_PENDING_SET p) k false) = d1 at wr pend act ⊢
    have contains : ∀ j, (!([k] : List Nat).contains j) = decide (j ≠ k) := fun j => by by_cases h : j = k <;> simp [h]
    by_cases hc : d.tsCheck p k = 0
    · have acts := fun f i => Dev.moves_act tsFields (fun f => (f, tsKey p k)) d1 f i
      have regs := (Dev.moves_frame tsFields (fun f => (f, tsKey p k)) d1).1
      have mem : ∀ f i, (f, i) ∈ tsFields.map (fun f => (f, tsKey p k)) ↔ f ∈ tsFields ∧ i = tsKey p k := fun f i => by
        simp only [List.mem_map, Prod.mk.injEq]
        exact ⟨fun ⟨g, hg, e1, e2⟩ => ⟨e1 ▸ hg, e2.symm⟩, fun ⟨hf, hj⟩ => ⟨f, hf, rfl, hj.symm⟩⟩
      simp only [hc, if_true]
      exact {
        act_ready := fun j hj _ f hf => by
          obtain rfl : j = k := by simpa using hj
          rw [acts, if_pos ((mem _ _).mpr ⟨hf, rfl⟩), wr f _ (.inl (tsCommitFields_disjoint f hf))]
        act_other := fun f i h => by
          rw [acts, if_neg (fun e => ?_), act]
          obtain ⟨hf, hi⟩ := (mem _ _).mp e
          exact h k (List.mem_singleton_self k) ⟨hp, hc⟩ hf hi
        pending := fun j hj => by rw [contains, ← pend j hj, Dev.tsPending, Dev.rd_congr regs]
        rd := fun f i h => by rw [Dev.rd_congr regs, wr f i (h.imp_right .inl)]
        valid := fun h => by
          rw [Dev.on, Dev.rd_congr regs, wr _ _ (.inr (.inr rfl))]
          exact h.elim id (fun ⟨j, hj, hb⟩ => absurd (by simpa using hj : j = k) (fun e => hb.2 (e ▸ hc))) }
    · simp only [hc, if_false]
      obtain ⟨rej, valid⟩ := Dev.tsRejected_rd d1 p k (d.tsCheck p k)
      exact {
        act_ready := fun j hj h => absurd (by simpa using hj : j = k) (fun e => hc (e ▸ h.2))
        act_other := fun f i _ => by rw [← act, Dev.tsRejected_act]
        pending := fun j hj => by rw [contains, ← pend j hj, Dev.tsPending, rej _ _ (.inr (.inr rfl))]
        rd := fun f i h => by rw [rej f i (h.imp_right .inl), wr f i (h.imp_right .inl)]
        valid := fun _ => valid }
  · rw [if_neg hp]
    have none_ : ∀ j ∈ [k], ¬ d.tsPending p j = true := by simpa using hp
    exact {
      act_ready := fun j hj h => absurd h.1 (none_ j hj)
      act_other := fun _ _ _ => rfl
      pending := fun j _ => by by_cases h : j = k <;> simp_all
      rd := fun _ _ _ => rfl
      valid := fun h => h.elim id (fun ⟨j, hj, h⟩ => absurd h.1 (none_ j hj)) }

/-- The moves of a list of groups of one pin. -/
theorem Dev.moveSets_moved (l : List Nat) (d : Dev) (p : Nat) (hl : ∀ k ∈ l, k < 32) :
    Dev.SetsMoved p l d (l.foldl (fun d k => d.moveSet p k) d) := by
  induction l generalizing d with
  | nil =>
    exact {
      act_ready := fun _ h => nomatch h
      act_other := fun _ _ _ => rfl
      pending := by simp
      rd := fun _ _ _ => rfl
      valid := fun h => h.elim id (fun ⟨_, h, _⟩ => nomatch h) }
  | cons k t ih =>
    have hk := hl k (List.mem_cons_self ..)
    have ht : ∀ j ∈ t, j < 32 := fun j hj => hl j (List.mem_cons_of_mem _ hj)
    have first := Dev.moveSet_moved d p k
    have rest := ih (d.moveSet p k) ht
    have shadow : ∀ f ∈ tsFields, ∀ i, (d.moveSet p k).rd f i = d.rd f i := fun f hf i => first.rd f i (.inl (tsCommitFields_disjoint f hf))
    have check : ∀ j, (d.moveSet p k).tsCheck p j = d.tsCheck p j := Dev.tsCheck_congr shadow p
    have later : ∀ j ∈ t, j ≠ k → (d.moveSet p k).tsPending p j = d.tsPending p j := fun j hj h => by
      rw [first.pending j (ht j hj)]; simp [h]
    have once : (d.moveSet p k).tsPending p k = false := by rw [first.pending k hk]; simp
    have back : ∀ j ∈ t, (d.moveSet p k).setReady p j → j ≠ k ∧ d.setReady p j := fun j hj h => by
      have ne : j ≠ k := fun e => by subst e; simp [Dev.setReady, once] at h
      exact ⟨ne, by rw [Dev.setReady, ← later j hj ne, ← check]; exact h⟩
    rw [List.foldl_cons]
    exact {
      act_ready := fun j hj h f hf => by
        by_cases hjk : j = k
        · subst hjk
          rw [rest.act_other, first.act_ready j (List.mem_singleton_self j) h f hf]
          intro i hi hr _ e
          exact (back i hi hr).1 ((tsKey_inj (ht i hi) hk).mp e.symm).2
        · have hjt : j ∈ t := (List.mem_cons.mp hj).resolve_left hjk
          rw [rest.act_ready j hjt (by rw [Dev.setReady, later j hjt hjk, check]; exact h) f hf, shadow f hf]
      act_other := fun f i h => by
        rw [rest.act_other f i (fun j hj hr => h j (List.mem_cons_of_mem _ hj) (back j hj hr).2),
          first.act_other f i (fun j hj => h j (by simp_all))]
      pending := fun j hj => by
        rw [rest.pending j hj, first.pending j hj]
        by_cases h : j = k <;> simp [h]
      rd := fun f i h => by rw [rest.rd f i h, first.rd f i h]
      valid := fun h => by
        apply rest.valid
        rcases h with h | ⟨j, hj, hb⟩
        · exact .inl (first.valid (.inl h))
        · by_cases hjk : j = k
          · exact .inl (first.valid (.inr ⟨k, List.mem_singleton_self k, hjk ▸ hb⟩))
          · have hjt : j ∈ t := (List.mem_cons.mp hj).resolve_left hjk
            exact .inr ⟨j, hjt, by rw [Dev.setBad, later j hjt hjk, check]; exact hb⟩ }

/-- Settles O9: the commit is the list of moves of the named groups, each of which a ready set survives with its shadow active, a bad one with its
rejection recorded. -/
theorem timingSetCommitMovesCheckedSets : Obligations.TimingSetCommitMovesCheckedSets := by
  unfold Obligations.TimingSetCommitMovesCheckedSets
  refine ⟨fun s p v hp hr hrun => ?_, fun s p v hp hr hrun => ?_⟩
  · refine acts_hosted rfl (decide_eq_true hp) hr ?_
    have hnamed : ∀ k, k ∈ (List.range 32).filter (bitAt v.toNat) ↔ k < 32 ∧ bitAt v.toNat k = true := by simp
    have moved := Dev.moveSets_moved ((List.range 32).filter (bitAt v.toNat)) s.dev.reached p (fun k hk => ((hnamed k).mp hk).1)
    have commit : s.dev.reached.tsCommit p v.toNat = ((List.range 32).filter (bitAt v.toNat)).foldl (fun d k => d.moveSet p k) s.dev.reached := by
      simp [Dev.tsCommit, hrun]
    rw [commit]
    generalize ((List.range 32).filter (bitAt v.toNat)).foldl (fun d k => d.moveSet p k) s.dev.reached = e at moved
    refine ⟨fun k hk hb hpend hc => ⟨fun f hf => ?_, ?_⟩, fun k hk hb hpend hc => ⟨fun f => ?_, ?_, ?_⟩, fun k hk hb => ⟨fun f => ?_, ?_⟩, ?_⟩
    · exact moved.act_ready k ((hnamed k).mpr ⟨hk, hb⟩) ⟨hpend, hc⟩ f hf
    · rw [moved.pending k hk]; simp [hk, hb]
    · refine moved.act_other f _ (fun j hj hready _ e => ?_)
      obtain ⟨-, rfl⟩ := (tsKey_inj hk ((hnamed j).mp hj).1).mp e
      exact hc hready.2
    · rw [moved.pending k hk]; simp [hk, hb]
    · exact moved.valid (.inr ⟨k, (hnamed k).mpr ⟨hk, hb⟩, hpend, hc⟩)
    · refine moved.act_other f _ (fun j hj _ _ e => ?_)
      obtain ⟨-, rfl⟩ := (tsKey_inj hk ((hnamed j).mp hj).1).mp e
      simp [((hnamed k).mp hj).2] at hb
    · rw [moved.pending k hk]; simp [hb]
    · intro f i hf
      refine moved.rd f i ?_
      by_contra hcon
      obtain ⟨hmem, hi⟩ := not_or.mp hcon
      have hmem := not_not.mp hmem
      obtain rfl := not_not.mp hi
      simp only [tsCommitFields, List.mem_cons, List.not_mem_nil, or_false] at hmem
      simp only [List.mem_cons, Prod.mk.injEq, and_true, List.not_mem_nil, or_false, not_or] at hf
      tauto
  · refine acts_hosted rfl (decide_eq_true hp) hr ?_
    simp [Dev.tsCommit, hrun]

end Sys2Proof.Machine
end

section
/-!
SUPPORT and O10. The write of a membership mask (R43 to R45, R49) and of FR_SITE_CTRL (R218).
-/
namespace Sys2Proof.Machine

/-- A refusal leaves DEV_REFUSED valid (R20, R21). -/
theorem Dev.refuse_valid (d : Dev) (k a : Nat) : (d.refuse k a).on .DEV_REFUSED_VALID 0 = true := by
  unfold Dev.refuse
  dsimp only
  split
  · rename_i h
    rw [Dev.on, Dev.set1_rd, if_neg (fun e => absurd e.1 (by decide))]; exact h
  · have ne : ∀ g ∈ [Fld.DEV_REFUSED_ADDR, .DEV_REFUSED_KIND, .DEV_REFUSED_MORE], Fld.DEV_REFUSED_VALID ≠ g := by decide
    rw [Dev.on, Dev.wr_rd_ne _ _ _ _ _ _ (ne _ (by decide)), Dev.wr_rd_ne _ _ _ _ _ _ (ne _ (by decide)), Dev.clr,
      Dev.wr_rd_ne _ _ _ _ _ _ (ne _ (by decide)), Dev.set1_rd, if_pos ⟨rfl, rfl⟩]
    rfl

/-- A refusal changes the unit 0 of DEV_REFUSED alone. -/
theorem Dev.refuse_keepsBut (d : Dev) (k a : Nat) :
    d.keepsBut (d.refuse k a) [(.DEV_REFUSED_VALID, 0), (.DEV_REFUSED_MORE, 0), (.DEV_REFUSED_KIND, 0), (.DEV_REFUSED_ADDR, 0)] := by
  intro f i h
  simp only [List.mem_cons, Prod.mk.injEq, List.not_mem_nil, or_false, not_or] at h
  obtain ⟨h1, h2, h3, h4⟩ := h
  have e : (d.refusedEvent k a).rd f i = d.rd f i := rfl
  unfold Dev.refuse
  dsimp only
  split
  · rw [Dev.set1_rd, if_neg h2, e]
  · rw [Dev.wr_rd, if_neg h4, Dev.wr_rd, if_neg h3, Dev.clr, Dev.wr_rd, if_neg h2, Dev.set1_rd, if_neg h1, e]

@[simp] theorem Dev.refuse_failSite (d : Dev) (k a m : Nat) : (d.refuse k a).failSite m = d.failSite m := by
  have e : (d.refusedEvent k a).failSite m = d.failSite m := rfl
  unfold Dev.refuse; dsimp only; split <;> simp [e]

/-- The pins of a written mask that another site holds (R44). -/
def Dev.heldByOther (d : Dev) (n k old new j : Nat) : Bool :=
  !bitAt old j && bitAt new j && (List.range 64).any (fun m => m != n && bitAt (d.rd .SITE_MEMBER_MASK (m * 4 + k)) j)

/-- The site's state after a change of its masks (R49). -/
theorem Dev.memberState_rd (d : Dev) (n : Nat) :
    (d.memberState n).siteState n =
        (if (List.range 4).all (fun k => d.rd .SITE_MEMBER_MASK (n * 4 + k) == 0) then
          (if d.siteState n = SiteState.DOZE ∨ d.siteState n = SiteState.IDLE then SiteState.EMPTY else d.siteState n)
        else if d.siteState n = SiteState.EMPTY then SiteState.IDLE else d.siteState n) ∧
      d.keepsBut (d.memberState n) [(.SITE_STATUS_STATE, n)] := by
  have frame : ∀ v, d.keepsBut (d.wr .SITE_STATUS_STATE n v) [(.SITE_STATUS_STATE, n)] := fun v f i h => by
    rw [Dev.wr_rd, if_neg (by simpa using h)]
  unfold Dev.memberState
  dsimp only
  split
  · by_cases h : d.siteState n = SiteState.IDLE ∨ d.siteState n = SiteState.DOZE
    · rw [if_pos h, if_pos h.symm]
      exact ⟨by rw [Dev.siteState, Dev.wr_rd_same]; rfl, frame _⟩
    · rw [if_neg h, if_neg (fun e => h e.symm)]
      exact ⟨rfl, fun _ _ _ => rfl⟩
  · split
    · exact ⟨by rw [Dev.siteState, (Dev.upSite_reads _ n _).1, Dev.wr_rd_same]; rfl, fun f i h => by rw [(Dev.upSite_reads _ n _).1]; exact frame _ f i h⟩
    · exact ⟨rfl, fun _ _ _ => rfl⟩

/-- A written mask that differs, of a site that is not running: the mask less the pins that others hold, the state, a note of the conflict. -/
theorem Dev.writeMember_spec (d : Dev) (n k v addr : Nat) (hrun : d.siteRunning n = false) (hv : v ≠ d.rd .SITE_MEMBER_MASK (n * 4 + k)) :
    let held := d.heldByOther n k (d.rd .SITE_MEMBER_MASK (n * 4 + k)) v
    let e := d.writeMember n k v addr
    (∀ j, j < 64 → bitAt (e.rd .SITE_MEMBER_MASK (n * 4 + k)) j = (bitAt v j && !held j)) ∧
    e.siteState n = (if (List.range 4).all (fun k => e.rd .SITE_MEMBER_MASK (n * 4 + k) == 0) then
        (if d.siteState n = SiteState.DOZE ∨ d.siteState n = SiteState.IDLE then SiteState.EMPTY else d.siteState n)
      else if d.siteState n = SiteState.EMPTY then SiteState.IDLE else d.siteState n) ∧
    (e.on .SITE_STATUS_CONFLICT n = true ↔ d.on .SITE_STATUS_CONFLICT n = true ∨ ∃ j, j < 64 ∧ held j = true) ∧
    d.keepsBut e [(.SITE_MEMBER_MASK, n * 4 + k), (.SITE_STATUS_STATE, n), (.SITE_STATUS_CONFLICT, n)] := by
  intro held e
  let bad := (List.range 64).filter held
  let d1 := d.wr .SITE_MEMBER_MASK (n * 4 + k) (bad.foldl (fun w j => setBit w j false) v)
  have eq : e = if bad = [] then d1.memberState n else ((d1.memberState n).set1 .SITE_STATUS_CONFLICT n).raise 0x1C0 n := by
    change d.writeMember n k v addr = _
    unfold Dev.writeMember
    rw [if_neg hv, hrun]
    rfl
  have ne1 : Fld.SITE_MEMBER_MASK ≠ .SITE_STATUS_STATE := by decide
  have ne2 : Fld.SITE_MEMBER_MASK ≠ .SITE_STATUS_CONFLICT := by decide
  have ne3 : Fld.SITE_STATUS_STATE ≠ .SITE_STATUS_CONFLICT := by decide
  have ne4 : Fld.SITE_STATUS_CONFLICT ≠ .SITE_MEMBER_MASK := by decide
  have ne5 : Fld.SITE_STATUS_STATE ≠ .SITE_MEMBER_MASK := by decide
  obtain ⟨state, frame⟩ := Dev.memberState_rd d1 n
  have after : ∀ f i, ¬(f = .SITE_STATUS_CONFLICT ∧ i = n) → e.rd f i = (d1.memberState n).rd f i := fun f i h => by
    rw [eq]; split
    · rfl
    · rw [(Dev.raise_reads _ _ _).1, Dev.set1_rd, if_neg h]
  have masks : ∀ i, e.rd .SITE_MEMBER_MASK i = d1.rd .SITE_MEMBER_MASK i := fun i => by
    rw [after _ _ (fun h => ne2 h.1), frame _ _ (by simp [ne1])]
  have state0 : d1.siteState n = d.siteState n := Dev.wr_rd_ne _ _ _ _ _ _ ne5
  have conflict0 : (d1.memberState n).on .SITE_STATUS_CONFLICT n = d.on .SITE_STATUS_CONFLICT n := by
    rw [Dev.on, frame _ _ (by simp [ne3.symm]), Dev.wr_rd_ne _ _ _ _ _ _ ne4]; rfl
  have some_held : bad ≠ [] ↔ ∃ j, j < 64 ∧ held j = true := by
    simp [bad, List.filter_eq_nil_iff]
  refine ⟨fun j hj => ?_, ?_, ?_, fun f i h => ?_⟩
  · rw [masks, Dev.wr_rd_same, bitAt_mod _ _ _ (show j < Fld.SITE_MEMBER_MASK.spec.width from hj), bitAt_clearAll]
    congr 2
    simp [bad, hj, List.contains_eq_mem]
  · rw [Dev.siteState, after _ _ (fun h => ne3 h.1)]
    simp only [masks]
    rw [← state0]; exact state
  · rw [← some_held, eq]
    split
    · rename_i h; simp [h, conflict0]
    · rename_i h; simp only [h, not_false_eq_true, ne_eq, or_true, iff_true]
      rw [Dev.on, (Dev.raise_reads _ _ _).1, Dev.set1_rd, if_pos ⟨rfl, rfl⟩]; rfl
  · simp only [List.mem_cons, Prod.mk.injEq, List.not_mem_nil, or_false, not_or] at h
    obtain ⟨h1, h2, h3⟩ := h
    rw [after f i h3, frame f i (by simpa using h2), Dev.wr_rd, if_neg h1]

/-- A written mask that differs, of a running site outside safe state, is refused. -/
theorem Dev.writeMember_refused (d : Dev) (n k v addr : Nat) (hrun : d.siteRunning n = true) (hs : d.on .FC_STATE_SAFE 0 = false)
    (hv : v ≠ d.rd .SITE_MEMBER_MASK (n * 4 + k)) :
    (d.writeMember n k v addr).on .DEV_REFUSED_VALID 0 = true ∧ d.keepsBut (d.writeMember n k v addr)
      [(.DEV_REFUSED_VALID, 0), (.DEV_REFUSED_MORE, 0), (.DEV_REFUSED_KIND, 0), (.DEV_REFUSED_ADDR, 0)] := by
  have refused : d.writeMember n k v addr = d.refuse 0 addr := by simp [Dev.writeMember, hv, hrun, hs]
  rw [refused]
  exact ⟨Dev.refuse_valid _ _ _, Dev.refuse_keepsBut _ _ _⟩

/-- The discard of a site's records and counts. -/
theorem Dev.frCtrl_clear (d : Dev) (n v : Nat) (hv : bitAt v 1 = true) (hrun : d.siteRunning n = false) :
    d.frCtrl n v = (d.wr .FR_SITE_CTRL_SPILL_EN n (b2n (bitAt v 0))).frClear n := by
  simp [Dev.frCtrl, hv, hrun, bits_zero_one]

/-- A running site refuses CLEAR, but in safe state. -/
theorem Dev.frCtrl_refused (d : Dev) (n v : Nat) (hv : bitAt v 1 = true) (hrun : d.siteRunning n = true) (hs : d.on .FC_STATE_SAFE 0 = false) :
    d.frCtrl n v = d.refuse 0 (0xD_1004 + 0x40 * n) := by
  simp [Dev.frCtrl, hv, hrun, hs]

/-- Settles O10: a mask's write by `Dev.writeMember_spec`, CLEAR by its discard; a running site refuses both. -/
theorem memberAndFailStoreWritesAct : Obligations.MemberAndFailStoreWritesAct := by
  unfold Obligations.MemberAndFailStoreWritesAct
  refine ⟨⟨fun s n k part v hn hk hr hrun hv => ?_, fun s n k part v hn hk hr hrun hs hv => ?_⟩,
    fun s n v hn hr hrun hb => ?_, fun s n v hn hr hrun hs hb => ?_⟩
  · refine acts_hosted rfl (by simp [siteOk, hn, hk]) hr ?_
    exact Dev.writeMember_spec (s.dev.reached.unlatchAt _) n k _ _ hrun hv
  · refine acts_hosted rfl (by simp [siteOk, hn, hk]) hr ?_
    exact Dev.writeMember_refused (s.dev.reached.unlatchAt _) n k _ _ hrun hs hv
  · refine acts_hosted rfl (decide_eq_true hn) hr ?_
    simp only [Dev.frCtrl_clear s.dev.reached n _ hb hrun]
    refine ⟨by simp [Dev.frClear], by simp [Dev.frClear], by simp [Dev.frClear, Dev.wr_rd], by simp [Dev.frClear], ?_,
      fun m hm => by simp [Dev.frClear, hm], fun f i h => ?_⟩
    · have lt : b2n (bitAt v.toNat 0) < 2 := by unfold b2n; split <;> decide
      have cut : b2n (bitAt v.toNat 0) % 2 ^ Fld.FR_SITE_CTRL_SPILL_EN.spec.width = b2n (bitAt v.toNat 0) := Nat.mod_eq_of_lt lt
      simp [Dev.frClear, Dev.wr_rd, cut]
    · simp only [List.mem_cons, Prod.mk.injEq, List.not_mem_nil, or_false, not_or] at h
      simp [Dev.frClear, Dev.wr_rd, h]
  · refine acts_hosted rfl (decide_eq_true hn) hr ?_
    simp only [Dev.frCtrl_refused s.dev.reached n _ hb hrun hs]
    exact ⟨Dev.refuse_valid _ _ _, fun m => by simp, Dev.refuse_keepsBut s.dev.reached _ _⟩

end Sys2Proof.Machine
end

section
/-!
SUPPORT and O6. A host write of any width (R13, R15 to R21).
-/
namespace Sys2Proof.Machine

/-- A part that is ready for the host responds at every address (R473, R513). -/
theorem Dev.hostReady_responds {d : Dev} (h : d.hostReady = true) (a : Nat) : d.reached.responds a = true := by
  simp only [Dev.hostReady, Dev.serves, Bool.and_eq_true, bne_iff_ne, ne_eq, Bool.not_eq_true'] at h
  obtain ⟨⟨⟨hp, hf, hm⟩, -⟩, -⟩ := h
  simp [Dev.responds, Dev.reached_units, hf, hm, show d.reached.kl.powered = true from hp]

/-- An access that reaches the block: what it finds. -/
theorem Dev.hostReady_wake {d : Dev} (h : d.hostReady = true) :
    (d.kl.powered && d.on .DEV_UNITS_FINAL 0 && !d.gd.perst) = true ∧ (d.wake).upKl (fun K => { K with hostAt := d.now }) = d.reached := by
  simp only [Dev.hostReady, Dev.serves, Bool.and_eq_true, bne_iff_ne, ne_eq, Bool.not_eq_true'] at h
  obtain ⟨⟨⟨hp, hf, -⟩, hg⟩, hs⟩ := h
  exact ⟨by simp [hp, hf, hg], by simp [Dev.wake, Dev.reached, hs]⟩

/-- REGISTER_WRITE, where the block is ready for it. -/
theorem acts_registerWrite {s : State} {a n : Nat} {v : Word} {P : Dev → Prop} {e : Dev} (hr : s.dev.hostReady = true) (h1 : 1 ≤ n) (h8 : n ≤ 8)
    (hw : Dev.writeBytes s.mem s.dev.reached a n v.toNat = ([], e)) (hP : P e) : Acts (.registerWrite a n v) s P := by
  obtain ⟨ready, wake⟩ := Dev.hostReady_wake hr
  refine acts_onMem rfl (by simp [h1, h8]) ?_ ?_ <;> simp only [ready, if_true, wake, hw]
  exact hP

/-- A register without a rule of its own takes the write field by field. -/
theorem Dev.regWrite_plain (m : Mems) (d : Dev) (r : RegAt) (p : Part) (v : Nat) (hr : r.card.reg ∉ ownWrite) :
    Dev.regWrite m d r p v = ([], (if r.card.width = 64 then d.unlatch r else d).plainWrite r p v) := by
  unfold Dev.regWrite
  dsimp only
  split
  case h_46 => rfl
  all_goals
    rename_i h
    exact absurd (by rw [h]; decide) hr

/-- A staged write keeps what events have set in this engine cycle. -/
@[simp] theorem Dev.stage_justSet (d : Dev) (f g : Fld) (i j : Nat) : (d.stage f i).justSet g j = d.justSet g j := by
  unfold Dev.stage
  split
  · rfl
  · have at_ : d.cycNow.at_ = d.cycle := by
      unfold Dev.cycNow; split
      · assumption
      · rfl
    have now : ({ d with cyc := { d.cycNow with staged := (f, i, d.rd f i) :: d.cycNow.staged } } : Dev).cycNow =
        { d.cycNow with staged := (f, i, d.rd f i) :: d.cycNow.staged } := if_pos at_
    simp only [Dev.justSet, now]

/-- The shadows of a register that are kept for a seam: no register field changes. -/
theorem Dev.stageReg_keeps (d : Dev) (r : RegAt) :
    (∀ g j, (d.stageReg r).rd g j = d.rd g j) ∧ ∀ g j, (d.stageReg r).justSet g j = d.justSet g j := by
  unfold Dev.stageReg
  dsimp only
  constructor <;> intro g j
  · rw [foldl_keeps (fun d => d.rd g j) _ _ _ (fun d x _ => Dev.stage_rd d _ _ _ _)]
    split
    · split <;> simp
    · simp
    · rfl
  · rw [foldl_keeps (fun d => d.justSet g j) _ _ _ (fun d x _ => Dev.stage_justSet d _ _ _ _)]
    split
    · split <;> simp
    · simp
    · rfl

theorem Dev.regWord_congr {d e : Dev} (h : ∀ g j, e.rd g j = d.rd g j) (r : RegAt) : e.regWord r = d.regWord r := by
  simp only [Dev.regWord, h]

/-- The write of a register, field by field, whether or not its group is staged. -/
theorem Dev.plainWrite_rd (d : Dev) (r : RegAt) (p : Part) (v : Nat) (hn : (r.parts.map (fun y => (y.1, y.2.1))).Nodup)
    (x : Fld × Nat × Nat) (hx : x ∈ r.parts) (hr : x.1 ∉ notedFields) (hreg : r.card.reg ≠ .BR_CTRL) :
    (d.plainWrite r p v).rd x.1 x.2.1 =
      x.1.written (d.regRunning r && !d.on .FC_STATE_SAFE 0) (d.rd x.1 x.2.1)
        (bits (p.onto (d.regWord r) v) x.2.2 x.1.spec.width) (bits (p.onto 0 v) x.2.2 x.1.spec.width) (d.justSet x.1 x.2.1) := by
  have hreg' : (r.card.reg == Reg.BR_CTRL) = false := beq_eq_false_iff_ne.mpr hreg
  obtain ⟨rd, just⟩ := Dev.stageReg_keeps d r
  unfold Dev.plainWrite
  split
  · rw [Dev.stagedWrite_rd _ _ _ _ hr, Dev.writeReg_rd _ _ _ _ _ hn x hx hr, rd, just, Dev.regWord_congr rd, hreg', Bool.or_false, Dev.on, rd]
    rfl
  · rw [Dev.writeReg_rd _ _ _ _ _ hn x hx hr, hreg', Bool.or_false]

/-- The write of a whole register or of a half: what the address and the width name is what is written. -/
theorem Dev.writeBytes_regWrite (m : Mems) (d : Dev) (a n o v : Nat) (r : RegAt) (p : Part) (hd : ∀ a, d.responds a = true)
    (hit : regHit a = some (r, o)) (ha : a % n = 0)
    (hp : n = 4 ∧ r.card.width = 32 ∧ o = 0 ∧ p = .whole ∨ n = 4 ∧ r.card.width = 64 ∧ o = 0 ∧ p = .low ∨
      n = 4 ∧ r.card.width = 64 ∧ o = 4 ∧ p = .high ∨ n = 8 ∧ r.card.width = 64 ∧ o = 0 ∧ p = .whole) :
    Dev.writeBytes m d a n v = Dev.regWrite m d r p (v % 2 ^ (8 * n)) := by
  rcases hp with ⟨rfl, hw, rfl, rfl⟩ | ⟨rfl, hw, rfl, rfl⟩ | ⟨rfl, hw, rfl, rfl⟩ | ⟨rfl, hw, rfl, rfl⟩
  · simp [Dev.writeBytes, ha, Dev.write32, hd, hit, hw]
  · simp [Dev.writeBytes, ha, Dev.write32, hd, hit, hw]
  · simp [Dev.writeBytes, ha, Dev.write32, hd, hit, hw]
  · simp [Dev.writeBytes, ha, Dev.write64, hd, hit, hw]

/-- Settles O6: an aligned write of 32 or 64 bits is the register's write, field by field; any other is discarded and noted. -/
theorem registerWritesActByAccessClassAndWidth : Obligations.RegisterWritesActByAccessClassAndWidth := by
  unfold Obligations.RegisterWritesActByAccessClassAndWidth
  refine ⟨fun s a n o v r p x hr hit ha hp hown hx hn hnote => ?_, fun s a n v hr h1 h8 hn4 hn8 => ?_⟩
  · have hn48 : n = 4 ∨ n = 8 := by omega
    have write : Dev.writeBytes s.mem s.dev.reached a n v.toNat =
        ([], (if r.card.width = 64 then s.dev.reached.unlatch r else s.dev.reached).plainWrite r p (v.toNat % 2 ^ (8 * n))) := by
      rw [Dev.writeBytes_regWrite _ _ _ _ _ _ r p (Dev.hostReady_responds hr) hit ha hp, Dev.regWrite_plain _ _ _ _ _ hown]
    refine acts_registerWrite hr (by omega) (by omega) write ?_
    have hreg : r.card.reg ≠ .BR_CTRL := fun e => hown (by rw [e]; decide)
    rw [Dev.plainWrite_rd _ r p _ hn x hx hnote hreg]
    split <;> rfl
  · refine acts_registerWrite hr h1 h8 ?_ rfl
    simp only [Dev.writeBytes, hn4, hn8, if_false]
    rfl

end Sys2Proof.Machine
end

section
/-!
SUPPORT and O7. Host reads of BAR0 with their latches (R13, R14), and BAR4: the window and the user pages (R287, R288, R334, R468).
-/
namespace Sys2Proof.Machine

/-! ## BAR0 reads -/

/-- LOW_HALF_READ, where the block is ready for it: a read of the bytes that it names. -/
theorem acts_lowHalfRead {s : State} {a n : Nat} {P : Dev → Prop} (hr : s.dev.hostReady = true) (ha : a < 2 ^ 28) (hn : n ≤ 8)
    {w : Nat} (hw : w = if n = 0 then 4 else n)
    (hP : P ((Dev.readReg s.mem s.dev.reached a w).2.answer (bytesOf w (Dev.readReg s.mem s.dev.reached a w).1))) :
    Acts (.lowHalfRead (n * 2 ^ 28 + a)) s P := by
  obtain ⟨ready, wake⟩ := Dev.hostReady_wake hr
  have width : readWidth (n * 2 ^ 28 + a) = w := by
    have : (n * 2 ^ 28 + a) / 2 ^ 28 = n := by omega
    rw [readWidth, this, hw]
  have offset : (n * 2 ^ 28 + a) % 2 ^ 28 = a := by omega
  refine acts_onDevM rfl (decide_eq_true (by omega)) ?_
  simpa only [Dev.hostRead, ready, Bool.not_true, Bool.false_eq_true, if_false, wake, width, offset] using hP

/-- HIGH_HALF_READ, where the block is ready for it. -/
theorem acts_highHalfRead {s : State} {a : Nat} {P : Dev → Prop} (hr : s.dev.hostReady = true)
    (hP : P ((Dev.readReg s.mem s.dev.reached a 4).2.answer (bytesOf 4 (Dev.readReg s.mem s.dev.reached a 4).1))) :
    Acts (.highHalfRead a) s P := by
  obtain ⟨ready, wake⟩ := Dev.hostReady_wake hr
  refine acts_onDevM rfl rfl ?_
  simpa only [Dev.hostRead, ready, Bool.not_true, Bool.false_eq_true, if_false, wake] using hP

@[simp] theorem Dev.answer_frame (d : Dev) (bs : List Byte) : (∀ f i, (d.answer bs).rd f i = d.rd f i) ∧ (d.answer bs).latch = d.latch ∧
    (d.answer bs).readData = bs ∧ (d.answer bs).poisoned = false := ⟨fun _ _ => rfl, rfl, rfl, rfl⟩

/-- The read of another register than TL_SAMPLE_HI takes no sample. -/
theorem Dev.sampleTaken_other (d : Dev) (r : RegAt) (h : r.card.reg ≠ .TL_SAMPLE_HI) : d.sampleTaken r = d := by
  simp [Dev.sampleTaken, h]

/-- The block with the latch of the register at `a` set to `k`. -/
def Dev.latchTo (d : Dev) (a k : Nat) : Dev := { d with latch := tset (fun _ => 0) d.latch a k }

/-- An answer that sets one latch: that latch, every other, every register field. -/
theorem Dev.latchTo_answer (d : Dev) (a k : Nat) (bs : List Byte) :
    tget (fun _ => 0) ((d.latchTo a k).answer bs).latch a = k ∧
      (∀ j, j ≠ a → tget (fun _ => 0) ((d.latchTo a k).answer bs).latch j = tget (fun _ => 0) d.latch j) ∧
      d.keepsBut ((d.latchTo a k).answer bs) [] := by
  have latch : ((d.latchTo a k).answer bs).latch = tset (fun _ => 0) d.latch a k := rfl
  rw [latch]
  exact ⟨by simp, fun j h => by simp [h], fun _ _ _ => rfl⟩

theorem Dev.unlatch_eq (d : Dev) (r : RegAt) : d.unlatch r = d.latchTo r.latchKey 0 := rfl

/-- An aligned 32-bit read of the low half of a 64-bit register: its low half, the high half latched. -/
theorem Dev.read32_low {m : Mems} {d : Dev} {a : Nat} {r : RegAt} (hd : d.responds a = true) (hit : regHit a = some (r, 0)) (hw : r.card.width = 64)
    (hs : r.card.reg ≠ .TL_SAMPLE_HI) :
    Dev.read32 m d a = (d.regValue r % 2 ^ 32, d.latchTo r.latchKey (d.regValue r / 2 ^ 32 + 1)) := by
  unfold Dev.read32
  simp only [hd, hit, hw, Dev.sampleTaken_other _ _ hs]
  rfl

/-- An aligned 32-bit read of the high half: what was latched, else the live half. -/
theorem Dev.read32_high {m : Mems} {d : Dev} {a : Nat} {r : RegAt} (hd : d.responds a = true) (hit : regHit a = some (r, 4)) (hw : r.card.width = 64)
    (hs : r.card.reg ≠ .TL_SAMPLE_HI) :
    Dev.read32 m d a = match tget (fun _ => 0) d.latch r.latchKey with
      | 0 => (d.regValue r / 2 ^ 32, d)
      | k + 1 => (k, d.latchTo r.latchKey 0) := by
  unfold Dev.read32
  simp only [hd, hit, hw, Dev.sampleTaken_other _ _ hs, Dev.unlatch_eq]
  rfl

theorem Dev.readReg_word {m : Mems} {d : Dev} {a : Nat} (h : a % 4 = 0) : Dev.readReg m d a 4 = Dev.read32 m d a := by
  simp [Dev.readReg, h]

/-! ## BAR4 -/

/-- HBM_WINDOW_ACCESS, where the block is ready for it: a read, or a write that reaches no memory. -/
theorem acts_bar4 {s : State} {off len : Nat} {data : Option (List Byte)} {P : Dev → Prop} {e : Dev} (hr : s.dev.hostReady = true)
    (h : Dev.bar4 s.mem s.dev.reached off len data = ([], e)) (hP : P e) : Acts (.hbmWindowAccess off len data) s P := by
  refine acts_onMem rfl rfl ?_ ?_ <;> simp only [Dev.hostReady_access hr, h]
  exact hP

/-- An access that asks the memory changes no register field. -/
@[simp] theorem Dev.hbm_rd (d : Dev) (w : Bool) (who : Requester) (a n : Nat) (f : Fld) (i : Nat) : (d.hbm w who a n).rd f i = d.rd f i := by
  unfold Dev.hbm
  split
  · rfl
  · exact foldl_keeps (fun d : Dev => d.rd f i) _ _ _ (fun _ _ _ => rfl)

@[simp] theorem Dev.hbm_readData (d : Dev) (w : Bool) (who : Requester) (a n : Nat) : (d.hbm w who a n).readData = d.readData := by
  unfold Dev.hbm
  split
  · rfl
  · exact foldl_keeps Dev.readData _ _ _ (fun d x _ => by simp [Dev.hbm1])

theorem winAccess_lt {off n : Nat} (h : winAccess off n = true) : off < 2 ^ 27 := by
  simp only [winAccess, Bool.and_eq_true, decide_eq_true_eq, List.contains_iff_mem] at h
  obtain ⟨⟨hn, -⟩, hlt⟩ := h
  have : n ≠ 0 := fun e => by subst e; revert hn; decide
  omega

/-- The address in pattern memory that window offset `off` names (R288). -/
def Dev.winAddr (d : Dev) (off : Nat) : Nat := d.rd .RG_WIN_BASE_ADDR 0 * 2 ^ (Fld.spec .RG_WIN_BASE_ADDR).lo + off

theorem Dev.winAddr_eq (d : Dev) (off : Nat) : d.winAddr off = d.rd .RG_WIN_BASE_ADDR 0 * 2 ^ 20 + off :=
  congrArg (fun k => d.rd .RG_WIN_BASE_ADDR 0 * 2 ^ k + off) (rfl : (Fld.spec .RG_WIN_BASE_ADDR).lo = 20)

theorem Dev.reached_winAddr (d : Dev) (off : Nat) : d.reached.winAddr off = d.winAddr off := rfl

theorem Dev.reached_hbmOk (d : Dev) (a n : Nat) : d.reached.hbmOk a n = d.hbmOk a n := rfl

/-- The window takes an access of `n` bytes at `off`, which lies in the memory in service. -/
def Dev.winOpen (d : Dev) (off n : Nat) : Bool := winAccess off n && !d.localMode && d.hbmOk (d.winAddr off) n

theorem Dev.windowAccess_write {m : Mems} {d : Dev} {off len : Nat} {bs : List Byte} (h : d.winOpen off bs.length = true) :
    Dev.windowAccess m d off len (some bs) = ([.hbm (d.winAddr off) bs], d.hbm true .window (d.winAddr off) bs.length) := if_pos h

theorem Dev.windowAccess_read {m : Mems} {d : Dev} {off len : Nat} (h : d.winOpen off len = true) :
    (Dev.windowAccess m d off len none).1 = [] ∧ (Dev.windowAccess m d off len none).2.readData = readMem byte0 m.hbm (d.winAddr off) len ∧
      d.keepsBut (Dev.windowAccess m d off len none).2 [] := by
  have data := Dev.hbm_readData (d.answer (readMem byte0 m.hbm (d.winAddr off) len)) false .window (d.winAddr off) len
  have regs := Dev.hbm_rd (d.answer (readMem byte0 m.hbm (d.winAddr off) len)) false .window (d.winAddr off) len
  have access : ∃ b c, Dev.windowAccess m d off len none =
      ([], { (d.answer (readMem byte0 m.hbm (d.winAddr off) len)).hbm false .window (d.winAddr off) len with poisoned := b, mc := c }) :=
    ⟨_, _, if_pos h⟩
  generalize (d.answer (readMem byte0 m.hbm (d.winAddr off) len)).hbm false .window (d.winAddr off) len = e at data regs access
  obtain ⟨b, c, access⟩ := access
  rw [access]
  exact ⟨rfl, data, fun f i _ => regs f i⟩

theorem Dev.windowAccess_closed {m : Mems} {d : Dev} {off len : Nat} {data : Option (List Byte)}
    (h : (winAccess off ((data.map List.length).getD len) && !d.localMode) = false) :
    Dev.windowAccess m d off len data = ([], if data.isNone then d.answer (bytesOf len 0) else d) := by
  cases data <;> simp only [Option.map_none, Option.map_some, Option.getD_none, Option.getD_some] at h <;>
    simp only [Dev.windowAccess, h, Bool.false_and, Bool.false_eq_true, if_false] <;> rfl

theorem Dev.bar4_window {m : Mems} {d : Dev} {off len : Nat} {data : Option (List Byte)} (h : off < 2 ^ 27) :
    Dev.bar4 m d off len data = Dev.windowAccess m d off len data := if_pos h

/-- Snapshots of a list of counters (R469): those, and no other field. -/
theorem Dev.snapshots_rd (l : List Nat) (d : Dev) (f : Fld) (j : Nat) :
    (l.foldl (fun d i => d.wr .TL_SNAP_COUNT i (d.rd .TL_CNT_COUNT i)) d).rd f j =
      if f = .TL_SNAP_COUNT ∧ j ∈ l then d.rd .TL_CNT_COUNT j % 2 ^ 48 else d.rd f j := by
  induction l generalizing d with
  | nil => simp
  | cons i t ih =>
    have count : ∀ k, (d.wr .TL_SNAP_COUNT i (d.rd .TL_CNT_COUNT i)).rd .TL_CNT_COUNT k = d.rd .TL_CNT_COUNT k :=
      fun k => Dev.wr_rd_ne _ _ _ _ _ _ (by decide)
    rw [List.foldl_cons, ih, count, Dev.wr_rd]
    by_cases hf : f = .TL_SNAP_COUNT
    · subst hf
      by_cases hj : j ∈ t
      · simp [hj]
      · by_cases hi : j = i
        · subst hi; simp [hj, show Fld.TL_SNAP_COUNT.spec.width = 48 from rfl]
        · simp [hj, hi]
    · simp [hf]

/-- The counters of a group at a page's offset `8 * i` (R468). -/
theorem Dev.userReg_eq (d : Dev) (g i : Nat) (hi : i < 512) :
    d.userReg g (8 * i) = if i % 256 < 64 ∧ d.rd .TL_CFG_GROUP (i % 256) = g then
      (if i < 256 then d.rd .TL_CNT_COUNT i else d.rd .TL_SNAP_COUNT (i - 256)) else 0 := by
  have place : 8 * i % 2048 / 8 = i % 256 := by omega
  have inPages : 8 * i < 4096 := by omega
  unfold Dev.userReg
  simp only [place, inPages, true_and]
  by_cases hl : i < 256
  · simp only [show 8 * i < 2048 by omega, hl, if_true, Nat.mod_eq_of_lt hl]
  · simp only [show ¬ 8 * i < 2048 by omega, hl, if_false, show i % 256 = i - 256 by omega]

/-- Settles O7: BAR0 reads by their width and latch, BAR4 accesses by where they fall. -/
theorem halfReadsLatchAndWindowAccessesReachMemory : Obligations.HalfReadsLatchAndWindowAccessesReachMemory := by
  unfold Obligations.HalfReadsLatchAndWindowAccessesReachMemory
  refine ⟨⟨fun s a r hr ha h4 hresp hit hw hs => ?_, fun s a h r hr h4 hresp hit hw hs hl => ?_, fun s a r hr h4 hresp hit hw hs hl => ?_,
    fun s a r hr ha h8 hresp hit hw hs => ?_, fun s a n o r hr ha hn hresp hit hs => ?_⟩,
    fun s off bs hr hwin hloc hok => ?_, fun s off len hr hwin hloc hok => ?_, fun s off len data hr hoff hno => ?_,
    fun s g i hr hg hi => ?_, fun s g bs hr hg hlen => ?_, fun s off len hr hoff => ?_⟩
  · have act := acts_lowHalfRead (s := s) (a := a) (n := 0) (w := 4) (P := fun e => e.readData = bytesOf 4 (s.dev.reached.regValue r % 2 ^ 32) ∧
      e.poisoned = false ∧ tget (fun _ => 0) e.latch r.latchKey = s.dev.reached.regValue r / 2 ^ 32 + 1 ∧
      (∀ k, k ≠ r.latchKey → tget (fun _ => 0) e.latch k = tget (fun _ => 0) s.dev.latch k) ∧ s.dev.keepsBut e []) hr ha (by omega) rfl (by
        rw [Dev.readReg_word h4, Dev.read32_low (Dev.hostReady_responds hr a) hit hw hs]
        exact ⟨rfl, rfl, Dev.latchTo_answer s.dev.reached _ _ _⟩)
    simpa only [Nat.zero_mul, Nat.zero_add] using act
  · refine acts_highHalfRead hr ?_
    have hl' : tget (fun _ => 0) s.dev.reached.latch r.latchKey = h + 1 := hl
    rw [Dev.readReg_word h4, Dev.read32_high (Dev.hostReady_responds hr a) hit hw hs, hl']
    exact ⟨rfl, rfl, Dev.latchTo_answer s.dev.reached _ _ _⟩
  · refine acts_highHalfRead hr ?_
    have hl' : tget (fun _ => 0) s.dev.reached.latch r.latchKey = 0 := hl
    rw [Dev.readReg_word h4, Dev.read32_high (Dev.hostReady_responds hr a) hit hw hs, hl']
    exact ⟨rfl, rfl, rfl, fun _ _ _ => rfl⟩
  · have read : Dev.readReg s.mem s.dev.reached a 8 = (s.dev.reached.regValue r, s.dev.reached.latchTo r.latchKey 0) := by
      simp [Dev.readReg, h8, Dev.read64, Dev.hostReady_responds hr, hit, hw, Dev.sampleTaken_other _ _ hs, Dev.unlatch_eq]
    refine acts_lowHalfRead (w := 8) hr ha (by omega) rfl ?_
    rw [read]
    exact ⟨rfl, Dev.latchTo_answer s.dev.reached _ _ _⟩
  · have read : Dev.readReg s.mem s.dev.reached a n = (bits (s.dev.reached.regValue r) (8 * o) (8 * n), s.dev.reached) := by
      have narrow : n = 1 ∨ n = 2 ∨ n = 3 := by omega
      have aligned : ¬(n = 0 ∨ if n = 3 then 1 < a % 4 else a % n ≠ 0) := by
        rcases narrow with rfl | rfl | rfl <;> simp <;> omega
      rw [Dev.readReg, if_neg aligned, if_neg (by omega), if_neg (by omega), if_pos (by omega)]
      simp [Dev.readNarrow, Dev.hostReady_responds hr, hit, Dev.sampleTaken_other _ _ hs]
    refine acts_lowHalfRead (w := n) hr ha (by omega) (by rw [if_neg (by omega)]) ?_
    rw [read]
    exact ⟨rfl, rfl, fun _ _ _ => rfl⟩
  · have open_ : s.dev.reached.winOpen off bs.length = true := by
      rw [Dev.winOpen, hwin, show s.dev.reached.localMode = false from hloc, Dev.reached_winAddr, Dev.reached_hbmOk, Dev.winAddr_eq, hok]; rfl
    refine writes_onMem rfl rfl ?_
    simp only [Dev.hostReady_access hr, Dev.bar4_window (winAccess_lt hwin), Dev.windowAccess_write open_, ← Dev.winAddr_eq]
    exact ⟨rfl, fun f i _ => Dev.hbm_rd _ _ _ _ _ f i⟩
  · have open_ : s.dev.reached.winOpen off len = true := by
      rw [Dev.winOpen, hwin, show s.dev.reached.localMode = false from hloc, Dev.reached_winAddr, Dev.reached_hbmOk, Dev.winAddr_eq, hok]; rfl
    obtain ⟨puts, read⟩ := Dev.windowAccess_read (m := s.mem) open_
    rw [Dev.reached_winAddr, Dev.winAddr_eq] at read
    exact acts_bar4 hr (by rw [Dev.bar4_window (winAccess_lt hwin)]; exact Prod.ext puts rfl) read
  · have closed : (winAccess off ((data.map List.length).getD len) && !s.dev.reached.localMode) = false := by
      rcases hno with h | h
      · rw [show s.dev.reached.localMode = true from h, Bool.not_true, Bool.and_false]
      · rw [h, Bool.false_and]
    refine acts_bar4 hr (by rw [Dev.bar4_window hoff, Dev.windowAccess_closed closed]) ?_
    cases data with
    | none => exact ⟨fun _ _ _ => rfl, fun _ => rfl⟩
    | some bs => exact ⟨fun _ _ _ => rfl, fun h => nomatch h⟩
  · have out : ¬ 2 ^ 27 + g * 65536 + 8 * i < 2 ^ 27 := by omega
    have page : (2 ^ 27 + g * 65536 + 8 * i - 2 ^ 27) = g * 65536 + 8 * i := by omega
    have access : Dev.bar4 s.mem s.dev.reached (2 ^ 27 + g * 65536 + 8 * i) 8 none =
        ([], (s.dev.reached.unlatchAt (2 ^ 28 + (g * 65536 + 8 * i) / 8 * 8)).answer (bytesOf 8 (s.dev.reached.userReg g (8 * i)))) := by
      simp only [Dev.bar4, out, if_false, page, show g * 65536 + 8 * i < 2 ^ 24 by omega, if_true, Dev.userRead,
        show (g * 65536 + 8 * i) / 65536 = g by omega, show (g * 65536 + 8 * i) % 65536 = 8 * i by omega]
      rw [if_neg (by simp; omega)]
    refine acts_bar4 hr access ⟨fun _ _ _ => rfl, ?_⟩
    rw [Dev.userReg_eq _ _ _ hi]
    rfl
  · have access : Dev.bar4 s.mem s.dev.reached (2 ^ 27 + g * 65536 + 0xFF00) 0 (some bs) =
        ([], s.dev.reached.snapshot (fun i => s.dev.rd .TL_CFG_GROUP i == g)) := by
      have out : ¬ 2 ^ 27 + g * 65536 + 0xFF00 < 2 ^ 27 := by omega
      have page : 2 ^ 27 + g * 65536 + 0xFF00 - 2 ^ 27 = g * 65536 + 0xFF00 := by omega
      simp only [Dev.bar4, out, if_false, page, show (g * 65536 + 0xFF00) / 65536 = g by omega]
      rw [if_pos ⟨by omega, by omega, by omega, by omega⟩]
      rfl
    refine acts_bar4 hr access ⟨fun i hi => ?_, fun f i hf => ?_⟩
    · rw [Dev.snapshot, Dev.snapshots_rd]
      simp [hi]
    · rw [Dev.snapshot, Dev.snapshots_rd, if_neg (fun h => hf (by simp [h.1]))]
      simp
  · refine acts_bar4 hr (e := s.dev.reached.answer (bytesOf len 0)) ?_ ⟨rfl, fun _ _ _ => rfl⟩
    simp only [Dev.bar4, show ¬ off < 2 ^ 27 by omega, if_false, show ¬ off - 2 ^ 27 < 2 ^ 24 by omega]

end Sys2Proof.Machine
end

section
/-!
Obligation O1. The end of an engine cycle (log entry 2): what it drops and counts leaves the clock, which its last part moves on.
-/
namespace Sys2Proof.Machine

/-! ### Local time: the updates of the records and the stops leave it -/

@[simp] theorem Dev.up_now (d : Dev) : (∀ n f, (d.upSite n f).now = d.now) ∧ (∀ n f, (d.upPin n f).now = d.now) ∧ (∀ n f, (d.upEntry n f).now = d.now) ∧
    (∀ n f, (d.upPc n f).now = d.now) ∧ (∀ f i v, (d.wr f i v).now = d.now) ∧
    (∀ f i, (d.set1 f i).now = d.now) ∧ (∀ f i, (d.clr f i).now = d.now) ∧ (∀ f i n, (d.count f i n).now = d.now) ∧
    (∀ e s r, (d.finish e s r).now = d.now) :=
  ⟨fun _ _ => rfl, fun _ _ => rfl, fun _ _ => rfl, fun _ _ => rfl, fun _ _ _ => rfl, fun _ _ => rfl, fun _ _ => rfl, fun _ _ _ => rfl, fun _ _ _ => rfl⟩

@[simp] theorem Dev.upFc_now (d : Dev) (f : Fc → Fc) : (d.upFc f).now = d.now := rfl

@[simp] theorem Dev.upTl_now (d : Dev) (f : Tl → Tl) : (d.upTl f).now = d.now := rfl

theorem Dev.drain_now (d : Dev) (n r s : Nat) (b : Bool) : (d.drain n r s b).now = d.now := by
  have irqs (l : List Nat) (d : Dev) : (l.foldl (fun d l => d.raiseIrq l 0) d).now = d.now := foldl_keeps Dev.now _ l d (fun _ _ _ => rfl)
  have fifos (l : List Nat) (d : Dev) : (l.foldl (fun d p => d.dropFifo p) d).now = d.now := foldl_keeps Dev.now _ l d (fun _ _ _ => rfl)
  have csqs (l : List Nat) (d : Dev) : (l.foldl (fun d p => d.abortCsq p) d).now = d.now := foldl_keeps Dev.now _ l d (fun _ _ _ => rfl)
  unfold Dev.drain
  cases b <;> simp [irqs, fifos, csqs]

theorem Dev.stopSite_now (d : Dev) (n r s e : Nat) (b : Bool) : (d.stopSite n r s e b).now = d.now := by
  have csqs (l : List Nat) : (l.foldl (fun d p => d.abortCsq p) d).now = d.now := foldl_keeps Dev.now _ l d (fun _ _ _ => rfl)
  unfold Dev.stopSite
  dsimp only
  (repeat' split) <;> simp [Dev.stopSoon, Dev.drain_now, csqs]

theorem Dev.spanHalts_now (d : Dev) : d.spanHalts.now = d.now :=
  foldl_keeps Dev.now _ _ d (fun d n _ => by simp [Dev.spanStop, Dev.stopSite_now])

theorem Dev.takeTrims_now (d : Dev) (p : Nat) : (d.takeTrims p).now = d.now := by
  unfold Dev.takeTrims
  split <;> simp

theorem Dev.toIdle_now (d : Dev) (n : Nat) : (d.toIdle n).now = d.now := by
  have trims (l : List Nat) : (l.foldl (fun d p => d.takeTrims p) d).now = d.now := foldl_keeps Dev.now _ l d (fun d p _ => d.takeTrims_now p)
  simp [Dev.toIdle, trims]

theorem Dev.clearSite_now (d : Dev) (n : Nat) : (d.clearSite n).now = d.now := by
  refine (foldl_keeps Dev.now _ _ _ ?_).trans (foldl_keeps Dev.now _ _ _ ?_)
  · exact fun _ _ _ => rfl
  · exact fun _ _ _ => rfl

theorem Dev.abandon_now (d : Dev) (n st : Nat) : (d.abandon n st).now = d.now := by
  have stops (run : Option Nat) (l : List Nat) (d : Dev) : (l.foldl (fun e x => (e.finish x Status.OK (resAt 0 80 48)).upEntry x
      (fun y => { y with after := run })) d).now = d.now := foldl_keeps Dev.now _ l d (fun _ _ _ => rfl)
  unfold Dev.abandon
  dsimp only
  rw [Dev.toIdle_now, Dev.clearSite_now, stops]
  split <;> rfl

theorem Dev.earlyStops_now (d : Dev) : d.earlyStops.now = d.now :=
  foldl_keeps Dev.now _ _ d (fun d x _ => by split <;> simp [Dev.abandon_now])

theorem Dev.safeDrops_now (d : Dev) : d.safeDrops.now = d.now := by
  unfold Dev.safeDrops
  split
  · rfl
  · dsimp only
    rw [Dev.upFc_now]
    refine (foldl_keeps Dev.now _ _ _ ?_).trans (foldl_keeps Dev.now _ _ _ ?_)
    · exact fun _ _ _ => rfl
    · intro d q _
      split <;> simp

theorem Dev.addCount_now (d : Dev) (i n : Nat) : (d.addCount i n).now = d.now := by
  unfold Dev.addCount
  dsimp only
  split <;> simp

theorem Dev.tally_now (d : Dev) (ev i n : Nat) : (d.tally ev i n).now = d.now := by
  unfold Dev.tally
  split <;> rfl

theorem Dev.tallyCycle_now (d : Dev) : d.tallyCycle.now = d.now := by
  unfold Dev.tallyCycle
  split
  · rfl
  · dsimp only
    rw [Dev.upTl_now]
    refine (foldl_keeps Dev.now _ _ _ ?_).trans ?_
    · intro d i _
      split <;> simp only [Dev.addCount_now]
    · split <;> simp only [Dev.tally_now]

/-- An engine cycle is one engine cycle long. -/
theorem Dev.engineCycle_now (d : Dev) : d.engineCycle.now = d.now + 16384 := by
  show (((d.spanHalts.earlyStops.safeDrops).tallyCycle).now + cycleTicks) = _
  rw [Dev.tallyCycle_now, Dev.safeDrops_now, Dev.earlyStops_now, Dev.spanHalts_now]
  rfl

end Sys2Proof.Machine

open Sys2Proof Sys2Proof.Machine

/-- Settles O1: the step takes the front command by its definition; with none, every part of the engine cycle but the last leaves the clock. -/
theorem stepTakesFrontCommand : Obligations.StepTakesFrontCommand := by
  refine ⟨fun c s => rfl, fun s hs => ⟨s.idle, ?_, hs, rfl, Dev.engineCycle_now s.dev⟩⟩
  unfold step
  rw [hs]
end

section
/-!
SUPPORT. What halts, stops and messages between the units leave of the register file: every field but status fields of the units that stop.
-/
namespace Sys2Proof.Machine

/-- The register table with the fields of `L` hidden. -/
def viewBut (L : List Fld) (t : Tab Nat) (f : Fld) (i : Nat) : Nat := if f ∈ L then 0 else tget (fun _ => f.dfltAt i) t (fkey f i)

theorem keepsFields_of_view {L : List Fld} {d e : Dev} (h : viewBut L e.regs = viewBut L d.regs) : d.keepsFields e L := by
  intro f i hf
  have := congrFun (congrFun h f) i
  simp only [viewBut, if_neg hf] at this
  exact this

theorem view_of_keepsFields {L : List Fld} {d e : Dev} (h : d.keepsFields e L) : viewBut L e.regs = viewBut L d.regs := by
  funext f i
  unfold viewBut
  split
  · rfl
  · exact h f i ‹_›

/-- The status fields that a halt or a stop may write. -/
def haltFields : List Fld :=
  [.PIN_TF_STATUS_SPACING_COUNT, .PIN_TF_STATUS_SPACING, .SITE_STATUS_STATE, .SITE_STATUS_SPAN_LATE, .RN_PORT_COUNT_FWD,
   .TM_CTDC_ROUTE_VALID, .TM_CTDC_ROUTE_INPUT, .TM_CTDC_ROUTE_PIN, .PIN_TM_STATUS_CH_ROUTED, .PIN_TM_STATUS_CL_ROUTED, .PIN_TM_STATUS_CH_DOWN,
   .PIN_TM_STATUS_CL_DOWN, .PIN_TM_STATUS_CH_BUSY, .PIN_TM_STATUS_CL_BUSY, .TM_STATUS_JOBS, .TM_STATUS_HISTS, .WV_STATUS_JUMP_PENDING,
   .WV_STATUS_STATE, .SP_STATUS_REQ_OPEN, .SP_STATUS_FORCE_OPEN, .TW_STATUS_OWN, .TW_STATUS_ROLE, .RN_LANE_STATUS_USED, .RN_LANE_STATUS_SNAP,
   .RN_PORT_STATUS_LINK_LOSS, .RN_PORT_STATUS_LANES, .RN_PORT_STATUS_LSTATE, .RN_PORT_STATUS_RATE_NOW, .KL_STATUS_BALLAST]

/-- The register fields that a halt leaves. -/
def Dev.haltView (d : Dev) : Fld → Nat → Nat := viewBut haltFields d.regs

theorem Dev.haltView_congr {d e : Dev} (h : e.regs = d.regs) : e.haltView = d.haltView := congrArg (viewBut haltFields) h

theorem Dev.wr_haltView (d : Dev) (f : Fld) (i v : Nat) (hf : f ∈ haltFields) : (d.wr f i v).haltView = d.haltView :=
  view_of_keepsFields (fun _ _ hg => Dev.wr_rd_ne _ _ _ _ _ _ (fun e => hg (e ▸ hf)))

theorem Dev.set1_haltView (d : Dev) (f : Fld) (i : Nat) (hf : f ∈ haltFields) : (d.set1 f i).haltView = d.haltView :=
  Dev.wr_haltView d f i 1 hf

theorem Dev.clr_haltView (d : Dev) (f : Fld) (i : Nat) (hf : f ∈ haltFields) : (d.clr f i).haltView = d.haltView :=
  Dev.wr_haltView d f i 0 hf

theorem Dev.count_haltView (d : Dev) (f : Fld) (i n : Nat) (hf : f ∈ haltFields) : (d.count f i n).haltView = d.haltView :=
  Dev.wr_haltView d f i _ hf

theorem Dev.foldl_haltView {β : Type} (g : Dev → β → Dev) (l : List β) (d : Dev) (h : ∀ d x, (g d x).haltView = d.haltView) :
    (l.foldl g d).haltView = d.haltView := foldl_keeps Dev.haltView g l d (fun d x _ => h d x)

/-! ### Updates of the records leave the register file -/

@[simp] theorem Dev.up_haltView (d : Dev) : (∀ n f, (d.upSite n f).haltView = d.haltView) ∧ (∀ n f, (d.upLane n f).haltView = d.haltView) ∧
    (∀ n f, (d.upPin n f).haltView = d.haltView) ∧ (∀ n f, (d.upCsq n f).haltView = d.haltView) ∧ (∀ n f, (d.upWave n f).haltView = d.haltView) ∧
    (∀ n f, (d.upPort n f).haltView = d.haltView) ∧ (∀ n f, (d.upRnLane n f).haltView = d.haltView) ∧ (∀ n f, (d.upRing n f).haltView = d.haltView) ∧
    (∀ n f, (d.upVec n f).haltView = d.haltView) ∧ (∀ k n f, (d.upCal k n f).haltView = d.haltView) ∧ (∀ n f, (d.upJob n f).haltView = d.haltView) ∧
    (∀ n f, (d.upEntry n f).haltView = d.haltView) ∧ (∀ n a, (d.setAcq n a).haltView = d.haltView) ∧ (∀ f, (d.upFc f).haltView = d.haltView) ∧
    (∀ s i, (d.raise s i).haltView = d.haltView) ∧ (∀ s i k, (d.raiseK s i k).haltView = d.haltView) ∧ d.took.haltView = d.haltView ∧
    (∀ e s r, (d.finish e s r).haltView = d.haltView) ∧ (∀ e i n, (d.tally e i n).haltView = d.haltView) :=
  ⟨fun _ _ => rfl, fun _ _ => rfl, fun _ _ => rfl, fun _ _ => rfl, fun _ _ => rfl, fun _ _ => rfl, fun _ _ => rfl, fun _ _ => rfl, fun _ _ => rfl,
    fun _ _ _ => rfl, fun _ _ => rfl, fun _ _ => rfl, fun _ _ => rfl, fun _ => rfl, fun _ _ => rfl, fun _ _ _ => rfl, rfl, fun _ _ _ => rfl,
    fun _ _ _ => Dev.haltView_congr (by unfold Dev.tally; split <;> rfl)⟩

theorem haltView_ite {c : Prop} [Decidable c] (a b : Dev) : (if c then a else b).haltView = if c then a.haltView else b.haltView := apply_ite _ _ _ _

/-! ### Sites -/

@[simp] theorem Dev.raiseIrq_haltView (d : Dev) (l k : Nat) : (d.raiseIrq l k).haltView = d.haltView := Dev.haltView_congr rfl
@[simp] theorem Dev.raiseCsq_haltView (d : Dev) (p k : Nat) : (d.raiseCsq p k).haltView = d.haltView := Dev.haltView_congr rfl
@[simp] theorem Dev.abortCsq_haltView (d : Dev) (p : Nat) : (d.abortCsq p).haltView = d.haltView := Dev.haltView_congr rfl
@[simp] theorem Dev.dropFifo_haltView (d : Dev) (p : Nat) : (d.dropFifo p).haltView = d.haltView := Dev.haltView_congr rfl
@[simp] theorem Dev.stopSoon_haltView (d : Dev) (n r s : Nat) : (d.stopSoon n r s).haltView = d.haltView := Dev.haltView_congr rfl

@[simp] theorem Dev.drain_haltView (d : Dev) (n r s : Nat) (b : Bool) : (d.drain n r s b).haltView = d.haltView := by
  simp +decide [Dev.drain, Dev.wr_haltView, Dev.foldl_haltView, haltView_ite]

@[simp] theorem Dev.stopSite_haltView (d : Dev) (n r s e : Nat) (b : Bool) : (d.stopSite n r s e b).haltView = d.haltView := by
  unfold Dev.stopSite
  dsimp only
  (repeat' split) <;> simp [Dev.foldl_haltView]

@[simp] theorem Dev.abortSite_haltView (d : Dev) (n r : Nat) (b : Bool) : (d.abortSite n r b).haltView = d.haltView := Dev.stopSite_haltView ..

@[simp] theorem Dev.sendOn_haltView (d : Dev) (p : Nat) (k : SpanPkt) : (d.sendOn p k).haltView = d.haltView := by
  simp +decide [Dev.sendOn, Dev.count_haltView]

@[simp] theorem Dev.originate_haltView (d : Dev) (k : SpanPkt) : (d.originate k).haltView = d.haltView := by
  simp [Dev.originate, Dev.sendSpan, Dev.foldl_haltView]

@[simp] theorem Dev.spanLate_haltView (d : Dev) (n : Nat) : (d.spanLate n).haltView = d.haltView := by
  simp +decide [Dev.spanLate, Dev.spanStop, Dev.set1_haltView]

@[simp] theorem Dev.haltSpans_haltView (d : Dev) : d.haltSpans.haltView = d.haltView := by
  simp [Dev.haltSpans, Dev.foldl_haltView]

/-! ### Pins and waves -/

@[simp] theorem Dev.spacing_haltView (d : Dev) (p n : Nat) : (d.spacing p n).haltView = d.haltView := by
  unfold Dev.spacing
  dsimp only
  (repeat' split) <;> simp +decide [Dev.count_haltView, Dev.set1_haltView]

@[simp] theorem Dev.settle_haltView (d : Dev) (p : Nat) (hz : Int) : (d.settle p hz).haltView = d.haltView := by simp [Dev.settle]

@[simp] theorem Dev.deOff_haltView (d : Dev) (p : Nat) : (d.deOff p).haltView = d.haltView := Dev.haltView_congr rfl

@[simp] theorem Dev.askIdle_haltView (d : Dev) (p : Nat) (t : Int) : (d.askIdle p t).haltView = d.haltView := by
  unfold Dev.askIdle
  dsimp only
  split <;> simp

@[simp] theorem Dev.driveIdle_haltView (d : Dev) (p : Nat) : (d.driveIdle p).haltView = d.haltView := by simp [Dev.driveIdle, Dev.idleAt]

@[simp] theorem Dev.evPut_haltView (d : Dev) (e t : Nat) (b : Bool) : (d.evPut e t b).haltView = d.haltView := Dev.haltView_congr rfl

@[simp] theorem Dev.evPulse_haltView (d : Dev) (e t : Nat) : (d.evPulse e t).haltView = d.haltView := by
  unfold Dev.evPulse
  dsimp only
  (repeat' split) <;> simp

@[simp] theorem Dev.evSignal_haltView (d : Dev) (k : SigKind) (t u i : Nat) (b : Bool) : (d.evSignal k t u i b).haltView = d.haltView := by
  unfold Dev.evSignal
  refine Dev.foldl_haltView _ _ _ (fun d e => ?_)
  dsimp only
  (repeat' split) <;> simp

@[simp] theorem Dev.askJump_haltView (d : Dev) (w t : Nat) : (d.askJump w t).haltView = d.haltView := Dev.haltView_congr rfl

@[simp] theorem Dev.signal_haltView (d : Dev) (k : SigKind) (t u i : Nat) (b : Bool) : (d.signal k t u i b).haltView = d.haltView := by
  refine (Dev.foldl_haltView _ _ _ (fun d w => ?_)).trans ((Dev.haltView_congr rfl).trans (Dev.evSignal_haltView d k t u i b))
  split <;> simp

@[simp] theorem Dev.queueCond_haltView (d : Dev) (n : Nat) (e : CondEv) : (d.queueCond n e).haltView = d.haltView := Dev.haltView_congr rfl

@[simp] theorem Dev.spanCond_haltView (d : Dev) (n c : Nat) (v : Bool) (t : Nat) : (d.spanCond n c v t).haltView = d.haltView := by simp [Dev.spanCond]

@[simp] theorem Dev.postCond_haltView (d : Dev) (n src : Nat) (v : Bool) (t : Nat) : (d.postCond n src v t).haltView = d.haltView := by
  simp [Dev.postCond, Dev.foldl_haltView, haltView_ite]

@[simp] theorem Dev.wvMark_haltView (d : Dev) (w : Nat) (b : Bool) (P : Nat) : (d.wvMark w b P).haltView = d.haltView := by
  simp [Dev.wvMark, Dev.foldl_haltView, haltView_ite]

@[simp] theorem Dev.wvClear_haltView (d : Dev) (w st : Nat) : (d.wvClear w st).haltView = d.haltView := by
  simp +decide [Dev.wvClear, Dev.wr_haltView, Dev.clr_haltView, haltView_ite]

@[simp] theorem Dev.wvEnd_haltView (d : Dev) (w c s st P : Nat) (m : Bool) : (d.wvEnd w c s st P m).haltView = d.haltView := by
  simp only [Dev.wvEnd, Dev.up_haltView, Dev.wvClear_haltView, Dev.wvMark_haltView]
  rw [Dev.foldl_haltView _ _ _ (fun d e => by simp)]
  split <;> simp

@[simp] theorem Dev.wvWithdraw_haltView (d : Dev) (w c s : Nat) : (d.wvWithdraw w c s).haltView = d.haltView := by
  simp only [Dev.wvWithdraw, Dev.wvClear_haltView]
  rw [Dev.foldl_haltView _ _ _ (fun d e => by simp)]
  split <;> simp

@[simp] theorem Dev.wvStopFault_haltView (d : Dev) (w : Nat) : (d.wvStopFault w).haltView = d.haltView := by
  unfold Dev.wvStopFault
  (repeat' split) <;> simp

@[simp] theorem Dev.wvAllOff_haltView (d : Dev) (c s : Nat) : (d.wvAllOff c s).haltView = d.haltView := by
  unfold Dev.wvAllOff
  refine Dev.foldl_haltView _ _ _ (fun d w => ?_)
  simp [haltView_ite]

/-! ### Timing jobs, acquisitions and calibrations -/

@[simp] theorem Dev.loadTaps_haltView (d : Dev) (i : Nat) : (d.loadTaps i).haltView = d.haltView := by
  unfold Dev.loadTaps
  dsimp only
  split <;> simp

/-- The fields of an input that a route or a job writes. -/
theorem inpFld_mem (f g : Fld) (i : Nat) (hf : f ∈ haltFields) (hg : g ∈ haltFields) : inpFld f g i ∈ haltFields := by
  unfold inpFld
  split <;> assumption

@[simp] theorem Dev.route1_haltView (d : Dev) (i : Nat) : (d.route1 i).haltView = d.haltView := by
  have rf : inpFld .PIN_TM_STATUS_CH_ROUTED .PIN_TM_STATUS_CL_ROUTED i ∈ haltFields := inpFld_mem _ _ _ (by decide) (by decide)
  have df : inpFld .PIN_TM_STATUS_CH_DOWN .PIN_TM_STATUS_CL_DOWN i ∈ haltFields := inpFld_mem _ _ _ (by decide) (by decide)
  unfold Dev.route1
  dsimp only
  (repeat' split) <;> simp +decide [Dev.clr_haltView, Dev.set1_haltView, Dev.wr_haltView, rf, df]

@[simp] theorem Dev.route_haltView (d : Dev) (i : Nat) : (d.route i).haltView = d.haltView := by
  simp [Dev.route, haltView_ite, Dev.foldl_haltView]

@[simp] theorem Dev.closeJob_haltView (d : Dev) (j : Job) (b : Bool) : (d.closeJob j b).haltView = d.haltView := by
  have busy (l : List Nat) (d : Dev) :
      (l.foldl (fun d i => d.clr (inpFld .PIN_TM_STATUS_CH_BUSY .PIN_TM_STATUS_CL_BUSY i) (i / 2)) d).haltView = d.haltView :=
    Dev.foldl_haltView _ _ _ (fun d i => Dev.clr_haltView _ _ _ (inpFld_mem _ _ _ (by decide) (by decide)))
  unfold Dev.closeJob
  dsimp only
  rw [Dev.foldl_haltView _ _ _ (fun d i => by simp), haltView_ite]
  simp +decide only [Dev.wr_haltView, busy, ite_self]
  exact Dev.haltView_congr rfl

@[simp] theorem Dev.stopJob_haltView (d : Dev) (e st : Nat) : (d.stopJob e st).haltView = d.haltView := by
  unfold Dev.stopJob
  (repeat' split) <;> simp

@[simp] theorem Dev.stopAcq_haltView (d : Dev) (x : Entry) : (d.stopAcq x).haltView = d.haltView := by
  unfold Dev.stopAcq
  dsimp only
  (repeat' split) <;> simp

@[simp] theorem Dev.closeWindow_haltView (d : Dev) (w : Window) : (d.closeWindow w).haltView = d.haltView := by
  unfold Dev.closeWindow
  dsimp only
  rw [Dev.wr_haltView _ _ _ _ (by decide), Dev.foldl_haltView _ _ _ (fun d p => by simp)]
  exact Dev.haltView_congr rfl

@[simp] theorem Dev.calRelease_haltView (d : Dev) (x : Entry) : (d.calRelease x).haltView = d.haltView := by
  simp +decide [Dev.calRelease, Dev.wr_haltView, Dev.foldl_haltView]

@[simp] theorem Dev.calStop_haltView (d : Dev) (x : Entry) : (d.calStop x).haltView = d.haltView := by
  unfold Dev.calStop
  rw [Dev.foldl_haltView _ _ _ (fun d w => by simp)]
  simp

@[simp] theorem Dev.stopEntry_haltView (d : Dev) (x : Entry) : (d.stopEntry x).haltView = d.haltView := by
  unfold Dev.stopEntry
  (repeat' split) <;> simp

/-! ### Rings, ports and the device -/

@[simp] theorem Dev.ringTo_haltView (d : Dev) (r st : Nat) : (d.ringTo r st).haltView = d.haltView := Dev.haltView_congr rfl

@[simp] theorem Dev.haltRing_haltView (d : Dev) (r : Nat) : (d.haltRing r).haltView = d.haltView := by
  unfold Dev.haltRing
  dsimp only
  split
  · rw [Dev.foldl_haltView _ _ _ (fun d x => by simp)]
    simp
  · rfl

theorem Dev.request_haltView (d : Dev) (v h : Nat) : (d.request v h).2.haltView = d.haltView := by
  refine Dev.haltView_congr ?_
  unfold Dev.request
  extract_lets V t
  split
  · rfl
  · split
    · rfl
    · rfl

theorem Dev.withTw_haltView (d : Dev) (t : Tw) : ({ d with tw := t } : Dev).haltView = d.haltView := Dev.haltView_congr rfl

@[simp] theorem Dev.own_haltView (d : Dev) (b : Bool) : (d.own b).haltView = d.haltView := by
  unfold Dev.own
  split
  · exact (Dev.withTw_haltView _ _).trans (Dev.set1_haltView d .TW_STATUS_OWN 0 (by decide))
  · exact Dev.wr_haltView _ _ _ _ (by decide)

@[simp] theorem Dev.roleTo_haltView (d : Dev) (r : Nat) : (d.roleTo r).haltView = d.haltView := by
  have offs (l m : List Nat) (d : Dev) : (l.foldl (fun d w => d.upWave w (fun W => { W with out := 0 })) (m.foldl (fun d p => d.deOff p) d)).haltView
      = d.haltView := by simp [Dev.foldl_haltView]
  have drives (l : List Nat) (d : Dev) : (l.foldl (fun d p => d.driveIdle p) d).haltView = d.haltView := by simp [Dev.foldl_haltView]
  have h1 : ((d.wr .TW_STATUS_ROLE 0 r).own (r == 3 || r == 5)).haltView = d.haltView := by simp +decide [Dev.wr_haltView]
  unfold Dev.roleTo
  dsimp only
  generalize (d.wr .TW_STATUS_ROLE 0 r).own (r == 3 || r == 5) = d1 at h1
  generalize hd3 : (if (d.follows && !(r == 2 || r == 3 || r == 4)) = true then Dev.dropMirrored _ else _) = d3
  have h3 : d3.haltView = d.haltView := by
    rw [← hd3, ← h1]
    split <;> exact Dev.haltView_congr rfl
  rw [← h3]
  split
  · exact offs _ _ _
  · split
    · exact drives _ _
    · rfl

@[simp] theorem Dev.twinLeft_haltView (d : Dev) : d.twinLeft.haltView = d.haltView := by
  simp [Dev.twinLeft, haltView_ite]

@[simp] theorem Dev.leftUp_haltView (d : Dev) (p : Nat) : (d.leftUp p).haltView = d.haltView := by
  have lanes (l : List Nat) (d : Dev) : (l.foldl (fun d l =>
      ((d.clr .RN_LANE_STATUS_USED l).wr .RN_LANE_STATUS_SNAP l 0).upRnLane l (fun L => { L with lowAt := none })) d).haltView = d.haltView :=
    Dev.foldl_haltView _ _ _ (fun d l => by simp +decide [Dev.clr_haltView, Dev.wr_haltView])
  unfold Dev.leftUp
  dsimp only
  (repeat' split) <;> simp +decide [Dev.wr_haltView, Dev.set1_haltView, lanes]

@[simp] theorem Dev.portTo_haltView (d : Dev) (p st : Nat) : (d.portTo p st).haltView = d.haltView := by
  simp +decide [Dev.portTo, haltView_ite, Dev.wr_haltView]

@[simp] theorem Dev.retrainPort_haltView (d : Dev) (p : Nat) : (d.retrainPort p).haltView = d.haltView := by
  simp +decide [Dev.retrainPort, Dev.retrainAt, Dev.trainAt, haltView_ite, Dev.wr_haltView]

@[simp] theorem Dev.haltSites_haltView (d : Dev) (l : List Nat) (c : Nat) : (d.haltSites l c).haltView = d.haltView := by
  simp [Dev.haltSites, Dev.foldl_haltView]

@[simp] theorem Dev.haltChannel_haltView (d : Dev) (w : Nat) : (d.haltChannel w).haltView = d.haltView := by
  unfold Dev.haltChannel
  dsimp only
  (repeat' split) <;> simp

@[simp] theorem Dev.haltDevice_haltView (d : Dev) (c : Nat) : (d.haltDevice c).haltView = d.haltView := by
  simp [Dev.haltDevice, Dev.foldl_haltView, haltView_ite]

@[simp] theorem Dev.haltJobs_haltView (d : Dev) (i : Nat) : (d.haltJobs i).haltView = d.haltView := by
  simp [Dev.haltJobs, Dev.foldl_haltView]

/-- The halt of an event's unit leaves the register fields that are not status fields of what stops (R445). -/
@[simp] theorem Dev.haltScope_haltView (d : Dev) (e : FcEvent) : (d.haltScope e).haltView = d.haltView := by
  unfold Dev.haltScope
  dsimp only
  (repeat' split) <;> simp [Dev.foldl_haltView]

end Sys2Proof.Machine
end

section
/-!
Obligation O57. Fault events: the group of a cycle, what an event leaves in the registers of the Collector (R444 to R454), the log (R451) and the
injection and the clearing of STATUS (R463).
-/
namespace Sys2Proof.Machine

@[simp] theorem Dev.upFc_rd (d : Dev) (f : Fc → Fc) (g : Fld) (j : Nat) : (d.upFc f).rd g j = d.rd g j := rfl
@[simp] theorem Dev.upFc_fc (d : Dev) (f : Fc → Fc) : (d.upFc f).fc = f d.fc := rfl
@[simp] theorem Dev.upFc_raised (d : Dev) (f : Fc → Fc) : (d.upFc f).raised = d.raised := rfl
@[simp] theorem Dev.fillOwed_rd (d : Dev) (s r : Nat) (g : Fld) (j : Nat) : (d.fillOwed s r).rd g j = d.rd g j := rfl

/-! ### The log and the injection -/

theorem Dev.logWrite_cons {d : Dev} {r : Nat} {t : List Nat} (h : d.fc.queue = r :: t) :
    d.logWrite = (((d.upFc (fun F => { F with queue := t })).wr .FC_LOG_LO_REC (d.rd .FC_LOG_IDX_NEXT 0) r).wr .FC_LOG_HI_REC (d.rd .FC_LOG_IDX_NEXT 0)
      (r / 2 ^ 64)).wr .FC_LOG_IDX_NEXT 0 ((d.rd .FC_LOG_IDX_NEXT 0 + 1) % 256) := by
  unfold Dev.logWrite
  rw [h]

theorem Dev.logWrite_nil {d : Dev} (h : d.fc.queue = []) : d.logWrite = d := by
  unfold Dev.logWrite
  rw [h]

theorem logWrite_acts (s : State) : Acts .logWrite s (fun e => (s.dev.fc.queue = [] → e = s.dev) ∧
    (∀ r t, s.dev.fc.queue = r :: t → let i := s.dev.rd .FC_LOG_IDX_NEXT 0
      e.fc.queue = t ∧ e.rd .FC_LOG_LO_REC i = r % 2 ^ 64 ∧ e.rd .FC_LOG_HI_REC i = r / 2 ^ 64 % 2 ^ 64 ∧
      e.rd .FC_LOG_IDX_NEXT 0 = (i + 1) % 256 ∧ s.dev.keepsBut e [(.FC_LOG_LO_REC, i), (.FC_LOG_HI_REC, i), (.FC_LOG_IDX_NEXT, 0)])) := by
  refine acts_onDev rfl rfl ⟨Dev.logWrite_nil, fun r t h => ?_⟩
  have lo : Fld.FC_LOG_LO_REC.spec.width = 64 := rfl
  have hi : Fld.FC_LOG_HI_REC.spec.width = 64 := rfl
  have next : Fld.FC_LOG_IDX_NEXT.spec.width = 8 := rfl
  rw [Dev.logWrite_cons h]
  refine ⟨?_, ?_, ?_, ?_, fun g j hg => ?_⟩
  · simp
  · simp [Dev.wr_rd, lo]
  · simp [Dev.wr_rd, hi]
  · simp [next]
  · simp only [List.mem_cons, Prod.mk.injEq, List.not_mem_nil, or_false, not_or] at hg
    simp [Dev.wr_rd, hg]

theorem fcInject_acts (s : State) (v : Word) (hr : s.dev.hostReady = true) : let x := bits v.toNat 0 10
    Acts (.fcInject v) s (fun e => ((x = 0 ∨ srcClass x = none) → e = s.dev.reached) ∧
      (x ≠ 0 → srcClass x ≠ none → s.dev.keepsBut e [] ∧
        e.raised = s.dev.raised ++ [⟨x, bits v.toNat 10 16, if x / 64 = 14 then bits v.toNat 26 4 else 0, s.dev.cycle⟩])) := by
  refine acts_hosted rfl rfl hr ⟨fun h => ?_, fun h0 hc => ?_⟩
  · simp only [Dev.inject, if_pos h]
  · simp only [Dev.inject, if_neg (not_or.mpr ⟨h0, hc⟩)]
    exact ⟨fun _ _ _ => rfl, rfl⟩

/-! ### The clearing of STATUS -/

/-- A cause stands, or the source is FATAL in the legacy mode: STATUS stays (R449, R462). -/
def Dev.statusBarred (d : Dev) (s : Nat) : Bool := d.srcActive s || (d.on .FC_MODE_LEGACY 0 && srcClass s == some 3)

theorem Dev.clearStatus_rd (d : Dev) (s : Nat) (g : Fld) (j : Nat) :
    (d.clearStatus s).rd g j = if g = .FC_SRC_STAT_STATUS ∧ j = s ∧ d.statusBarred s = false then
      (d.rd .FC_SRC_STAT_STATUS s &&& d.justSet .FC_SRC_STAT_STATUS s) % 2 ^ Fld.FC_SRC_STAT_STATUS.spec.width else d.rd g j := by
  have eq : d.clearStatus s = if d.statusBarred s = true then d else d.clrBy .FC_SRC_STAT_STATUS s := rfl
  rw [eq]
  cases d.statusBarred s <;> simp [Dev.clrBy, Dev.wr_rd]

theorem Dev.clearStatus_justSet (d : Dev) (s : Nat) (g : Fld) (j : Nat) : (d.clearStatus s).justSet g j = d.justSet g j := by
  unfold Dev.clearStatus
  split <;> rfl

theorem Dev.srcActive_congr {d e : Dev} (h : d.keepsFields e [.FC_SRC_STAT_STATUS]) (s : Nat) : e.srcActive s = d.srcActive s := by
  have on (f : Fld) (i : Nat) (hf : f ∉ [Fld.FC_SRC_STAT_STATUS]) : e.on f i = d.on f i := by simp only [Dev.on, h f i hf]
  unfold Dev.srcActive
  split
  case h_8 => exact congrArg (List.any (List.range 4)) (funext fun p => on _ p (by decide))
  all_goals first | rfl | exact on _ _ (by decide)

theorem Dev.clearStatus_barred (d : Dev) (s x : Nat) : (d.clearStatus s).statusBarred x = d.statusBarred x := by
  have keeps : d.keepsFields (d.clearStatus s) [.FC_SRC_STAT_STATUS] := fun g j hg => by
    rw [Dev.clearStatus_rd, if_neg (fun h => hg (List.mem_singleton.mpr h.1))]
  simp only [Dev.statusBarred, Dev.srcActive_congr keeps, Dev.on, keeps .FC_MODE_LEGACY 0 (by decide)]

/-- Sources cleared: STATUS of each of them that is not barred falls, where no event came in this engine cycle. -/
theorem Dev.clearAll_status (l : List (Nat × Nat)) (d : Dev) (x : Nat) (hj : d.justSet .FC_SRC_STAT_STATUS x = 0) :
    (l.foldl (fun d c => d.clearStatus c.1) d).rd .FC_SRC_STAT_STATUS x =
      if x ∈ l.map (·.1) ∧ d.statusBarred x = false then 0 else d.rd .FC_SRC_STAT_STATUS x := by
  induction l generalizing d with
  | nil => simp
  | cons a t ih =>
    rw [List.foldl_cons, ih _ (by rw [Dev.clearStatus_justSet, hj]), Dev.clearStatus_barred, Dev.clearStatus_rd]
    by_cases hb : d.statusBarred x = false
    · by_cases hx : x = a.1
      · subst hx; simp [hb, hj]
      · have tail : x ∈ (a :: t).map (·.1) ↔ x ∈ t.map (·.1) := by rw [List.map_cons, List.mem_cons, or_iff_right hx]
        simp only [hb, hx, tail, and_false, and_true, false_and, if_false]
    · simp [hb]
      rintro rfl h
      exact absurd h hb

/-- Sources cleared: every other field stays, and STATUS of every other source. -/
theorem Dev.clearAll_rd (l : List (Nat × Nat)) (d : Dev) (g : Fld) (j : Nat) (h : g ≠ .FC_SRC_STAT_STATUS ∨ j ∉ l.map (·.1)) :
    (l.foldl (fun d c => d.clearStatus c.1) d).rd g j = d.rd g j := by
  refine foldl_keeps (fun d => d.rd g j) _ l d (fun d c hc => ?_)
  rw [Dev.clearStatus_rd, if_neg]
  rintro ⟨rfl, rfl, -⟩
  exact h.elim (fun h => h rfl) (fun h => h (List.mem_map_of_mem hc))

/-- The catalogue lists each source once. -/
theorem catalogue_sorted : (catalogue.map (·.1)).Pairwise (· < ·) := by decide

theorem mem_catalogue_of_srcClass {x c : Nat} (h : srcClass x = some c) : (x, c) ∈ catalogue := by
  unfold srcClass at h
  obtain ⟨a, ha, rfl⟩ := Option.map_eq_some_iff.mp h
  have hx : a.1 = x := by simpa using List.find?_some ha
  exact hx ▸ List.mem_of_find?_eq_some ha

/-- Each source has one class. -/
theorem srcClass_of_mem {x c : Nat} (h : (x, c) ∈ catalogue) : srcClass x = some c := by
  have found : (catalogue.find? (fun e => e.1 == x)).isSome = true := List.find?_isSome.mpr ⟨(x, c), h, by simp⟩
  have classed : (srcClass x).isSome = true := by rw [srcClass, Option.isSome_map]; exact found
  obtain ⟨c', hc⟩ := Option.isSome_iff_exists.mp classed
  have nodup : (catalogue.map (·.1)).Nodup := catalogue_sorted.imp (fun h => Nat.ne_of_lt h)
  have same := List.inj_on_of_nodup_map nodup (mem_catalogue_of_srcClass hc) h rfl
  exact (Prod.mk.inj same).2 ▸ hc

/-- The sources that a clearing by class names. -/
theorem mem_classes {b : Nat → Bool} {x : Nat} :
    x ∈ (catalogue.filter (fun a => b a.2)).map (·.1) ↔ ∃ c, srcClass x = some c ∧ b c = true := by
  simp only [List.mem_map, List.mem_filter]
  constructor
  · rintro ⟨a, ⟨ha, hb⟩, rfl⟩
    exact ⟨a.2, srcClass_of_mem ha, hb⟩
  · rintro ⟨c, hc, hb⟩
    exact ⟨(x, c), ⟨mem_catalogue_of_srcClass hc, hb⟩, rfl⟩

theorem fcAlias_acts (s : State) (v : Word) (hr : s.dev.hostReady = true) :
    Acts (.fcAlias v) s (fun e => s.dev.keepsFields e [.FC_SRC_STAT_STATUS] ∧
      (∀ x c, srcClass x = some c → s.dev.justSet .FC_SRC_STAT_STATUS x = 0 → e.on .FC_SRC_STAT_STATUS x = (s.dev.on .FC_SRC_STAT_STATUS x &&
        !(bitAt v.toNat (28 + c) && !s.dev.srcActive x && !(s.dev.on .FC_MODE_LEGACY 0 && c == 3)))) ∧
      (∀ x, srcClass x = none → e.rd .FC_SRC_STAT_STATUS x = s.dev.rd .FC_SRC_STAT_STATUS x)) := by
  have mem (x : Nat) := @mem_classes (fun c => bitAt v.toNat (28 + c)) x
  refine acts_hosted rfl rfl hr ⟨fun g j hg => ?_, fun x c hc hj => ?_, fun x hc => ?_⟩
  · exact Dev.clearAll_rd _ _ _ _ (.inl (fun h => hg (List.mem_singleton.mpr h)))
  · have rd := Dev.clearAll_status (catalogue.filter (fun a => bitAt v.toNat (28 + a.2))) s.dev.reached x hj
    have barred : s.dev.reached.statusBarred x = (s.dev.srcActive x || (s.dev.on .FC_MODE_LEGACY 0 && c == 3)) := by
      have active : s.dev.reached.srcActive x = s.dev.srcActive x := Dev.srcActive_congr (fun _ _ _ => rfl) x
      simp [Dev.statusBarred, hc, active]
    simp only [mem, hc, Option.some.injEq, exists_eq_left', barred] at rd
    have on : (s.dev.reached.aliasWrite v.toNat).on .FC_SRC_STAT_STATUS x = ((s.dev.reached.aliasWrite v.toNat).rd .FC_SRC_STAT_STATUS x == 1) := rfl
    rw [on, Dev.aliasWrite, rd, Bool.and_assoc, ← Bool.not_or]
    generalize (s.dev.srcActive x || (s.dev.on .FC_MODE_LEGACY 0 && c == 3)) = barred
    cases bitAt v.toNat (28 + c) <;> cases barred <;> simp [Dev.on]
  · exact Dev.clearAll_rd _ _ _ _ (.inr (by simp [mem, hc]))

end Sys2Proof.Machine
end

section
/-!
Obligation O57, second part. One fault event: its record, what it leaves in the registers of the Collector and what it halts (R444 to R457).
-/
namespace Sys2Proof.Machine

/-! ### Which fields each part of an event writes -/

theorem Dev.keepsFields_trans {d e f : Dev} {L M : List Fld} (h : d.keepsFields e L) (k : e.keepsFields f M) : d.keepsFields f (L ++ M) := fun g i hg =>
  (k g i (fun m => hg (List.mem_append.mpr (.inr m)))).trans (h g i (fun m => hg (List.mem_append.mpr (.inl m))))

theorem Dev.keepsFields_mono {d e : Dev} {L M : List Fld} (h : d.keepsFields e L) (hs : L ⊆ M) : d.keepsFields e M :=
  fun g i hg => h g i (fun m => hg (hs m))

theorem Dev.keepsFields_of_regs {d e : Dev} (h : e.regs = d.regs) : d.keepsFields e [] := fun g i _ => Dev.rd_congr h g i

theorem Dev.wr_keepsFields (d : Dev) (f : Fld) (i v : Nat) : d.keepsFields (d.wr f i v) [f] :=
  fun _ _ hg => Dev.wr_rd_ne _ _ _ _ _ _ (fun e => hg (e ▸ List.mem_singleton_self _))

/-- No field that a halt writes is a field that software sets. -/
theorem haltFields_not_rw : ∀ f ∈ haltFields, f.spec.acc ≠ .RW := by decide

theorem Dev.haltScope_keeps (d : Dev) (e : FcEvent) : d.keepsFields (d.haltScope e) haltFields := keepsFields_of_view (Dev.haltScope_haltView d e)

theorem Dev.request_keeps (d : Dev) (v h : Nat) : d.keepsFields (d.request v h).2 haltFields := keepsFields_of_view (Dev.request_haltView d v h)

theorem Dev.irq_keeps (d : Dev) : d.keepsFields d.irq.2 (.FC_IRQ_PENDING :: haltFields) := by
  have set : d.keepsFields (d.set1 .FC_IRQ_PENDING 0) [.FC_IRQ_PENDING] := Dev.wr_keepsFields d .FC_IRQ_PENDING 0 1
  unfold Dev.irq
  split
  · exact Dev.keepsFields_mono set (by simp)
  · dsimp only
    split
    · exact Dev.keepsFields_trans set (Dev.request_keeps _ _ _)
    · exact Dev.keepsFields_mono set (by simp)

theorem Dev.journalAsk_regs (d : Dev) (e : FcEvent) (r : Nat) : (d.journalAsk e r).regs = d.regs := by
  unfold Dev.journalAsk
  dsimp only
  (repeat' split) <;> rfl

/-! ### Safe state (R454, R457) -/

/-- The registers of a safe state entered for the event of record `r`. -/
def Dev.safeNoted (d : Dev) (r : Nat) : Dev :=
  ((((d.set1 .FC_STATE_SAFE 0).wr .FC_STATE_CAUSE 0 (bits r 54 10)).wr .FC_STATE_CAUSE_CLASS 0 (bits r 52 2)).wr
    .FC_STATE_CAUSE_INST 0 (bits r 32 16)).wr .FC_SAFE_TIME_T 0 (bits r 64 64)

theorem Dev.safeEntry_safe {d : Dev} (h : d.isSafe = true) (r : Nat) : d.safeEntry r = ([], d) := by
  unfold Dev.safeEntry
  rw [if_pos h]

theorem Dev.took_haltView (d : Dev) : d.took.haltView = d.haltView := Dev.haltView_congr rfl

theorem Dev.safeEntry_haltView {d : Dev} (h : d.isSafe = false) (r : Nat) : (d.safeEntry r).2.haltView = (d.safeNoted r).haltView := by
  have offs (l : List Nat) (d : Dev) : (l.foldl (fun d p => d.deOff p) d).haltView = d.haltView := by simp [Dev.foldl_haltView]
  have aborts (l : List Nat) (d : Dev) : (l.foldl (fun d n => d.abortSite n 4 true) d).haltView = d.haltView := by simp [Dev.foldl_haltView]
  have rings (l : List Nat) (d : Dev) : (l.foldl (fun d r => d.haltRing r) d).haltView = d.haltView := by simp [Dev.foldl_haltView]
  have stops (l : List Entry) (d : Dev) :
      (l.foldl (fun d x => if (d.entry? x.id).any (·.stopping) then d else d.stopEntry x) d).haltView = d.haltView := by
    simp [Dev.foldl_haltView, haltView_ite]
  have last (d : Dev) (m : Mc) (f : Fc) (j : List Owed) : ({ d.clr .KL_STATUS_BALLAST 0 with mc := m, fc := f, journal := j } : Dev).haltView = d.haltView :=
    (Dev.haltView_congr rfl).trans (Dev.clr_haltView d .KL_STATUS_BALLAST 0 (by decide))
  unfold Dev.safeEntry
  rw [if_neg (by simp [h])]
  dsimp only
  rw [Dev.request_haltView, last, haltView_ite, Dev.took_haltView, ite_self, stops, rings, Dev.wvAllOff_haltView, aborts, offs,
    Dev.own_haltView]
  rfl

/-- The fields that a safe state entered writes. -/
def safeFields : List Fld :=
  [.FC_STATE_SAFE, .FC_STATE_CAUSE, .FC_STATE_CAUSE_CLASS, .FC_STATE_CAUSE_INST, .FC_SAFE_TIME_T]

theorem Dev.safeNoted_keeps (d : Dev) (r : Nat) : d.keepsFields (d.safeNoted r) safeFields := by
  intro g j hg
  simp only [safeFields, List.mem_cons, List.not_mem_nil, or_false, not_or] at hg
  simp [Dev.safeNoted, Dev.wr_rd, Dev.set1_rd, hg]

theorem Dev.safeEntry_keeps (d : Dev) (r : Nat) : d.keepsFields (d.safeEntry r).2 (safeFields ++ haltFields) := by
  cases h : d.isSafe
  · exact Dev.keepsFields_trans (Dev.safeNoted_keeps d r) (keepsFields_of_view (Dev.safeEntry_haltView h r))
  · rw [Dev.safeEntry_safe h]
    exact fun _ _ _ => rfl

/-! ### An event noted (R444, R451, R452) -/

/-- The registers of the first fault. -/
def firstFields : List Fld := [.FC_SUMMARY_FIRST_VALID, .FC_SUMMARY_FIRST_MORE, .FC_FIRST0_REC_LO, .FC_FIRST1_REC_HI]

/-- The first fault's registers filled with record `r`. -/
def Dev.firstNoted (d : Dev) (r : Nat) : Dev :=
  (((d.set1 .FC_SUMMARY_FIRST_VALID 0).clr .FC_SUMMARY_FIRST_MORE 0).wr .FC_FIRST0_REC_LO 0 r).wr .FC_FIRST1_REC_HI 0 (r / 2 ^ 64)

theorem Dev.firstFault_regs (d : Dev) (c r : Nat) : (d.firstFault c r).regs =
    if c < d.rd .FC_CTRL_FIRST_MIN 0 then d.regs
    else if d.on .FC_SUMMARY_FIRST_VALID 0 then (d.set1 .FC_SUMMARY_FIRST_MORE 0).regs else (d.firstNoted r).regs := by
  unfold Dev.firstFault
  dsimp only
  split
  · rfl
  · have on (f : Fc → Fc) : (d.upFc f).on .FC_SUMMARY_FIRST_VALID 0 = d.on .FC_SUMMARY_FIRST_VALID 0 := rfl
    rw [on]
    split <;> rfl

theorem Dev.firstNoted_keepsBut (d : Dev) (r : Nat) : d.keepsBut (d.firstNoted r) (firstFields.map (·, 0)) := by
  intro g j hg
  simp only [firstFields, List.map_cons, List.map_nil, List.mem_cons, Prod.mk.injEq, List.not_mem_nil, or_false, not_or] at hg
  simp [Dev.firstNoted, Dev.wr_rd, Dev.set1_rd, Dev.clr, hg]

theorem Dev.firstFault_keepsBut (d : Dev) (c r : Nat) : d.keepsBut (d.firstFault c r) (firstFields.map (·, 0)) := by
  have regs := Dev.firstFault_regs d c r
  intro g j hg
  split at regs
  · exact Dev.rd_congr regs g j
  · split at regs <;> rw [Dev.rd_congr regs]
    · rw [Dev.set1_rd, if_neg]
      rintro ⟨rfl, rfl⟩
      exact hg (by decide)
    · exact Dev.firstNoted_keepsBut d r g j hg

theorem Dev.firstFault_keeps (d : Dev) (c r : Nat) : d.keepsFields (d.firstFault c r) firstFields := fun g j hg =>
  Dev.firstFault_keepsBut d c r g j (fun m => by
    obtain ⟨f, hf, e⟩ := List.mem_map.mp m
    exact hg ((Prod.mk.inj e).1 ▸ hf))

theorem Dev.logPut_keeps (d : Dev) (r : Nat) : d.keepsFields (d.logPut r) [.FC_LOG_IDX_LOST] := by
  have lost : d.keepsFields (d.count .FC_LOG_IDX_LOST 0 1) [.FC_LOG_IDX_LOST] := Dev.wr_keepsFields _ _ _ _
  unfold Dev.logPut
  dsimp only
  split
  · exact fun _ _ _ => rfl
  · split
    · exact lost
    · exact lost

/-- The status fields of an event's source, counted and, where the event escalates, marked. -/
def Dev.statNoted (d : Dev) (e : FcEvent) : Dev :=
  let d1 := ((d.set1 .FC_SRC_STAT_STATUS e.src).count .FC_SRC_STAT_COUNT e.src 1).tally 0x60 e.cls 1
  if e.esc then d1.set1 .FC_SRC_STAT_ESCALATED e.src else d1

theorem Dev.noteEvent_eq (d : Dev) (e : FcEvent) (t : Nat) (tie : Bool) :
    d.noteEvent e t tie = (((d.statNoted e).logPut (e.record t tie)).firstFault e.cls (e.record t tie)).fillOwed e.src (e.record t tie) := rfl

theorem Dev.tally_regs (d : Dev) (ev i n : Nat) : (d.tally ev i n).regs = d.regs := by
  unfold Dev.tally
  split <;> rfl

/-- The status of an event's source: the counting of the tally leaves the registers. -/
theorem Dev.statNoted_regs (d : Dev) (e : FcEvent) : (d.statNoted e).regs =
    (if e.esc then ((d.set1 .FC_SRC_STAT_STATUS e.src).count .FC_SRC_STAT_COUNT e.src 1).set1 .FC_SRC_STAT_ESCALATED e.src
      else (d.set1 .FC_SRC_STAT_STATUS e.src).count .FC_SRC_STAT_COUNT e.src 1).regs := by
  have set (f : Fld) (i : Nat) {a b : Dev} (h : a.regs = b.regs) : (a.set1 f i).regs = (b.set1 f i).regs :=
    congrArg (fun t => tset (fun _ => f.dfltAt i) t (fkey f i) (1 % 2 ^ f.spec.width)) h
  unfold Dev.statNoted
  dsimp only
  split
  · exact set _ _ (Dev.tally_regs ..)
  · exact Dev.tally_regs ..

theorem Dev.statNoted_status (d : Dev) (e : FcEvent) : (d.statNoted e).on .FC_SRC_STAT_STATUS e.src = true := by
  rw [Dev.on, Dev.rd_congr (Dev.statNoted_regs d e)]
  split <;> simp [Dev.set1_rd, Dev.count, Dev.wr_rd, show Fld.FC_SRC_STAT_STATUS.spec.width = 1 from rfl]

theorem Dev.statNoted_escalated (d : Dev) {e : FcEvent} (h : e.esc = true) : (d.statNoted e).on .FC_SRC_STAT_ESCALATED e.src = true := by
  rw [Dev.on, Dev.rd_congr (Dev.statNoted_regs d e), if_pos h]
  simp [Dev.set1_rd, show Fld.FC_SRC_STAT_ESCALATED.spec.width = 1 from rfl]

theorem Dev.statNoted_keeps (d : Dev) (e : FcEvent) :
    d.keepsFields (d.statNoted e) [.FC_SRC_STAT_STATUS, .FC_SRC_STAT_COUNT, .FC_SRC_STAT_ESCALATED] := by
  intro g j hg
  simp only [List.mem_cons, List.not_mem_nil, or_false, not_or] at hg
  rw [Dev.rd_congr (Dev.statNoted_regs d e)]
  split <;> simp [Dev.set1_rd, Dev.count, Dev.wr_rd, hg]

theorem Dev.statNoted_plain (d : Dev) {e : FcEvent} (h : e.esc = false) :
    (d.statNoted e).rd .FC_SRC_STAT_COUNT e.src = min (d.rd .FC_SRC_STAT_COUNT e.src + 1) (2 ^ 32 - 1) ∧
      d.keepsBut (d.statNoted e) [(.FC_SRC_STAT_STATUS, e.src), (.FC_SRC_STAT_COUNT, e.src)] := by
  have regs := Dev.statNoted_regs d e
  rw [if_neg (by simp [h])] at regs
  refine ⟨?_, fun g j hg => ?_⟩
  · have cut : min (d.rd .FC_SRC_STAT_COUNT e.src + 1) (2 ^ 32 - 1) % 2 ^ 32 = min (d.rd .FC_SRC_STAT_COUNT e.src + 1) (2 ^ 32 - 1) :=
      Nat.mod_eq_of_lt (by omega)
    rw [Dev.rd_congr regs, Dev.count, Dev.wr_rd_same, Dev.set1_rd, if_neg (fun h => absurd h.1 (by decide))]
    exact cut
  · simp only [List.mem_cons, Prod.mk.injEq, List.not_mem_nil, or_false, not_or] at hg
    rw [Dev.rd_congr regs]
    simp [Dev.set1_rd, Dev.count, Dev.wr_rd, hg]

/-- The fields that a noted event writes. -/
def noteFields : List Fld := .FC_SRC_STAT_STATUS :: .FC_SRC_STAT_COUNT :: .FC_SRC_STAT_ESCALATED :: .FC_LOG_IDX_LOST :: firstFields

/-- What follows the status of an event's source leaves every other field than the log's and the first fault's. -/
theorem Dev.noteEvent_after (d : Dev) (e : FcEvent) (t : Nat) (tie : Bool) :
    (d.statNoted e).keepsFields (d.noteEvent e t tie) ([.FC_LOG_IDX_LOST] ++ firstFields) := by
  intro g j hg
  rw [List.mem_append, not_or] at hg
  rw [Dev.noteEvent_eq, Dev.fillOwed_rd, Dev.firstFault_keeps _ _ _ _ _ hg.2, Dev.logPut_keeps _ _ _ _ hg.1]

theorem Dev.noteEvent_keeps (d : Dev) (e : FcEvent) (t : Nat) (tie : Bool) : d.keepsFields (d.noteEvent e t tie) noteFields :=
  Dev.keepsFields_trans (Dev.statNoted_keeps d e) (Dev.noteEvent_after d e t tie)

theorem Dev.noteEvent_status (d : Dev) (e : FcEvent) (t : Nat) (tie : Bool) : (d.noteEvent e t tie).on .FC_SRC_STAT_STATUS e.src = true := by
  rw [Dev.on, Dev.noteEvent_after d e t tie _ _ (by decide)]
  exact d.statNoted_status e

theorem Dev.noteEvent_escalated (d : Dev) {e : FcEvent} (h : e.esc = true) (t : Nat) (tie : Bool) :
    (d.noteEvent e t tie).on .FC_SRC_STAT_ESCALATED e.src = true := by
  rw [Dev.on, Dev.noteEvent_after d e t tie _ _ (by decide)]
  exact d.statNoted_escalated h

/-! ### An event handled (R445, R454) -/

/-- The fields that the actions of an event write. -/
def handleFields : List Fld := (.FC_IRQ_PENDING :: safeFields) ++ haltFields

theorem handle_steps (t : Nat) (a : (List Put × Dev) × Bool) (e : FcEvent) :
    ∃ d2 : Dev, (a.1.2.noteEvent e t a.2).keepsFields d2 (.FC_IRQ_PENDING :: haltFields) ∧
      (Dev.handle t a e).1.2.regs = (if d2.action .FC_SRC_CFG_SAFE e.src then (d2.safeEntry (e.record t a.2)).2 else d2).regs := by
  unfold Dev.handle
  dsimp only
  generalize a.1.2.noteEvent e t a.2 = d1
  generalize hq : (if d1.on .FC_SRC_CFG_IRQ e.src then d1.irq else ([], d1)) = q
  have kq : d1.keepsFields q.2 (.FC_IRQ_PENDING :: haltFields) := by
    rw [← hq]
    split
    · exact d1.irq_keeps
    · exact fun _ _ _ => rfl
  generalize hd2 : (if (q.2.action .FC_SRC_CFG_HALT e.src || e.esc) then q.2.haltScope e else q.2) = d2
  have k2 : q.2.keepsFields d2 haltFields := by
    rw [← hd2]
    split
    · exact q.2.haltScope_keeps e
    · exact fun _ _ _ => rfl
  refine ⟨d2, Dev.keepsFields_mono (Dev.keepsFields_trans kq k2) (by simp), ?_⟩
  cases d2.action .FC_SRC_CFG_SAFE e.src
  · simp only [Bool.false_eq_true, if_false]
    split
    · exact Dev.journalAsk_regs ..
    · rfl
  · simp only [if_true]
    split
    · exact Dev.journalAsk_regs ..
    · rfl

theorem handle_keeps (t : Nat) (a : (List Put × Dev) × Bool) (e : FcEvent) :
    (a.1.2.noteEvent e t a.2).keepsFields (Dev.handle t a e).1.2 handleFields := by
  obtain ⟨d2, k2, regs⟩ := handle_steps t a e
  intro g j hg
  simp only [handleFields, List.mem_append, List.mem_cons, not_or] at hg
  obtain ⟨⟨pending, safe⟩, halt⟩ := hg
  rw [Dev.rd_congr regs, ← k2 g j (by simp [pending, halt])]
  split
  · exact d2.safeEntry_keeps _ g j (by simp [safe, halt])
  · rfl

/-- A FATAL event brings safe state (R454). -/
theorem handle_fatal (t : Nat) (a : (List Put × Dev) × Bool) (e : FcEvent) (hc : srcClass e.src = some 3) (hs : a.1.2.isSafe = false) :
    ∀ f ∈ safeFields, ∃ d2 : Dev, (Dev.handle t a e).1.2.rd f 0 = (d2.safeNoted (e.record t a.2)).rd f 0 := by
  intro f hf
  obtain ⟨d2, k2, regs⟩ := handle_steps t a e
  have acts : d2.action .FC_SRC_CFG_SAFE e.src = true := by simp [Dev.action, hc]
  have safe : d2.isSafe = false := by
    rw [Dev.isSafe, Dev.on, k2 _ _ (by decide), Dev.noteEvent_keeps _ _ _ _ _ _ (by decide)]
    exact hs
  have out : ∀ f ∈ safeFields, f ∉ haltFields := by decide
  refine ⟨d2, ?_⟩
  rw [Dev.rd_congr regs, if_pos acts]
  exact keepsFields_of_view (Dev.safeEntry_haltView safe _) f 0 (out f hf)

/-- An event whose actions are off: only its notice, and PENDING where it asks for an interrupt that sends nothing. -/
theorem handle_quiet (t : Nat) (d : Dev) (e : FcEvent) (he : e.esc = false) (hc : srcClass e.src ≠ some 3) (hh : d.on .FC_SRC_CFG_HALT e.src = false)
    (hs : d.on .FC_SRC_CFG_SAFE e.src = false) (hj : d.on .FC_SRC_CFG_JOURNAL e.src = false)
    (hi : d.on .FC_SRC_CFG_IRQ e.src = false ∨ d.on .FC_CTRL_IRQ_EN 0 = false ∨ d.on .FC_IRQ_PENDING 0 = true) :
    (Dev.handle t (([], d), false) e).1 = ([], if d.on .FC_SRC_CFG_IRQ e.src then (d.noteEvent e t false).set1 .FC_IRQ_PENDING 0
      else d.noteEvent e t false) := by
  have on (f : Fld) (i : Nat) (hf : f ∉ noteFields) : (d.noteEvent e t false).on f i = d.on f i := by
    rw [Dev.on, Dev.noteEvent_keeps _ _ _ _ _ _ hf, Dev.on]
  have irq (h : d.on .FC_SRC_CFG_IRQ e.src = true) : (d.noteEvent e t false).irq = ([], (d.noteEvent e t false).set1 .FC_IRQ_PENDING 0) := by
    unfold Dev.irq
    rcases hi with hi | hi | hi
    · rw [h] at hi; cases hi
    · split
      · rfl
      · simp [on .FC_CTRL_IRQ_EN 0 (by decide), hi]
    · rw [if_pos (by rw [on .FC_IRQ_PENDING 0 (by decide), hi])]
  have asks : (if (d.noteEvent e t false).on .FC_SRC_CFG_IRQ e.src then (d.noteEvent e t false).irq else ([], d.noteEvent e t false)) =
      ([], if d.on .FC_SRC_CFG_IRQ e.src then (d.noteEvent e t false).set1 .FC_IRQ_PENDING 0 else d.noteEvent e t false) := by
    rw [on .FC_SRC_CFG_IRQ e.src (by decide)]
    split
    · rw [irq ‹_›]
    · rfl
  have act (f : Fld) (hf : f ∉ noteFields) (hp : f ≠ .FC_IRQ_PENDING) (h0 : d.on f e.src = false) :
      (if d.on .FC_SRC_CFG_IRQ e.src then (d.noteEvent e t false).set1 .FC_IRQ_PENDING 0 else d.noteEvent e t false).action f e.src = false := by
    have cls : (srcClass e.src == some 3) = false := by simpa using hc
    simp only [Dev.action, cls, Bool.and_false, Bool.or_false]
    split
    · rw [Dev.on, Dev.set1_rd, if_neg (fun h => hp h.1)]
      exact (on f e.src hf).trans h0
    · exact (on f e.src hf).trans h0
  unfold Dev.handle
  dsimp only
  rw [asks]
  simp only [he, Bool.or_false, act .FC_SRC_CFG_HALT (by decide) (by decide) hh, act .FC_SRC_CFG_SAFE (by decide) (by decide) hs,
    act .FC_SRC_CFG_JOURNAL (by decide) (by decide) hj, Bool.false_eq_true, if_false, List.append_nil]

/-! ### The group of one event (R446, R448) -/

theorem Dev.group_one {d : Dev} {r : Raise} (h : d.raised = [r]) : d.group = [r] := by
  have once : [r.src].eraseDups = [r.src] := rfl
  simp [Dev.group, h, once]

theorem Dev.faultEvent_nil {d : Dev} (h : d.raised = []) : d.faultEvent = ([], d) := by
  unfold Dev.faultEvent
  rw [h]

/-- The block once the one waiting event is taken. -/
def Dev.noneRaised (d : Dev) : Dev := { d with raised := [] }

theorem Dev.faultEvent_one {d d' : Dev} {r : Raise} {e : FcEvent} (h : d.raised = [r]) (hc : Dev.classify ([], d.noneRaised) r = ([e], d')) :
    d.faultEvent = (Dev.handle (((r.cycle * cycleTicks : Nat) : Int) + d.bedOff).toNat (([], d'), false) e).1 := by
  have left : ({ d with raised := d.raised.filter (fun x => x.cycle != r.cycle) } : Dev) = d.noneRaised := by simp [Dev.noneRaised, h]
  have eq : d.faultEvent = (((d.group.foldl Dev.classify ([], { d with raised := d.raised.filter (fun x => x.cycle != r.cycle) })).1.foldl
      (fun l e => rankIn e l) []).foldl (Dev.handle (((r.cycle * cycleTicks : Nat) : Int) + d.bedOff).toNat)
      ((([], (d.group.foldl Dev.classify ([], { d with raised := d.raised.filter (fun x => x.cycle != r.cycle) })).2), false))).1 := by
    rw [Dev.faultEvent]
    split
    · next h0 => rw [h0] at h; cases h
    · next r' t hr =>
      obtain rfl : r' = r := by rw [hr] at h; exact (List.cons.inj h).1
      rfl
  rw [eq, left, Dev.group_one h]
  simp only [List.foldl_cons, List.foldl_nil, hc, rankIn]

/-- The event of an unwindowed source. -/
def Raise.event (r : Raise) (c : Nat) : FcEvent := ⟨r.src, r.inst, if r.src / 64 = 14 ∨ r.src / 64 = 6 then r.ukind else 0, c, false, 0⟩

theorem classify_other {d : Dev} {r : Raise} {c : Nat} (h : srcClass r.src = some c) (h1 : c ≠ 1) : Dev.classify ([], d) r = ([r.event c], d) := by
  simp [Dev.classify, h, h1, Raise.event]

theorem Dev.window_keeps (d : Dev) (s t : Nat) : d.keepsFields (d.window s t).2.2 [.FC_SRC_STAT_WCOUNT] := by
  have took (b : Prop) [Decidable b] (f : Fc → Fc) (g : Fld) (j : Nat) : ((if b then d.took else d).upFc f).rd g j = d.rd g j := by
    split <;> rfl
  intro g j hg
  unfold Dev.window
  dsimp only
  rw [Dev.wr_rd_ne _ _ _ _ _ _ (fun e => hg (by rw [e]; decide)), took]

/-- The event of a windowed source that fills its window. -/
def Raise.escalated (r : Raise) (w : Nat) : FcEvent := ⟨r.src, r.inst, if r.src / 64 = 14 ∨ r.src / 64 = 6 then r.ukind else 0, 2, true, w⟩

theorem classify_escalating {d : Dev} {r : Raise} (h : srcClass r.src = some 1) (hw : (d.window r.src (r.cycle * cycleTicks)).2.1 = true) :
    Dev.classify ([], d) r =
      ([r.escalated (d.window r.src (r.cycle * cycleTicks)).1], (d.window r.src (r.cycle * cycleTicks)).2.2) := by
  simp only [Dev.classify, h, hw, if_true, List.nil_append, Raise.escalated]

/-! ### The obligation's clauses -/

/-- No field that an event handled in full writes is a field that software sets. -/
theorem eventFields_not_rw : ∀ f ∈ noteFields ++ handleFields, f.spec.acc ≠ .RW := by
  have note : ∀ f ∈ noteFields, f.spec.acc ≠ .RW := by decide
  have safe : ∀ f ∈ Fld.FC_IRQ_PENDING :: safeFields, f.spec.acc ≠ .RW := by decide
  exact List.forall_mem_append.mpr ⟨note, List.forall_mem_append.mpr ⟨safe, haltFields_not_rw⟩⟩

theorem handle_status (t : Nat) (a : (List Put × Dev) × Bool) (e : FcEvent) : (Dev.handle t a e).1.2.on .FC_SRC_STAT_STATUS e.src = true := by
  rw [Dev.on, handle_keeps t a e _ _ (by decide)]
  exact Dev.noteEvent_status ..

theorem handle_keepsSet (t : Nat) (a : (List Put × Dev) × Bool) (e : FcEvent) : a.1.2.keepsSet (Dev.handle t a e).1.2 [] := fun f i ha _ =>
  Dev.keepsFields_trans (Dev.noteEvent_keeps a.1.2 e t a.2) (handle_keeps t a e) f i (fun m => eventFields_not_rw f m ha)

theorem faultEvent_escalating (s : State) (r : Raise) (hr : s.dev.raised = [r]) (hc : srcClass r.src = some 1)
    (hw : (s.dev.window r.src (r.cycle * cycleTicks)).2.1 = true) :
    Writes .faultEvent s (fun _ e => e.on .FC_SRC_STAT_STATUS r.src = true ∧ e.on .FC_SRC_STAT_ESCALATED r.src = true ∧ s.dev.keepsSet e []) := by
  have same : (s.dev.noneRaised.window r.src (r.cycle * cycleTicks)).2.1 = (s.dev.window r.src (r.cycle * cycleTicks)).2.1 := rfl
  refine writes_onMem rfl rfl ?_
  rw [Dev.faultEvent_one hr (classify_escalating hc (same.trans hw))]
  refine ⟨handle_status _ _ _, ?_, fun f i ha hf => ?_⟩
  · rw [Dev.on, handle_keeps _ _ _ _ _ (by decide)]
    exact Dev.noteEvent_escalated _ rfl _ _
  · rw [handle_keepsSet _ _ _ f i ha hf, Dev.window_keeps _ _ _ f i (fun m => ?_)]
    · rfl
    · rw [List.mem_singleton.mp m] at ha
      cases ha

/-- The fields of a fault record (R451): source, class and unit. -/
theorem FcEvent.record_fields (e : FcEvent) (t : Nat) (tie : Bool) : bits (e.record t tie) 54 10 = e.src % 1024 ∧
    bits (e.record t tie) 52 2 = e.cls % 4 ∧ bits (e.record t tie) 32 16 = e.inst % 65536 := by
  have one (b : Bool) : b2n b ≤ 1 := by cases b <;> decide
  have he := one e.esc
  have ht := one tie
  have hk : (if e.src / 64 = 14 then e.ukind % 16 * 2 ^ 20 else 0) < 2 ^ 24 := by split <;> omega
  unfold FcEvent.record bits
  generalize (if e.src / 64 = 14 then e.ukind % 16 * 2 ^ 20 else 0) = k at hk
  generalize b2n e.esc = x at he
  generalize b2n tie = y at ht
  refine ⟨?_, ?_, ?_⟩ <;> omega

theorem Dev.safeNoted_rd (d : Dev) (r : Nat) : (d.safeNoted r).rd .FC_STATE_SAFE 0 = 1 ∧ (d.safeNoted r).rd .FC_STATE_CAUSE 0 = bits r 54 10 ∧
    (d.safeNoted r).rd .FC_STATE_CAUSE_CLASS 0 = bits r 52 2 ∧ (d.safeNoted r).rd .FC_STATE_CAUSE_INST 0 = bits r 32 16 := by
  have cut (lo w : Nat) : bits r lo w % 2 ^ w = bits r lo w := Nat.mod_mod _ _
  have one : 1 % 2 ^ 1 = 1 := rfl
  have safe : Fld.FC_STATE_SAFE.spec.width = 1 := rfl
  have cause : Fld.FC_STATE_CAUSE.spec.width = 10 := rfl
  have cls : Fld.FC_STATE_CAUSE_CLASS.spec.width = 2 := rfl
  have inst : Fld.FC_STATE_CAUSE_INST.spec.width = 16 := rfl
  refine ⟨?_, ?_, ?_, ?_⟩ <;> simp only [Dev.safeNoted, Dev.wr_rd, Dev.set1_rd, one, safe, cause, cls, inst, cut, reduceCtorEq, false_and, and_self, if_true, if_false]

theorem faultEvent_fatal (s : State) (r : Raise) (hr : s.dev.raised = [r]) (hc : srcClass r.src = some 3) (hs : s.dev.isSafe = false) :
    Writes .faultEvent s (fun _ e => e.on .FC_SRC_STAT_STATUS r.src = true ∧ e.isSafe = true ∧ e.rd .FC_STATE_CAUSE 0 = r.src % 1024 ∧
      e.rd .FC_STATE_CAUSE_CLASS 0 = 3 ∧ e.rd .FC_STATE_CAUSE_INST 0 = r.inst % 65536 ∧ s.dev.keepsSet e []) := by
  refine writes_onMem rfl rfl ?_
  rw [Dev.faultEvent_one hr (classify_other hc (by decide))]
  generalize (((r.cycle * cycleTicks : Nat) : Int) + s.dev.bedOff).toNat = t
  have fatal := handle_fatal t (([], s.dev.noneRaised), false) (r.event 3) hc hs
  obtain ⟨cause, cls, inst⟩ := FcEvent.record_fields (r.event 3) t false
  refine ⟨handle_status _ _ _, ?_, ?_, ?_, ?_, handle_keepsSet _ (([], s.dev.noneRaised), false) _⟩
  · obtain ⟨d2, h⟩ := fatal .FC_STATE_SAFE (by decide)
    rw [Dev.isSafe, Dev.on, h, (Dev.safeNoted_rd _ _).1]
    rfl
  · obtain ⟨d2, h⟩ := fatal .FC_STATE_CAUSE (by decide)
    rw [h, (Dev.safeNoted_rd _ _).2.1, cause]
    rfl
  · obtain ⟨d2, h⟩ := fatal .FC_STATE_CAUSE_CLASS (by decide)
    rw [h, (Dev.safeNoted_rd _ _).2.2.1, cls]
    rfl
  · obtain ⟨d2, h⟩ := fatal .FC_STATE_CAUSE_INST (by decide)
    rw [h, (Dev.safeNoted_rd _ _).2.2.2, inst]
    rfl

theorem Dev.firstNoted_rd (d : Dev) (r : Nat) : (d.firstNoted r).rd .FC_SUMMARY_FIRST_VALID 0 = 1 ∧
    (d.firstNoted r).rd .FC_FIRST0_REC_LO 0 = r % 2 ^ 64 ∧ (d.firstNoted r).rd .FC_FIRST1_REC_HI 0 = r / 2 ^ 64 % 2 ^ 64 := by
  have one : 1 % 2 ^ 1 = 1 := rfl
  have valid : Fld.FC_SUMMARY_FIRST_VALID.spec.width = 1 := rfl
  have lo : Fld.FC_FIRST0_REC_LO.spec.width = 64 := rfl
  have hi : Fld.FC_FIRST1_REC_HI.spec.width = 64 := rfl
  refine ⟨?_, ?_, ?_⟩ <;> simp only [Dev.firstNoted, Dev.wr_rd, Dev.set1_rd, Dev.clr, one, valid, lo, hi, reduceCtorEq, false_and, and_self, if_true, if_false]

/-- The record is the first fault where none was and its class counts (R452). -/
theorem Dev.firstFault_first {d : Dev} {c r : Nat} (hc : d.rd .FC_CTRL_FIRST_MIN 0 ≤ c) (hv : d.on .FC_SUMMARY_FIRST_VALID 0 = false) :
    (d.firstFault c r).regs = (d.firstNoted r).regs := by
  rw [Dev.firstFault_regs, if_neg (by omega), hv]
  rfl

theorem Dev.firstFault_later {d : Dev} {c r : Nat} (h : ¬ (d.rd .FC_CTRL_FIRST_MIN 0 ≤ c ∧ d.on .FC_SUMMARY_FIRST_VALID 0 = false)) :
    d.keepsFields (d.firstFault c r) [.FC_SUMMARY_FIRST_MORE] := by
  have regs := Dev.firstFault_regs d c r
  by_cases hc : c < d.rd .FC_CTRL_FIRST_MIN 0
  · rw [if_pos hc] at regs
    exact Dev.keepsFields_mono (Dev.keepsFields_of_regs regs) (by simp)
  · have hv : d.on .FC_SUMMARY_FIRST_VALID 0 = true := by
      by_contra hv
      exact h ⟨by omega, by simpa using hv⟩
    rw [if_neg hc, if_pos hv] at regs
    intro g j hg
    rw [Dev.rd_congr regs]
    exact Dev.wr_keepsFields d .FC_SUMMARY_FIRST_MORE 0 1 g j hg

theorem Dev.logPut_short {d : Dev} (h : d.fc.queue.length < 64) (r : Nat) :
    d.logPut r = d.upFc (fun F => { F with queue := F.queue ++ [r], dropping := false }) := by
  unfold Dev.logPut
  rw [if_pos h]

theorem Dev.statNoted_frame (d : Dev) (e : FcEvent) : (d.statNoted e).raised = d.raised ∧ (d.statNoted e).fc = d.fc := by
  have tally (d : Dev) : (d.tally 0x60 e.cls 1).raised = d.raised ∧ (d.tally 0x60 e.cls 1).fc = d.fc := ⟨rfl, rfl⟩
  unfold Dev.statNoted
  dsimp only
  split <;> simp [tally]

theorem Dev.firstFault_frame (d : Dev) (c r : Nat) : (d.firstFault c r).raised = d.raised ∧ (d.firstFault c r).fc.queue = d.fc.queue := by
  unfold Dev.firstFault
  dsimp only
  (repeat' split) <;> simp

/-- A notice where the log has room: what the log leaves to the first fault's registers. -/
theorem Dev.noteEvent_logged {d : Dev} (e : FcEvent) (hq : d.fc.queue.length < 64) (t : Nat) (tie : Bool) :
    ∃ m : Dev, d.noteEvent e t tie = (m.firstFault e.cls (e.record t tie)).fillOwed e.src (e.record t tie) ∧
      (∀ g j, m.rd g j = (d.statNoted e).rd g j) ∧ m.raised = d.raised ∧ m.fc.queue = d.fc.queue ++ [e.record t tie] := by
  obtain ⟨raised, fc⟩ := d.statNoted_frame e
  refine ⟨(d.statNoted e).logPut (e.record t tie), rfl, ?_⟩
  rw [Dev.logPut_short (fc ▸ hq)]
  exact ⟨fun _ _ => rfl, raised, congrArg (fun F : Fc => F.queue ++ [e.record t tie]) fc⟩

theorem Dev.fillOwed_frame (d : Dev) (s r : Nat) : (d.fillOwed s r).raised = d.raised ∧ (d.fillOwed s r).fc = d.fc := ⟨rfl, rfl⟩

/-- The notice of an event that does not escalate, where the log has room (R444, R451, R452). -/
theorem Dev.noteEvent_plain {d N : Dev} {e : FcEvent} {t R : Nat} {first : Prop} (he : e.esc = false) (hq : d.fc.queue.length < 64)
    (hN : N = d.noteEvent e t false) (hR : R = e.record t false)
    (hF : first ↔ d.rd .FC_CTRL_FIRST_MIN 0 ≤ e.cls ∧ d.on .FC_SUMMARY_FIRST_VALID 0 = false) :
    N.raised = d.raised ∧ N.fc.queue = d.fc.queue ++ [R] ∧ N.rd .FC_SRC_STAT_COUNT e.src = min (d.rd .FC_SRC_STAT_COUNT e.src + 1) (2 ^ 32 - 1) ∧
      (first → N.on .FC_SUMMARY_FIRST_VALID 0 = true ∧ N.rd .FC_FIRST0_REC_LO 0 = R % 2 ^ 64 ∧ N.rd .FC_FIRST1_REC_HI 0 = R / 2 ^ 64 % 2 ^ 64) ∧
      (¬ first → N.rd .FC_FIRST0_REC_LO 0 = d.rd .FC_FIRST0_REC_LO 0 ∧ N.rd .FC_FIRST1_REC_HI 0 = d.rd .FC_FIRST1_REC_HI 0) ∧
      d.keepsBut N [(.FC_SRC_STAT_STATUS, e.src), (.FC_SRC_STAT_COUNT, e.src), (.FC_SUMMARY_FIRST_VALID, 0),
        (.FC_SUMMARY_FIRST_MORE, 0), (.FC_FIRST0_REC_LO, 0), (.FC_FIRST1_REC_HI, 0)] := by
  obtain ⟨count, plain⟩ := d.statNoted_plain he
  have stat := d.statNoted_keeps e
  obtain ⟨m, eq, rd, raised, queue⟩ := Dev.noteEvent_logged e hq t false
  rw [← hN, ← hR] at eq
  rw [← hR] at queue
  have nrd (g : Fld) (j : Nat) : N.rd g j = (m.firstFault e.cls R).rd g j := by rw [eq, Dev.fillOwed_rd]
  have hfirst : first ↔ m.rd .FC_CTRL_FIRST_MIN 0 ≤ e.cls ∧ m.on .FC_SUMMARY_FIRST_VALID 0 = false := by
    rw [hF, Dev.on, Dev.on, rd, rd, stat _ _ (by decide), stat _ _ (by decide)]
  refine ⟨?_, ?_, ?_, fun h => ?_, fun h => ?_, fun g j hg => ?_⟩
  · rw [eq, (Dev.fillOwed_frame _ _ _).1, (Dev.firstFault_frame _ _ _).1, raised]
  · rw [eq, (Dev.fillOwed_frame _ _ _).2, (Dev.firstFault_frame _ _ _).2, queue]
  · rw [nrd, Dev.firstFault_keeps _ _ _ _ _ (by decide), rd, count]
  · have regs := Dev.firstFault_first (r := R) (hfirst.mp h).1 (hfirst.mp h).2
    obtain ⟨valid, lo, hi⟩ := m.firstNoted_rd R
    simp only [Dev.on, nrd, Dev.rd_congr regs, valid, lo, hi, beq_self_eq_true, and_self]
  · have later := Dev.firstFault_later (r := R) (fun k => h (hfirst.mpr k))
    rw [nrd, nrd, later _ _ (by decide), later _ _ (by decide), rd, rd, stat _ _ (by decide), stat _ _ (by decide)]
    exact ⟨rfl, rfl⟩
  · have first0 : (g, j) ∉ firstFields.map (·, 0) := fun m => hg (List.mem_append_right [(Fld.FC_SRC_STAT_STATUS, e.src), (Fld.FC_SRC_STAT_COUNT, e.src)] m)
    have plain0 : (g, j) ∉ [(Fld.FC_SRC_STAT_STATUS, e.src), (Fld.FC_SRC_STAT_COUNT, e.src)] :=
      fun m => hg (List.mem_append_left (firstFields.map (·, 0)) m)
    rw [nrd, Dev.firstFault_keepsBut _ _ _ g j first0, rd, plain g j plain0]

theorem faultEvent_quiet (s : State) (r : Raise) (c : Nat) (hr : s.dev.raised = [r]) (hc : srcClass r.src = some c) (hc02 : c = 0 ∨ c = 2)
    (hh : s.dev.on .FC_SRC_CFG_HALT r.src = false) (hs : s.dev.on .FC_SRC_CFG_SAFE r.src = false) (hj : s.dev.on .FC_SRC_CFG_JOURNAL r.src = false)
    (hi : s.dev.on .FC_SRC_CFG_IRQ r.src = false ∨ s.dev.on .FC_CTRL_IRQ_EN 0 = false ∨ s.dev.on .FC_IRQ_PENDING 0 = true)
    (hq : s.dev.fc.queue.length < 64) :
    let t := (((r.cycle * cycleTicks : Nat) : Int) + s.dev.bedOff).toNat
    let R := (FcEvent.mk r.src r.inst (if r.src / 64 = 14 ∨ r.src / 64 = 6 then r.ukind else 0) c false 0).record t false
    let first := s.dev.rd .FC_CTRL_FIRST_MIN 0 ≤ c ∧ s.dev.on .FC_SUMMARY_FIRST_VALID 0 = false
    Acts .faultEvent s (fun e => e.on .FC_SRC_STAT_STATUS r.src = true ∧ e.raised = [] ∧
      e.rd .FC_SRC_STAT_COUNT r.src = min (s.dev.rd .FC_SRC_STAT_COUNT r.src + 1) (2 ^ 32 - 1) ∧ e.fc.queue = s.dev.fc.queue ++ [R] ∧
      e.on .FC_IRQ_PENDING 0 = (s.dev.on .FC_IRQ_PENDING 0 || s.dev.on .FC_SRC_CFG_IRQ r.src) ∧
      (first → e.on .FC_SUMMARY_FIRST_VALID 0 = true ∧ e.rd .FC_FIRST0_REC_LO 0 = R % 2 ^ 64 ∧ e.rd .FC_FIRST1_REC_HI 0 = R / 2 ^ 64 % 2 ^ 64) ∧
      (¬ first → e.rd .FC_FIRST0_REC_LO 0 = s.dev.rd .FC_FIRST0_REC_LO 0 ∧ e.rd .FC_FIRST1_REC_HI 0 = s.dev.rd .FC_FIRST1_REC_HI 0) ∧
      s.dev.keepsBut e [(.FC_SRC_STAT_STATUS, r.src), (.FC_SRC_STAT_COUNT, r.src), (.FC_IRQ_PENDING, 0), (.FC_SUMMARY_FIRST_VALID, 0),
        (.FC_SUMMARY_FIRST_MORE, 0), (.FC_FIRST0_REC_LO, 0), (.FC_FIRST1_REC_HI, 0)]) := by
  intro t R first
  have one := Dev.faultEvent_one hr (classify_other (d := s.dev.noneRaised) hc (by omega))
  have h3 : srcClass (r.event c).src ≠ some 3 := by
    rw [show (r.event c).src = r.src from rfl, hc]
    rintro ⟨⟩
    omega
  rw [handle_quiet _ s.dev.noneRaised (r.event c) rfl h3 hh hs hj hi] at one
  obtain ⟨raised, queue, count, new, old, keeps⟩ := Dev.noteEvent_plain (d := s.dev.noneRaised) (e := r.event c) (t := t) (first := first) rfl hq rfl rfl
    Iff.rfl
  have status := s.dev.noneRaised.noteEvent_status (r.event c) t false
  have within : List.Sublist [(Fld.FC_SRC_STAT_STATUS, r.src), (.FC_SRC_STAT_COUNT, r.src), (.FC_SUMMARY_FIRST_VALID, 0), (.FC_SUMMARY_FIRST_MORE, 0),
      (.FC_FIRST0_REC_LO, 0), (.FC_FIRST1_REC_HI, 0)] [(.FC_SRC_STAT_STATUS, r.src), (.FC_SRC_STAT_COUNT, r.src), (.FC_IRQ_PENDING, 0),
      (.FC_SUMMARY_FIRST_VALID, 0), (.FC_SUMMARY_FIRST_MORE, 0), (.FC_FIRST0_REC_LO, 0), (.FC_FIRST1_REC_HI, 0)] :=
    .cons_cons _ (.cons_cons _ (.cons _ (List.Sublist.refl _)))
  have pending : ((s.dev.noneRaised.noteEvent (r.event c) t false).on .FC_IRQ_PENDING 0) = s.dev.on .FC_IRQ_PENDING 0 := by
    rw [Dev.on, Dev.noteEvent_keeps _ _ _ _ _ _ (by decide)]
    rfl
  refine acts_onMem rfl rfl (congrArg Prod.fst one) ?_
  rw [congrArg Prod.snd one]
  dsimp only
  rw [show s.dev.noneRaised.on .FC_SRC_CFG_IRQ (r.event c).src = s.dev.on .FC_SRC_CFG_IRQ r.src from rfl]
  generalize s.dev.noneRaised.noteEvent (r.event c) t false = N at raised queue count new old keeps status pending
  cases s.dev.on .FC_SRC_CFG_IRQ r.src
  · rw [Bool.or_false]
    exact ⟨status, raised, count, queue, pending, new, old, fun g j hg => keeps g j (fun m => hg (within.subset m))⟩
  · obtain ⟨raised1, fc1⟩ : (N.set1 .FC_IRQ_PENDING 0).raised = N.raised ∧ (N.set1 .FC_IRQ_PENDING 0).fc = N.fc := ⟨rfl, rfl⟩
    have other (g : Fld) (j : Nat) (hg : g ≠ .FC_IRQ_PENDING) : (N.set1 .FC_IRQ_PENDING 0).rd g j = N.rd g j :=
      Dev.wr_rd_ne N .FC_IRQ_PENDING g 0 j 1 hg
    have pending1 : (N.set1 .FC_IRQ_PENDING 0).on .FC_IRQ_PENDING 0 = true := by
      rw [Dev.on, Dev.set1_rd, if_pos ⟨rfl, rfl⟩]
      rfl
    simp only [if_true, Dev.on, other _ _ (show Fld.FC_SRC_STAT_STATUS ≠ _ by decide), other _ _ (show Fld.FC_SRC_STAT_COUNT ≠ _ by decide),
      other _ _ (show Fld.FC_SUMMARY_FIRST_VALID ≠ _ by decide), other _ _ (show Fld.FC_FIRST0_REC_LO ≠ _ by decide),
      other _ _ (show Fld.FC_FIRST1_REC_HI ≠ _ by decide), raised1, fc1] at *
    refine ⟨status, raised, count, queue, ?_, new, old, fun g j hg => ?_⟩
    · rw [pending1, Bool.or_true]
    · rw [Dev.set1_rd, if_neg]
      · exact keeps g j (fun m => hg (within.subset m))
      · rintro ⟨rfl, rfl⟩
        exact hg (by simp)

end Sys2Proof.Machine

open Sys2Proof Sys2Proof.Machine

/-- Settles O57: a quiet event leaves only its notice; an escalating or FATAL one is followed through its halt, which writes status fields only. -/
theorem faultEventsAreRecordedLoggedAndInjected : Obligations.FaultEventsAreRecordedLoggedAndInjected := by
  refine ⟨⟨fun s h => ?_, faultEvent_quiet, faultEvent_escalating, faultEvent_fatal⟩, logWrite_acts, fun s v hr => fcInject_acts s v hr,
    fun s v hr => fcAlias_acts s v hr⟩
  exact writes_onMem rfl rfl (by rw [Dev.faultEvent_nil h]; exact ⟨rfl, rfl⟩)
end

section
/-!
Obligation O14, first part. The seam of a site (R188 to R190): what the moves of one pin, and of all members, do to staged groups and trims.
-/
namespace Sys2Proof.Machine

/-! ### Members -/

/-- A mask names each pin once. -/
theorem maskPins_nodup (f : Nat → Nat) : (maskPins f).Nodup := by
  have within : ∀ k p, p ∈ (if f k = 0 then [] else ((List.range 64).filter (bitAt (f k))).map (· + 64 * k)) → p / 64 = k := by
    intro k p h
    split at h
    · cases h
    · simp only [List.mem_map, List.mem_filter, List.mem_range] at h
      omega
  unfold maskPins
  refine List.nodup_flatMap.mpr ⟨fun k _ => ?_, ?_⟩
  · dsimp only
    split
    · exact List.nodup_nil
    · exact (List.nodup_range.filter _).map (fun a b h => by simpa using h)
  · exact List.nodup_range.imp_of_mem (fun _ _ hne p hp hq => hne ((within _ p hp).symm.trans (within _ p hq)))

theorem Dev.members_nodup (d : Dev) (n : Nat) : (d.members n).Nodup := maskPins_nodup _

/-! ### The records of the block: all but registers and raised sources -/

/-- The block without its registers, its active copies and what it has raised. -/
def Dev.records (d : Dev) : Dev := { d with regs := [], active := [], cyc := {}, raised := [] }

@[simp] theorem Dev.wr_records (d : Dev) (f : Fld) (i v : Nat) : (d.wr f i v).records = d.records := rfl
@[simp] theorem Dev.set1_records (d : Dev) (f : Fld) (i : Nat) : (d.set1 f i).records = d.records := rfl
@[simp] theorem Dev.clr_records (d : Dev) (f : Fld) (i : Nat) : (d.clr f i).records = d.records := rfl
@[simp] theorem Dev.raise_records (d : Dev) (s i : Nat) : (d.raise s i).records = d.records := rfl

theorem Dev.tsRejected_records (d : Dev) (p k r : Nat) : (d.tsRejected p k r).records = d.records := by
  unfold Dev.tsRejected
  dsimp only
  split <;> simp only [Dev.wr_records, Dev.set1_records, Dev.clr_records, Dev.raise_records]

theorem Dev.units_of_records {d e : Dev} (h : e.records = d.records) : e.pins = d.pins ∧ e.tracker = d.tracker ∧ e.sites = d.sites := by
  have pins := congrArg Dev.pins h
  have tracker := congrArg Dev.tracker h
  have sites := congrArg Dev.sites h
  exact ⟨pins, tracker, sites⟩

theorem Dev.moves_records {β : Type} (l : List β) (k : β → Fld × Nat) (d : Dev) :
    (l.foldl (fun d b => d.move (k b).1 (k b).2) d).records = d.records := foldl_keeps Dev.records _ l d (fun _ _ _ => rfl)

theorem Dev.moveSet_records (d : Dev) (p k : Nat) : (d.moveSet p k).records = d.records := by
  unfold Dev.moveSet
  dsimp only
  split
  · split
    · exact Dev.moves_records tsFields (fun f => (f, tsKey p k)) _
    · exact Dev.tsRejected_records _ _ _ _
  · rfl

theorem Dev.moveDeskew_records (d : Dev) (p : Nat) : (d.moveDeskew p).records = d.records := by
  unfold Dev.moveDeskew
  split
  · exact Dev.moves_records deskewFields (fun f => (f, p)) _
  · rfl

theorem Dev.movePending_records (d : Dev) (p : Nat) : (d.movePending p).records = d.records :=
  (Dev.moveDeskew_records _ p).trans (foldl_keeps Dev.records _ _ d (fun d k _ => d.moveSet_records p k))

/-! ### The trims of a pin -/

theorem Dev.takeTrims_none {d : Dev} {p : Nat} (h : (d.pin p).trimBand = none) : d.takeTrims p = d := by
  unfold Dev.takeTrims
  rw [h]

theorem Dev.takeTrims_some {d : Dev} {p b : Nat} (h : (d.pin p).trimBand = some b) :
    d.takeTrims p = ((d.wr .PIN_TF_STATUS_BAND p b).clr .PIN_TF_STATUS_TRIM_PENDING p).upPin p
      (fun P => { P with trimBand := none, trimOwed := false, trimAt := some d.now, trims := P.trimNew }) := by
  unfold Dev.takeTrims
  rw [h]

theorem Dev.takeTrims_rd (d : Dev) (p : Nat) (f : Fld) (i : Nat) (h : f ∉ [Fld.PIN_TF_STATUS_TRIM_PENDING, .PIN_TF_STATUS_BAND] ∨ i ≠ p) :
    (d.takeTrims p).rd f i = d.rd f i := by
  have ne (g : Fld) (hg : g ∈ [Fld.PIN_TF_STATUS_TRIM_PENDING, .PIN_TF_STATUS_BAND]) : ¬(f = g ∧ i = p) := by
    rintro ⟨rfl, rfl⟩
    exact h.elim (fun h => h hg) (fun h => h rfl)
  cases hb : (d.pin p).trimBand with
  | none => rw [Dev.takeTrims_none hb]
  | some b =>
    rw [Dev.takeTrims_some hb, (Dev.upPin_reads _ _ _).1, Dev.clr, Dev.wr_rd, if_neg (ne _ (by simp)), Dev.wr_rd, if_neg (ne _ (by simp))]

theorem Dev.takeTrims_pin (d : Dev) (p q : Nat) (h : q ≠ p) : (d.takeTrims p).pin q = d.pin q := by
  cases hb : (d.pin p).trimBand with
  | none => rw [Dev.takeTrims_none hb]
  | some b => rw [Dev.takeTrims_some hb, Dev.upPin_pin, if_neg h]; simp

theorem Dev.takeTrims_fifo (d : Dev) (p q : Nat) : ((d.takeTrims p).pin q).fifo = (d.pin q).fifo := by
  by_cases h : q = p
  · subst h
    cases hb : (d.pin q).trimBand with
    | none => rw [Dev.takeTrims_none hb]
    | some b => rw [Dev.takeTrims_some hb, Dev.upPin_pin, if_pos rfl]; simp
  · rw [Dev.takeTrims_pin d p q h]

theorem Dev.takeTrims_frame (d : Dev) (p : Nat) :
    (∀ f i, (d.takeTrims p).act f i = d.act f i) ∧ (d.takeTrims p).tracker = d.tracker ∧ (d.takeTrims p).sites = d.sites := by
  cases hb : (d.pin p).trimBand with
  | none => rw [Dev.takeTrims_none hb]; exact ⟨fun _ _ => rfl, rfl, rfl⟩
  | some b => rw [Dev.takeTrims_some hb]; exact ⟨fun _ _ => rfl, rfl, rfl⟩

/-! ### The seam of a list of pins -/

/-- The fields that a seam writes at the pins. -/
def seamFields : List Fld := [.PIN_TS_PENDING_SET, .PIN_TS_REJECT_VALID, .PIN_TS_REJECT_MORE, .PIN_TS_REJECT_REASON, .PIN_TS_REJECT_SET,
  .PIN_TF_STATUS_DESKEW_PENDING, .PIN_TF_STATUS_TRIM_PENDING, .PIN_TF_STATUS_BAND]

theorem seamFields_disjoint : (∀ f ∈ tsFields, f ∉ seamFields ∧ f ∉ deskewFields) ∧ (∀ f ∈ deskewFields, f ∉ seamFields ∧ f ∉ tsFields) := by decide

/-- The seam of the pins `l`: each pending group and each band taken moves, and nothing else (R188 to R190). -/
structure Dev.SeamMoved (l : List Nat) (d e : Dev) : Prop where
  deskew : ∀ p ∈ l, d.on .PIN_TF_STATUS_DESKEW_PENDING p = true →
    (∀ f ∈ deskewFields, e.act f p = d.rd f p) ∧ e.on .PIN_TF_STATUS_DESKEW_PENDING p = false
  sets : ∀ p ∈ l, ∀ k, k < 32 → d.tsPending p k = true → d.loadingSets p k = false → d.tsCheck p k = 0 →
    (∀ f ∈ tsFields, e.act f (tsKey p k) = d.rd f (tsKey p k)) ∧ e.tsPending p k = false
  trim : ∀ p ∈ l, ∀ b, (d.pin p).trimBand = some b → (e.pin p).trimBand = none ∧ e.on .PIN_TF_STATUS_TRIM_PENDING p = false
  rd : ∀ f i, (f ∉ seamFields ∨ i ∉ l) → e.rd f i = d.rd f i
  act : ∀ f i, (f ∈ deskewFields → i ∉ l) → (f ∈ tsFields → i / 32 ∉ l) → e.act f i = d.act f i
  pin : ∀ p, p ∉ l → e.pin p = d.pin p
  fifo : ∀ p, (e.pin p).fifo = (d.pin p).fifo
  tracker : e.tracker = d.tracker
  sites : e.sites = d.sites

theorem Dev.moveDeskew_moved (d : Dev) (p : Nat) : (d.on .PIN_TF_STATUS_DESKEW_PENDING p = true →
      (∀ f ∈ deskewFields, (d.moveDeskew p).act f p = d.rd f p) ∧ (d.moveDeskew p).on .PIN_TF_STATUS_DESKEW_PENDING p = false) ∧
    (∀ f j, (f ∉ deskewFields ∨ j ≠ p) → (d.moveDeskew p).act f j = d.act f j) ∧ d.keepsBut (d.moveDeskew p) [(.PIN_TF_STATUS_DESKEW_PENDING, p)] := by
  obtain ⟨moved, off, other, keeps⟩ := Dev.moveGroup deskewFields .PIN_TF_STATUS_DESKEW_PENDING p d (by decide)
  unfold Dev.moveDeskew
  split
  · exact ⟨fun _ => ⟨moved, off⟩, other, keeps⟩
  · exact ⟨fun h => absurd h ‹_›, fun _ _ _ => rfl, fun _ _ _ => rfl⟩

/-- The seam of one pin. -/
theorem Dev.seamPin_moved (d : Dev) (p : Nat) : Dev.SeamMoved [p] d ((d.movePending p).takeTrims p) := by
  have sets := Dev.moveSets_moved ((List.range 32).filter (fun k => !d.loadingSets p k)) d p
    (fun k hk => List.mem_range.mp (List.mem_filter.mp hk).1)
  obtain ⟨pins, tracker, sites⟩ := Dev.units_of_records (d.movePending_records p)
  have pin (q : Nat) : (d.movePending p).pin q = d.pin q := by rw [Dev.pin, pins, Dev.pin]
  have eq : d.movePending p = (((List.range 32).filter (fun k => !d.loadingSets p k)).foldl (fun d k => d.moveSet p k) d).moveDeskew p := rfl
  rw [eq] at pin tracker sites ⊢
  clear eq pins
  generalize ((List.range 32).filter (fun k => !d.loadingSets p k)).foldl (fun d k => d.moveSet p k) d = m at sets pin tracker sites ⊢
  obtain ⟨desk, act, keeps⟩ := m.moveDeskew_moved p
  have notTrims (f : Fld) (h : f ∈ [Fld.PIN_TF_STATUS_TRIM_PENDING, .PIN_TF_STATUS_BAND]) : f ∈ seamFields := by
    revert f; decide
  have notDesk : Fld.PIN_TF_STATUS_DESKEW_PENDING ∈ seamFields := by decide
  have notSets (f : Fld) (h : f ∈ tsCommitFields) : f ∈ seamFields := by revert f; decide
  obtain ⟨tact, ttracker, tsites⟩ := (m.moveDeskew p).takeTrims_frame p
  exact {
    deskew := fun q hq h => by
      obtain rfl := List.mem_singleton.mp hq
      have pend : m.on .PIN_TF_STATUS_DESKEW_PENDING q = true := by rw [Dev.on, sets.rd _ _ (.inl (by decide))]; exact h
      refine ⟨fun f hf => ?_, ?_⟩
      · rw [tact, (desk pend).1 f hf, sets.rd f q (.inl (fun m => (seamFields_disjoint.2 f hf).1 (notSets f m)))]
      · rw [Dev.on, Dev.takeTrims_rd _ _ _ _ (.inl (by decide))]
        exact (desk pend).2
    sets := fun q hq k hk hp hl hc => by
      obtain rfl := List.mem_singleton.mp hq
      have mem : k ∈ (List.range 32).filter (fun k => !d.loadingSets q k) := by simp [hk, hl]
      refine ⟨fun f hf => ?_, ?_⟩
      · rw [tact, act f _ (.inl (seamFields_disjoint.1 f hf).2), sets.act_ready k mem ⟨hp, hc⟩ f hf]
      · rw [Dev.tsPending, Dev.takeTrims_rd _ _ _ _ (.inl (by decide)), keeps _ _ (by simp)]
        exact (sets.pending k hk).trans (by simp [hk, hl])
    trim := fun q hq b h => by
      obtain rfl := List.mem_singleton.mp hq
      have hb : ((m.moveDeskew q).pin q).trimBand = some b := by rw [pin, h]
      rw [Dev.takeTrims_some hb]
      refine ⟨by rw [Dev.upPin_pin, if_pos rfl], ?_⟩
      rw [(Dev.upPin_reads _ _ _).2.2.1, Dev.on, Dev.clr, Dev.wr_rd_same]
      rfl
    rd := fun f i h => by
      rw [Dev.takeTrims_rd _ _ _ _ (h.imp (fun h m => h (notTrims f m)) (fun h e => h (List.mem_singleton.mpr e))),
        keeps f i (fun m => ?_), sets.rd f i (h.imp (fun h m => h (notSets f m)) (fun h e => h (List.mem_singleton.mpr e)))]
      obtain ⟨rfl, rfl⟩ := Prod.mk.inj (List.mem_singleton.mp m)
      exact h.elim (fun h => h notDesk) (fun h => h (List.mem_singleton_self _))
    act := fun f i hd ht => by
      rw [tact, act f i ?_, sets.act_other f i (fun k hk _ hf e => ?_)]
      · have := List.mem_range.mp (List.mem_filter.mp hk).1
        refine ht hf (List.mem_singleton.mpr ?_)
        rw [e, tsKey]
        omega
      · by_cases hf : f ∈ deskewFields
        · exact .inr (fun e => hd hf (List.mem_singleton.mpr e))
        · exact .inl hf
    pin := fun q hq => by rw [Dev.takeTrims_pin _ _ _ (fun e => hq (List.mem_singleton.mpr e)), pin]
    fifo := fun q => by rw [Dev.takeTrims_fifo, pin]
    tracker := ttracker.trans tracker
    sites := tsites.trans sites }

/-- The seam of pin `p` and then of others. -/
theorem Dev.SeamMoved.cons {p : Nat} {l : List Nat} {d e f : Dev} (h : Dev.SeamMoved [p] d e) (k : Dev.SeamMoved l e f) (hp : p ∉ l) :
    Dev.SeamMoved (p :: l) d f := by
  have ne (q : Nat) (hq : q ∈ l) : q ∉ [p] := fun m => hp (List.mem_singleton.mp m ▸ hq)
  have shadow (g : Fld) (hg : g ∈ tsFields ∨ g ∈ deskewFields) (i : Nat) : e.rd g i = d.rd g i :=
    h.rd g i (.inl (hg.elim (fun m => (seamFields_disjoint.1 g m).1) (fun m => (seamFields_disjoint.2 g m).1)))
  have loading (q j : Nat) : e.loadingSets q j = d.loadingSets q j := by unfold Dev.loadingSets; rw [h.tracker]
  have check (q j : Nat) : e.tsCheck q j = d.tsCheck q j := Dev.tsCheck_congr (fun g hg i => shadow g (.inl hg) i) q j
  exact {
    deskew := fun q hq hpend => by
      rcases List.mem_cons.mp hq with rfl | hq
      · obtain ⟨act, off⟩ := h.deskew q (List.mem_singleton_self _) hpend
        refine ⟨fun g hg => ?_, ?_⟩
        · rw [k.act g q (fun _ => hp) (fun ht => absurd ht (seamFields_disjoint.2 g hg).2), act g hg]
        · rw [Dev.on, k.rd _ _ (.inr hp)]
          exact off
      · obtain ⟨act, off⟩ := k.deskew q hq (by rw [Dev.on, h.rd _ _ (.inr (ne q hq))]; exact hpend)
        exact ⟨fun g hg => by rw [act g hg, shadow g (.inr hg)], off⟩
    sets := fun q hq j hj hpend hload hc => by
      rcases List.mem_cons.mp hq with rfl | hq
      · obtain ⟨act, off⟩ := h.sets q (List.mem_singleton_self _) j hj hpend hload hc
        have unit : tsKey q j / 32 = q := by unfold tsKey; omega
        refine ⟨fun g hg => ?_, ?_⟩
        · rw [k.act g _ (fun hd => absurd hg (seamFields_disjoint.2 g hd).2) (fun _ => by rw [unit]; exact hp), act g hg]
        · rw [Dev.tsPending, k.rd _ _ (.inr hp)]
          exact off
      · obtain ⟨act, off⟩ := k.sets q hq j hj (by rw [Dev.tsPending, h.rd _ _ (.inr (ne q hq))]; exact hpend) (by rw [loading, hload]) (by rw [check, hc])
        exact ⟨fun g hg => by rw [act g hg, shadow g (.inl hg)], off⟩
    trim := fun q hq b hb => by
      rcases List.mem_cons.mp hq with rfl | hq
      · obtain ⟨taken, off⟩ := h.trim q (List.mem_singleton_self _) b hb
        exact ⟨by rw [k.pin q hp, taken], by rw [Dev.on, k.rd _ _ (.inr hp)]; exact off⟩
      · exact k.trim q hq b (by rw [h.pin q (ne q hq), hb])
    rd := fun g i hg => by
      rw [k.rd g i (hg.imp_right (fun m hi => m (List.mem_cons_of_mem _ hi))),
        h.rd g i (hg.imp_right (fun m hi => m (List.mem_singleton.mp hi ▸ List.mem_cons_self)))]
    act := fun g i hd ht => by
      rw [k.act g i (fun m hi => hd m (List.mem_cons_of_mem _ hi)) (fun m hi => ht m (List.mem_cons_of_mem _ hi)),
        h.act g i (fun m hi => hd m (List.mem_singleton.mp hi ▸ List.mem_cons_self)) (fun m hi => ht m (List.mem_singleton.mp hi ▸ List.mem_cons_self))]
    pin := fun q hq => by
      rw [k.pin q (fun m => hq (List.mem_cons_of_mem _ m)), h.pin q (fun m => hq (List.mem_singleton.mp m ▸ List.mem_cons_self))]
    fifo := fun q => by rw [k.fifo, h.fifo]
    tracker := k.tracker.trans h.tracker
    sites := k.sites.trans h.sites }

/-- The seam of the pins of a list that names each once. -/
theorem Dev.seamPins_moved (l : List Nat) (hl : l.Nodup) (d : Dev) :
    Dev.SeamMoved l d (l.foldl (fun d p => (d.movePending p).takeTrims p) d) := by
  induction l generalizing d with
  | nil =>
    exact {
      deskew := fun _ h => nomatch h
      sets := fun _ h => nomatch h
      trim := fun _ h => nomatch h
      rd := fun _ _ _ => rfl
      act := fun _ _ _ _ => rfl
      pin := fun _ _ => rfl
      fifo := fun _ => rfl
      tracker := rfl
      sites := rfl }
  | cons p t ih =>
    obtain ⟨hp, ht⟩ := List.nodup_cons.mp hl
    exact (d.seamPin_moved p).cons (ih ht _) hp

end Sys2Proof.Machine
end

section
/-!
SUPPORT. What the units tell each other: span packets, signals and conditions (R87, R120, R251, R304). What they leave, and the conditions that queue at a
site.
-/
namespace Sys2Proof.Machine

/-- The block but for what a message between units writes: the ports, the signals and EV pins, the waves' jump requests, the tally and the sites. -/
def Dev.unsent (d : Dev) : Dev :=
  { d with regs := [], ports := [], tl := {}, evOut := [], sigNo := 0, signals := [], waves := [], sites := [] }

/-- The register fields and the records that a message between units leaves. -/
def Dev.quiet (d : Dev) : (Fld → Nat → Nat) × Dev := (viewBut [.RN_PORT_COUNT_FWD] d.regs, d.unsent)

theorem Dev.quiet_of {d e : Dev} (hr : e.regs = d.regs) (hu : e.unsent = d.unsent) : e.quiet = d.quiet := by
  unfold Dev.quiet
  rw [hr, hu]

theorem Dev.foldl_quiet {β : Type} (g : Dev → β → Dev) (l : List β) (d : Dev) (h : ∀ d x, (g d x).quiet = d.quiet) :
    (l.foldl g d).quiet = d.quiet := foldl_keeps Dev.quiet g l d (fun d x _ => h d x)

theorem Dev.keepsFields_of_quiet {d e : Dev} (h : e.quiet = d.quiet) : d.keepsFields e [.RN_PORT_COUNT_FWD] :=
  keepsFields_of_view (congrArg Prod.fst h)

theorem Dev.rd_of_quiet {d e : Dev} (h : e.quiet = d.quiet) {f : Fld} (hf : f ≠ .RN_PORT_COUNT_FWD) (i : Nat) : e.rd f i = d.rd f i :=
  Dev.keepsFields_of_quiet h f i (fun m => hf (List.mem_singleton.mp m))

/-- The records that a message leaves. -/
theorem Dev.units_of_quiet {d e : Dev} (h : e.quiet = d.quiet) : e.tracker = d.tracker ∧ e.pins = d.pins ∧ e.raised = d.raised ∧ e.slots = d.slots ∧
    e.trigAt = d.trigAt ∧ e.active = d.active ∧ e.now = d.now ∧ e.bedOff = d.bedOff := by
  have hu := congrArg Prod.snd h
  have tracker := congrArg Dev.tracker hu
  have pins := congrArg Dev.pins hu
  have raised := congrArg Dev.raised hu
  have slots := congrArg Dev.slots hu
  have trigAt := congrArg Dev.trigAt hu
  have active := congrArg Dev.active hu
  have now := congrArg Dev.now hu
  have bedOff := congrArg Dev.bedOff hu
  exact ⟨tracker, pins, raised, slots, trigAt, active, now, bedOff⟩

@[simp] theorem Dev.up_quiet (d : Dev) : (∀ n f, (d.upSite n f).quiet = d.quiet) ∧ (∀ n f, (d.upPort n f).quiet = d.quiet) ∧
    (∀ n f, (d.upWave n f).quiet = d.quiet) ∧ (∀ i, (d.count .RN_PORT_COUNT_FWD i 1).quiet = d.quiet) ∧ (∀ e i, (d.tally e i 1).quiet = d.quiet) :=
  ⟨fun _ _ => rfl, fun _ _ => rfl, fun _ _ => rfl,
    fun _ => Prod.ext (view_of_keepsFields (Dev.wr_keepsFields _ _ _ _)) rfl, fun _ _ => rfl⟩

/-! ### Span packets -/

theorem Dev.sendOn_quiet (d : Dev) (p : Nat) (k : SpanPkt) : (d.sendOn p k).quiet = d.quiet := by
  simp only [Dev.sendOn, Dev.up_quiet]

theorem Dev.originate_quiet (d : Dev) (k : SpanPkt) : (d.originate k).quiet = d.quiet :=
  Dev.foldl_quiet _ _ d (fun d p => d.sendOn_quiet p k)

theorem Dev.originate_sites (d : Dev) (k : SpanPkt) : (d.originate k).sites = d.sites :=
  foldl_keeps Dev.sites _ _ d (fun _ _ _ => rfl)

/-! ### Conditions -/

theorem Dev.spanCond_quiet (d : Dev) (n c : Nat) (v : Bool) (t : Nat) : (d.spanCond n c v t).quiet = d.quiet :=
  (Dev.up_quiet _).1 n _ |>.trans (d.originate_quiet _)

theorem Dev.spanCond_site (d : Dev) (n c : Nat) (v : Bool) (t m : Nat) :
    ∃ e : CondEv, (d.spanCond n c v t).site m = if m = n then { d.site n with conds := (d.site n).conds ++ [e] } else d.site m := by
  have site (k : Nat) (p : SpanPkt) : (d.originate p).site k = d.site k := by rw [Dev.site, Dev.originate_sites, Dev.site]
  refine ⟨⟨cycleAfter (t + ns (d.rd .SITE_SPAN_LAT_LAT n)), 256 + c, v, true, t⟩, ?_⟩
  unfold Dev.spanCond Dev.queueCond
  rw [Dev.upSite_site, site, site]

/-- Conditions spread to a span: only the queue of the site grows. -/
theorem Dev.spanConds_site (l : List Nat) (d : Dev) (n : Nat) (v : Bool) (t : Nat) :
    ∃ r : List CondEv, ∀ m, (l.foldl (fun d c => d.spanCond n c v t) d).site m =
      if m = n then { d.site n with conds := (d.site n).conds ++ r } else d.site m := by
  induction l generalizing d with
  | nil =>
    refine ⟨[], fun m => ?_⟩
    split
    · subst_vars; rw [List.append_nil]; rfl
    · rfl
  | cons c t' ih =>
    obtain ⟨r, hr⟩ := ih (d.spanCond n c v t)
    obtain ⟨e, he⟩ := d.spanCond_site n c v t n
    refine ⟨e :: r, fun m => ?_⟩
    rw [List.foldl_cons, hr, he]
    split
    · simp
    · obtain ⟨e', he'⟩ := d.spanCond_site n c v t m
      rw [he', if_neg ‹_›]

/-- A condition posted at a site: its queue, less an older one of the same time where it is shared, gets the condition and then those of its span. -/
theorem Dev.postCond_site (d : Dev) (n src : Nat) (v : Bool) (t : Nat) : ∃ r : List CondEv, ∀ m, (d.postCond n src v t).site m =
    if m = n then { d.site n with conds := (if src = 2 ∨ src = 3 then (d.site n).conds.filter (fun e => !(e.src == src && e.at_ == t))
      else (d.site n).conds) ++ ⟨cycleAfter (t + ns 96), src, v, false, t⟩ :: r } else d.site m := by
  unfold Dev.postCond
  dsimp only
  obtain ⟨r, hr⟩ := Dev.spanConds_site ((d.mapped n src).filter (d.spanWide n)) (Dev.queueCond
    (if src = 2 ∨ src = 3 then d.upSite n (fun S => { S with conds := S.conds.filter (fun e => !(e.src == src && e.at_ == t)) }) else d) n
    ⟨cycleAfter (t + ns 96), src, v, false, t⟩) n v t
  refine ⟨r, fun m => ?_⟩
  rw [hr, Dev.queueCond, Dev.upSite_site, Dev.upSite_site, if_pos rfl]
  by_cases hm : m = n
  · simp only [hm, if_true]
    split <;> simp
  · simp only [hm, if_false]
    split <;> simp [hm]

theorem Dev.postCond_quiet (d : Dev) (n src : Nat) (v : Bool) (t : Nat) : (d.postCond n src v t).quiet = d.quiet := by
  refine (Dev.foldl_quiet _ _ _ (fun d c => d.spanCond_quiet n c v t)).trans (((Dev.up_quiet _).1 n _).trans ?_)
  split
  · exact (Dev.up_quiet d).1 n _
  · rfl

/-! ### Signals -/

theorem Dev.evSignal_quiet (d : Dev) (k : SigKind) (t u i : Nat) (b : Bool) : (d.evSignal k t u i b).quiet = d.quiet ∧
    (d.evSignal k t u i b).sites = d.sites := by
  have put (d : Dev) (e t : Nat) (b : Bool) : (d.evPut e t b).quiet = d.quiet ∧ (d.evPut e t b).sites = d.sites := ⟨rfl, rfl⟩
  have pulse (d : Dev) (e t : Nat) : (d.evPulse e t).quiet = d.quiet ∧ (d.evPulse e t).sites = d.sites := by
    unfold Dev.evPulse
    dsimp only
    (repeat' split) <;> simp [put]
  constructor
  · refine Dev.foldl_quiet _ _ _ (fun d e => ?_)
    dsimp only
    (repeat' split) <;> simp [put, pulse]
  · refine foldl_keeps Dev.sites _ _ _ (fun d e _ => ?_)
    dsimp only
    (repeat' split) <;> simp [put, pulse]

theorem Dev.signal_quiet (d : Dev) (k : SigKind) (t u i : Nat) (b : Bool) : (d.signal k t u i b).quiet = d.quiet ∧ (d.signal k t u i b).sites = d.sites := by
  obtain ⟨quiet, sites⟩ := d.evSignal_quiet k t u i b
  have jump (d : Dev) (w : Nat) (g : Signal) : (match d.jumpRef w g with | some r => d.askJump w r | none => d).quiet = d.quiet ∧
      (match d.jumpRef w g with | some r => d.askJump w r | none => d).sites = d.sites := by
    split <;> exact ⟨rfl, rfl⟩
  exact ⟨(Dev.foldl_quiet _ _ _ (fun d w => (jump d w _).1)).trans ((Dev.quiet_of rfl rfl).trans quiet),
    (foldl_keeps Dev.sites _ _ _ (fun d w _ => (jump d w _).2)).trans sites⟩

/-! ### Descriptors in flight -/

theorem Dev.entry_id {d : Dev} {k : Nat} {x : Entry} (h : d.entry? k = some x) : x.id = k := by
  simpa using List.find?_some h

/-- A descriptor changed, its identity kept: that one, and every other. -/
theorem Dev.upEntry_entry (d : Dev) (e k : Nat) (f : Entry → Entry) (hf : ∀ x, (f x).id = x.id) :
    (d.upEntry e f).entry? k = if k = e then (d.entry? e).map f else d.entry? k := by
  have same (x : Entry) : ((if x.id = e then f x else x).id == k) = (x.id == k) := by split <;> simp [hf]
  have found : (d.upEntry e f).entry? k = (d.entry? k).map (fun x => if x.id = e then f x else x) := by
    unfold Dev.upEntry Dev.entry?
    rw [List.find?_map]
    exact congrArg (Option.map _) (congrArg (fun p => d.tracker.find? p) (funext same))
  rw [found]
  cases hx : d.entry? k with
  | none =>
    split
    · subst_vars; rw [hx]; rfl
    · rfl
  | some x =>
    rw [Option.map_some, Dev.entry_id hx]
    split
    · subst_vars; rw [hx]; rfl
    · rfl

end Sys2Proof.Machine
end

section
/-!
Obligation O14, second part. The start of a site: its seam (R188 to R190), then vector 0 (R48, R57, R120, R197, R223).
-/
namespace Sys2Proof.Machine

/-! ### The seam of a site -/

theorem Dev.withSeam_plain {d : Dev} (h : d.cycNow.staged = []) (n : Nat) (f : Dev → Dev) : d.withSeam n f = f d := by
  unfold Dev.withSeam
  exact if_pos h

/-- The seam of the members of site `n` and of its COND group, where it is pending. -/
def Dev.membersSeam (d : Dev) (n : Nat) : Dev := (d.members n).foldl (fun d p => (d.movePending p).takeTrims p) d

theorem Dev.membersSeam_moved (d : Dev) (n : Nat) : Dev.SeamMoved (d.members n) d (d.membersSeam n) :=
  Dev.seamPins_moved _ (d.members_nodup n) d

/-- The COND group of site `n` moved where it is pending. -/
def Dev.condSeam (d : Dev) (n : Nat) : Dev := if (d.site n).condPend then d.moveCond n else d

theorem Dev.fullSeam_plain {d : Dev} (h : d.cycNow.staged = []) (n : Nat) :
    d.fullSeam n = (((d.membersSeam n).condSeam n).endSeamClock n).tally 0x13 n 1 := by
  unfold Dev.fullSeam
  rw [Dev.withSeam_plain h]
  rfl

theorem Dev.moveCond_frame (d : Dev) (n : Nat) : (d.moveCond n).pins = d.pins ∧ (d.moveCond n).tracker = d.tracker := by
  obtain ⟨pins, tracker, -⟩ := Dev.units_of_records (Dev.moves_records (List.range 32) (fun c => (Fld.SITE_CSRC_SRC, n * 32 + c)) d)
  simp only [Dev.moveCond, Dev.upSite_frame, Dev.move_frame]
  exact ⟨pins, tracker⟩

theorem Dev.condSeam_spec (d : Dev) (n : Nat) : (∀ f i, (d.condSeam n).rd f i = d.rd f i) ∧ (d.condSeam n).pins = d.pins ∧
    (d.condSeam n).tracker = d.tracker ∧ (∀ m, (d.condSeam n).site m = if m = n then { d.site n with condPend := false } else d.site m) ∧
    (∀ f i, f ≠ .SITE_CSRC_SRC → f ≠ .SITE_SPAN_CMASK_CMASK → (d.condSeam n).act f i = d.act f i) ∧
    ((d.site n).condPend = true → ∀ c, c < 32 → (d.condSeam n).act .SITE_CSRC_SRC (n * 32 + c) = d.rd .SITE_CSRC_SRC (n * 32 + c)) := by
  unfold Dev.condSeam
  by_cases h : (d.site n).condPend = true
  · rw [if_pos h]
    obtain ⟨pins, tracker⟩ := d.moveCond_frame n
    refine ⟨Dev.rd_congr (d.moveCond_regs n), pins, tracker, fun m => ?_, fun f i h1 h2 => ?_, fun _ c hc => ?_⟩
    · rw [Dev.moveCond_site]
      split
      · subst_vars; rfl
      · rfl
    · rw [Dev.moveCond_act, if_neg (by simp [h1, h2])]
    · rw [Dev.moveCond_act, if_pos (.inl ⟨rfl, by omega⟩)]
  · rw [if_neg h]
    refine ⟨fun _ _ => rfl, rfl, rfl, fun m => ?_, fun _ _ _ _ => rfl, fun hp => absurd hp h⟩
    split
    · subst_vars
      generalize d.site m = S at h
      cases S
      simp_all
    · rfl

/-- The end of a seam: the clocks of the site and the stale mark. -/
theorem Dev.endSeam_spec (d : Dev) (n : Nat) (e : Dev) (he : e = (d.endSeamClock n).tally 0x13 n 1) :
    (∀ f i, f ≠ .SITE_STATUS_STALE_ACTIVE → e.rd f i = d.rd f i) ∧ e.pins = d.pins ∧ e.tracker = d.tracker ∧ (∀ f i, e.act f i = d.act f i) ∧
      (∀ m, e.site m = if m = n then { d.site n with seamClock := none, seamNoted := false } else d.site m) := by
  subst he
  refine ⟨fun f i h => ?_, rfl, rfl, fun _ _ => rfl, fun m => ?_⟩
  · exact Dev.wr_rd_ne d .SITE_STATUS_STALE_ACTIVE f n i 0 h
  · have tally (e : Dev) : (e.tally 0x13 n 1).site m = e.site m := rfl
    rw [tally, Dev.endSeamClock, Dev.upSite_site, (Dev.clr_reads _ _ _).2.1, (Dev.clr_reads _ _ _).2.1]

/-- The start of a burst is due and its seam has not passed. -/
theorem Dev.startSeam_due {d : Dev} {n t : Nat} (hst : d.siteState n = SiteState.PREPARING ∨ d.siteState n = SiteState.ARMED)
    (he : (d.site n).early = none) (hs : (d.site n).start = some t) (hseam : (d.site n).startSeam = false) (ht : t ≤ d.bed + ns 100) :
    d.startSeam n = (d.fullSeam n).upSite n (fun S => { S with startSeam := true }) := by
  unfold Dev.startSeam
  rw [hs]
  exact if_pos ⟨hst, by simp [he], by simp [hseam], ht⟩

theorem Dev.startSeam_passed {d : Dev} {n : Nat} (hseam : (d.site n).startSeam = true) : d.startSeam n = d := by
  unfold Dev.startSeam
  split
  · exact if_neg (fun h => by simp [hseam] at h)
  · rfl

/-- The fields that the seam of a site writes. -/
def siteSeamFields : List Fld := seamFields ++ [.SITE_STATUS_STALE_ACTIVE]

/-- The seam at the start of a burst. -/
structure Dev.Started (n : Nat) (d e : Dev) : Prop where
  moved : ∃ m, Dev.SeamMoved (d.members n) d m ∧ (∀ f i, f ≠ .SITE_STATUS_STALE_ACTIVE → e.rd f i = m.rd f i) ∧ e.pins = m.pins ∧ e.tracker = m.tracker ∧
    ∀ f i, f ≠ .SITE_CSRC_SRC → f ≠ .SITE_SPAN_CMASK_CMASK → e.act f i = m.act f i
  site : ∀ m, e.site m = if m = n then { d.site n with condPend := false, seamClock := none, seamNoted := false, startSeam := true } else d.site m
  cond : (d.site n).condPend = true → ∀ c, c < 32 → e.act .SITE_CSRC_SRC (n * 32 + c) = d.rd .SITE_CSRC_SRC (n * 32 + c)

theorem Dev.fullSeam_started {d : Dev} (h : d.cycNow.staged = []) (n : Nat) :
    Dev.Started n d ((d.fullSeam n).upSite n (fun S => { S with startSeam := true })) := by
  have moved := d.membersSeam_moved n
  have sites (k : Nat) : (d.membersSeam n).site k = d.site k := by rw [Dev.site, moved.sites, Dev.site]
  obtain ⟨crd, cpins, ctracker, csite, cact, ccond⟩ := (d.membersSeam n).condSeam_spec n
  obtain ⟨erd, epins, etracker, eact, esite⟩ := Dev.endSeam_spec ((d.membersSeam n).condSeam n) n _ (Dev.fullSeam_plain h n)
  generalize d.fullSeam n = e at erd epins etracker eact esite ⊢
  exact {
    moved := ⟨d.membersSeam n, moved, fun f i hf => by rw [(Dev.upSite_reads _ _ _).1, erd f i hf, crd], epins.trans cpins, etracker.trans ctracker,
      fun f i h1 h2 => by rw [(Dev.upSite_reads _ _ _).2.1, eact, cact f i h1 h2]⟩
    site := fun m => by
      rw [Dev.upSite_site, esite, esite, csite, csite, sites, sites]
      by_cases hm : m = n <;> simp [hm]
    cond := fun hp c hc => by
      have shadow : (d.membersSeam n).rd .SITE_CSRC_SRC (n * 32 + c) = d.rd .SITE_CSRC_SRC (n * 32 + c) := moved.rd _ _ (.inl (by decide))
      rw [(Dev.upSite_reads _ _ _).2.1, eact, ccond (by rw [sites]; exact hp) c hc, shadow] }

theorem startSeam_acts (s : State) (n t : Nat) (hn : n < 64) (hst : s.dev.siteState n = SiteState.PREPARING ∨ s.dev.siteState n = SiteState.ARMED)
    (he : (s.dev.site n).early = none) (hs : (s.dev.site n).start = some t) (hseam : (s.dev.site n).startSeam = false) (ht : t ≤ s.dev.bed + ns 100)
    (hstaged : s.dev.cycNow.staged = []) :
    Acts (.burstStartSeam n) s (fun e =>
      (e.site n).startSeam = true ∧ (e.site n).condPend = false ∧
      ((s.dev.site n).condPend = true → ∀ c, c < 32 → e.act .SITE_CSRC_SRC (n * 32 + c) = s.dev.rd .SITE_CSRC_SRC (n * 32 + c)) ∧
      (∀ p, p ∈ s.dev.members n → s.dev.on .PIN_TF_STATUS_DESKEW_PENDING p = true →
        (∀ f, f ∈ deskewFields → e.act f p = s.dev.rd f p) ∧ e.on .PIN_TF_STATUS_DESKEW_PENDING p = false) ∧
      (∀ p k, p ∈ s.dev.members n → k < 32 → s.dev.tsPending p k = true → s.dev.loadingSets p k = false → s.dev.tsCheck p k = 0 →
        (∀ f, f ∈ tsFields → e.act f (tsKey p k) = s.dev.rd f (tsKey p k)) ∧ e.tsPending p k = false) ∧
      (∀ p b, p ∈ s.dev.members n → (s.dev.pin p).trimBand = some b → (e.pin p).trimBand = none ∧ e.on .PIN_TF_STATUS_TRIM_PENDING p = false) ∧
      s.dev.keepsFields e [.PIN_TS_PENDING_SET, .PIN_TS_REJECT_VALID, .PIN_TS_REJECT_MORE, .PIN_TS_REJECT_REASON, .PIN_TS_REJECT_SET,
        .PIN_TF_STATUS_DESKEW_PENDING, .PIN_TF_STATUS_TRIM_PENDING, .PIN_TF_STATUS_BAND, .SITE_STATUS_STALE_ACTIVE]) := by
  have started := Dev.fullSeam_started hstaged n
  refine acts_onDev rfl (decide_eq_true hn) ?_
  rw [Dev.startSeam_due hst he hs hseam ht]
  generalize (s.dev.fullSeam n).upSite n (fun S => { S with startSeam := true }) = e at started
  obtain ⟨⟨m, moved, rd, pins, -, act⟩, site, cond⟩ := started
  have acts : ∀ f ∈ deskewFields ++ tsFields, f ≠ .SITE_CSRC_SRC ∧ f ≠ .SITE_SPAN_CMASK_CMASK := by decide
  have deskew (f : Fld) (hf : f ∈ deskewFields) := acts f (List.mem_append_left _ hf)
  have set (f : Fld) (hf : f ∈ tsFields) := acts f (List.mem_append_right _ hf)
  have pin (p : Nat) : e.pin p = m.pin p := by rw [Dev.pin, pins, Dev.pin]
  refine ⟨by rw [site, if_pos rfl], by rw [site, if_pos rfl], cond, fun p hp hd => ?_, fun p k hp hk hpend hl hc => ?_, fun p b hp hb => ?_, fun f i hf => ?_⟩
  · obtain ⟨a, off⟩ := moved.deskew p hp hd
    refine ⟨fun f hf => by rw [act f p (deskew f hf).1 (deskew f hf).2, a f hf], ?_⟩
    rw [Dev.on, rd _ _ (by decide)]
    exact off
  · obtain ⟨a, off⟩ := moved.sets p hp k hk hpend hl hc
    refine ⟨fun f hf => by rw [act f _ (set f hf).1 (set f hf).2, a f hf], ?_⟩
    rw [Dev.tsPending, rd _ _ (by decide)]
    exact off
  · obtain ⟨taken, off⟩ := moved.trim p hp b hb
    refine ⟨by rw [pin, taken], ?_⟩
    rw [Dev.on, rd _ _ (by decide)]
    exact off
  · have stale : f ≠ .SITE_STATUS_STALE_ACTIVE := by
      rintro rfl
      exact hf (by decide)
    rw [rd f i stale, moved.rd f i (.inl (fun h => hf (List.mem_append_left [Fld.SITE_STATUS_STALE_ACTIVE] h)))]

/-! ### Vector 0 -/

/-- The fields of a pin that its comparison sequencer starts with. -/
def csqFields : List Fld := [.PIN_CMP_STATUS_OFFSET_NOW, .PIN_CMP_STATUS_LSTATE, .PIN_CMP_STATUS_UNJUDGED, .PIN_FAIL_COUNT_COUNT, .PIN_FAIL_FIRST_VALID,
  .PIN_FAIL_FIRST_VCOUNT, .PIN_FAIL_FIRST_ADDR_SEQADDR, .PIN_FAIL_FIRST_TIME_T]

theorem Dev.csqStart_frame (d : Dev) (p : Nat) : (d.csqStart p).sites = d.sites ∧ (d.csqStart p).tracker = d.tracker := by
  simp only [Dev.csqStart, Dev.wr_frame, Dev.clr_frame, Dev.upCsq_frame, and_self]

theorem Dev.csqStart_rd (d : Dev) (p : Nat) (f : Fld) (i : Nat) (h : f ∉ csqFields ∨ i ≠ p) : (d.csqStart p).rd f i = d.rd f i := by
  have ne : ∀ g ∈ csqFields, ¬(f = g ∧ i = p) := by
    rintro g hg ⟨rfl, rfl⟩
    exact h.elim (fun h => h hg) (fun h => h rfl)
  simp only [csqFields, List.mem_cons, List.not_mem_nil, or_false, forall_eq_or_imp, forall_eq] at ne
  obtain ⟨h1, h2, h3, h4, h5, h6, h7, h8⟩ := ne
  simp only [Dev.csqStart, Dev.clr, Dev.wr_rd, Dev.upCsq_reads, h1, h2, h3, h4, h5, h6, h7, h8, if_false]

theorem Dev.csqStart_cleared (d : Dev) (p : Nat) :
    ∀ f ∈ [Fld.PIN_FAIL_COUNT_COUNT, .PIN_FAIL_FIRST_VALID, .PIN_CMP_STATUS_LSTATE], (d.csqStart p).rd f p = 0 := by
  intro f hf
  simp only [List.mem_cons, List.not_mem_nil, or_false] at hf
  rcases hf with rfl | rfl | rfl <;> simp [Dev.csqStart, Dev.clr, Dev.wr_rd]

/-- The start of the comparison sequencers of a list of pins. -/
theorem Dev.csqStarts (l : List Nat) (d e : Dev) (he : e = l.foldl (fun d p => d.csqStart p) d) :
    (∀ f i, (f ∉ csqFields ∨ i ∉ l) → e.rd f i = d.rd f i) ∧ e.sites = d.sites ∧ e.tracker = d.tracker ∧
      ∀ f ∈ [Fld.PIN_FAIL_COUNT_COUNT, .PIN_FAIL_FIRST_VALID, .PIN_CMP_STATUS_LSTATE], ∀ p ∈ l, e.rd f p = 0 := by
  induction l generalizing d with
  | nil =>
    obtain rfl := he
    exact ⟨fun _ _ _ => rfl, rfl, rfl, fun _ _ _ h => nomatch h⟩
  | cons q t ih =>
    rw [List.foldl_cons] at he
    obtain ⟨rd, sites, tracker, cleared⟩ := ih (d.csqStart q) he
    obtain ⟨sites1, tracker1⟩ := d.csqStart_frame q
    refine ⟨fun f i h => ?_, sites.trans sites1, tracker.trans tracker1, fun f hf p hp => ?_⟩
    · rw [rd f i (h.imp_right (fun m hi => m (List.mem_cons_of_mem _ hi))),
        Dev.csqStart_rd d q f i (h.imp_right (fun m e => m (e ▸ List.mem_cons_self)))]
    · by_cases ht : p ∈ t
      · exact cleared f hf p ht
      · obtain rfl := (List.mem_cons.mp hp).resolve_right ht
        rw [rd f p (.inr ht)]
        exact d.csqStart_cleared p f hf

/-- The conditions of the EV levels posted at vector 0. -/
theorem Dev.evConds (l : List Nat) (d : Dev) (n : Nat) (v : Dev → Nat → Bool) (t : Nat) :
    (l.foldl (fun d e => d.postCond n (0x30 + e) (v d e) t) d).quiet = d.quiet ∧
      ∀ m, m ≠ n → (l.foldl (fun d e => d.postCond n (0x30 + e) (v d e) t) d).site m = d.site m := by
  refine ⟨Dev.foldl_quiet _ _ _ (fun d e => d.postCond_quiet n _ _ t), fun m hm => foldl_keeps (fun d : Dev => d.site m) _ _ _ (fun d e _ => ?_)⟩
  obtain ⟨r, hr⟩ := d.postCond_site n (0x30 + e) (v d e) t
  rw [hr, if_neg hm]

/-- The registers of site `n` at vector 0. -/
def Dev.burstNoted (d : Dev) (n t : Nat) : Dev :=
  ((d.wr .SITE_STATUS_STATE n SiteState.RUNNING).wr .SITE_START_TIME_T n t).wr .SITE_VCOUNT_COUNT n 0

/-- The block at vector 0 but for the conditions of the EV levels. -/
def Dev.burstBegun (d : Dev) (n t id : Nat) : Dev :=
  (((d.burstNoted n t).touch id).members n).foldl (fun d p => d.csqStart p) (((d.burstNoted n t).touch id).wr .SITE_COND_C n 0)

theorem Dev.startBurst_run {d : Dev} {n id : Nat} (h : (d.site n).run = some id) (t : Nat) :
    d.startBurst n t = (List.range 8).foldl (fun d e => d.postCond n (0x30 + e) (bitAt d.evLevel e) t) (d.burstBegun n t id) := by
  unfold Dev.startBurst
  rw [h]
  rfl

theorem Dev.members_congr {d e : Dev} (h : ∀ k, e.rd .SITE_MEMBER_MASK k = d.rd .SITE_MEMBER_MASK k) (n : Nat) : e.members n = d.members n := by
  simp only [Dev.members, h]

theorem Dev.touch_entry (d : Dev) (e k : Nat) : (d.touch e).entry? k =
    if k = e then (d.entry? e).map (fun x => { x with begun := true, started := true, touched := true }) else d.entry? k :=
  Dev.upEntry_entry d e k _ (fun _ => rfl)

/-- Vector 0: what the registers, the sites and the descriptors hold. -/
theorem Dev.startBurst_spec {d e : Dev} {n t id : Nat} (h : (d.site n).run = some id) (he : e = d.startBurst n t) :
    e.siteState n = SiteState.RUNNING ∧ e.rd .SITE_START_TIME_T n = t % 2 ^ 64 ∧ e.rd .SITE_VCOUNT_COUNT n = 0 ∧ e.rd .SITE_COND_C n = 0 ∧
      (∀ k, e.entry? k = if k = id then (d.entry? id).map (fun x => { x with begun := true, started := true, touched := true }) else d.entry? k) ∧
      (∀ p, p ∈ d.members n → e.rd .PIN_FAIL_COUNT_COUNT p = 0 ∧ e.on .PIN_FAIL_FIRST_VALID p = false ∧ e.rd .PIN_CMP_STATUS_LSTATE p = 0) ∧
      ∀ m, m ≠ n → e.site m = d.site m ∧ e.siteState m = d.siteState m ∧ e.rd .SITE_COND_C m = d.rd .SITE_COND_C m := by
  rw [Dev.startBurst_run h] at he
  obtain ⟨quiet, site⟩ := Dev.evConds (List.range 8) (d.burstBegun n t id) n (fun d e => bitAt d.evLevel e) t
  rw [← he] at quiet site
  have noted (f : Fld) (i : Nat) : ((d.burstNoted n t).touch id).rd f i = (d.burstNoted n t).rd f i := rfl
  have members : ((d.burstNoted n t).touch id).members n = d.members n := Dev.members_congr (fun k => by rw [noted]; simp [Dev.burstNoted, Dev.wr_rd]) n
  obtain ⟨rd, sites, tracker, cleared⟩ := Dev.csqStarts (((d.burstNoted n t).touch id).members n)
    (((d.burstNoted n t).touch id).wr .SITE_COND_C n 0) (d.burstBegun n t id) rfl
  rw [members] at rd cleared
  have time : Fld.SITE_START_TIME_T.spec.width = 64 := rfl
  have state : SiteState.RUNNING % 2 ^ Fld.SITE_STATUS_STATE.spec.width = SiteState.RUNNING := rfl
  have reads (f : Fld) (i : Nat) (hq : f ≠ .RN_PORT_COUNT_FWD) (hc : f ∉ csqFields) : e.rd f i =
      if f = .SITE_COND_C ∧ i = n then 0 % 2 ^ Fld.SITE_COND_C.spec.width else (d.burstNoted n t).rd f i := by
    rw [Dev.rd_of_quiet quiet hq i, rd f i (.inl hc), Dev.wr_rd, noted]
  have zero (f : Fld) (p : Nat) (hf : f ∈ [Fld.PIN_FAIL_COUNT_COUNT, .PIN_FAIL_FIRST_VALID, .PIN_CMP_STATUS_LSTATE]) (hq : f ≠ .RN_PORT_COUNT_FWD)
      (hp : p ∈ d.members n) : e.rd f p = 0 := (Dev.rd_of_quiet quiet hq p).trans (cleared f hf p hp)
  refine ⟨?_, ?_, ?_, ?_, fun k => ?_, fun p hp => ⟨?_, ?_, ?_⟩, fun m hm => ⟨?_, ?_, ?_⟩⟩
  · rw [Dev.siteState, reads _ _ (by decide) (by decide)]
    simp [Dev.wr_rd, Dev.burstNoted, state]
  · rw [reads _ _ (by decide) (by decide)]
    simp [Dev.wr_rd, Dev.burstNoted, time]
  · rw [reads _ _ (by decide) (by decide)]
    simp [Dev.burstNoted]
  · rw [reads _ _ (by decide) (by decide)]
    simp
  · have entries : e.tracker = ((d.burstNoted n t).touch id).tracker := (Dev.units_of_quiet quiet).1.trans tracker
    have touched := (d.burstNoted n t).touch_entry id k
    unfold Dev.entry? at touched ⊢
    rw [entries, touched]
    rfl
  · exact zero _ p (by decide) (by decide) hp
  · rw [Dev.on, zero _ p (by decide) (by decide) hp]
    rfl
  · exact zero _ p (by decide) (by decide) hp
  · rw [site m hm, Dev.site, sites]
    rfl
  · rw [Dev.siteState, reads _ _ (by decide) (by decide)]
    simp [Dev.wr_rd, Dev.burstNoted, hm, Dev.siteState]
  · rw [reads _ _ (by decide) (by decide)]
    simp [Dev.wr_rd, Dev.burstNoted, hm]

/-- What the start of vector 0 finds after the seam: all but what the seam writes at the pins. -/
theorem Dev.startSeam_kept {d e : Dev} {n t : Nat} (hst : d.siteState n = SiteState.PREPARING ∨ d.siteState n = SiteState.ARMED)
    (he : (d.site n).early = none) (hs : (d.site n).start = some t) (ht : t ≤ d.bed + ns 100) (hstaged : d.cycNow.staged = []) (hd : e = d.startSeam n) :
    (∀ f i, f ∉ siteSeamFields → e.rd f i = d.rd f i) ∧ (∀ p, (e.pin p).fifo = (d.pin p).fifo) ∧ e.tracker = d.tracker ∧
      (e.site n).run = (d.site n).run ∧ ∀ m, m ≠ n → e.site m = d.site m := by
  cases hseam : (d.site n).startSeam
  · rw [Dev.startSeam_due hst he hs hseam ht] at hd
    obtain ⟨⟨m, moved, rd, pins, tracker, -⟩, site, -⟩ := hd ▸ Dev.fullSeam_started hstaged n
    refine ⟨fun f i hf => ?_, fun p => ?_, tracker.trans moved.tracker, by rw [site, if_pos rfl], fun k hk => by rw [site, if_neg hk]⟩
    · have stale : f ≠ .SITE_STATUS_STALE_ACTIVE := by
        rintro rfl
        exact hf (by decide)
      rw [rd f i stale, moved.rd f i (.inl (fun h => hf (List.mem_append_left _ h)))]
    · rw [Dev.pin, pins]
      exact moved.fifo p
  · rw [Dev.startSeam_passed hseam] at hd
    subst hd
    exact ⟨fun _ _ _ => rfl, fun _ => rfl, rfl, rfl, fun _ _ => rfl⟩

end Sys2Proof.Machine

open Sys2Proof Sys2Proof.Machine

/-- Settles O14: the seam is the moves of the members, each pin's group by group, then the COND group; vector 0 follows on what the seam leaves. -/
theorem siteStartsAtVectorZeroAfterItsSeam : Obligations.SiteStartsAtVectorZeroAfterItsSeam := by
  refine ⟨fun s n t hn hst he hs hseam ht hstaged => startSeam_acts s n t hn hst he hs hseam ht hstaged,
    fun s n t x hn hst he hs ht hbad hrun hx hstaged => acts_onDev rfl (decide_eq_true hn) ?_⟩
  obtain ⟨rd, fifo, tracker, run, site⟩ := Dev.startSeam_kept hst he hs (by omega) hstaged rfl
  have members : (s.dev.startSeam n).members n = s.dev.members n := Dev.members_congr (fun k => rd _ k (by decide)) n
  have good : (s.dev.startSeam n).badHeads ((s.dev.startSeam n).members n) = [] := by
    rw [members, ← hbad]
    simp only [Dev.badHeads, fifo]
  have begins : s.dev.siteStart n = (s.dev.startSeam n).startBurst n t := by
    unfold Dev.siteStart
    rw [hs]
    exact (if_pos ⟨hst, by simp [he], ht⟩).trans (if_pos good)
  obtain ⟨state, time, vcount, cond, entry, pins, others⟩ := Dev.startBurst_spec (run.trans hrun) begins
  have entry1 (k : Nat) : (s.dev.startSeam n).entry? k = s.dev.entry? k := by rw [Dev.entry?, tracker, Dev.entry?]
  refine ⟨state, time, vcount, cond, ?_, fun k hk => ?_, fun p hp => pins p (members ▸ hp), fun m hm => ?_⟩
  · rw [entry, if_pos rfl, entry1, hx]
    rfl
  · rw [entry, if_neg hk, entry1]
  · obtain ⟨a, b, c⟩ := others m hm
    exact ⟨a.trans (site m hm), b.trans (rd _ m (by decide)), c.trans (rd _ m (by decide))⟩
end

section
/-!
Obligation O47, first part. Slots (R271, R273, R274, R276): the write of TA_SLOT_CTRL, field by field, and TA_FORCE.
-/
namespace Sys2Proof.Machine

/-! ### Bits of a written word -/

theorem testBit_bits (v lo w j : Nat) : (bits v lo w).testBit j = (decide (j < w) && v.testBit (lo + j)) := by
  rw [bits, Nat.testBit_mod_two_pow, Nat.testBit_div_two_pow, Nat.add_comm]

/-- Bits beside a bit that is set or cleared. -/
theorem bits_setBit_other {v i lo w : Nat} {b : Bool} (h : lo + w ≤ i) : bits (setBit v i b) lo w = bits v lo w := by
  refine Nat.eq_of_testBit_eq (fun j => ?_)
  rw [testBit_bits, testBit_bits]
  by_cases hj : j < w
  · have ne : lo + j ≠ i := by omega
    rw [← bitAt_eq_testBit, ← bitAt_eq_testBit, bitAt_setBit, if_neg ne]
  · simp [hj]

/-- Bits of a word cut above them. -/
theorem bits_mod {v m lo w : Nat} (h : lo + w ≤ m) : bits (v % 2 ^ m) lo w = bits v lo w := by
  refine Nat.eq_of_testBit_eq (fun j => ?_)
  rw [testBit_bits, testBit_bits, Nat.testBit_mod_two_pow]
  by_cases hj : j < w
  · have lt : lo + j < m := by omega
    simp [lt]
  · simp [hj]

theorem setBit_lt {v i m : Nat} {b : Bool} (hv : v < 2 ^ m) (hi : i < m) : setBit v i b < 2 ^ m := by
  refine Nat.lt_pow_two_of_testBit _ (fun j hj => ?_)
  rw [← bitAt_eq_testBit, bitAt_setBit, if_neg (by omega), bitAt_eq_testBit]
  exact Nat.testBit_lt_two_pow (Nat.lt_of_lt_of_le hv (Nat.pow_le_pow_right (by decide) hj))

/-- One bit as a number. -/
theorem bits_one (v i : Nat) : bits v i 1 = b2n (bitAt v i) := by
  unfold bits b2n bitAt
  rcases Nat.mod_two_eq_zero_or_one (v / 2 ^ i) with h | h <;> simp [h]

/-! ### A write of a register whose unit does not run -/

theorem Dev.writePart_records (p : Part) (v old : Nat) (run : Bool) (a : Dev × Bool) (x : Fld × Nat × Nat) :
    (Dev.writePart p v old run a x).1.records = a.1.records := by
  unfold Dev.writePart
  dsimp only
  (repeat' split) <;> simp only [Dev.wr_records]

theorem Dev.refuse_records (d : Dev) (k a : Nat) : (d.refuse k a).records = d.records := by
  have event : (d.refusedEvent k a).records = d.records := rfl
  unfold Dev.refuse
  dsimp only
  split <;> simp only [Dev.wr_records, Dev.set1_records, Dev.clr_records, event]

theorem Dev.writeReg_records (d : Dev) (r : RegAt) (p : Part) (v : Nat) (run : Bool) : (d.writeReg r p v run).records = d.records := by
  have parts (run : Bool) : (r.parts.foldl (Dev.writePart p v (d.regWord r) run) (d, false)).1.records = d.records :=
    foldl_keeps (fun a : Dev × Bool => a.1.records) _ _ _ (fun a x _ => Dev.writePart_records p v _ run a x)
  unfold Dev.writeReg
  dsimp only
  split
  · rw [Dev.refuse_records, parts]
  · rw [parts]

/-- No field refuses a write while its unit does not run (R20). -/
theorem Dev.writePart_idle (p : Part) (v old : Nat) (a : Dev × Bool) (x : Fld × Nat × Nat) : (Dev.writePart p v old false a x).2 = a.2 := by
  unfold Dev.writePart
  dsimp only
  cases x.1.spec.acc <;> simp

theorem Dev.writeReg_idle (d : Dev) (r : RegAt) (p : Part) (v : Nat) :
    d.writeReg r p v false = (r.parts.foldl (Dev.writePart p v (d.regWord r) false) (d, false)).1 := by
  have kept : (r.parts.foldl (Dev.writePart p v (d.regWord r) false) (d, false)).2 = false :=
    foldl_keeps Prod.snd _ _ _ (fun a x _ => Dev.writePart_idle p v _ a x)
  unfold Dev.writeReg
  simp only [Bool.false_and, kept, Bool.false_eq_true, if_false]

/-- A register written: a field of another register, not of DEV_REFUSED, stays. -/
theorem Dev.writeReg_other (d : Dev) (r : RegAt) (p : Part) (v : Nat) (run : Bool) (hn : (r.parts.map (fun y => (y.1, y.2.1))).Nodup) (g : Fld) (j : Nat)
    (hg : (g, j) ∉ r.parts.map (fun y => (y.1, y.2.1)))
    (hr : run = false ∨ (g, j) ∉ [(Fld.DEV_REFUSED_VALID, 0), (.DEV_REFUSED_MORE, 0), (.DEV_REFUSED_KIND, 0), (.DEV_REFUSED_ADDR, 0)]) :
    (d.writeReg r p v run).rd g j = d.rd g j := by
  have parts (run : Bool) := (Dev.writeParts p v (d.regWord r) run r.parts (d, false) hn).1 g j hg
  rcases hr with rfl | hr
  · rw [Dev.writeReg_idle, parts]
  · unfold Dev.writeReg
    dsimp only
    split
    · rw [Dev.refuse_keepsBut _ _ _ g j hr, parts]
    · rw [parts]

/-! ### TA_SLOT_CTRL -/

/-- The configuration fields of a slot: what a write of an enabled slot may not change (R20). -/
def slotFields : List Fld :=
  [.TA_SLOT_CTRL_FWD, .TA_SLOT_CTRL_MODE, .TA_SLOT_CTRL_SRC, .TA_SLOT_CTRL_COND, .TA_SLOT_CTRL_EDGE, .TA_SLOT_CTRL_SEL]

theorem slotReg_parts (k : Nat) : (slotReg k).parts = [(.TA_SLOT_CTRL_EN, k, 31), (.TA_SLOT_CTRL_ARM, k, 30), (.TA_SLOT_CTRL_FWD, k, 29),
    (.TA_SLOT_CTRL_MODE, k, 26), (.TA_SLOT_CTRL_SRC, k, 22), (.TA_SLOT_CTRL_COND, k, 20), (.TA_SLOT_CTRL_EDGE, k, 18), (.TA_SLOT_CTRL_SEL, k, 0)] := by
  have inst : (slotReg k).inst = k := by
    have bi : (slotReg k).inst = 0 * (slotReg k).card.count + k := rfl
    omega
  have fields : (slotReg k).card.fields = [.TA_SLOT_CTRL_EN, .TA_SLOT_CTRL_ARM, .TA_SLOT_CTRL_FWD, .TA_SLOT_CTRL_MODE, .TA_SLOT_CTRL_SRC,
    .TA_SLOT_CTRL_COND, .TA_SLOT_CTRL_EDGE, .TA_SLOT_CTRL_SEL] := rfl
  have one : ∀ f ∈ [Fld.TA_SLOT_CTRL_EN, .TA_SLOT_CTRL_ARM, .TA_SLOT_CTRL_FWD, .TA_SLOT_CTRL_MODE, .TA_SLOT_CTRL_SRC,
    .TA_SLOT_CTRL_COND, .TA_SLOT_CTRL_EDGE, .TA_SLOT_CTRL_SEL], f.spec.rep = 1 := by decide
  have place : (slotReg k).parts = (slotReg k).card.fields.map (fun f => (f, k, f.spec.lo)) := by
    unfold RegAt.parts
    rw [inst, fields, List.map_eq_flatMap]
    refine List.flatMap_congr (fun f hf => ?_)
    rw [one f hf]
    simp
  rw [place, fields]
  rfl

theorem slotReg_keys_nodup (k : Nat) : ((slotReg k).parts.map (fun y => (y.1, y.2.1))).Nodup := by
  rw [slotReg_parts]
  simp

/-- A write of TA_SLOT_CTRL: EN takes its bit; the configuration takes its bits unless the slot was enabled outside safe state (R20). -/
theorem Dev.slotWrite_rd (d : Dev) (k v : Nat) (run : Bool) : let e := d.writeReg (slotReg k) .whole v run
    e.rd .TA_SLOT_CTRL_EN k = bits (v % 2 ^ 64) 31 1 ∧
      ∀ x ∈ [(Fld.TA_SLOT_CTRL_FWD, 29, 1), (.TA_SLOT_CTRL_MODE, 26, 2), (.TA_SLOT_CTRL_SRC, 22, 4), (.TA_SLOT_CTRL_COND, 20, 2), (.TA_SLOT_CTRL_EDGE, 18, 2),
        (.TA_SLOT_CTRL_SEL, 0, 14)], e.rd x.1 k = if run && !d.on .FC_STATE_SAFE 0 then d.rd x.1 k else bits (v % 2 ^ 64) x.2.1 x.2.2 := by
  intro e
  have hreg : ((slotReg k).card.reg == Reg.BR_CTRL) = false := rfl
  have rd (f : Fld) (lo : Nat) (hx : (f, k, lo) ∈ (slotReg k).parts) (hn : f ∉ notedFields) :=
    Dev.writeReg_rd d (slotReg k) .whole v run (slotReg_keys_nodup k) (f, k, lo) hx hn
  rw [slotReg_parts] at rd
  simp only [hreg, Bool.or_false] at rd
  refine ⟨rd .TA_SLOT_CTRL_EN 31 (by simp) (by decide), fun x hx => ?_⟩
  simp only [List.mem_cons, List.not_mem_nil, or_false] at hx
  rcases hx with rfl | rfl | rfl | rfl | rfl | rfl
  · exact rd .TA_SLOT_CTRL_FWD 29 (by simp) (by decide)
  · exact rd .TA_SLOT_CTRL_MODE 26 (by simp) (by decide)
  · exact rd .TA_SLOT_CTRL_SRC 22 (by simp) (by decide)
  · exact rd .TA_SLOT_CTRL_COND 20 (by simp) (by decide)
  · exact rd .TA_SLOT_CTRL_EDGE 18 (by simp) (by decide)
  · exact rd .TA_SLOT_CTRL_SEL 0 (by simp) (by decide)

theorem Dev.slotWrite_other (d : Dev) (k v : Nat) (run : Bool) (g : Fld) (j : Nat) (hg : g ∉ Fld.TA_SLOT_CTRL_EN :: slotFields ∨ j ≠ k)
    (hr : run = false ∨ (g, j) ∉ [(Fld.DEV_REFUSED_VALID, 0), (.DEV_REFUSED_MORE, 0), (.DEV_REFUSED_KIND, 0), (.DEV_REFUSED_ADDR, 0)]) :
    (d.writeReg (slotReg k) .whole v run).rd g j = d.rd g j := by
  by_cases harm : g = .TA_SLOT_CTRL_ARM ∧ j = k
  · obtain ⟨rfl, rfl⟩ := harm
    exact Dev.writeReg_rd d (slotReg j) .whole v run (slotReg_keys_nodup j) (.TA_SLOT_CTRL_ARM, j, 30) (by rw [slotReg_parts]; simp)
      (show Fld.TA_SLOT_CTRL_ARM ∉ notedFields by decide)
  · refine Dev.writeReg_other d (slotReg k) .whole v run (slotReg_keys_nodup k) g j (fun m => ?_) hr
    rw [slotReg_parts] at m
    have keys : (g = .TA_SLOT_CTRL_ARM ∨ g ∈ Fld.TA_SLOT_CTRL_EN :: slotFields) ∧ j = k := by
      simp only [List.map_cons, List.map_nil, List.mem_cons, Prod.mk.injEq, List.not_mem_nil, or_false] at m
      simp only [slotFields, List.mem_cons, List.not_mem_nil, or_false]
      tauto
    exact keys.1.elim (fun h => harm ⟨h, keys.2⟩) (fun h => hg.elim (fun n => n h) (fun n => n keys.2))

/-- Whether a slot can never fire depends on its configuration and the span's latency alone (R273, R280). -/
theorem Dev.badSlot_congr {d e : Dev} {k : Nat} (h : ∀ f ∈ slotFields, e.rd f k = d.rd f k) (hl : e.rd .TA_SPAN_LAT 0 = d.rd .TA_SPAN_LAT 0) :
    e.badSlot k = d.badSlot k := by
  simp only [Dev.badSlot, Dev.on, hl, h .TA_SLOT_CTRL_SRC (by decide), h .TA_SLOT_CTRL_COND (by decide), h .TA_SLOT_CTRL_EDGE (by decide),
    h .TA_SLOT_CTRL_MODE (by decide), h .TA_SLOT_CTRL_FWD (by decide)]

/-- The status fields of a slot that its enabling writes. -/
def slotOnFields : List Fld := [.TA_SLOT_STATUS_SEQ, .TA_SLOT_STATUS_HELDOFF, .TA_SLOT_STATUS_ARMED, .TA_SLOT_STATUS_BADCFG]

/-- A slot enabled: its counts are 0, it is armed, what it was is forgotten (R271). -/
theorem Dev.slotOn_spec (d : Dev) (k : Nat) : (d.slotOn k).rd .TA_SLOT_STATUS_SEQ k = 0 ∧ (d.slotOn k).rd .TA_SLOT_STATUS_HELDOFF k = 0 ∧
    (d.slotOn k).rd .TA_SLOT_STATUS_ARMED k = 1 ∧ (d.slotOn k).rd .TA_SLOT_STATUS_BADCFG k = b2n (d.badSlot k) ∧
    (∀ g j, (g ∉ slotOnFields ∨ j ≠ k) → (d.slotOn k).rd g j = d.rd g j) ∧
    (∀ j, (d.slotOn k).slot j = if j = k then { sigAt := d.sigNo, autoAt := d.bed } else d.slot j) := by
  have armed : 1 % 2 ^ Fld.TA_SLOT_STATUS_ARMED.spec.width = 1 := rfl
  have bad : b2n (d.badSlot k) % 2 ^ Fld.TA_SLOT_STATUS_BADCFG.spec.width = b2n (d.badSlot k) := by cases d.badSlot k <;> rfl
  unfold Dev.slotOn
  simp only [Dev.upSlot_reads, Dev.upSlot_slot]
  refine ⟨?_, ?_, ?_, ?_, fun g j h => ?_, fun j => ?_⟩
  · simp [Dev.wr_rd, Dev.set1_rd, Dev.clr]
  · simp [Dev.wr_rd, Dev.set1_rd, Dev.clr]
  · simp [Dev.wr_rd, Dev.set1_rd, armed]
  · simp [bad]
  · have ne : ∀ f ∈ slotOnFields, ¬(g = f ∧ j = k) := by
      rintro f hf ⟨rfl, rfl⟩
      exact h.elim (fun h => h hf) (fun h => h rfl)
    simp only [slotOnFields, List.mem_cons, List.not_mem_nil, or_false, forall_eq_or_imp, forall_eq] at ne
    obtain ⟨h1, h2, h3, h4⟩ := ne
    simp only [Dev.wr_rd, Dev.set1_rd, Dev.clr, h1, h2, h3, h4, if_false]
  · simp

/-- ARM of a slot: a SINGLE one is armed, nothing else changes (R276). -/
theorem Dev.slotRearm_spec (d : Dev) (k : Nat) : (d.slotRearm k).rd .TA_SLOT_STATUS_ARMED k = (if d.rd .TA_SLOT_CTRL_MODE k = 2 then 1
      else d.rd .TA_SLOT_STATUS_ARMED k) ∧ (∀ g j, (g ≠ .TA_SLOT_STATUS_ARMED ∨ j ≠ k) → (d.slotRearm k).rd g j = d.rd g j) ∧
    (d.slotRearm k).records = d.records := by
  have armed : 1 % 2 ^ Fld.TA_SLOT_STATUS_ARMED.spec.width = 1 := rfl
  unfold Dev.slotRearm
  by_cases h : d.rd .TA_SLOT_CTRL_MODE k = 2
  · rw [if_pos h]
    refine ⟨by simp [Dev.set1_rd, armed, h], fun g j hg => ?_, rfl⟩
    rw [Dev.set1_rd, if_neg]
    rintro ⟨rfl, rfl⟩
    exact hg.elim (fun h => h rfl) (fun h => h rfl)
  · rw [if_neg h]
    exact ⟨by rw [if_neg h], fun _ _ _ => rfl, rfl⟩

theorem Dev.slots_of_records {d e : Dev} (h : e.records = d.records) : e.slots = d.slots ∧ e.sigNo = d.sigNo ∧ e.bed = d.bed := by
  have slots := congrArg Dev.slots h
  have sigNo := congrArg Dev.sigNo h
  have bed := congrArg Dev.bed h
  exact ⟨slots, sigNo, bed⟩

theorem Dev.slot_congr {d e : Dev} (h : e.slots = d.slots) (k : Nat) : e.slot k = d.slot k := by rw [Dev.slot, h, Dev.slot]

/-- A write that enables a slot. -/
theorem Dev.slotCtrl_enables {d e : Dev} {k v : Nat} (hen : d.on .TA_SLOT_CTRL_EN k = false) (hv : bits (v % 2 ^ 64) 31 1 = 1) (he : e = d.slotCtrl k v) :
    (∀ g j, e.rd g j = ((d.writeReg (slotReg k) .whole v false).slotOn k).rd g j) ∧
      e.slots = ((d.writeReg (slotReg k) .whole v false).slotOn k).slots := by
  have on : (d.writeReg (slotReg k) .whole v false).on .TA_SLOT_CTRL_EN k = true := by
    rw [Dev.on, (d.slotWrite_rd k v false).1, hv]
    rfl
  have eq : e = if bitAt v 30 then ((d.writeReg (slotReg k) .whole v false).slotOn k).slotRearm k else (d.writeReg (slotReg k) .whole v false).slotOn k := by
    rw [he, Dev.slotCtrl, hen]
    simp only [on, Bool.not_false, Bool.and_self, if_true]
  obtain ⟨-, -, armed, -⟩ := (d.writeReg (slotReg k) .whole v false).slotOn_spec k
  obtain ⟨same, other, records⟩ := ((d.writeReg (slotReg k) .whole v false).slotOn k).slotRearm_spec k
  cases hb : bitAt v 30
  · rw [eq, hb, if_neg Bool.false_ne_true]
    exact ⟨fun _ _ => rfl, rfl⟩
  · rw [eq, hb, if_pos rfl]
    refine ⟨fun g j => ?_, (Dev.slots_of_records records).1⟩
    by_cases hg : g = .TA_SLOT_STATUS_ARMED ∧ j = k
    · obtain ⟨rfl, rfl⟩ := hg
      rw [same, armed, ite_self]
    · exact other g j (not_and_or.mp hg)

theorem slotEnable_acts (s : State) (k : Nat) (v : Word) (hk : k < 16) (hr : s.dev.hostReady = true) (hen : s.dev.on .TA_SLOT_CTRL_EN k = false) :
    Acts (.slotEnable k v) s (fun e => e.on .TA_SLOT_CTRL_EN k = true ∧ e.rd .TA_SLOT_CTRL_MODE k = bits v.toNat 26 2 ∧
      e.rd .TA_SLOT_CTRL_SRC k = bits v.toNat 22 4 ∧ e.rd .TA_SLOT_CTRL_COND k = bits v.toNat 20 2 ∧ e.rd .TA_SLOT_CTRL_EDGE k = bits v.toNat 18 2 ∧
      e.rd .TA_SLOT_CTRL_SEL k = bits v.toNat 0 14 ∧ e.rd .TA_SLOT_CTRL_FWD k = bits v.toNat 29 1 ∧
      e.rd .TA_SLOT_STATUS_SEQ k = 0 ∧ e.rd .TA_SLOT_STATUS_HELDOFF k = 0 ∧ e.on .TA_SLOT_STATUS_ARMED k = true ∧
      (e.on .TA_SLOT_STATUS_BADCFG k = true ↔ e.badSlot k = true) ∧ (e.slot k).evs = [] ∧ (e.slot k).fires = [] ∧
      (e.slot k).autoAt = s.dev.bed ∧ (∀ j, j ≠ k → e.slot j = s.dev.slot j) ∧
      s.dev.keepsBut e [(.TA_SLOT_CTRL_EN, k), (.TA_SLOT_CTRL_FWD, k), (.TA_SLOT_CTRL_MODE, k), (.TA_SLOT_CTRL_SRC, k), (.TA_SLOT_CTRL_COND, k),
        (.TA_SLOT_CTRL_EDGE, k), (.TA_SLOT_CTRL_SEL, k), (.TA_SLOT_STATUS_SEQ, k), (.TA_SLOT_STATUS_HELDOFF, k), (.TA_SLOT_STATUS_ARMED, k),
        (.TA_SLOT_STATUS_BADCFG, k)]) := by
  have word : setBit (v.toNat % 2 ^ 32) 31 true % 2 ^ 64 = setBit (v.toNat % 2 ^ 32) 31 true :=
    Nat.mod_eq_of_lt (Nat.lt_trans (setBit_lt (m := 32) (Nat.mod_lt _ (by decide)) (by decide)) (by decide))
  have en : bits (setBit (v.toNat % 2 ^ 32) 31 true % 2 ^ 64) 31 1 = 1 := by
    rw [word, bits_one, bitAt_setBit, if_pos rfl]
    rfl
  have below (lo w : Nat) (h : lo + w ≤ 31) : bits (setBit (v.toNat % 2 ^ 32) 31 true % 2 ^ 64) lo w = bits v.toNat lo w := by
    rw [word, bits_setBit_other h, bits_mod (by omega)]
  obtain ⟨rd, slots⟩ := Dev.slotCtrl_enables (d := s.dev.reached) (k := k) (by simpa using hen) en rfl
  refine acts_hosted rfl (decide_eq_true hk) hr ?_
  generalize s.dev.reached.slotCtrl k (setBit (v.toNat % 2 ^ 32) 31 true) = e at rd slots ⊢
  have records := s.dev.reached.writeReg_records (slotReg k) .whole (setBit (v.toNat % 2 ^ 32) 31 true) false
  obtain ⟨enabled, config⟩ := s.dev.reached.slotWrite_rd k (setBit (v.toNat % 2 ^ 32) 31 true) false
  have other := s.dev.reached.slotWrite_other k (setBit (v.toNat % 2 ^ 32) 31 true) false
  generalize s.dev.reached.writeReg (slotReg k) .whole (setBit (v.toNat % 2 ^ 32) 31 true) false = w at rd slots records enabled config other
  obtain ⟨wslots, -, wbed⟩ := Dev.slots_of_records records
  obtain ⟨seq, held, armed, bad, rest, slot⟩ := w.slotOn_spec k
  simp only [Bool.false_and, Bool.false_eq_true, if_false] at config
  have taken (f : Fld) (lo n : Nat) (hf : f ∉ slotOnFields) (hx : (f, lo, n) ∈ [(Fld.TA_SLOT_CTRL_FWD, 29, 1), (.TA_SLOT_CTRL_MODE, 26, 2), (.TA_SLOT_CTRL_SRC, 22, 4),
      (.TA_SLOT_CTRL_COND, 20, 2), (.TA_SLOT_CTRL_EDGE, 18, 2), (.TA_SLOT_CTRL_SEL, 0, 14)]) (h : lo + n ≤ 31) : e.rd f k = bits v.toNat lo n := by
    rw [rd, rest f k (.inl hf), config (f, lo, n) hx, below lo n h]
  have badSame : e.badSlot k = w.badSlot k := by
    refine Dev.badSlot_congr (fun f hf => ?_) ?_
    · have out : ∀ f ∈ slotFields, f ∉ slotOnFields := by decide
      rw [rd, rest f k (.inl (out f hf))]
    · rw [rd, rest _ _ (.inl (by decide))]
  have eslot (j : Nat) : e.slot j = if j = k then { sigAt := w.sigNo, autoAt := w.bed } else s.dev.slot j := by
    rw [Dev.slot_congr slots, slot, Dev.slot_congr wslots]
    rfl
  refine ⟨?_, taken _ _ _ (by decide) (by decide) (by decide), taken _ _ _ (by decide) (by decide) (by decide), taken _ _ _ (by decide) (by decide) (by decide),
    taken _ _ _ (by decide) (by decide) (by decide), taken _ _ _ (by decide) (by decide) (by decide), taken _ _ _ (by decide) (by decide) (by decide),
    by rw [rd, seq], by rw [rd, held], by rw [Dev.on, rd, armed]; rfl, ?_, by rw [eslot, if_pos rfl], by rw [eslot, if_pos rfl], ?_,
    fun j hj => by rw [eslot, if_neg hj], fun g j hg => ?_⟩
  · rw [Dev.on, rd, rest _ _ (.inl (by decide)), enabled, en]
    rfl
  · rw [Dev.on, rd, bad, badSame]
    cases w.badSlot k <;> decide
  · rw [eslot, if_pos rfl]
    exact wbed
  · have at_ (f : Fld) (hf : f ∈ (Fld.TA_SLOT_CTRL_EN :: slotFields) ++ slotOnFields) : ¬(g = f ∧ j = k) := by
      rintro ⟨rfl, rfl⟩
      refine hg (List.mem_map_of_mem (f := fun f => (f, j)) (l := (Fld.TA_SLOT_CTRL_EN :: slotFields) ++ slotOnFields) hf)
    have apart (l : List Fld) (hl : l ⊆ (Fld.TA_SLOT_CTRL_EN :: slotFields) ++ slotOnFields) : g ∉ l ∨ j ≠ k := by
      by_cases hj : j = k
      · exact .inl (fun m => at_ g (hl m) ⟨rfl, hj⟩)
      · exact .inr hj
    rw [rd, rest g j (apart _ (List.subset_append_right _ _)), other g j (apart _ (List.subset_append_left _ _)) (.inl rfl)]
    exact (Dev.reached_frame s.dev).1 g j

/-- A write that arms an enabled slot. -/
theorem Dev.slotCtrl_arms {d : Dev} {k v : Nat} (hen : d.on .TA_SLOT_CTRL_EN k = true) (hv : bitAt v 30 = true) :
    d.slotCtrl k v = (if (d.writeReg (slotReg k) .whole v true).on .TA_SLOT_CTRL_EN k && (d.writeReg (slotReg k) .whole v true).badSlot k then
      (d.writeReg (slotReg k) .whole v true).set1 .TA_SLOT_STATUS_BADCFG k else d.writeReg (slotReg k) .whole v true).slotRearm k := by
  rw [Dev.slotCtrl, hen]
  simp only [Bool.not_true, Bool.false_and, Bool.false_eq_true, if_false, hv, if_true]

theorem slotArm_acts (s : State) (k : Nat) (v : Word) (hk : k < 16) (hr : s.dev.hostReady = true) (hen : s.dev.on .TA_SLOT_CTRL_EN k = true)
    (hsafe : s.dev.on .FC_STATE_SAFE 0 = false) :
    Acts (.slotArm k v) s (fun e => (s.dev.rd .TA_SLOT_CTRL_MODE k = 2 → e.on .TA_SLOT_STATUS_ARMED k = true) ∧
      (s.dev.rd .TA_SLOT_CTRL_MODE k ≠ 2 → e.rd .TA_SLOT_STATUS_ARMED k = s.dev.rd .TA_SLOT_STATUS_ARMED k) ∧
      e.on .TA_SLOT_CTRL_EN k = bitAt v.toNat 31 ∧ e.slots = s.dev.slots ∧
      (bitAt v.toNat 31 = false ∨ s.dev.badSlot k = false → e.rd .TA_SLOT_STATUS_BADCFG k = s.dev.rd .TA_SLOT_STATUS_BADCFG k) ∧
      s.dev.keepsBut e [(.TA_SLOT_CTRL_EN, k), (.TA_SLOT_STATUS_BADCFG, k), (.TA_SLOT_STATUS_ARMED, k), (.DEV_REFUSED_VALID, 0), (.DEV_REFUSED_MORE, 0), (.DEV_REFUSED_KIND, 0),
        (.DEV_REFUSED_ADDR, 0)]) := by
  have word : setBit (v.toNat % 2 ^ 32) 30 true % 2 ^ 64 = setBit (v.toNat % 2 ^ 32) 30 true :=
    Nat.mod_eq_of_lt (Nat.lt_trans (setBit_lt (m := 32) (Nat.mod_lt _ (by decide)) (by decide)) (by decide))
  have en : bits (setBit (v.toNat % 2 ^ 32) 30 true % 2 ^ 64) 31 1 = b2n (bitAt v.toNat 31) := by
    rw [word, bits_one, bitAt_setBit, if_neg (by decide), bitAt_mod _ _ _ (by decide)]
  have arm : bitAt (setBit (v.toNat % 2 ^ 32) 30 true) 30 = true := by rw [bitAt_setBit, if_pos rfl]
  have eq := Dev.slotCtrl_arms (d := s.dev.reached) (k := k) (by simpa using hen) arm
  refine acts_hosted rfl (decide_eq_true hk) hr ?_
  rw [eq]
  have records := s.dev.reached.writeReg_records (slotReg k) .whole (setBit (v.toNat % 2 ^ 32) 30 true) true
  obtain ⟨enabled, config⟩ := s.dev.reached.slotWrite_rd k (setBit (v.toNat % 2 ^ 32) 30 true) true
  have other := s.dev.reached.slotWrite_other k (setBit (v.toNat % 2 ^ 32) 30 true) true
  generalize s.dev.reached.writeReg (slotReg k) .whole (setBit (v.toNat % 2 ^ 32) 30 true) true = w at records enabled config other ⊢
  have frozen : (s.dev.reached.on .FC_STATE_SAFE 0) = false := by simpa using hsafe
  simp only [frozen, Bool.not_false, Bool.and_self, if_true, (Dev.reached_frame s.dev).1] at config
  simp only [(Dev.reached_frame s.dev).1] at other
  have kept : ∀ f ∈ slotFields, w.rd f k = s.dev.rd f k := by
    have cfg (f : Fld) (lo n : Nat) (hx : (f, lo, n) ∈ [(Fld.TA_SLOT_CTRL_FWD, 29, 1), (.TA_SLOT_CTRL_MODE, 26, 2), (.TA_SLOT_CTRL_SRC, 22, 4),
      (.TA_SLOT_CTRL_COND, 20, 2), (.TA_SLOT_CTRL_EDGE, 18, 2), (.TA_SLOT_CTRL_SEL, 0, 14)]) : w.rd f k = s.dev.rd f k := config (f, lo, n) hx
    intro f hf
    simp only [slotFields, List.mem_cons, List.not_mem_nil, or_false] at hf
    rcases hf with rfl | rfl | rfl | rfl | rfl | rfl
    · exact cfg _ 29 1 (by decide)
    · exact cfg _ 26 2 (by decide)
    · exact cfg _ 22 4 (by decide)
    · exact cfg _ 20 2 (by decide)
    · exact cfg _ 18 2 (by decide)
    · exact cfg _ 0 14 (by decide)
  have kept2 (g : Fld) (j : Nat) (hg : g ≠ .TA_SLOT_CTRL_EN ∨ j ≠ k)
      (hr : (g, j) ∉ [(Fld.DEV_REFUSED_VALID, 0), (.DEV_REFUSED_MORE, 0), (.DEV_REFUSED_KIND, 0), (.DEV_REFUSED_ADDR, 0)]) : w.rd g j = s.dev.rd g j := by
    by_cases hf : g ∈ slotFields ∧ j = k
    · rw [hf.2, kept g hf.1]
    · refine other g j ?_ (.inr hr)
      rw [List.mem_cons, not_or]
      tauto
  have bad : w.badSlot k = s.dev.badSlot k := Dev.badSlot_congr kept (kept2 _ _ (.inl (by decide)) (by decide))
  have on : w.on .TA_SLOT_CTRL_EN k = bitAt v.toNat 31 := by
    rw [Dev.on, enabled, en]
    cases bitAt v.toNat 31 <;> rfl
  rw [on, bad]
  obtain ⟨m, hm⟩ : ∃ m, m = if (bitAt v.toNat 31 && s.dev.badSlot k) = true then w.set1 .TA_SLOT_STATUS_BADCFG k else w := ⟨_, rfl⟩
  rw [← hm]
  have mrd (g : Fld) (j : Nat) (h : g ≠ .TA_SLOT_STATUS_BADCFG ∨ j ≠ k ∨ (bitAt v.toNat 31 && s.dev.badSlot k) = false) : m.rd g j = w.rd g j := by
    rw [hm]
    split
    · rw [Dev.set1_rd, if_neg]
      rintro ⟨rfl, rfl⟩
      simp_all
    · rfl
  have mrecords : m.records = w.records := by
    rw [hm]
    split <;> rfl
  obtain ⟨armed, rest, rearmed⟩ := m.slotRearm_spec k
  have mode : m.rd .TA_SLOT_CTRL_MODE k = s.dev.rd .TA_SLOT_CTRL_MODE k := by rw [mrd _ _ (.inl (by decide)), kept _ (by decide)]
  rw [mode, mrd _ _ (.inl (by decide)), kept2 _ _ (.inl (by decide)) (by simp)] at armed
  refine ⟨fun h => ?_, fun h => ?_, ?_, ?_, fun h => ?_, fun g j hg => ?_⟩
  · rw [Dev.on, armed, if_pos h]
    rfl
  · rw [armed, if_neg h]
  · rw [Dev.on, rest _ _ (.inl (by decide)), mrd _ _ (.inl (by decide))]
    exact on
  · exact (Dev.slots_of_records (rearmed.trans (mrecords.trans records))).1
  · rw [rest _ _ (.inl (by decide)), mrd _ _ (.inr (.inr (by rcases h with h | h <;> simp [h]))), kept2 _ _ (.inl (by decide)) (by simp)]
  · simp only [List.mem_cons, Prod.mk.injEq, List.not_mem_nil, or_false, not_or] at hg
    obtain ⟨h1, h2, h3, h4, h5, h6, h7⟩ := hg
    rw [rest g j (not_and_or.mp h3), mrd g j ((not_and_or.mp h2).imp_right .inl), kept2 g j (not_and_or.mp h1) (by simp [h4, h5, h6, h7])]

/-! ### TA_FORCE -/

theorem Dev.slotEvent_slot (d : Dev) (k j : Nat) (e : TrigEv) :
    (d.slotEvent k e).slot j = if j = k then { d.slot k with evs := (d.slot k).evs ++ [e] } else d.slot j := Dev.upSlot_slot _ _ _ _

/-- An event at each slot of a list that names each once. -/
theorem Dev.slotEvents (l : List Nat) (hl : l.Nodup) (d : Dev) (ev : Dev → TrigEv) (hev : ∀ (d : Dev) k e, ev (d.slotEvent k e) = ev d) (j : Nat) :
    (l.foldl (fun d k => d.slotEvent k (ev d)) d).slot j = if j ∈ l then { d.slot j with evs := (d.slot j).evs ++ [ev d] } else d.slot j := by
  induction l generalizing d with
  | nil => simp
  | cons k t ih =>
    obtain ⟨hk, ht⟩ := List.nodup_cons.mp hl
    rw [List.foldl_cons, ih ht, hev, Dev.slotEvent_slot]
    by_cases h : j = k
    · subst h
      simp [hk]
    · simp [h]

theorem taForce_acts (s : State) (v : Word) (hr : s.dev.hostReady = true) :
    Acts (.taForce v) s (fun e => s.dev.keepsBut e [] ∧ (∀ k, k < 16 →
      let n := pointAfter (s.dev.bed / cycleTicks * cycleTicks)
      if bitAt v.toNat k = true ∧ s.dev.slotLive k = true ∧ s.dev.rd .TA_SLOT_CTRL_SRC k = 7 then
        (e.slot k).evs = (s.dev.slot k).evs ++ [⟨n, n, false, false, false⟩] ∧ (e.slot k).fires = (s.dev.slot k).fires
      else e.slot k = s.dev.slot k)) := by
  have slots := Dev.slotEvents ((List.range 16).filter (fun k => bitAt v.toNat k && s.dev.reached.slotLive k && s.dev.reached.rd .TA_SLOT_CTRL_SRC k == 7))
    (List.nodup_range.filter _) s.dev.reached
    (fun d => ⟨pointAfter (d.bed / cycleTicks * cycleTicks), pointAfter (d.bed / cycleTicks * cycleTicks), false, false, false⟩) (fun _ _ _ => rfl)
  refine acts_hosted rfl rfl hr ⟨fun g j _ => ?_, fun k hk => ?_⟩
  · exact foldl_keeps (fun d : Dev => d.rd g j) _ _ _ (fun _ _ _ => rfl)
  · have slot := slots k
    have named : k ∈ (List.range 16).filter (fun k => bitAt v.toNat k && s.dev.reached.slotLive k && s.dev.reached.rd .TA_SLOT_CTRL_SRC k == 7) ↔
        bitAt v.toNat k = true ∧ s.dev.slotLive k = true ∧ s.dev.rd .TA_SLOT_CTRL_SRC k = 7 := by
      have live : s.dev.reached.slotLive k = s.dev.slotLive k := rfl
      simp [hk, live, and_assoc]
    rw [if_congr named rfl rfl] at slot
    dsimp only
    rw [Dev.taForce]
    split at slot
    · rw [if_pos ‹_›, slot]
      exact ⟨rfl, rfl⟩
    · rw [if_neg ‹_›, slot]
      rfl

end Sys2Proof.Machine
end

section
/-!
Obligation O47, second part. Firings (R274 to R280): the next event of a slot, what a firing leaves in the slot, and what it posts at the sites.
-/
namespace Sys2Proof.Machine

/-! ### The next event -/

/-- The earlier of two events, the first where they are equal. -/
def TrigEv.earlier (b x : TrigEv) : TrigEv := if x.n < b.n then x else b

theorem earliest_le (t : List TrigEv) (e : TrigEv) : ∀ y ∈ e :: t, (t.foldl TrigEv.earlier e).n ≤ y.n := by
  induction t generalizing e with
  | nil => simp
  | cons x t ih =>
    have first : (e.earlier x).n ≤ e.n ∧ (e.earlier x).n ≤ x.n := by
      unfold TrigEv.earlier
      split <;> omega
    rw [List.foldl_cons]
    intro y hy
    rcases List.mem_cons.mp hy with rfl | hy
    · exact Nat.le_trans (ih _ _ List.mem_cons_self) first.1
    · rcases List.mem_cons.mp hy with rfl | hy
      · exact Nat.le_trans (ih _ _ List.mem_cons_self) first.2
      · exact ih _ y (List.mem_cons_of_mem _ hy)

theorem Dev.nextEvent_spec {d : Dev} {k : Nat} {ev : TrigEv} {S : Slot} (h : d.nextEvent k = some (ev, S)) :
    S = { d.slotHears k with evs := (d.slotHears k).evs.erase ev } ∧ ∀ y ∈ (d.slotHears k).evs, ev.n ≤ y.n := by
  unfold Dev.nextEvent at h
  dsimp only at h
  split at h
  · cases h
  · next e t heq =>
    obtain ⟨rfl, rfl⟩ := Prod.mk.inj (Option.some.inj h)
    refine ⟨rfl, ?_⟩
    rw [heq]
    exact earliest_le t e

/-! ### The registers of a firing -/

/-- The registers and the late note of a firing of slot `k` on event `e`. -/
def Dev.fireNoted (d : Dev) (k : Nat) (e : TrigEv) (co : Bool) : Dev :=
  let d1 := (((d.wr .TA_SLOT_STATUS_SEQ k ((d.rd .TA_SLOT_STATUS_SEQ k + 1) % 2 ^ 32)).set1 .TA_SLOT_STATUS_FIRED k).wr .TA_SLOT_STATUS_FORCED k
    (b2n e.forced)).wr .TA_SLOT_LAST_T k (e.t % 2 ^ 64)
  let d2 := if co then d1.set1 .TA_SLOT_STATUS_COINCIDENT k else d1
  let d3 := if d.rd .TA_SLOT_CTRL_MODE k = 2 then d2.clr .TA_SLOT_STATUS_ARMED k else d2
  if e.late then (d3.set1 .TA_SLOT_STATUS_LATE k).raise 0x2E0 k else d3

theorem Dev.fireNoted_rd (d : Dev) (k : Nat) (e : TrigEv) (co : Bool) (g : Fld) (j : Nat) : (d.fireNoted k e co).rd g j =
    if e.late = true ∧ g = .TA_SLOT_STATUS_LATE ∧ j = k then 1
    else if d.rd .TA_SLOT_CTRL_MODE k = 2 ∧ g = .TA_SLOT_STATUS_ARMED ∧ j = k then 0
    else if co = true ∧ g = .TA_SLOT_STATUS_COINCIDENT ∧ j = k then 1
    else if g = .TA_SLOT_LAST_T ∧ j = k then e.t % 2 ^ 64
    else if g = .TA_SLOT_STATUS_FORCED ∧ j = k then b2n e.forced
    else if g = .TA_SLOT_STATUS_FIRED ∧ j = k then 1
    else if g = .TA_SLOT_STATUS_SEQ ∧ j = k then (d.rd .TA_SLOT_STATUS_SEQ k + 1) % 2 ^ 32 else d.rd g j := by
  have late : 1 % 2 ^ Fld.TA_SLOT_STATUS_LATE.spec.width = 1 := rfl
  have coinc : 1 % 2 ^ Fld.TA_SLOT_STATUS_COINCIDENT.spec.width = 1 := rfl
  have fired : 1 % 2 ^ Fld.TA_SLOT_STATUS_FIRED.spec.width = 1 := rfl
  have last : e.t % 2 ^ 64 % 2 ^ Fld.TA_SLOT_LAST_T.spec.width = e.t % 2 ^ 64 := Nat.mod_mod _ _
  have seq : (d.rd .TA_SLOT_STATUS_SEQ k + 1) % 2 ^ 32 % 2 ^ Fld.TA_SLOT_STATUS_SEQ.spec.width = (d.rd .TA_SLOT_STATUS_SEQ k + 1) % 2 ^ 32 := Nat.mod_mod _ _
  have forced : b2n e.forced % 2 ^ Fld.TA_SLOT_STATUS_FORCED.spec.width = b2n e.forced := by cases e.forced <;> rfl
  have base (g : Fld) (j : Nat) : ((((d.wr .TA_SLOT_STATUS_SEQ k ((d.rd .TA_SLOT_STATUS_SEQ k + 1) % 2 ^ 32)).set1 .TA_SLOT_STATUS_FIRED k).wr
      .TA_SLOT_STATUS_FORCED k (b2n e.forced)).wr .TA_SLOT_LAST_T k (e.t % 2 ^ 64)).rd g j =
      if g = .TA_SLOT_LAST_T ∧ j = k then e.t % 2 ^ 64
      else if g = .TA_SLOT_STATUS_FORCED ∧ j = k then b2n e.forced
      else if g = .TA_SLOT_STATUS_FIRED ∧ j = k then 1
      else if g = .TA_SLOT_STATUS_SEQ ∧ j = k then (d.rd .TA_SLOT_STATUS_SEQ k + 1) % 2 ^ 32 else d.rd g j := by
    rw [Dev.wr_rd, Dev.wr_rd, Dev.set1_rd, Dev.wr_rd, last, forced, fired, seq]
  unfold Dev.fireNoted
  dsimp only
  generalize (((d.wr .TA_SLOT_STATUS_SEQ k ((d.rd .TA_SLOT_STATUS_SEQ k + 1) % 2 ^ 32)).set1 .TA_SLOT_STATUS_FIRED k).wr
      .TA_SLOT_STATUS_FORCED k (b2n e.forced)).wr .TA_SLOT_LAST_T k (e.t % 2 ^ 64) = d1 at base
  have d2 (g : Fld) (j : Nat) : (if co then d1.set1 .TA_SLOT_STATUS_COINCIDENT k else d1).rd g j =
      if co = true ∧ g = .TA_SLOT_STATUS_COINCIDENT ∧ j = k then 1 else d1.rd g j := by
    cases co
    · simp
    · simp [Dev.set1_rd, coinc]
  generalize (if co then d1.set1 .TA_SLOT_STATUS_COINCIDENT k else d1) = m at d2
  have d3 (g : Fld) (j : Nat) : (if d.rd .TA_SLOT_CTRL_MODE k = 2 then m.clr .TA_SLOT_STATUS_ARMED k else m).rd g j =
      if d.rd .TA_SLOT_CTRL_MODE k = 2 ∧ g = .TA_SLOT_STATUS_ARMED ∧ j = k then 0 else m.rd g j := by
    by_cases h : d.rd .TA_SLOT_CTRL_MODE k = 2 <;> simp [h, Dev.clr, Dev.wr_rd]
  generalize (if d.rd .TA_SLOT_CTRL_MODE k = 2 then m.clr .TA_SLOT_STATUS_ARMED k else m) = n at d3
  rw [← base, ← d2, ← d3]
  cases e.late
  · simp
  · have raised : ((n.set1 .TA_SLOT_STATUS_LATE k).raise 0x2E0 k).rd g j = (n.set1 .TA_SLOT_STATUS_LATE k).rd g j := rfl
    simp [raised, Dev.set1_rd, late]

theorem Dev.fireNoted_records (d : Dev) (k : Nat) (e : TrigEv) (co : Bool) : (d.fireNoted k e co).records = d.records ∧
    (d.fireNoted k e co).raised = if e.late then d.raised ++ [⟨0x2E0, k, 0, d.cycle⟩] else d.raised := by
  have cases_ : ∀ (late co : Bool) (c : Prop) [Decidable c] (d1 : Dev), d1.records = d.records → d1.raised = d.raised → d1.cycle = d.cycle →
      let m := if co then d1.set1 .TA_SLOT_STATUS_COINCIDENT k else d1
      let n := if c then m.clr .TA_SLOT_STATUS_ARMED k else m
      (if late then (n.set1 .TA_SLOT_STATUS_LATE k).raise 0x2E0 k else n).records = d.records ∧
        (if late then (n.set1 .TA_SLOT_STATUS_LATE k).raise 0x2E0 k else n).raised = if late then d.raised ++ [⟨0x2E0, k, 0, d.cycle⟩] else d.raised := by
    intro late co c _ d1 records raised cycle
    cases late <;> cases co <;> by_cases h : c <;> simp [h, records, raised, cycle]
  refine cases_ _ _ _ _ ?_ ?_ ?_
  · simp only [Dev.wr_records, Dev.set1_records]
  · simp only [Dev.wr_frame, Dev.set1_frame]
  · simp only [Dev.wr_reads, Dev.set1_reads]

/-! ### What a firing does to other slots and to the acquisitions (R278, R282) -/

/-- The block but for its registers, slots, acquisitions and tally. -/
def Dev.heard (d : Dev) : Dev := { d with regs := [], cyc := {}, slots := [], acqs := [], tl := {} }

theorem Dev.acqFire_kept (d : Dev) (f : Fire) (w : Nat) : (d.acqFire f w).regs = d.regs ∧ (d.acqFire f w).slots = d.slots ∧
    (d.acqFire f w).heard = d.heard := by
  unfold Dev.acqFire
  dsimp only
  (repeat' split) <;> exact ⟨rfl, rfl, rfl⟩

theorem Dev.acqFires_kept (l : List Nat) (d : Dev) (f : Fire) : (l.foldl (fun d w => d.acqFire f w) d).regs = d.regs ∧
    (l.foldl (fun d w => d.acqFire f w) d).slots = d.slots ∧ (l.foldl (fun d w => d.acqFire f w) d).heard = d.heard :=
  ⟨foldl_keeps Dev.regs _ _ _ (fun d w _ => (d.acqFire_kept f w).1), foldl_keeps Dev.slots _ _ _ (fun d w _ => (d.acqFire_kept f w).2.1),
    foldl_keeps Dev.heard _ _ _ (fun d w _ => (d.acqFire_kept f w).2.2)⟩

theorem Dev.markHigher_kept (d : Dev) (k n : Nat) : (∀ g j, g ≠ .TA_SLOT_STATUS_COINCIDENT → (d.markHigher k n).rd g j = d.rd g j) ∧
    (d.markHigher k n).slot k = d.slot k ∧ (d.markHigher k n).heard = d.heard := by
  have acqs {α : Type} (φ : Dev → α) (l : List Nat) (d : Dev) (hφ : ∀ d w a, φ (Dev.setAcq d w a) = φ d) : φ (l.foldl (fun d w =>
      match d.acq w with
      | some A =>
        match A.trig with
        | some g => if k < g.slot ∧ g.ev.n = n then d.setAcq w (some { A with trig := some { g with co := true } }) else d
        | none => d
      | none => d) d) = φ d := by
    refine foldl_keeps φ _ l d (fun d w _ => ?_)
    (repeat' split) <;> simp only [hφ]
  have slots {α : Type} (φ : Dev → α) (hφ : ∀ (d : Dev) (j : Nat) (f : Slot → Slot), k < j → φ ((d.set1 .TA_SLOT_STATUS_COINCIDENT j).upSlot j f) = φ d) :
      φ (((List.range 16).filter (fun j => decide (k < j) && (d.slot j).firedIn n)).foldl (fun d j =>
        (d.set1 .TA_SLOT_STATUS_COINCIDENT j).upSlot j (fun S => { S with fires := S.fires.map (fun f => if f.ev.n = n then { f with co := true } else f) })) d) =
      φ d := by
    refine foldl_keeps φ _ _ d (fun d j hj => hφ d j _ ?_)
    have named := (List.mem_filter.mp hj).2
    rw [Bool.and_eq_true, decide_eq_true_eq] at named
    exact named.1
  unfold Dev.markHigher
  refine ⟨fun g j hg => ?_, ?_, ?_⟩
  · refine (acqs (fun d => d.rd g j) _ _ (fun _ _ _ => rfl)).trans (slots (fun d => d.rd g j) (fun d i f _ => ?_))
    rw [(Dev.upSlot_reads _ _ _).1, Dev.set1_rd, if_neg (fun h => hg h.1)]
  · refine (acqs (fun d => d.slot k) _ _ (fun _ _ _ => rfl)).trans (slots (fun d => d.slot k) (fun d i f hi => ?_))
    rw [Dev.upSlot_slot, if_neg (Nat.ne_of_lt hi)]
    rfl
  · exact (acqs Dev.heard _ _ (fun _ _ _ => rfl)).trans (slots Dev.heard (fun _ _ _ _ => rfl))

/-! ### The firing itself -/

/-- A firing of slot `k` but for what it posts at sites, waits and jumps. -/
def Dev.fired (d : Dev) (k : Nat) (e : TrigEv) (co : Bool) : Dev :=
  (List.range 8).foldl (fun d' w => d'.acqFire ⟨k, d.rd .TA_SLOT_CTRL_SRC k, e, (d.rd .TA_SLOT_STATUS_SEQ k + 1) % 2 ^ 32, co⟩ w)
    ((((d.fireNoted k e co).upSlot k (fun S => { S with
      fires := ⟨k, d.rd .TA_SLOT_CTRL_SRC k, e, (d.rd .TA_SLOT_STATUS_SEQ k + 1) % 2 ^ 32, co⟩ :: S.fires, autoAt := max S.autoAt e.n })).markHigher k e.n).tally
      0x70 k 1)

theorem Dev.fire_eq (d : Dev) (k : Nat) (e : TrigEv) : d.fire k e =
    if e.forced || e.late then d.fired k e ((List.range k).any (fun j => (d.slot j).firedIn e.n))
    else (d.fired k e ((List.range k).any (fun j => (d.slot j).firedIn e.n))).fireActs k e.t := rfl

theorem Dev.tally_kept (d : Dev) (ev i : Nat) : (∀ k, (d.tally ev i 1).slot k = d.slot k) ∧ (d.tally ev i 1).heard = d.heard := ⟨fun _ => rfl, rfl⟩

theorem Dev.upSlot_heard (d : Dev) (k : Nat) (f : Slot → Slot) : (d.upSlot k f).heard = d.heard := rfl

theorem Dev.fired_spec {d m : Dev} {k : Nat} {e : TrigEv} {co : Bool} (hm : m = d.fired k e co) :
    (∀ g j, g ≠ .TA_SLOT_STATUS_COINCIDENT → m.rd g j = (d.fireNoted k e co).rd g j) ∧
      m.slot k = { d.slot k with
        fires := ⟨k, d.rd .TA_SLOT_CTRL_SRC k, e, (d.rd .TA_SLOT_STATUS_SEQ k + 1) % 2 ^ 32, co⟩ :: (d.slot k).fires, autoAt := max (d.slot k).autoAt e.n } ∧
      m.heard = (d.fireNoted k e co).heard := by
  obtain ⟨records, -⟩ := d.fireNoted_records k e co
  have noted : (d.fireNoted k e co).slot k = d.slot k := Dev.slot_congr (Dev.slots_of_records records).1 k
  generalize hf : (⟨k, d.rd .TA_SLOT_CTRL_SRC k, e, (d.rd .TA_SLOT_STATUS_SEQ k + 1) % 2 ^ 32, co⟩ : Fire) = f
  rw [Dev.fired, hf] at hm
  generalize hu : (d.fireNoted k e co).upSlot k (fun S => { S with fires := f :: S.fires, autoAt := max S.autoAt e.n }) = u at hm
  obtain ⟨regs, slots, heard⟩ := Dev.acqFires_kept (List.range 8) ((u.markHigher k e.n).tally 0x70 k 1) f
  obtain ⟨mrd, mslot, mheard⟩ := u.markHigher_kept k e.n
  rw [← hm] at regs slots heard
  refine ⟨fun g j hg => ?_, ?_, ?_⟩
  · rw [Dev.rd_congr regs, Dev.rd_congr (Dev.tally_regs _ _ _ _), mrd g j hg, ← hu, (Dev.upSlot_reads _ _ _).1]
  · rw [Dev.slot_congr slots, (Dev.tally_kept _ _ _).1 k, mslot, ← hu, Dev.upSlot_slot, if_pos rfl, noted]
  · rw [heard, (Dev.tally_kept _ _ _).2, mheard, ← hu, Dev.upSlot_heard]

/-- What the records of the block say of a firing before it posts: nothing but slots, acquisitions, the tally and what is raised. -/
theorem Dev.fired_units {d m : Dev} {k : Nat} {e : TrigEv} {co : Bool} (hm : m = d.fired k e co) :
    m.raised = (if e.late then d.raised ++ [⟨0x2E0, k, 0, d.cycle⟩] else d.raised) ∧ m.sites = d.sites ∧ m.signals = d.signals ∧ m.trigAt = d.trigAt := by
  obtain ⟨-, -, heard⟩ := Dev.fired_spec hm
  obtain ⟨records, raised⟩ := d.fireNoted_records k e co
  have raised1 := congrArg Dev.raised heard
  have sites1 := congrArg Dev.sites heard
  have signals1 := congrArg Dev.signals heard
  have trigAt1 := congrArg Dev.trigAt heard
  have sites := congrArg Dev.sites records
  have signals := congrArg Dev.signals records
  have trigAt := congrArg Dev.trigAt records
  exact ⟨Eq.trans raised1 raised, Eq.trans sites1 sites, Eq.trans signals1 signals, Eq.trans trigAt1 trigAt⟩

/-! ### The TRIG condition at the sites (R279) -/

/-- The firing at time `t` is the first at site `n` since its burst began. -/
def Dev.firstTrig (d : Dev) (n k t : Nat) : Prop := bitAt (d.site n).trigs k = false ∧ ∃ b, (d.site n).start = some b ∧ b ≤ t

theorem Dev.postTrig_cond (d : Dev) (n k t : Nat) : (bitAt (d.site n).trigs k ∨ !(d.site n).start.any (fun s => decide (s ≤ t))) ↔ ¬ d.firstTrig n k t := by
  unfold Dev.firstTrig
  cases (d.site n).start <;> cases bitAt (d.site n).trigs k <;> simp

theorem Dev.postTrig_later {d : Dev} {n k t : Nat} (h : ¬ d.firstTrig n k t) : d.postTrig n k t = d := by
  unfold Dev.postTrig
  exact if_pos ((d.postTrig_cond n k t).mpr h)

theorem Dev.postTrig_quiet (d : Dev) (n k t : Nat) : (d.postTrig n k t).quiet = d.quiet := by
  unfold Dev.postTrig
  dsimp only
  split
  · rfl
  · exact (Dev.foldl_quiet _ _ _ (fun d c => d.spanCond_quiet n c true _)).trans (((Dev.up_quiet _).1 n _).trans ((Dev.up_quiet d).1 n _))

theorem Dev.postTrig_site {d : Dev} {n k t : Nat} (h : d.firstTrig n k t) : ∃ r : List CondEv, ∀ m, (d.postTrig n k t).site m =
    if m = n then { d.site n with trigs := setBit (d.site n).trigs k true
                                  conds := (d.site n).conds ++ ⟨cycleAfter (t + d.trigDelay k), 0x20 + k, true, false, t⟩ :: r } else d.site m := by
  have goes : ¬(bitAt (d.site n).trigs k ∨ !(d.site n).start.any (fun s => decide (s ≤ t))) := fun c => (d.postTrig_cond n k t).mp c h
  unfold Dev.postTrig
  simp only [if_neg goes]
  obtain ⟨r, hr⟩ := Dev.spanConds_site ((d.mapped n (0x20 + k)).filter (d.spanWide n)) (Dev.queueCond
    (d.upSite n (fun S => { S with trigs := setBit S.trigs k true })) n ⟨cycleAfter (t + d.trigDelay k), 0x20 + k, true, false, t⟩) n true
    (if d.on .TA_SLOT_CTRL_FWD k || d.rd .TA_SLOT_CTRL_SRC k == 6 then t + d.trigDelay k - ns (d.rd .SITE_SPAN_LAT_LAT n) else t)
  refine ⟨r, fun m => ?_⟩
  rw [hr, Dev.queueCond, Dev.upSite_site, Dev.upSite_site, if_pos rfl, if_pos rfl, Dev.upSite_site, Dev.upSite_site]
  by_cases hm : m = n
  · simp [hm]
  · simp [hm]

/-- What a site holds once a firing of slot `k` at time `t` has been posted to it. -/
def Dev.trigPosted (d : Dev) (n k t : Nat) (S : Site) : Prop :=
  (d.firstTrig n k t → bitAt S.trigs k = true ∧ ⟨cycleAfter (t + d.trigDelay k), 0x20 + k, true, false, t⟩ ∈ S.conds) ∧
    (¬ d.firstTrig n k t → S.conds = (d.site n).conds)

theorem Dev.trigDelay_congr {d e : Dev} {k : Nat} (h : ∀ f ∈ [Fld.TA_SLOT_CTRL_FWD, .TA_SLOT_CTRL_SRC, .TA_SPAN_LAT], ∀ i, e.rd f i = d.rd f i) :
    e.trigDelay k = d.trigDelay k := by
  unfold Dev.trigDelay Dev.on
  rw [h .TA_SLOT_CTRL_FWD (by decide), h .TA_SLOT_CTRL_SRC (by decide), h .TA_SPAN_LAT (by decide)]

theorem Dev.trigPosted_congr {d e : Dev} {n k t : Nat} {S : Site} (hs : e.site n = d.site n) (hd : e.trigDelay k = d.trigDelay k) :
    e.trigPosted n k t S ↔ d.trigPosted n k t S := by
  simp only [Dev.trigPosted, Dev.firstTrig, hs, hd]

/-- The posting to one site: that site, and every other. -/
theorem Dev.postTrig_spec (d : Dev) (q k t : Nat) : (∀ n, n ≠ q → (d.postTrig q k t).site n = d.site n) ∧
    d.trigPosted q k t ((d.postTrig q k t).site q) := by
  by_cases h : d.firstTrig q k t
  · obtain ⟨r, hr⟩ := Dev.postTrig_site h
    refine ⟨fun n hn => by rw [hr, if_neg hn], fun _ => ?_, fun n => absurd h n⟩
    rw [hr, if_pos rfl]
    exact ⟨by rw [bitAt_setBit, if_pos rfl], by simp⟩
  · rw [Dev.postTrig_later h]
    exact ⟨fun _ _ => rfl, fun f => absurd f h, fun _ => rfl⟩

/-- The posting to a list of sites that names each once. -/
theorem Dev.postTrigs_spec (l : List Nat) (hl : l.Nodup) (d e : Dev) (k t : Nat) (he : e = l.foldl (fun d n => d.postTrig n k t) d) :
    e.quiet = d.quiet ∧ ∀ n ∈ l, d.trigPosted n k t (e.site n) := by
  refine ⟨he ▸ Dev.foldl_quiet _ _ _ (fun d n => d.postTrig_quiet n k t), ?_⟩
  induction l generalizing d with
  | nil => exact fun _ h => nomatch h
  | cons q l ih =>
    obtain ⟨hq, hl⟩ := List.nodup_cons.mp hl
    obtain ⟨others, self⟩ := d.postTrig_spec q k t
    intro n hn
    rw [List.foldl_cons] at he
    by_cases hnq : n = q
    · subst hnq
      have kept : e.site n = (d.postTrig n k t).site n := by
        rw [he]
        refine foldl_keeps (fun d : Dev => d.site n) _ _ _ (fun d m hm => (d.postTrig_spec m k t).1 n ?_)
        rintro rfl
        exact hq hm
      rw [kept]
      exact self
    · have quiet := d.postTrig_quiet q k t
      refine (Dev.trigPosted_congr (others n hnq) (Dev.trigDelay_congr (fun f hf i => Dev.rd_of_quiet quiet ?_ i))).mp
        (ih hl _ he n ((List.mem_cons.mp hn).resolve_left hnq))
      rintro rfl
      revert hf
      decide

/-- What an unforced firing in time posts: a condition at each site, the slot's effect time, the signal and the span (R279, R280). -/
theorem Dev.fireActs_spec {d e : Dev} {k t : Nat} (he : e = d.fireActs k t) : (∀ g j, g ≠ .RN_PORT_COUNT_FWD → e.rd g j = d.rd g j) ∧
    e.raised = d.raised ∧ e.slots = d.slots ∧ tget (fun _ => []) e.trigAt k = tget (fun _ => []) d.trigAt k ++ [t + d.trigDelay k] ∧
    ∀ n, n < 64 → d.siteState n ≠ SiteState.EMPTY → d.trigPosted n k t (e.site n) := by
  obtain ⟨d1, h1⟩ : ∃ d1, d1 = ((List.range 64).filter (fun n => d.siteState n != SiteState.EMPTY)).foldl (fun d n => d.postTrig n k t) d := ⟨_, rfl⟩
  obtain ⟨quiet1, posted⟩ := Dev.postTrigs_spec _ (List.nodup_range.filter _) d d1 k t h1
  obtain ⟨-, -, raised1, slots1, trigAt1, -⟩ := Dev.units_of_quiet quiet1
  obtain ⟨d2, h2⟩ : ∃ d2 : Dev, d2 = { d1 with trigAt := tset (fun _ => []) d1.trigAt k (tget (fun _ => []) d1.trigAt k ++ [t + d.trigDelay k]) } := ⟨_, rfl⟩
  have rd2 (g : Fld) (j : Nat) : d2.rd g j = d1.rd g j := by rw [h2]; rfl
  obtain ⟨raised2, slots2, sites2⟩ : d2.raised = d1.raised ∧ d2.slots = d1.slots ∧ d2.sites = d1.sites := by rw [h2]; exact ⟨rfl, rfl, rfl⟩
  have trigAt2 : tget (fun _ => []) d2.trigAt k = tget (fun _ => []) d1.trigAt k ++ [t + d.trigDelay k] := by
    rw [h2]
    simp
  obtain ⟨squiet, ssites⟩ := d2.signal_quiet .trig t k 0 true
  have eq : e = if d.on .TA_SLOT_CTRL_FWD k then (d2.signal .trig t k 0 true).originate ⟨.trig, d.rd .TA_SPAN_TAG 0, k, t⟩ else d2.signal .trig t k 0 true := by
    rw [he, h2, h1]
    rfl
  generalize d2.signal .trig t k 0 true = d3 at squiet ssites eq
  have quiet3 : e.quiet = d2.quiet ∧ e.sites = d2.sites := by
    rw [eq]
    split
    · exact ⟨(d3.originate_quiet _).trans squiet, (d3.originate_sites _).trans ssites⟩
    · exact ⟨squiet, ssites⟩
  obtain ⟨-, -, raised3, slots3, trigAt3, -⟩ := Dev.units_of_quiet quiet3.1
  refine ⟨fun g j hg => ?_, by rw [raised3, raised2, raised1], by rw [slots3, slots2, slots1], by rw [trigAt3, trigAt2, trigAt1], fun n hn hst => ?_⟩
  · rw [Dev.rd_of_quiet quiet3.1 hg, rd2, Dev.rd_of_quiet quiet1 hg]
  · have site : e.site n = d1.site n := by rw [Dev.site, quiet3.2, sites2, Dev.site]
    rw [site]
    exact posted n (by simp [hn, hst])

/-! ### The obligation's clauses -/

theorem Dev.firing_event {d : Dev} {k : Nat} {ev : TrigEv} {S : Slot} (hl : d.slotLive k = true) (hn : d.nextEvent k = some (ev, S))
    (ht : ev.n < d.bed + cycleTicks) : d.firing k = if d.inHold k ev.n then (d.upSlot k (fun _ => S)).count .TA_SLOT_STATUS_HELDOFF k 1
      else if !d.on .TA_SLOT_STATUS_ARMED k then d.upSlot k (fun _ => S) else (d.upSlot k (fun _ => S)).fire k ev := by
  unfold Dev.firing
  rw [hl, hn]
  exact if_neg (Nat.not_le.mpr ht)

/-- Slot `k` is behind others that fired in sample `n` (R278). -/
def Dev.coincides (d : Dev) (k n : Nat) : Bool := (List.range k).any (fun j => (d.slot j).firedIn n)

/-- A firing, whatever it posts: the registers of the slot, the slot, what is raised. -/
theorem Dev.fire_spec {d e : Dev} {k : Nat} {ev : TrigEv} (he : e = d.fire k ev) :
    (∀ g j, g ≠ .TA_SLOT_STATUS_COINCIDENT → g ≠ .RN_PORT_COUNT_FWD → e.rd g j = (d.fireNoted k ev (d.coincides k ev.n)).rd g j) ∧
      e.slot k = { d.slot k with
        fires := ⟨k, d.rd .TA_SLOT_CTRL_SRC k, ev, (d.rd .TA_SLOT_STATUS_SEQ k + 1) % 2 ^ 32, d.coincides k ev.n⟩ :: (d.slot k).fires
        autoAt := max (d.slot k).autoAt ev.n } ∧
      e.raised = (if ev.late then d.raised ++ [⟨0x2E0, k, 0, d.cycle⟩] else d.raised) := by
  obtain ⟨m, hm⟩ : ∃ m, m = d.fired k ev (d.coincides k ev.n) := ⟨_, rfl⟩
  obtain ⟨rd, slot, -⟩ := Dev.fired_spec hm
  obtain ⟨raised, -⟩ := Dev.fired_units hm
  have eq : e = if ev.forced || ev.late then m else m.fireActs k ev.t := by rw [he, Dev.fire_eq, hm, Dev.coincides]
  by_cases h : (ev.forced || ev.late) = true
  · rw [eq, if_pos h]
    exact ⟨fun g j hg _ => rd g j hg, slot, raised⟩
  · rw [if_neg h] at eq
    obtain ⟨rd2, raised2, slots2, -⟩ := Dev.fireActs_spec eq
    exact ⟨fun g j hg hq => by rw [rd2 g j hq, rd g j hg], by rw [Dev.slot_congr slots2, slot], raised2.trans raised⟩

/-- What a firing leaves of the registers that are not its own. -/
theorem Dev.fireNoted_other (d : Dev) (k : Nat) (ev : TrigEv) (co : Bool) (g : Fld) (j : Nat) (h : g ∉ [Fld.TA_SLOT_STATUS_SEQ, .TA_SLOT_STATUS_FIRED,
    .TA_SLOT_STATUS_FORCED, .TA_SLOT_LAST_T, .TA_SLOT_STATUS_COINCIDENT, .TA_SLOT_STATUS_ARMED, .TA_SLOT_STATUS_LATE]) :
    (d.fireNoted k ev co).rd g j = d.rd g j := by
  simp only [List.mem_cons, List.not_mem_nil, or_false, not_or] at h
  obtain ⟨h1, h2, h3, h4, h5, h6, h7⟩ := h
  rw [Dev.fireNoted_rd]
  simp only [h1, h2, h3, h4, h5, h6, h7, false_and, and_false, if_false]

/-- An unforced firing in time is posted (R279). -/
theorem Dev.fire_posts {d e : Dev} {k : Nat} {ev : TrigEv} (he : e = d.fire k ev) (hf : ev.forced = false) (hl : ev.late = false) :
    tget (fun _ => []) e.trigAt k = tget (fun _ => []) d.trigAt k ++ [ev.t + d.trigDelay k] ∧
      ∀ n, n < 64 → d.siteState n ≠ SiteState.EMPTY → d.trigPosted n k ev.t (e.site n) := by
  obtain ⟨m, hm⟩ : ∃ m, m = d.fired k ev (d.coincides k ev.n) := ⟨_, rfl⟩
  obtain ⟨rd, -, -⟩ := Dev.fired_spec hm
  obtain ⟨-, sites, -, trigAt⟩ := Dev.fired_units hm
  have kept (g : Fld) (j : Nat) (h : g ∉ [Fld.TA_SLOT_STATUS_SEQ, .TA_SLOT_STATUS_FIRED, .TA_SLOT_STATUS_FORCED, .TA_SLOT_LAST_T,
      .TA_SLOT_STATUS_COINCIDENT, .TA_SLOT_STATUS_ARMED, .TA_SLOT_STATUS_LATE]) : m.rd g j = d.rd g j := by
    rw [rd g j (fun e => h (by simp [e])), d.fireNoted_other k ev _ g j h]
  have eq : e = m.fireActs k ev.t := by rw [he, Dev.fire_eq, hm, Dev.coincides, hf, hl]; exact if_neg Bool.false_ne_true
  obtain ⟨-, -, -, trigAt2, posted⟩ := Dev.fireActs_spec eq
  have delay : m.trigDelay k = d.trigDelay k := Dev.trigDelay_congr (fun f hf i => kept f i (by revert f; decide))
  refine ⟨by rw [trigAt2, trigAt, delay], fun n hn hst => ?_⟩
  have site : m.site n = d.site n := by rw [Dev.site, sites, Dev.site]
  exact (Dev.trigPosted_congr site delay).mp (posted n hn (by rw [Dev.siteState, kept _ _ (by decide)]; exact hst))

/-- A forced firing acts on nothing but the slots and the acquisitions (R276). -/
theorem Dev.fire_forced {d e : Dev} {k : Nat} {ev : TrigEv} (he : e = d.fire k ev) (hf : ev.forced = true) (hl : ev.late = false) :
    e.trigAt = d.trigAt ∧ e.signals = d.signals ∧ e.sites = d.sites ∧ e.raised = d.raised ∧
      ∀ g j, g ≠ .TA_SLOT_STATUS_COINCIDENT → e.rd g j = (d.fireNoted k ev (d.coincides k ev.n)).rd g j := by
  have eq : e = d.fired k ev (d.coincides k ev.n) := by rw [he, Dev.fire_eq, Dev.coincides, hf]; exact if_pos rfl
  obtain ⟨rd, -, -⟩ := Dev.fired_spec eq
  obtain ⟨raised, sites, signals, trigAt⟩ := Dev.fired_units eq
  exact ⟨trigAt, signals, sites, by rw [raised, hl]; rfl, rd⟩

theorem firing_acts (s : State) (k : Nat) (ev : TrigEv) (S : Slot) (hk : k < 16) (hl : s.dev.slotLive k = true)
    (hn : s.dev.nextEvent k = some (ev, S)) (ht : ev.n < s.dev.bed + cycleTicks) :
    let seq := (s.dev.rd .TA_SLOT_STATUS_SEQ k + 1) % 2 ^ 32
    let co := (List.range k).any (fun j => (s.dev.slot j).firedIn ev.n)
    Acts (.firing k) s (fun e => (e.slot k).evs = (s.dev.slotHears k).evs.erase ev ∧ (∀ y, y ∈ (s.dev.slotHears k).evs → ev.n ≤ y.n) ∧
      (s.dev.inHold k ev.n = true → s.dev.keepsBut e [(.TA_SLOT_STATUS_HELDOFF, k)] ∧ (e.slot k).fires = (s.dev.slot k).fires ∧
        e.rd .TA_SLOT_STATUS_HELDOFF k = min (s.dev.rd .TA_SLOT_STATUS_HELDOFF k + 1) (2 ^ 16 - 1)) ∧
      (s.dev.inHold k ev.n = false → s.dev.on .TA_SLOT_STATUS_ARMED k = false →
        s.dev.keepsBut e [] ∧ (e.slot k).fires = (s.dev.slot k).fires) ∧
      (s.dev.inHold k ev.n = false → s.dev.on .TA_SLOT_STATUS_ARMED k = true →
        e.rd .TA_SLOT_STATUS_SEQ k = seq ∧ e.on .TA_SLOT_STATUS_FIRED k = true ∧ e.on .TA_SLOT_STATUS_FORCED k = ev.forced ∧
        e.rd .TA_SLOT_LAST_T k = ev.t % 2 ^ 64 ∧ (e.slot k).fires = ⟨k, s.dev.rd .TA_SLOT_CTRL_SRC k, ev, seq, co⟩ :: (s.dev.slot k).fires ∧
        (e.slot k).autoAt = max (s.dev.slot k).autoAt ev.n ∧
        e.on .TA_SLOT_STATUS_ARMED k = decide (s.dev.rd .TA_SLOT_CTRL_MODE k ≠ 2) ∧
        (ev.late = true → e.on .TA_SLOT_STATUS_LATE k = true ∧ ⟨0x2E0, k, 0, s.dev.cycle⟩ ∈ e.raised) ∧
        (ev.late = false → e.raised = s.dev.raised) ∧
        (ev.forced = false → ev.late = false →
          tget (fun _ => []) e.trigAt k = tget (fun _ => []) s.dev.trigAt k ++ [ev.t + s.dev.trigDelay k] ∧
          ∀ n, n < 64 → s.dev.siteState n ≠ SiteState.EMPTY →
            let first := bitAt (s.dev.site n).trigs k = false ∧ ∃ b, (s.dev.site n).start = some b ∧ b ≤ ev.t
            (first → bitAt (e.site n).trigs k = true ∧ ⟨cycleAfter (ev.t + s.dev.trigDelay k), 0x20 + k, true, false, ev.t⟩ ∈ (e.site n).conds) ∧
            (¬ first → (e.site n).conds = (s.dev.site n).conds)) ∧
        s.dev.keepsFields e [.TA_SLOT_STATUS_SEQ, .TA_SLOT_STATUS_FIRED, .TA_SLOT_STATUS_FORCED, .TA_SLOT_LAST_T, .TA_SLOT_STATUS_COINCIDENT,
          .TA_SLOT_STATUS_ARMED, .TA_SLOT_STATUS_LATE, .RN_PORT_COUNT_FWD])) := by
  intro seq co
  obtain ⟨hS, least⟩ := Dev.nextEvent_spec hn
  have taken : S.evs = (s.dev.slotHears k).evs.erase ev ∧ S.fires = (s.dev.slot k).fires ∧ S.autoAt = (s.dev.slot k).autoAt := by rw [hS]; exact ⟨rfl, rfl, rfl⟩
  obtain ⟨evs, fires, auto_⟩ := taken
  have slot1 (j : Nat) : (s.dev.upSlot k (fun _ => S)).slot j = if j = k then S else s.dev.slot j := Dev.upSlot_slot _ _ _ _
  have rd1 (g : Fld) (j : Nat) : (s.dev.upSlot k (fun _ => S)).rd g j = s.dev.rd g j := rfl
  have co1 : (s.dev.upSlot k (fun _ => S)).coincides k ev.n = co := by
    refine Bool.eq_iff_iff.mpr ?_
    simp only [Dev.coincides, co, List.any_eq_true, List.mem_range]
    refine exists_congr (fun j => and_congr_right (fun hj => ?_))
    rw [slot1, if_neg (Nat.ne_of_lt hj)]
  refine acts_onDev rfl (decide_eq_true hk) ?_
  rw [Dev.firing_event hl hn ht]
  cases hold : s.dev.inHold k ev.n
  · cases harm : s.dev.on .TA_SLOT_STATUS_ARMED k
    · rw [if_neg Bool.false_ne_true, Bool.not_false, if_pos rfl, slot1, if_pos rfl]
      exact ⟨evs, least, nofun, fun _ _ => ⟨fun _ _ _ => rfl, fires⟩, nofun⟩
    · rw [if_neg Bool.false_ne_true, Bool.not_true, if_neg Bool.false_ne_true]
      have units1 : (s.dev.upSlot k (fun _ => S)).raised = s.dev.raised ∧ (s.dev.upSlot k (fun _ => S)).cycle = s.dev.cycle ∧
        (s.dev.upSlot k (fun _ => S)).trigAt = s.dev.trigAt ∧ ∀ n, (s.dev.upSlot k (fun _ => S)).site n = s.dev.site n := ⟨rfl, rfl, rfl, fun _ => rfl⟩
      generalize s.dev.upSlot k (fun _ => S) = d1 at slot1 rd1 co1 units1 ⊢
      obtain ⟨raised1, cycle1, trigAt1, site1⟩ := units1
      obtain ⟨e, he⟩ : ∃ e, e = d1.fire k ev := ⟨_, rfl⟩
      rw [← he]
      obtain ⟨rd, slot, raised⟩ := Dev.fire_spec he
      rw [co1] at rd slot
      rw [slot1, if_pos rfl, rd1, rd1] at slot
      rw [raised1, cycle1] at raised
      have noted (g : Fld) (j : Nat) := d1.fireNoted_rd k ev co g j
      simp only [rd1] at noted
      refine ⟨by rw [slot]; exact evs, least, nofun, nofun, fun _ _ => ⟨?_, ?_, ?_, ?_, ?_, ?_, ?_, fun hl => ⟨?_, ?_⟩, fun hl => ?_, fun hf hl => ⟨?_, fun n hn hst => ?_⟩,
        fun g j hg => ?_⟩⟩
      · rw [rd _ _ (by decide) (by decide), noted]
        simp [seq]
      · rw [Dev.on, rd _ _ (by decide) (by decide), noted]
        simp
      · rw [Dev.on, rd _ _ (by decide) (by decide), noted]
        cases ev.forced <;> simp [b2n]
      · rw [rd _ _ (by decide) (by decide), noted]
        simp
      · rw [slot, fires]
      · rw [slot, auto_]
      · rw [Dev.on, rd _ _ (by decide) (by decide), noted]
        by_cases hm : s.dev.rd .TA_SLOT_CTRL_MODE k = 2
        · simp [hm]
        · simp only [Dev.on] at harm
          simp [hm, harm]
      · rw [Dev.on, rd _ _ (by decide) (by decide), noted]
        simp [hl]
      · rw [raised, hl]
        simp
      · rw [raised, hl]
        rfl
      · obtain ⟨trigAt, -⟩ := Dev.fire_posts he hf hl
        rw [trigAt, trigAt1, Dev.trigDelay_congr (fun f _ i => rd1 f i)]
      · obtain ⟨-, posted⟩ := Dev.fire_posts he hf hl
        exact (Dev.trigPosted_congr (site1 n) (Dev.trigDelay_congr (fun f _ i => rd1 f i))).mp (posted n hn (by rw [Dev.siteState, rd1]; exact hst))
      · have own : g ∉ [Fld.TA_SLOT_STATUS_SEQ, .TA_SLOT_STATUS_FIRED, .TA_SLOT_STATUS_FORCED, .TA_SLOT_LAST_T, .TA_SLOT_STATUS_COINCIDENT,
            .TA_SLOT_STATUS_ARMED, .TA_SLOT_STATUS_LATE] := fun h => hg (List.mem_append_left [Fld.RN_PORT_COUNT_FWD] h)
        have coinc : g ≠ .TA_SLOT_STATUS_COINCIDENT := by
          rintro rfl
          exact hg (by decide)
        have fwd : g ≠ .RN_PORT_COUNT_FWD := by
          rintro rfl
          exact hg (by decide)
        rw [rd g j coinc fwd, Dev.fireNoted_other _ _ _ _ _ _ own, rd1]
  · rw [if_pos rfl]
    have slot2 (j : Nat) : ((s.dev.upSlot k (fun _ => S)).count .TA_SLOT_STATUS_HELDOFF k 1).slot j = (s.dev.upSlot k (fun _ => S)).slot j := rfl
    rw [slot2, slot1, if_pos rfl]
    refine ⟨evs, least, fun _ => ⟨fun g j hg => ?_, fires, ?_⟩, nofun, nofun⟩
    · rw [Dev.count, Dev.wr_rd, if_neg (fun h => hg (by simp [h.1, h.2])), rd1]
    · rw [Dev.count, Dev.wr_rd_same, rd1]
      exact Nat.mod_eq_of_lt (show min (s.dev.rd .TA_SLOT_STATUS_HELDOFF k + 1) (2 ^ 16 - 1) < 2 ^ 16 by omega)

/-! ### The auto timer (R276) -/

theorem le_foldl_max (l : List Nat) (a : Nat) : a ≤ l.foldl max a ∧ ∀ x ∈ l, x ≤ l.foldl max a := by
  induction l generalizing a with
  | nil => exact ⟨Nat.le_refl _, fun _ h => nomatch h⟩
  | cons y t ih =>
    obtain ⟨h1, h2⟩ := ih (max a y)
    refine ⟨by rw [List.foldl_cons]; omega, fun x hx => ?_⟩
    rw [List.foldl_cons]
    rcases List.mem_cons.mp hx with rfl | hx
    · omega
    · exact h2 x hx

theorem le_pointAfter (t : Nat) : t ≤ pointAfter t := by
  unfold pointAfter roundUp
  omega

/-- A forced firing lies at or after the last one (R276). -/
theorem Dev.autoAt_le_forcedPoint (d : Dev) (k : Nat) : (d.slot k).autoAt ≤ d.forcedPoint k := by
  have later : (d.slot k).autoAt ≤ pointAfter ((d.slot k).autoAt + us (d.rd .TA_SLOT_AUTO_US k)) := Nat.le_trans (Nat.le_add_right _ _) (le_pointAfter _)
  unfold Dev.forcedPoint
  dsimp only
  split
  · next h =>
    simp only [Dev.inHold, List.any_eq_true, Bool.and_eq_true, decide_eq_true_eq] at h
    obtain ⟨f, hf, -, hend⟩ := h
    have most := (le_foldl_max ((d.slot k).fires.map (d.holdEnd k)) 0).2 _ (List.mem_map_of_mem hf)
    omega
  · exact later

theorem forcedFiring_acts (s : State) (k : Nat) (hk : k < 16) (hl : s.dev.slotLive k = true) (hm : s.dev.rd .TA_SLOT_CTRL_MODE k = 1)
    (ha : s.dev.rd .TA_SLOT_AUTO_US k ≠ 0) (ht : s.dev.forcedPoint k < s.dev.bed + cycleTicks) :
    Acts (.forcedFiring k) s (fun e => e.rd .TA_SLOT_STATUS_SEQ k = (s.dev.rd .TA_SLOT_STATUS_SEQ k + 1) % 2 ^ 32 ∧
      e.on .TA_SLOT_STATUS_FIRED k = true ∧ e.on .TA_SLOT_STATUS_FORCED k = true ∧ e.rd .TA_SLOT_LAST_T k = s.dev.forcedPoint k % 2 ^ 64 ∧
      (e.slot k).autoAt = s.dev.forcedPoint k ∧ (e.slot k).evs = (s.dev.slot k).evs ∧ e.trigAt = s.dev.trigAt ∧ e.signals = s.dev.signals ∧
      e.sites = s.dev.sites ∧ e.raised = s.dev.raised ∧
      s.dev.keepsFields e [.TA_SLOT_STATUS_SEQ, .TA_SLOT_STATUS_FIRED, .TA_SLOT_STATUS_FORCED, .TA_SLOT_LAST_T, .TA_SLOT_STATUS_COINCIDENT]) := by
  have eq : s.dev.forcedFiring k = s.dev.fire k ⟨s.dev.forcedPoint k, s.dev.forcedPoint k, true, false, false⟩ := by
    unfold Dev.forcedFiring
    exact if_pos ⟨hl, hm, ha, ht⟩
  refine acts_onDev rfl (decide_eq_true hk) ?_
  rw [eq]
  obtain ⟨e, he⟩ : ∃ e, e = s.dev.fire k ⟨s.dev.forcedPoint k, s.dev.forcedPoint k, true, false, false⟩ := ⟨_, rfl⟩
  rw [← he]
  obtain ⟨trigAt, signals, sites, raised, rd⟩ := Dev.fire_forced he rfl rfl
  obtain ⟨-, slot, -⟩ := Dev.fire_spec he
  have noted (g : Fld) (j : Nat) := s.dev.fireNoted_rd k ⟨s.dev.forcedPoint k, s.dev.forcedPoint k, true, false, false⟩
    (s.dev.coincides k (s.dev.forcedPoint k)) g j
  have mode : ¬ s.dev.rd .TA_SLOT_CTRL_MODE k = 2 := by omega
  refine ⟨?_, ?_, ?_, ?_, ?_, by rw [slot], trigAt, signals, sites, raised, fun g j hg => ?_⟩
  · rw [rd _ _ (by decide), noted]
    simp
  · rw [Dev.on, rd _ _ (by decide), noted]
    simp
  · rw [Dev.on, rd _ _ (by decide), noted]
    simp [b2n]
  · rw [rd _ _ (by decide), noted]
    simp
  · rw [slot]
    exact Nat.max_eq_right (s.dev.autoAt_le_forcedPoint k)
  · simp only [List.mem_cons, List.not_mem_nil, or_false, not_or] at hg
    obtain ⟨h1, h2, h3, h4, h5⟩ := hg
    rw [rd g j h5, noted]
    simp only [h1, h2, h3, h4, h5, mode, Bool.false_eq_true, false_and, and_false, if_false]

end Sys2Proof.Machine
end

section
/-!
Obligation O47, last part. Acquisitions (R281 to R285): ACQUIRE and its refusals, the arm point, and the end with its header.
-/
namespace Sys2Proof.Machine

/-! ## A descriptor is done -/

theorem Dev.open_entry {d : Dev} {e op : Nat} {x : Entry} (h : d.open? e op = some x) : d.entry? e = some x ∧ x.done = false := by
  unfold Dev.open? at h
  cases hx : d.entry? e with
  | none => rw [hx] at h; exact nomatch h
  | some y =>
    rw [hx] at h
    dsimp only at h
    split at h
    next ok =>
      obtain rfl := Option.some.inj h
      exact ⟨rfl, by simpa using ((Bool.and_eq_true _ _).mp ok).2⟩
    · exact nomatch h

/-- One descriptor changes, its identity kept; every other stays. -/
theorem Dev.upEntry_one {d : Dev} {e : Nat} {x : Entry} (h : d.entry? e = some x) (f : Entry → Entry) (hf : ∀ y, (f y).id = y.id) :
    (d.upEntry e f).entry? e = some (f x) ∧ d.entriesBut (d.upEntry e f) e :=
  ⟨by rw [Dev.upEntry_entry d e e f hf, if_pos rfl, h, Option.map_some], fun k hk => by rw [Dev.upEntry_entry d e k f hf, if_neg hk]⟩

theorem Dev.begin_entry {d : Dev} {e : Nat} {x : Entry} (h : d.entry? e = some x) :
    (d.begin_ e).entry? e = some { x with begun := true } ∧ d.entriesBut (d.begin_ e) e := Dev.upEntry_one h _ (fun _ => rfl)

theorem Dev.start_entry {d : Dev} {e : Nat} {x : Entry} (h : d.entry? e = some x) :
    (d.start e).entry? e = some { x with begun := true, started := true } ∧ d.entriesBut (d.start e) e := Dev.upEntry_one h _ (fun _ => rfl)

/-- An open descriptor that finishes: its status is decided, every other descriptor stays. -/
theorem Dev.finish_decided {d : Dev} {e : Nat} {x : Entry} (h : d.entry? e = some x) (hx : x.done = false) (st r : Nat) :
    (d.finish e st r).decided e st ∧ d.entriesBut (d.finish e st r) e := by
  obtain ⟨own, other⟩ := Dev.upEntry_one h (fun y => if y.done then y else { y with done := true, status := st, result := r })
    (fun y => by split <;> rfl)
  exact ⟨⟨_, own, by simp [hx], by simp [hx]⟩, other⟩

theorem Dev.finish_units (d : Dev) (e st r : Nat) : (d.finish e st r).regs = d.regs ∧ (d.finish e st r).acqs = d.acqs ∧
    (d.finish e st r).raised = d.raised := ⟨rfl, rfl, rfl⟩

theorem Dev.entry_congr {d e : Dev} (h : e.tracker = d.tracker) (k : Nat) : e.entry? k = d.entry? k := by rw [Dev.entry?, h, Dev.entry?]

theorem Dev.acq_congr {d e : Dev} (h : e.acqs = d.acqs) (w : Nat) : e.acq w = d.acq w := by rw [Dev.acq, h, Dev.acq]

theorem Dev.setAcq_units (d : Dev) (w : Nat) (a : Option Acq) : (d.setAcq w a).regs = d.regs ∧ (d.setAcq w a).tracker = d.tracker ∧
    (d.setAcq w a).raised = d.raised := ⟨rfl, rfl, rfl⟩

/-! ## ACQUIRE (R281) -/

/-- From `d`, channel `w` has only opened an acquisition for descriptor `id` with arm point `arm`. -/
def Dev.Opened (d e : Dev) (w id arm : Nat) : Prop :=
  e.regs = d.regs ∧ e.tracker = d.tracker ∧ (∀ u, u ≠ w → e.acq u = d.acq u) ∧
    ∃ A, e.acq w = some A ∧ A.e = id ∧ A.arm = arm ∧ A.armed = false ∧ A.stop = none ∧ A.written = 0

theorem Dev.Opened.setAcq {d e : Dev} {w id arm : Nat} (h : d.Opened e w id arm) (A : Acq) (id_ : A.e = id) (arm_ : A.arm = arm)
    (armed : A.armed = false) (stop : A.stop = none) (written : A.written = 0) : d.Opened (e.setAcq w (some A)) w id arm := by
  obtain ⟨regs, tracker, others, -⟩ := h
  exact ⟨regs, tracker, fun u hu => by rw [Dev.setAcq_acq, if_neg hu, others u hu], A, by rw [Dev.setAcq_acq, if_pos rfl], id_, arm_, armed, stop, written⟩

/-- A firing that meets an acquisition which has written nothing can only become its trigger (R278, R282). -/
theorem Dev.Opened.acqFire {d e : Dev} {w id arm : Nat} (h : d.Opened e w id arm) (f : Fire) : d.Opened (e.acqFire f w) w id arm := by
  obtain ⟨A, hA, id_, arm_, armed, stop, written⟩ := h.2.2.2
  unfold Dev.acqFire
  rw [hA]
  dsimp only
  split
  · exact h
  · split
    · exact h
    · split
      · exact h.setAcq _ id_ arm_ armed stop written
      · split
        · exact h.setAcq _ id_ arm_ armed stop rfl
        · split
          · exact h.setAcq _ id_ arm_ armed stop written
          · exact h

theorem Dev.Opened.acqFires {d e : Dev} {w id arm : Nat} (h : d.Opened e w id arm) (l : List Fire) :
    d.Opened (l.foldl (fun d f => d.acqFire f w) e) w id arm := by
  induction l generalizing e with
  | nil => exact h
  | cons f l ih => exact ih (h.acqFire f)

/-- A descriptor that an ACQUIRE's check refuses: its status is decided and nothing else changes. -/
theorem Dev.refused_acquire {d : Dev} {id : Nat} {x : Entry} (h : d.entry? id = some x) (hx : x.done = false) (st : Nat) :
    d.entriesBut (d.finish id st 0) id ∧ d.keepsBut (d.finish id st 0) [] ∧ (∀ u, (d.finish id st 0).acq u = d.acq u) ∧
      (d.finish id st 0).decided id st := by
  obtain ⟨decided, others⟩ := Dev.finish_decided h hx st 0
  obtain ⟨regs, acqs, -⟩ := d.finish_units id st 0
  exact ⟨others, fun f i _ => Dev.rd_congr regs f i, fun u => Dev.acq_congr acqs u, decided⟩

theorem acquire_acts (s : State) (id : Nat) (x : Entry) (hx : s.dev.open? id 0x3A = some x) (hb : x.begun = false) :
    let S := acqSpec x
    let soon := x.born + ns 500
    let arm := if S.arm = 0 then pointAfter soon else pointAfter (s.dev.fullTime S.armTime)
    let inv := s.dev.acqInvalid S = true
    let down := s.dev.wvOk S.w = false ∨ s.dev.on .WV_CTRL_ADC_EN S.w = false ∨ s.dev.on .DEV_UNITS_TAU_OK 0 = false ∨ (S.hbm = true ∧ s.dev.localMode = true)
    let busy := (s.dev.acq S.w).isSome = true ∨ s.dev.acqAhead x = true
    Acts (.acquire id) s (fun e => s.dev.entriesBut e id ∧ s.dev.keepsBut e [] ∧ (∀ u, u ≠ S.w → e.acq u = s.dev.acq u) ∧
      (inv → e.decided id Status.INVALID) ∧
      (¬ inv → arm < soon → e.decided id Status.LATE_START) ∧
      (¬ inv → soon ≤ arm → down → e.decided id Status.UNIT_DOWN) ∧
      (¬ inv → soon ≤ arm → ¬ down → busy → e = s.dev) ∧
      (¬ inv → soon ≤ arm → ¬ down → ¬ busy → e.entry? id = some { x with begun := true } ∧
        ∃ A, e.acq S.w = some A ∧ A.e = id ∧ A.arm = arm ∧ A.armed = false ∧ A.stop = none ∧ A.written = 0)) := by
  intro S soon arm inv down busy
  obtain ⟨entry, undone⟩ := Dev.open_entry hx
  have refused := Dev.refused_acquire entry undone
  refine acts_onDev rfl rfl ?_
  unfold Dev.acquire
  rw [hx]
  dsimp only
  rw [if_neg (by rw [hb]; exact Bool.false_ne_true)]
  have hdown : down ↔ ((!s.dev.wvOk S.w) = true ∨ (!s.dev.on .WV_CTRL_ADC_EN S.w) = true ∨ (!s.dev.on .DEV_UNITS_TAU_OK 0) = true ∨
      (S.hbm = true ∧ s.dev.localMode = true)) := by
    simp only [down, Bool.not_eq_true']
  by_cases hi : inv
  · rw [if_pos hi]
    obtain ⟨others, regs, acqs, decided⟩ := refused Status.INVALID
    exact ⟨others, regs, fun u _ => acqs u, fun _ => decided, fun h => absurd hi h, fun h => absurd hi h, fun h => absurd hi h, fun h => absurd hi h⟩
  rw [if_neg hi]
  by_cases hl : arm < soon
  · rw [if_pos hl]
    obtain ⟨others, regs, acqs, decided⟩ := refused Status.LATE_START
    exact ⟨others, regs, fun u _ => acqs u, fun h => absurd h hi, fun _ _ => decided, fun _ h => absurd hl (Nat.not_lt.mpr h),
      fun _ h => absurd hl (Nat.not_lt.mpr h), fun _ h => absurd hl (Nat.not_lt.mpr h)⟩
  rw [if_neg hl]
  by_cases hd : down
  · rw [if_pos (hdown.mp hd)]
    obtain ⟨others, regs, acqs, decided⟩ := refused Status.UNIT_DOWN
    exact ⟨others, regs, fun u _ => acqs u, fun h => absurd h hi, fun _ h => absurd h hl, fun _ _ _ => decided, fun _ _ h => absurd hd h,
      fun _ _ h => absurd hd h⟩
  rw [if_neg (fun h => hd (hdown.mpr h))]
  by_cases hbusy : busy
  · rw [if_pos hbusy]
    exact ⟨fun _ _ => rfl, fun _ _ _ => rfl, fun _ _ => rfl, fun h => absurd h hi, fun _ h => absurd h hl, fun _ _ h => absurd h hd, fun _ _ _ _ => rfl,
      fun _ _ _ h => absurd hbusy h⟩
  rw [if_neg hbusy]
  obtain ⟨own, others⟩ := Dev.begin_entry entry
  have opened : (s.dev.begin_ id).Opened ((s.dev.begin_ id).setAcq S.w (some { e := id, arm := arm })) S.w id arm :=
    ⟨rfl, rfl, fun u hu => by rw [Dev.setAcq_acq, if_neg hu], _, by rw [Dev.setAcq_acq, if_pos rfl], rfl, rfl, rfl, rfl, rfl⟩
  obtain ⟨regs, tracker, acqs, A⟩ := opened.acqFires ((List.range 16).flatMap (fun k => (s.dev.slot k).fires))
  refine ⟨fun k hk => ?_, fun f i _ => ?_, fun u hu => ?_, fun h => absurd h hi, fun _ h => absurd h hl, fun _ _ h => absurd h hd,
    fun _ _ _ h => absurd h hbusy, fun _ _ _ _ => ⟨?_, A⟩⟩
  · rw [Dev.entry_congr tracker, others k hk]
  · exact (Dev.rd_congr regs f i).trans rfl
  · exact (acqs u hu).trans rfl
  · rw [Dev.entry_congr tracker, own]

/-! ## The arm point (R281) -/

/-- SINGLE slots re-armed, one after the other. -/
theorem Dev.slotRearms_spec (l : List Nat) (d : Dev) : (∀ g j, g ≠ .TA_SLOT_STATUS_ARMED → (l.foldl (fun d k => d.slotRearm k) d).rd g j = d.rd g j) ∧
    (∀ k, (k ∈ l ∧ d.rd .TA_SLOT_CTRL_MODE k = 2) ∨ d.rd .TA_SLOT_STATUS_ARMED k = 1 → (l.foldl (fun d k => d.slotRearm k) d).rd .TA_SLOT_STATUS_ARMED k = 1) ∧
    (l.foldl (fun d k => d.slotRearm k) d).records = d.records := by
  induction l generalizing d with
  | nil => exact ⟨fun _ _ _ => rfl, fun k h => h.resolve_left (fun h => nomatch h.1), rfl⟩
  | cons a l ih =>
    obtain ⟨armed, other, records⟩ := d.slotRearm_spec a
    obtain ⟨others, arms, kept⟩ := ih (d.slotRearm a)
    refine ⟨fun g j hg => ?_, fun k hk => arms k ?_, kept.trans records⟩
    · rw [List.foldl_cons, others g j hg, other g j (.inl hg)]
    · rw [other .TA_SLOT_CTRL_MODE k (.inl (by decide))]
      by_cases ha : k = a
      · subst ha
        rw [armed]
        rcases hk with ⟨-, mode⟩ | h
        · exact .inr (if_pos mode)
        · exact .inr (by rw [h, ite_self])
      · rw [other .TA_SLOT_STATUS_ARMED k (.inr ha)]
        exact hk.imp_left (fun h => ⟨(List.mem_cons.mp h.1).resolve_left ha, h.2⟩)

theorem Dev.acqs_of_records {d e : Dev} (h : e.records = d.records) : e.acqs = d.acqs ∧ e.tracker = d.tracker := by
  have acqs := congrArg Dev.acqs h
  have tracker := congrArg Dev.tracker h
  exact ⟨acqs, tracker⟩

theorem acquisitionArm_acts (s : State) (w : Nat) (A : Acq) (x : Entry) (hw : w < 8) (hA : s.dev.acq w = some A) (hx : s.dev.open? A.e 0x3A = some x)
    (ha : A.armed = false) (ht : A.arm < s.dev.bed + cycleTicks) :
    Acts (.acquisitionArm w) s (fun e => e.acq w = some { A with armed := true } ∧ e.entry? A.e = some { x with begun := true, started := true } ∧
      (∀ k, k < 16 → (acqSpec x).rearm = true → bitAt (acqSpec x).mask k = true → s.dev.on .TA_SLOT_CTRL_EN k = true →
        s.dev.rd .TA_SLOT_CTRL_MODE k = 2 → e.on .TA_SLOT_STATUS_ARMED k = true) ∧
      ((acqSpec x).rearm = false → s.dev.keepsBut e []) ∧
      (∀ u, u ≠ w → e.acq u = s.dev.acq u) ∧ s.dev.entriesBut e A.e ∧ s.dev.keepsFields e [.TA_SLOT_STATUS_ARMED]) := by
  obtain ⟨own, others⟩ := Dev.start_entry (Dev.open_entry hx).1
  obtain ⟨regs, tracker, -⟩ := (s.dev.start A.e).setAcq_units w (some { A with armed := true })
  have acq (u : Nat) : ((s.dev.start A.e).setAcq w (some { A with armed := true })).acq u = if u = w then some { A with armed := true } else s.dev.acq u :=
    Dev.setAcq_acq _ _ _ _
  have rd : ∀ f i, ((s.dev.start A.e).setAcq w (some { A with armed := true })).rd f i = s.dev.rd f i := fun f i => (Dev.rd_congr regs f i).trans rfl
  refine acts_onDev rfl (decide_eq_true hw) ?_
  unfold Dev.acqArm
  rw [hA]
  dsimp only
  rw [hx]
  dsimp only
  rw [if_neg (by rw [ha]; exact not_or.mpr ⟨Bool.false_ne_true, Nat.not_le.mpr ht⟩)]
  generalize (s.dev.start A.e).setAcq w (some { A with armed := true }) = d1 at regs tracker acq rd ⊢
  by_cases hr : (acqSpec x).rearm = true
  · rw [if_pos hr]
    generalize hl : (List.range 16).filter (fun k => bitAt (acqSpec x).mask k && s.dev.on .TA_SLOT_CTRL_EN k) = l
    obtain ⟨kept, arms, records⟩ := Dev.slotRearms_spec l d1
    obtain ⟨acqs, entries⟩ := Dev.acqs_of_records records
    refine ⟨?_, ?_, fun k hk _ hm hen mode => ?_, fun h => absurd hr (by rw [h]; exact Bool.false_ne_true), fun u hu => ?_, fun k hk => ?_, fun f i hf => ?_⟩
    · rw [Dev.acq_congr acqs, acq, if_pos rfl]
    · rw [Dev.entry_congr entries, Dev.entry_congr tracker, own]
    · have mem : k ∈ l := by rw [← hl]; simp [hk, hm, hen]
      rw [Dev.on, arms k (.inl ⟨mem, (rd _ _).trans mode⟩)]
      rfl
    · rw [Dev.acq_congr acqs, acq, if_neg hu]
    · rw [Dev.entry_congr entries, Dev.entry_congr tracker, others k hk]
    · rw [kept f i (fun h => hf (List.mem_singleton.mpr h)), rd]
  · rw [if_neg hr]
    refine ⟨?_, ?_, fun _ _ h => absurd h hr, fun _ f i _ => rd f i, fun u hu => ?_, fun k hk => ?_, fun f i _ => rd f i⟩
    · rw [acq, if_pos rfl]
    · rw [Dev.entry_congr tracker, own]
    · rw [acq, if_neg hu]
    · rw [Dev.entry_congr tracker, others k hk]

/-! ## The end of an acquisition (R284, R285) -/

theorem Dev.hbm_units (d : Dev) (w : Bool) (who : Requester) (a n : Nat) : (d.hbm w who a n).regs = d.regs ∧ (d.hbm w who a n).tracker = d.tracker ∧
    (d.hbm w who a n).acqs = d.acqs ∧ (d.hbm w who a n).raised = d.raised := by
  unfold Dev.hbm
  split
  · exact ⟨rfl, rfl, rfl, rfl⟩
  · exact ⟨foldl_keeps Dev.regs _ _ _ (fun _ _ _ => rfl), foldl_keeps Dev.tracker _ _ _ (fun _ _ _ => rfl), foldl_keeps Dev.acqs _ _ _ (fun _ _ _ => rfl),
      foldl_keeps Dev.raised _ _ _ (fun _ _ _ => rfl)⟩

theorem bytesOf_length (n v : Nat) : (bytesOf n v).length = n := by
  induction n generalizing v with
  | zero => rfl
  | succ n ih => rw [bytesOf, List.length_cons, ih]

theorem AcqSpec.put_mem (S : AcqSpec) (m : Mems) (bs : List Byte) : m.put (S.put false S.dest bs) =
    if S.hbm then { m with hbm := writeMem byte0 m.hbm S.dest bs } else { m with host := writeMem byte0 m.host S.dest bs } := by
  unfold AcqSpec.put
  split <;> rfl

/-- The header is written, the descriptor is done, the channel is free. -/
theorem Dev.endAcq_ends {d : Dev} {x : Entry} (hx : d.entry? x.id = some x) (undone : x.done = false) (w : Nat) (A : Acq) (c st : Nat) (m : Mems) :
    (d.endAcq w x A c st).2.decided x.id st ∧ (d.endAcq w x A c st).2.acq w = none ∧ (∀ u, u ≠ w → (d.endAcq w x A c st).2.acq u = d.acq u) ∧
      d.entriesBut (d.endAcq w x A c st).2 x.id ∧
      (∃ bs, bs.length = 64 ∧ (d.endAcq w x A c st).1.foldl Mems.put m = (if (acqSpec x).hbm then { m with hbm := writeMem byte0 m.hbm (acqSpec x).dest bs }
        else { m with host := writeMem byte0 m.host (acqSpec x).dest bs })) ∧
      (d.endAcq w x A c st).2.regs = d.regs ∧ (d.endAcq w x A c st).2.raised = d.raised := by
  unfold Dev.endAcq
  extract_lets S first flags head res d1
  have units : d1.regs = d.regs ∧ d1.tracker = d.tracker ∧ d1.acqs = d.acqs ∧ d1.raised = d.raised := by
    unfold d1
    split
    · exact d.hbm_units _ _ _ _
    · exact ⟨rfl, rfl, rfl, rfl⟩
  obtain ⟨regs, tracker, acqs, raised⟩ := units
  obtain ⟨⟨y, hy, done, status⟩, others⟩ := Dev.finish_decided ((Dev.entry_congr tracker x.id).trans hx) undone st res
  obtain ⟨fregs, facqs, fraised⟩ := d1.finish_units x.id st res
  generalize d1.finish x.id st res = d2 at hy others fregs facqs fraised ⊢
  obtain ⟨sregs, stracker, sraised⟩ := d2.setAcq_units w none
  refine ⟨⟨y, (Dev.entry_congr stracker _).trans hy, done, status⟩, ?_, fun u hu => ?_, fun k hk => ?_, ⟨bytesOf 64 head, bytesOf_length _ _, ?_⟩, ?_, ?_⟩
  · rw [Dev.setAcq_acq, if_pos rfl]
  · rw [Dev.setAcq_acq, if_neg hu, Dev.acq_congr facqs, Dev.acq_congr acqs]
  · rw [Dev.entry_congr stracker, others k hk, Dev.entry_congr tracker]
  · exact S.put_mem m _
  · rw [sregs, fregs, regs]
  · rw [sraised, fraised, raised]

/-- An acquisition with a stop to come, or with every sample written, writes no more. -/
theorem Dev.acqWrite_over {d : Dev} {w : Nat} {A : Acq} {x : Entry} (hA : d.acq w = some A) (hx : d.entry? A.e = some x)
    (h : A.stop.isSome = true ∨ A.stop = none ∧ A.trig.isSome = true ∧ (acqSpec x).pre + (acqSpec x).post ≤ A.written) :
    d.acqWrite w = ([], d) ∨ d.acqWrite w = ([], d.setAcq w (some A)) := by
  unfold Dev.acqWrite
  rw [hA]
  dsimp only
  rw [hx]
  cases trig : A.trig with
  | none => exact .inl rfl
  | some f =>
    dsimp only
    rcases h with stop | ⟨stop, -, all⟩
    · exact .inl (if_pos stop)
    · refine .inr ?_
      rw [stop, if_neg (show ¬ (none : Option (Nat × Nat)).isSome = true from Bool.false_ne_true), Nat.sub_eq_zero_of_le all, AcqSpec.run]
      simp [stop]

theorem acquisitionEnd_writes (s : State) (w c st : Nat) (A : Acq) (x : Entry) (hw : w < 8) (hA : s.dev.acq w = some A)
    (hx : s.dev.open? A.e 0x3A = some x)
    (h : A.stop = some (c, st) ∨ A.stop = none ∧ A.trig.isSome = true ∧ (acqSpec x).pre + (acqSpec x).post ≤ A.written ∧ st = Status.OK) :
    Writes (.acquisitionEnd w) s (fun m e => e.decided A.e st ∧ e.acq w = none ∧ (∀ u, u ≠ w → e.acq u = s.dev.acq u) ∧ s.dev.entriesBut e A.e ∧
      (∃ bs, bs.length = 64 ∧ m = (if (acqSpec x).hbm then { s.mem with hbm := writeMem byte0 s.mem.hbm (acqSpec x).dest bs }
        else { s.mem with host := writeMem byte0 s.mem.host (acqSpec x).dest bs })) ∧ s.dev.keepsBut e []) := by
  obtain ⟨entry, undone⟩ := Dev.open_entry hx
  have written := Dev.acqWrite_over hA entry (h.imp (fun h => by rw [h]; rfl) (fun h => ⟨h.1, h.2.1, h.2.2.1⟩))
  obtain ⟨d, hd, acqs, tracker, regs⟩ : ∃ d, s.dev.acqWrite w = ([], d) ∧ (∀ u, d.acq u = s.dev.acq u) ∧ d.tracker = s.dev.tracker ∧ d.regs = s.dev.regs := by
    rcases written with h | h
    · exact ⟨_, h, fun _ => rfl, rfl, rfl⟩
    · obtain ⟨regs, tracker, -⟩ := s.dev.setAcq_units w (some A)
      refine ⟨_, h, fun u => ?_, tracker, regs⟩
      rw [Dev.setAcq_acq]
      split
      next hu => rw [hu, hA]
      · rfl
  have entries := Dev.entry_congr tracker
  have open_ : d.open? A.e 0x3A = some x := by rw [Dev.open?, entries]; exact hx
  have id_ := Dev.entry_id entry
  refine writes_onMem rfl (decide_eq_true hw) ?_
  have ended : ∃ c', s.dev.acqEnd w = d.endAcq w x A c' st := by
    unfold Dev.acqEnd
    rw [hd]
    dsimp only
    rw [acqs w, hA]
    dsimp only
    rw [open_]
    rcases h with stop | ⟨stop, trig, all, rfl⟩
    · exact ⟨c, by rw [stop]; rfl⟩
    · exact ⟨0, by rw [stop]; exact if_pos ⟨trig, all⟩⟩
  obtain ⟨c', hc⟩ := ended
  rw [hc]
  obtain ⟨decided, free, others, rest, header, eregs, -⟩ := Dev.endAcq_ends (by rw [id_, entries]; exact entry) undone w A c' st s.mem
  rw [id_] at decided rest
  exact ⟨decided, free, fun u hu => (others u hu).trans (acqs u), fun k hk => (rest k hk).trans (entries k), header,
    fun f i _ => Dev.rd_congr (eregs.trans regs) f i⟩

theorem acquisitionTimeout_writes (s : State) (w : Nat) (A : Acq) (x : Entry) (hw : w < 8) (hA : s.dev.acq w = some A) (hx : s.dev.open? A.e 0x3A = some x)
    (trig : A.trig = none) (stop : A.stop = none) (tmo : (acqSpec x).tmo ≠ 0) (late : A.arm + ms (acqSpec x).tmo ≤ s.dev.bed) :
    Writes (.acquisitionTimeout w) s (fun m e => e.decided A.e Status.TIMEOUT ∧ e.acq w = none ∧ e.raised = s.dev.raised ++ [⟨0x2E2, w, 0, s.dev.cycle⟩] ∧
      (∃ bs, bs.length = 64 ∧ m = (if (acqSpec x).hbm then { s.mem with hbm := writeMem byte0 s.mem.hbm (acqSpec x).dest bs }
        else { s.mem with host := writeMem byte0 s.mem.host (acqSpec x).dest bs })) ∧ s.dev.keepsBut e []) := by
  obtain ⟨entry, undone⟩ := Dev.open_entry hx
  have id_ := Dev.entry_id entry
  have ended : s.dev.acqTimeout w = (s.dev.raise 0x2E2 w).endAcq w x A 1 Status.TIMEOUT := by
    unfold Dev.acqTimeout
    rw [hA]
    dsimp only
    rw [hx]
    exact if_pos ⟨by rw [trig]; rfl, by rw [stop]; rfl, tmo, late⟩
  refine writes_onMem rfl (decide_eq_true hw) ?_
  rw [ended]
  have raised : (s.dev.raise 0x2E2 w).entry? x.id = some x := by rw [id_]; exact entry
  obtain ⟨decided, free, -, -, header, eregs, eraised⟩ := Dev.endAcq_ends raised undone w A 1 Status.TIMEOUT s.mem
  rw [id_] at decided
  exact ⟨decided, free, eraised, header, fun f i _ => Dev.rd_congr eregs f i⟩

end Sys2Proof.Machine
end

section
open Sys2Proof Sys2Proof.Machine

/-- Settles O47: clause by clause, the slot's registers, its firings and the acquisitions. -/
theorem slotsFireAndAcquisitionsRun : Obligations.SlotsFireAndAcquisitionsRun :=
  ⟨⟨slotEnable_acts, slotArm_acts, taForce_acts⟩, ⟨firing_acts, forcedFiring_acts⟩,
    acquire_acts, acquisitionArm_acts, acquisitionEnd_writes, acquisitionTimeout_writes⟩

end

section
/-!
Obligation O51, first part. Service of requests (R337, R342, R345, R350): what a request takes from its queue, what its access leaves in the banks,
and an uncorrectable word of a stream read.
-/
namespace Sys2Proof.Machine

/-! ### What an access leaves as it was -/

/-- What the traffic of the memory leaves as it was: the events, the descriptors, the controller's own record and the time. -/
def Dev.memView (d : Dev) : List Raise × List Entry × Mc × Nat × Nat := (d.raised, d.tracker, d.mc, d.cycle, d.now)

/-- The queues of a pseudo-channel and its watermark drain. -/
def Pc.queues (P : Pc) : List Req × List Req × Bool × Nat := (P.reads, P.writes, P.draining, P.moved)

/-- From `d`, only rows, trackers, banks and the count of neighbour refreshes have changed. -/
def Dev.Accessed (d e : Dev) : Prop :=
  e.memView = d.memView ∧ (∀ k, (e.pc k).queues = (d.pc k).queues) ∧ d.keepsFields e [.MC_PC_COUNT_NEIGHBOUR]

theorem Dev.Accessed.refl (d : Dev) : d.Accessed d := ⟨rfl, fun _ => rfl, fun _ _ _ => rfl⟩

theorem Dev.Accessed.trans {d e f : Dev} (h : d.Accessed e) (g : e.Accessed f) : d.Accessed f := by
  obtain ⟨view, queues, rd⟩ := h
  obtain ⟨view', queues', rd'⟩ := g
  exact ⟨view'.trans view, fun k => (queues' k).trans (queues k), fun x i hx => (rd' x i hx).trans (rd x i hx)⟩

theorem Dev.accessed_upPc (d : Dev) (c : Nat) (f : Pc → Pc) (hf : ∀ P, (f P).queues = P.queues) : d.Accessed (d.upPc c f) := by
  refine ⟨rfl, fun k => ?_, fun _ _ _ => rfl⟩
  rw [Dev.upPc_pc]
  split
  next hk => rw [hk, hf]
  · rfl

theorem Dev.accessed_tally (d : Dev) (ev i n : Nat) : d.Accessed (d.tally ev i n) := by
  unfold Dev.tally
  split
  · exact .refl d
  · exact ⟨rfl, fun _ => rfl, fun _ _ _ => rfl⟩

theorem Dev.count_units (d : Dev) (f : Fld) (i n : Nat) : (d.count f i n).memView = d.memView ∧ (d.count f i n).pcs = d.pcs := ⟨rfl, rfl⟩

theorem Dev.pc_congr {d e : Dev} (h : e.pcs = d.pcs) (k : Nat) : e.pc k = d.pc k := by rw [Dev.pc, h, Dev.pc]

theorem Dev.accessed_holdBank (d : Dev) (c b : Nat) : d.Accessed (d.holdBank c b) := by
  obtain ⟨view, queues, rd⟩ := d.accessed_upPc c (fun P => { P with bankTo := tset (fun _ => 0) P.bankTo b (d.now + ns (d.openVal 8 % 201))
                                                                    rows := tset (fun _ => none) P.rows b none }) (fun _ => rfl)
  exact ⟨view, queues, rd⟩

theorem Dev.accessed_activate (d : Dev) (c b row : Nat) : d.Accessed (d.activate c b row) := by
  unfold Dev.activate
  extract_lets t lim hit rest least t' d1
  have one : d.Accessed d1 := d.accessed_upPc c _ (fun _ => rfl)
  split
  · refine (one.trans (d1.accessed_holdBank c b)).trans ?_
    obtain ⟨view, pcs⟩ := (d1.holdBank c b).count_units .MC_PC_COUNT_NEIGHBOUR c 1
    exact ⟨view, fun k => by rw [Dev.pc_congr pcs], fun f i hf => Dev.wr_rd_ne _ _ _ _ _ _ (fun h => hf (List.mem_singleton.mpr h))⟩
  · exact one

theorem Dev.accessed_access (d : Dev) (a : Nat) (hint : Bool) : d.Accessed (d.access a hint) := by
  unfold Dev.access
  extract_lets c b row keep open_ d1 at_
  have one : d.Accessed d1 := by
    unfold d1
    split
    · exact .refl d
    · exact (d.accessed_activate c b row).trans (Dev.accessed_tally _ _ _ _)
  exact one.trans (d1.accessed_upPc c _ (fun _ => rfl))

/-! ### A request leaves its queue -/

/-- The request `r` leaves its queue, with or without a watermark drain. -/
def Pc.dequeue (P : Pc) (drain : Bool) (r : Req) : Pc :=
  { P with draining := drain, moved := if !r.write then 0 else if drain then (if P.draining then P.moved else 0) + 1 else P.moved
           reads := if r.write then P.reads else P.reads.erase r, writes := if r.write then P.writes.erase r else P.writes }

/-- The access of request `r`, out of its queue. -/
def Dev.attend (d : Dev) (c : Nat) (r : Req) : Dev :=
  ((d.upPc c (fun P => P.dequeue (d.drains c) r)).access r.addr r.who.hint).tally (if r.write then 0x21 else 0x20) c (wordsOf r.addr r.len).length

theorem Dev.attend_spec (d : Dev) (c : Nat) (r : Req) : (d.attend c r).memView = d.memView ∧
    (∀ k, ((d.attend c r).pc k).queues = (if k = c then (d.pc c).dequeue (d.drains c) r else d.pc k).queues) ∧
    d.keepsFields (d.attend c r) [.MC_PC_COUNT_NEIGHBOUR] := by
  obtain ⟨view, queues, rd⟩ := ((d.upPc c (fun P => P.dequeue (d.drains c) r)).accessed_access r.addr r.who.hint).trans
    (Dev.accessed_tally _ (if r.write then 0x21 else 0x20) c (wordsOf r.addr r.len).length)
  exact ⟨view, fun k => (queues k).trans (by rw [Dev.upPc_pc]), rd⟩

/-- The picked request is attended to: its data is written, or read. -/
theorem Dev.serve_picked {d : Dev} {c : Nat} {r : Req} (m : Mems) (err : Nat) (free : d.pcFree c = true) (calm : d.urgentNow c = false)
    (pick : d.pick c (d.drains c) = some r) (bank : d.bankHeld c (d.bankOf r.addr) = false) :
    Dev.serve m d c err = if r.write then ([], (d.attend c r).serveWrite c r err) else Dev.serveRead m (d.attend c r) c r err := by
  unfold Dev.serve
  rw [if_neg (by rw [free, calm]; simp)]
  dsimp only
  rw [pick]
  dsimp only
  rw [if_neg (by rw [bank]; exact Bool.false_ne_true)]
  rfl

theorem Dev.serve_idle {d : Dev} {c : Nat} (m : Mems) (err : Nat) (h : d.pcFree c = false ∨ d.urgentNow c = true ∨ d.pick c (d.drains c) = none ∨
    ∃ r, d.pick c (d.drains c) = some r ∧ d.bankHeld c (d.bankOf r.addr) = true) : Dev.serve m d c err = ([], d) := by
  unfold Dev.serve
  dsimp only
  rcases h with free | urgent | none_ | ⟨r, pick, held⟩
  · exact if_pos (.inl (by rw [free]; rfl))
  · exact if_pos (.inr urgent)
  · rw [none_]
    exact ite_self _
  · rw [pick]
    dsimp only
    rw [if_pos held]
    exact ite_self _

/-! ### Without an error -/

/-- The words that reach a Word Buffer change lanes only. -/
theorem Dev.served_kept (m : Mems) (d : Dev) (r : Req) : (Dev.served m d r).memView = d.memView ∧ (Dev.served m d r).pcs = d.pcs ∧
    (Dev.served m d r).regs = d.regs := by
  unfold Dev.served
  split
  · dsimp only
    split
    · exact ⟨rfl, rfl, rfl⟩
    · exact ⟨foldl_keeps Dev.memView _ _ _ (fun _ _ _ => rfl), foldl_keeps Dev.pcs _ _ _ (fun _ _ _ => rfl), foldl_keeps Dev.regs _ _ _ (fun _ _ _ => rfl)⟩
  · exact ⟨rfl, rfl, rfl⟩

theorem Dev.serveRead_good (m : Mems) {d : Dev} (hb : d.mc.bad = []) (c : Nat) (r : Req) : Dev.serveRead m d c r 0 = ([], Dev.served m d r) := by
  unfold Dev.serveRead
  simp [hb]

theorem Dev.serveWrite_good {d : Dev} (hb : d.mc.bad = []) (c : Nat) (r : Req) : d.serveWrite c r 0 = d := by
  unfold Dev.serveWrite
  simp only [hb, if_neg (show ¬ (0 : Nat) = 2 by decide), show ¬ (0 : Nat) = 1 by decide, false_and, if_false, List.contains_nil,
    List.filter_false, List.foldl_nil, List.filter_nil]
  rw [← hb]

theorem requestServed_acts (s : State) (c : Nat) (r : Req) (hc : c < 64) (free : s.dev.pcFree c = true) (calm : s.dev.urgentNow c = false)
    (good : s.dev.mc.bad = []) :
    let P := s.dev.pc c
    let n := (P.writes.take 64).length
    let drain : Bool := if P.draining then decide (16 < n) && decide (P.moved < 32)
      else decide (48 ≤ n) && (decide (P.moved < 32) || (P.reads.take 64).all (fun q => q.who.cls != 0))
    s.dev.pick c drain = some r → s.dev.bankHeld c (s.dev.bankOf r.addr) = false →
    Acts (.hbmRequestService c 0) s (fun e => (r.write = false → (e.pc c).moved = 0) ∧
      (r.write = true → drain = true → (e.pc c).moved = (if P.draining then P.moved else 0) + 1) ∧ (e.pc c).reads = (if r.write then P.reads else P.reads.erase r) ∧
      (e.pc c).writes = (if r.write then P.writes.erase r else P.writes) ∧ (e.pc c).draining = drain ∧ e.raised = s.dev.raised ∧
      e.mc.bad = [] ∧ (∀ k, k ≠ c → (e.pc k).reads = (s.dev.pc k).reads ∧ (e.pc k).writes = (s.dev.pc k).writes) ∧ e.tracker = s.dev.tracker ∧
      s.dev.keepsFields e [.MC_PC_COUNT_NEIGHBOUR]) := by
  intro P n drain pick bank
  have hdrain : drain = s.dev.drains c := rfl
  rw [hdrain] at pick ⊢
  have serve := Dev.serve_picked s.mem 0 free calm pick bank
  obtain ⟨view, queues, rd⟩ := s.dev.attend_spec c r
  have bad : (s.dev.attend c r).mc.bad = [] := (congrArg (fun v => v.2.2.1.bad) view).trans good
  obtain ⟨e, he, eview, epcs, erd⟩ : ∃ e, Dev.serve s.mem s.dev c 0 = ([], e) ∧ e.memView = (s.dev.attend c r).memView ∧
      e.pcs = (s.dev.attend c r).pcs ∧ e.regs = (s.dev.attend c r).regs := by
    cases hw : r.write
    · rw [serve, hw, if_neg Bool.false_ne_true, Dev.serveRead_good _ bad]
      exact ⟨_, rfl, Dev.served_kept _ _ _⟩
    · rw [serve, hw, if_pos rfl, Dev.serveWrite_good bad]
      exact ⟨_, rfl, rfl, rfl, rfl⟩
  have own : (e.pc c).queues = (P.dequeue (s.dev.drains c) r).queues := by rw [Dev.pc_congr epcs, queues, if_pos rfl]
  have other (k : Nat) (hk : k ≠ c) : (e.pc k).queues = (s.dev.pc k).queues := by rw [Dev.pc_congr epcs, queues, if_neg hk]
  have kept := eview.trans view
  have moved : (e.pc c).moved = (P.dequeue (s.dev.drains c) r).moved := congrArg (fun q => q.2.2.2) own
  refine acts_onMem rfl (decide_eq_true hc) (by rw [he]) ?_
  rw [he]
  refine ⟨fun hw => ?_, fun hw hd => ?_, congrArg (fun q => q.1) own, congrArg (fun q => q.2.1) own, congrArg (fun q => q.2.2.1) own,
    congrArg (fun v => v.1) kept, (congrArg (fun v => v.2.2.1.bad) kept).trans good,
    fun k hk => ⟨congrArg (fun q => q.1) (other k hk), congrArg (fun q => q.2.1) (other k hk)⟩, congrArg (fun v => v.2.1) kept,
    fun f i hf => (Dev.rd_congr erd f i).trans (rd f i hf)⟩
  · rw [moved, Pc.dequeue, hw]
    rfl
  · rw [moved, Pc.dequeue, hw, hd]
    rfl

/-! ### An uncorrectable word (R350) -/

/-- The fields in which an uncorrectable word is recorded. -/
def ueFields : List Fld := [.MC_STATUS_UE, .MC_PC_COUNT_UE, .MC_ERR_VALID, .MC_ERR_MORE, .MC_ERR_KIND, .MC_ERR_ADDR]

/-- The first uncorrectable word is recorded with its place and kind, a later one in MORE. -/
theorem Dev.ueWord_spec (d : Dev) (c kind a : Nat) : (d.ueWord c kind a).on .MC_STATUS_UE 0 = true ∧ (d.ueWord c kind a).on .MC_ERR_VALID 0 = true ∧
    (d.ueWord c kind a).rd .MC_PC_COUNT_UE c = min (d.rd .MC_PC_COUNT_UE c + 1) (2 ^ Fld.MC_PC_COUNT_UE.spec.width - 1) ∧
    (d.on .MC_ERR_VALID 0 = false → (d.ueWord c kind a).rd .MC_ERR_ADDR 0 = a / 32 % 2 ^ Fld.MC_ERR_ADDR.spec.width ∧
      (d.ueWord c kind a).rd .MC_ERR_KIND 0 = kind % 2 ^ Fld.MC_ERR_KIND.spec.width) ∧
    (d.on .MC_ERR_VALID 0 = true → (d.ueWord c kind a).on .MC_ERR_MORE 0 = true ∧ (d.ueWord c kind a).rd .MC_ERR_ADDR 0 = d.rd .MC_ERR_ADDR 0) ∧
    d.keepsFields (d.ueWord c kind a) ueFields ∧ (d.ueWord c kind a).memView = d.memView ∧ (d.ueWord c kind a).pcs = d.pcs := by
  have bit : 1 % 2 ^ Fld.MC_STATUS_UE.spec.width = 1 ∧ 1 % 2 ^ Fld.MC_ERR_VALID.spec.width = 1 ∧ 1 % 2 ^ Fld.MC_ERR_MORE.spec.width = 1 := ⟨rfl, rfl, rfl⟩
  obtain ⟨ue, valid, more⟩ := bit
  have width : min (d.rd .MC_PC_COUNT_UE c + 1) (2 ^ Fld.MC_PC_COUNT_UE.spec.width - 1) % 2 ^ Fld.MC_PC_COUNT_UE.spec.width =
      min (d.rd .MC_PC_COUNT_UE c + 1) (2 ^ Fld.MC_PC_COUNT_UE.spec.width - 1) :=
    Nat.mod_eq_of_lt (Nat.lt_of_le_of_lt (Nat.min_le_right _ _) (Nat.sub_lt (Nat.two_pow_pos _) Nat.one_pos))
  have first (g : Fld) (i : Nat) : ((d.set1 .MC_STATUS_UE 0).count .MC_PC_COUNT_UE c 1).rd g i = if g = .MC_PC_COUNT_UE ∧ i = c then
      min (d.rd .MC_PC_COUNT_UE c + 1) (2 ^ Fld.MC_PC_COUNT_UE.spec.width - 1) else if g = .MC_STATUS_UE ∧ i = 0 then 1 else d.rd g i := by
    simp only [Dev.count, Dev.wr_rd, Dev.set1_rd, reduceCtorEq, false_and, if_false, width, ue]
  have units : ((d.set1 .MC_STATUS_UE 0).count .MC_PC_COUNT_UE c 1).memView = d.memView ∧ ((d.set1 .MC_STATUS_UE 0).count .MC_PC_COUNT_UE c 1).pcs = d.pcs :=
    ⟨rfl, rfl⟩
  unfold Dev.ueWord
  dsimp only
  generalize (d.set1 .MC_STATUS_UE 0).count .MC_PC_COUNT_UE c 1 = d1 at first units ⊢
  obtain ⟨view, pcs⟩ := units
  have was : d1.on .MC_ERR_VALID 0 = d.on .MC_ERR_VALID 0 := by rw [Dev.on, first]; rfl
  have others (g : Fld) (hg : g ∉ ueFields) : g ≠ .MC_STATUS_UE ∧ g ≠ .MC_PC_COUNT_UE ∧ g ≠ .MC_ERR_VALID ∧ g ≠ .MC_ERR_MORE ∧ g ≠ .MC_ERR_KIND ∧
      g ≠ .MC_ERR_ADDR := by
    simpa [ueFields] using hg
  cases hv : d.on .MC_ERR_VALID 0
  · rw [was, hv, if_neg Bool.false_ne_true]
    have rd (g : Fld) (i : Nat) : ((((d1.set1 .MC_ERR_VALID 0).clr .MC_ERR_MORE 0).wr .MC_ERR_KIND 0 kind).wr .MC_ERR_ADDR 0 (a / 32)).rd g i =
        if g = .MC_ERR_ADDR ∧ i = 0 then a / 32 % 2 ^ Fld.MC_ERR_ADDR.spec.width else if g = .MC_ERR_KIND ∧ i = 0 then kind % 2 ^ Fld.MC_ERR_KIND.spec.width
        else if g = .MC_ERR_MORE ∧ i = 0 then 0 else if g = .MC_ERR_VALID ∧ i = 0 then 1 else d1.rd g i := by
      rw [Dev.wr_rd, Dev.wr_rd, Dev.clr, Dev.wr_rd, Dev.set1_rd, valid, Nat.zero_mod]
    refine ⟨?_, ?_, ?_, fun _ => ⟨?_, ?_⟩, nofun, fun g i hg => ?_, view, pcs⟩
    · rw [Dev.on, rd, first]
      simp
    · rw [Dev.on, rd]
      simp
    · rw [rd, first]
      simp
    · rw [rd]
      simp
    · rw [rd]
      simp
    · obtain ⟨h1, h2, h3, h4, h5, h6⟩ := others g hg
      rw [rd, first]
      simp [h1, h2, h3, h4, h5, h6]
  · rw [was, hv, if_pos rfl]
    have rd (g : Fld) (i : Nat) : (d1.set1 .MC_ERR_MORE 0).rd g i = if g = .MC_ERR_MORE ∧ i = 0 then 1 else d1.rd g i := by rw [Dev.set1_rd, more]
    refine ⟨?_, ?_, ?_, nofun, fun _ => ⟨?_, ?_⟩, fun g i hg => ?_, view, pcs⟩
    · rw [Dev.on, rd, first]
      simp
    · have same : (d1.set1 .MC_ERR_MORE 0).rd .MC_ERR_VALID 0 = d1.rd .MC_ERR_VALID 0 := by rw [rd]; rfl
      rw [Dev.on, same, ← Dev.on.eq_def, was, hv]
    · rw [rd, first]
      simp
    · rw [Dev.on, rd]
      simp
    · rw [rd, first]
      simp
    · obtain ⟨h1, h2, -, h4, -, -⟩ := others g hg
      rw [rd, first]
      simp [h1, h2, h4]

/-- The first word of a request is one of its words, once. -/
theorem wordsOf_first (a : Nat) {len : Nat} (h : len ≠ 0) (p : Nat → Bool) (hp : ∀ w, p w = (w == a / 32)) : (wordsOf a len).filter p = [a / 32] := by
  obtain ⟨n, hn⟩ : ∃ n, (a + len + 31) / 32 - a / 32 = n + 1 := ⟨(a + len + 31) / 32 - a / 32 - 1, by omega⟩
  rw [wordsOf, hn, List.range_succ_eq_map, List.map_cons, Nat.zero_add, List.filter_cons_of_pos (by simp [hp])]
  refine congrArg _ (List.filter_eq_nil_iff.mpr (fun w hw => ?_))
  simp only [List.mem_map, List.mem_range] at hw
  obtain ⟨_, ⟨i, -, rfl⟩, rfl⟩ := hw
  rw [hp, beq_iff_eq]
  omega

/-- A word that was good is spoilt: it joins the others. -/
theorem Dev.spoil_spec {d : Dev} {w : Nat} (h : w ∉ d.mc.bad) : (d.spoil w).mc = { d.mc with bad := d.mc.bad ++ [w] } ∧ (d.spoil w).regs = d.regs ∧
    (d.spoil w).pcs = d.pcs ∧ (d.spoil w).raised = d.raised ∧ (d.spoil w).cycle = d.cycle ∧ (d.spoil w).now = d.now := by
  rw [Dev.spoil, if_neg (by simpa using h)]
  exact ⟨rfl, rfl, rfl, rfl, rfl, rfl⟩

theorem Dev.unitOf_stream {d e : Dev} (h : ∀ i, e.rd .SITE_MEMBER_MASK i = d.rd .SITE_MEMBER_MASK i) (p : Nat) :
    e.unitOf (.stream p) = d.unitOf (.stream p) := by
  simp only [Dev.unitOf, Dev.siteOf, Dev.isMember, h]

/-- A stream read whose first word is uncorrectable, where nothing else is. -/
theorem Dev.serveRead_spoilt (m : Mems) {d : Dev} {c p : Nat} {r : Req} (hb : d.mc.bad = []) (hw : (d.pc c).writes = []) (who : r.who = .stream p)
    (len : r.len ≠ 0) : Dev.serveRead m d c r 2 = ([], ((d.spoil (r.addr / 32)).ueWord c 0 (32 * (r.addr / 32))).raiseK 0x181 c (d.unitOf r.who)) := by
  obtain ⟨mc, regs, pcs, -⟩ := Dev.spoil_spec (d := d) (w := r.addr / 32) (by rw [hb]; exact List.not_mem_nil)
  have unit : (d.spoil (r.addr / 32)).unitOf r.who = d.unitOf r.who := by rw [who]; exact Dev.unitOf_stream (fun i => Dev.rd_congr regs _ i) p
  have first := wordsOf_first r.addr len (fun w => (d.spoil (r.addr / 32)).mc.bad.contains w && !(d.spoil (r.addr / 32)).covered c w) (fun w => by
    rw [mc, hb, Dev.covered, Dev.pc_congr pcs, hw, List.any_nil, Bool.not_false, Bool.and_true, List.nil_append, List.contains_cons, List.contains_nil,
      Bool.or_false])
  unfold Dev.serveRead
  rw [if_neg (show ¬ 2 = 1 by decide), if_pos rfl]
  dsimp only
  rw [first, List.foldl_cons, List.foldl_nil, Dev.served, ← unit]
  simp only [who, Dev.ueRead]
  rfl

theorem streamReadSpoilt_acts (s : State) (c p : Nat) (r : Req) (hc : c < 64) (free : s.dev.pcFree c = true) (calm : s.dev.urgentNow c = false)
    (good : s.dev.mc.bad = []) (idle : (s.dev.pc c).draining = false) (none_ : (s.dev.pc c).writes = []) (pick : s.dev.pick c false = some r)
    (bank : s.dev.bankHeld c (s.dev.bankOf r.addr) = false) (who : r.who = .stream p) (read : r.write = false) (len : r.len ≠ 0) :
    Acts (.hbmRequestService c 2) s (fun e => e.on .MC_STATUS_UE 0 = true ∧ e.on .MC_ERR_VALID 0 = true ∧ e.mc.bad = [r.addr / 32] ∧
      e.raised = s.dev.raised ++ [⟨0x181, c, s.dev.unitOf r.who, s.dev.cycle⟩] ∧
      e.rd .MC_PC_COUNT_UE c = min (s.dev.rd .MC_PC_COUNT_UE c + 1) (2 ^ Fld.MC_PC_COUNT_UE.spec.width - 1) ∧
      (s.dev.on .MC_ERR_VALID 0 = false → e.rd .MC_ERR_ADDR 0 = r.addr / 32 % 2 ^ Fld.MC_ERR_ADDR.spec.width ∧ e.rd .MC_ERR_KIND 0 = 0) ∧
      (s.dev.on .MC_ERR_VALID 0 = true → e.on .MC_ERR_MORE 0 = true ∧ e.rd .MC_ERR_ADDR 0 = s.dev.rd .MC_ERR_ADDR 0)) := by
  have nodrain : s.dev.drains c = false := by
    rw [Dev.drains, idle, none_]
    rfl
  have serve := Dev.serve_picked s.mem 2 free calm (by rw [nodrain]; exact pick) bank
  obtain ⟨view, queues, rd⟩ := s.dev.attend_spec c r
  rw [read, if_neg Bool.false_ne_true] at serve
  generalize s.dev.attend c r = d at serve view queues rd
  have writes : (d.pc c).writes = [] := by
    refine (congrArg (fun q => q.2.1) (queues c)).trans ?_
    rw [if_pos rfl, Pc.dequeue, read]
    exact none_
  have bad : d.mc.bad = [] := (congrArg (fun v => v.2.2.1.bad) view).trans good
  have unit : d.unitOf r.who = s.dev.unitOf r.who := by rw [who]; exact Dev.unitOf_stream (fun i => rd _ i (by decide)) p
  rw [Dev.serveRead_spoilt s.mem bad writes who len, unit] at serve
  obtain ⟨mc, regs, -, sraised, scycle, -⟩ := Dev.spoil_spec (d := d) (w := r.addr / 32) (by rw [bad]; exact List.not_mem_nil)
  have sbad : (d.spoil (r.addr / 32)).mc.bad = [r.addr / 32] := by rw [mc, bad]; rfl
  have kept (f : Fld) (i : Nat) (hf : f ≠ .MC_PC_COUNT_NEIGHBOUR) : (d.spoil (r.addr / 32)).rd f i = s.dev.rd f i :=
    (Dev.rd_congr regs f i).trans (rd f i (fun h => hf (List.mem_singleton.mp h)))
  have was : (d.spoil (r.addr / 32)).on .MC_ERR_VALID 0 = s.dev.on .MC_ERR_VALID 0 := by rw [Dev.on, kept _ _ (by decide), Dev.on]
  have raised := sraised.trans (congrArg (fun v => v.1) view)
  have cycle := scycle.trans (congrArg (fun v => v.2.2.2.1) view)
  have count := kept .MC_PC_COUNT_UE c (by decide)
  have addr := kept .MC_ERR_ADDR 0 (by decide)
  generalize d.spoil (r.addr / 32) = d1 at serve sbad was raised cycle count addr
  obtain ⟨ue, valid, counted, first, later, -, wview, -⟩ := d1.ueWord_spec c 0 (32 * (r.addr / 32))
  rw [was, Nat.mul_div_cancel_left _ (by decide)] at first
  rw [was, addr] at later
  have wraised : (d1.ueWord c 0 (32 * (r.addr / 32))).raised = s.dev.raised := (congrArg (fun v => v.1) wview).trans raised
  have wcycle : (d1.ueWord c 0 (32 * (r.addr / 32))).cycle = s.dev.cycle := (congrArg (fun v => v.2.2.2.1) wview).trans cycle
  have wbad := (congrArg (fun v => v.2.2.1.bad) wview).trans sbad
  refine acts_onMem rfl (decide_eq_true hc) (by rw [serve]) ?_
  rw [serve]
  generalize d1.ueWord c 0 (32 * (r.addr / 32)) = e at ue valid counted first later wraised wcycle wbad ⊢
  exact ⟨ue, valid, wbad, by rw [Dev.raiseK_raised, wraised, wcycle], counted.trans (by rw [count]), first, later⟩

theorem noRequestServed_acts (s : State) (c err : Nat) (hc : c < 64) (h : s.dev.pcFree c = false ∨ s.dev.urgentNow c = true ∨
      s.dev.pick c (s.dev.drains c) = none ∨ ∃ r, s.dev.pick c (s.dev.drains c) = some r ∧ s.dev.bankHeld c (s.dev.bankOf r.addr) = true) :
    Acts (.hbmRequestService c err) s (fun e => e = s.dev) := by
  have idle := Dev.serve_idle s.mem err h
  exact acts_onMem rfl (decide_eq_true hc) (by rw [idle]) (by rw [idle])

end Sys2Proof.Machine
end

section
/-!
Obligation O51, second part. Refresh, held rows, refresh bands and retraining (R339 to R343, R345, R347).
-/
namespace Sys2Proof.Machine

/-! ### The debt of a pseudo-channel -/

/-- The debt of a pseudo-channel as it stands, and when it stood. -/
def Pc.debt (P : Pc) : Nat × Nat := (P.debt64, P.debtAt)

/-- Just after its setting, the debt is what was set. -/
theorem Dev.debt64_now {d : Dev} {c v : Nat} (h : (d.pc c).debt = (v, d.now)) : d.debt64 c = v := by
  have hv : (d.pc c).debt64 = v := congrArg Prod.fst h
  have ht : (d.pc c).debtAt = d.now := congrArg Prod.snd h
  unfold Dev.debt64
  dsimp only
  rw [hv, ht]
  split <;> simp

theorem Dev.debt64_congr {d e : Dev} {c : Nat} (h : (e.pc c).debt = (d.pc c).debt) (hn : e.now = d.now) (hs : e.inSR (c / 32) = d.inSR (c / 32)) :
    e.debt64 c = d.debt64 c := by
  have hv : (e.pc c).debt64 = (d.pc c).debt64 := congrArg Prod.fst h
  have ht : (e.pc c).debtAt = (d.pc c).debtAt := congrArg Prod.snd h
  unfold Dev.debt64
  dsimp only
  rw [hv, ht, hn, hs]

theorem Dev.inSR_congr {d e : Dev} (h : e.rd .MC_STATUS_SR 0 = d.rd .MC_STATUS_SR 0) (s : Nat) : e.inSR s = d.inSR s := by rw [Dev.inSR, h, Dev.inSR]

/-- What a change of one pseudo-channel keeps of every pseudo-channel. -/
theorem Dev.upPc_keeps {α : Type} (φ : Pc → α) (d : Dev) (c : Nat) (f : Pc → Pc) (hf : φ (f (d.pc c)) = φ (d.pc c)) (k : Nat) :
    φ ((d.upPc c f).pc k) = φ (d.pc k) := by
  rw [Dev.upPc_pc]
  split
  next hk => rw [hf, hk]
  · rfl

/-! ### REFpb (R341, R342) -/

theorem Dev.tally_units (d : Dev) (ev i n : Nat) : (d.tally ev i n).regs = d.regs ∧ (d.tally ev i n).pcs = d.pcs ∧ (d.tally ev i n).now = d.now ∧
    (d.tally ev i n).mc = d.mc ∧ (d.tally ev i n).tracker = d.tracker := by
  unfold Dev.tally
  split <;> exact ⟨rfl, rfl, rfl, rfl, rfl⟩

theorem Dev.setDebt_debt (d : Dev) (c v k : Nat) : ((d.setDebt c v).pc k).debt = if k = c then (v, d.now) else (d.pc k).debt := by
  rw [Dev.setDebt, Dev.upPc_pc]
  split <;> rfl

/-- A REFpb lowers the debt by a bank's share and goes to the next bank. -/
theorem Dev.refpb_spec (d : Dev) (c : Nat) : (d.refpb c).now = d.now ∧
    ((d.refpb c).pc c).debt = (d.debt64 c - trefi (d.rd .MC_PC_STATUS_RBAND c), d.now) ∧ ((d.refpb c).pc c).reads = (d.pc c).reads ∧
    (d.refpb c).rd .MC_PC_STATUS_NEXT_BANK c = (d.rd .MC_PC_STATUS_NEXT_BANK c + 1) % 64 ∧ d.keepsBut (d.refpb c) [(.MC_PC_STATUS_NEXT_BANK, c)] := by
  have bank : (d.rd .MC_PC_STATUS_NEXT_BANK c + 1) % 64 % 2 ^ Fld.MC_PC_STATUS_NEXT_BANK.spec.width = (d.rd .MC_PC_STATUS_NEXT_BANK c + 1) % 64 :=
    Nat.mod_mod _ _
  unfold Dev.refpb
  extract_lets b v d1 d2
  have debt1 : (d1.pc c).debt = (d.debt64 c - trefi (d.rd .MC_PC_STATUS_RBAND c), d.now) := (Dev.setDebt_debt d c _ c).trans (if_pos rfl)
  have reads1 : (d1.pc c).reads = (d.pc c).reads :=
    d.upPc_keeps Pc.reads c (fun P => { P with debt64 := d.debt64 c - trefi (d.rd .MC_PC_STATUS_RBAND c), debtAt := d.now }) rfl c
  have rd1 (f : Fld) (i : Nat) : d1.rd f i = if f = .MC_PC_STATUS_NEXT_BANK ∧ i = c then (b + 1) % 64 else d.rd f i :=
    (Dev.wr_rd _ _ _ _ _ _).trans (by rw [bank]; rfl)
  have kept {α : Type} (φ : Pc → α) (h1 : ∀ P r v a, φ { P with rows := r, visits := v, acts := a } = φ P) (h2 : ∀ P u, φ { P with urgent := u } = φ P) :
      φ ((d2.upPc c (fun P => { P with urgent := d2.urgentNow c })).pc c) = φ (d1.pc c) :=
    (d2.upPc_keeps φ c _ (h2 _ _) c).trans (d1.upPc_keeps φ c _ (h1 _ _ _ _) c)
  refine ⟨rfl, (kept Pc.debt (fun _ _ _ _ => rfl) (fun _ _ => rfl)).trans debt1, (kept Pc.reads (fun _ _ _ _ => rfl) (fun _ _ => rfl)).trans reads1,
    (rd1 _ _).trans (if_pos ⟨rfl, rfl⟩), fun f i hf => (rd1 f i).trans (if_neg (fun h => hf (by rw [h.1, h.2]; exact List.mem_singleton_self _)))⟩

/-- A refresh holds its bank for at most 200 ns, and its row is closed. -/
theorem Dev.holdBank_spec (d : Dev) (c b : Nat) : (d.holdBank c b).now = d.now ∧ (d.holdBank c b).regs = d.regs ∧
    tget (fun _ => 0) ((d.holdBank c b).pc c).bankTo b ≤ d.now + ns 200 ∧ tget (fun _ => none) ((d.holdBank c b).pc c).rows b = none ∧
    ((d.holdBank c b).pc c).debt = (d.pc c).debt ∧ ((d.holdBank c b).pc c).reads = (d.pc c).reads := by
  have short : ns (d.openVal 8 % 201) ≤ ns 200 := Nat.mul_le_mul_right _ (Nat.le_of_lt_succ (Nat.mod_lt _ (by decide)))
  have pc : (d.holdBank c b).pc c = { d.pc c with bankTo := tset (fun _ => 0) (d.pc c).bankTo b (d.now + ns (d.openVal 8 % 201))
                                                  rows := tset (fun _ => none) (d.pc c).rows b none } :=
    (Dev.upPc_pc d c c (fun P => { P with bankTo := tset (fun _ => 0) P.bankTo b (d.now + ns (d.openVal 8 % 201))
                                          rows := tset (fun _ => none) P.rows b none })).trans (if_pos rfl)
  rw [pc]
  refine ⟨rfl, rfl, ?_, ?_, rfl, rfl⟩
  · rw [tget_tset, if_pos rfl]
    exact Nat.add_le_add_left short _
  · rw [tget_tset, if_pos rfl]

theorem refreshIssued_acts (s : State) (c : Nat) (hc : c < 64) :
    let b := s.dev.rd .MC_PC_STATUS_NEXT_BANK c
    Acts (.refreshIssue c) s (fun e =>
      (s.dev.pcFree c = true → s.dev.refreshDue c = true → s.dev.bankHeld c b = false →
        tget (fun _ => 0) (e.pc c).bankTo b ≤ s.dev.now + ns 200 ∧ e.debt64 c = s.dev.debt64 c - trefi (s.dev.rd .MC_PC_STATUS_RBAND c) ∧
        e.rd .MC_PC_STATUS_NEXT_BANK c = (b + 1) % 64 ∧ tget (fun _ => none) (e.pc c).rows b = none ∧ (e.pc c).reads = (s.dev.pc c).reads ∧
        s.dev.keepsBut e [(.MC_PC_STATUS_NEXT_BANK, c)]) ∧
      (s.dev.pcFree c = false ∨ s.dev.refreshDue c = false ∨ s.dev.bankHeld c b = true → e = s.dev)) := by
  intro b
  refine acts_onDev rfl (decide_eq_true hc) ?_
  unfold Dev.refreshIssue
  by_cases h : s.dev.pcFree c = true ∧ s.dev.refreshDue c = true ∧ (!s.dev.bankHeld c b) = true
  · dsimp only
    rw [if_pos h]
    obtain ⟨free, due, open_⟩ := h
    refine ⟨fun _ _ _ => ?_, fun h => ?_⟩
    · have debt0 : (s.dev.upPc c (fun P => { P with urgent := s.dev.urgentNow c })).debt64 c = s.dev.debt64 c :=
        Dev.debt64_congr (s.dev.upPc_keeps Pc.debt c _ rfl c) rfl rfl
      have reads0 : ((s.dev.upPc c (fun P => { P with urgent := s.dev.urgentNow c })).pc c).reads = (s.dev.pc c).reads := s.dev.upPc_keeps Pc.reads c _ rfl c
      have rd0 : ∀ f i, (s.dev.upPc c (fun P => { P with urgent := s.dev.urgentNow c })).rd f i = s.dev.rd f i := fun _ _ => rfl
      have now0 : (s.dev.upPc c (fun P => { P with urgent := s.dev.urgentNow c })).now = s.dev.now := rfl
      generalize s.dev.upPc c (fun P => { P with urgent := s.dev.urgentNow c }) = d0 at debt0 reads0 rd0 now0
      obtain ⟨now1, debt1, reads1, bank1, others1⟩ := d0.refpb_spec c
      obtain ⟨now2, regs2, held2, row2, debt2, reads2⟩ := (d0.refpb c).holdBank_spec c b
      obtain ⟨regs3, pcs3, now3, -⟩ := ((d0.refpb c).holdBank c b).tally_units 0x22 c (s.dev.openVal 8 % 201)
      have pc3 := Dev.pc_congr pcs3 c
      refine ⟨?_, ?_, ?_, ?_, ?_, fun f i hf => ?_⟩
      · rw [pc3, ← now0, ← now1]
        exact held2
      · refine Dev.debt64_now ?_
        rw [pc3, debt2, debt1, debt0, rd0, now3, now2, now1]
      · rw [Dev.rd_congr regs3, Dev.rd_congr regs2, bank1, rd0]
      · rw [pc3]
        exact row2
      · rw [pc3, reads2, reads1, reads0]
      · rw [Dev.rd_congr regs3, Dev.rd_congr regs2, others1 f i hf, rd0]
    · rcases h with h | h | h
      · exact absurd free (by rw [h]; exact Bool.false_ne_true)
      · exact absurd due (by rw [h]; exact Bool.false_ne_true)
      · exact absurd open_ (by rw [h]; exact Bool.false_ne_true)
  · dsimp only
    rw [if_neg h]
    exact ⟨fun free due open_ => absurd ⟨free, due, by rw [open_]; rfl⟩ h, fun _ => rfl⟩

/-! ### A held row (R339) -/

theorem keepOpenRowClose_acts (s : State) (c b : Nat) (r : Row) (hc : c < 64) (hb : b < 64) (hr : tget (fun _ => none) (s.dev.pc c).rows b = some r) :
    Acts (.keepOpenRowClose c b) s (fun e => s.dev.keepsBut e [] ∧ (∀ k, k ≠ c → e.pc k = s.dev.pc k) ∧
      (s.dev.asleep = false → (r.lastAt + ns 200 ≤ s.dev.now ∨ r.openedAt + us 1 ≤ s.dev.now) → tget (fun _ => none) (e.pc c).rows b = none ∧
        (∀ k, k ≠ b → tget (fun _ => none) (e.pc c).rows k = tget (fun _ => none) (s.dev.pc c).rows k)) ∧
      (s.dev.now < r.lastAt + ns 200 → s.dev.now < r.openedAt + us 1 → e = s.dev)) := by
  refine acts_onDev rfl (by rw [decide_eq_true hc, decide_eq_true hb]; rfl) ?_
  unfold Dev.core
  by_cases asleep : s.dev.asleep = true
  · rw [if_pos asleep]
    exact ⟨fun _ _ _ => rfl, fun _ _ => rfl, fun h => absurd asleep (by rw [h]; exact Bool.false_ne_true), fun _ _ => rfl⟩
  · rw [if_neg asleep]
    dsimp only
    unfold Dev.rowClose
    rw [hr]
    dsimp only
    by_cases past : r.lastAt + ns 200 ≤ s.dev.now ∨ r.openedAt + us 1 ≤ s.dev.now
    · rw [if_pos past]
      have pc (k : Nat) := Dev.upPc_pc s.dev c k (fun P => { P with rows := tset (fun _ => none) P.rows b none })
      refine ⟨fun _ _ _ => rfl, fun k hk => (pc k).trans (if_neg hk), fun _ _ => ?_, fun h1 h2 => ?_⟩
      · rw [pc, if_pos rfl]
        exact ⟨by rw [tget_tset, if_pos rfl], fun k hk => by rw [tget_tset, if_neg hk]⟩
      · exact absurd past (not_or.mpr ⟨Nat.not_le.mpr h1, Nat.not_le.mpr h2⟩)
    · rw [if_neg past]
      exact ⟨fun _ _ _ => rfl, fun _ _ => rfl, fun _ h => absurd h past, fun _ _ => rfl⟩

/-! ### Refresh bands (R340, R343) -/

/-- A band is 0, 1 or 2. -/
theorem bandStep_mod (b : Nat) (t : Int) : bandStep b t % 4 = bandStep b t := by
  unfold bandStep
  (repeat' split) <;> rfl

/-- The pseudo-channels of a stack. -/
def stackPcs (s : Nat) : List Nat := (List.range 32).map (· + 32 * s)

theorem mem_stackPcs {s k : Nat} : k ∈ stackPcs s ↔ k / 32 = s := by
  rw [stackPcs, List.mem_map]
  constructor
  · rintro ⟨i, hi, rfl⟩
    have : i < 32 := List.mem_range.mp hi
    omega
  · rintro rfl
    exact ⟨k % 32, List.mem_range.mpr (Nat.mod_lt _ (by decide)), Nat.mod_add_div k 32⟩

/-- One field of several units, all with one value. -/
theorem Dev.wrs_rd (f : Fld) (v : Nat) (l : List Nat) (d : Dev) (g : Fld) (j : Nat) :
    (l.foldl (fun d c => d.wr f c v) d).rd g j = if g = f ∧ j ∈ l then v % 2 ^ f.spec.width else d.rd g j := by
  induction l generalizing d with
  | nil => simp
  | cons c l ih =>
    rw [List.foldl_cons, ih, Dev.wr_rd]
    by_cases hg : g = f <;> by_cases hl : j ∈ l <;> simp [hg, hl]

/-- Up to 8 intervals of debt, a new band asks for no catch-up. -/
theorem Dev.catchUp_zero {d : Dev} {c : Nat} (h : d.debt64 c = 0) (t : Nat) : d.catchUp c t = d := by
  unfold Dev.catchUp
  rw [h]
  exact if_pos (Nat.zero_le _)

/-- From `d`, only the pseudo-channels of `l` with a debt have caught up. -/
def Dev.CaughtUp (d e : Dev) (l : List Nat) : Prop :=
  e.mc = d.mc ∧ e.tracker = d.tracker ∧ e.now = d.now ∧ d.keepsFields e [.MC_STATUS_CATCHUP, .MC_PC_COUNT_CATCHUPS] ∧
    (∀ k, k ∉ l → e.pc k = d.pc k) ∧ ((∀ c ∈ l, d.debt64 c = 0) → e = d)

theorem Dev.CaughtUp.refl (d : Dev) (l : List Nat) : d.CaughtUp d l := ⟨rfl, rfl, rfl, fun _ _ _ => rfl, fun _ _ => rfl, fun _ => rfl⟩

/-- A catch-up is noted in two fields and an event. -/
theorem Dev.catchUpNoted (d : Dev) (c : Nat) : let e := ((d.raise 0x184 c).set1 .MC_STATUS_CATCHUP 0).count .MC_PC_COUNT_CATCHUPS c 1
    e.mc = d.mc ∧ e.tracker = d.tracker ∧ e.now = d.now ∧ e.pcs = d.pcs ∧ d.keepsFields e [.MC_STATUS_CATCHUP, .MC_PC_COUNT_CATCHUPS] := by
  refine ⟨rfl, rfl, rfl, rfl, fun f i hf => ?_⟩
  obtain ⟨h1, h2⟩ : f ≠ .MC_STATUS_CATCHUP ∧ f ≠ .MC_PC_COUNT_CATCHUPS := by simpa using hf
  rw [Dev.count, Dev.wr_rd_ne _ _ _ _ _ _ h2, Dev.set1_rd, if_neg (fun h => h1 h.1)]
  rfl

theorem Dev.debtSet_units (d : Dev) (c v : Nat) (f : Pc → Pc) : ((d.setDebt c v).upPc c f).mc = d.mc ∧ ((d.setDebt c v).upPc c f).tracker = d.tracker ∧
    ((d.setDebt c v).upPc c f).now = d.now ∧ ((d.setDebt c v).upPc c f).regs = d.regs ∧ ∀ k, k ≠ c → ((d.setDebt c v).upPc c f).pc k = d.pc k :=
  ⟨rfl, rfl, rfl, rfl, fun k hk => by rw [Dev.upPc_pc, if_neg hk, Dev.setDebt, Dev.upPc_pc, if_neg hk]⟩

theorem Dev.catchUp_caughtUp (d : Dev) (c t : Nat) : d.CaughtUp (d.catchUp c t) [c] := by
  have zero (h : ∀ k ∈ [c], d.debt64 k = 0) : d.catchUp c t = d := Dev.catchUp_zero (h c (List.mem_singleton_self c)) t
  generalize he : d.catchUp c t = e at zero
  unfold Dev.catchUp at he
  dsimp only at he
  by_cases few : d.debt64 c ≤ 8 * t * 64
  · rw [← he, if_pos few]
    exact .refl d [c]
  · rw [if_neg few] at he
    generalize (d.debt64 c + t * 64 - 1) / (t * 64) - 4 = n at he
    generalize hf : (fun P : Pc => ({ P with catchEnd := d.now + ns (400 * n), rows := []
                                             trainEnd := if d.now < P.trainEnd then P.trainEnd + ns (400 * n) else P.trainEnd
                                             trainFrom := if d.now < P.trainEnd then d.now + ns (400 * n) else P.trainFrom } : Pc)) = f at he
    obtain ⟨mc1, tracker1, now1, regs1, pc1⟩ := d.debtSet_units c (d.debt64 c - n * t * 64) f
    generalize (d.setDebt c (d.debt64 c - n * t * 64)).upPc c f = d1 at he mc1 tracker1 now1 regs1 pc1
    obtain ⟨mc2, tracker2, now2, pcs2, rd2⟩ := d1.catchUpNoted c
    generalize ((d1.raise 0x184 c).set1 .MC_STATUS_CATCHUP 0).count .MC_PC_COUNT_CATCHUPS c 1 = d2 at he mc2 tracker2 now2 pcs2 rd2
    obtain ⟨regs, pcs, now, mc, tracker⟩ := d2.tally_units 0x22 c (400 * n)
    rw [he] at regs pcs now mc tracker
    exact ⟨mc.trans (mc2.trans mc1), tracker.trans (tracker2.trans tracker1), now.trans (now2.trans now1),
      fun f i hf => (Dev.rd_congr regs f i).trans ((rd2 f i hf).trans (Dev.rd_congr regs1 f i)),
      fun k hk => (Dev.pc_congr (pcs.trans pcs2) k).trans (pc1 k (fun h => hk (List.mem_singleton.mpr h))), zero⟩

theorem Dev.catchUps_caughtUp (t : Nat) (l : List Nat) (d : Dev) : d.CaughtUp (l.foldl (fun d c => d.catchUp c t) d) l := by
  induction l generalizing d with
  | nil => exact .refl d []
  | cons c l ih =>
    obtain ⟨mc, tracker, now, rd, pc, zero⟩ := d.catchUp_caughtUp c t
    obtain ⟨mc', tracker', now', rd', pc', zero'⟩ := ih (d.catchUp c t)
    rw [List.foldl_cons]
    refine ⟨mc'.trans mc, tracker'.trans tracker, now'.trans now, fun f i hf => (rd' f i hf).trans (rd f i hf), fun k hk => ?_, fun h => ?_⟩
    · obtain ⟨h1, h2⟩ := not_or.mp (mt List.mem_cons.mpr hk)
      rw [pc' k h2, pc k (fun h => h1 (List.mem_singleton.mp h))]
    · have same := zero (fun k hk => h k (by rw [List.mem_singleton.mp hk]; exact List.mem_cons_self ..))
      rw [same] at zero' ⊢
      exact zero' (fun k hk => h k (List.mem_cons_of_mem _ hk))

/-- The fields that a new judgement of a band may write. -/
def bandFields : List Fld := [.MC_TEMP_RBAND, .MC_PC_STATUS_RBAND, .MC_STATUS_CATCHUP, .MC_PC_COUNT_CATCHUPS]

/-- The band of a stack, judged anew: it follows the refresh temperature, and its pseudo-channels follow it. -/
theorem Dev.judgeBand_spec (d : Dev) (s : Nat) : (d.judgeBand s).mc = d.mc ∧ (d.judgeBand s).tracker = d.tracker ∧ (d.judgeBand s).now = d.now ∧
    d.keepsFields (d.judgeBand s) bandFields ∧ (d.judgeBand s).rd .MC_TEMP_RBAND s = bandStep (d.rd .MC_TEMP_RBAND s) (d.refreshTemp s) ∧
    ((d.judgeBand s).rd .MC_TEMP_RBAND s ≠ d.rd .MC_TEMP_RBAND s → ∀ k, k / 32 = s →
      (d.judgeBand s).rd .MC_PC_STATUS_RBAND k = (d.judgeBand s).rd .MC_TEMP_RBAND s) ∧
    (∀ k, k / 32 ≠ s → (d.judgeBand s).pc k = d.pc k) ∧ ((∀ k, k / 32 = s → d.debt64 k = 0) → (d.judgeBand s).pcs = d.pcs) := by
  unfold Dev.judgeBand
  extract_lets b b' pcs d1
  have width1 : b' % 2 ^ Fld.MC_TEMP_RBAND.spec.width = b' := bandStep_mod _ _
  have width2 : b' % 2 ^ Fld.MC_PC_STATUS_RBAND.spec.width = b' := bandStep_mod _ _
  by_cases same : b' = b
  · rw [if_pos same]
    exact ⟨rfl, rfl, rfl, fun _ _ _ => rfl, same.symm, fun h => absurd rfl h, fun _ _ => rfl, fun _ => rfl⟩
  rw [if_neg same]
  have hmem (k : Nat) : k ∈ pcs ↔ k / 32 = s := mem_stackPcs
  have units1 : d1.mc = d.mc ∧ d1.tracker = d.tracker ∧ d1.now = d.now ∧ d1.pcs = d.pcs :=
    ⟨foldl_keeps Dev.mc _ _ _ (fun _ _ _ => rfl), foldl_keeps Dev.tracker _ _ _ (fun _ _ _ => rfl), foldl_keeps Dev.now _ _ _ (fun _ _ _ => rfl),
      foldl_keeps Dev.pcs _ _ _ (fun _ _ _ => rfl)⟩
  have rd1 (f : Fld) (i : Nat) : d1.rd f i = if f = .MC_PC_STATUS_RBAND ∧ i ∈ pcs then b' else if f = .MC_TEMP_RBAND ∧ i = s then b' else d.rd f i := by
    rw [show d1.rd f i = _ from Dev.wrs_rd _ _ _ _ _ _, Dev.wr_rd, width1, width2]
  obtain ⟨mc1, tracker1, now1, pcs1⟩ := units1
  have caught : d1.CaughtUp (if b < b' ∧ (!d.inSR s) = true ∧ d.stackOk s = true then pcs.foldl (fun d c => d.catchUp c (trefi b')) d1 else d1) pcs := by
    split
    · exact Dev.catchUps_caughtUp _ _ _
    · exact .refl d1 pcs
  generalize (if b < b' ∧ (!d.inSR s) = true ∧ d.stackOk s = true then pcs.foldl (fun d c => d.catchUp c (trefi b')) d1 else d1) = e at caught ⊢
  obtain ⟨mc, tracker, now, rd, pc, zero⟩ := caught
  have band : e.rd .MC_TEMP_RBAND s = b' := by
    rw [rd _ _ (by decide), rd1, if_neg (fun h => nomatch h.1), if_pos ⟨rfl, rfl⟩]
  refine ⟨mc.trans mc1, tracker.trans tracker1, now.trans now1, fun f i hf => ?_, band, fun _ k hk => ?_, fun k hk => ?_, fun h => ?_⟩
  · obtain ⟨h1, h2, h3, h4⟩ : f ≠ .MC_TEMP_RBAND ∧ f ≠ .MC_PC_STATUS_RBAND ∧ f ≠ .MC_STATUS_CATCHUP ∧ f ≠ .MC_PC_COUNT_CATCHUPS := by
      simpa [bandFields] using hf
    rw [rd f i (by simp [h3, h4]), rd1, if_neg (fun h => h2 h.1), if_neg (fun h => h1 h.1)]
  · rw [band, rd _ _ (by decide), rd1, if_pos ⟨rfl, (hmem k).mpr hk⟩]
  · rw [pc k (fun h => hk ((hmem k).mp h)), Dev.pc_congr pcs1]
  · rw [zero (fun c hc => ?_), pcs1]
    have sr : d1.rd .MC_STATUS_SR 0 = d.rd .MC_STATUS_SR 0 := by rw [rd1]; rfl
    rw [Dev.debt64_congr (congrArg Pc.debt (Dev.pc_congr pcs1 c)) now1 (Dev.inSR_congr sr _), h c ((hmem c).mp hc)]

/-- A temperature report of a stack, the next one due at `t`. -/
theorem Dev.nextReport_spec (d : Dev) (s t report : Nat) :
    let e := ({ d with mc := { d.mc with repDue := tset (fun _ => 0) d.mc.repDue s t } } : Dev).wr .MC_TEMP_REPORT s report
    e.tracker = d.tracker ∧ e.now = d.now ∧ e.pcs = d.pcs ∧ e.rd .MC_TEMP_REPORT s = report % 2 ^ 12 ∧ d.keepsFields e [.MC_TEMP_REPORT] ∧
      tget (fun _ => 0) e.mc.repDue s = t := by
  intro e
  have width : Fld.MC_TEMP_REPORT.spec.width = 12 := rfl
  have next : e.mc.repDue = tset (fun _ => 0) d.mc.repDue s t := rfl
  refine ⟨rfl, rfl, rfl, ?_, fun f i hf => ?_, ?_⟩
  · rw [Dev.wr_rd_same, width]
  · rw [Dev.wr_rd_ne _ _ _ _ _ _ (fun h => hf (List.mem_singleton.mpr h))]
    rfl
  · rw [next, tget_tset, if_pos rfl]

theorem Dev.reported_spec (d : Dev) (s report : Nat) : (d.reported s report).tracker = d.tracker ∧ (d.reported s report).now = d.now ∧
    (d.reported s report).pcs = d.pcs ∧ (d.reported s report).rd .MC_TEMP_REPORT s = report % 2 ^ 12 ∧
    d.keepsFields (d.reported s report) [.MC_TEMP_REPORT] ∧ tget (fun _ => 0) (d.reported s report).mc.repDue s = d.now + ms 1 :=
  d.nextReport_spec s (d.now + ms 1) report

theorem Dev.refreshTemp_congr {d e : Dev} (h : ∀ f ∈ [Fld.MC_TEMP_MODEL, .MC_STATUS_SR, .MC_TEMP_REPORT], ∀ i, e.rd f i = d.rd f i) (s : Nat) :
    e.refreshTemp s = d.refreshTemp s := by
  unfold Dev.refreshTemp
  rw [h .MC_TEMP_MODEL (by decide), h .MC_TEMP_REPORT (by decide), Dev.inSR_congr (h .MC_STATUS_SR (by decide) 0)]

theorem stackTemperatureRead_acts (s : State) (st rep : Nat) (hst : st < 2) (ok : s.dev.stackOk st = true) (awake : s.dev.inSR st = false)
    (due : tget (fun _ => 0) s.dev.mc.repDue st ≤ s.dev.now) :
    Acts (.stackTemperatureRead st rep) s (fun e => e.rd .MC_TEMP_REPORT st = rep % 2 ^ 12 ∧
      e.rd .MC_TEMP_RBAND st = bandStep (s.dev.rd .MC_TEMP_RBAND st) (e.refreshTemp st) ∧
      (e.rd .MC_TEMP_RBAND st ≠ s.dev.rd .MC_TEMP_RBAND st → ∀ k, k < 32 → e.rd .MC_PC_STATUS_RBAND (k + 32 * st) = e.rd .MC_TEMP_RBAND st) ∧
      tget (fun _ => 0) e.mc.repDue st = s.dev.now + ms 1 ∧
      s.dev.keepsFields e [.MC_TEMP_REPORT, .MC_TEMP_RBAND, .MC_PC_STATUS_RBAND, .MC_STATUS_CATCHUP, .MC_PC_COUNT_CATCHUPS]) := by
  refine acts_onDev rfl (decide_eq_true hst) ?_
  unfold Dev.stackTemp
  rw [if_pos ⟨ok, by rw [awake]; rfl, due⟩]
  obtain ⟨-, -, -, report, others, next⟩ := s.dev.reported_spec st rep
  generalize s.dev.reported st rep = d at report others next
  obtain ⟨mc, -, -, kept, band, pcs, -, -⟩ := d.judgeBand_spec st
  generalize d.judgeBand st = e at mc kept band pcs
  have was : d.rd .MC_TEMP_RBAND st = s.dev.rd .MC_TEMP_RBAND st := others _ _ (by decide)
  rw [was] at band pcs
  refine ⟨?_, ?_, fun h k hk => pcs h _ (by omega), ?_, fun f i hf => ?_⟩
  · rw [kept _ _ (by decide), report]
  · rw [band, Dev.refreshTemp_congr (fun f hf i => kept f i (by revert f; decide)) st]
  · rw [mc, next]
  · obtain ⟨h1, h2⟩ := not_or.mp (mt List.mem_cons.mpr hf)
    rw [kept f i h2, others f i (fun h => h1 (List.mem_singleton.mp h))]

/-! ### Retraining (R347) -/

/-- A retrain begins: at most 50 µs, its steps hold the pseudo-channel for at most 500 ns. -/
theorem Dev.beginTrain_spec (d : Dev) (c : Nat) : ((d.beginTrain c).pc c).trainAt = d.now ∧ d.now ≤ ((d.beginTrain c).pc c).trainEnd ∧
    ((d.beginTrain c).pc c).trainEnd < d.now + us 50 ∧ ((d.beginTrain c).pc c).trainFrom = d.now ∧ ((d.beginTrain c).pc c).trainHold ≤ ns 500 ∧
    (∀ j, j ≠ c → (d.beginTrain c).pc j = d.pc j) ∧ (d.beginTrain c).raised = d.raised ∧ (d.beginTrain c).cycle = d.cycle ∧
    (d.beginTrain c).regs = d.regs := by
  have long : d.now + ns (d.openVal 16 % 50000) < d.now + us 50 := Nat.add_lt_add_left (Nat.mul_lt_mul_of_pos_right (Nat.mod_lt _ (by decide)) (by decide)) _
  have hold : ns (d.took.openVal 16 % 501) ≤ ns 500 := Nat.mul_le_mul_right _ (Nat.le_of_lt_succ (Nat.mod_lt _ (by decide)))
  have pc (k : Nat) : (d.beginTrain c).pc k = if k = c then { d.pc c with trainEnd := d.now + ns (d.openVal 16 % 50000), trainAt := d.now, trainFrom := d.now
                                                                          trainHold := ns (d.took.openVal 16 % 501), trainTemp := d.refreshTemp (c / 32) }
      else d.pc k := Dev.upPc_pc d c k (fun P => { P with trainEnd := d.now + ns (d.openVal 16 % 50000), trainAt := d.now, trainFrom := d.now
                                                          trainHold := ns (d.took.openVal 16 % 501), trainTemp := d.refreshTemp (c / 32) })
  rw [pc c, if_pos rfl]
  exact ⟨rfl, Nat.le_add_right _ _, long, rfl, hold, fun j hj => (pc j).trans (if_neg hj), rfl, rfl, rfl⟩

/-- Retrain number `k` in a row that lies outside the margins: it is raised, the second loses the stack. -/
def Dev.trainFailed (d : Dev) (c k : Nat) : Dev :=
  let d2 := (d.upPc c (fun P => { P with trainFails := k })).raise 0x186 c
  if 2 ≤ k then { d2.raise 0x187 c with mc := { d2.mc with lostStacks := setBit d2.mc.lostStacks (c / 32) true } } else d2

theorem Dev.trainFailed_spec (d : Dev) (c k : Nat) : (∀ j, (d.trainFailed c k).pc j = if j = c then { d.pc c with trainFails := k } else d.pc j) ∧
    (d.trainFailed c k).raised = d.raised ++ (⟨0x186, c, 0, d.cycle⟩ :: if 2 ≤ k then [⟨0x187, c, 0, d.cycle⟩] else []) ∧
    (d.trainFailed c k).regs = d.regs ∧ (2 ≤ k → bitAt (d.trainFailed c k).mc.lostStacks (c / 32) = true) := by
  have pc (j : Nat) := Dev.upPc_pc d c j (fun P => { P with trainFails := k })
  have raised : (d.upPc c (fun P => { P with trainFails := k })).raised = d.raised ∧ (d.upPc c (fun P => { P with trainFails := k })).cycle = d.cycle ∧
    (d.upPc c (fun P => { P with trainFails := k })).regs = d.regs := ⟨rfl, rfl, rfl⟩
  unfold Dev.trainFailed
  generalize d.upPc c (fun P => { P with trainFails := k }) = d1 at pc raised ⊢
  obtain ⟨raised1, cycle1, regs1⟩ := raised
  dsimp only
  by_cases two : 2 ≤ k
  · rw [if_pos two, if_pos two]
    refine ⟨pc, ?_, regs1, fun _ => (bitAt_setBit _ _ _ _).trans (if_pos rfl)⟩
    refine ((d1.raise 0x186 c).raise_raised 0x187 c).trans ?_
    rw [Dev.raise_raised, raised1, List.append_assoc, ← cycle1]
    rfl
  · rw [if_neg two, if_neg two]
    exact ⟨pc, by rw [Dev.raise_raised, raised1, cycle1], regs1, fun h => absurd h two⟩

theorem retrain_acts (s : State) (c : Nat) (ok : Bool) (hc : c < 64) (free : s.dev.pcFree c = true) (due : s.dev.retrainDue c = true)
    (idle : s.dev.stackTraining (c / 32) = false) (pend : s.dev.on .MC_STATUS_OP_PENDING 0 = false) :
    let k := (s.dev.pc c).trainFails + 1
    Acts (.retrain c ok) s (fun e => (e.pc c).trainAt = s.dev.now ∧ s.dev.now ≤ (e.pc c).trainEnd ∧ (e.pc c).trainEnd < s.dev.now + us 50 ∧
      (e.pc c).trainFrom = s.dev.now ∧ (e.pc c).trainHold ≤ ns 500 ∧ (ok = false → 2 ≤ k → bitAt e.mc.lostStacks (c / 32) = true) ∧
      (ok = true → (e.pc c).trainFails = 0 ∧ e.raised = s.dev.raised) ∧
      (ok = false → (e.pc c).trainFails = k ∧ e.raised = s.dev.raised ++ (⟨0x186, c, 0, s.dev.cycle⟩ :: if 2 ≤ k then [⟨0x187, c, 0, s.dev.cycle⟩] else [])) ∧
      (∀ j, j ≠ c → e.pc j = s.dev.pc j) ∧ s.dev.keepsBut e []) := by
  intro k
  have go : s.dev.pcFree c = true ∧ s.dev.retrainDue c = true ∧ (!s.dev.stackTraining (c / 32)) = true ∧ (!s.dev.on .MC_STATUS_OP_PENDING 0) = true :=
    ⟨free, due, by rw [idle]; rfl, by rw [pend]; rfl⟩
  obtain ⟨trainAt, trainEnd1, trainEnd2, trainFrom, trainHold, others, raised, cycle, regs⟩ := s.dev.beginTrain_spec c
  refine acts_onDev rfl (decide_eq_true hc) ?_
  cases ok
  · have failed : s.dev.retrain c false = (s.dev.beginTrain c).trainFailed c k := if_pos go
    rw [failed]
    obtain ⟨pc, eraised, eregs, lost⟩ := (s.dev.beginTrain c).trainFailed_spec c k
    rw [raised, cycle] at eraised
    generalize (s.dev.beginTrain c).trainFailed c k = e at pc eraised eregs lost ⊢
    rw [pc c, if_pos rfl]
    exact ⟨trainAt, trainEnd1, trainEnd2, trainFrom, trainHold, fun _ => lost, nofun, fun _ => ⟨rfl, eraised⟩,
      fun j hj => ((pc j).trans (if_neg hj)).trans (others j hj), fun f i _ => Dev.rd_congr (eregs.trans regs) f i⟩
  · have passed : s.dev.retrain c true = (s.dev.beginTrain c).upPc c (fun P => { P with trainFails := 0 }) := if_pos go
    have pc (j : Nat) := Dev.upPc_pc (s.dev.beginTrain c) c j (fun P => { P with trainFails := 0 })
    rw [passed, pc c, if_pos rfl]
    exact ⟨trainAt, trainEnd1, trainEnd2, trainFrom, trainHold, nofun, fun _ => ⟨rfl, raised⟩, nofun,
      fun j hj => ((pc j).trans (if_neg hj)).trans (others j hj), fun f i _ => Dev.rd_congr regs f i⟩

end Sys2Proof.Machine
end

section
/-!
Obligation O51, third part. The operating point and self-refresh (R20, R330, R340, R348, R349, R351, R352).
-/
namespace Sys2Proof.Machine

/-! ### MC_CTRL (R20, R348) -/

/-- The register MC_CTRL. -/
def mcReg : RegAt := regAt .mc .MC_CTRL 0 0

theorem mcReg_parts : mcReg.parts = [(.MC_CTRL_SR_IDLE_US, 0, 16), (.MC_CTRL_SCRUB_H, 0, 8), (.MC_CTRL_KEEPOPEN, 0, 1), (.MC_CTRL_OPPOINT, 0, 0)] := rfl

theorem mcReg_keys_nodup : (mcReg.parts.map (fun y => (y.1, y.2.1))).Nodup := by
  rw [mcReg_parts]
  simp

/-- A write of MC_CTRL outside safe state: OPPOINT is kept, and its change refused, while the controller is not idle (R20). -/
theorem Dev.mcWrite_spec (d : Dev) (v : Nat) (run : Bool) (hs : d.on .FC_STATE_SAFE 0 = false) : let e := d.writeReg mcReg .whole v run
    e.rd .MC_CTRL_KEEPOPEN 0 = bits (v % 2 ^ 64) 1 1 ∧ e.rd .MC_CTRL_SCRUB_H 0 = bits (v % 2 ^ 64) 8 8 ∧
      e.rd .MC_CTRL_SR_IDLE_US 0 = bits (v % 2 ^ 64) 16 16 ∧
      e.rd .MC_CTRL_OPPOINT 0 = (if run then d.rd .MC_CTRL_OPPOINT 0 else bits (v % 2 ^ 64) 0 1) ∧
      (run = true → bits (v % 2 ^ 64) 0 1 ≠ d.rd .MC_CTRL_OPPOINT 0 → e.on .DEV_REFUSED_VALID 0 = true) ∧
      e.rd .MC_STATUS_OP_NOW 0 = d.rd .MC_STATUS_OP_NOW 0 ∧ e.rd .MC_STATUS_OP_PENDING 0 = d.rd .MC_STATUS_OP_PENDING 0 := by
  intro e
  have hrun : (run && (!d.on .FC_STATE_SAFE 0 || mcReg.card.reg == Reg.BR_CTRL)) = run := by rw [hs]; cases run <;> rfl
  have rd (f : Fld) (lo : Nat) (hx : (f, 0, lo) ∈ mcReg.parts) (hn : f ∉ notedFields) :=
    Dev.writeReg_rd d mcReg .whole v run mcReg_keys_nodup (f, 0, lo) hx hn
  rw [hrun] at rd
  rw [mcReg_parts] at rd
  have other (f : Fld) (hf : f = .MC_STATUS_OP_NOW ∨ f = .MC_STATUS_OP_PENDING) : e.rd f 0 = d.rd f 0 := by
    refine Dev.writeReg_other d mcReg .whole v run mcReg_keys_nodup f 0 ?_ (.inr ?_)
    · rw [mcReg_parts]
      rcases hf with rfl | rfl <;> decide
    · rcases hf with rfl | rfl <;> decide
  refine ⟨rd .MC_CTRL_KEEPOPEN 1 (by simp) (by decide), rd .MC_CTRL_SCRUB_H 8 (by simp) (by decide), rd .MC_CTRL_SR_IDLE_US 16 (by simp) (by decide),
    rd .MC_CTRL_OPPOINT 0 (by simp) (by decide), fun busy change => ?_, other _ (.inl rfl), other _ (.inr rfl)⟩
  have flag : (mcReg.parts.foldl (Dev.writePart .whole v (d.regWord mcReg) run) (d, false)).2 = true := by
    rw [mcReg_parts, busy]
    simp only [List.foldl_cons, List.foldl_nil]
    generalize h1 : Dev.writePart .whole v (d.regWord mcReg) true (d, false) (.MC_CTRL_SR_IDLE_US, 0, 16) = a1
    generalize h2 : Dev.writePart .whole v (d.regWord mcReg) true a1 (.MC_CTRL_SCRUB_H, 0, 8) = a2
    generalize h3 : Dev.writePart .whole v (d.regWord mcReg) true a2 (.MC_CTRL_KEEPOPEN, 0, 1) = a3
    have last : (Dev.writePart .whole v (d.regWord mcReg) true a3 (.MC_CTRL_OPPOINT, 0, 0)).2 =
      (a3.2 || bits (v % 2 ^ 64) 0 1 != a3.1.rd .MC_CTRL_OPPOINT 0) := rfl
    have kept : a3.1.rd .MC_CTRL_OPPOINT 0 = d.rd .MC_CTRL_OPPOINT 0 := by
      rw [← h3, Dev.writePart_other _ _ _ _ _ _ _ _ (by decide), ← h2, Dev.writePart_other _ _ _ _ _ _ _ _ (by decide), ← h1,
        Dev.writePart_other _ _ _ _ _ _ _ _ (by decide)]
    rw [last, kept, bne_iff_ne.mpr change, Bool.or_true]
  unfold e Dev.writeReg
  dsimp only
  rw [hrun, if_pos flag]
  exact Dev.refuse_valid _ _ _

theorem Dev.opWritten_spec (d : Dev) : d.keepsFields d.opWritten [.MC_STATUS_OP_PENDING] ∧ (d.opWritten.on .MC_STATUS_OP_PENDING 0 = true ↔
    d.on .MC_STATUS_OP_PENDING 0 = true ∨ d.rd .MC_CTRL_OPPOINT 0 ≠ d.rd .MC_STATUS_OP_NOW 0) := by
  have bit : 1 % 2 ^ Fld.MC_STATUS_OP_PENDING.spec.width = 1 := rfl
  unfold Dev.opWritten
  by_cases pend : d.on .MC_STATUS_OP_PENDING 0 = true
  · rw [if_pos pend]
    exact ⟨fun _ _ _ => rfl, ⟨.inl, fun _ => pend⟩⟩
  · rw [if_neg pend]
    by_cases same : d.rd .MC_CTRL_OPPOINT 0 = d.rd .MC_STATUS_OP_NOW 0
    · rw [if_pos same]
      exact ⟨fun _ _ _ => rfl, ⟨fun h => absurd h pend, fun h => h.elim id (fun h => absurd same h)⟩⟩
    · rw [if_neg same]
      have rd (f : Fld) (i : Nat) : ({ d.set1 .MC_STATUS_OP_PENDING 0 with mc := { d.mc with opAt := d.now } } : Dev).rd f i =
          if f = .MC_STATUS_OP_PENDING ∧ i = 0 then 1 else d.rd f i := (Dev.set1_rd d .MC_STATUS_OP_PENDING f 0 i).trans (by rw [bit])
      refine ⟨fun f i hf => (rd f i).trans (if_neg (fun h => hf (List.mem_singleton.mpr h.1))), ⟨fun _ => .inr same, fun _ => ?_⟩⟩
      rw [Dev.on, rd]
      rfl

theorem Dev.setMc_rd (d : Dev) (m : Mc) (f : Fld) (i : Nat) : ({ d with mc := m } : Dev).rd f i = d.rd f i := rfl

/-- A write of MC_CTRL, and the change of the operating point that it asks for. -/
theorem Dev.mcCtrl_write (d : Dev) (v : Nat) : ∃ m : Dev, (∀ f i, m.rd f i = (d.writeReg mcReg .whole v (!d.mcIdle)).rd f i) ∧
    d.mcCtrl v = if m.rd .MC_CTRL_OPPOINT 0 = d.rd .MC_CTRL_OPPOINT 0 then m else m.opWritten := by
  refine ⟨_, fun f i => ?_, rfl⟩
  split
  · rfl
  · exact Dev.setMc_rd _ _ f i

theorem oppointWrite_acts (s : State) (v : Word) (hr : s.dev.hostReady = true) (hs : s.dev.on .FC_STATE_SAFE 0 = false) :
    let new := bits v.toNat 0 1
    let old := s.dev.rd .MC_CTRL_OPPOINT 0
    Acts (.oppointWrite v) s (fun e => e.rd .MC_CTRL_KEEPOPEN 0 = bits v.toNat 1 1 ∧ e.rd .MC_CTRL_SCRUB_H 0 = bits v.toNat 8 8 ∧
      e.rd .MC_CTRL_SR_IDLE_US 0 = bits v.toNat 16 16 ∧ e.rd .MC_STATUS_OP_NOW 0 = s.dev.rd .MC_STATUS_OP_NOW 0 ∧
      (s.dev.mcIdle = true → e.rd .MC_CTRL_OPPOINT 0 = new ∧ (e.on .MC_STATUS_OP_PENDING 0 = true ↔
        s.dev.on .MC_STATUS_OP_PENDING 0 = true ∨ (new ≠ old ∧ new ≠ s.dev.rd .MC_STATUS_OP_NOW 0))) ∧
      (s.dev.mcIdle = false → e.rd .MC_CTRL_OPPOINT 0 = old ∧ (new ≠ old → e.on .DEV_REFUSED_VALID 0 = true) ∧
        e.rd .MC_STATUS_OP_PENDING 0 = s.dev.rd .MC_STATUS_OP_PENDING 0)) := by
  intro new old
  have word (lo w : Nat) (h : lo + w ≤ 32) : bits (v.toNat % 2 ^ 32 % 2 ^ 64) lo w = bits v.toNat lo w := by
    rw [bits_mod (by omega), bits_mod h]
  refine acts_hosted rfl rfl hr ?_
  obtain ⟨keep, scrub, idleUs, point, refused, opNow, pending⟩ := s.dev.reached.mcWrite_spec (v.toNat % 2 ^ 32) (!s.dev.mcIdle) hs
  rw [word 1 1 (by decide)] at keep
  rw [word 8 8 (by decide)] at scrub
  rw [word 16 16 (by decide)] at idleUs
  rw [word 0 1 (by decide)] at point refused
  obtain ⟨m, same, eq⟩ := s.dev.reached.mcCtrl_write (v.toNat % 2 ^ 32)
  have was : s.dev.reached.rd .MC_CTRL_OPPOINT 0 = old := rfl
  have idle : s.dev.reached.mcIdle = s.dev.mcIdle := rfl
  rw [idle] at same
  rw [was] at point refused eq
  rw [← same] at keep scrub idleUs point opNow pending
  have valid : (!s.dev.mcIdle) = true → new ≠ old → m.on .DEV_REFUSED_VALID 0 = true := fun h1 h2 => by
    rw [Dev.on, same]
    exact refused h1 h2
  have wasPend : m.on .MC_STATUS_OP_PENDING 0 = s.dev.on .MC_STATUS_OP_PENDING 0 := by rw [Dev.on, pending]; rfl
  obtain ⟨written, pend⟩ := m.opWritten_spec
  rw [eq]
  generalize m.opWritten = w at written pend
  by_cases stay : m.rd .MC_CTRL_OPPOINT 0 = old
  · rw [if_pos stay]
    refine ⟨keep, scrub, idleUs, opNow, fun hi => ?_, fun hi => ⟨stay, valid (by rw [hi]; rfl), pending⟩⟩
    rw [hi, Bool.not_true, if_neg Bool.false_ne_true] at point
    refine ⟨point, ?_⟩
    rw [wasPend]
    exact ⟨.inl, fun h => h.elim id (fun h => absurd (point.symm.trans stay) h.1)⟩
  · rw [if_neg stay]
    have kept (f : Fld) (hf : f ≠ .MC_STATUS_OP_PENDING) : w.rd f 0 = m.rd f 0 := written f 0 (fun h => hf (List.mem_singleton.mp h))
    refine ⟨(kept _ (by decide)).trans keep, (kept _ (by decide)).trans scrub, (kept _ (by decide)).trans idleUs, (kept _ (by decide)).trans opNow,
      fun hi => ?_, fun hi => ?_⟩
    · rw [hi, Bool.not_true, if_neg Bool.false_ne_true] at point
      refine ⟨(kept _ (by decide)).trans point, ?_⟩
      rw [pend, wasPend, point, opNow]
      exact or_congr_right ⟨fun h => ⟨fun h' => stay (point.trans h'), h⟩, And.right⟩
    · rw [hi, Bool.not_false, if_pos rfl] at point
      exact absurd point stay

/-! ### A stack leaves self-refresh (R340, R352) -/

theorem Dev.units_of_wr (d : Dev) (f : Fld) (i v : Nat) : (d.wr f i v).tracker = d.tracker ∧ (d.wr f i v).now = d.now ∧ (d.wr f i v).pcs = d.pcs := ⟨rfl, rfl, rfl⟩

/-- Every pseudo-channel of the stack is without debt; the others stay. -/
theorem Dev.freshStack_spec (d : Dev) (s : Nat) : (d.freshStack s).regs = d.regs ∧ (d.freshStack s).tracker = d.tracker ∧ (d.freshStack s).now = d.now ∧
    (∀ k, k / 32 ≠ s → (d.freshStack s).pc k = d.pc k) ∧ (∀ k, k / 32 = s → ((d.freshStack s).pc k).debt = (0, d.now)) := by
  have fold (l : List Nat) (d : Dev) (k : Nat) (h : k ∈ l ∨ (d.pc k).debt = (0, d.now)) : ((l.foldl (fun d c =>
      (d.setDebt c 0).upPc c (fun P => { P with acts := [], visits := [], rows := [], bankTo := [], urgent := false })) d).pc k).debt = (0, d.now) := by
    induction l generalizing d with
    | nil => exact h.resolve_left List.not_mem_nil
    | cons c l ih =>
      have one : (((d.setDebt c 0).upPc c (fun P => { P with acts := [], visits := [], rows := [], bankTo := [], urgent := false })).pc k).debt =
          if k = c then (0, d.now) else (d.pc k).debt :=
        ((d.setDebt c 0).upPc_keeps Pc.debt c (fun P => { P with acts := [], visits := [], rows := [], bankTo := [], urgent := false }) rfl k).trans
          (d.setDebt_debt c 0 k)
      refine ih _ ?_
      by_cases hk : k = c
      · exact .inr (one.trans (if_pos hk))
      · exact h.imp (fun h => (List.mem_cons.mp h).resolve_left hk) (fun h => (one.trans (if_neg hk)).trans h)
  refine ⟨foldl_keeps Dev.regs _ _ _ (fun _ _ _ => rfl), foldl_keeps Dev.tracker _ _ _ (fun _ _ _ => rfl), foldl_keeps Dev.now _ _ _ (fun _ _ _ => rfl),
    fun k hk => foldl_keeps (fun d : Dev => d.pc k) _ _ _ (fun d c hc => ?_), fun k hk => fold _ d k (.inl (mem_stackPcs.mpr hk))⟩
  have other : k ≠ c := fun h => hk (mem_stackPcs.mp (h ▸ hc))
  obtain ⟨-, -, -, -, pc⟩ := d.debtSet_units c 0 (fun P => { P with acts := [], visits := [], rows := [], bankTo := [], urgent := false })
  exact pc k other

/-- The retrain of a stack that leaves self-refresh touches no debt, and no other stack. -/
theorem Dev.trainStack_spec (d : Dev) (s t : Nat) (l : List Nat) (hl : ∀ c ∈ l, c / 32 = s) : let e := (l.foldl (fun (d : Dev) c => d.trainFor c t (us 50)) d).took
    e.regs = d.regs ∧ e.tracker = d.tracker ∧ e.now = d.now ∧ (∀ k, k / 32 ≠ s → e.pc k = d.pc k) ∧ ∀ k, (e.pc k).debt = (d.pc k).debt := by
  refine ⟨foldl_keeps Dev.regs _ _ _ (fun _ _ _ => rfl), foldl_keeps Dev.tracker _ _ _ (fun _ _ _ => rfl), foldl_keeps Dev.now _ _ _ (fun _ _ _ => rfl),
    fun k hk => foldl_keeps (fun d : Dev => d.pc k) _ _ _ (fun d c hc => ?_), fun k => foldl_keeps (fun d : Dev => (d.pc k).debt) _ _ _ (fun d c _ => ?_)⟩
  · refine (Dev.upPc_pc d c k _).trans (if_neg ?_)
    rintro rfl
    exact hk (hl k hc)
  · exact d.upPc_keeps Pc.debt c _ rfl k

theorem Dev.setMc_units (d : Dev) (m : Mc) : ({ d with mc := m } : Dev).regs = d.regs ∧ ({ d with mc := m } : Dev).tracker = d.tracker ∧
    ({ d with mc := m } : Dev).now = d.now ∧ ({ d with mc := m } : Dev).pcs = d.pcs := ⟨rfl, rfl, rfl, rfl⟩

theorem Dev.scrubOn_units (d : Dev) (s : Nat) : (d.scrubOn s).regs = d.regs ∧ (d.scrubOn s).tracker = d.tracker ∧ (d.scrubOn s).now = d.now ∧
    (d.scrubOn s).pcs = d.pcs := by
  unfold Dev.scrubOn
  split
  · exact d.setMc_units _
  · exact ⟨rfl, rfl, rfl, rfl⟩

/-- Stack `s`, out of self-refresh: without debt, the scrub goes on. -/
def Dev.roused (d : Dev) (s : Nat) : Dev := ((d.wr .MC_STATUS_SR 0 (setBit (d.rd .MC_STATUS_SR 0) s false)).freshStack s).scrubOn s

theorem Dev.roused_spec (d : Dev) (s : Nat) : (d.roused s).tracker = d.tracker ∧ (d.roused s).now = d.now ∧ d.keepsFields (d.roused s) [.MC_STATUS_SR] ∧
    (∀ k, k < 2 → (d.roused s).inSR k = if k = s then false else d.inSR k) ∧ (∀ k, k / 32 ≠ s → (d.roused s).pc k = d.pc k) ∧
    (∀ k, k / 32 = s → (d.roused s).debt64 k = 0) := by
  have width : Fld.MC_STATUS_SR.spec.width = 2 := rfl
  obtain ⟨wtracker, wnow, wpcs⟩ := d.units_of_wr .MC_STATUS_SR 0 (setBit (d.rd .MC_STATUS_SR 0) s false)
  have wrd (f : Fld) (i : Nat) := Dev.wr_rd d .MC_STATUS_SR f 0 i (setBit (d.rd .MC_STATUS_SR 0) s false)
  unfold Dev.roused
  generalize d.wr .MC_STATUS_SR 0 (setBit (d.rd .MC_STATUS_SR 0) s false) = d1 at wtracker wnow wpcs wrd ⊢
  obtain ⟨fregs, ftracker, fnow, fpc, fdebt⟩ := d1.freshStack_spec s
  obtain ⟨regs, tracker, now, pcs⟩ := (d1.freshStack s).scrubOn_units s
  have rd (f : Fld) (i : Nat) : ((d1.freshStack s).scrubOn s).rd f i = d1.rd f i := Dev.rd_congr (regs.trans fregs) f i
  refine ⟨tracker.trans (ftracker.trans wtracker), now.trans (fnow.trans wnow), fun f i hf => ?_, fun k hk => ?_, fun k hk => ?_, fun k hk => ?_⟩
  · rw [rd, wrd, if_neg (fun h => hf (List.mem_singleton.mpr h.1))]
  · rw [Dev.inSR, rd, wrd, if_pos ⟨rfl, rfl⟩, width, bitAt_mod _ _ _ hk, bitAt_setBit]
    rfl
  · rw [Dev.pc_congr pcs, fpc k hk, Dev.pc_congr wpcs]
  · exact Dev.debt64_now (by rw [Dev.pc_congr pcs, fdebt k hk, now, fnow])

/-- A stack on its way out of self-refresh: its report, its band, and a retrain where it was long or the temperature has moved. -/
theorem Dev.leaveSR_way {d : Dev} {s : Nat} (hin : d.inSR s = true) (report : Nat) :
    d.leaveSR s report = ((d.reported s report).roused s).judgeBand s ∨
    ∃ t, d.leaveSR s report = ((stackPcs s).foldl (fun (d : Dev) c => d.trainFor c t (us 50)) (((d.reported s report).roused s).judgeBand s)).took := by
  unfold Dev.leaveSR
  rw [if_neg (by rw [hin]; exact Bool.false_ne_true)]
  dsimp only
  split
  · exact .inr ⟨_, rfl⟩
  · exact .inl rfl

/-- The fields that a stack may write on its way out of self-refresh. -/
def leaveFields : List Fld := [.MC_TEMP_REPORT, .MC_STATUS_SR, .MC_TEMP_RBAND, .MC_PC_STATUS_RBAND, .MC_STATUS_CATCHUP, .MC_PC_COUNT_CATCHUPS]

theorem Dev.leaveSR_spec {d : Dev} {s : Nat} (hin : d.inSR s = true) (report : Nat) : (d.leaveSR s report).tracker = d.tracker ∧
    (d.leaveSR s report).now = d.now ∧ d.keepsFields (d.leaveSR s report) leaveFields ∧ (d.leaveSR s report).rd .MC_TEMP_REPORT s = report % 2 ^ 12 ∧
    (∀ k, k < 2 → (d.leaveSR s report).inSR k = if k = s then false else d.inSR k) ∧ (∀ k, k / 32 ≠ s → (d.leaveSR s report).pc k = d.pc k) ∧
    (∀ k, k / 32 = s → (d.leaveSR s report).debt64 k = 0) := by
  have way := Dev.leaveSR_way hin report
  generalize d.leaveSR s report = e at way ⊢
  obtain ⟨tracker0, now0, pcs0, report0, kept0, -⟩ := d.reported_spec s report
  generalize d.reported s report = d0 at way tracker0 now0 pcs0 report0 kept0
  obtain ⟨tracker1, now1, kept1, sr1, pc1, debt1⟩ := d0.roused_spec s
  generalize d0.roused s = d1 at way tracker1 now1 kept1 sr1 pc1 debt1
  obtain ⟨-, tracker2, now2, kept2, -, -, pc2, pcs2⟩ := d1.judgeBand_spec s
  have pcs2 := pcs2 debt1
  generalize d1.judgeBand s = d2 at way tracker2 now2 kept2 pc2 pcs2
  have last : e.regs = d2.regs ∧ e.tracker = d2.tracker ∧ e.now = d2.now ∧ (∀ k, k / 32 ≠ s → e.pc k = d2.pc k) ∧ ∀ k, (e.pc k).debt = (d2.pc k).debt := by
    rcases way with rfl | ⟨t, rfl⟩
    · exact ⟨rfl, rfl, rfl, fun _ _ => rfl, fun _ => rfl⟩
    · exact d2.trainStack_spec s t _ (fun c hc => mem_stackPcs.mp hc)
  obtain ⟨regs3, tracker3, now3, pc3, debt3⟩ := last
  have sr : e.rd .MC_STATUS_SR 0 = d1.rd .MC_STATUS_SR 0 := (Dev.rd_congr regs3 _ _).trans (kept2 _ _ (by decide))
  have sr0 (k : Nat) : d0.inSR k = d.inSR k := Dev.inSR_congr (kept0 _ _ (by decide)) k
  refine ⟨tracker3.trans (tracker2.trans (tracker1.trans tracker0)), now3.trans (now2.trans (now1.trans now0)), fun f i hf => ?_, ?_, fun k hk => ?_,
    fun k hk => ?_, fun k hk => ?_⟩
  · obtain ⟨h1, h2⟩ := not_or.mp (mt List.mem_cons.mpr hf)
    obtain ⟨h2, h3⟩ := not_or.mp (mt List.mem_cons.mpr h2)
    rw [Dev.rd_congr regs3, kept2 f i h3, kept1 f i (fun h => h2 (List.mem_singleton.mp h)), kept0 f i (fun h => h1 (List.mem_singleton.mp h))]
  · rw [Dev.rd_congr regs3, kept2 _ _ (by decide), kept1 _ _ (by decide), report0]
  · rw [Dev.inSR_congr sr, sr1 k hk, sr0]
  · rw [pc3 k hk, pc2 k hk, pc1 k hk, Dev.pc_congr pcs0]
  · rw [Dev.debt64_congr ((debt3 k).trans (congrArg Pc.debt (Dev.pc_congr pcs2 k))) (now3.trans now2) (Dev.inSR_congr sr _), debt1 k hk]

theorem Dev.wakeNote_units (d : Dev) : d.wakeNote.regs = d.regs ∧ d.wakeNote.tracker = d.tracker ∧ d.wakeNote.now = d.now ∧ d.wakeNote.pcs = d.pcs := by
  have step {α : Type} (φ : Dev → α) (hφ : ∀ (d : Dev) n t, φ (d.wakeTook n t) = φ d) : φ d.wakeNote = φ d :=
    foldl_keeps φ _ _ _ (fun d n _ => by
      dsimp only
      split
      · exact hφ _ _ _
      · rfl)
  exact ⟨step Dev.regs (fun _ _ _ => rfl), step Dev.tracker (fun _ _ _ => rfl), step Dev.now (fun _ _ _ => rfl), step Dev.pcs (fun _ _ _ => rfl)⟩

theorem selfRefreshExit_acts (s : State) (st rep : Nat) (hst : st < 2) (hin : s.dev.inSR st = true) (ok : s.dev.stackOk st = true)
    (wanted : s.dev.memWanted st = true) (pstate : s.dev.rd .KL_STATUS_PSTATE 0 ≠ 1) (settled : s.dev.isSafe = false) :
    Acts (.selfRefreshExit st rep) s (fun e => e.inSR st = false ∧ (∀ k, k < 2 → k ≠ st → e.inSR k = s.dev.inSR k) ∧ e.rd .MC_TEMP_REPORT st = rep % 2 ^ 12 ∧
      (∀ c, c < 32 → e.debt64 (c + 32 * st) = 0) ∧ e.tracker = s.dev.tracker) := by
  refine acts_onDev rfl (decide_eq_true hst) ?_
  unfold Dev.srExit
  rw [if_pos ⟨hin, ok, wanted, pstate, by rw [settled]; rfl⟩]
  obtain ⟨tracker, -, -, report, sr, -, debt⟩ := Dev.leaveSR_spec hin rep
  generalize s.dev.leaveSR st rep = d at tracker report sr debt
  obtain ⟨regs, wtracker, now, pcs⟩ := d.wakeNote_units
  have sr' (k : Nat) : d.wakeNote.inSR k = d.inSR k := Dev.inSR_congr (Dev.rd_congr regs _ _) k
  refine ⟨?_, fun k hk hne => ?_, ?_, fun c hc => ?_, wtracker.trans tracker⟩
  · rw [sr', sr st hst, if_pos rfl]
  · rw [sr', sr k hk, if_neg hne]
  · rw [Dev.rd_congr regs, report]
  · rw [Dev.debt64_congr (congrArg Pc.debt (Dev.pc_congr pcs _)) now (sr' _), debt _ (by omega)]

end Sys2Proof.Machine
end

section
/-!
Obligation O51, fourth part. OPPOINT_SWITCH and SELF_REFRESH_ENTRY (R330, R348, R349, R352).
-/
namespace Sys2Proof.Machine

/-! ### The switch of the operating point -/

/-- Stack `s` goes through self-refresh to the new point. -/
def Dev.switched (d : Dev) (s : Nat) : Dev := ((d.took.leaveSR s (d.openVal 12)).freshStack s).reported s (d.openVal 12)

theorem Dev.switched_spec (d : Dev) (s : Nat) : (d.switched s).tracker = d.tracker ∧ (d.switched s).now = d.now ∧ d.keepsFields (d.switched s) leaveFields ∧
    (∀ k, k < 2 → (d.switched s).inSR k = if k = s then false else d.inSR k) ∧ (∀ k, k / 32 = s → (d.switched s).debt64 k = 0) ∧
    (∀ k, k / 32 < 2 → k / 32 ≠ s → (d.switched s).debt64 k = d.debt64 k) := by
  have left : (d.took.leaveSR s (d.openVal 12)).tracker = d.tracker ∧ (d.took.leaveSR s (d.openVal 12)).now = d.now ∧
      d.keepsFields (d.took.leaveSR s (d.openVal 12)) leaveFields ∧
      (∀ k, k < 2 → (d.took.leaveSR s (d.openVal 12)).inSR k = if k = s then false else d.inSR k) ∧
      (∀ k, k / 32 ≠ s → (d.took.leaveSR s (d.openVal 12)).pc k = d.pc k) := by
    by_cases hin : d.inSR s = true
    · obtain ⟨tracker, now, kept, -, sr, pc, -⟩ := Dev.leaveSR_spec (d := d.took) hin (d.openVal 12)
      exact ⟨tracker, now, kept, sr, pc⟩
    · have out : d.inSR s = false := by simpa using hin
      have stays : d.took.leaveSR s (d.openVal 12) = d.took := if_pos (by rw [show d.took.inSR s = d.inSR s from rfl, out]; rfl)
      rw [stays]
      refine ⟨rfl, rfl, fun _ _ _ => rfl, fun k hk => ?_, fun _ _ => rfl⟩
      split
      next hk =>
        rw [hk]
        exact out
      · rfl
  unfold Dev.switched
  generalize d.openVal 12 = v at left ⊢
  generalize d.took.leaveSR s v = d1 at left
  obtain ⟨tracker1, now1, kept1, sr1, pc1⟩ := left
  obtain ⟨regs2, tracker2, now2, pc2, debt2⟩ := d1.freshStack_spec s
  generalize d1.freshStack s = d2 at regs2 tracker2 now2 pc2 debt2
  obtain ⟨tracker3, now3, pcs3, -, kept3, -⟩ := d2.reported_spec s v
  generalize d2.reported s v = e at tracker3 now3 pcs3 kept3
  have sr (k : Nat) (hk : k < 2) : e.inSR k = if k = s then false else d.inSR k := by
    rw [Dev.inSR_congr ((kept3 _ _ (by decide)).trans (Dev.rd_congr regs2 _ _)), sr1 k hk]
  refine ⟨tracker3.trans (tracker2.trans tracker1), now3.trans (now2.trans now1), fun f i hf => ?_, sr, fun k hk => ?_, fun k hk hne => ?_⟩
  · rw [kept3 f i (fun h => hf (by rw [List.mem_singleton.mp h]; decide)), Dev.rd_congr regs2, kept1 f i hf]
  · exact Dev.debt64_now (by rw [Dev.pc_congr pcs3, debt2 k hk, now3, now2])
  · refine Dev.debt64_congr (by rw [Dev.pc_congr pcs3, pc2 k hne, pc1 k hne]) (now3.trans (now2.trans now1)) ?_
    rw [sr _ hk, if_neg hne]

/-- The stacks go to the new point one after the other. -/
theorem Dev.allSwitched_spec (l : List Nat) (d : Dev) : (l.foldl Dev.switched d).tracker = d.tracker ∧ d.keepsFields (l.foldl Dev.switched d) leaveFields ∧
    (∀ k, k < 2 → (l.foldl Dev.switched d).inSR k = if k ∈ l then false else d.inSR k) ∧
    (∀ k, k / 32 < 2 → k / 32 ∈ l ∨ d.debt64 k = 0 → (l.foldl Dev.switched d).debt64 k = 0) := by
  induction l generalizing d with
  | nil => exact ⟨rfl, fun _ _ _ => rfl, fun k _ => (if_neg List.not_mem_nil).symm, fun k _ h => h.resolve_left List.not_mem_nil⟩
  | cons s l ih =>
    obtain ⟨tracker1, -, kept1, sr1, fresh, other⟩ := d.switched_spec s
    obtain ⟨tracker, kept, sr, debt⟩ := ih (d.switched s)
    rw [List.foldl_cons]
    refine ⟨tracker.trans tracker1, fun f i hf => (kept f i hf).trans (kept1 f i hf), fun k hk => ?_, fun k hk h => debt k hk ?_⟩
    · rw [sr k hk, sr1 k hk]
      by_cases h1 : k = s <;> by_cases h2 : k ∈ l <;> simp [h1, h2]
    · by_cases hs : k / 32 = s
      · exact .inr (fresh k hs)
      · rw [other k hk hs]
        exact h.imp_left (fun h => (List.mem_cons.mp h).resolve_left hs)

/-- The new point stands, the wait is recorded, the write's wait ends. -/
def Dev.opTaken (d : Dev) : Dev :=
  (((d.wr .MC_STATUS_DEFER_NS 0 (min d.opWait (2 ^ 32 - 1))).clr .MC_STATUS_OP_PENDING 0).wr .MC_STATUS_OP_NOW 0 (d.rd .MC_CTRL_OPPOINT 0)).stepOver 1 d.trainsEnd

theorem Dev.opTaken_rd (d : Dev) (f : Fld) (i : Nat) : d.opTaken.rd f i = if f = .MC_STATUS_OP_NOW ∧ i = 0 then d.rd .MC_CTRL_OPPOINT 0 % 2
    else if f = .MC_STATUS_OP_PENDING ∧ i = 0 then 0
    else if f = .MC_STATUS_DEFER_NS ∧ i = 0 then min d.opWait (2 ^ 32 - 1) % 2 ^ Fld.MC_STATUS_DEFER_NS.spec.width else d.rd f i := by
  have point : Fld.MC_STATUS_OP_NOW.spec.width = 1 := rfl
  have over_ (d : Dev) (k t : Nat) : (d.stepOver k t).rd f i = d.rd f i := rfl
  rw [Dev.opTaken, over_, Dev.wr_rd, Dev.clr, Dev.wr_rd, Dev.wr_rd, point, Nat.zero_mod, Nat.pow_one]

theorem Dev.opTaken_tracker (d : Dev) : d.opTaken.tracker = d.tracker.map (fun x => if x.due % 8 = 1 ∧ descOp x.desc = 0x08 ∧ x.done = false then
    { x with due := 0, status := Status.DEFERRED_OK
             result := x.result / 2 ^ 32 * 2 ^ 32 + min (x.result % 2 ^ 32 + (d.trainsEnd - (x.due / 8 - 1)) / cycleTicks) (2 ^ 32 - 1) } else x) := by
  have over_ (d : Dev) (k t : Nat) : (d.stepOver k t).tracker = d.tracker.map (fun x => if x.due % 8 = k ∧ descOp x.desc = 0x08 ∧ !x.done then
    { x with due := 0, status := Status.DEFERRED_OK
             result := x.result / 2 ^ 32 * 2 ^ 32 + min (x.result % 2 ^ 32 + (t - (x.due / 8 - 1)) / cycleTicks) (2 ^ 32 - 1) } else x) := rfl
  rw [Dev.opTaken, over_]
  simp only [Bool.not_eq_true']
  rfl

theorem oppointSwitch_acts (s : State) (awake : s.dev.asleep = false) (pend : s.dev.on .MC_STATUS_OP_PENDING 0 = true)
    (ended : s.dev.pcs.all (fun x => decide (x.2.trainEnd ≤ s.dev.now)) = true) :
    Acts .oppointSwitch s (fun e => e.rd .MC_STATUS_OP_NOW 0 = s.dev.rd .MC_CTRL_OPPOINT 0 % 2 ∧ e.on .MC_STATUS_OP_PENDING 0 = false ∧
      (∀ k, k < 2 → s.dev.stackOk k = true → e.inSR k = false ∧ ∀ c, c < 32 → e.debt64 (c + 32 * k) = 0) ∧
      (∀ k, k < 2 → s.dev.stackOk k = false → e.inSR k = s.dev.inSR k) ∧
      e.rd .MC_STATUS_DEFER_NS 0 = min s.dev.opWait (2 ^ 32 - 1) % 2 ^ Fld.MC_STATUS_DEFER_NS.spec.width ∧
      e.tracker = s.dev.tracker.map (fun x => if x.due % 8 = 1 ∧ descOp x.desc = 0x08 ∧ x.done = false then
        { x with due := 0, status := Status.DEFERRED_OK
                 result := x.result / 2 ^ 32 * 2 ^ 32 + min (x.result % 2 ^ 32 + (s.dev.trainsEnd - (x.due / 8 - 1)) / cycleTicks) (2 ^ 32 - 1) } else x)) := by
  refine acts_onDev rfl rfl ?_
  have switch : Dev.core (fun d => d.opSwitch) s.dev = (([0, 1].filter s.dev.stackOk).foldl Dev.switched s.dev.opTaken).wakeNote := by
    unfold Dev.core
    rw [if_neg (by rw [awake]; exact Bool.false_ne_true)]
    exact if_pos ⟨pend, ended⟩
  rw [switch]
  have rd1 := s.dev.opTaken_rd
  have tracker1 := s.dev.opTaken_tracker
  generalize s.dev.opTaken = d1 at rd1 tracker1
  obtain ⟨tracker2, kept2, sr2, debt2⟩ := Dev.allSwitched_spec ([0, 1].filter s.dev.stackOk) d1
  have hmem (k : Nat) (hk : k < 2) : k ∈ [0, 1].filter s.dev.stackOk ↔ s.dev.stackOk k = true := by
    rw [List.mem_filter]
    exact and_iff_right (by rw [List.mem_cons, List.mem_singleton]; omega)
  generalize [0, 1].filter s.dev.stackOk = l at tracker2 kept2 sr2 debt2 hmem ⊢
  generalize l.foldl Dev.switched d1 = d2 at tracker2 kept2 sr2 debt2
  obtain ⟨regs3, tracker3, now3, pcs3⟩ := d2.wakeNote_units
  have rd (f : Fld) (hf : f ∉ leaveFields) : d2.wakeNote.rd f 0 = d1.rd f 0 := (Dev.rd_congr regs3 f 0).trans (kept2 f 0 hf)
  have sr (k : Nat) : d2.wakeNote.inSR k = d2.inSR k := Dev.inSR_congr (Dev.rd_congr regs3 _ _) k
  refine ⟨?_, ?_, fun k hk ok => ⟨?_, fun c hc => ?_⟩, fun k hk ok => ?_, ?_, tracker3.trans (tracker2.trans tracker1)⟩
  · rw [rd _ (by decide), rd1, if_pos ⟨rfl, rfl⟩]
  · rw [Dev.on, rd _ (by decide), rd1]
    rfl
  · rw [sr, sr2 k hk, if_pos ((hmem k hk).mpr ok)]
  · rw [Dev.debt64_congr (congrArg Pc.debt (Dev.pc_congr pcs3 _)) now3 (sr _)]
    have stack : (c + 32 * k) / 32 = k := by omega
    exact debt2 _ (by rw [stack]; exact hk) (.inl (by rw [stack]; exact (hmem k hk).mpr ok))
  · rw [sr, sr2 k hk, if_neg (fun h => Bool.false_ne_true (ok.symm.trans ((hmem k hk).mp h))), Dev.inSR_congr ((rd1 _ _).trans rfl)]
  · rw [rd _ (by decide), rd1, if_neg (fun h => nomatch h.1), if_neg (fun h => nomatch h.1), if_pos ⟨rfl, rfl⟩]

/-! ### Entry to self-refresh -/

/-- A stack in service enters self-refresh: its bit and the moment. -/
theorem Dev.enterSR_spec (d : Dev) (s : Nat) (hs : s < 2) : (∀ k, k < 2 → (d.enterSR s).inSR k = (d.inSR k || (decide (k = s) && d.stackOk k))) ∧
    (∀ k, tget (fun _ => 0) (d.enterSR s).mc.srAt k = if k = s ∧ d.inSR s = false ∧ d.stackOk s = true then d.now else tget (fun _ => 0) d.mc.srAt k) ∧
    d.keepsBut (d.enterSR s) [(.MC_STATUS_SR, 0)] ∧ (d.enterSR s).now = d.now := by
  have width : Fld.MC_STATUS_SR.spec.width = 2 := rfl
  unfold Dev.enterSR
  by_cases h : (d.inSR s || !d.stackOk s) = true
  · rw [if_pos h]
    have no : ¬(d.inSR s = false ∧ d.stackOk s = true) := fun ⟨h1, h2⟩ => by rw [h1, h2] at h; exact Bool.false_ne_true h
    refine ⟨fun k _ => ?_, fun k => (if_neg (fun h => no h.2)).symm, fun _ _ _ => rfl, rfl⟩
    by_cases hk : k = s
    · subst hk
      revert h
      cases d.inSR k <;> cases d.stackOk k <;> simp
    · simp [hk]
  · rw [if_neg h]
    obtain ⟨out, ok⟩ : d.inSR s = false ∧ d.stackOk s = true := by simpa using h
    dsimp only
    generalize tset (fun _ => 0) (d.wr .MC_STATUS_SR 0 (setBit (d.rd .MC_STATUS_SR 0) s true)).mc.srTemp s (d.refreshTemp s) = temps
    have rd (m : Mc) (f : Fld) (i : Nat) : ({ d.wr .MC_STATUS_SR 0 (setBit (d.rd .MC_STATUS_SR 0) s true) with mc := m } : Dev).rd f i =
        if f = .MC_STATUS_SR ∧ i = 0 then setBit (d.rd .MC_STATUS_SR 0) s true % 2 ^ 2 else d.rd f i := by
      rw [Dev.setMc_rd, Dev.wr_rd, width]
    refine ⟨fun k hk => ?_, fun k => ?_, fun f i hf => ?_, rfl⟩
    · rw [Dev.inSR, rd, if_pos ⟨rfl, rfl⟩, bitAt_mod _ _ _ hk, bitAt_setBit]
      by_cases hks : k = s
      · rw [hks, if_pos rfl, ok, decide_eq_true rfl]
        simp
      · rw [if_neg hks, decide_eq_false hks, Bool.false_and, Bool.or_false]
        rfl
    · rw [tget_tset]
      simp only [out, ok, and_true]
      rfl
    · rw [rd, if_neg (fun h => hf (by rw [h.1, h.2]; exact List.mem_singleton_self _))]

theorem Dev.stackOk_congr {d e : Dev} (h : e.rd .DEV_UNITS_HBM_OK 0 = d.rd .DEV_UNITS_HBM_OK 0) (s : Nat) : e.stackOk s = d.stackOk s := by
  rw [Dev.stackOk, h, Dev.stackOk]

theorem Dev.enterBoth_spec (d : Dev) : (∀ k, k < 2 → d.enterBoth.inSR k = (d.inSR k || d.stackOk k)) ∧
    (∀ k, k < 2 → d.stackOk k = true → d.inSR k = false → tget (fun _ => 0) d.enterBoth.mc.srAt k = d.now) ∧ d.keepsBut d.enterBoth [(.MC_STATUS_SR, 0)] := by
  obtain ⟨sr1, at1, kept1, now1⟩ := d.enterSR_spec 0 (by decide)
  obtain ⟨sr2, at2, kept2, -⟩ := (d.enterSR 0).enterSR_spec 1 (by decide)
  have ok (k : Nat) : (d.enterSR 0).stackOk k = d.stackOk k := Dev.stackOk_congr (kept1 _ _ (by decide)) k
  unfold Dev.enterBoth
  refine ⟨fun k hk => ?_, fun k hk hok out => ?_, fun f i hf => (kept2 f i hf).trans (kept1 f i hf)⟩
  · rw [sr2 k hk, sr1 k hk, ok]
    obtain rfl | rfl : k = 0 ∨ k = 1 := by omega
    · simp
    · simp
  · rw [at2, at1, now1]
    obtain rfl | rfl : k = 0 ∨ k = 1 := by omega
    · rw [if_neg (by simp), if_pos ⟨rfl, out, hok⟩]
    · rw [if_pos ⟨rfl, by rw [sr1 1 (by decide), out]; rfl, by rw [ok]; exact hok⟩]

theorem selfRefreshIdle_acts (s : State) (st : Nat) (hst : st < 2) (ok : s.dev.stackOk st = true) (out : s.dev.inSR st = false)
    (settled : s.dev.isSafe = false) (idle : s.dev.mcIdle = true) (ready : s.dev.rd .KL_STATUS_PSTATE 0 = 2) (quiet : s.dev.memInFlight = false)
    (us_ : s.dev.rd .MC_CTRL_SR_IDLE_US 0 ≠ 0)
    (long : ∀ k, k < 2 → tget (fun _ => 0) s.dev.mc.lastReq k + us (s.dev.rd .MC_CTRL_SR_IDLE_US 0) ≤ s.dev.now)
    (empty : s.dev.pcs.all (fun x => x.2.reads.isEmpty && x.2.writes.isEmpty) = true) (pend : s.dev.on .MC_STATUS_OP_PENDING 0 = false) :
    Acts (.selfRefreshEntry st) s (fun e => (∀ k, k < 2 → e.inSR k = (s.dev.inSR k || s.dev.stackOk k)) ∧
      (∀ k, k < 2 → s.dev.stackOk k = true → s.dev.inSR k = false → tget (fun _ => 0) e.mc.srAt k = s.dev.now) ∧ s.dev.keepsBut e [(.MC_STATUS_SR, 0)]) := by
  refine acts_onDev rfl (decide_eq_true hst) ?_
  have both : [0, 1].all (fun s_ => decide (tget (fun _ => 0) s.dev.mc.lastReq s_ + us (s.dev.rd .MC_CTRL_SR_IDLE_US 0) ≤ s.dev.now)) = true := by
    simp [long 0, long 1]
  unfold Dev.srEntry
  rw [if_neg (by rw [ok, out]; simp), if_neg (by rw [settled]; exact Bool.false_ne_true)]
  dsimp only
  rw [if_pos ⟨idle, ready, by rw [quiet]; rfl, us_, both, empty, by rw [pend]; rfl⟩]
  exact s.dev.enterBoth_spec

theorem Dev.loseRecords_regs (d : Dev) : d.loseRecords.regs = d.regs := by
  unfold Dev.loseRecords
  split <;> rfl

theorem Dev.storeContexts_units (d : Dev) : d.storeContexts.regs = d.regs ∧ d.storeContexts.tracker = d.tracker ∧ d.storeContexts.mc.stored = true := by
  unfold Dev.storeContexts
  split
  next h => exact ⟨rfl, rfl, h⟩
  · refine ⟨?_, ?_, rfl⟩
    · exact foldl_keeps Dev.regs _ _ _ (fun d r _ => (d.hbm_units _ _ _ _).1)
    · exact foldl_keeps Dev.tracker _ _ _ (fun d r _ => (d.hbm_units _ _ _ _).2.1)

theorem selfRefreshSafe_acts (s : State) (st : Nat) (hst : st < 2) (ok : s.dev.stackOk st = true) (out : s.dev.inSR st = false)
    (safe : s.dev.isSafe = true) :
    let late := s.dev.fullTime (s.dev.rd .FC_SAFE_TIME_T 0) + us 250 ≤ s.dev.bed
    Acts (.selfRefreshEntry st) s (fun e => s.dev.keepsBut e [(.MC_STATUS_SR, 0)] ∧
      (late ∨ (s.dev.recordsDone = true ∧ s.dev.storeContexts.ctxWaits = false) → ∀ k, k < 2 → e.inSR k = (s.dev.inSR k || s.dev.stackOk k)) ∧
      (¬ late → s.dev.recordsDone = false → e = s.dev) ∧
      (¬ late → s.dev.recordsDone = true → s.dev.storeContexts.ctxWaits = true → e.mc.stored = true ∧ e.tracker = s.dev.tracker ∧ ∀ k, e.inSR k = s.dev.inSR k)) := by
  intro late
  refine acts_onDev rfl (decide_eq_true hst) ?_
  have enters (d : Dev) (h : d.regs = s.dev.regs) : (∀ k, k < 2 → d.enterBoth.inSR k = (s.dev.inSR k || s.dev.stackOk k)) ∧
      s.dev.keepsBut d.enterBoth [(.MC_STATUS_SR, 0)] := by
    obtain ⟨sr, -, kept⟩ := d.enterBoth_spec
    exact ⟨fun k hk => by rw [sr k hk, Dev.inSR_congr (Dev.rd_congr h _ _), Dev.stackOk_congr (Dev.rd_congr h _ _)],
      fun f i hf => (kept f i hf).trans (Dev.rd_congr h f i)⟩
  unfold Dev.srEntry
  rw [if_neg (by rw [ok, out]; simp), if_pos safe]
  by_cases hl : late
  · rw [if_pos hl]
    obtain ⟨sr, kept⟩ := enters s.dev.loseRecords s.dev.loseRecords_regs
    exact ⟨kept, fun _ => sr, fun h => absurd hl h, fun h => absurd hl h⟩
  rw [if_neg hl]
  cases done : s.dev.recordsDone
  · rw [Bool.not_false, if_pos rfl]
    exact ⟨fun _ _ _ => rfl, fun h => h.elim (fun h => absurd h hl) (fun h => nomatch h.1), fun _ _ => rfl, nofun⟩
  rw [Bool.not_true, if_neg Bool.false_ne_true]
  obtain ⟨regs, tracker, stored⟩ := s.dev.storeContexts_units
  cases waits : s.dev.storeContexts.ctxWaits
  · rw [if_neg Bool.false_ne_true]
    obtain ⟨sr, kept⟩ := enters s.dev.storeContexts.loseRecords (s.dev.storeContexts.loseRecords_regs.trans regs)
    exact ⟨kept, fun _ => sr, nofun, nofun⟩
  · rw [if_pos rfl]
    exact ⟨fun f i _ => Dev.rd_congr regs f i, fun h => h.elim (fun h => absurd h hl) (fun h => nomatch h.2), nofun,
      fun _ _ _ => ⟨stored, tracker, fun k => Dev.inSR_congr (Dev.rd_congr regs _ _) k⟩⟩

end Sys2Proof.Machine
end

section
/-!
Obligation O51, last part. The patrol scrub (R351), and the statement.
-/
namespace Sys2Proof.Machine

theorem Dev.memEnd_congr {d e : Dev} (h : e.rd .DEV_UNITS_HBM_OK 0 = d.rd .DEV_UNITS_HBM_OK 0) : e.memEnd = d.memEnd := by rw [Dev.memEnd, h, Dev.memEnd]

theorem Dev.setScrub_units (d : Dev) (w t : Nat) : let e : Dev := { d with mc := { d.mc with scrub := w, scrubAt := t } }
    e.mc.scrub = w ∧ e.mc.bad = d.mc.bad ∧ e.raised = d.raised ∧ e.regs = d.regs := ⟨rfl, rfl, rfl, rfl⟩

/-- The scrub goes on word by word, and from the end to the first. -/
theorem Dev.scrubNext_spec (d : Dev) : d.scrubNext.mc.scrub = (if (d.mc.scrub + 1) * 32 < d.memEnd then d.mc.scrub + 1 else 0) ∧
    d.scrubNext.mc.bad = d.mc.bad ∧ d.scrubNext.raised = d.raised ∧ d.scrubNext.regs = d.regs := by
  unfold Dev.scrubNext
  extract_lets w
  split
  · exact d.setScrub_units w d.mc.scrubAt
  · exact d.setScrub_units 0 _

/-- What the scrub's read of word `w` leaves: an error that it meets is recorded. -/
def Dev.scrubRead (d : Dev) (c w err : Nat) : Dev :=
  let d0 := if err = 2 then d.spoil w else d
  if d0.mc.bad.contains w then ((d0.ueWord c 2 (32 * w)).set1 .MC_STATUS_SCRUB_UE 0).raise 0x183 c
  else if err = 1 then ((d0.raise 0x180 c).set1 .MC_STATUS_CE 0).count .MC_PC_COUNT_CE c 1 else d0

theorem Dev.scrubRead_spec {d : Dev} {w : Nat} (good : w ∉ d.mc.bad) (c err : Nat) : (d.scrubRead c w err).mc.scrub = d.mc.scrub ∧
    (d.scrubRead c w err).rd .DEV_UNITS_HBM_OK 0 = d.rd .DEV_UNITS_HBM_OK 0 ∧ (err = 0 → d.scrubRead c w err = d) ∧
    (err = 1 → (d.scrubRead c w err).raised = d.raised ++ [⟨0x180, c, 0, d.cycle⟩] ∧ (d.scrubRead c w err).on .MC_STATUS_CE 0 = true) ∧
    (err = 2 → (d.scrubRead c w err).raised = d.raised ++ [⟨0x183, c, 0, d.cycle⟩] ∧ (d.scrubRead c w err).on .MC_STATUS_SCRUB_UE 0 = true ∧
      w ∈ (d.scrubRead c w err).mc.bad) := by
  have not_bad : ¬ d.mc.bad.contains w = true := by simpa using good
  unfold Dev.scrubRead
  dsimp only
  by_cases h2 : err = 2
  · subst h2
    obtain ⟨mc, regs, -, raised, cycle, -⟩ := Dev.spoil_spec good
    have bad : (d.spoil w).mc.bad.contains w = true := by rw [mc]; simp
    rw [if_pos rfl, if_pos bad]
    obtain ⟨-, -, -, -, -, kept, view, -⟩ := (d.spoil w).ueWord_spec c 2 (32 * w)
    have umc : ((d.spoil w).ueWord c 2 (32 * w)).mc = (d.spoil w).mc := congrArg (fun v => v.2.2.1) view
    have uraised : ((d.spoil w).ueWord c 2 (32 * w)).raised = d.raised := (congrArg (fun v => v.1) view).trans raised
    have ucycle : ((d.spoil w).ueWord c 2 (32 * w)).cycle = d.cycle := (congrArg (fun v => v.2.2.2.1) view).trans cycle
    have urd := kept .DEV_UNITS_HBM_OK 0 (by decide)
    generalize (d.spoil w).ueWord c 2 (32 * w) = u at umc uraised ucycle urd
    have one : 1 % 2 ^ Fld.MC_STATUS_SCRUB_UE.spec.width = 1 := rfl
    have rd (f : Fld) : ((u.set1 .MC_STATUS_SCRUB_UE 0).raise 0x183 c).rd f 0 = if f = .MC_STATUS_SCRUB_UE ∧ 0 = 0 then 1 else u.rd f 0 :=
      (Dev.set1_rd u .MC_STATUS_SCRUB_UE f 0 0).trans (by rw [one])
    have kept_ : ((u.set1 .MC_STATUS_SCRUB_UE 0).raise 0x183 c).mc = u.mc ∧ ((u.set1 .MC_STATUS_SCRUB_UE 0).raise 0x183 c).raised =
      u.raised ++ [⟨0x183, c, 0, u.cycle⟩] := ⟨rfl, rfl⟩
    obtain ⟨smc, sraised⟩ := kept_
    refine ⟨?_, ?_, nofun, nofun, fun _ => ⟨?_, ?_, ?_⟩⟩
    · rw [smc, umc, mc]
    · rw [rd, if_neg (fun h => nomatch h.1), urd, Dev.rd_congr regs]
    · rw [sraised, uraised, ucycle]
    · rw [Dev.on, rd]
      rfl
    · rw [smc, umc]
      simpa using bad
  · rw [if_neg h2, if_neg not_bad]
    by_cases h1 : err = 1
    · subst h1
      rw [if_pos rfl]
      have one : 1 % 2 ^ Fld.MC_STATUS_CE.spec.width = 1 := rfl
      have rd (f : Fld) (hf : f ≠ .MC_PC_COUNT_CE) : (((d.raise 0x180 c).set1 .MC_STATUS_CE 0).count .MC_PC_COUNT_CE c 1).rd f 0 =
          if f = .MC_STATUS_CE ∧ 0 = 0 then 1 else d.rd f 0 := by
        rw [Dev.count, Dev.wr_rd_ne _ _ _ _ _ _ hf, Dev.set1_rd, one]
        rfl
      refine ⟨rfl, ?_, nofun, fun _ => ⟨rfl, ?_⟩, nofun⟩
      · rw [rd _ (by decide), if_neg (fun h => nomatch h.1)]
      · rw [Dev.on, rd _ (by decide)]
        rfl
    · rw [if_neg h1]
      exact ⟨rfl, rfl, fun _ => rfl, fun h => absurd h h1, fun h => absurd h h2⟩

theorem patrolScrub_acts (s : State) (err : Nat) (due : s.dev.scrubDue = true) :
    let w := s.dev.mc.scrub
    let c := s.dev.pcOf (32 * w)
    s.dev.pcFree c = true → (s.dev.pc c).reads = [] → s.dev.drains c = false → s.dev.debt64 c < 64 * trefi (s.dev.rd .MC_PC_STATUS_RBAND c) →
    s.dev.bankHeld c (s.dev.bankOf (32 * w)) = false → w ∉ s.dev.mc.bad →
    Acts (.patrolScrub err) s (fun e => e.mc.scrub = (if (w + 1) * 32 < s.dev.memEnd then w + 1 else 0) ∧
      (err = 0 → e.raised = s.dev.raised ∧ s.dev.keepsFields e [.MC_PC_COUNT_NEIGHBOUR]) ∧
      (err = 1 → e.raised = s.dev.raised ++ [⟨0x180, c, 0, s.dev.cycle⟩] ∧ e.on .MC_STATUS_CE 0 = true) ∧
      (err = 2 → e.raised = s.dev.raised ++ [⟨0x183, c, 0, s.dev.cycle⟩] ∧ e.on .MC_STATUS_SCRUB_UE 0 = true ∧ w ∈ e.mc.bad)) := by
  intro w c free reads drains debt bank good
  refine acts_onDev rfl rfl ?_
  have go : s.dev.scrub err = ((s.dev.scrubRead c w err).access (32 * w) false).scrubNext :=
    if_pos ⟨due, free, by rw [reads]; rfl, by rw [drains]; rfl, debt, by rw [bank]; rfl⟩
  rw [go]
  obtain ⟨scrub1, units1, none1, ce1, ue1⟩ := Dev.scrubRead_spec good c err
  generalize s.dev.scrubRead c w err = d1 at scrub1 units1 none1 ce1 ue1
  obtain ⟨view, -, kept⟩ := d1.accessed_access (32 * w) false
  have mc2 : (d1.access (32 * w) false).mc = d1.mc := congrArg (fun v => v.2.2.1) view
  have raised2 : (d1.access (32 * w) false).raised = d1.raised := congrArg (fun v => v.1) view
  generalize d1.access (32 * w) false = d2 at kept mc2 raised2
  obtain ⟨scrub3, bad3, raised3, regs3⟩ := d2.scrubNext_spec
  have end_ : d2.memEnd = s.dev.memEnd := Dev.memEnd_congr ((kept _ _ (by decide)).trans units1)
  have on (f : Fld) (hf : f ≠ .MC_PC_COUNT_NEIGHBOUR) : d2.scrubNext.on f 0 = d1.on f 0 := by
    rw [Dev.on, Dev.rd_congr regs3, kept f 0 (fun h => hf (List.mem_singleton.mp h)), Dev.on]
  have raised := raised3.trans raised2
  refine ⟨?_, fun h => ⟨?_, fun f i hf => ?_⟩, fun h => ?_, fun h => ?_⟩
  · rw [scrub3, mc2, scrub1, end_]
  · rw [raised, none1 h]
  · rw [Dev.rd_congr regs3, kept f i hf, none1 h]
  · obtain ⟨event, ce⟩ := ce1 h
    exact ⟨raised.trans event, (on _ (by decide)).trans ce⟩
  · obtain ⟨event, ue, bad⟩ := ue1 h
    exact ⟨raised.trans event, (on _ (by decide)).trans ue, by rw [bad3, mc2]; exact bad⟩

theorem noPatrolScrub_acts (s : State) (err : Nat) :
    let c := s.dev.pcOf (32 * s.dev.mc.scrub)
    (s.dev.scrubDue = false ∨ s.dev.pcFree c = false ∨ (s.dev.pc c).reads ≠ [] ∨ s.dev.drains c = true ∨ s.dev.refi64 c ≤ s.dev.debt64 c ∨
      s.dev.bankHeld c (s.dev.bankOf (32 * s.dev.mc.scrub)) = true) → Acts (.patrolScrub err) s (fun e => e = s.dev) := by
  intro c h
  refine acts_onDev rfl rfl ?_
  refine if_neg (fun ⟨due, free, reads, drains, debt, bank⟩ => ?_)
  rcases h with h | h | h | h | h | h
  · exact Bool.false_ne_true (h.symm.trans due)
  · exact Bool.false_ne_true (h.symm.trans free)
  · exact h (List.isEmpty_iff.mp reads)
  · rw [h] at drains
    exact Bool.false_ne_true drains
  · exact absurd debt (Nat.not_lt.mpr h)
  · rw [h] at bank
    exact Bool.false_ne_true bank

end Sys2Proof.Machine
end

section
open Sys2Proof Sys2Proof.Machine

/-- Settles O51: clause by clause, the service of requests, refresh and retraining, the operating point, self-refresh and the scrub. -/
theorem memoryServesRefreshesAndSwitches : Obligations.MemoryServesRefreshesAndSwitches :=
  ⟨⟨requestServed_acts, streamReadSpoilt_acts, noRequestServed_acts⟩,
    ⟨refreshIssued_acts, keepOpenRowClose_acts, stackTemperatureRead_acts, retrain_acts⟩,
    oppointWrite_acts, oppointSwitch_acts, selfRefreshIdle_acts, selfRefreshSafe_acts, selfRefreshExit_acts, patrolScrub_acts, noPatrolScrub_acts⟩

end

section
/-!
Obligation O41. The copying descriptors (R41, R162, R303, R307, R323, R338, R398): their refusals, the burst that moves, and the full write queue.
-/
namespace Sys2Proof.Machine

/-! ### A burst moves -/

/-- What a burst of `n` bytes of the descriptor `x` in entry `id` leaves in the block. -/
def Dev.burstMoved (d e : Dev) (id : Nat) (x : Entry) (n : Nat) : Prop :=
  (∀ y, e.entry? id = some y → y.progress = x.progress + n ∧ y.result = (x.progress + n) * 2 ^ 96 ∧ y.started = true ∧
    (y.done = true ↔ x.progress + n = copyLen x)) ∧ d.entriesBut e id ∧ d.keepsBut e []

/-- An open entry that has done more: it has started. -/
theorem Dev.moved_entry {d : Dev} {x : Entry} (hx : d.entry? x.id = some x) (undone : x.done = false) (p r : Nat) :
    (d.moved x.id p r).entry? x.id = some { x with begun := true, started := true, progress := p, result := r } ∧
      d.entriesBut (d.moved x.id p r) x.id := by
  obtain ⟨own, other⟩ := Dev.upEntry_one hx (fun y => if y.done then y else { y with begun := true, started := true, progress := p, result := r })
    (fun y => by split <;> rfl)
  rw [if_neg (by rw [undone]; exact Bool.false_ne_true)] at own
  exact ⟨own, other⟩

/-- The entry of a copy after a burst: it has started, and is done with its last byte. -/
theorem Dev.copied_entry {d : Dev} {x : Entry} (hx : d.entry? x.id = some x) (undone : x.done = false) (n : Nat) :
    (d.copied x n).entry? x.id = some { x with
      begun := true, started := true, progress := x.progress + n, result := (x.progress + n) * 2 ^ 96, done := decide (x.progress + n = copyLen x) } ∧
      d.entriesBut (d.copied x n) x.id := by
  obtain ⟨own, other⟩ := Dev.moved_entry hx undone (x.progress + n) ((x.progress + n) * 2 ^ 96)
  unfold Dev.copied
  dsimp only
  split
  next last =>
    obtain ⟨own', other'⟩ := Dev.upEntry_one own (fun y => if y.done then y else { y with
      done := true, status := x.status, result := (x.progress + n) * 2 ^ 96 }) (fun y => by split <;> rfl)
    rw [if_neg (by rw [undone]; exact Bool.false_ne_true)] at own'
    exact ⟨by rw [decide_eq_true last]; exact own', fun k hk => (other' k hk).trans (other k hk)⟩
  next more =>
    rw [decide_eq_false more, ← undone]
    exact ⟨own, other⟩

theorem Dev.copied_regs (d : Dev) (x : Entry) (n : Nat) : (d.copied x n).regs = d.regs := by
  unfold Dev.copied
  dsimp only
  split <;> rfl

/-- A burst moves once its access has been asked for, which leaves the registers and the descriptors. -/
theorem Dev.copied_moved {d d1 : Dev} {id op : Nat} {x : Entry} (hx : d.open? id op = some x) (regs : d1.regs = d.regs) (tracker : d1.tracker = d.tracker)
    (n : Nat) : d.burstMoved (d1.copied x n) id x n := by
  obtain ⟨entry, undone⟩ := Dev.open_entry hx
  obtain rfl := Dev.entry_id entry
  obtain ⟨own, other⟩ := Dev.copied_entry ((Dev.entry_congr tracker x.id).trans entry) undone n
  refine ⟨fun y hy => ?_, fun k hk => (other k hk).trans (Dev.entry_congr tracker k), fun f i _ => Dev.rd_congr ((Dev.copied_regs d1 x n).trans regs) f i⟩
  obtain rfl := Option.some.inj (own.symm.trans hy)
  exact ⟨rfl, rfl, rfl, decide_eq_true_iff⟩

/-! ### The three copies -/

/-- COPY_IN moves what the host has answered into the space that SP names. -/
theorem copyIn_burst {s : State} {id dst : Nat} {data bs : List Byte} {x : Entry} (hx : s.dev.open? id 0x10 = some x) (ok : s.dev.copyRefused x = none)
    (hbs : bs = data.take (copyLen x - x.progress)) (hdst : dst = descField x.desc 16 0 64 + x.progress) (hn : bs.length ≠ 0)
    (room : ¬(descField x.desc 28 0 2 = 0 ∧ s.dev.writeFull dst = true)) :
    Writes (.copyIn id data) s (fun m e => s.dev.burstMoved e id x bs.length ∧
      m = if descField x.desc 28 0 2 = 0 then { s.mem with hbm := writeMem byte0 s.mem.hbm dst bs }
        else if descField x.desc 28 0 2 = 1 then { s.mem with vlb := writeMem byte0 s.mem.vlb (descTarget x.desc * 131072 + dst) bs }
        else { s.mem with ents := writeMem byte0 s.mem.ents (descTarget x.desc * 2048 + dst) bs }) := by
  have bytes : bs.isEmpty = false := by simpa [List.isEmpty_iff] using hn
  refine writes_onMem rfl rfl ?_
  simp only [Dev.copyIn, hx, ok, ← hbs, ← hdst, bytes, Bool.false_eq_true, if_false]
  have regs0 : (s.dev.ask (descField x.desc 8 0 64 + x.progress) bs.length).regs = s.dev.regs := rfl
  have tracker0 : (s.dev.ask (descField x.desc 8 0 64 + x.progress) bs.length).tracker = s.dev.tracker := rfl
  have full0 : (s.dev.ask (descField x.desc 8 0 64 + x.progress) bs.length).writeFull dst = s.dev.writeFull dst := rfl
  generalize s.dev.ask (descField x.desc 8 0 64 + x.progress) bs.length = d at regs0 tracker0 full0
  split
  next pattern =>
    obtain ⟨regs, tracker, -, -⟩ := d.hbm_units true (.copyIn id) dst bs.length
    rw [if_neg (fun full => room ⟨pattern, full0 ▸ full⟩), if_pos pattern]
    exact ⟨Dev.copied_moved hx (regs.trans regs0) (tracker.trans tracker0) _, rfl⟩
  next lines =>
    rw [if_neg (by rw [lines]; decide), if_pos lines]
    exact ⟨Dev.copied_moved hx regs0 tracker0 _, rfl⟩
  next not0 not1 =>
    rw [if_neg not0, if_neg not1]
    exact ⟨Dev.copied_moved hx regs0 tracker0 _, rfl⟩

/-- COPY_OUT reads pattern memory into host memory, which a standby leaves (R398). -/
theorem copyOut_burst {s : State} {id src dst n : Nat} {x : Entry} (hx : s.dev.open? id 0x11 = some x) (ok : s.dev.copyRefused x = none)
    (hsrc : src = descField x.desc 8 0 64 + x.progress) (hdst : dst = descField x.desc 16 0 64 + x.progress) (hn : n = min 64 (copyLen x - x.progress)) :
    Writes (.copyOut id) s (fun m e => s.dev.burstMoved e id x n ∧
      m = if s.dev.follows then s.mem else { s.mem with host := writeMem byte0 s.mem.host dst (readMem byte0 s.mem.hbm src n) }) := by
  obtain ⟨regs, tracker, -, -⟩ := s.dev.hbm_units false (.copyOut id dst) src n
  refine writes_onMem rfl rfl ?_
  simp only [Dev.copyOut, hx, ok, ← hsrc, ← hdst, ← hn]
  refine ⟨Dev.copied_moved hx regs tracker n, ?_⟩
  unfold Dev.toHost
  split <;> rfl

/-- FILL repeats its pattern. -/
theorem fill_burst {s : State} {id src n : Nat} {x : Entry} (hx : s.dev.open? id 0x12 = some x) (ok : s.dev.copyRefused x = none)
    (hsrc : src = descField x.desc 8 0 64 + x.progress) (hn : n = min 64 (copyLen x - x.progress)) (room : ¬s.dev.writeFull src = true) :
    Writes (.fill id) s (fun m e => s.dev.burstMoved e id x n ∧
      m = { s.mem with hbm := writeMem byte0 s.mem.hbm src ((List.range (n / 8)).flatMap (fun _ => bytesOf 8 (descField x.desc 24 0 64))) }) := by
  obtain ⟨regs, tracker, -, -⟩ := s.dev.hbm_units true (.fill id) src n
  refine writes_onMem rfl rfl ?_
  simp only [Dev.fill, hx, ok, ← hsrc, ← hn, if_neg room]
  exact ⟨Dev.copied_moved hx regs tracker n, rfl⟩

/-! ### Refusals and a full write queue -/

/-- A copy with a bad address is decided at once. -/
theorem copyRefused_acts (s : State) (id op : Nat) (data : List Byte) (c : Instr) (x : Entry) (st : Nat)
    (hc : (c, op) ∈ [(Instr.copyIn id data, 0x10), (.copyOut id, 0x11), (.fill id, 0x12)]) (hx : s.dev.open? id op = some x)
    (bad : s.dev.copyRefused x = some st) : Acts c s (fun e => e.decided id st ∧ s.dev.entriesBut e id ∧ s.dev.keepsBut e []) := by
  obtain ⟨entry, undone⟩ := Dev.open_entry hx
  obtain ⟨decided, others⟩ := Dev.finish_decided entry undone st 0
  have finished : (s.dev.finish id st 0).decided id st ∧ s.dev.entriesBut (s.dev.finish id st 0) id ∧ s.dev.keepsBut (s.dev.finish id st 0) [] :=
    ⟨decided, others, fun _ _ _ => rfl⟩
  simp only [List.mem_cons, Prod.mk.injEq, List.not_mem_nil, or_false] at hc
  rcases hc with ⟨rfl, rfl⟩ | ⟨rfl, rfl⟩ | ⟨rfl, rfl⟩
  · exact acts_onMem (f := fun _ d => d.copyIn id data) rfl rfl (by simp only [Dev.copyIn, hx, bad]) (by simpa only [Dev.copyIn, hx, bad] using finished)
  · exact acts_onMem (f := fun m d => Dev.copyOut m d id) rfl rfl (by simp only [Dev.copyOut, hx, bad]) (by simpa only [Dev.copyOut, hx, bad] using finished)
  · exact acts_onMem (f := fun _ d => d.fill id) rfl rfl (by simp only [Dev.fill, hx, bad]) (by simpa only [Dev.fill, hx, bad] using finished)

/-- A COPY_IN into pattern memory that meets a full write queue has only read the host. -/
theorem Dev.copyIn_full {d : Dev} {id : Nat} {x : Entry} (hx : d.open? id 0x10 = some x) (ok : d.copyRefused x = none)
    (pattern : descField x.desc 28 0 2 = 0) (full : d.writeFull (descField x.desc 16 0 64 + x.progress) = true) (data : List Byte) :
    d.copyIn id data = ([], d.ask (descField x.desc 8 0 64 + x.progress) (data.take (copyLen x - x.progress)).length) := by
  have full' (a n : Nat) : (d.ask a n).writeFull (descField x.desc 16 0 64 + x.progress) = true := full
  simp only [Dev.copyIn, hx, ok, pattern, full', if_true, ite_self]

end Sys2Proof.Machine
end

section
open Sys2Proof Sys2Proof.Machine

/-- Settles O41: a refusal decides, a burst that has room moves, a full write queue leaves all but the read of the host. -/
theorem copiesMoveTheirBursts : Obligations.CopiesMoveTheirBursts := by
  refine ⟨copyRefused_acts, ?_, fun s id op data c x hc hx ok full => ?_⟩
  · intro s id op n data c x bs hc hx ok hn src dst full room
    simp only [List.mem_cons, Prod.mk.injEq, List.not_mem_nil, or_false] at hc
    rcases hc with ⟨rfl, rfl, rfl⟩ | ⟨rfl, rfl, rfl⟩ | ⟨rfl, rfl, rfl⟩
    · obtain ⟨t, run, queue, ⟨entry, others, regs⟩, mem⟩ := copyIn_burst hx ok rfl rfl hn (fun h => room (.inl ⟨rfl, h⟩))
      exact ⟨t, run, queue, entry, others, regs, fun _ => mem, nofun, nofun⟩
    · obtain ⟨t, run, queue, ⟨entry, others, regs⟩, mem⟩ := copyOut_burst hx ok rfl rfl rfl
      exact ⟨t, run, queue, entry, others, regs, nofun, fun _ => mem, nofun⟩
    · obtain ⟨t, run, queue, ⟨entry, others, regs⟩, mem⟩ := fill_burst hx ok rfl rfl (fun h => room (.inr ⟨rfl, h⟩))
      exact ⟨t, run, queue, entry, others, regs, nofun, nofun, fun _ => mem⟩
  · simp only [List.mem_cons, Prod.mk.injEq, List.not_mem_nil, or_false] at hc
    rcases hc with ⟨rfl, rfl⟩ | ⟨rfl, rfl⟩
    · obtain ⟨-, pattern, full⟩ | ⟨op, -⟩ := full
      · have waits := Dev.copyIn_full hx ok pattern full data
        exact acts_onMem (f := fun _ d => d.copyIn id data) rfl rfl (by rw [waits]) (by rw [waits]; exact ⟨rfl, rfl, fun _ _ _ => rfl⟩)
      · exact nomatch op
    · obtain ⟨op, -⟩ | ⟨-, full⟩ := full
      · exact nomatch op
      · have waits : s.dev.fill id = ([], s.dev) := by simp only [Dev.fill, hx, ok, full, if_true]
        exact acts_onMem (f := fun _ d => d.fill id) rfl rfl (by rw [waits]) (by rw [waits]; exact ⟨rfl, rfl, fun _ _ _ => rfl⟩)

end

section
/-!
SUPPORT and O38. The edge PLLs and the wave PLL (R30, R192, R355, R356): what a stop of sites leaves, the loss of lock, the lock, the restarts.
-/
namespace Sys2Proof.Machine

/-! ### What a list of updates brings about -/

/-- What each update brings about for its own unit and no update undoes holds of every unit of the list. -/
theorem foldl_marks {α β : Type} {P : α → β → Prop} {g : α → β → α} (own : ∀ a b, P (g a b) b) (keep : ∀ a b c, P a c → P (g a b) c)
    (l : List β) (a : α) : ∀ c ∈ l, P (l.foldl g a) c := by
  induction l generalizing a with
  | nil => exact nofun
  | cons b t ih =>
    intro c hc
    rcases List.mem_cons.mp hc with rfl | hc
    · exact List.foldlRecOn t g (motive := fun e => P e c) (own a c) (fun e h k _ => keep e k c h)
    · exact ih (g a b) c hc

theorem Dev.rd_of_haltView {d e : Dev} (h : e.haltView = d.haltView) {f : Fld} (hf : f ∉ haltFields) (i : Nat) : e.rd f i = d.rd f i :=
  keepsFields_of_view h f i hf

theorem Dev.site_congr {d e : Dev} (h : e.sites = d.sites) (n : Nat) : e.site n = d.site n := by rw [Dev.site, h, Dev.site]

theorem Dev.pin_congr {d e : Dev} (h : e.pins = d.pins) (p : Nat) : e.pin p = d.pin p := by rw [Dev.pin, h, Dev.pin]

theorem Dev.pll_congr {d e : Dev} (h : e.plls = d.plls) (q : Nat) : e.pll q = d.pll q := by rw [Dev.pll, h, Dev.pll]

/-! ### The stop of a site (R52, R84, R328) -/

/-- The PLLs and what is raised. -/
def Dev.alarms (d : Dev) : Tab Pll × List Raise := (d.plls, d.raised)

theorem Dev.upWave_alarms (d : Dev) (w : Nat) (f : Wave → Wave) : (d.upWave w f).alarms = d.alarms := rfl

theorem Dev.alarms_iff {d e : Dev} : e.alarms = d.alarms ↔ e.plls = d.plls ∧ e.raised = d.raised := Prod.mk_inj

/-- The block but for the sequencers and the pins, where a halt raises its interrupts and drops vectors. -/
def Dev.unsequenced (d : Dev) : Dev := { d with lanes := [], pins := [], csqs := [] }

/-- Between `d` and `e` nothing but site `n`, its state, the sequencers and the pins may have changed of what PLLs, events and sites show. -/
def Dev.stopsOnly (d e : Dev) (n : Nat) : Prop := e.alarms = d.alarms ∧ ∀ m, m ≠ n → e.siteState m = d.siteState m ∧ e.site m = d.site m

theorem Dev.stopsOnly.trans {d e f : Dev} {n : Nat} (h : d.stopsOnly e n) (k : e.stopsOnly f n) : d.stopsOnly f n := by
  obtain ⟨alarms, others⟩ := h
  obtain ⟨alarms', others'⟩ := k
  exact ⟨alarms'.trans alarms, fun m hm => ⟨(others' m hm).1.trans (others m hm).1, (others' m hm).2.trans (others m hm).2⟩⟩

theorem Dev.stopsOnly_upSite (d : Dev) (n : Nat) (f : Site → Site) : d.stopsOnly (d.upSite n f) n :=
  ⟨rfl, fun m hm => ⟨rfl, (Dev.upSite_site d n m f).trans (if_neg hm)⟩⟩

/-- What two blocks show that differ in sequencers and pins alone. -/
theorem Dev.shown_of_unsequenced {d e : Dev} (h : e.unsequenced = d.unsequenced) : e.alarms = d.alarms ∧ (∀ m, e.siteState m = d.siteState m) ∧
    ∀ m, e.site m = d.site m := by
  have plls := congrArg Dev.plls h
  have raised := congrArg Dev.raised h
  have regs := congrArg Dev.regs h
  have sites := congrArg Dev.sites h
  exact ⟨Dev.alarms_iff.mpr ⟨plls, raised⟩, fun m => Dev.rd_congr regs .SITE_STATUS_STATE m, fun m => Dev.site_congr sites m⟩

theorem Dev.abortCsqs_unsequenced (l : List Nat) (d : Dev) : (l.foldl (fun d p => d.abortCsq p) d).unsequenced = d.unsequenced :=
  have up (d : Dev) (p : Nat) (f : Csq → Csq) : (d.upCsq p f).unsequenced = d.unsequenced := rfl
  foldl_keeps Dev.unsequenced _ l d (fun _ _ _ => (up _ _ _).trans (up _ _ _))

/-- A drain: the state and the cause of its site, and nothing else but sequencers and pins. -/
theorem Dev.drain_unsequenced (d : Dev) (n r st : Nat) (b : Bool) : ∃ t, (d.drain n r st b).unsequenced =
    ((d.wr .SITE_STATUS_STATE n SiteState.DRAINING).upSite n (fun S =>
      { S with cause := some (r, st), causeAt := d.cycle, endAt := some t, csqStop := b, pausePend := false })).unsequenced := by
  have lanes (l : List Nat) (d : Dev) : (l.foldl (fun d l => d.raiseIrq l 0) d).unsequenced = d.unsequenced :=
    foldl_keeps Dev.unsequenced _ l d (fun _ _ _ => rfl)
  have fifos (l : List Nat) (d : Dev) : (l.foldl (fun d p => d.dropFifo p) d).unsequenced = d.unsequenced :=
    foldl_keeps Dev.unsequenced _ l d (fun _ _ _ => rfl)
  unfold Dev.drain
  extract_lets end_ d1 d2 d3
  have stopped : d3.unsequenced = d.unsequenced := by
    have dropped : d2.unsequenced = d.unsequenced := (fifos _ _).trans (lanes _ _)
    unfold d3
    split
    · exact (Dev.abortCsqs_unsequenced _ _).trans dropped
    · exact dropped
  exact ⟨end_, congrArg (fun u : Dev => (u.wr .SITE_STATUS_STATE n SiteState.DRAINING).upSite n (fun S =>
    { S with cause := some (r, st), causeAt := d.cycle, endAt := some end_, csqStop := b, pausePend := false })) stopped⟩

theorem Dev.drain_spec (d : Dev) (n r st : Nat) (b : Bool) : d.stopsOnly (d.drain n r st b) n ∧ (d.drain n r st b).siteState n = SiteState.DRAINING ∧
    ((d.drain n r st b).site n).cause = some (r, st) := by
  obtain ⟨t, drained⟩ := d.drain_unsequenced n r st b
  obtain ⟨alarms, state, site⟩ := Dev.shown_of_unsequenced drained
  refine ⟨⟨alarms, fun m hm => ⟨?_, ?_⟩⟩, ?_, ?_⟩
  · rw [state]
    exact Dev.wr_rd_at d .SITE_STATUS_STATE .SITE_STATUS_STATE n m SiteState.DRAINING hm
  · rw [site, Dev.upSite_site, if_neg hm]
    rfl
  · rw [state]
    exact Dev.wr_rd_same d .SITE_STATUS_STATE n SiteState.DRAINING
  · rw [site, Dev.upSite_site, if_pos rfl]

/-- The stop of a site: that site alone; one that runs drains by its cause. -/
theorem Dev.stopSite_spec (d : Dev) (n r st early : Nat) (b : Bool) : d.stopsOnly (d.stopSite n r st early b) n ∧
    (d.siteState n = SiteState.RUNNING → (d.stopSite n r st early b).siteState n = SiteState.DRAINING ∧
      ((d.stopSite n r st early b).site n).cause = some (r, st)) := by
  unfold Dev.stopSite
  dsimp only
  split
  next before => exact ⟨d.stopsOnly_upSite n _, fun run => by rw [run] at before; exact absurd before (by decide)⟩
  split
  next =>
    obtain ⟨only, state, cause⟩ := d.drain_spec n r st b
    exact ⟨only, fun _ => ⟨state, cause⟩⟩
  next other =>
    refine ⟨?_, fun run => by rw [run] at other; exact absurd rfl other⟩
    split
    · have aborted : d.stopsOnly (if b ∧ !(d.site n).csqStop then
          ((d.members n).foldl (fun d p => d.abortCsq p) d).upSite n (fun S => { S with csqStop := true }) else d) n := by
        split
        · obtain ⟨alarms, state, site⟩ := Dev.shown_of_unsequenced (Dev.abortCsqs_unsequenced (d.members n) d)
          exact Dev.stopsOnly.trans ⟨alarms, fun m _ => ⟨state m, site m⟩⟩ (Dev.stopsOnly_upSite _ n _)
        · exact ⟨rfl, fun _ _ => ⟨rfl, rfl⟩⟩
      split
      · split
        · exact aborted.trans (Dev.stopsOnly_upSite _ n _)
        · exact aborted
      · exact aborted
    · exact ⟨rfl, fun _ _ => ⟨rfl, rfl⟩⟩

/-- A list of sites is aborted: every site of it that runs drains, no other site changes. -/
theorem Dev.abortSites_spec (r : Nat) (b : Bool) (l : List Nat) (hl : l.Nodup) (d : Dev) : let e := l.foldl (fun d n => d.abortSite n r b) d
    e.alarms = d.alarms ∧ (∀ m, m ∉ l → e.siteState m = d.siteState m ∧ e.site m = d.site m) ∧
      ∀ m ∈ l, d.siteState m = SiteState.RUNNING → e.siteState m = SiteState.DRAINING ∧ (e.site m).cause = some (r, Status.ABORTED_PARTIAL) := by
  induction l generalizing d with
  | nil => exact ⟨rfl, fun _ _ => ⟨rfl, rfl⟩, nofun⟩
  | cons n t ih =>
    obtain ⟨fresh, ht⟩ := List.nodup_cons.mp hl
    obtain ⟨⟨alarms, others⟩, drains⟩ := d.stopSite_spec n r Status.ABORTED_PARTIAL Status.WITHDRAWN b
    obtain ⟨alarms', others', drains'⟩ := ih ht (d.abortSite n r b)
    refine ⟨alarms'.trans alarms, fun m hm => ?_, fun m hm run => ?_⟩
    · obtain ⟨hn, hm⟩ := not_or.mp (mt List.mem_cons.mpr hm)
      exact ⟨(others' m hm).1.trans (others m hn).1, (others' m hm).2.trans (others m hn).2⟩
    · by_cases h : m = n
      · subst h
        obtain ⟨state, cause⟩ := drains run
        exact ⟨(others' m fresh).1.trans state, (congrArg Site.cause (others' m fresh).2).trans cause⟩
      · exact drains' m ((List.mem_cons.mp hm).resolve_left h) ((others m h).1.trans run)

theorem Dev.abortSite_alarms (d : Dev) (n r : Nat) (b : Bool) : (d.abortSite n r b).alarms = d.alarms := by
  obtain ⟨⟨alarms, -⟩, -⟩ := d.stopSite_spec n r Status.ABORTED_PARTIAL Status.WITHDRAWN b
  exact alarms

/-! ### Timing jobs -/

/-- The block but for the time measurement unit and the count of open values. -/
def Dev.untimed (d : Dev) : Dev := { d with tmu := {}, free := 0 }

theorem Dev.shown_of_untimed {d e : Dev} (h : e.untimed = d.untimed) :
    e.regs = d.regs ∧ e.sites = d.sites ∧ e.pins = d.pins ∧ e.alarms = d.alarms := by
  have regs := congrArg Dev.regs h
  have sites := congrArg Dev.sites h
  have pins := congrArg Dev.pins h
  have plls := congrArg Dev.plls h
  have raised := congrArg Dev.raised h
  exact ⟨regs, sites, pins, Dev.alarms_iff.mpr ⟨plls, raised⟩⟩

theorem Dev.jobsPllLost_untimed (d : Dev) (q : Nat) : (d.jobsPllLost q).untimed = d.untimed := by
  refine foldl_keeps Dev.untimed _ _ d (fun d j _ => ?_)
  unfold Dev.stopJob
  split
  · rw [if_pos (.inr (by decide))]
    rfl
  · rfl

theorem Dev.jobsPllReady_untimed (d : Dev) : d.jobsPllReady.untimed = d.untimed := by
  refine foldl_keeps Dev.untimed _ _ d (fun d j _ => ?_)
  dsimp only
  split
  · split <;> rfl
  · rfl

/-! ### The loss of lock (R192) -/

theorem mem_quadPins {q p : Nat} : p ∈ quadPins q ↔ p / 64 = q := by
  simp only [quadPins, List.mem_map, List.mem_range]
  exact ⟨fun ⟨k, hk, e⟩ => by omega, fun h => ⟨p % 64, Nat.mod_lt _ (by decide), by omega⟩⟩

/-- Pin `p` loses its PLL: DE deasserted and held so, the loss noted. -/
def Dev.pinLost (d : Dev) (p : Nat) : Dev := ((d.set1 .PIN_TF_STATUS_PLL_LOSS p).deOff p).upPin p (fun P => { P with pllLost := true })

theorem Dev.pinLost_rd (d : Dev) (p : Nat) (g : Fld) (j : Nat) : (d.pinLost p).rd g j = if g = .PIN_TF_STATUS_PLL_LOSS ∧ j = p then 1 else d.rd g j :=
  Dev.set1_rd d .PIN_TF_STATUS_PLL_LOSS g p j

theorem Dev.pinLost_pin (d : Dev) (p k : Nat) : (k = p → ((d.pinLost p).pin k).de = false ∧ ((d.pinLost p).pin k).pllLost = true) ∧
    (k ≠ p → (d.pinLost p).pin k = d.pin k) := by
  unfold Dev.pinLost Dev.deOff
  refine ⟨fun h => ?_, fun h => ?_⟩
  · simp [h]
  · simp [h]

/-- What the loss of the pins `l` leaves: those pins, and everything but pins. -/
theorem Dev.pinsLost_spec (l : List Nat) (d : Dev) : let e := l.foldl Dev.pinLost d
    (∀ p ∈ l, (e.pin p).de = false ∧ (e.pin p).pllLost = true ∧ e.on .PIN_TF_STATUS_PLL_LOSS p = true) ∧ e.sites = d.sites ∧ e.raised = d.raised ∧
      ∀ g j, g ≠ .PIN_TF_STATUS_PLL_LOSS → e.rd g j = d.rd g j := by
  refine ⟨foldl_marks (P := fun (e : Dev) p => (e.pin p).de = false ∧ (e.pin p).pllLost = true ∧ e.on .PIN_TF_STATUS_PLL_LOSS p = true)
      (fun d p => ?_) (fun d k p h => ?_) l d, foldl_keeps Dev.sites _ l d (fun _ _ _ => rfl), foldl_keeps Dev.raised _ l d (fun _ _ _ => rfl),
    fun g j hg => foldl_keeps (fun e => e.rd g j) _ l d (fun d p _ => by rw [Dev.pinLost_rd, if_neg (fun h => hg h.1)])⟩
  · obtain ⟨de, lost⟩ := (d.pinLost_pin p p).1 rfl
    exact ⟨de, lost, by rw [Dev.on, Dev.pinLost_rd, if_pos ⟨rfl, rfl⟩]; rfl⟩
  · obtain ⟨own, other⟩ := d.pinLost_pin k p
    obtain ⟨de, lost, noted⟩ := h
    by_cases hp : p = k
    · obtain ⟨de, lost⟩ := own hp
      exact ⟨de, lost, by rw [Dev.on, Dev.pinLost_rd, if_pos ⟨rfl, hp⟩]; rfl⟩
    · rw [other hp]
      exact ⟨de, lost, by rw [Dev.on, Dev.pinLost_rd, if_neg (fun h => hp h.2)]; exact noted⟩

/-- The running sites with a member in quadrant `q`. -/
def Dev.quadSites (d : Dev) (q : Nat) : List Nat := (List.range 64).filter (fun n => d.siteRunning n && (d.quads n).contains q)

theorem Dev.mem_quadSites {d : Dev} {q n : Nat} (hn : n < 64) (run : d.siteState n = SiteState.RUNNING) :
    n ∈ d.quadSites q ↔ (d.quads n).contains q = true := by
  have running : d.siteRunning n = true := by rw [Dev.siteRunning, run]; rfl
  rw [Dev.quadSites, List.mem_filter, List.mem_range, running, Bool.true_and]
  exact and_iff_right hn

/-- The quadrant is no longer ready. -/
def Dev.quadUnready (d : Dev) (q : Nat) : Dev := d.wr .BR_STATUS_QPLL_READY 0 (setBit (d.rd .BR_STATUS_QPLL_READY 0) q false)

/-- The running sites of quadrant `q` halt and its pins lose their PLL. -/
def Dev.quadHalted (d : Dev) (q : Nat) (hit : List Nat) : Dev :=
  (quadPins q).foldl Dev.pinLost (hit.foldl (fun d n => d.abortSite n 3 true) (d.raise 0x208 q))

theorem Dev.edgePllLost_ready {d : Dev} {q : Nat} (ready : bitAt (d.rd .BR_STATUS_QPLL_READY 0) q = true) :
    d.edgePllLost q = (if d.quadSites q = [] then d.quadUnready q else (d.quadUnready q).quadHalted q (d.quadSites q)).jobsPllLost q := by
  unfold Dev.edgePllLost
  rw [if_neg (by simp [ready])]
  rfl

theorem Dev.quadUnready_rd (d : Dev) (q k : Nat) (hk : k < 4) :
    bitAt ((d.quadUnready q).rd .BR_STATUS_QPLL_READY 0) k = if k = q then false else bitAt (d.rd .BR_STATUS_QPLL_READY 0) k := by
  rw [Dev.quadUnready, Dev.wr_rd_same]
  exact (bitAt_mod _ 4 k hk).trans (bitAt_setBit _ _ _ _)

theorem Dev.quadHalted_spec (d : Dev) (q : Nat) (hit : List Nat) (nodup : hit.Nodup) : let e := d.quadHalted q hit
    ⟨0x208, q, 0, d.cycle⟩ ∈ e.raised ∧ e.rd .BR_STATUS_QPLL_READY 0 = d.rd .BR_STATUS_QPLL_READY 0 ∧
      (∀ p, p / 64 = q → (e.pin p).de = false ∧ (e.pin p).pllLost = true ∧ e.on .PIN_TF_STATUS_PLL_LOSS p = true) ∧
      (∀ n, n ∉ hit → e.siteState n = d.siteState n) ∧
      ∀ n ∈ hit, d.siteState n = SiteState.RUNNING → e.siteState n = SiteState.DRAINING ∧ (e.site n).cause = some (3, Status.ABORTED_PARTIAL) := by
  have view : (hit.foldl (fun d n => d.abortSite n 3 true) (d.raise 0x208 q)).haltView = (d.raise 0x208 q).haltView :=
    Dev.foldl_haltView _ _ _ (fun d n => d.abortSite_haltView n 3 true)
  obtain ⟨alarms, others, drains⟩ := Dev.abortSites_spec 3 true hit nodup (d.raise 0x208 q)
  obtain ⟨-, raised1⟩ := Dev.alarms_iff.mp alarms
  unfold Dev.quadHalted
  generalize hit.foldl (fun d n => d.abortSite n 3 true) (d.raise 0x208 q) = m at view others drains raised1
  obtain ⟨lost, sites, raised, rd⟩ := Dev.pinsLost_spec (quadPins q) m
  refine ⟨?_, ?_, fun p hp => lost p (mem_quadPins.mpr hp), fun n hn => ?_, fun n hn run => ?_⟩
  · rw [raised, raised1]
    exact List.mem_append_right _ (List.mem_singleton_self _)
  · exact (rd _ _ (by decide)).trans (Dev.rd_of_haltView view (by decide) 0)
  · exact (rd _ _ (by decide)).trans (others n hn).1
  · obtain ⟨state, cause⟩ := drains n hn run
    refine ⟨(rd _ _ (by decide)).trans state, ?_⟩
    rw [Dev.site_congr sites]
    exact cause

theorem edgePllLockLoss_acts (s : State) (q : Nat) (hq : q < 4) (ready : bitAt (s.dev.rd .BR_STATUS_QPLL_READY 0) q = true) :
    Acts (.edgePllLockLoss q) s (fun e => bitAt (e.rd .BR_STATUS_QPLL_READY 0) q = false ∧
      (∀ k, k < 4 → k ≠ q → bitAt (e.rd .BR_STATUS_QPLL_READY 0) k = bitAt (s.dev.rd .BR_STATUS_QPLL_READY 0) k) ∧
      (∀ n, n < 64 → s.dev.siteState n = SiteState.RUNNING → (s.dev.quads n).contains q = true →
        e.siteState n = SiteState.DRAINING ∧ (e.site n).cause = some (3, Status.ABORTED_PARTIAL) ∧ ⟨0x208, q, 0, s.dev.cycle⟩ ∈ e.raised ∧
        (∀ p, p < 256 → p / 64 = q → (e.pin p).de = false ∧ (e.pin p).pllLost = true ∧ e.on .PIN_TF_STATUS_PLL_LOSS p = true)) ∧
      (∀ n, n < 64 → (s.dev.quads n).contains q = false → e.siteState n = s.dev.siteState n)) := by
  refine acts_onDev rfl (decide_eq_true hq) ?_
  rw [Dev.edgePllLost_ready ready]
  generalize he : (if s.dev.quadSites q = [] then _ else _ : Dev) = e
  obtain ⟨eregs, esites, epins, ealarms⟩ := Dev.shown_of_untimed (e.jobsPllLost_untimed q)
  obtain ⟨-, eraised⟩ := Dev.alarms_iff.mp ealarms
  obtain ⟨event, bits_, pins, others, drains⟩ := (s.dev.quadUnready q).quadHalted_spec q (s.dev.quadSites q) (List.nodup_range.filter _)
  have state (n : Nat) : (s.dev.quadUnready q).siteState n = s.dev.siteState n := Dev.wr_rd_ne _ _ _ _ _ _ (by decide)
  have ready' : e.rd .BR_STATUS_QPLL_READY 0 = (s.dev.quadUnready q).rd .BR_STATUS_QPLL_READY 0 := by
    rw [← he]
    split
    · rfl
    · exact bits_
  simp only [Dev.siteState, Dev.on, Dev.rd_congr eregs, Dev.pin_congr epins, Dev.site_congr esites, eraised, ready']
  refine ⟨by rw [Dev.quadUnready_rd _ _ _ hq, if_pos rfl], fun k hk hne => by rw [Dev.quadUnready_rd _ _ _ hk, if_neg hne], fun n hn run hit => ?_,
    fun n hn away => ?_⟩
  · have mem := (Dev.mem_quadSites hn run).mpr hit
    rw [if_neg (List.ne_nil_of_mem mem)] at he
    subst he
    obtain ⟨drained, cause⟩ := drains n mem ((state n).trans run)
    exact ⟨drained, cause, event, fun p _ hp => pins p hp⟩
  · have fresh : n ∉ s.dev.quadSites q := fun h => by
      have := (List.mem_filter.mp h).2
      rw [away, Bool.and_false] at this
      exact Bool.false_ne_true this
    rw [← he]
    split
    · exact state n
    · exact (others n fresh).trans (state n)

/-! ### The lock (R30, R355, R517) -/

/-- The PLLs, and which pins have lost theirs. -/
def Dev.pllView (d : Dev) : Tab Pll × (Nat → Bool) := (d.plls, fun k => (d.pin k).pllLost)

theorem Dev.upPin_pllView (d : Dev) (p : Nat) (f : Pin → Pin) (hf : (f (d.pin p)).pllLost = (d.pin p).pllLost) : (d.upPin p f).pllView = d.pllView := by
  refine Prod.ext rfl (funext fun k => ?_)
  show ((d.upPin p f).pin k).pllLost = (d.pin k).pllLost
  rw [Dev.upPin_pin]
  split
  · subst_vars; exact hf
  · rfl

theorem Pin.settle1_pllLost (P : Pin) (x : Trans) (rest : List Trans) (dead : Bool) : (P.settle1 x rest dead).1.pllLost = P.pllLost := by
  unfold Pin.settle1
  dsimp only
  (repeat' split) <;> rfl

theorem settleTo_pllLost (hz : Int) (dead : Bool) (l : List Trans) (P : Pin) : (settleTo hz dead l P).1.pllLost = P.pllLost := by
  induction l generalizing P with
  | nil => rfl
  | cons x rest ih =>
    unfold settleTo
    split
    · exact (ih _).trans (P.settle1_pllLost x rest dead)
    · rfl

theorem Dev.spacing_pllView (d : Dev) (p n : Nat) : (d.spacing p n).pllView = d.pllView := by
  unfold Dev.spacing
  dsimp only
  split
  · rfl
  · split
    · rfl
    · exact Dev.upPin_pllView ((d.count .PIN_TF_STATUS_SPACING_COUNT p n).set1 .PIN_TF_STATUS_SPACING p) p
        (fun P => { P with once := setBit P.once 1 true }) rfl

theorem Dev.askIdle_pllView (d : Dev) (p : Nat) (t : Int) : (d.askIdle p t).pllView = d.pllView := by
  unfold Dev.askIdle
  dsimp only
  split
  · rfl
  · refine Dev.upPin_pllView d p _ ?_
    (repeat' split) <;> rfl

/-- A pin that drives its idle code leaves the PLLs and every pin's note of its own. -/
theorem Dev.driveIdle_pllView (d : Dev) (p : Nat) : (d.driveIdle p).pllView = d.pllView :=
  calc ((d.askIdle p (d.bed + cycleTicks)).settle p (d.bed + cycleTicks + 1)).pllView
    _ = (d.askIdle p (d.bed + cycleTicks)).pllView :=
        (Dev.spacing_pllView _ _ _).trans (Dev.upPin_pllView _ _ _ (settleTo_pllLost _ _ _ _))
    _ = d.pllView := d.askIdle_pllView p _

theorem Dev.wakeNote_pllView (d : Dev) : d.wakeNote.pllView = d.pllView :=
  foldl_keeps Dev.pllView _ _ d (fun d n _ => by dsimp only; split <;> rfl)

/-- The quadrant's pins have their PLL again, and those without a burst drive their idle codes. -/
def Dev.quadReady (d : Dev) (q : Nat) : Dev :=
  (quadPins q).foldl (fun d p => if d.carries p then d else d.driveIdle p)
    ((quadPins q).foldl (fun d p => d.upPin p (fun P => { P with pllLost := false }))
      (d.wr .BR_STATUS_QPLL_READY 0 (setBit (d.rd .BR_STATUS_QPLL_READY 0) q true)))

theorem Dev.quadReady_spec (d : Dev) (q : Nat) (hq : q < 4) : let e := d.quadReady q
    e.plls = d.plls ∧ bitAt (e.rd .BR_STATUS_QPLL_READY 0) q = true ∧ ∀ p, p / 64 = q → (e.pin p).pllLost = false := by
  unfold Dev.quadReady
  generalize hw : d.wr .BR_STATUS_QPLL_READY 0 (setBit (d.rd .BR_STATUS_QPLL_READY 0) q true) = w
  have plls : w.plls = d.plls := by rw [← hw]; rfl
  have ready : bitAt (w.rd .BR_STATUS_QPLL_READY 0) q = true := by
    rw [← hw, Dev.wr_rd_same]
    exact (bitAt_mod _ 4 q hq).trans ((bitAt_setBit _ _ _ _).trans (if_pos rfl))
  have found := foldl_marks (P := fun (e : Dev) p => (e.pin p).pllLost = false) (g := fun d p => d.upPin p (fun P => { P with pllLost := false }))
    (fun d p => by rw [Dev.upPin_pin, if_pos rfl]) (fun d p k h => by rw [Dev.upPin_pin]; split <;> [rfl; exact h]) (quadPins q) w
  have plls1 := foldl_keeps Dev.plls (fun d p => d.upPin p (fun P => { P with pllLost := false })) (quadPins q) w (fun _ _ _ => rfl)
  have view1 := Dev.foldl_haltView (fun d p => d.upPin p (fun P => { P with pllLost := false })) (quadPins q) w (fun _ _ => rfl)
  generalize (quadPins q).foldl (fun d p => d.upPin p (fun P => { P with pllLost := false })) w = e at found plls1 view1
  have kept := foldl_keeps Dev.pllView (fun (d : Dev) p => if d.carries p then d else d.driveIdle p) (quadPins q) e
    (fun d p _ => by split <;> [rfl; exact d.driveIdle_pllView p])
  have view2 := Dev.foldl_haltView (fun (d : Dev) p => if d.carries p then d else d.driveIdle p) (quadPins q) e
    (fun d p => by split <;> [rfl; exact d.driveIdle_haltView p])
  refine ⟨(congrArg Prod.fst kept).trans (plls1.trans plls), ?_, fun p hp => ?_⟩
  · rw [Dev.rd_of_haltView (view2.trans view1) (by decide)]
    exact ready
  · exact (congrFun (congrArg Prod.snd kept) p).trans (found p (mem_quadPins.mpr hp))

theorem Dev.wvWake_kept (d : Dev) (w : Nat) : (d.wvWake w).plls = d.plls ∧ (d.wvWake w).haltView = d.haltView := by
  unfold Dev.wvWake
  split
  · exact ⟨rfl, Dev.wr_haltView d .WV_STATUS_STATE w WvState.IDLE (by decide)⟩
  · exact ⟨rfl, rfl⟩

/-- The wave PLL is ready, and the channels that may wake. -/
def Dev.waveReady (d : Dev) : Dev := (List.range 8).foldl (fun d w => d.wvWake w) (d.noHistory.set1 .BR_STATUS_WAVE_READY 0)

theorem Dev.waveReady_spec (d : Dev) : d.waveReady.plls = d.plls ∧ d.waveReady.on .BR_STATUS_WAVE_READY 0 = true := by
  have history : d.noHistory.plls = d.plls := by
    unfold Dev.noHistory
    generalize List.range 8 = l
    exact foldl_keeps Dev.plls _ _ d (fun _ _ _ => rfl)
  generalize hs : d.noHistory.set1 .BR_STATUS_WAVE_READY 0 = m
  have plls0 : m.plls = d.plls := by rw [← hs, ← history]; simp only [Dev.set1_frame]
  have set0 : m.rd .BR_STATUS_WAVE_READY 0 = 1 := by rw [← hs, Dev.set1_rd, if_pos ⟨rfl, rfl⟩]; rfl
  have plls := foldl_keeps Dev.plls (fun d w => d.wvWake w) (List.range 8) m (fun d w _ => (d.wvWake_kept w).1)
  have view := Dev.foldl_haltView (fun d w => d.wvWake w) (List.range 8) m (fun d w => (d.wvWake_kept w).2)
  unfold Dev.waveReady
  rw [hs]
  exact ⟨plls.trans plls0, by rw [Dev.on, Dev.rd_of_haltView view (by decide), set0]; rfl⟩

theorem pllReady_acts (s : State) (q : Nat) (hq : q < 5) (starting : (s.dev.pll q).starting = true) :
    Acts (.pllReady q) s (fun e => (e.pll q).starting = false ∧
      (q < 4 → bitAt (e.rd .BR_STATUS_QPLL_READY 0) q = true ∧ ∀ p, p < 256 → p / 64 = q → (e.pin p).pllLost = false) ∧
      (q = 4 → e.on .BR_STATUS_WAVE_READY 0 = true)) := by
  refine acts_onDev rfl (decide_eq_true hq) ?_
  generalize hd : s.dev.upPll q (fun P => { P with starting := false, tries := 0, idleSince := s.dev.now }) = d
  have stopped : (d.pll q).starting = false := by rw [← hd, Dev.upPll_pll, if_pos rfl]
  have pll {e : Dev} (h : e.plls = d.plls) : (e.pll q).starting = false := by rw [Dev.pll_congr h, stopped]
  by_cases h4 : q < 4
  · have way : s.dev.pllReady q = (d.quadReady q).wakeNote.jobsPllReady := by
      rw [Dev.pllReady, if_neg (by simp [starting]), hd]
      exact if_pos h4
    rw [way]
    obtain ⟨plls, ready, found⟩ := d.quadReady_spec q h4
    generalize d.quadReady q = e at plls ready found
    obtain ⟨eregs, -, epins, ealarms⟩ := Dev.shown_of_untimed e.wakeNote.jobsPllReady_untimed
    obtain ⟨eplls, -⟩ := Dev.alarms_iff.mp ealarms
    obtain ⟨wregs, -⟩ := e.wakeNote_units
    obtain ⟨wplls, wlost⟩ := Prod.mk_inj.mp e.wakeNote_pllView
    have lost (p : Nat) : (e.wakeNote.jobsPllReady.pin p).pllLost = (e.pin p).pllLost := (congrArg Pin.pllLost (Dev.pin_congr epins p)).trans (congrFun wlost p)
    exact ⟨pll (eplls.trans (wplls.trans plls)),
      fun _ => ⟨by rw [Dev.rd_congr (eregs.trans wregs)]; exact ready, fun p _ hp => (lost p).trans (found p hp)⟩,
      fun h => absurd h (by omega)⟩
  · have way : s.dev.pllReady q = d.waveReady := by
      rw [Dev.pllReady, if_neg (by simp [starting]), hd]
      exact if_neg h4
    rw [way]
    obtain ⟨plls, ready⟩ := d.waveReady_spec
    exact ⟨pll plls, fun h => absurd h h4, fun _ => ready⟩

/-! ### Restarts and failure (R356) -/

theorem Dev.octetDown_spec (d : Dev) (k : Nat) : (d.octetDown k).alarms = d.alarms ∧
    (d.octetDown k).haltView = (d.wr .DEV_UNITS_OCT_OK 0 (setBit (d.rd .DEV_UNITS_OCT_OK 0) k false)).haltView := by
  unfold Dev.octetDown
  dsimp only
  constructor
  · exact (foldl_keeps Dev.alarms (fun d p => d.deOff p) _ _ (fun _ _ _ => rfl)).trans
      (foldl_keeps Dev.alarms _ _ _ (fun d n _ => d.abortSite_alarms n 3 true))
  · rw [Dev.foldl_haltView _ _ _ (fun d p => d.deOff_haltView p), Dev.foldl_haltView _ _ _ (fun d n => d.abortSite_haltView n 3 true)]

theorem Dev.octetDown_ok (d : Dev) (k j : Nat) (hj : j < 32) :
    bitAt ((d.octetDown k).rd .DEV_UNITS_OCT_OK 0) j = if j = k then false else bitAt (d.rd .DEV_UNITS_OCT_OK 0) j := by
  rw [Dev.rd_of_haltView (d.octetDown_spec k).2 (by decide), Dev.wr_rd_same]
  exact (bitAt_mod _ 32 j hj).trans (bitAt_setBit _ _ _ _)

/-- A list of octets out of service: those octets; the PLLs' own bits, PLLs and events stay. -/
theorem Dev.octetsDown_spec (l : List Nat) (d : Dev) : let e := l.foldl (fun d k => d.octetDown k) d
    e.alarms = d.alarms ∧ e.rd .DEV_UNITS_QPLL_OK 0 = d.rd .DEV_UNITS_QPLL_OK 0 ∧ ∀ k ∈ l, k < 32 → bitAt (e.rd .DEV_UNITS_OCT_OK 0) k = false := by
  refine ⟨foldl_keeps Dev.alarms _ l d (fun d k _ => (d.octetDown_spec k).1),
    foldl_keeps (fun e => e.rd .DEV_UNITS_QPLL_OK 0) _ l d (fun d k _ => ?_),
    foldl_marks (P := fun (e : Dev) k => k < 32 → bitAt (e.rd .DEV_UNITS_OCT_OK 0) k = false) (fun d k hk => ?_) (fun d k j h hj => ?_) l d⟩
  · rw [Dev.rd_of_haltView (d.octetDown_spec k).2 (by decide), Dev.wr_rd_ne _ _ _ _ _ _ (by decide)]
  · rw [Dev.octetDown_ok _ _ _ hk, if_pos rfl]
  · rw [Dev.octetDown_ok _ _ _ hj, h hj, ite_self]

theorem Dev.alarms_of_quiet {d e : Dev} (h : e.quiet = d.quiet) : e.alarms = d.alarms := by
  have unsent := congrArg Prod.snd h
  have plls := congrArg Dev.plls unsent
  have raised := congrArg Dev.raised unsent
  exact Dev.alarms_iff.mpr ⟨plls, raised⟩

theorem Dev.wvMark_alarms (d : Dev) (w : Nat) (b : Bool) (P : Nat) : (d.wvMark w b P).alarms = d.alarms := by
  unfold Dev.wvMark
  dsimp only
  split
  · rfl
  · generalize List.range 64 = l
    refine (foldl_keeps Dev.alarms _ _ _ (fun d n _ => Dev.alarms_of_quiet (d.postCond_quiet n _ b P))).trans ?_
    exact Dev.alarms_of_quiet (Dev.signal_quiet _ .wmark P w 0 b).1

theorem Dev.wvClear_alarms (d : Dev) (w st : Nat) : (d.wvClear w st).alarms = d.alarms := by
  unfold Dev.wvClear
  dsimp only
  split <;> rfl

theorem Dev.finishes_alarms (l : List Nat) (st r : Nat) (d : Dev) : (l.foldl (fun d e => d.finish e st r) d).alarms = d.alarms :=
  foldl_keeps Dev.alarms _ l d (fun _ _ _ => rfl)

theorem Dev.wvEnd_alarms (d : Dev) (w c st v P : Nat) (mid : Bool) : (d.wvEnd w c st v P mid).alarms = d.alarms := by
  unfold Dev.wvEnd
  extract_lets W d1 d2 park
  have ended : d2.alarms = d.alarms := (Dev.finishes_alarms _ _ _ d1).trans (by unfold d1; split <;> rfl)
  exact (Dev.upWave_alarms _ w _).trans ((Dev.wvClear_alarms _ w v).trans ((Dev.wvMark_alarms d2 w false P).trans ended))

theorem Dev.wvWithdraw_alarms (d : Dev) (w c st : Nat) : (d.wvWithdraw w c st).alarms = d.alarms := by
  unfold Dev.wvWithdraw
  extract_lets W d1
  have ended : d1.alarms = d.alarms := by unfold d1; split <;> rfl
  exact (Dev.wvClear_alarms _ w _).trans ((Dev.finishes_alarms _ _ _ d1).trans ended)

theorem Dev.wvAllOff_alarms (d : Dev) (c st : Nat) : (d.wvAllOff c st).alarms = d.alarms := by
  unfold Dev.wvAllOff
  generalize List.range 8 = l
  refine foldl_keeps Dev.alarms _ l d (fun d w _ => (Dev.upWave_alarms _ w _).trans ((Dev.wvClear_alarms _ w WvState.OFF).trans ?_))
  split
  · exact Dev.wvEnd_alarms ..
  · split
    · exact Dev.wvWithdraw_alarms ..
    · rfl

/-- A PLL out of service: its source is raised, and its bit and its octets, or the wave channels, are gone. -/
theorem Dev.pllDown_spec (d : Dev) (q : Nat) (hq : q < 5) : let e := d.pllDown q
    e.alarms = (d.raise 0x083 q).alarms ∧
      (q < 4 → bitAt (e.rd .DEV_UNITS_QPLL_OK 0) q = false ∧ ∀ k, k < 8 → bitAt (e.rd .DEV_UNITS_OCT_OK 0) (8 * q + k) = false) ∧
      (q = 4 → e.rd .DEV_UNITS_WAVE_OK 0 = 0) := by
  unfold Dev.pllDown
  split
  next quad =>
    obtain ⟨alarms, ok, octets⟩ := Dev.octetsDown_spec ((List.range 8).map (· + 8 * q))
      ((d.raise 0x083 q).wr .DEV_UNITS_QPLL_OK 0 (setBit (d.rd .DEV_UNITS_QPLL_OK 0) q false))
    refine ⟨alarms, fun _ => ⟨?_, fun k hk => octets _ (List.mem_map.mpr ⟨k, List.mem_range.mpr hk, by omega⟩) (by omega)⟩,
      fun h => absurd quad (by omega)⟩
    rw [ok, Dev.wr_rd_same]
    exact (bitAt_mod _ 4 q quad).trans ((bitAt_setBit _ _ _ _).trans (if_pos rfl))
  next wave =>
    refine ⟨Dev.wvAllOff_alarms _ _ _, fun h => absurd h wave, fun _ => ?_⟩
    exact (Dev.rd_of_haltView (Dev.wvAllOff_haltView _ 4 Status.UNIT_DOWN) (by decide) 0).trans (Dev.wr_rd_same _ _ _ _)

theorem pllRestartTimeout_acts (s : State) (q : Nat) (hq : q < 5) (starting : (s.dev.pll q).starting = true)
    (due : (s.dev.pll q).at_ + us 80 ≤ s.dev.now) :
    Acts (.pllRestartTimeout q) s (fun e =>
      ((s.dev.pll q).tries < 2 →
        (e.pll q).starting = true ∧ (e.pll q).tries = (s.dev.pll q).tries + 1 ∧ (e.pll q).at_ = s.dev.now ∧ s.dev.keepsBut e []) ∧
      (2 ≤ (s.dev.pll q).tries → (e.pll q).starting = false ∧ ⟨0x083, q, 0, s.dev.cycle⟩ ∈ e.raised ∧
        (q < 4 → bitAt (e.rd .DEV_UNITS_QPLL_OK 0) q = false ∧ ∀ k, k < 8 → bitAt (e.rd .DEV_UNITS_OCT_OK 0) (8 * q + k) = false) ∧
        (q = 4 → e.rd .DEV_UNITS_WAVE_OK 0 = 0))) := by
  have waited : ¬(!(s.dev.pll q).starting ∨ s.dev.now < (s.dev.pll q).at_ + us 80) := by
    rw [starting]
    exact not_or.mpr ⟨Bool.false_ne_true, Nat.not_lt.mpr due⟩
  refine acts_onDev rfl (decide_eq_true hq) ?_
  simp only [Dev.pllTimeout, if_neg waited]
  split
  next again =>
    refine ⟨fun _ => ?_, fun last => absurd again (by omega)⟩
    rw [Dev.upPll_pll, if_pos rfl]
    exact ⟨starting, rfl, rfl, fun _ _ _ => rfl⟩
  next last =>
    refine ⟨fun again => absurd again (by omega), fun _ => ?_⟩
    obtain ⟨alarms, quad, wave⟩ := (s.dev.upPll q (fun P => { P with starting := false, tries := 0 })).pllDown_spec q hq
    obtain ⟨plls, raised⟩ := Dev.alarms_iff.mp alarms
    refine ⟨?_, ?_, quad, wave⟩
    · have stopped : ((s.dev.upPll q (fun P => { P with starting := false, tries := 0 })).pll q).starting = false := by rw [Dev.upPll_pll, if_pos rfl]
      rw [Dev.pll_congr plls]
      exact stopped
    · rw [raised]
      exact List.mem_append_right _ (List.mem_singleton_self _)

end Sys2Proof.Machine
end

section
open Sys2Proof Sys2Proof.Machine

/-- Settles O38: the loss of lock, the lock and the timeout, each by what its updates leave. -/
theorem pllLossRestartAndFailure : Obligations.PllLossRestartAndFailure :=
  ⟨edgePllLockLoss_acts, pllReady_acts, pllRestartTimeout_acts⟩

end

section
/-!
SUPPORT. What the sequence words share (R103, R104, R110, R112): memory requests, the window that follows the current word, the completion of a word.
-/
namespace Sys2Proof.Machine

/-! ### Memory requests -/

/-- The block but for the requests that wait at the Memory Controller. -/
def Dev.unasked (d : Dev) : Dev := { d with mc := {}, pcs := [] }

theorem Dev.hbm_unasked (d : Dev) (w : Bool) (who : Requester) (a n : Nat) : (d.hbm w who a n).unasked = d.unasked := by
  unfold Dev.hbm
  split
  · rfl
  · exact foldl_keeps Dev.unasked _ _ d (fun _ _ _ => rfl)

/-- The block but for the sequencers and the requests of their words. -/
def Dev.unlaned (d : Dev) : Dev := { d with lanes := [], mc := {}, pcs := [] }

theorem Dev.unlaned_of_unasked {d e : Dev} (h : e.unasked = d.unasked) : e.unlaned = d.unlaned :=
  congrArg (fun u : Dev => { u with lanes := [] }) h

theorem Dev.lane_congr {d e : Dev} (h : e.lanes = d.lanes) (l : Nat) : e.lane l = d.lane l := by rw [Dev.lane, h, Dev.lane]

theorem Dev.regs_of_unlaned {d e : Dev} (h : e.unlaned = d.unlaned) (f : Fld) (i : Nat) : e.rd f i = d.rd f i :=
  Dev.rd_congr (congrArg Dev.regs h) f i

/-! ### A lane, its window apart (R103) -/

/-- Between `d` and `e` nothing but lane `l` and requests may have changed, and the lane is `L` but for its window: its pages and the words delivered. -/
structure Dev.LaneIs (l : Nat) (L : Lane) (d e : Dev) : Prop where
  view : e.unlaned = d.unlaned
  others : ∀ k, k ≠ l → e.lane k = d.lane k
  lane : ∃ ps ws, e.lane l = { L with pages := ps, words := ws }

theorem Dev.upLane_laneIs (d : Dev) (l : Nat) (f : Lane → Lane) : Dev.LaneIs l (f (d.lane l)) d (d.upLane l f) :=
  ⟨rfl, fun _ hk => (Dev.upLane_lane ..).trans (if_neg hk), _, _, (Dev.upLane_lane ..).trans (if_pos rfl)⟩

theorem Dev.LaneIs.refl (d : Dev) (l : Nat) : Dev.LaneIs l (d.lane l) d d := ⟨rfl, fun _ _ => rfl, _, _, rfl⟩

theorem Dev.LaneIs.trans {d e f : Dev} {l : Nat} {L : Lane} (h : Dev.LaneIs l L d e) (k : Dev.LaneIs l (e.lane l) e f) : Dev.LaneIs l L d f := by
  obtain ⟨view, others, _, _, own⟩ := h
  obtain ⟨view', others', ps, ws, own'⟩ := k
  exact ⟨view'.trans view, fun m hm => (others' m hm).trans (others m hm), ps, ws, by rw [own', own]⟩

theorem Dev.LaneIs.window {d e : Dev} {l : Nat} {L : Lane} {ps : List Nat} {ws : List (Nat × List Nat)}
    (h : Dev.LaneIs l { L with pages := ps, words := ws } d e) : Dev.LaneIs l L d e := by
  obtain ⟨view, others, ps, ws, own⟩ := h
  exact ⟨view, others, ps, ws, own⟩

theorem Dev.LaneIs.wordFrame {d e : Dev} {l : Nat} {L : Lane} (h : Dev.LaneIs l L d e) : d.wordFrame e l :=
  ⟨h.others, fun f i _ => Dev.regs_of_unlaned h.view f i⟩

theorem Dev.askPage_laneIs (d : Dev) (l q : Nat) : Dev.LaneIs l (d.lane l) d (d.askPage l q) := by
  unfold Dev.askPage
  dsimp only
  generalize hu : d.upLane l _ = u
  have asked := Dev.hbm_unasked u false (.prog l) ((d.lane l).base + 2048 * q) (8 * min 256 ((d.lane l).len - 256 * q))
  have lanes := congrArg Dev.lanes asked
  obtain ⟨view, others, _, _, own⟩ := hu ▸ d.upLane_laneIs l _
  exact ⟨(Dev.unlaned_of_unasked asked).trans view, fun k hk => (Dev.lane_congr lanes k).trans (others k hk), _, _, (Dev.lane_congr lanes l).trans own⟩

theorem Dev.askPages_laneIs (l : Nat) (qs : List Nat) (d : Dev) : Dev.LaneIs l (d.lane l) d (qs.foldl (fun d q => d.askPage l q) d) := by
  induction qs generalizing d with
  | nil => exact Dev.LaneIs.refl d l
  | cons q t ih => exact (d.askPage_laneIs l q).trans (ih _)

theorem Dev.fillWindow_laneIs (d : Dev) (l : Nat) : Dev.LaneIs l (d.lane l) d (d.fillWindow l) := by
  unfold Dev.fillWindow
  dsimp only
  split
  · exact Dev.LaneIs.refl d l
  · generalize hu : d.upLane l _ = u
    have cut := hu ▸ d.upLane_laneIs l _
    exact (Dev.LaneIs.window (L := d.lane l) cut).trans (Dev.askPages_laneIs l _ u)

/-! ### The end of a word (R104, R116, R141) -/

/-- A fault that lane `l` meets after its first vector is kept until the boundary. -/
theorem Dev.laneFault_later {d : Dev} {l : Nat} (h : (d.lane l).emitted ≠ 0) (v : Nat) : d.laneFault l v = d.upLane l (fun L => { L with fault := some v }) := by
  unfold Dev.laneFault
  exact if_neg (by simp [h])

/-- The lane as a word leaves it that ends at `at_` and passes to word `t`, asking for the seam of kind `k`; `c` is its cost. -/
def Lane.passed (L : Lane) (t at_ c k : Nat) : Lane :=
  { L with phase := .ready, complete := true, waddr := t, left := 0, wait := 0, wordVecs := 0, freeAt := at_, costs := L.costs + c, seamNext := k }

theorem Dev.wordTo_laneIs {d : Dev} {l : Nat} (native : (d.lane l).upc = none) {t : Nat} (inside : t < (d.lane l).len) (w cost : Nat) :
    ∃ at_ c k, Dev.LaneIs l ((d.lane l).passed t at_ c k) d (d.wordTo l w t cost) := by
  unfold Dev.wordTo
  rw [if_neg (by simp [native])]
  dsimp only
  rw [if_neg (Nat.not_le.mpr inside)]
  generalize hu : d.upLane l _ = u
  exact ⟨_, _, _, Dev.LaneIs.trans (hu ▸ d.upLane_laneIs l _) (u.fillWindow_laneIs l)⟩

theorem Dev.LaneIs.atNext {l t at_ c k : Nat} {L : Lane} {d e : Dev} (h : Dev.LaneIs l (L.passed t at_ c k) d e) : e.atNext l t := by
  obtain ⟨ps, ws, own⟩ := h.lane
  rw [Dev.atNext, own]
  exact ⟨rfl, rfl, rfl, rfl, rfl⟩

/-- A word command does what its word does, where the lane is at that word. -/
theorem acts_word {s : State} {l op : Nat} {c : Instr} {f : Mems → Dev → Nat → Nat → Dev} {P : Dev → Prop} (hc : exec c s = wordStep op f l s)
    (at_ : s.dev.atWord s.mem l op = true)
    (hP : P (f s.mem (s.dev.upLane l (fun L => { L with complete := false })) l (Dev.curWord s.mem s.dev l))) : Acts c s P := by
  simp only [Dev.atWord, Bool.and_eq_true, decide_eq_true_eq, beq_iff_eq, Bool.or_eq_true, Bool.not_eq_true'] at at_
  obtain ⟨⟨⟨⟨⟨hl, take⟩, word⟩, valid⟩, native⟩, ext⟩ := at_
  refine acts_onDevM hc (decide_eq_true hl) ?_
  have way : onWord op f s.mem s.dev l = f s.mem (s.dev.upLane l (fun L => { L with complete := false })) l (Dev.curWord s.mem s.dev l) := by
    unfold onWord
    rw [if_pos take]
    dsimp only
    rw [if_pos ⟨word, valid, native⟩]
    split
    next xw =>
      obtain ⟨inside, held⟩ := ext.resolve_left (by simp [xw])
      rw [if_neg (Nat.not_le.mpr inside), if_pos held]
    · rfl
  rw [way]
  exact hP

end Sys2Proof.Machine
end

section
/-!
SUPPORT. What leaves the block (R178 to R180, R385): signals and packets to other units, events placed on the pins' lines.
-/
namespace Sys2Proof.Machine

/-- The pin but for what its lines have been asked and do. -/
def Pin.fed (P : Pin) : Pin :=
  { P with trans := [], cur := (false, false), lastDD := none, lastDE := none, placed := [], dd := false, de := false, once := 0 }

/-- The block but for register fields, events, pins and what messages between units write. -/
def Dev.unemitted (d : Dev) : Dev :=
  { d with regs := [], cyc := {}, raised := [], pins := [], ports := [], tl := {}, evOut := [], sigNo := 0, signals := [], waves := [] }

/-- The status fields of what leaves the block: packets forwarded, events moved apart. -/
def emitFields : List Fld := [.RN_PORT_COUNT_FWD, .PIN_TF_STATUS_SPACING, .PIN_TF_STATUS_SPACING_COUNT]

/-- Between `d` and `e` signals, packets and events on the lines have left, nothing else. -/
structure Dev.Emits (d e : Dev) : Prop where
  rest : e.unemitted = d.unemitted
  fed : ∀ p, (e.pin p).fed = (d.pin p).fed
  rd : d.keepsFields e emitFields

theorem Dev.Emits.refl (d : Dev) : Dev.Emits d d := ⟨rfl, fun _ => rfl, fun _ _ _ => rfl⟩

theorem Dev.Emits.trans {d e f : Dev} (h : Dev.Emits d e) (k : Dev.Emits e f) : Dev.Emits d f :=
  ⟨k.rest.trans h.rest, fun p => (k.fed p).trans (h.fed p), fun g i hg => (k.rd g i hg).trans (h.rd g i hg)⟩

theorem Dev.Emits.foldl {β : Type} {g : Dev → β → Dev} (h : ∀ d b, Dev.Emits d (g d b)) (l : List β) (d : Dev) : Dev.Emits d (l.foldl g d) := by
  induction l generalizing d with
  | nil => exact Dev.Emits.refl d
  | cons b t ih => exact (h d b).trans (ih _)

theorem Dev.Emits.fifo {d e : Dev} (h : Dev.Emits d e) (p : Nat) : (e.pin p).fifo = (d.pin p).fifo := by
  have same := congrArg Pin.fifo (h.fed p)
  exact same

theorem Dev.Emits.pos {d e : Dev} (h : Dev.Emits d e) (p : Nat) : (e.pin p).pos = (d.pin p).pos := by
  have same := congrArg Pin.pos (h.fed p)
  exact same

theorem Dev.Emits.lane {d e : Dev} (h : Dev.Emits d e) (l : Nat) : e.lane l = d.lane l := Dev.lane_congr (congrArg Dev.lanes h.rest) l

/-! ### Messages -/

theorem Dev.emits_of_quiet {d e : Dev} (quiet : e.quiet = d.quiet) (sites : e.sites = d.sites) : Dev.Emits d e := by
  have unsent := congrArg Prod.snd quiet
  have pins := (Dev.units_of_quiet quiet).2.1
  refine ⟨?_, fun p => by rw [Dev.pin_congr pins], fun f i hf => Dev.keepsFields_of_quiet quiet f i (fun m => hf ?_)⟩
  · calc e.unemitted
      _ = { e.unsent with sites := e.sites, cyc := {}, raised := [], pins := [] } := rfl
      _ = { d.unsent with sites := d.sites, cyc := {}, raised := [], pins := [] } := by
        rw [sites, show e.unsent = d.unsent from unsent]
      _ = d.unemitted := rfl
  · exact List.mem_of_mem_head? (List.mem_singleton.mp m ▸ rfl)

theorem Dev.signal_emits (d : Dev) (k : SigKind) (t u i : Nat) (b : Bool) : Dev.Emits d (d.signal k t u i b) := by
  obtain ⟨quiet, sites⟩ := d.signal_quiet k t u i b
  exact Dev.emits_of_quiet quiet sites

theorem Dev.marker_emits (d : Dev) (n l k S : Nat) : Dev.Emits d (d.marker n l k S) := by
  unfold Dev.marker
  dsimp only
  split
  · split
    · exact d.signal_emits ..
    · exact (Dev.emits_of_quiet (d.originate_quiet _) (d.originate_sites _)).trans (Dev.signal_emits ..)
  · exact d.signal_emits ..

/-! ### Events on the lines -/

theorem Pin.settle1_fed (P : Pin) (x : Trans) (rest : List Trans) (dead : Bool) : (P.settle1 x rest dead).1.fed = P.fed := by
  unfold Pin.settle1
  dsimp only
  (repeat' split) <;> rfl

theorem settleTo_fed (hz : Int) (dead : Bool) (l : List Trans) (P : Pin) : (settleTo hz dead l P).1.fed = P.fed := by
  induction l generalizing P with
  | nil => rfl
  | cons x rest ih =>
    unfold settleTo
    split
    · exact (ih _).trans (P.settle1_fed x rest dead)
    · rfl

theorem Dev.upPin_emits (d : Dev) (p : Nat) (f : Pin → Pin) (hf : (f (d.pin p)).fed = (d.pin p).fed) : Dev.Emits d (d.upPin p f) := by
  refine ⟨rfl, fun q => ?_, fun _ _ _ => rfl⟩
  rw [Dev.upPin_pin]
  split
  · subst_vars; exact hf
  · rfl

theorem Dev.raise_emits (d : Dev) (s i : Nat) : Dev.Emits d (d.raise s i) := ⟨rfl, fun _ => rfl, fun _ _ _ => rfl⟩

theorem Dev.spacing_emits (d : Dev) (p n : Nat) : Dev.Emits d (d.spacing p n) := by
  unfold Dev.spacing
  dsimp only
  split
  · exact Dev.Emits.refl d
  · have noted : Dev.Emits d ((d.count .PIN_TF_STATUS_SPACING_COUNT p n).set1 .PIN_TF_STATUS_SPACING p) := by
      refine ⟨rfl, fun _ => rfl, fun f i hf => ?_⟩
      simp only [emitFields, List.mem_cons, not_or] at hf
      obtain ⟨-, spacing, count, -⟩ := hf
      rw [Dev.set1_rd, if_neg (fun h => spacing h.1)]
      exact Dev.wr_rd_ne _ _ _ _ _ _ count
    split
    · exact noted
    · exact (noted.trans (Dev.upPin_emits _ p (fun P => { P with once := setBit P.once 1 true }) rfl)).trans (Dev.raise_emits _ _ _)

theorem Dev.settle_emits (d : Dev) (p : Nat) (hz : Int) : Dev.Emits d (d.settle p hz) :=
  (d.upPin_emits p _ (settleTo_fed _ _ _ _)).trans (Dev.spacing_emits _ _ _)

theorem Dev.askIdle_emits (d : Dev) (p : Nat) (t : Int) : Dev.Emits d (d.askIdle p t) := by
  unfold Dev.askIdle
  dsimp only
  split
  · exact Dev.Emits.refl d
  · refine d.upPin_emits p _ ?_
    (repeat' split) <;> rfl

theorem Dev.idleAt_emits (d : Dev) (p : Nat) (t : Int) : Dev.Emits d (d.idleAt p t) := (d.askIdle_emits p t).trans (Dev.settle_emits _ _ _)

theorem Dev.restPins_emits (d : Dev) (l g : Nat) : Dev.Emits d (d.restPins l g) :=
  Dev.Emits.foldl (fun d p => by split <;> [exact d.settle_emits _ _; exact Dev.Emits.refl d]) _ d

theorem Dev.holdHead_emits (d : Dev) (l : Nat) : Dev.Emits d (d.holdHead l) := by
  unfold Dev.holdHead
  split
  · exact Dev.Emits.foldl (fun d p => d.settle_emits _ _) _ d
  · exact Dev.Emits.refl d

end Sys2Proof.Machine
end

section
/-!
SUPPORT. A word that leaves something to other units, and what follows the last vector of a halted sequencer (R129, R190).
-/
namespace Sys2Proof.Machine

/-- Between `d` and `e` nothing has changed but lane `l`, requests, and what has left the block. -/
structure Dev.WordEmits (l : Nat) (d e : Dev) : Prop where
  rest : e.unlaned.unemitted = d.unlaned.unemitted
  others : ∀ k, k ≠ l → e.lane k = d.lane k
  fed : ∀ p, (e.pin p).fed = (d.pin p).fed
  rd : d.keepsFields e emitFields

theorem Dev.WordEmits.trans {l : Nat} {d e f : Dev} (h : Dev.WordEmits l d e) (k : Dev.WordEmits l e f) : Dev.WordEmits l d f :=
  ⟨k.rest.trans h.rest, fun m hm => (k.others m hm).trans (h.others m hm), fun p => (k.fed p).trans (h.fed p),
    fun g i hg => (k.rd g i hg).trans (h.rd g i hg)⟩

theorem Dev.Emits.word {d e : Dev} (h : Dev.Emits d e) (l : Nat) : Dev.WordEmits l d e :=
  ⟨congrArg Dev.unlaned h.rest, fun k _ => h.lane k, h.fed, h.rd⟩

theorem Dev.LaneIs.word {l : Nat} {L : Lane} {d e : Dev} (h : Dev.LaneIs l L d e) : Dev.WordEmits l d e :=
  ⟨congrArg Dev.unemitted h.view, h.others, fun p => congrArg Pin.fed (Dev.pin_congr (congrArg Dev.pins h.view) p),
    fun g i _ => Dev.regs_of_unlaned h.view g i⟩

theorem Dev.WordEmits.sites {l : Nat} {d e : Dev} (h : Dev.WordEmits l d e) : e.sites = d.sites := by
  have same := congrArg Dev.sites h.rest
  exact same

theorem Dev.WordEmits.fifo {l : Nat} {d e : Dev} (h : Dev.WordEmits l d e) (p : Nat) : (e.pin p).fifo = (d.pin p).fifo := by
  have same := congrArg Pin.fifo (h.fed p)
  exact same

theorem Dev.WordEmits.pos {l : Nat} {d e : Dev} (h : Dev.WordEmits l d e) (p : Nat) : (e.pin p).pos = (d.pin p).pos := by
  have same := congrArg Pin.pos (h.fed p)
  exact same

/-- The lane but for the markers and seams it still asks for. -/
def Lane.tailed (L : Lane) : Lane := { L with marksNext := [], seamNext := 0, rests := [] }

/-- What follows the last vector of a halted lane leaves the block; the lane itself forgets the markers and seams it asked for. -/
theorem Dev.tailActs_emits (d : Dev) (l : Nat) : Dev.WordEmits l d (d.tailActs l) ∧ ((d.tailActs l).lane l).tailed = (d.lane l).tailed := by
  unfold Dev.tailActs
  split
  · next n p _ _ =>
    split
    · dsimp only
      generalize hm : ((d.lane l).marksNext.foldl _ d) = m
      have marked : Dev.Emits d m := hm ▸ Dev.Emits.foldl (fun d k => d.marker_emits n l k _) _ d
      generalize hu : m.upLane l _ = u
      have kept := hu ▸ m.upLane_laneIs l _
      have own : (u.lane l).tailed = (d.lane l).tailed := by
        rw [← hu, Dev.upLane_lane, if_pos rfl, ← marked.lane l]
        rfl
      split
      · exact ⟨((marked.word l).trans kept.word).trans ((u.idleAt_emits p _).word l), by rw [(u.idleAt_emits p _).lane l, own]⟩
      · exact ⟨(marked.word l).trans kept.word, own⟩
    · exact ⟨(Dev.Emits.refl d).word l, rfl⟩
  · exact ⟨(Dev.Emits.refl d).word l, rfl⟩

end Sys2Proof.Machine
end

section
/-!
SUPPORT. Status fields noted by an event (R140, R141), and the fault of a sequencer before vector 0.
-/
namespace Sys2Proof.Machine

/-- The block but for its register fields and what the engine cycle notes of them. -/
def Dev.unnoted (d : Dev) : Dev := { d with regs := [], cyc := {} }

/-- Between `d` and `e` fields of `L` were written, nothing else. -/
structure Dev.Notes (L : List Fld) (d e : Dev) : Prop where
  rest : e.unnoted = d.unnoted
  rd : d.keepsFields e L

theorem Dev.Notes.refl (L : List Fld) (d : Dev) : Dev.Notes L d d := ⟨rfl, fun _ _ _ => rfl⟩

theorem Dev.Notes.trans {L : List Fld} {d e f : Dev} (h : Dev.Notes L d e) (k : Dev.Notes L e f) : Dev.Notes L d f :=
  ⟨k.rest.trans h.rest, fun g i hg => (k.rd g i hg).trans (h.rd g i hg)⟩

theorem Dev.Notes.foldl {β : Type} {L : List Fld} {g : Dev → β → Dev} (h : ∀ d b, Dev.Notes L d (g d b)) (l : List β) (d : Dev) : Dev.Notes L d (l.foldl g d) := by
  induction l generalizing d with
  | nil => exact Dev.Notes.refl L d
  | cons b t ih => exact (h d b).trans (ih _)

theorem Dev.Notes.ite {L : List Fld} {c : Prop} [Decidable c] {d e f : Dev} (h : Dev.Notes L d e) (k : Dev.Notes L d f) : Dev.Notes L d (if c then e else f) := by
  split <;> assumption

theorem Dev.wr_notes {L : List Fld} (d : Dev) {f : Fld} (hf : f ∈ L) (i v : Nat) : Dev.Notes L d (d.wr f i v) :=
  ⟨rfl, Dev.keepsFields_mono (d.wr_keepsFields f i v) (by simpa using hf)⟩

theorem Dev.set1_notes {L : List Fld} (d : Dev) {f : Fld} (hf : f ∈ L) (i : Nat) : Dev.Notes L d (d.set1 f i) :=
  ⟨rfl, fun g j hg => by
    rw [Dev.set1_rd, if_neg]
    rintro ⟨rfl, -⟩
    exact hg hf⟩

/-- The status fields that a fault slot writes (R140). -/
def dsqSlotFields : List Fld := [.PIN_DSQ_STATUS_FAULT, .PIN_DSQ_STATUS_FSLOT, .PIN_DSQ_STATUS_DWELL, .PIN_DSQ_STATUS_STARVED]

theorem Dev.dsqFault_notes (d : Dev) (l v : Nat) : Dev.Notes dsqSlotFields d (d.dsqFault l v) := by
  refine Dev.Notes.foldl (fun d p => ?_) _ d
  have noted : ∀ {d : Dev} {f : Fld}, f ∈ dsqSlotFields → Dev.Notes dsqSlotFields d (d.set1 f p) := fun hf => Dev.set1_notes _ hf p
  have first : Dev.Notes dsqSlotFields d (if d.on .PIN_DSQ_STATUS_FAULT p then d else (d.set1 .PIN_DSQ_STATUS_FAULT p).wr .PIN_DSQ_STATUS_FSLOT p v) :=
    .ite (.refl _ d) ((noted (by decide)).trans (Dev.wr_notes _ (by decide) p v))
  have second := first.trans (Dev.Notes.ite (c := v = 7) (noted (f := .PIN_DSQ_STATUS_DWELL) (by decide)) (.refl _ _))
  exact second.trans (Dev.Notes.ite (c := v = 8) (noted (f := .PIN_DSQ_STATUS_STARVED) (by decide)) (.refl _ _))

theorem Dev.raiseLow_units (d : Dev) (n s p : Nat) : (d.raiseLow n s p).regs = d.regs ∧ (d.raiseLow n s p).sites = d.sites := by
  unfold Dev.raiseLow
  dsimp only
  split <;> exact ⟨rfl, rfl⟩

/-- Before vector 0 a site stops at the end of the engine cycle. -/
theorem Dev.stopSite_early {d : Dev} {n : Nat} (h : d.siteState n = SiteState.PREPARING ∨ d.siteState n = SiteState.ARMED) (r st early : Nat) (b : Bool) :
    d.stopSite n r st early b = d.stopSoon n r early := by
  unfold Dev.stopSite
  exact if_pos (by simpa using h)

/-- A cause of the lowest rank decides, where none of it stands against it. -/
theorem Dev.stopSoon_early {d : Dev} {n r : Nat} (h : (d.site n).early = none ∨ ∃ q v, (d.site n).early = some (q, v) ∧ r < q) (st : Nat) :
    ((d.stopSoon n r st).site n).early = some (r, st) := by
  simp only [Dev.stopSoon, Dev.upSite_site, if_true]
  obtain none_ | ⟨q, v, held, higher⟩ := h
  · rw [none_]
  · rw [held]; exact if_pos higher

/-- A fault slot that lane `l` meets before vector 0 ends the site's RUN with the engine cycle (R141). -/
theorem Dev.seqFaultNow_early {d : Dev} {l n : Nat} (owner : d.laneSite l = some n)
    (before : d.siteState n = SiteState.PREPARING ∨ d.siteState n = SiteState.ARMED)
    (first : (d.site n).early = none ∨ ∃ q v, (d.site n).early = some (q, v) ∧ 1 < q) (v : Nat) :
    (d.seqFaultNow l v).siteState n = d.siteState n ∧ ((d.seqFaultNow l v).site n).early = some (1, Status.seqFault v) := by
  unfold Dev.seqFaultNow
  rw [owner]
  dsimp only
  obtain ⟨rest, rd⟩ := d.dsqFault_notes l v
  obtain ⟨regs, sites⟩ := (d.dsqFault l v).raiseLow_units n (0x1C7 + v) ((d.lanePin l).getD 0)
  generalize (d.dsqFault l v).raiseLow n (0x1C7 + v) ((d.lanePin l).getD 0) = e at regs sites
  have state : e.siteState n = d.siteState n := (Dev.rd_congr regs _ _).trans (rd _ _ (by decide))
  have same := congrArg Dev.sites rest
  have site : e.site n = d.site n := Dev.site_congr (sites.trans same) n
  rw [Dev.stopSite_early (state ▸ before)]
  exact ⟨state, Dev.stopSoon_early (site ▸ first) _⟩

end Sys2Proof.Machine
end

section
/-!
PROOF. HALT and reserved opcodes (R48, R77, R129, R135, R140, R141).
-/
namespace Sys2Proof.Machine

theorem halt_acts (s : State) (l : Nat) (at_ : s.dev.atWord s.mem l 0x00 = true) :
    Acts (.halt l) s (fun e => (e.lane l).phase = .halted ∧ (e.lane l).waddr = (s.dev.lane l).waddr ∧ (e.lane l).fault = none ∧
      (∀ p, (e.pin p).fifo = (s.dev.pin p).fifo ∧ (e.pin p).pos = (s.dev.pin p).pos) ∧ (∀ k, k ≠ l → e.lane k = s.dev.lane k) ∧
      e.sites = s.dev.sites ∧ s.dev.keepsFields e [.PIN_TF_STATUS_SPACING, .PIN_TF_STATUS_SPACING_COUNT, .RN_PORT_COUNT_FWD]) := by
  refine acts_word rfl at_ ?_
  unfold wHalt
  generalize hu : (s.dev.upLane l _).upLane l _ = u
  have stopped : Dev.WordEmits l s.dev u := hu ▸ (Dev.upLane_laneIs ..).word.trans (Dev.upLane_laneIs ..).word
  have own : (u.lane l).phase = .halted ∧ (u.lane l).waddr = (s.dev.lane l).waddr ∧ (u.lane l).fault = none := by
    simp [← hu]
  obtain ⟨left, tail⟩ := u.tailActs_emits l
  have all := stopped.trans left
  refine ⟨?_, ?_, ?_, fun p => ⟨all.fifo p, all.pos p⟩, all.others, all.sites, Dev.keepsFields_mono all.rd (by decide)⟩
  · exact (congrArg Lane.phase tail).trans own.1
  · exact (congrArg Lane.waddr tail).trans own.2.1
  · exact (congrArg Lane.fault tail).trans own.2.2

/-- A reserved opcode met at a dispatch of SSI 4.2 is fault slot 1. -/
theorem badOp_taken {m : Mems} {d : Dev} {l : Nat} (take : d.canTake l = true) (reserved : d.opValid l (wOp (Dev.curWord m d l)) = false) :
    Dev.badOp m d l = (d.upLane l (fun L => { L with complete := false })).laneFault l 1 := by
  unfold Dev.badOp
  exact if_pos (by simp [take, reserved])

theorem badOp_acts (s : State) (l : Nat) (hl : l < 320) (take : s.dev.canTake l = true) (reserved : s.dev.opValid l (wOp (Dev.curWord s.mem s.dev l)) = false)
    (running : (s.dev.lane l).emitted ≠ 0) :
    Acts (.badOp l) s (fun e => (e.lane l).fault = some 1 ∧ (e.lane l).waddr = (s.dev.lane l).waddr ∧ e.pins = s.dev.pins ∧ s.dev.wordFrame e l) := by
  refine acts_onDevM rfl (decide_eq_true hl) ?_
  rw [badOp_taken take reserved, Dev.laneFault_later (by simpa using running)]
  have frame := ((s.dev.upLane_laneIs l (fun L => { L with complete := false })).word.trans (Dev.upLane_laneIs _ l (fun L => { L with fault := some 1 })).word)
  exact ⟨by simp, by simp, rfl, frame.others, fun _ _ _ => rfl⟩

theorem badOp_early (s : State) (l n : Nat) (hl : l < 320) (take : s.dev.canTake l = true) (reserved : s.dev.opValid l (wOp (Dev.curWord s.mem s.dev l)) = false)
    (none_ : (s.dev.lane l).emitted = 0) (owner : s.dev.laneSite l = some n)
    (before : s.dev.siteState n = SiteState.PREPARING ∨ s.dev.siteState n = SiteState.ARMED)
    (first : (s.dev.site n).early = none ∨ ∃ r v, (s.dev.site n).early = some (r, v) ∧ 1 < r) :
    Acts (.badOp l) s (fun e => e.siteState n = s.dev.siteState n ∧ (e.site n).early = some (1, Status.seqFault 1)) := by
  refine acts_onDevM rfl (decide_eq_true hl) ?_
  rw [badOp_taken take reserved]
  unfold Dev.laneFault
  have low : s.dev.siteState n ≤ SiteState.ARMED := by
    obtain h | h := before <;> simp [h, SiteState.PREPARING, SiteState.ARMED]
  generalize hu : s.dev.upLane l _ = u
  have emitted : (u.lane l).emitted = 0 := by simp [← hu, none_]
  have owner' : u.laneSite l = some n := by rw [← owner, ← hu]; rfl
  have state : u.siteState n = s.dev.siteState n := by rw [← hu]; rfl
  dsimp only
  rw [if_pos (by simp [emitted, owner', state, low])]
  generalize hw : u.upLane l _ = w
  have back : w.siteState n = s.dev.siteState n ∧ w.site n = s.dev.site n ∧ w.laneSite l = some n := by
    refine ⟨?_, ?_, ?_⟩
    · rw [← hw]; exact state
    · rw [← hw, ← hu]; rfl
    · rw [← hw]; exact owner'
  obtain ⟨state', site', owner''⟩ := back
  unfold Dev.laneFaultNow
  rw [if_neg (by decide)]
  obtain ⟨kept, set_⟩ := Dev.seqFaultNow_early owner'' (state' ▸ before) (site' ▸ first) 1
  exact ⟨kept.trans state', set_⟩

end Sys2Proof.Machine

open Sys2Proof Sys2Proof.Machine

/-- Settles O35: a HALT leaves only what follows the last vector; a reserved opcode is fault slot 1, kept for the boundary after the first vector and
taken with the engine cycle before it. -/
theorem haltStopsAndBadOpFaults : Obligations.HaltStopsAndBadOpFaults :=
  ⟨halt_acts, badOp_acts, badOp_early⟩
end

section
/-!
SUPPORT. An action done pin by pin, the end of a synchronised word (R112, R194).
-/
namespace Sys2Proof.Machine

/-- What is done one by one over a list without duplicates reaches each of its members once. -/
theorem foldl_once {α β γ : Type} [DecidableEq β] {v : α → β → γ} {g : α → β → α} {G : β → γ → γ} (own : ∀ a b, v (g a b) b = G b (v a b))
    (keep : ∀ a b c, c ≠ b → v (g a b) c = v a c) (l : List β) (nodup : l.Nodup) (a : α) (c : β) :
    v (l.foldl g a) c = if c ∈ l then G c (v a c) else v a c := by
  induction l generalizing a with
  | nil => rfl
  | cons b t ih =>
    obtain ⟨fresh, nodup⟩ := List.nodup_cons.mp nodup
    rw [List.foldl_cons, ih nodup]
    by_cases hc : c = b
    · subst hc
      rw [if_neg fresh, if_pos List.mem_cons_self, own]
    · simp only [keep a b c hc, List.mem_cons, hc, false_or]

theorem Dev.lanePins_nodup (d : Dev) (l : Nat) : (d.lanePins l).Nodup := by
  unfold Dev.lanePins
  split
  · exact maskPins_nodup _
  · exact List.nodup_singleton _

/-! ### The last vector of a word -/

/-- The vectors of a FIFO, the last of them ending its word. -/
def endFifo (f : List Vec) : List Vec := f.dropLast ++ (f.getLast?.map (fun v => { v with endMatch := true })).toList

theorem endFifo_append (f : List Vec) (v : Vec) : endFifo (f ++ [v]) = f ++ [{ v with endMatch := true }] := by
  simp [endFifo]

/-- The block but for pins and CSQs. -/
def Dev.unpinned (d : Dev) : Dev := { d with pins := [], csqs := [] }

/-- The mark at one pin. -/
def Dev.endPin (d : Dev) (p : Nat) : Dev :=
  if (d.pin p).fifo ≠ [] then d.upPin p (fun P => { P with fifo := endFifo P.fifo })
  else d.upCsq p (fun C => { C with exps := C.exps.dropLast ++ (C.exps.getLast?.map (fun e => { e with wordEnd := true })).toList
                                    endNow := C.exps.isEmpty })

theorem Dev.markWordEnd_eq (d : Dev) (l : Nat) : d.markWordEnd l = if (d.lane l).wordVecs = 0 then d else (d.lanePins l).foldl Dev.endPin d := rfl

theorem Dev.endPin_unpinned (d : Dev) (p : Nat) : (d.endPin p).unpinned = d.unpinned := by
  unfold Dev.endPin
  split <;> rfl

theorem Dev.endPin_pin (d : Dev) (p q : Nat) : (d.endPin p).pin q = if q = p then { d.pin q with fifo := endFifo (d.pin q).fifo } else d.pin q := by
  unfold Dev.endPin
  split
  · rw [Dev.upPin_pin]
    split
    · subst_vars; rfl
    · rfl
  next empty =>
    rw [show ((d.upCsq p _).pin q) = d.pin q from rfl]
    split
    · subst_vars
      rw [show endFifo (d.pin q).fifo = (d.pin q).fifo by rw [not_not.mp empty]; rfl]
    · rfl

/-- The end of a word marks the last vector in the FIFO of each of the lane's pins. -/
theorem Dev.markWordEnd_spec (d : Dev) (l : Nat) : (d.markWordEnd l).unpinned = d.unpinned ∧ (∀ p, ((d.markWordEnd l).pin p).pos = (d.pin p).pos) ∧
    ((d.lane l).wordVecs = 0 → d.markWordEnd l = d) ∧
    ((d.lane l).wordVecs ≠ 0 → ∀ p, p ∈ d.lanePins l → ((d.markWordEnd l).pin p).fifo = endFifo (d.pin p).fifo) := by
  have pin := foldl_once (v := Dev.pin) (g := Dev.endPin) (G := fun _ P => { P with fifo := endFifo P.fifo })
    (fun d p => by rw [Dev.endPin_pin, if_pos rfl]) (fun d p q hq => by rw [Dev.endPin_pin, if_neg hq]) _ (d.lanePins_nodup l) d
  rw [Dev.markWordEnd_eq]
  split
  next none_ => exact ⟨rfl, fun _ => rfl, fun _ => rfl, fun h => absurd none_ h⟩
  next some_ =>
    refine ⟨foldl_keeps Dev.unpinned _ _ d (fun d p _ => d.endPin_unpinned p), fun p => ?_, fun h => absurd h some_, fun _ p hp => ?_⟩
    · rw [pin p]
      split <;> rfl
    · rw [pin p, if_pos hp]

end Sys2Proof.Machine
end

section
/-!
PROOF. Words that wait (R58, R112, R126 to R129, R194).
-/
namespace Sys2Proof.Machine

/-- A synchronised word holds its sequencer and does nothing else. -/
theorem hold_acts (s : State) (l op : Nat) (c : Instr)
    (word : (c, op) ∈ [(Instr.waitcond l, 0x11), (.waittrig l, 0x12), (.waittime l, 0x13), (.rdv l, 0x14), (.setc l, 0x18), (.markW l, 0x1A)])
    (at_ : s.dev.atWord s.mem l op = true) :
    Acts c s (fun e => (e.lane l).phase = .sync ∧ (e.lane l).wait = 0 ∧ (e.lane l).firstAt = none ∧ (e.lane l).waddr = (s.dev.lane l).waddr ∧
      (e.lane l).complete = false ∧ e.pins = s.dev.pins ∧ e.sites = s.dev.sites ∧ s.dev.wordFrame e l) := by
  have way : exec c s = wordStep op (fun _ d l _ => d.hold l) l s := by
    simp only [List.mem_cons, Prod.mk.injEq, List.not_mem_nil, or_false] at word
    obtain ⟨rfl, rfl⟩ | ⟨rfl, rfl⟩ | ⟨rfl, rfl⟩ | ⟨rfl, rfl⟩ | ⟨rfl, rfl⟩ | ⟨rfl, rfl⟩ := word <;> rfl
  refine acts_word way at_ ?_
  have frame := (s.dev.upLane_laneIs l (fun L => { L with complete := false })).word.trans
    (Dev.upLane_laneIs _ l (fun L => { L with phase := .sync, wait := 0, firstAt := none })).word
  refine ⟨?_, ?_, ?_, ?_, ?_, rfl, rfl, frame.others, fun _ _ _ => rfl⟩ <;> simp [Dev.hold]

/-- The lane as a synchronised word that is done leaves it. -/
def Lane.counted (L : Lane) : Lane := { L with costs := 0 }

theorem Dev.groupDone_laneIs (d : Dev) (l : Nat) : Dev.LaneIs l (d.lane l).counted d (d.groupDone l) := d.upLane_laneIs l _

/-- Control passes to word `t`, and the words that follow count from there. -/
theorem Dev.wordTo_counted {d : Dev} {l t : Nat} (native : (d.lane l).upc = none) (inside : t < (d.lane l).len) (w cost : Nat) :
    ∃ at_ c k, Dev.LaneIs l ((d.lane l).passed t at_ c k).counted d ((d.wordTo l w t cost).groupDone l) := by
  obtain ⟨at_, c, k, passed⟩ := d.wordTo_laneIs native inside w cost
  obtain ⟨ps, ws, own⟩ := passed.lane
  have done := (d.wordTo l w t cost).groupDone_laneIs l
  rw [own] at done
  exact ⟨at_, c, k, done.view.trans passed.view, fun m hm => (done.others m hm).trans (passed.others m hm), done.lane.imp fun _ h => h⟩

theorem Dev.wordFrame.trans {d e f : Dev} {l : Nat} (h : d.wordFrame e l) (k : e.wordFrame f l) : d.wordFrame f l :=
  ⟨fun m hm => (k.1 m hm).trans (h.1 m hm), fun g i hg => (k.2 g i hg).trans (h.2 g i hg)⟩

theorem Dev.markWordEnd_frame (d : Dev) (l : Nat) : d.wordFrame (d.markWordEnd l) l ∧ (d.markWordEnd l).lane l = d.lane l := by
  have rest := (d.markWordEnd_spec l).1
  have lanes := congrArg Dev.lanes rest
  have regs := congrArg Dev.regs rest
  exact ⟨⟨fun k _ => Dev.lane_congr lanes k, fun f i _ => Dev.rd_congr regs f i⟩, Dev.lane_congr lanes l⟩

/-- The end of a synchronised word that passes to word `t`. -/
theorem Dev.markedTo {d : Dev} {l t : Nat} (native : (d.lane l).upc = none) (inside : t < (d.lane l).len) (w cost : Nat) :
    (((d.markWordEnd l).wordTo l w t cost).groupDone l).atNext l t ∧ d.wordFrame (((d.markWordEnd l).wordTo l w t cost).groupDone l) l ∧
      (((d.markWordEnd l).wordTo l w t cost).groupDone l).pins = (d.markWordEnd l).pins := by
  obtain ⟨frame, own⟩ := d.markWordEnd_frame l
  obtain ⟨_, _, _, passed⟩ := Dev.wordTo_counted (own ▸ native) (own ▸ inside) w cost
  obtain ⟨_, _, lane⟩ := passed.lane
  have pins := congrArg Dev.pins passed.view
  exact ⟨by rw [Dev.atNext, lane]; exact ⟨rfl, rfl, rfl, rfl, rfl⟩, frame.trans passed.wordFrame, pins⟩

theorem waitRelease_acts (s : State) (l : Nat) (hl : l < 320) (live : s.dev.laneLive l = true) (released : (s.dev.lane l).phase = .released)
    (native : (s.dev.lane l).upc = none) (inside : Dev.nextOf s.mem s.dev l < (s.dev.lane l).len) :
    Acts (.waitRelease l) s (fun e => e.atNext l (Dev.nextOf s.mem s.dev l) ∧ s.dev.wordFrame e l ∧
      ((s.dev.lane l).wordVecs = 0 → e.pins = s.dev.pins) ∧ (∀ p, (e.pin p).pos = (s.dev.pin p).pos) ∧
      ((s.dev.lane l).wordVecs ≠ 0 → ∀ p f v, p ∈ s.dev.lanePins l → (s.dev.pin p).fifo = f ++ [v] →
        (e.pin p).fifo = f ++ [{ v with endMatch := true }])) := by
  refine acts_onDevM rfl (decide_eq_true hl) ?_
  unfold Dev.waitRelease Dev.wordDone
  rw [if_pos ⟨live, released⟩, if_neg (by simp [native]), (s.dev.markWordEnd_frame l).2, ← Dev.nextOf]
  obtain ⟨next, frame, pins⟩ := Dev.markedTo native inside (Dev.curWord s.mem s.dev l) 2
  obtain ⟨-, pos, none_, some_⟩ := s.dev.markWordEnd_spec l
  refine ⟨next, frame, fun h => ?_, fun p => ?_, fun h p f v hp hf => ?_⟩
  · rw [pins, none_ h]
  · rw [Dev.pin_congr pins, pos p]
  · rw [Dev.pin_congr pins, some_ h p hp, hf, endFifo_append]

theorem lt_of_targetFault {len a t : Nat} (h : targetFault len a t = none) : t < len := by
  by_contra beyond
  rw [targetFault, if_pos (Nat.not_lt.mp beyond)] at h
  exact absurd h (by simp)

theorem waitTimeout_acts (s : State) (l : Nat) (hl : l < 320) (live : s.dev.laneLive l = true) (reached : (s.dev.lane l).phase = .timedOut)
    (good : (s.dev.lane l).fault = none) (native : (s.dev.lane l).upc = none) (running : (s.dev.lane l).emitted ≠ 0) :
    Acts (.waitTimeout l) s (fun e => s.dev.wordFrame e l ∧ (∀ p, (e.pin p).pos = (s.dev.pin p).pos) ∧
      (wXw (Dev.curWord s.mem s.dev l) = false → (e.lane l).fault = some 9) ∧
      (wXw (Dev.curWord s.mem s.dev l) = true → targetFault (s.dev.lane l).len (s.dev.lane l).waddr (Dev.xarg s.mem s.dev l) = none →
        e.atNext l (Dev.xarg s.mem s.dev l))) := by
  refine acts_onDevM rfl (decide_eq_true hl) ?_
  unfold Dev.waitTimeout
  rw [if_pos ⟨live, reached, by simp [good]⟩]
  dsimp only
  rw [if_neg (by simp [native])]
  obtain ⟨marked, own⟩ := s.dev.markWordEnd_frame l
  obtain ⟨-, pos, -, -⟩ := s.dev.markWordEnd_spec l
  split
  next xw =>
    unfold Dev.wordJump
    rw [own]
    split
    next v bad =>
      rw [Dev.laneFault_later (own ▸ running)]
      have frame := marked.trans ((Dev.upLane_laneIs _ l (fun L => { L with fault := some v })).wordFrame.trans (Dev.groupDone_laneIs _ l).wordFrame)
      exact ⟨frame, pos, fun h => by simp [xw] at h, fun _ h => by simp [bad] at h⟩
    next fine =>
      obtain ⟨next, frame, pins⟩ := Dev.markedTo native (lt_of_targetFault fine) (Dev.curWord s.mem s.dev l) 2
      exact ⟨frame, fun p => by rw [Dev.pin_congr pins, pos p], fun h => by simp [xw] at h, fun _ _ => next⟩
  next xw =>
    rw [Dev.laneFault_later running]
    exact ⟨(s.dev.upLane_laneIs l (fun L => { L with fault := some 9 })).wordFrame, fun _ => rfl, fun _ => by simp, fun h => absurd h xw⟩

end Sys2Proof.Machine

open Sys2Proof Sys2Proof.Machine

/-- Settles O31: a synchronised word holds its sequencer; a released or expired wait marks the last vector of its word and passes on. -/
theorem waitingWordsEndByDecisionReleaseOrTimeout : Obligations.WaitingWordsEndByDecisionReleaseOrTimeout :=
  ⟨hold_acts, waitRelease_acts, waitTimeout_acts⟩
end

section
/-!
SUPPORT. One K vector placed on each pin of a sequencer (R109, R126, R127).
-/
namespace Sys2Proof.Machine

/-- The block but for sequencers, requests and pins. -/
def Dev.unplaced (d : Dev) : Dev := { d.unlaned with pins := [] }

theorem Dev.lanePins_congr {d e : Dev} (h : e.regs = d.regs) (l : Nat) : e.lanePins l = d.lanePins l := by
  unfold Dev.lanePins Dev.sharedPins Dev.privMask
  simp only [Dev.rd_congr h]

theorem Dev.laneSite_congr {d e : Dev} (h : e.regs = d.regs) (l : Nat) : e.laneSite l = d.laneSite l := by
  unfold Dev.laneSite Dev.siteOf Dev.isMember
  simp only [Dev.rd_congr h]

/-- The K vector that lane `L` places for word `w`. -/
def Lane.kVec (L : Lane) (w : Nat) : Vec := L.vecOf w Code.K 0 (wTset w) false false

/-- A vector enters a pin's FIFO. -/
def Dev.push (v : Vec) (d : Dev) (p : Nat) : Dev := d.upPin p (fun P => { P with fifo := P.fifo ++ [v], lastVec := some v })

theorem Dev.placePins_k {m : Mems} {w : Nat} {L : Lane} (hk : L.kind = .k) (ps : List Nat) (d : Dev) :
    Dev.placePins m w L ps d = some (ps.foldl (Dev.push (L.kVec w)) d) := by
  induction ps generalizing d with
  | nil => rfl
  | cons p t ih =>
    have one : Dev.placePin m w L p d = some (Dev.push (L.kVec w) d p) := by
      unfold Dev.placePin
      simp only [hk]
      rfl
    rw [Dev.placePins, one]
    exact ih _

/-- The FIFOs after a vector `v` has entered that of each of the pins `ps`. -/
def Dev.Pushed (ps : List Nat) (v : Vec) (d e : Dev) : Prop := ∀ p, (e.pin p).fifo = if p ∈ ps then (d.pin p).fifo ++ [v] else (d.pin p).fifo

theorem Dev.pushes_spec (v : Vec) (ps : List Nat) (nodup : ps.Nodup) (d : Dev) :
    Dev.Pushed ps v d (ps.foldl (Dev.push v) d) ∧ (ps.foldl (Dev.push v) d).lanes = d.lanes ∧ (ps.foldl (Dev.push v) d).unplaced = d.unplaced := by
  refine ⟨fun p => ?_, foldl_keeps Dev.lanes _ _ d (fun _ _ _ => rfl), foldl_keeps Dev.unplaced _ _ d (fun _ _ _ => rfl)⟩
  refine foldl_once (v := fun d p => (Dev.pin d p).fifo) (g := Dev.push v) (G := fun _ f => f ++ [v]) (fun d p => ?_) (fun d p q hq => ?_) ps nodup d p
  · simp [Dev.push]
  · simp [Dev.push, hq]

/-- The repeated vector of each of the pins `ps` is forgotten. -/
def Dev.unrep (ps : List Nat) (d : Dev) : Dev := ps.foldl (fun d p => d.upPin p (fun P => { P with rep := none })) d

theorem Dev.unrep_spec (ps : List Nat) (d : Dev) :
    (∀ p, ((d.unrep ps).pin p).fifo = (d.pin p).fifo) ∧ (d.unrep ps).lanes = d.lanes ∧ (d.unrep ps).unplaced = d.unplaced := by
  refine ⟨fun p => foldl_keeps (fun d : Dev => (d.pin p).fifo) _ _ d (fun d q _ => ?_), foldl_keeps Dev.lanes _ _ d (fun _ _ _ => rfl),
    foldl_keeps Dev.unplaced _ _ d (fun _ _ _ => rfl)⟩
  rw [Dev.upPin_pin]
  split
  · subst_vars; rfl
  · rfl

/-- Between `d` and `e` lane `l`, at a word of opcode `op`, has placed one K vector or waits for room to do so. -/
structure Dev.PlacesK (l op : Nat) (d e : Dev) : Prop where
  others : ∀ k, k ≠ l → e.lane k = d.lane k
  rest : e.unplaced = d.unplaced
  fate : ((e.lane l).phase = .emit ∧ (e.lane l).wait = (d.lane l).wait ∧ ∀ p, (e.pin p).fifo = (d.pin p).fifo) ∨
    ((∃ v : Vec, v.code = Code.K ∧ v.bad = false ∧ Dev.Pushed (d.lanePins l) v d e) ∧
      (op = 0x11 ∨ op = 0x12 ∨ op = 0x13 → (e.lane l).phase = .wait ∧ (e.lane l).wait = (d.lane l).wait))

theorem Dev.LaneIs.placed {l : Nat} {L : Lane} {d e : Dev} (h : Dev.LaneIs l L d e) : e.unplaced = d.unplaced :=
  congrArg (fun d : Dev => { d with pins := [] }) h.view

/-- The last vector of a word that does not test a pass leaves a wait or ends the word. -/
theorem Dev.placed_spec {d : Dev} {l w : Nat} (native : (d.lane l).upc = none) (inside : nextWaddr w (d.lane l).waddr < (d.lane l).len) :
    (∀ k, k ≠ l → (d.placed l w).lane k = d.lane k) ∧ (d.placed l w).unplaced = d.unplaced ∧ (∀ p, ((d.placed l w).pin p).fifo = (d.pin p).fifo) ∧
      (wOp w = 0x11 ∨ wOp w = 0x12 ∨ wOp w = 0x13 → ((d.placed l w).lane l).phase = .wait ∧ ((d.placed l w).lane l).wait = (d.lane l).wait) := by
  unfold Dev.placed
  dsimp only
  obtain ⟨fifo, lanes, rest⟩ := d.unrep_spec (d.lanePins l)
  unfold Dev.unrep at fifo lanes rest
  generalize (d.lanePins l).foldl _ d = u at fifo lanes rest
  have own : u.lane l = d.lane l := Dev.lane_congr lanes l
  have up (f : Lane → Lane) : (∀ k, k ≠ l → (u.upLane l f).lane k = d.lane k) ∧ (u.upLane l f).unplaced = d.unplaced ∧
      (∀ p, ((u.upLane l f).pin p).fifo = (d.pin p).fifo) :=
    ⟨fun k hk => ((u.upLane_laneIs l f).others k hk).trans (Dev.lane_congr lanes k), rest, fifo⟩
  rw [own, if_neg (by simp [native])]
  split
  next pass =>
    obtain ⟨others, rest, fifo⟩ := up (fun L => { L with phase := .passEnd })
    exact ⟨others, rest, fifo, fun h => by omega⟩
  next =>
    split
    · obtain ⟨others, rest, fifo⟩ := up (fun L => { L with phase := .wait })
      exact ⟨others, rest, fifo, fun _ => by simp [own]⟩
    next ends =>
      obtain ⟨_, _, _, passed⟩ := Dev.wordTo_laneIs (d := u) (l := l) (t := nextWaddr w (d.lane l).waddr) (own ▸ native) (own ▸ inside) w 0
      rw [Dev.wordDone, own]
      have done := Dev.upLane_laneIs (u.wordTo l w (nextWaddr w (d.lane l).waddr) 0) l
        (fun L => { L with freeAt := max (d.lane l).freeAt L.freeAt, costs := (d.lane l).costs })
      have pins := congrArg Dev.pins (done.view.trans passed.view)
      exact ⟨fun k hk => (done.others k hk).trans ((passed.others k hk).trans (Dev.lane_congr lanes k)), (done.placed.trans passed.placed).trans rest,
        fun p => (congrArg Pin.fifo (Dev.pin_congr pins p)).trans (fifo p), fun h => absurd h ends⟩

/-- A sequencer that has one K vector left to place. -/
structure Lane.lastK (L : Lane) : Prop where
  phase : L.phase = .emit
  left : L.left = 1
  kind : L.kind = .k
  native : L.upc = none

/-- The lane when it has placed a vector. -/
def Lane.counts (L : Lane) (op : Nat) : Lane :=
  { L with left := L.left - 1, emitted := L.emitted + 1, wordVecs := L.wordVecs + 1, lastOp := op, seamNext := 0, gridNext := none
           ctlNext := [], marksNext := [], placeK := L.placeK + 1
           freeAt := max L.freeAt (L.placeT + (L.placeK / 4 + 1) * cycleTicks) }

theorem Dev.PlacesK.waiting {l op : Nat} {d : Dev} (phase : (d.lane l).phase = .emit) {f : Lane → Lane} (keep : ∀ L, (f L).phase = L.phase ∧ (f L).wait = L.wait) :
    Dev.PlacesK l op d (d.upLane l f) := by
  refine ⟨(d.upLane_laneIs l f).others, rfl, .inl ⟨?_, ?_, fun _ => rfl⟩⟩
  · simp [(keep _).1, phase]
  · simp [(keep _).2]

theorem Dev.place_lastK {m : Mems} {d : Dev} {l : Nat} (last : (d.lane l).lastK) (inside : Dev.nextOf m d l < (d.lane l).len) (k : Nat) :
    Dev.PlacesK l (wOp (Dev.curWord m d l)) d (Dev.place m l (k + 1) d) := by
  obtain ⟨phase, left, kind, native⟩ := last
  unfold Dev.place
  dsimp only
  split
  · split
    · rw [Dev.placePins_k kind]
      dsimp only
      obtain ⟨pushed, lanes, rest⟩ := Dev.pushes_spec ((d.lane l).kVec (Dev.word m d l (d.lane l).waddr)) _ (d.lanePins_nodup l) d
      generalize List.foldl _ d (d.lanePins l) = u at pushed lanes rest
      have own : (u.upLane l (fun L => L.counts (wOp (Dev.curWord m d l)))).lane l = (d.lane l).counts (wOp (Dev.curWord m d l)) := by
        simp [Dev.lane_congr lanes l]
      obtain ⟨others, rest', fifo, wait⟩ := Dev.placed_spec (d := u.upLane l (fun L => L.counts (wOp (Dev.curWord m d l)))) (l := l) (w := Dev.curWord m d l)
        (own ▸ native) (own ▸ inside)
      refine ⟨fun j hj => ?_, rest'.trans rest, .inr ⟨⟨_, rfl, rfl, fun p => (fifo p).trans (pushed p)⟩, fun h => ?_⟩⟩
      · exact ((others j hj).trans ((u.upLane_laneIs l _).others j hj)).trans (Dev.lane_congr lanes j)
      · exact ⟨(wait h).1, (wait h).2.trans (by rw [own]; rfl)⟩
    · exact .waiting phase fun _ => ⟨rfl, rfl⟩
  · exact ⟨fun _ _ => rfl, rfl, .inl ⟨phase, rfl, fun _ => rfl⟩⟩

/-! ### Before vector 0 -/

/-- Where no stream error stands at the head of a FIFO before vector 0, nothing acts at once. -/
def Dev.headsClean (d : Dev) (l : Nat) : Prop :=
  ∀ n, d.laneSite l = some n → (d.siteState n = SiteState.PREPARING ∨ d.siteState n = SiteState.ARMED) → d.badHeads (d.members n) = []

theorem Dev.badHeads_pushed {ps qs : List Nat} {v : Vec} {d e : Dev} (good : v.bad = false) (h : Dev.Pushed ps v d e) (clean : d.badHeads qs = []) :
    e.badHeads qs = [] := by
  unfold Dev.badHeads at *
  rw [List.filter_eq_nil_iff] at *
  intro q hq
  have old := clean q hq
  rw [h q]
  split
  · cases hf : (d.pin q).fifo with
    | nil => simp [good]
    | cons x t => simpa [hf] using old
  · exact old

theorem Dev.badHeads_congr {d e : Dev} (h : ∀ p, (e.pin p).fifo = (d.pin p).fifo) (qs : List Nat) : e.badHeads qs = d.badHeads qs := by
  unfold Dev.badHeads
  simp only [h]

theorem Dev.headsClean_congr {d e : Dev} (regs : e.regs = d.regs) (h : ∀ p, (e.pin p).fifo = (d.pin p).fifo) {l : Nat} (clean : d.headsClean l) : e.headsClean l := by
  intro n owner before
  rw [Dev.badHeads_congr h, Dev.members_congr (Dev.rd_congr regs _)]
  exact clean n (Dev.laneSite_congr regs l ▸ owner) (before.imp (Dev.rd_congr regs _ _).symm.trans (Dev.rd_congr regs _ _).symm.trans)

theorem Dev.PlacesK.regs {l op : Nat} {d e : Dev} (h : Dev.PlacesK l op d e) : e.regs = d.regs := by
  have same := congrArg Dev.regs h.rest
  exact same

theorem Dev.PlacesK.headsClean {l op : Nat} {d e : Dev} (h : Dev.PlacesK l op d e) (clean : d.headsClean l) : e.headsClean l := by
  have regs := h.regs
  obtain ⟨-, -, fifo⟩ | ⟨⟨v, -, good, pushed⟩, -⟩ := h.fate
  · exact Dev.headsClean_congr regs fifo clean
  · intro n owner before
    rw [Dev.members_congr (Dev.rd_congr regs _)]
    exact Dev.badHeads_pushed good pushed (clean n (Dev.laneSite_congr regs l ▸ owner) (before.imp (Dev.rd_congr regs _ _).symm.trans (Dev.rd_congr regs _ _).symm.trans))

theorem Dev.headsClean.quiet {d : Dev} {l n : Nat} (clean : d.headsClean l) (owner : d.laneSite l = some n) : d.earlyError n = d := by
  unfold Dev.earlyError
  exact if_neg (fun h => h.2 (clean n owner h.1))

/-- The word that a lane is at rests on the lane's place and window. -/
theorem Dev.curWord_congr {d e : Dev} (regs : e.regs = d.regs) {l : Nat} {L : Lane} (own : e.lane l = L) (waddr : L.waddr = (d.lane l).waddr)
    (upc : L.upc = (d.lane l).upc) (asOp : L.asOp = (d.lane l).asOp) (words : L.words = (d.lane l).words) (base : L.base = (d.lane l).base) (m : Mems) :
    Dev.curWord m e l = Dev.curWord m d l := by
  unfold Dev.curWord Dev.word Dev.localMode Dev.lanePin Lane.wordAt
  simp only [own, waddr, upc, asOp, words, base, Dev.lanePins_congr regs, Dev.rd_congr regs]

/-- The lane that begins to emit `n` vectors of a kind. -/
def Lane.emits (L : Lane) (kind : EmitKind) (n t : Nat) : Lane :=
  { L with phase := .emit, kind := kind, left := n, placeT := t, placeK := 0, held := false, heldData := none }

/-- A lane that begins to emit one K vector places it, or waits. -/
theorem Dev.emitFrom_lastK {m : Mems} {d : Dev} {l : Nat} (native : (d.lane l).upc = none)
    (inside : Dev.nextOf m d l < (d.lane l).len) (clean : d.headsClean l) (t : Nat) :
    Dev.PlacesK l (wOp (Dev.curWord m d l)) d (Dev.emitFrom m d l .k 1 t) := by
  unfold Dev.emitFrom Dev.feed
  dsimp only
  generalize hu : (d.upLane l _).upLane l _ = u
  have own : u.lane l = (d.lane l).emits .k 1 t := by simp [← hu, Lane.emits]
  have others : ∀ j, j ≠ l → u.lane j = d.lane j := fun j hj => by simp [← hu, hj]
  have rest : u.unplaced = d.unplaced := by rw [← hu]; rfl
  have pins : u.pins = d.pins := by rw [← hu]; rfl
  have regs : u.regs = d.regs := by rw [← hu]; rfl
  have word := Dev.curWord_congr regs own rfl rfl rfl rfl rfl m
  have next : Dev.nextOf m u l = Dev.nextOf m d l := by rw [Dev.nextOf, Dev.nextOf, word, own]; rfl
  obtain ⟨others', rest', fate⟩ := Dev.place_lastK (m := m) (d := u) (l := l) (by rw [own]; exact ⟨rfl, rfl, rfl, native⟩) (by rw [next, own]; exact inside) 63
  have quiet := fun n => ((show Dev.PlacesK _ _ u _ from ⟨others', rest', fate⟩).headsClean
    (Dev.headsClean_congr regs (fun p => by rw [Dev.pin_congr pins]) clean)).quiet (n := n)
  generalize Dev.place m l (63 + 1) u = v at others' rest' fate quiet
  have all : Dev.PlacesK l (wOp (Dev.curWord m d l)) d v := by
    refine ⟨fun j hj => (others' j hj).trans (others j hj), rest'.trans rest, ?_⟩
    simpa only [Dev.Pushed, own, Lane.emits, word, Dev.pin_congr pins, Dev.lanePins_congr regs] using fate
  split
  next n owner =>
    rw [quiet n ((Dev.laneSite_congr (all.regs) l).trans owner)]
    exact all
  · exact all

end Sys2Proof.Machine
end

section
/-!
PROOF. The decision cycle (R58, R59, R112 to R115, R125 to R129).
-/
namespace Sys2Proof.Machine

/-! ### What a decision may write -/

/-- Between `d` and `e` no lane but `l` has changed, and no register but what leaves the block writes. -/
def Dev.Decides (l : Nat) (d e : Dev) : Prop := (∀ j, j ≠ l → e.lane j = d.lane j) ∧ d.keepsFields e emitFields

theorem Dev.Decides.trans {l : Nat} {d e f : Dev} (h : Dev.Decides l d e) (k : Dev.Decides l e f) : Dev.Decides l d f :=
  ⟨fun j hj => (k.1 j hj).trans (h.1 j hj), fun g i hg => (k.2 g i hg).trans (h.2 g i hg)⟩

theorem Dev.WordEmits.decides {l : Nat} {d e : Dev} (h : Dev.WordEmits l d e) : Dev.Decides l d e := ⟨h.others, h.rd⟩

theorem Dev.LaneIs.decides {l : Nat} {L : Lane} {d e : Dev} (h : Dev.LaneIs l L d e) : Dev.Decides l d e := h.word.decides

theorem Dev.decides_of_units {d e : Dev} (regs : e.regs = d.regs) (lanes : e.lanes = d.lanes) (l : Nat) : Dev.Decides l d e :=
  ⟨fun j _ => Dev.lane_congr lanes j, fun f i _ => Dev.rd_congr regs f i⟩

theorem Dev.decides_of_quiet {d e : Dev} (quiet : e.quiet = d.quiet) (l : Nat) : Dev.Decides l d e := by
  have lanes := congrArg Dev.lanes (congrArg Prod.snd quiet)
  exact ⟨fun j _ => Dev.lane_congr lanes j, Dev.keepsFields_mono (Dev.keepsFields_of_quiet quiet) (by decide)⟩

theorem Dev.lane_of_quiet {d e : Dev} (quiet : e.quiet = d.quiet) (l : Nat) : e.lane l = d.lane l := by
  have lanes := congrArg Dev.lanes (congrArg Prod.snd quiet)
  exact Dev.lane_congr lanes l

/-! ### Conditions do not rest on the sequencers -/

theorem Dev.condWord_congr {d e : Dev} (regs : e.regs = d.regs) (active : e.active = d.active) (n : Nat) (es : List CondEv) : e.condWord n es = d.condWord n es := by
  unfold Dev.condWord Dev.condsOf Dev.mapped Dev.spanWide Dev.inSpan Dev.act
  simp only [Dev.rd_congr regs, active]

theorem Dev.condTo_congr (n cy k : Nat) {d e : Dev} (regs : e.regs = d.regs) (active : e.active = d.active) (sites : e.sites = d.sites) :
    Dev.condTo e n cy k = Dev.condTo d n cy k := by
  induction k generalizing d e with
  | zero => exact Dev.rd_congr regs _ _
  | succ k ih =>
    unfold Dev.condTo
    dsimp only
    rw [Dev.site_congr sites]
    split
    · exact Dev.rd_congr regs _ _
    · refine ih ?_ active ?_
      · simp only [Dev.wr, Dev.upSite, regs, Dev.condWord_congr regs active]
      · simp only [Dev.wr, Dev.upSite, sites, Dev.site_congr sites]

theorem Dev.cond_congr {d e : Dev} (regs : e.regs = d.regs) (active : e.active = d.active) (sites : e.sites = d.sites) (n c t : Nat) :
    e.cond n c t = d.cond n c t := by
  unfold Dev.cond Dev.condAt
  rw [Dev.site_congr sites, Dev.condTo_congr _ _ _ regs active sites]

/-! ### What each word does (R125, R128, R129, R58, R126) -/

/-- Lane `l` of site `n` decides on its word `w`, whose next word is within the program. -/
structure Dev.Deciding (d : Dev) (l n w : Nat) : Prop where
  owner : d.laneSite l = some n
  native : (d.lane l).upc = none
  inside : nextWaddr w (d.lane l).waddr < (d.lane l).len

theorem Dev.Deciding.done {d : Dev} {l n w : Nat} (h : d.Deciding l n w) :
    ∃ at_ c k, Dev.LaneIs l ((d.lane l).passed (nextWaddr w (d.lane l).waddr) at_ c k).counted d ((d.wordDone l w 2).groupDone l) :=
  Dev.wordTo_counted h.native h.inside w 2

theorem Dev.LaneIs.next {l t at_ c k : Nat} {L : Lane} {d e : Dev} (h : Dev.LaneIs l (L.passed t at_ c k).counted d e) : e.atNext l t := by
  obtain ⟨_, _, own⟩ := h.lane
  rw [Dev.atNext, own]
  exact ⟨rfl, rfl, rfl, rfl, rfl⟩

/-- BRANCH on a site condition. -/
theorem Dev.decideBranch {d : Dev} {l n w : Nat} (h : d.Deciding l n w) (running : (d.lane l).emitted ≠ 0) (word : wOp w = 0x0D) (m : Mems) (S a : Nat) :
    Dev.Decides l d ((Dev.decideWord m d l w S a).groupDone l) ∧
      (targetFault (d.lane l).len (d.lane l).waddr (wA32 w) = none → ((Dev.decideWord m d l w S a).groupDone l).atNext l
        (if d.cond n (bits (wA16 w) 0 5) a == bitAt (wA16 w) 5 then wA32 w else nextWaddr w (d.lane l).waddr)) := by
  unfold Dev.decideWord
  simp only [word, h.owner, Option.getD_some]
  split
  · unfold Dev.wordJump
    split
    next v bad =>
      rw [Dev.laneFault_later running]
      exact ⟨(d.upLane_laneIs l (fun L => { L with fault := some v })).decides.trans (Dev.groupDone_laneIs _ l).decides, fun h => by simp [bad] at h⟩
    next fine =>
      obtain ⟨_, _, _, passed⟩ := Dev.wordTo_counted h.native (lt_of_targetFault fine) w 2
      exact ⟨passed.decides, fun _ => passed.next⟩
  · obtain ⟨_, _, _, passed⟩ := h.done
    exact ⟨passed.decides, fun _ => passed.next⟩

/-- The event that SETC puts into the queue of site `n`. -/
def Dev.setcEvent (d : Dev) (n k : Nat) (v : Bool) (a : Nat) : CondEv :=
  if d.spanWide n k then ⟨cycleAfter (a + ns (d.rd .SITE_SPAN_LAT_LAT n)), 256 + k, v, true, a⟩ else ⟨cycleAfter (a + ns 96), 256 + k, v, false, a⟩

theorem Dev.postSetc_spec (d : Dev) (n k : Nat) (v : Bool) (a : Nat) : (d.postSetc n k v a).quiet = d.quiet ∧
    ((d.postSetc n k v a).site n).conds = (d.site n).conds ++ [d.setcEvent n k v a] := by
  unfold Dev.postSetc Dev.setcEvent
  split
  · refine ⟨d.spanCond_quiet .., ?_⟩
    simp only [Dev.spanCond, Dev.queueCond, Dev.upSite_site, if_true, Dev.site_congr (Dev.originate_sites d _) n]
  · refine ⟨(Dev.up_quiet _).1 n _, ?_⟩
    simp only [Dev.queueCond, Dev.upSite_site, if_true]

/-- A sequencer that another unit was told something by passes to the next word. -/
theorem Dev.Deciding.quietDone {d e : Dev} {l n w : Nat} (h : d.Deciding l n w) (quiet : e.quiet = d.quiet) :
    ∃ at_ c k, Dev.LaneIs l ((d.lane l).passed (nextWaddr w (d.lane l).waddr) at_ c k).counted e ((e.wordDone l w 2).groupDone l) := by
  have own := Dev.lane_of_quiet quiet l
  unfold Dev.wordDone
  rw [← own]
  exact Dev.wordTo_counted (own ▸ h.native) (own ▸ h.inside) w 2

/-- SETC. -/
theorem Dev.decideSetc {d : Dev} {l n w : Nat} (h : d.Deciding l n w) (word : wOp w = 0x18) (m : Mems) (S a : Nat) :
    Dev.Decides l d ((Dev.decideWord m d l w S a).groupDone l) ∧ ((Dev.decideWord m d l w S a).groupDone l).atNext l (nextWaddr w (d.lane l).waddr) ∧
      (((Dev.decideWord m d l w S a).groupDone l).site n).conds = (d.site n).conds ++ [d.setcEvent n (bits (wA16 w) 0 5) (bitAt (wA16 w) 5) a] := by
  unfold Dev.decideWord
  simp only [word, h.owner, Option.getD_some]
  obtain ⟨quiet, conds⟩ := d.postSetc_spec n (bits (wA16 w) 0 5) (bitAt (wA16 w) 5) a
  obtain ⟨_, _, _, passed⟩ := h.quietDone quiet
  have sites := congrArg Dev.sites passed.view
  exact ⟨(Dev.decides_of_quiet quiet l).trans passed.decides, passed.next, (congrArg Site.conds (Dev.site_congr sites n)).trans conds⟩

theorem Dev.signal_signals (d : Dev) (k : SigKind) (t u i : Nat) (b : Bool) : (d.signal k t u i b).signals = ⟨d.sigNo, k, t, u, i, b⟩ :: d.signals := by
  unfold Dev.signal
  dsimp only
  refine foldl_keeps Dev.signals _ _ _ (fun d w _ => ?_)
  split <;> rfl

theorem Dev.marker_spec (d : Dev) (n l k S : Nat) : (d.marker n l k S).quiet = d.quiet ∧
    ∃ i, ⟨i, .mark, S + (if d.inSpan n then ns (d.rd .SITE_SPAN_LAT_LAT n) else 0), n, k, true⟩ ∈ (d.marker n l k S).signals := by
  have sent (e : Dev) (t : Nat) : ∃ i, ⟨i, .mark, t, n, k, true⟩ ∈ (e.signal .mark t n k true).signals :=
    ⟨e.sigNo, by rw [Dev.signal_signals]; exact List.mem_cons_self⟩
  unfold Dev.marker
  dsimp only
  split
  · split
    · exact ⟨(d.signal_quiet ..).1, sent d _⟩
    · exact ⟨(Dev.signal_quiet ..).1.trans (d.originate_quiet _), sent _ _⟩
  · exact ⟨(d.signal_quiet ..).1, sent d _⟩

/-- MARK. -/
theorem Dev.decideMark {d : Dev} {l n w : Nat} (h : d.Deciding l n w) (word : wOp w = 0x1A) (m : Mems) (S a : Nat) :
    Dev.Decides l d ((Dev.decideWord m d l w S a).groupDone l) ∧ ((Dev.decideWord m d l w S a).groupDone l).atNext l (nextWaddr w (d.lane l).waddr) ∧
      ∃ i, ⟨i, .mark, S + (if d.inSpan n then ns (d.rd .SITE_SPAN_LAT_LAT n) else 0), n, bits (wA16 w) 0 4, true⟩ ∈
        ((Dev.decideWord m d l w S a).groupDone l).signals := by
  unfold Dev.decideWord
  simp only [word, h.owner, Option.getD_some]
  obtain ⟨quiet, sent⟩ := d.marker_spec n l (bits (wA16 w) 0 4) S
  obtain ⟨_, _, _, passed⟩ := h.quietDone quiet
  have signals := congrArg Dev.signals passed.view
  exact ⟨(Dev.decides_of_quiet quiet l).trans passed.decides, passed.next, by
    obtain ⟨i, hi⟩ := sent
    exact ⟨i, signals.symm ▸ hi⟩⟩

/-! ### RDV -/

/-- What a lane asks for at the boundary before an RDV hold. -/
def Lane.restsAt (L : Lane) (S g : Nat) : Lane :=
  { L with gridNext := some g, rests := L.rests ++ (if L.seamNext = 0 then [] else [(S, L.seamNext)]), seamNext := 0, marksNext := [] }

/-- A rendezvous that is missed, met, or waited for. -/
theorem Dev.decideRdv {d : Dev} {l n w : Nat} (h : d.Deciding l n w) (running : (d.lane l).emitted ≠ 0) (word : wOp w = 0x14) (m : Mems) (S a : Nat) :
    let e := (Dev.decideWord m d l w S a).groupDone l
    Dev.Decides l d e ∧
      match gridPointOf ((d.site n).start.getD 0) (d.rd .SITE_GRID_PERIOD n) S (bitAt (wA16 w) 0) (wA32 w) with
      | none => (e.lane l).fault = some missCode
      | some g => e.atNext l (nextWaddr w (d.lane l).waddr) ∧ (e.lane l).gridNext = (if g = S then (d.lane l).gridNext else some g) ∧
          (e.lane l).rests = (d.lane l).rests ++ (if g = S ∨ (d.lane l).seamNext = 0 then [] else [(S, (d.lane l).seamNext)]) := by
  dsimp only
  unfold Dev.decideWord
  simp only [word, h.owner, Option.getD_some]
  cases gridPointOf ((d.site n).start.getD 0) (d.rd .SITE_GRID_PERIOD n) S (bitAt (wA16 w) 0) (wA32 w) with
  | none =>
    dsimp only
    rw [Dev.laneFault_later running]
    have missed := d.upLane_laneIs l (fun L => { L with fault := some missCode })
    obtain ⟨_, _, own⟩ := missed.lane
    obtain ⟨_, _, own'⟩ := (Dev.groupDone_laneIs (d.upLane l (fun L => { L with fault := some missCode })) l).lane
    exact ⟨missed.decides.trans (Dev.groupDone_laneIs _ l).decides, by rw [own', own]; rfl⟩
  | some g =>
    dsimp only
    split
    next met =>
      obtain ⟨_, _, _, passed⟩ := h.done
      obtain ⟨_, _, own⟩ := passed.lane
      exact ⟨passed.decides, passed.next, by rw [own]; rfl, by rw [own, if_pos (.inl met), List.append_nil]; rfl⟩
    next later =>
      generalize hm : (d.lane l).marksNext.foldl _ d = u
      have marked : Dev.Emits d u := hm ▸ Dev.Emits.foldl (fun d k => d.marker_emits n l k S) _ d
      generalize hv : u.upLane l _ = v
      have kept : Dev.Decides l u v := hv ▸ (u.upLane_laneIs l _).decides
      have own : v.lane l = (d.lane l).restsAt S g := by
        rw [← hv, Dev.upLane_lane, if_pos rfl, marked.lane l]
        rfl
      have rested := v.restPins_emits l g
      have own' := (rested.lane l).trans own
      obtain ⟨_, _, _, passed⟩ := Dev.wordTo_counted (d := v.restPins l g) (l := l) (t := nextWaddr w (d.lane l).waddr) (own' ▸ h.native) (own' ▸ h.inside) w 2
      rw [Dev.wordDone, show ((v.restPins l g).lane l).waddr = (d.lane l).waddr by rw [own']; rfl]
      obtain ⟨_, _, lane⟩ := passed.lane
      rw [own'] at lane
      refine ⟨((marked.word l).decides.trans kept).trans ((rested.word l).decides.trans passed.decides), passed.next, ?_, ?_⟩
      · rw [lane]; rfl
      · simp only [lane, later, false_or]; rfl

/-! ### Waits -/

theorem Dev.seqNote_spec (d : Dev) (l v : Nat) : (d.seqNote l v).regs = d.regs ∧ (d.seqNote l v).lanes = d.lanes ∧ (d.seqNote l v).pins = d.pins := by
  unfold Dev.seqNote
  split
  · split
    · split
      · unfold Dev.raiseLow
        dsimp only
        split <;> exact ⟨rfl, rfl, rfl⟩
      · exact ⟨rfl, rfl, rfl⟩
    · exact ⟨rfl, rfl, rfl⟩
  · exact ⟨rfl, rfl, rfl⟩

/-- The lane with its first decision at `first`. -/
def Lane.firstDecided (first : Nat) (L : Lane) : Lane := { L with firstAt := some first }

/-- One decision of a wait, or of another word that holds. -/
theorem Dev.waitDecide_spec {m : Mems} {d : Dev} {l n : Nat} (h : d.Deciding l n (Dev.curWord m d l)) (clean : d.headsClean l) (S a : Nat) :
    let w := Dev.curWord m d l
    let e := Dev.waitDecide m d l n w S a
    let free := d.releases n w S a ((d.lane l).firstAt.getD a)
    let ended := (wOp w = 0x11 ∨ wOp w = 0x12) ∧ wA32 w ≠ 0 ∧ wA32 w ≤ (d.lane l).wait
    Dev.Decides l d e ∧ (free = true → (e.lane l).phase = .released) ∧ (free = false → ended → (e.lane l).phase = .timedOut) ∧
      (free = false → ¬ended → wOp w = 0x11 ∨ wOp w = 0x12 ∨ wOp w = 0x13 → (e.lane l).wait = (d.lane l).wait + 1 ∧ ∀ p, p ∈ d.lanePins l →
        ((e.lane l).phase = .emit ∧ (e.pin p).fifo = (d.pin p).fifo ∨
          (e.lane l).phase = .wait ∧ ∃ v : Vec, (e.pin p).fifo = (d.pin p).fifo ++ [v] ∧ v.code = Code.K)) := by
  intro w e free ended
  have noted : ∃ u : Dev, u.regs = d.regs ∧ u.lanes = d.lanes ∧ u.pins = d.pins ∧
      (if wOp w = 0x13 && (d.lane l).firstAt.isNone && decide (waitTarget ((d.site n).start.getD 0) w < S) then d.seqNote l 13 else d) = u := by
    split
    · exact ⟨_, (d.seqNote_spec l 13).1, (d.seqNote_spec l 13).2.1, (d.seqNote_spec l 13).2.2, rfl⟩
    · exact ⟨d, rfl, rfl, rfl, rfl⟩
  obtain ⟨u, regs, lanes, pins, hu⟩ := noted
  let first := (d.lane l).firstAt.getD a
  have decided (f : Lane → Lane) : Dev.Decides l d ((u.upLane l (Lane.firstDecided first)).upLane l f) ∧
      ((u.upLane l (Lane.firstDecided first)).upLane l f).lane l = f ((d.lane l).firstDecided first) := by
    refine ⟨(Dev.decides_of_units regs lanes l).trans ((u.upLane_laneIs l _).decides.trans (Dev.upLane_laneIs _ l f).decides), ?_⟩
    simp [Dev.lane_congr lanes l]
  have he : e = if free then (u.upLane l (Lane.firstDecided first)).upLane l (fun L => { L with phase := .released })
      else if ended then (u.upLane l (Lane.firstDecided first)).upLane l (fun L => { L with phase := .timedOut })
      else Dev.emitFrom m ((u.upLane l (Lane.firstDecided first)).upLane l (fun L => { L with wait := L.wait + 1 })) l .k 1 a := by
    rw [← hu]; rfl
  by_cases hf : free = true
  · rw [he, if_pos hf]
    obtain ⟨all, own⟩ := decided (fun L => { L with phase := .released })
    exact ⟨all, fun _ => by rw [own], fun h => by simp [hf] at h, fun h => by simp [hf] at h⟩
  rw [if_neg hf] at he
  by_cases ends : ended
  · rw [he, if_pos ends]
    obtain ⟨all, own⟩ := decided (fun L => { L with phase := .timedOut })
    exact ⟨all, fun h => absurd h hf, fun _ _ => by rw [own], fun _ h => absurd ends h⟩
  rw [if_neg ends] at he
  obtain ⟨all, own⟩ := decided (fun L => { L with wait := L.wait + 1 })
  generalize hv : (u.upLane l (Lane.firstDecided first)).upLane l _ = v at all own he
  have vregs : v.regs = d.regs := by rw [← hv]; exact regs
  have vpins : v.pins = d.pins := by rw [← hv]; exact pins
  have word : Dev.curWord m v l = w := Dev.curWord_congr vregs own rfl rfl rfl rfl rfl m
  have placed := Dev.emitFrom_lastK (m := m) (d := v) (l := l) (own ▸ h.native) (by rw [Dev.nextOf, word, own]; exact h.inside)
    (Dev.headsClean_congr vregs (fun p => by rw [Dev.pin_congr vpins]) clean) a
  rw [← he, word] at placed
  refine ⟨all.trans ⟨placed.others, fun f i _ => Dev.rd_congr placed.regs f i⟩, fun h => absurd h hf, fun _ h => absurd h ends, fun _ _ waits => ?_⟩
  obtain ⟨phase, wait, fifo⟩ | ⟨⟨x, code, -, pushed⟩, wait⟩ := placed.fate
  · exact ⟨by rw [wait, own]; rfl, fun p _ => .inl ⟨phase, by rw [fifo p, Dev.pin_congr vpins]⟩⟩
  · refine ⟨by rw [(wait waits).2, own]; rfl, fun p hp => .inr ⟨(wait waits).1, x, ?_, code⟩⟩
    rw [pushed p, if_pos (by rw [Dev.lanePins_congr vregs]; exact hp), Dev.pin_congr vpins]

/-! ### The decision cycle -/

/-- The lane with its word in the group of boundary `S`, which has acted by `at_`. -/
def Lane.grouped (S at_ : Nat) (L : Lane) : Lane := { L with groupS := some S, groupAt := at_ }

theorem Dev.dueS_word {m : Mems} {d : Dev} {l S w : Nat} {ph : Phase → Bool} (h : Dev.dueS m d l ph = some (S, w)) : w = Dev.curWord m d l := by
  unfold Dev.dueS at h
  dsimp only at h
  split at h
  · split at h
    · simp only [Option.some.injEq, Prod.mk.injEq] at h
      exact h.2.symm
    · exact absurd h (by simp)
  · exact absurd h (by simp)

theorem Dev.releases_congr {d e : Dev} (regs : e.regs = d.regs) (active : e.active = d.active) (sites : e.sites = d.sites) (trigAt : e.trigAt = d.trigAt)
    (n w S a first : Nat) : e.releases n w S a first = d.releases n w S a first := by
  unfold Dev.releases
  simp only [Dev.cond_congr regs active sites, Dev.site_congr sites, trigAt]

/-- A decision that the lane's group cannot make in time is a fault of the word. -/
theorem Dev.decision_late {m : Mems} {d : Dev} {l S w : Nat} (due : Dev.dueS m d l (fun p => p == .sync || p == .wait) = some (S, w))
    (late : (decide ((d.lane l).phase = .sync) && d.dwells l w S) = true) (running : (d.lane l).emitted ≠ 0) :
    Dev.decision m d l = d.upLane l (fun L => { L with fault := some 7 }) := by
  unfold Dev.decision
  rw [due]
  dsimp only
  rw [if_pos (by simpa using late), Dev.laneFault_later running]

/-- A decision in time is what its word does, in the group of its boundary. -/
theorem Dev.decision_timely {m : Mems} {d : Dev} {l S w : Nat} (due : Dev.dueS m d l (fun p => p == .sync || p == .wait) = some (S, w))
    (late : (decide ((d.lane l).phase = .sync) && d.dwells l w S) = false) :
    ∃ at_, Dev.decision m d l = (Dev.decideWord m (d.upLane l (Lane.grouped S at_)) l w S (d.actAt l S)).groupDone l := by
  unfold Dev.decision
  rw [due]
  dsimp only
  rw [if_neg (by simpa using late)]
  exact ⟨_, rfl⟩

/-- What the decision of a wait leaves the sequencer as (R126, R127). -/
def Dev.waitsAs (d e : Dev) (l n S w : Nat) : Prop :=
  let a := d.actAt l S
  let free := d.releases n w S a ((d.lane l).firstAt.getD a)
  let ended := wOp w ≠ 0x13 ∧ wA32 w ≠ 0 ∧ wA32 w ≤ (d.lane l).wait
  (free = true → (e.lane l).phase = .released) ∧ (free = false → ended → (e.lane l).phase = .timedOut) ∧
    (free = false → ¬ended → (e.lane l).wait = (d.lane l).wait + 1 ∧ ∀ p, p ∈ d.lanePins l →
      ((e.lane l).phase = .emit ∧ (e.pin p).fifo = (d.pin p).fifo ∨
        (e.lane l).phase = .wait ∧ ∃ v : Vec, (e.pin p).fifo = (d.pin p).fifo ++ [v] ∧ v.code = Code.K))

theorem Dev.decideWait {m : Mems} {d u : Dev} {l n S w at_ : Nat} (hu : d.upLane l (Lane.grouped S at_) = u) (own : w = Dev.curWord m d l)
    (h : u.Deciding l n w) (clean : d.headsClean l) (word : wOp w ∉ [0x0D, 0x18, 0x1A, 0x14]) :
    Dev.Decides l d ((Dev.decideWord m u l w S (d.actAt l S)).groupDone l) ∧
      (wOp w = 0x11 ∨ wOp w = 0x12 ∨ wOp w = 0x13 → d.waitsAs ((Dev.decideWord m u l w S (d.actAt l S)).groupDone l) l n S w) := by
  have grouped : Dev.Decides l d u := hu ▸ (d.upLane_laneIs l _).decides
  have lane : u.lane l = (d.lane l).grouped S at_ := by simp [← hu]
  have regs : u.regs = d.regs := by rw [← hu]; rfl
  have pins : u.pins = d.pins := by rw [← hu]; rfl
  have word' : w = Dev.curWord m u l := own.trans (Dev.curWord_congr regs lane rfl rfl rfl rfl rfl m).symm
  have released := Dev.releases_congr (d := d) (e := u) regs (by rw [← hu]; rfl) (by rw [← hu]; rfl) (by rw [← hu]; rfl) n w S (d.actAt l S)
  have decided := Dev.waitDecide_spec (m := m) (d := u) (l := l) (n := n) (word' ▸ h) (Dev.headsClean_congr regs (fun p => by rw [Dev.pin_congr pins]) clean) S (d.actAt l S)
  have firstAt : (u.lane l).firstAt = (d.lane l).firstAt := by rw [lane]; rfl
  have wait : (u.lane l).wait = (d.lane l).wait := by rw [lane]; rfl
  rw [← word'] at decided
  simp only [released, firstAt, wait, Dev.lanePins_congr regs, Dev.pin_congr pins] at decided
  have he : Dev.decideWord m u l w S (d.actAt l S) = Dev.waitDecide m u l n w S (d.actAt l S) := by
    unfold Dev.decideWord
    simp only [List.mem_cons, List.not_mem_nil, or_false, not_or] at word
    obtain ⟨branch, setc, mark, rdv⟩ := word
    simp only [h.owner, Option.getD_some]
  rw [he]
  generalize Dev.waitDecide m u l n w S (d.actAt l S) = v at decided
  obtain ⟨all, free, ended, again⟩ := decided
  obtain ⟨_, _, done⟩ := (v.groupDone_laneIs l).lane
  have same : ((v.groupDone l).lane l).phase = (v.lane l).phase ∧ ((v.groupDone l).lane l).wait = (v.lane l).wait := by rw [done]; exact ⟨rfl, rfl⟩
  have pins' : (v.groupDone l).pins = v.pins := rfl
  refine ⟨(grouped.trans all).trans (v.groupDone_laneIs l).decides, fun waits => ?_⟩
  have kinds : (wOp w ≠ 0x13) ↔ (wOp w = 0x11 ∨ wOp w = 0x12) := by omega
  simp only [Dev.waitsAs, same, Dev.pin_congr pins', kinds]
  exact ⟨free, ended, fun hf he => again hf he waits⟩

/-- What the decision of a word that is not a wait leaves (R58, R125, R128, R129). -/
structure Dev.DecidesAs (d e : Dev) (l n S w t : Nat) : Prop where
  decides : Dev.Decides l d e
  branch : wOp w = 0x0D → targetFault (d.lane l).len (d.lane l).waddr (wA32 w) = none →
    e.atNext l (if d.cond n (bits (wA16 w) 0 5) (d.actAt l S) == bitAt (wA16 w) 5 then wA32 w else t)
  setc : wOp w = 0x18 → e.atNext l t ∧ (e.site n).conds = (d.site n).conds ++ [d.setcEvent n (bits (wA16 w) 0 5) (bitAt (wA16 w) 5) (d.actAt l S)]
  mark : wOp w = 0x1A → e.atNext l t ∧ ∃ i, ⟨i, .mark, S + (if d.inSpan n then ns (d.rd .SITE_SPAN_LAT_LAT n) else 0), n, bits (wA16 w) 0 4, true⟩ ∈ e.signals
  rdv : wOp w = 0x14 → match gridPointOf ((d.site n).start.getD 0) (d.rd .SITE_GRID_PERIOD n) S (bitAt (wA16 w) 0) (wA32 w) with
    | none => (e.lane l).fault = some missCode
    | some g => e.atNext l t ∧ (e.lane l).gridNext = (if g = S then (d.lane l).gridNext else some g) ∧
        (e.lane l).rests = (d.lane l).rests ++ (if g = S ∨ (d.lane l).seamNext = 0 then [] else [(S, (d.lane l).seamNext)])
  waits : wOp w = 0x11 ∨ wOp w = 0x12 ∨ wOp w = 0x13 → d.waitsAs e l n S w

theorem Dev.decision_spec {m : Mems} {d : Dev} {l n S w : Nat} (owner : d.laneSite l = some n)
    (due : Dev.dueS m d l (fun p => p == .sync || p == .wait) = some (S, w)) (native : (d.lane l).upc = none)
    (inside : Dev.nextOf m d l < (d.lane l).len) (clean : d.headsClean l) (late : (decide ((d.lane l).phase = .sync) && d.dwells l w S) = false)
    (possible : (d.lane l).emitted ≠ 0 ∨ wOp w ∈ [0x11, 0x12, 0x13, 0x18, 0x1A]) : d.DecidesAs (Dev.decision m d l) l n S w (Dev.nextOf m d l) := by
  obtain ⟨at_, timely⟩ := Dev.decision_timely due late
  rw [timely]
  have own := Dev.dueS_word due
  have next : Dev.nextOf m d l = nextWaddr w (d.lane l).waddr := by rw [own]; rfl
  generalize hu : d.upLane l (Lane.grouped S at_) = u
  have grouped : Dev.Decides l d u := hu ▸ (d.upLane_laneIs l _).decides
  have lane : u.lane l = (d.lane l).grouped S at_ := by simp [← hu]
  have regs : u.regs = d.regs := by rw [← hu]; rfl
  have active : u.active = d.active := by rw [← hu]; rfl
  have sites : u.sites = d.sites := by rw [← hu]; rfl
  have emitted : (u.lane l).emitted = (d.lane l).emitted := by rw [lane]; rfl
  have waddr : (u.lane l).waddr = (d.lane l).waddr := by rw [lane]; rfl
  have len : (u.lane l).len = (d.lane l).len := by rw [lane]; rfl
  have deciding : u.Deciding l n w := ⟨(Dev.laneSite_congr regs l).trans owner, by rw [lane]; exact native, by rw [waddr, len, ← next]; exact inside⟩
  rw [next]
  by_cases branch : wOp w = 0x0D
  · obtain ⟨all, jumps⟩ := Dev.decideBranch deciding (by rw [emitted]; exact possible.resolve_right (by simp [branch])) branch m S (d.actAt l S)
    rw [len, waddr, Dev.cond_congr regs active sites] at jumps
    exact ⟨grouped.trans all, fun _ => jumps, by omega, by omega, by omega, by omega⟩
  by_cases setc : wOp w = 0x18
  · obtain ⟨all, at_, conds⟩ := Dev.decideSetc deciding setc m S (d.actAt l S)
    rw [waddr] at at_
    rw [Dev.site_congr sites] at conds
    refine ⟨grouped.trans all, by omega, fun _ => ⟨at_, conds.trans ?_⟩, by omega, by omega, by omega⟩
    rw [← hu]; rfl
  by_cases mark : wOp w = 0x1A
  · obtain ⟨all, at_, sent⟩ := Dev.decideMark deciding mark m S (d.actAt l S)
    rw [waddr] at at_
    refine ⟨grouped.trans all, by omega, by omega, fun _ => ⟨at_, ?_⟩, by omega, by omega⟩
    unfold Dev.inSpan at sent ⊢
    simpa only [Dev.rd_congr regs] using sent
  by_cases rdv : wOp w = 0x14
  · obtain ⟨all, point⟩ := Dev.decideRdv deciding (by rw [emitted]; exact possible.resolve_right (by simp [rdv])) rdv m S (d.actAt l S)
    have gridNext : (u.lane l).gridNext = (d.lane l).gridNext := by rw [lane]; rfl
    have rests : (u.lane l).rests = (d.lane l).rests ∧ (u.lane l).seamNext = (d.lane l).seamNext := by rw [lane]; exact ⟨rfl, rfl⟩
    rw [Dev.site_congr sites, Dev.rd_congr regs, waddr, gridNext, rests.1, rests.2] at point
    exact ⟨grouped.trans all, by omega, by omega, by omega, fun _ => point, by omega⟩
  · obtain ⟨all, waits⟩ := Dev.decideWait hu own deciding clean (by simp [branch, setc, mark, rdv])
    exact ⟨all, fun h => absurd h branch, fun h => absurd h setc, fun h => absurd h mark, fun h => absurd h rdv, waits⟩

end Sys2Proof.Machine

open Sys2Proof Sys2Proof.Machine

/-- Settles O32: a decision too late is a fault; one in time is what its word does, in the group of its boundary. -/
theorem decisionCycleActsOnItsWord : Obligations.DecisionCycleActsOnItsWord := by
  intro s l n S w hl owner due native inside clean late possible a k
  refine acts_onDevM rfl (decide_eq_true hl) ?_
  have heads : s.dev.headsClean l := fun j hj => (Option.some.inj (owner.symm.trans hj)) ▸ clean
  by_cases hlate : late = true
  · have running : (s.dev.lane l).emitted ≠ 0 := by simpa [hlate] using possible
    rw [Dev.decision_late due hlate running]
    have frame := (s.dev.upLane_laneIs l (fun L => { L with fault := some 7 })).decides
    simp only [hlate]
    exact ⟨frame.1, fun _ => ⟨by simp, fun _ _ _ => rfl⟩, by simp, by simp, by simp, by simp, by simp, frame.2⟩
  · have timely : late = false := by simpa using hlate
    obtain ⟨decides, branch, setc, mark, rdv, waits⟩ := Dev.decision_spec owner due native inside heads timely (possible.imp_right And.right)
    exact ⟨decides.1, fun h => absurd h hlate, fun _ => branch, fun _ => setc, fun _ => mark, fun _ => rdv, fun _ => waits, decides.2⟩

end

section
/-!
PROOF. RESUME (R50, R53, R138, R169, R196, R303, R418).
-/
namespace Sys2Proof.Machine

/-- A RESUME that is decided at once. -/
theorem Dev.resume_refused {d : Dev} {id : Nat} {x : Entry} (hx : d.open? id 0x23 = some x) (st : Nat) :
    d.keepsBut (d.finish id st 0) [] ∧ d.entriesBut (d.finish id st 0) id ∧ (d.finish id st 0).sites = d.sites ∧ (d.finish id st 0).decided id st := by
  obtain ⟨entry, undone⟩ := Dev.open_entry hx
  obtain ⟨decided, others⟩ := Dev.finish_decided entry undone st 0
  exact ⟨fun _ _ _ => rfl, others, rfl, decided⟩

theorem resume_acts (s : State) (id : Nat) (x : Entry) (hx : s.dev.open? id 0x23 = some x) (fresh : x.started = false) (turn : s.dev.behind x = false)
    (free : (s.dev.members (descTarget x.desc)).all (fun p => !(s.dev.pin p).forced) = true) :
    let n := descTarget x.desc
    let mode := descField x.desc 8 0 2
    let t := s.dev.startTime (descField x.desc 16 0 64)
    Acts (.resume id) s (fun e => s.dev.keepsBut e [] ∧ s.dev.entriesBut e id ∧ (∀ m, m ≠ n → e.site m = s.dev.site m) ∧
      ((s.dev.siteState n ≠ SiteState.PAUSED ∨ 2 ≤ mode) → e.decided id Status.INVALID) ∧
      (s.dev.siteState n = SiteState.PAUSED → mode < 2 → (s.dev.site n).resume = none →
        (s.dev.hot = true → e.decided id Status.UNIT_DOWN) ∧
        (s.dev.hot = false → mode = 1 → t < s.dev.bed + ns 200 → e.decided id Status.LATE_START) ∧
        (s.dev.hot = false → (mode = 0 ∨ s.dev.bed + ns 200 ≤ t) → e.entry? id = some { x with begun := true, started := true, touched := true } ∧
          (e.site n).resume = some id ∧ (e.site n).resumeAt = some (if mode = 1 then t else s.dev.soonest)))) := by
  intro n mode t
  refine acts_onDev rfl rfl ?_
  unfold Dev.resumeReach
  rw [hx]
  dsimp only
  have unforced : (s.dev.members n).any (fun p => (s.dev.pin p).forced) = false := by
    simpa [List.all_eq_true, List.any_eq_false] using free
  rw [if_neg (by simp [fresh, turn, show descTarget x.desc = n from rfl, unforced])]
  split
  next bad =>
    obtain ⟨regs, others, sites, decided⟩ := Dev.resume_refused hx Status.INVALID
    exact ⟨regs, others, fun m _ => Dev.site_congr sites m, fun _ => decided, fun paused low => absurd bad (by
      rintro (h | h)
      · exact h paused
      · exact absurd h (Nat.not_le.mpr low))⟩
  next good =>
    obtain ⟨paused, low⟩ := not_or.mp good
    split
    next twice => exact ⟨fun _ _ _ => rfl, fun _ _ => rfl, fun _ _ => rfl, fun h => absurd h good, fun _ _ h => absurd twice (by
      rw [show descTarget x.desc = n from rfl, h]
      simp)⟩
    · split
      next hot =>
        obtain ⟨regs, others, sites, decided⟩ := Dev.resume_refused hx Status.UNIT_DOWN
        exact ⟨regs, others, fun m _ => Dev.site_congr sites m, fun h => absurd h good, fun _ _ _ => ⟨fun _ => decided, by simp [hot], by simp [hot]⟩⟩
      next cool =>
        split
        next late =>
          obtain ⟨regs, others, sites, decided⟩ := Dev.resume_refused hx Status.LATE_START
          refine ⟨regs, others, fun m _ => Dev.site_congr sites m, fun h => absurd h good, fun _ _ _ => ⟨fun h => absurd h cool, fun _ _ _ => decided, fun _ h => ?_⟩⟩
          obtain ⟨one, before⟩ := late
          obtain zero | after := h
          · exact absurd (one.symm.trans zero) (by decide)
          · exact absurd before (Nat.not_lt.mpr after)
        next timely =>
          obtain ⟨entry, -⟩ := Dev.open_entry hx
          refine ⟨fun _ _ _ => rfl, fun k hk => ?_, fun m hm => ?_, fun h => absurd h good, fun _ _ _ =>
            ⟨fun h => absurd h cool, fun _ one before => absurd ⟨one, before⟩ timely, fun _ _ => ⟨?_, ?_, ?_⟩⟩⟩
          · exact (Dev.touch_entry s.dev id k).trans (if_neg hk)
          · rw [Dev.upSite_site, if_neg hm]; rfl
          · exact (Dev.touch_entry s.dev id id).trans (by rw [if_pos rfl, entry]; rfl)
          · simp [n]
          · simp [n]; rfl

/-! ### The start of a resumed site -/

/-- A member of a resumed site: its next vector begins at `t`, in the slot after the last real one. -/
def Dev.resumePin (t : Nat) (d : Dev) (p : Nat) : Dev :=
  (d.upPin p (fun P => { P with tNext := t, fifo := match P.fifo with | v :: r => { v with grid := none } :: r | [] => [] })).upCsq p (fun C =>
    { C with paused := false, irqs := if C.micro then C.irqs else C.irqs.filter (fun i => i.1 != 1), hand := if C.micro then C.hand else none, nextSlot := if C.owes then max C.nextSlot C.slotNo else C.slotNo, slots := [] })

/-- What a resumed member is, as far as its drive goes. -/
def Dev.driveOf (d : Dev) (p : Nat) : Nat × List Vec × List (Nat × Nat) := ((d.pin p).tNext, (d.pin p).fifo, (d.csq p).slots)

theorem Dev.resumePins_drive (t : Nat) {ps : List Nat} (nodup : ps.Nodup) (d : Dev) (p : Nat) :
    (ps.foldl (Dev.resumePin t) d).driveOf p =
      if p ∈ ps then (t, (match (d.pin p).fifo with | v :: r => { v with grid := none } :: r | [] => []), []) else d.driveOf p := by
  refine (foldl_once (v := Dev.driveOf) (g := Dev.resumePin t) (G := fun _ x => (t, (match x.2.1 with | v :: r => { v with grid := none } :: r | [] => []), []))
    (fun d p => ?_) (fun d p q hq => ?_) ps nodup d p)
  · simp [Dev.driveOf, Dev.resumePin]
  · simp [Dev.driveOf, Dev.resumePin, hq]

/-- The sequencers of a resumed site go on: what they waited for is not waited for again. -/
def Dev.resumeLane (t : Nat) (d : Dev) (l : Nat) : Dev :=
  if d.native l then d.upLane l (fun L =>
    { L with irqs := L.irqs.filter (fun i => i.1 != 1), link := none, hand := none, gridNext := none, rests := L.rests.map (fun r => (t, r.2)) })
  else d.upLane l (fun L => { L with gridNext := none, rests := L.rests.map (fun r => (t, r.2)) })

theorem Dev.resumeLanes_unlaned (t : Nat) (ls : List Nat) (d : Dev) : (ls.foldl (Dev.resumeLane t) d).unlaned = d.unlaned :=
  foldl_keeps Dev.unlaned _ _ d (fun d l _ => by unfold Dev.resumeLane; split <;> rfl)

theorem Dev.resumeStart_eq {d : Dev} {n t id : Nat} (paused : d.siteState n = SiteState.PAUSED) (at_ : (d.site n).resumeAt = some t) (due : t ≤ d.bed)
    (owner : (d.site n).resume = some id) :
    let d1 := d.wr .SITE_STATUS_STATE n SiteState.RUNNING
    let d3 := ((d1.members n).foldl (Dev.resumePin t) d1).finish id Status.OK (t % 2 ^ 64 * 2 ^ 64)
    d.resumeStart n = ((d3.siteLanes n).foldl (Dev.resumeLane t) d3).upSite n (fun S => { S with resume := none, resumeAt := none }) := by
  unfold Dev.resumeStart
  rw [at_]
  dsimp only
  rw [if_pos ⟨paused, due⟩, owner]
  rfl

theorem resumeStart_acts (s : State) (n t : Nat) (x : Entry) (hn : n < 64) (paused : s.dev.siteState n = SiteState.PAUSED)
    (at_ : (s.dev.site n).resumeAt = some t) (due : t ≤ s.dev.bed) (owner : (s.dev.site n).resume = some x.id) (hx : s.dev.entry? x.id = some x)
    (undone : x.done = false) :
    Acts (.resumeStart n) s (fun e =>
      e.siteState n = SiteState.RUNNING ∧ e.decided x.id Status.OK ∧ (∀ y, e.entry? x.id = some y → y.result = t % 2 ^ 64 * 2 ^ 64) ∧
      (e.site n).resumeAt = none ∧ (e.site n).resume = none ∧
      (∀ p, p ∈ s.dev.members n → (e.pin p).tNext = t ∧ (e.csq p).slots = [] ∧
        (e.pin p).fifo = (match (s.dev.pin p).fifo with | v :: r => { v with grid := none } :: r | [] => [])) ∧
      (∀ m, m ≠ n → e.site m = s.dev.site m) ∧ s.dev.entriesBut e x.id ∧ s.dev.keepsBut e [(.SITE_STATUS_STATE, n)]) := by
  refine acts_onDev rfl (decide_eq_true hn) ?_
  rw [Dev.resumeStart_eq paused at_ due owner]
  generalize hd1 : s.dev.wr .SITE_STATUS_STATE n SiteState.RUNNING = d1
  have state (f : Fld) (i : Nat) : d1.rd f i = if f = .SITE_STATUS_STATE ∧ i = n then SiteState.RUNNING else s.dev.rd f i := by
    rw [← hd1, Dev.wr_rd]; rfl
  have members : d1.members n = s.dev.members n := Dev.members_congr (fun k => by rw [state, if_neg (by simp)]) n
  rw [members]
  generalize hd2 : (s.dev.members n).foldl (Dev.resumePin t) d1 = d2
  have drive (p : Nat) := hd2 ▸ Dev.resumePins_drive t (s.dev.members_nodup n) d1 p
  have rest : d2.unpinned = d1.unpinned := hd2 ▸ foldl_keeps Dev.unpinned _ _ d1 (fun _ _ _ => rfl)
  generalize hd4 : List.foldl (Dev.resumeLane t) _ _ = d4
  have last : d4.unlaned = (d2.finish x.id Status.OK (t % 2 ^ 64 * 2 ^ 64)).unlaned := hd4 ▸ Dev.resumeLanes_unlaned t _ _
  have regs : d4.regs = d1.regs := (congrArg Dev.regs last :).trans (congrArg Dev.regs rest :)
  have sites : d4.sites = s.dev.sites := (congrArg Dev.sites last :).trans ((congrArg Dev.sites rest :).trans (congrArg Dev.sites hd1.symm :))
  have pins : d4.pins = d2.pins := (congrArg Dev.pins last :)
  have csqs : d4.csqs = d2.csqs := (congrArg Dev.csqs last :)
  have tracker : d2.tracker = s.dev.tracker := (congrArg Dev.tracker rest :).trans (congrArg Dev.tracker hd1.symm :)
  have entry (k : Nat) : d4.entry? k = (d2.finish x.id Status.OK (t % 2 ^ 64 * 2 ^ 64)).entry? k := Dev.entry_congr (congrArg Dev.tracker last :) k
  have held : d2.entry? x.id = some x := (Dev.entry_congr tracker x.id).trans hx
  obtain ⟨⟨y, hy, done, status⟩, others⟩ := Dev.finish_decided held undone Status.OK (t % 2 ^ 64 * 2 ^ 64)
  refine ⟨?_, ⟨y, (entry x.id).trans hy, done, status⟩, fun z hz => ?_, by simp, by simp, fun p hp => ?_, fun m hm => ?_, fun k hk => ?_, fun f i hf => ?_⟩
  · exact (Dev.rd_congr regs _ _).trans ((state _ _).trans (if_pos ⟨rfl, rfl⟩))
  · have finished := (Dev.upEntry_one held (fun x => if x.done then x else { x with done := true, status := Status.OK, result := t % 2 ^ 64 * 2 ^ 64 }) (by intro y; split <;> rfl)).1
    have same := (hz.symm.trans (entry x.id)).trans finished
    rw [Option.some.inj same]
    simp [undone]
  · have at_p := drive p
    rw [if_pos hp] at at_p
    have pin : d4.pin p = d2.pin p := Dev.pin_congr pins p
    have csq : d4.csq p = d2.csq p := by rw [Dev.csq, csqs, Dev.csq]
    have same : d1.pin p = s.dev.pin p := by rw [← hd1]; rfl
    rw [same] at at_p
    exact ⟨(congrArg Pin.tNext pin).trans (congrArg Prod.fst at_p), (congrArg Csq.slots csq).trans (congrArg (·.2.2) at_p), (congrArg Pin.fifo pin).trans (congrArg (·.2.1) at_p)⟩
  · rw [Dev.upSite_site, if_neg hm, Dev.site_congr sites]
  · exact (entry k).trans ((others k hk).trans (Dev.entry_congr tracker k))
  · refine (Dev.rd_congr regs _ _).trans ((state _ _).trans (if_neg ?_))
    rintro ⟨rfl, rfl⟩
    exact hf (List.mem_singleton.mpr rfl)

end Sys2Proof.Machine

open Sys2Proof Sys2Proof.Machine

/-- Settles O16: a RESUME by the branches of its reach; its start by what each step leaves. -/
theorem resumeRunsAPausedSiteAgain : Obligations.ResumeRunsAPausedSiteAgain :=
  ⟨resume_acts, resumeStart_acts⟩
end

section
/-!
SUPPORT. A site that goes back to IDLE (R49, R108, R190, R328).
-/
namespace Sys2Proof.Machine

/-- What is done over a list, where doing it twice is doing it once, reaches each of its members. -/
theorem foldl_idem {α β γ : Type} [DecidableEq β] {v : α → β → γ} {g : α → β → α} {G : γ → γ} (twice : ∀ x, G (G x) = G x) (own : ∀ a b, v (g a b) b = G (v a b))
    (keep : ∀ a b c, c ≠ b → v (g a b) c = v a c) (l : List β) (a : α) (c : β) : v (l.foldl g a) c = if c ∈ l then G (v a c) else v a c := by
  induction l generalizing a with
  | nil => rfl
  | cons b t ih =>
    rw [List.foldl_cons, ih]
    by_cases hc : c = b
    · subst hc
      simp only [own, twice, List.mem_cons_self, if_true, ite_self]
    · simp only [keep a b c hc, List.mem_cons, hc, false_or]

/-! ### The lines of the pins -/

/-- What a pin has been asked to drive, and drives. -/
def Pin.shown (P : Pin) : List Edge × List Trans × Bool × Bool := (P.placed, P.trans, P.dd, P.de)

/-- The pins of `e` drive what those of `d` drive. -/
def Dev.sameLines (d e : Dev) : Prop := ∀ p, (e.pin p).shown = (d.pin p).shown

theorem Dev.sameLines.trans {d e f : Dev} (h : d.sameLines e) (k : e.sameLines f) : d.sameLines f := fun p => (k p).trans (h p)

theorem Dev.sameLines_of_pins {d e : Dev} (h : e.pins = d.pins) : d.sameLines e := fun p => congrArg Pin.shown (Dev.pin_congr h p)

theorem Dev.sameLines_foldl {β : Type} {g : Dev → β → Dev} (h : ∀ d b, Dev.sameLines d (g d b)) (l : List β) (d : Dev) : d.sameLines (l.foldl g d) :=
  fun p => foldl_keeps (fun d : Dev => (d.pin p).shown) g l d (fun d b _ => h d b p)

theorem Dev.upPin_sameLines (d : Dev) (p : Nat) (f : Pin → Pin) (hf : ∀ P, (f P).shown = P.shown) : d.sameLines (d.upPin p f) := by
  intro q
  rw [Dev.upPin_pin]
  split
  · subst_vars; exact hf _
  · rfl

theorem Dev.startPin_sameLines (d : Dev) (p : Nat) : d.sameLines (d.startPin p) := d.upPin_sameLines p _ fun _ => rfl

theorem Dev.takeTrims_sameLines (d : Dev) (p : Nat) : d.sameLines (d.takeTrims p) := by
  unfold Dev.takeTrims
  split
  · exact (Dev.sameLines_of_pins rfl).trans (Dev.upPin_sameLines _ p _ fun _ => rfl)
  · exact fun _ => rfl

/-! ### IDLE -/

/-- The block but for registers, pins and sites. -/
def Dev.unidled (d : Dev) : Dev := { d with regs := [], pins := [], sites := [] }

/-- The fields that a site's way to IDLE writes. -/
def idleFields : List Fld := [.SITE_STATUS_STATE, .PIN_TF_STATUS_BAND, .PIN_TF_STATUS_TRIM_PENDING]

theorem Dev.trims_idled (ps : List Nat) (d : Dev) : (ps.foldl (fun d p => d.takeTrims p) d).unidled = d.unidled ∧
    d.keepsFields (ps.foldl (fun d p => d.takeTrims p) d) [.PIN_TF_STATUS_TRIM_PENDING, .PIN_TF_STATUS_BAND] ∧
    (ps.foldl (fun d p => d.takeTrims p) d).sites = d.sites ∧ d.sameLines (ps.foldl (fun d p => d.takeTrims p) d) :=
  ⟨foldl_keeps Dev.unidled _ _ d (fun d p _ => by unfold Dev.takeTrims; split <;> rfl),
    fun f i hf => foldl_keeps (fun d : Dev => d.rd f i) _ _ d (fun d p _ => d.takeTrims_rd p f i (.inl hf)),
    foldl_keeps Dev.sites _ _ d (fun d p _ => (d.takeTrims_frame p).2.2), Dev.sameLines_foldl Dev.takeTrims_sameLines ps d⟩

/-- From `d` to `e` site `n` has gone to IDLE. -/
structure Dev.Idled (n : Nat) (d e : Dev) : Prop where
  state : e.siteState n = SiteState.IDLE
  states : ∀ m, m ≠ n → e.siteState m = d.siteState m
  rd : d.keepsFields e idleFields
  sites : ∀ m, m ≠ n → e.site m = d.site m
  run : (e.site n).run = none ∧ (e.site n).idleSince = d.now
  rest : e.unidled = d.unidled
  lines : d.sameLines e

theorem Dev.toIdle_idled (d : Dev) (n : Nat) : Dev.Idled n d (d.toIdle n) := by
  unfold Dev.toIdle
  obtain ⟨rest, regs, sites, lines⟩ := Dev.trims_idled (d.members n) d
  dsimp only
  generalize (d.members n).foldl _ d = u at rest regs sites lines
  have now : u.now = d.now := (congrArg Dev.now rest :)
  have state (f : Fld) (i : Nat) : (u.wr .SITE_STATUS_STATE n SiteState.IDLE).rd f i = if f = .SITE_STATUS_STATE ∧ i = n then SiteState.IDLE else u.rd f i :=
    u.wr_rd ..
  generalize hv : u.wr .SITE_STATUS_STATE n SiteState.IDLE = v at state
  have site (m : Nat) : v.site m = d.site m := by rw [← hv]; exact Dev.site_congr sites m
  refine ⟨(state _ _).trans (if_pos ⟨rfl, rfl⟩), fun m hm => ?_, fun f i hf => ?_, fun m hm => ?_, ?_, ?_, ?_⟩
  · exact ((state _ _).trans (if_neg fun h => hm h.2)).trans (regs _ _ (by decide))
  · simp only [idleFields, List.mem_cons, List.not_mem_nil, or_false, not_or] at hf
    obtain ⟨own, band, pending⟩ := hf
    exact ((state _ _).trans (if_neg fun h => own h.1)).trans (regs _ _ (by simp [band, pending]))
  · rw [Dev.upSite_site, if_neg hm, site]
  · simp [now]
  · rw [← hv]; exact rest
  · rw [← hv]; exact lines

/-! ### The descriptors of a site that goes back to IDLE (R304, R328) -/

/-- A STOP that waited for the end of the RUN `run`. -/
def Entry.stopped (x : Entry) (run : Option Nat) (r : Nat) : Entry :=
  { (if x.done then x else { x with done := true, status := Status.OK, result := r }) with after := run }

/-- The STOPs of the list follow the RUN `run`. -/
def Dev.stopsFollow (d : Dev) (es : List Nat) (run : Option Nat) (r : Nat) : Dev :=
  es.foldl (fun e x => (e.finish x Status.OK r).upEntry x (fun y => { y with after := run })) d

theorem Entry.finished_id (x : Entry) (st r : Nat) : (if x.done then x else { x with done := true, status := st, result := r }).id = x.id := by
  split <;> rfl

theorem Dev.finish_entry (d : Dev) (e k st r : Nat) :
    (d.finish e st r).entry? k = if k = e then (d.entry? e).map (fun x => if x.done then x else { x with done := true, status := st, result := r }) else d.entry? k :=
  Dev.upEntry_entry d e k _ fun x => x.finished_id st r

theorem Dev.stopsFollow_entry (d : Dev) (es : List Nat) (run : Option Nat) (r k : Nat) :
    (d.stopsFollow es run r).entry? k = if k ∈ es then (d.entry? k).map (fun x => x.stopped run r) else d.entry? k := by
  refine foldl_idem (v := Dev.entry?) (G := Option.map (fun x : Entry => x.stopped run r)) (fun x => ?_) (fun d e => ?_) (fun d e k hk => ?_) es d k
  · cases x with
    | none => rfl
    | some x =>
      cases h : x.done <;> simp [Entry.stopped, h]
  · rw [Dev.upEntry_entry, if_pos rfl, Dev.finish_entry, if_pos rfl, Option.map_map]
    · rfl
    · exact fun _ => rfl
  · rw [Dev.upEntry_entry, if_neg hk, Dev.finish_entry, if_neg hk]
    exact fun _ => rfl

theorem Dev.stopsFollow_rest (d : Dev) (es : List Nat) (run : Option Nat) (r : Nat) :
    ({ d.stopsFollow es run r with tracker := [] } : Dev) = { d with tracker := [] } :=
  foldl_keeps (fun d : Dev => ({ d with tracker := [] } : Dev)) _ _ d fun _ _ _ => rfl

/-- What a decided entry is stays decided when it is made to follow a RUN. -/
theorem Dev.stopsFollow_decided {d : Dev} {k st : Nat} (h : d.decided k st) (es : List Nat) (run : Option Nat) (r : Nat) : (d.stopsFollow es run r).decided k st := by
  obtain ⟨x, hx, done, status⟩ := h
  rw [Dev.decided, Dev.stopsFollow_entry, hx]
  split
  · exact ⟨_, rfl, by simp [Entry.stopped, done], by simp [Entry.stopped, done, status]⟩
  · exact ⟨x, rfl, done, status⟩

/-! ### A preparation abandoned -/

theorem Dev.clearSite_rest (d : Dev) (n : Nat) : ({ d.clearSite n with lanes := [], pins := [] } : Dev) = { d with lanes := [], pins := [] } ∧ d.sameLines (d.clearSite n) := by
  unfold Dev.clearSite
  dsimp only
  have lanes := foldl_keeps (fun d : Dev => ({ d with lanes := [] } : Dev)) (fun d l => d.stopLane l) (d.siteLanes n) d (fun _ _ _ => rfl)
  generalize (d.siteLanes n).foldl _ d = u at lanes
  have pins := foldl_keeps (fun d : Dev => ({ d with pins := [] } : Dev)) (fun d p => d.startPin p) (u.members n) u (fun _ _ _ => rfl)
  exact ⟨(congrArg (fun d : Dev => ({ d with lanes := [] } : Dev)) pins :).trans (congrArg (fun d : Dev => ({ d with pins := [] } : Dev)) lanes :),
    (Dev.sameLines_of_pins (congrArg Dev.pins lanes :)).trans (Dev.sameLines_foldl Dev.startPin_sameLines _ u)⟩

/-- The RUN of a site, where it has one, ends. -/
def Dev.endRun (d : Dev) (run : Option Nat) (st r : Nat) : Dev :=
  match run with
  | some e => d.finish e st r
  | none => d

theorem Dev.endRun_rest (d : Dev) (run : Option Nat) (st r : Nat) : ({ d.endRun run st r with tracker := [] } : Dev) = { d with tracker := [] } := by
  cases run <;> rfl

theorem Dev.endRun_others (d : Dev) {run : Option Nat} {k : Nat} (h : run ≠ some k) (st r : Nat) : (d.endRun run st r).entry? k = d.entry? k := by
  cases run with
  | none => rfl
  | some e => exact (Dev.finish_entry ..).trans (if_neg fun hk => h (congrArg some hk.symm))

theorem Dev.abandon_eq (d : Dev) (n st : Nat) : d.abandon n st =
    (((d.endRun (d.site n).run st ((d.wr .SITE_VCOUNT_COUNT n 0).runResult n)).stopsFollow (d.site n).stops (d.site n).run (resAt 0 80 48)).clearSite n).toIdle n :=
  rfl

/-- From `d` to `e` site `n` has gone back to IDLE before vector 0, its RUN with `st`. -/
structure Dev.Abandoned (n st : Nat) (d e : Dev) : Prop where
  state : e.siteState n = SiteState.IDLE
  states : ∀ m, m ≠ n → e.siteState m = d.siteState m
  rd : d.keepsFields e idleFields
  sites : ∀ m, m ≠ n → e.site m = d.site m
  run : (e.site n).run = none
  lines : d.sameLines e
  raised : e.raised = d.raised
  decided : ∀ id x, (d.site n).run = some id → d.entry? id = some x → x.done = false → e.decided id st
  others : (d.site n).stops = [] → ∀ id, (d.site n).run = some id → d.entriesBut e id
  stops : ∀ id z, (d.site n).run ≠ some z.id → z.id ∈ (d.site n).stops → d.entry? z.id = some z → z.done = false → e.decided z.id Status.OK ∧
    ∀ w, (d.site n).run = some id → e.entry? z.id = some w → w.after = some id

theorem Dev.abandon_spec (d : Dev) (n st : Nat) : Dev.Abandoned n st d (d.abandon n st) := by
  rw [Dev.abandon_eq]
  generalize (d.wr .SITE_VCOUNT_COUNT n 0).runResult n = res
  have rest1 := d.endRun_rest (d.site n).run st res
  have others1 (k : Nat) (h : (d.site n).run ≠ some k) := d.endRun_others h st res
  generalize hd1 : d.endRun (d.site n).run st res = d1 at rest1 others1
  have rest2 := d1.stopsFollow_rest (d.site n).stops (d.site n).run (resAt 0 80 48)
  have entry2 := d1.stopsFollow_entry (d.site n).stops (d.site n).run (resAt 0 80 48)
  have decided2 := fun k v (h : d1.decided k v) => Dev.stopsFollow_decided h (d.site n).stops (d.site n).run (resAt 0 80 48)
  generalize d1.stopsFollow _ _ _ = d2 at rest2 entry2 decided2
  obtain ⟨rest3, lines3⟩ := d2.clearSite_rest n
  generalize d2.clearSite n = d3 at rest3 lines3
  obtain ⟨state, states, rd, sites, ⟨run, -⟩, rest4, lines4⟩ := d3.toIdle_idled n
  have regs : d3.regs = d.regs := (congrArg Dev.regs rest3 :).trans ((congrArg Dev.regs rest2 :).trans (congrArg Dev.regs rest1 :))
  have sites3 : d3.sites = d.sites := (congrArg Dev.sites rest3 :).trans ((congrArg Dev.sites rest2 :).trans (congrArg Dev.sites rest1 :))
  have pins2 : d2.pins = d.pins := (congrArg Dev.pins rest2 :).trans (congrArg Dev.pins rest1 :)
  have tracker : (d3.toIdle n).tracker = d2.tracker := (congrArg Dev.tracker rest4 :).trans (congrArg Dev.tracker rest3 :)
  have raised : (d3.toIdle n).raised = d.raised :=
    ((congrArg Dev.raised rest4 :).trans (congrArg Dev.raised rest3 :)).trans ((congrArg Dev.raised rest2 :).trans (congrArg Dev.raised rest1 :))
  have entry (k : Nat) := (Dev.entry_congr tracker k).trans (entry2 k)
  refine ⟨state, fun m hm => (states m hm).trans (Dev.rd_congr regs _ _), fun f i hf => (rd f i hf).trans (Dev.rd_congr regs _ _),
    fun m hm => (sites m hm).trans (Dev.site_congr sites3 m), run, (Dev.sameLines_of_pins pins2).trans (lines3.trans lines4), raised,
    fun id x hr hx undone => ?_, fun none_ id hr k hk => ?_, fun id z hr hz hx undone => ?_⟩
  · rw [hr] at hd1
    have decided1 : d1.decided id st := hd1 ▸ (Dev.finish_decided hx undone st res).1
    obtain ⟨y, hy, done⟩ := decided2 _ _ decided1
    exact ⟨y, (Dev.entry_congr tracker id).trans hy, done⟩
  · rw [entry, none_, if_neg List.not_mem_nil]
    exact others1 k fun h => hk (Option.some.inj (h.symm.trans hr))
  · have same : d1.entry? z.id = some z := (others1 z.id hr).trans hx
    have own := entry z.id
    rw [if_pos hz, same] at own
    refine ⟨⟨_, own, by simp [Entry.stopped, undone], by simp [Entry.stopped, undone]⟩, fun w hid hw => ?_⟩
    rw [← Option.some.inj (own.symm.trans hw), ← hid]
    rfl

end Sys2Proof.Machine
end

section
/-!
PROOF. The end of a preparation (R53, R54, R62, R63, R103).
-/
namespace Sys2Proof.Machine

/-- The block but for its sites and the open choices taken. -/
def Dev.unwoken (d : Dev) : Dev := { d with sites := [], free := 0 }

theorem Dev.wakeTook_site (d : Dev) (n t : Nat) : ∃ v, ∀ m, (d.wakeTook n t).site m = if m = n then { d.site n with wakeUs := v } else d.site m :=
  let v := t / us 1 + (if t % us 1 = 0 then 0 else d.openVal 1)
  ⟨max (d.site n).wakeUs v, fun m => Dev.upSite_site d n m (fun S => { S with wakeUs := max S.wakeUs v })⟩

/-- The time out of DOZE is noted with the site, nothing else. -/
theorem Dev.leftDoze_spec (d : Dev) (n : Nat) : (d.leftDoze n).unwoken = d.unwoken ∧ (∀ m, m ≠ n → (d.leftDoze n).site m = d.site m) ∧
    ((d.leftDoze n).site n).run = (d.site n).run ∧ ((d.leftDoze n).site n).start = (d.site n).start := by
  unfold Dev.leftDoze
  dsimp only
  split
  · obtain ⟨v, site⟩ := Dev.wakeTook_site d.took n (d.openVal 64 % (min (d.now - (d.site n).prepAt) (us 150) + 1))
    refine ⟨rfl, fun m hm => (site m).trans (if_neg hm), ?_, ?_⟩ <;> rw [site, if_pos rfl] <;> rfl
  · exact ⟨rfl, fun _ _ => rfl, rfl, rfl⟩

/-- A site with its start time set. -/
theorem Dev.setStart_spec (d : Dev) (n t : Nat) : (d.setStart n t).regs = d.regs ∧ (∀ m, m ≠ n → (d.setStart n t).site m = d.site m) ∧
    (d.setStart n t).site n = { d.site n with start := some t } := by
  have rest : ({ d.setStart n t with pins := [] } : Dev) = { d.upSite n (fun S => { S with start := some t }) with pins := [] } :=
    foldl_keeps (fun d : Dev => ({ d with pins := [] } : Dev)) _ _ _ (fun _ _ _ => rfl)
  have same : (d.setStart n t).sites = (d.upSite n (fun S => { S with start := some t })).sites := (congrArg Dev.sites rest :)
  have sites := Dev.site_congr same
  refine ⟨(congrArg Dev.regs rest :), fun m hm => ?_, ?_⟩
  · rw [sites, Dev.upSite_site, if_neg hm]
  · rw [sites, Dev.upSite_site, if_pos rfl]

/-- What a site that has become ARMED leaves of the block. -/
structure Dev.Armed (n : Nat) (start : Option Nat) (d e : Dev) : Prop where
  state : e.siteState n = SiteState.ARMED
  states : ∀ m, m ≠ n → e.siteState m = d.siteState m
  rd : d.keepsFields e [.SITE_STATUS_STATE, .RN_PORT_COUNT_FWD]
  sites : ∀ m, m ≠ n → e.site m = d.site m
  own : (e.site n).start = start ∧ (e.site n).armedAt = d.now

theorem Dev.arm_armed (d : Dev) (n : Nat) : Dev.Armed n (d.site n).start d (d.arm n) := by
  unfold Dev.arm
  have state (f : Fld) (i : Nat) : (d.wr .SITE_STATUS_STATE n SiteState.ARMED).rd f i = if f = .SITE_STATUS_STATE ∧ i = n then SiteState.ARMED else d.rd f i :=
    d.wr_rd ..
  generalize hv : d.wr .SITE_STATUS_STATE n SiteState.ARMED = v at state
  have site (m : Nat) : v.site m = d.site m := by rw [← hv]; rfl
  refine ⟨(state _ _).trans (if_pos ⟨rfl, rfl⟩), fun m hm => (state _ _).trans (if_neg fun h => hm h.2), fun f i hf => (state _ _).trans (if_neg fun h => ?_), fun m hm => ?_, ?_⟩
  · exact hf (h.1 ▸ List.mem_cons_self)
  · rw [Dev.upSite_site, if_neg hm, site]
  · rw [Dev.upSite_site, if_pos rfl, site]
    exact ⟨rfl, by subst hv; rfl⟩

theorem Dev.Armed.setStart {n : Nat} {o : Option Nat} {d e : Dev} (h : Dev.Armed n o d e) (t : Nat) : Dev.Armed n (some t) d (e.setStart n t) := by
  obtain ⟨regs, sites, own⟩ := e.setStart_spec n t
  refine ⟨(Dev.rd_congr regs _ _).trans h.state, fun m hm => (Dev.rd_congr regs _ _).trans (h.states m hm), fun f i hf => (Dev.rd_congr regs _ _).trans (h.rd f i hf),
    fun m hm => (sites m hm).trans (h.sites m hm), ?_⟩
  rw [own]
  exact ⟨rfl, h.own.2⟩

theorem Dev.Armed.originate {n : Nat} {o : Option Nat} {d e : Dev} (h : Dev.Armed n o d e) (k : SpanPkt) : Dev.Armed n o d (e.originate k) := by
  have rd := Dev.keepsFields_of_quiet (e.originate_quiet k)
  have sites := Dev.site_congr (e.originate_sites k)
  refine ⟨(rd _ _ (by decide)).trans h.state, fun m hm => (rd _ _ (by decide)).trans (h.states m hm), fun f i hf => (rd f i fun m => hf ?_).trans (h.rd f i hf),
    fun m hm => (sites m).trans (h.sites m hm), by rw [sites]; exact h.own⟩
  exact List.mem_cons_of_mem _ m

/-- What a prepared site does by its start mode `mode`: `t` is the time it names, `lead` that it leads its span. -/
structure Dev.StartsAs (n : Nat) (x : Entry) (d e : Dev) : Prop where
  sites : ∀ m, m ≠ n → e.site m = d.site m
  rd : d.keepsFields e [.SITE_STATUS_STATE, .RN_PORT_COUNT_FWD, .PIN_TF_STATUS_BAND, .PIN_TF_STATUS_TRIM_PENDING]
  states : ∀ m, m ≠ n → e.siteState m = d.siteState m

theorem Dev.Armed.startsAs {n : Nat} {x : Entry} {o : Option Nat} {d e : Dev} (h : Dev.Armed n o d e) : Dev.StartsAs n x d e :=
  ⟨h.sites, Dev.keepsFields_mono h.rd (by decide), h.states⟩

theorem Dev.Abandoned.startsAs {n st : Nat} {x : Entry} {d e : Dev} (h : Dev.Abandoned n st d e) : Dev.StartsAs n x d e :=
  ⟨h.sites, Dev.keepsFields_mono h.rd (by decide), h.states⟩

/-- The start of a prepared site, by its mode and its role in a span. -/
theorem Dev.prepared_spec {d : Dev} {n : Nat} {x : Entry} (run : (d.site n).run = some x.id) (hx : d.entry? x.id = some x) (undone : x.done = false)
    (unset : (d.site n).start = none) :
    let mode := descField x.desc 20 0 2
    let t := d.startTime (descField x.desc 24 0 64)
    let late := decide (t < d.bed + ns 200)
    let lead := d.rd .SITE_CTRL_SPAN_ROLE n == 1
    let named := descField x.desc 20 2 1 == 1
    let e := d.prepared n x
    (mode = 0 → e.siteState n = d.siteState n ∧ (e.site n).start = some d.soonest) ∧
      (mode = 1 → late = false → e.siteState n = SiteState.ARMED ∧ (e.site n).start = some t) ∧
      ((mode = 1 ∨ mode = 3 ∧ lead = true ∧ named = true) → late = true → e.siteState n = SiteState.IDLE ∧ e.decided x.id Status.LATE_START) ∧
      ((mode = 2 ∨ mode = 3 ∧ lead = false) → e.siteState n = SiteState.ARMED ∧ (e.site n).start = none ∧ (e.site n).armedAt = d.now) ∧
      (mode = 3 → lead = true → (named = false ∨ late = false) → e.siteState n = SiteState.ARMED ∧
        (e.site n).start = some ((if named then t else d.soonest) + ns (d.rd .SITE_SPAN_LAT_LAT n))) ∧ Dev.StartsAs n x d e := by
  intro mode t late lead named e
  have idle := d.abandon_spec n Status.LATE_START
  have abandoned : e = d.abandon n Status.LATE_START → e.siteState n = SiteState.IDLE ∧ e.decided x.id Status.LATE_START ∧ Dev.StartsAs n x d e := by
    rintro he
    rw [he]
    exact ⟨idle.state, idle.decided x.id x run hx undone, idle.startsAs⟩
  have armed := d.arm_armed n
  rw [unset] at armed
  have he : e = d.prepared n x := rfl
  unfold Dev.prepared at he
  dsimp only at he
  split at he
  next zero =>
    have zero : mode = 0 := zero
    obtain ⟨regs, sites, own⟩ := d.setStart_spec n d.soonest
    rw [← he] at regs sites own
    refine ⟨fun _ => ⟨Dev.rd_congr regs _ _, by rw [own]⟩, by omega, by omega, by omega, by omega, sites, fun f i _ => Dev.rd_congr regs f i, fun m _ => Dev.rd_congr regs _ _⟩
  next one =>
    have one : mode = 1 := one
    split at he
    next before =>
      obtain ⟨state, decided, all⟩ := abandoned he
      exact ⟨by omega, fun _ h => absurd before (by simpa [late] using h), fun _ _ => ⟨state, decided⟩, by omega, by omega, all⟩
    next after =>
      have set_ := he ▸ armed.setStart t
      exact ⟨by omega, fun _ _ => ⟨set_.state, set_.own.1⟩, fun _ h => absurd (of_decide_eq_true h) after, by omega, by omega, set_.startsAs⟩
  next two =>
    have two : mode = 2 := two
    have waits := he ▸ armed
    exact ⟨by omega, by omega, by omega, fun _ => ⟨waits.state, waits.own⟩, by omega, waits.startsAs⟩
  next zero one two =>
    have other : mode ≠ 0 ∧ mode ≠ 1 ∧ mode ≠ 2 := ⟨zero, one, two⟩
    split at he
    next leads =>
      have leads : lead = true := by simpa [lead] using leads
      split at he
      next before =>
        obtain ⟨state, decided, all⟩ := abandoned he
        obtain ⟨name, before⟩ := before
        refine ⟨by omega, by omega, fun _ _ => ⟨state, decided⟩, fun h => ?_, fun _ _ h => ?_, all⟩
        · simp [leads, other] at h
        · have timely : late = false := h.resolve_left (by simp [named, name])
          exact absurd before (of_decide_eq_false timely)
      next after =>
        have set_ := he ▸ (armed.originate _).setStart _
        refine ⟨by omega, by omega, fun h before => ?_, fun h => ?_, fun _ _ _ => ⟨set_.state, ?_⟩, set_.startsAs⟩
        · obtain ⟨-, -, name⟩ := h.resolve_left other.2.1
          exact absurd ⟨by simpa [named] using name, of_decide_eq_true before⟩ after
        · simp [leads, other] at h
        · rw [set_.own.1]
          simp [named, t]
    next follows =>
      have follows : lead = false := by simpa [lead] using follows
      have waits := he ▸ armed
      exact ⟨by omega, by omega, by simp [follows, other], fun _ => ⟨waits.state, waits.own⟩, by simp [follows], waits.startsAs⟩

end Sys2Proof.Machine

open Sys2Proof Sys2Proof.Machine

/-- Settles O13: the time out of DOZE is noted with the site, then the start is set by its mode and its role. -/
theorem preparedSiteStartsOrWaits : Obligations.PreparedSiteStartsOrWaits := by
  intro s n x hn preparing run hx undone early unset pins homes awake clean mode t late lead named
  refine acts_onDev rfl (decide_eq_true hn) ?_
  unfold Dev.prepComplete
  simp only [run, Option.bind_some, hx]
  rw [if_pos ⟨preparing, by simp [early], by simp [unset], pins, homes, awake⟩, if_pos clean]
  obtain ⟨rest, others, run', start'⟩ := s.dev.leftDoze_spec n
  generalize s.dev.leftDoze n = u at rest others run' start'
  have regs : u.regs = s.dev.regs := (congrArg Dev.regs rest :)
  have now : u.now = s.dev.now := (congrArg Dev.now rest :)
  have bed : u.bed = s.dev.bed := (congrArg Dev.bed rest :)
  have entry : u.entry? x.id = some x := (Dev.entry_congr (congrArg Dev.tracker rest :) x.id).trans hx
  have soonest : u.soonest = s.dev.soonest := by rw [Dev.soonest, bed, Dev.soonest]
  have time (v : Nat) : u.startTime v = s.dev.startTime v := (congrArg (fun d : Dev => d.startTime v) rest :)
  have spec := Dev.prepared_spec (run'.trans run) entry undone (start'.trans unset)
  simp only [time, bed, soonest, now, Dev.rd_congr regs] at spec
  obtain ⟨zero, one, late_, two, three, all⟩ := spec
  have state (m : Nat) : u.siteState m = s.dev.siteState m := Dev.rd_congr regs _ _
  refine ⟨fun h => ⟨(zero h).1.trans ((state n).trans preparing), (zero h).2⟩, one, late_, two, three, fun m hm => (all.sites m hm).trans (others m hm),
    fun f i hf => (all.rd f i hf).trans (Dev.rd_congr regs f i), fun m hm => (all.states m hm).trans (state m)⟩
end

section
/-!
PROOF. The arm timeout of a site that lists a STOP (R49, R55, R304).
-/
namespace Sys2Proof.Machine

/-- The RUN and the STOP of site 0 in the counterexample. -/
def runOf0 : Entry := { id := 1, ring := 0, idx := 1, desc := 0x21 }
def stopOf0 : Entry := { id := 2, ring := 0, idx := 2, desc := 0x22 }

/-- Site 0 is ARMED for the RUN in entry 1 and lists the STOP in entry 2, but nothing stops it in this engine cycle; its arm timer has run out. -/
def armedStopped : Dev :=
  { (({} : Dev).wr .SITE_STATUS_STATE 0 SiteState.ARMED).wr .SITE_ARM_TIMEOUT_MS 0 1 with
      now := ms 1, tracker := [runOf0, stopOf0], sites := [(0, { run := some 1, stops := [2] })] }

/-- The end of the preparation finishes the listed STOP with the RUN. -/
theorem armedStopped_stop : ((armedStopped.armTimeout 0).entry? 2).map (·.done) = some true := by
  unfold Dev.armTimeout
  dsimp only
  rw [if_pos (by decide)]
  obtain ⟨⟨x, held, done, -⟩, -⟩ := (((armedStopped.set1 .SITE_STATUS_ARM_TIMEOUT 0).raise 0x1C5 0).abandon_spec 0 Status.TIMEOUT).stops 1 stopOf0
    (by decide) (by decide) (by decide) rfl
  exact (congrArg (Option.map (·.done)) held).trans (congrArg some done)

end Sys2Proof.Machine

open Sys2Proof Sys2Proof.Machine

/-- Refutes O11: the end of a preparation completes the STOPs that the site lists, and the statement, which speaks of every state and not of the
reached ones alone, lets an ARMED site list one where nothing stops it. -/
theorem not_dozeAndArmTimeoutReleaseTheSite : ¬ Obligations.DozeAndArmTimeoutReleaseTheSite := by
  unfold Obligations.DozeAndArmTimeoutReleaseTheSite
  intro h
  obtain ⟨t, next, -, -, -, -, -, others, -⟩ := h.2 { State.reset with dev := armedStopped } 0 runOf0 (by decide) (by decide) (by decide) (by decide) (by decide)
    (by decide) (by decide) rfl
  obtain ⟨u, next', -, -, after⟩ : Acts (.armTimeout 0) { State.reset with dev := armedStopped } (fun e => e = armedStopped.armTimeout 0) := acts_onDev rfl rfl rfl
  have same : t = u := by
    have := next.symm.trans next'
    simpa using this
  have kept := congrArg (Option.map (·.done)) (others 2 (by decide))
  rw [same, after, armedStopped_stop] at kept
  exact absurd kept (by decide)
end

section
/-!
PROOF. Edges of the event pins (R54, R56, R497).
-/
namespace Sys2Proof.Machine

/-- The fields that an event edge writes. -/
def edgeFields : List Fld := [.SITE_STATUS_EV_IGNORED, .RN_PORT_COUNT_FWD]

/-- What an edge stamped `t` has meant to site `n` between `d` and `e`. -/
structure Dev.Edged (d e : Dev) (ev : Nat) (rise : Bool) (t n : Nat) : Prop where
  starts : d.edgeQualifies n ev rise = true → d.siteState n = SiteState.ARMED → (d.site n).mode = 2 → (d.site n).start = none →
    (e.site n).start = some (t + ns (max 1000 (d.rd .SITE_EV_DELAY_DELAY n)))
  ignored : d.edgeQualifies n ev rise = true → d.siteState n ≠ SiteState.ARMED →
    e.rd .SITE_STATUS_EV_IGNORED n = min (d.rd .SITE_STATUS_EV_IGNORED n + 1) (2 ^ Fld.SITE_STATUS_EV_IGNORED.spec.width - 1)
  other : d.edgeQualifies n ev rise = false → (e.site n).start = (d.site n).start ∧ e.rd .SITE_STATUS_EV_IGNORED n = d.rd .SITE_STATUS_EV_IGNORED n
  posted : d.siteState n ≠ SiteState.EMPTY → ∃ x, x ∈ (e.site n).conds ∧ x.src = 0x30 + ev ∧ x.value = rise ∧ x.cycle = cycleAfter (t + ns 96)

/-- The sites `ns_` apart, an edge leaves everything but what it counts and sends. -/
structure Dev.EdgeFrame (ns_ : List Nat) (d e : Dev) : Prop where
  rd : d.keepsFields e edgeFields
  level : e.evLevel = d.evLevel
  sites : ∀ m, m ∉ ns_ → e.site m = d.site m ∧ e.rd .SITE_STATUS_EV_IGNORED m = d.rd .SITE_STATUS_EV_IGNORED m

theorem Dev.Edged.congr {d d' e : Dev} {ev : Nat} {rise : Bool} {t n : Nat} (rd : d.keepsFields d' edgeFields)
    (own : d'.site n = d.site n ∧ d'.rd .SITE_STATUS_EV_IGNORED n = d.rd .SITE_STATUS_EV_IGNORED n) (h : Dev.Edged d' e ev rise t n) : Dev.Edged d e ev rise t n := by
  obtain ⟨site, count⟩ := own
  have qualifies : d'.edgeQualifies n ev rise = d.edgeQualifies n ev rise := by
    unfold Dev.edgeQualifies
    rw [rd .SITE_EVENT_EV_SEL n (by decide), rd .SITE_EVENT_EDGE n (by decide)]
  have state : d'.siteState n = d.siteState n := rd _ _ (by decide)
  obtain ⟨starts, ignored, other, posted⟩ := h
  rw [qualifies, state, site, rd .SITE_EV_DELAY_DELAY n (by decide)] at starts
  rw [qualifies, state, count] at ignored
  rw [qualifies, site, count] at other
  rw [state] at posted
  exact ⟨starts, ignored, other, posted⟩

/-- A later change that leaves site `n` leaves what the edge meant to it. -/
theorem Dev.Edged.after {d e f : Dev} {ev : Nat} {rise : Bool} {t n : Nat} (h : Dev.Edged d e ev rise t n)
    (own : f.site n = e.site n ∧ f.rd .SITE_STATUS_EV_IGNORED n = e.rd .SITE_STATUS_EV_IGNORED n) : Dev.Edged d f ev rise t n := by
  obtain ⟨site, count⟩ := own
  exact ⟨by rw [site]; exact h.starts, by rw [count]; exact h.ignored, by rw [site, count]; exact h.other, by rw [site]; exact h.posted⟩

theorem Dev.evIgnored_rd (d : Dev) (n : Nat) (f : Fld) (i : Nat) : (d.count .SITE_STATUS_EV_IGNORED n 1).rd f i =
    if f = .SITE_STATUS_EV_IGNORED ∧ i = n then min (d.rd .SITE_STATUS_EV_IGNORED n + 1) (2 ^ Fld.SITE_STATUS_EV_IGNORED.spec.width - 1) else d.rd f i := by
  rw [Dev.count, Dev.wr_rd, Nat.mod_eq_of_lt]
  exact lt_of_le_of_lt (Nat.min_le_right _ _) (by decide)

/-- The condition that an edge posts at a site with members. -/
theorem Dev.edgePosted (d : Dev) (n ev : Nat) (rise : Bool) (t : Nat) :
    ∃ u, (if d.siteState n = SiteState.EMPTY then d else d.postCond n (0x30 + ev) rise t) = u ∧ u.quiet = d.quiet ∧ (∀ m, m ≠ n → u.site m = d.site m) ∧
      (u.site n).start = (d.site n).start ∧ (u.site n).mode = (d.site n).mode ∧
      (d.siteState n ≠ SiteState.EMPTY → ∃ x, x ∈ (u.site n).conds ∧ x.src = 0x30 + ev ∧ x.value = rise ∧ x.cycle = cycleAfter (t + ns 96)) := by
  refine ⟨_, rfl, ?_⟩
  split
  next empty => exact ⟨rfl, fun _ _ => rfl, rfl, rfl, fun h => absurd empty h⟩
  next =>
    obtain ⟨r, site⟩ := d.postCond_site n (0x30 + ev) rise t
    have own := site n
    rw [if_pos rfl] at own
    refine ⟨d.postCond_quiet .., fun m hm => (site m).trans (if_neg hm), by rw [own], by rw [own], fun _ => ⟨⟨cycleAfter (t + ns 96), 0x30 + ev, rise, false, t⟩, ?_, rfl, rfl, rfl⟩⟩
    rw [own]
    exact List.mem_append_right _ List.mem_cons_self

theorem Dev.setStart_level (d : Dev) (n t : Nat) : (d.setStart n t).evLevel = d.evLevel := foldl_keeps Dev.evLevel _ _ _ fun _ _ _ => rfl

theorem Dev.evLevel_of_quiet {d e : Dev} (quiet : e.quiet = d.quiet) : e.evLevel = d.evLevel := (congrArg (fun q => q.2.evLevel) quiet :)

theorem Dev.siteEdge_spec (d : Dev) (n ev : Nat) (rise : Bool) (t : Nat) :
    Dev.Edged d (d.siteEdge n ev rise t) ev rise t n ∧ Dev.EdgeFrame [n] d (d.siteEdge n ev rise t) := by
  unfold Dev.siteEdge
  dsimp only
  obtain ⟨u, hu, quiet, others, start, mode, posted⟩ := d.edgePosted n ev rise t
  rw [hu]
  have rd := Dev.keepsFields_of_quiet quiet
  have level : u.evLevel = d.evLevel := Dev.evLevel_of_quiet quiet
  have count (m : Nat) : u.rd .SITE_STATUS_EV_IGNORED m = d.rd .SITE_STATUS_EV_IGNORED m := rd _ _ (by decide)
  have frame : Dev.EdgeFrame [n] d u := ⟨Dev.keepsFields_mono rd (by decide), level, fun m hm => ⟨others m (by simpa using hm), count m⟩⟩
  split
  next qualifies =>
    split
    next idle =>
      have counted := u.evIgnored_rd n
      generalize hv : u.count .SITE_STATUS_EV_IGNORED n 1 = v at counted
      have sites : v.sites = u.sites := by rw [← hv]; rfl
      have own := (counted .SITE_STATUS_EV_IGNORED n).trans (if_pos ⟨rfl, rfl⟩)
      rw [count] at own
      refine ⟨⟨fun _ armed => ?_, fun _ _ => own, by simp [qualifies], by rw [Dev.site_congr sites]; exact posted⟩, ?_, ?_, fun m hm => ?_⟩
      · exact absurd armed idle
      · intro f i hf
        refine ((counted f i).trans (if_neg fun h => ?_)).trans (frame.rd f i hf)
        exact hf (h.1 ▸ List.mem_cons_self)
      · rw [← level, ← hv]; rfl
      · have hm : m ≠ n := by simpa using hm
        rw [Dev.site_congr sites, counted, if_neg (fun h => hm h.2)]
        exact ⟨others m hm, count m⟩
    next armed =>
      have armed : d.siteState n = SiteState.ARMED := not_not.mp armed
      split
      next waits =>
        obtain ⟨regs, others', own⟩ := u.setStart_spec n (t + ns (max 1000 (d.rd .SITE_EV_DELAY_DELAY n)))
        have level' := u.setStart_level n (t + ns (max 1000 (d.rd .SITE_EV_DELAY_DELAY n)))
        generalize u.setStart n _ = v at regs others' own level'
        refine ⟨⟨fun _ _ _ _ => by rw [own], fun _ h => absurd armed h, by simp [qualifies], by rw [own]; exact posted⟩,
          fun f i hf => (Dev.rd_congr regs f i).trans (frame.rd f i hf), level'.trans level, fun m hm => ?_⟩
        have hm : m ≠ n := by simpa using hm
        exact ⟨(others' m hm).trans (others m hm), (Dev.rd_congr regs _ _).trans (count m)⟩
      next fixed => exact ⟨⟨fun _ _ two none_ => absurd ⟨two, by rw [none_]; rfl⟩ fixed, fun _ h => absurd armed h, by simp [qualifies], posted⟩, frame⟩
  next plain => exact ⟨⟨fun h => absurd h plain, fun h => absurd h plain, fun _ => ⟨start, count n⟩, posted⟩, frame⟩

theorem Dev.edges_spec (ev : Nat) (rise : Bool) (t : Nat) (l : List Nat) (nodup : l.Nodup) (d : Dev) :
    (∀ n, n ∈ l → Dev.Edged d (l.foldl (fun d n => d.siteEdge n ev rise t) d) ev rise t n) ∧ Dev.EdgeFrame l d (l.foldl (fun d n => d.siteEdge n ev rise t) d) := by
  induction l generalizing d with
  | nil => exact ⟨by simp, fun _ _ _ => rfl, rfl, fun _ _ => ⟨rfl, rfl⟩⟩
  | cons n l ih =>
    obtain ⟨fresh, nodup⟩ := List.nodup_cons.mp nodup
    obtain ⟨first, frame⟩ := d.siteEdge_spec n ev rise t
    obtain ⟨later, frame'⟩ := ih nodup (d.siteEdge n ev rise t)
    rw [List.foldl_cons]
    refine ⟨fun m hm => ?_, fun f i hf => (frame'.rd f i hf).trans (frame.rd f i hf), frame'.level.trans frame.level, fun m hm => ?_⟩
    · obtain rfl | hm := List.mem_cons.mp hm
      · exact first.after (frame'.sites _ fresh)
      · exact (later m hm).congr frame.rd (frame.sites m (fun h => fresh (List.mem_singleton.mp h ▸ hm)))
    · obtain ⟨hn, hl⟩ := not_or.mp (fun h => hm (List.mem_cons.mpr h))
      obtain ⟨site, count⟩ := frame.sites m (by simpa using hn)
      obtain ⟨site', count'⟩ := frame'.sites m hl
      exact ⟨site'.trans site, count'.trans count⟩

end Sys2Proof.Machine

open Sys2Proof Sys2Proof.Machine

/-- Settles O21: the edge is signalled, then site by site it posts its condition and starts or is counted. -/
theorem eventEdgeStartsArmedSites : Obligations.EventEdgeStartsArmedSites := by
  intro s ev rise hev awake t
  refine acts_onDev rfl (decide_eq_true hev) ?_
  unfold Dev.core Dev.evEdge
  rw [if_neg (by simp [awake])]
  dsimp only
  generalize hu : ({ s.dev with evLevel := setBit s.dev.evLevel ev rise } : Dev) = u
  have regs : u.regs = s.dev.regs := by rw [← hu]
  have sites : u.sites = s.dev.sites := by rw [← hu]
  obtain ⟨quiet, sites'⟩ := u.signal_quiet .ev t ev 0 rise
  have rd : s.dev.keepsFields (u.signal .ev t ev 0 rise) edgeFields := fun f i hf =>
    (Dev.keepsFields_of_quiet quiet f i fun h => hf (List.mem_cons_of_mem _ h)).trans (Dev.rd_congr regs f i)
  have level : (u.signal .ev t ev 0 rise).evLevel = setBit s.dev.evLevel ev rise :=
    (Dev.evLevel_of_quiet quiet).trans (by rw [← hu])
  have own (n : Nat) : (u.signal .ev t ev 0 rise).site n = s.dev.site n ∧
      (u.signal .ev t ev 0 rise).rd .SITE_STATUS_EV_IGNORED n = s.dev.rd .SITE_STATUS_EV_IGNORED n :=
    ⟨Dev.site_congr (sites'.trans sites) n, (Dev.rd_of_quiet quiet (by decide) n).trans (Dev.rd_congr regs _ _)⟩
  obtain ⟨edged, frame⟩ := Dev.edges_spec ev rise t (List.range 64) List.nodup_range (u.signal .ev t ev 0 rise)
  generalize (List.range 64).foldl _ (u.signal .ev t ev 0 rise) = e at edged frame
  generalize u.signal .ev t ev 0 rise = v at rd level own edged frame
  have each (n : Nat) (hn : n < 64) := (edged n (List.mem_range.mpr hn)).congr rd (own n)
  refine ⟨?_, fun k hk => ?_, fun n hn => (each n hn).starts, fun n hn => (each n hn).ignored, fun n hn => (each n hn).other, fun n hn => (each n hn).posted,
    fun n => ?_, fun f i hf => (frame.rd f i hf).trans (rd f i hf)⟩
  · rw [frame.level, level, bitAt_setBit, if_pos rfl]
  · rw [frame.level, level, bitAt_setBit, if_neg hk]
  · exact (frame.rd _ _ (by decide)).trans (rd _ _ (by decide))
end

section
/-!
PROOF. Conditions, rendezvous and the seam clock of a running site (R48, R56 to R58, R61, R70, R169).
-/
namespace Sys2Proof.Machine

/-! ### The events of one cycle on the condition word (R56, R57) -/

/-- Bits of a list set or cleared: those bits, and every other. -/
theorem bitAt_setAll (b : Bool) (l : List Nat) (w i : Nat) : bitAt (l.foldl (fun w c => setBit w c b) w) i = if i ∈ l then b else bitAt w i := by
  induction l generalizing w with
  | nil => rfl
  | cons c t ih =>
    rw [List.foldl_cons, ih, bitAt_setBit]
    by_cases h : i = c <;> simp [h]

/-- The bits that the events of a list set or clear. -/
theorem bitAt_setEach {β : Type} (b : Bool) (g : β → List Nat) (l : List β) (w i : Nat) :
    bitAt (l.foldl (fun w e => (g e).foldl (fun w c => setBit w c b) w) w) i = if l.any (fun e => (g e).contains i) then b else bitAt w i := by
  induction l generalizing w with
  | nil => rfl
  | cons e t ih =>
    rw [List.foldl_cons, ih, bitAt_setAll]
    by_cases h : i ∈ g e <;> simp [h]

/-- A set wins over a clear, a bit that no event names stays. -/
theorem Dev.bitAt_condWord (d : Dev) (n : Nat) (es : List CondEv) (i : Nat) : bitAt (d.condWord n es) i =
    (es.any (fun e => e.value && (d.condsOf n e).contains i) ||
      (!es.any (fun e => !e.value && (d.condsOf n e).contains i) && bitAt (d.rd .SITE_COND_C n) i)) := by
  unfold Dev.condWord
  dsimp only
  rw [bitAt_setEach, bitAt_setEach, List.any_filter, List.any_filter]
  cases es.any (fun e => e.value && (d.condsOf n e).contains i) <;> cases es.any (fun e => !e.value && (d.condsOf n e).contains i) <;> simp

/-- The first of the cycles in a list of events. -/
theorem foldl_min_cycle {c : Nat} (l : List CondEv) (a : Nat) (low : c ≤ a ∧ ∀ x, x ∈ l → c ≤ x.cycle) (hit : c = a ∨ ∃ x, x ∈ l ∧ x.cycle = c) :
    l.foldl (fun c x => min c x.cycle) a = c := by
  induction l generalizing a with
  | nil => simpa [eq_comm] using hit
  | cons y t ih =>
    obtain ⟨ha, hl⟩ := low
    have hy := hl y List.mem_cons_self
    rw [List.foldl_cons]
    refine ih (min a y.cycle) ⟨by omega, fun x hx => hl x (List.mem_cons_of_mem _ hx)⟩ ?_
    obtain h | ⟨x, hx, h⟩ := hit
    · exact .inl (by omega)
    · obtain rfl | hx := List.mem_cons.mp hx
      · exact .inl (by omega)
      · exact .inr ⟨x, hx, h⟩

/-- The block at site `n` after the events of cycle `c`, before it tells of them. -/
def Dev.condApplied (d : Dev) (n c : Nat) (es : List CondEv) : Dev :=
  (d.upSite n (fun S => { S with conds := S.conds.filter (fun x => x.cycle != c), condLog := ((c, d.rd .SITE_COND_C n) :: S.condLog).take 64 })).wr
    .SITE_COND_C n (d.condWord n es)

theorem Dev.applyConds_eq {d : Dev} {n c : Nat} (hit : ∃ x, x ∈ (d.site n).conds.filter (fun e => decide (e.cycle ≤ d.bed / cycleTicks)) ∧ x.cycle = c)
    (low : ∀ x, x ∈ (d.site n).conds.filter (fun e => decide (e.cycle ≤ d.bed / cycleTicks)) → c ≤ x.cycle) :
    ∃ is : List Nat, ∃ told : Nat → Bool, d.applyConds n = is.foldl (fun d i => d.signal .cond (c * cycleTicks) n i (told i))
      (d.condApplied n c (((d.site n).conds.filter (fun e => decide (e.cycle ≤ d.bed / cycleTicks))).filter (fun x => x.cycle == c))) := by
  unfold Dev.applyConds
  dsimp only
  cases due : (d.site n).conds.filter (fun e => decide (e.cycle ≤ d.bed / cycleTicks)) with
  | nil => rw [due] at hit; simp at hit
  | cons e t =>
    rw [due] at hit low
    have first : t.foldl (fun c x => min c x.cycle) e.cycle = c := by
      refine foldl_min_cycle t _ ⟨low e List.mem_cons_self, fun x hx => low x (List.mem_cons_of_mem _ hx)⟩ ?_
      obtain ⟨x, hx, h⟩ := hit
      obtain rfl | hx := List.mem_cons.mp hx
      · exact .inl h.symm
      · exact .inr ⟨x, hx, h⟩
    dsimp only
    rw [first]
    exact ⟨_, _, rfl⟩

theorem Dev.condApplied_rd (d : Dev) (n c : Nat) (es : List CondEv) (f : Fld) (i : Nat) :
    (d.condApplied n c es).rd f i = if f = .SITE_COND_C ∧ i = n then d.condWord n es % 2 ^ 32 else d.rd f i := Dev.wr_rd ..

theorem Dev.condApplied_site (d : Dev) (n c : Nat) (es : List CondEv) (m : Nat) : (d.condApplied n c es).site m =
    if m = n then { d.site n with conds := (d.site n).conds.filter (fun x => x.cycle != c), condLog := ((c, d.rd .SITE_COND_C n) :: (d.site n).condLog).take 64 }
    else d.site m := Dev.upSite_site d n m
      (fun S => { S with conds := S.conds.filter (fun x => x.cycle != c), condLog := ((c, d.rd .SITE_COND_C n) :: S.condLog).take 64 })

theorem Dev.evSignal_regs (d : Dev) (k : SigKind) (t u i : Nat) (b : Bool) : (d.evSignal k t u i b).regs = d.regs := by
  unfold Dev.evSignal
  refine foldl_keeps Dev.regs _ _ d fun d e _ => ?_
  have pulse : (d.evPulse e t).regs = d.regs := by
    unfold Dev.evPulse
    dsimp only
    (repeat' split) <;> rfl
  dsimp only
  split
  · split <;> rfl
  · split <;> rfl
  · split
    · exact pulse
    · rfl
  · rfl

theorem Dev.signal_regs (d : Dev) (k : SigKind) (t u i : Nat) (b : Bool) : (d.signal k t u i b).regs = d.regs := by
  unfold Dev.signal
  dsimp only
  refine (foldl_keeps Dev.regs _ _ _ fun d w _ => ?_).trans (d.evSignal_regs k t u i b)
  split <;> rfl

theorem conditionChange_acts (s : State) (n c : Nat) (hn : n < 64) (awake : s.dev.asleep = false) :
    let due := (s.dev.site n).conds.filter (fun e => decide (e.cycle ≤ s.dev.bed / cycleTicks))
    (∃ x, x ∈ due ∧ x.cycle = c) → (∀ x, x ∈ due → c ≤ x.cycle) →
    Acts (.conditionChange n) s (fun e =>
      let hit := fun (b : Bool) (i : Nat) => due.any (fun x => x.cycle == c && x.value == b && (s.dev.condsOf n x).contains i)
      (∀ i, i < 32 → bitAt (e.rd .SITE_COND_C n) i = (hit true i || (!hit false i && bitAt (s.dev.rd .SITE_COND_C n) i))) ∧
      (e.site n).conds = (s.dev.site n).conds.filter (fun x => x.cycle != c) ∧ (∀ m, m ≠ n → e.site m = s.dev.site m) ∧
      s.dev.keepsBut e [(.SITE_COND_C, n)]) := by
  intro due some_ low
  refine acts_onDev rfl (decide_eq_true hn) ?_
  unfold Dev.core
  rw [if_neg (by simp [awake])]
  dsimp only
  obtain ⟨is, told, way⟩ := Dev.applyConds_eq some_ low
  rw [way]
  have rd := s.dev.condApplied_rd n c (due.filter (fun x => x.cycle == c))
  have site := s.dev.condApplied_site n c (due.filter (fun x => x.cycle == c))
  generalize s.dev.condApplied n c (due.filter (fun x => x.cycle == c)) = u at rd site
  have regs : (is.foldl (fun d i => d.signal .cond (c * cycleTicks) n i (told i)) u).regs = u.regs :=
    foldl_keeps Dev.regs _ _ u fun d i _ => d.signal_regs _ _ _ _ _
  have sites : (is.foldl (fun d i => d.signal .cond (c * cycleTicks) n i (told i)) u).sites = u.sites :=
    foldl_keeps Dev.sites _ _ u fun d i _ => (d.signal_quiet _ _ _ _ _).2
  refine ⟨fun i hi => ?_, ?_, fun m hm => ?_, fun f i hf => ?_⟩
  · rw [Dev.rd_congr regs, rd, if_pos ⟨rfl, rfl⟩, bitAt_mod _ _ _ hi, Dev.bitAt_condWord]
    simp only [List.any_filter, Bool.and_assoc, beq_true, beq_false]
  · rw [Dev.site_congr sites, site, if_pos rfl]
  · rw [Dev.site_congr sites, site, if_neg hm]
  · rw [Dev.rd_congr regs, rd, if_neg]
    rintro ⟨rfl, rfl⟩
    exact hf (List.mem_singleton.mpr rfl)

/-! ### The grid point of a rendezvous (R58, R169) -/

theorem Dev.spacing_pin {p q : Nat} (hq : q ≠ p) (d : Dev) (n : Nat) : (d.spacing p n).pin q = d.pin q := by
  unfold Dev.spacing
  dsimp only
  split
  · rfl
  · split
    · rfl
    · generalize hu : Dev.upPin _ p _ = u
      show u.pin q = d.pin q
      rw [← hu, Dev.upPin_pin, if_neg hq]
      rfl

theorem Dev.settle_pin {p q : Nat} (hq : q ≠ p) (d : Dev) (hz : Int) : (d.settle p hz).pin q = d.pin q :=
  (Dev.spacing_pin hq _ _).trans ((Dev.upPin_pin ..).trans (if_neg hq))

theorem Dev.holdHead_pin {l q : Nat} {d : Dev} (hq : q ∉ d.lanePins l) : (d.holdHead l).pin q = d.pin q := by
  unfold Dev.holdHead
  split
  · refine foldl_keeps (fun d : Dev => d.pin q) _ _ d fun d p hp => Dev.settle_pin (fun h => ?_) d _
    exact hq (h ▸ hp)
  · rfl

/-- The pins of a lane rest on the sites' masks. -/
theorem Dev.lanePins_of {d e : Dev} {L : List Fld} (rd : d.keepsFields e L) (member : .SITE_MEMBER_MASK ∉ L) (priv : .SITE_PRIVATE_MASK ∉ L) (l : Nat) :
    e.lanePins l = d.lanePins l := by
  unfold Dev.lanePins Dev.sharedPins Dev.privMask
  simp only [rd _ _ member, rd _ _ priv]

/-- The pin whose next vector begins at the grid point `g`. -/
def Pin.atGrid (g : Nat) (P : Pin) : Pin :=
  { P with tNext := g, fifo := match P.fifo with
      | v :: t => { v with grid := none } :: t
      | [] => [] }

/-- No seam stands before a hold that is at the head of the FIFOs, where the lane has asked for none. -/
theorem Dev.seamAt_hold {d : Dev} {l n p g : Nat} {v : Vec} (owner : d.laneSite l = some n) (first : d.lanePin l = some p) (head : (d.pin p).fifo.head? = some v)
    (hold : v.grid = some g) (rests : (d.lane l).rests = []) : d.seamAt l = d := by
  have none_ : d.restSeams n l = d := by
    unfold Dev.restSeams
    simp [rests]
  unfold Dev.seamAt
  rw [owner, first]
  dsimp only
  rw [none_]
  simp [head, hold]

theorem gridPoint_acts (s : State) (l n p g : Nat) (v : Vec) (hl : l < 320) (owner : s.dev.laneSite l = some n) (first : s.dev.lanePin l = some p)
    (head : (s.dev.pin p).fifo.head? = some v) (hold : v.grid = some g) (rests : (s.dev.lane l).rests = []) (running : s.dev.siteState n = SiteState.RUNNING)
    (due : g ≤ s.dev.bed + ns 12) :
    Acts (.gridPoint l) s (fun e =>
      (s.dev.endedBy n l g = false → ∀ q w r, q ∈ s.dev.lanePins l → (s.dev.pin q).fifo = w :: r →
        (e.pin q).tNext = g ∧ (e.pin q).fifo = { w with grid := none } :: r) ∧
      (s.dev.endedBy n l g = true → e.pins = s.dev.pins) ∧
      (∀ q, q ∉ s.dev.lanePins l → e.pin q = s.dev.pin q) ∧ e.sites = s.dev.sites ∧
      s.dev.keepsFields e [.RN_PORT_COUNT_FWD, .PIN_TF_STATUS_SPACING, .PIN_TF_STATUS_SPACING_COUNT]) := by
  refine acts_onDev rfl (decide_eq_true hl) ?_
  unfold Dev.gridPoint
  rw [Dev.seamAt_hold owner first head hold rests]
  simp only [first, Option.bind_some, head, hold, owner, Option.getD_some]
  split
  next goes =>
    obtain ⟨-, -, open_⟩ := goes
    have held := s.dev.holdHead_emits l
    have kept : ∀ q, q ∉ s.dev.lanePins l → (s.dev.holdHead l).pin q = s.dev.pin q := fun q hq => Dev.holdHead_pin hq
    have pins : (s.dev.holdHead l).lanePins l = s.dev.lanePins l := Dev.lanePins_of held.rd (by decide) (by decide) l
    rw [pins]
    generalize s.dev.holdHead l = u at held kept
    have at_ := foldl_once (v := Dev.pin) (g := fun d p => d.upPin p (Pin.atGrid g)) (G := fun _ P => P.atGrid g) (fun d p => by simp) (fun d p q hq => by simp [hq])
      (s.dev.lanePins l) (s.dev.lanePins_nodup l) u
    have rest := foldl_keeps (fun d : Dev => ({ d with pins := [] } : Dev)) (fun d p => d.upPin p (Pin.atGrid g)) (s.dev.lanePins l) u (fun _ _ _ => rfl)
    refine ⟨fun _ q w r hq hw => ?_, fun h => by simp [h] at open_, fun q hq => ?_, ?_, fun f i hf => ?_⟩
    · have own := (at_ q).trans (if_pos hq)
      exact ⟨(congrArg Pin.tNext own :), (congrArg Pin.fifo own : _).trans (by simp [Pin.atGrid, held.fifo q, hw])⟩
    · exact ((at_ q).trans (if_neg hq)).trans (kept q hq)
    · exact (congrArg Dev.sites rest :).trans (congrArg Dev.sites held.rest :)
    · exact (Dev.rd_congr (congrArg Dev.regs rest :) f i).trans (held.rd f i (by simpa [emitFields] using hf))
  next ended => exact ⟨fun h => absurd ⟨running, due, by simp [h]⟩ ended, fun _ => rfl, fun _ _ => rfl, rfl, fun _ _ _ => rfl⟩

theorem seamDeadline_acts (s : State) (n c : Nat) (hn : n < 64) (clock : (s.dev.site n).seamClock = some c) (fresh : (s.dev.site n).seamNoted = false)
    (late : c + ns (s.dev.rd .SITE_SEAM_DEADLINE_NS n) ≤ s.dev.now) :
    Acts (.seamDeadline n) s (fun e => e.on .SITE_STATUS_STALE n = true ∧ (e.site n).stale = true ∧ (e.site n).seamNoted = true ∧
      e.raised = s.dev.raised ++ [⟨0x1C1, n, 0, s.dev.cycle⟩] ∧ (∀ m, m ≠ n → e.site m = s.dev.site m) ∧
      s.dev.keepsBut e [(.SITE_STATUS_STALE, n)]) := by
  refine acts_onDev rfl (decide_eq_true hn) ?_
  unfold Dev.seamDeadline
  rw [clock]
  dsimp only
  rw [if_pos ⟨by simp [fresh], late⟩]
  have rd (f : Fld) (i : Nat) := (s.dev.raise 0x1C1 n).set1_rd .SITE_STATUS_STALE f n i
  generalize hu : (s.dev.raise 0x1C1 n).set1 .SITE_STATUS_STALE n = u at rd
  have site (m : Nat) : u.site m = s.dev.site m := by rw [← hu]; rfl
  refine ⟨?_, by simp, by simp, by rw [← hu]; rfl, fun m hm => ?_, fun f i hf => ?_⟩
  · exact beq_iff_eq.mpr ((rd _ _).trans (if_pos ⟨rfl, rfl⟩))
  · rw [Dev.upSite_site, if_neg hm, site]
  · refine (rd f i).trans (if_neg ?_)
    rintro ⟨rfl, rfl⟩
    exact hf (List.mem_singleton.mpr rfl)

end Sys2Proof.Machine

open Sys2Proof Sys2Proof.Machine

/-- Settles O20: the events of the first cycle by the bits they set and clear; the grid point by what it leaves of each pin; the seam clock. -/
theorem runningEventsChangeConditionsAndPins : Obligations.RunningEventsChangeConditionsAndPins :=
  ⟨conditionChange_acts, gridPoint_acts, seamDeadline_acts⟩
end

section
/-!
SUPPORT. The end of a drive (R48, R83, R84, R135, R190).
-/
namespace Sys2Proof.Machine

/-! ### What an engine cycle has staged -/

/-- What has been staged in the engine cycle is as before. -/
def Dev.keepsStaged (d e : Dev) : Prop := e.cycNow.staged = d.cycNow.staged

theorem Dev.keepsStaged.trans {d e f : Dev} (h : d.keepsStaged e) (k : e.keepsStaged f) : d.keepsStaged f := Eq.trans k h

theorem Dev.set1_staged (d : Dev) (f : Fld) (i : Nat) : d.keepsStaged (d.set1 f i) := by
  have at_ : d.cycNow.at_ = d.cycle := by
    unfold Dev.cycNow
    split <;> [assumption; rfl]
  have now : (d.set1 f i).cycNow = (d.set1 f i).cyc := by
    unfold Dev.cycNow
    exact if_pos at_
  rw [Dev.keepsStaged, now]
  rfl

theorem Dev.spacing_staged (d : Dev) (p n : Nat) : d.keepsStaged (d.spacing p n) := by
  unfold Dev.spacing
  dsimp only
  split
  · rfl
  · have noted : d.keepsStaged ((d.count .PIN_TF_STATUS_SPACING_COUNT p n).set1 .PIN_TF_STATUS_SPACING p) := Dev.set1_staged (d.count _ p n) _ p
    split
    · exact noted
    · exact noted

theorem Dev.settle_staged (d : Dev) (p : Nat) (hz : Int) : d.keepsStaged (d.settle p hz) := by
  unfold Dev.settle
  dsimp only
  generalize hu : d.upPin p _ = u
  have same : d.keepsStaged u := by rw [← hu]; rfl
  exact same.trans (u.spacing_staged p _)

theorem Dev.idleAt_staged (d : Dev) (p : Nat) (t : Int) : d.keepsStaged (d.idleAt p t) := by
  have ask : d.keepsStaged (d.askIdle p t) := by
    unfold Dev.askIdle
    dsimp only
    split <;> rfl
  exact ask.trans (Dev.settle_staged _ p _)

/-! ### The sequencers at the end of a drive -/

/-- A sequencer whose drive has ended stops, but for microcode that takes the ABORT at its yield point (R83, R84). -/
def Lane.ended (L : Lane) : Lane :=
  if L.upc.isSome && (L.hand == some 0 || L.irqs.any (·.1 == 0)) then L else { L with phase := .stopped, fault := none }

theorem Lane.ended_ended (L : Lane) : L.ended.ended = L.ended := by
  unfold Lane.ended
  split <;> rfl

theorem Lane.ended_plain {L : Lane} (h : L.upc = none) : L.ended.phase = .stopped := by
  unfold Lane.ended
  rw [if_neg (by simp [h])]

theorem Lane.ended_image {L : Lane} (h : L.upc ≠ none) (hand : L.hand = some 0) : L.ended = L := by
  unfold Lane.ended
  exact if_pos (by simp [hand, Option.isSome_iff_ne_none, h])

/-- The block but for sequencers and pins. -/
def Dev.undriven (d : Dev) : Dev := { d with lanes := [], pins := [] }

theorem Dev.endLanes_spec (ls : List Nat) (d : Dev) (l : Nat) : (ls.foldl (fun d l => d.upLane l Lane.ended) d).undriven = d.undriven ∧
    (ls.foldl (fun d l => d.upLane l Lane.ended) d).lane l = if l ∈ ls then (d.lane l).ended else d.lane l :=
  ⟨foldl_keeps Dev.undriven _ _ d fun _ _ _ => rfl,
    foldl_idem (v := Dev.lane) (G := Lane.ended) Lane.ended_ended (fun d l => by simp) (fun d l k hk => by simp [hk]) ls d l⟩

/-! ### The seam at the end of a drive -/

theorem Dev.moves_lanes {β : Type} (l : List β) (k : β → Fld × Nat) (d : Dev) : (l.foldl (fun d b => d.move (k b).1 (k b).2) d).lanes = d.lanes :=
  foldl_keeps Dev.lanes _ l d fun _ _ _ => rfl

theorem Dev.moveCond_lanes (d : Dev) (n : Nat) : (d.moveCond n).lanes = d.lanes := by
  have moves := Dev.moves_lanes (List.range 32) (fun c => (Fld.SITE_CSRC_SRC, n * 32 + c)) d
  have last (e : Dev) : ((e.move .SITE_SPAN_CMASK_CMASK n).upSite n (fun S => { S with condPend := false })).lanes = e.lanes := rfl
  unfold Dev.moveCond
  dsimp only
  rw [last]
  exact moves

theorem Dev.fullSeam_lanes {d : Dev} (staged : d.cycNow.staged = []) (n : Nat) : (d.fullSeam n).lanes = d.lanes := by
  rw [Dev.fullSeam_plain staged]
  have members : (d.membersSeam n).lanes = d.lanes := by
    refine foldl_keeps Dev.lanes _ _ d fun d p _ => ?_
    have trims (e : Dev) : (e.takeTrims p).lanes = e.lanes := by unfold Dev.takeTrims; split <;> rfl
    exact (trims _).trans (congrArg Dev.lanes (d.movePending_records p) :)
  have cond (e : Dev) : (e.condSeam n).lanes = e.lanes := by
    unfold Dev.condSeam
    split
    · exact e.moveCond_lanes n
    · rfl
  have last (e : Dev) : ((e.endSeamClock n).tally 0x13 n 1).lanes = e.lanes := rfl
  rw [last, cond, members]

/-- The seam of a whole site: its members' groups and its own, its clock; nothing else. -/
theorem Dev.fullSeam_spec {d : Dev} (staged : d.cycNow.staged = []) (n : Nat) : d.keepsFields (d.fullSeam n) siteSeamFields ∧
    (d.fullSeam n).tracker = d.tracker ∧ (d.fullSeam n).lanes = d.lanes ∧
    ∀ m, (d.fullSeam n).site m = if m = n then { d.site n with condPend := false, seamClock := none, seamNoted := false } else d.site m := by
  have moved := d.membersSeam_moved n
  obtain ⟨crd, -, ctracker, csite, -, -⟩ := (d.membersSeam n).condSeam_spec n
  obtain ⟨erd, -, etracker, -, esite⟩ := Dev.endSeam_spec ((d.membersSeam n).condSeam n) n _ (Dev.fullSeam_plain staged n)
  refine ⟨fun f i hf => ?_, etracker.trans (ctracker.trans moved.tracker), Dev.fullSeam_lanes staged n, fun m => ?_⟩
  · have stale : f ≠ .SITE_STATUS_STALE_ACTIVE := fun h => hf (h ▸ by decide)
    exact (erd f i stale).trans ((crd f i).trans (moved.rd f i (.inl fun h => hf (List.mem_append_left _ h))))
  · rw [esite, csite, csite, Dev.site_congr moved.sites, Dev.site_congr moved.sites]
    by_cases hm : m = n <;> simp [hm]

/-! ### The end of a drive -/

/-- From `d` to `e` the drive of site `n` has ended at `t`. -/
structure Dev.DriveEnded (n t : Nat) (d e : Dev) : Prop where
  states : ∀ m, e.siteState m = d.siteState m
  sites : ∀ m, m ≠ n → e.site m = d.site m
  own : (e.site n).ended = true ∧ (e.site n).endAt = some t ∧ (e.site n).condPend = false
  lanes : ∀ l, l ∈ d.siteLanes n → e.lane l = (d.lane l).ended
  tracker : e.tracker = d.tracker

/-- The pins of site `n` go to their idle code 1 ns after their ends (R190). -/
def Dev.idlePins (d : Dev) (n t : Nat) : Dev := (d.members n).foldl (fun d p => d.idleAt p (max t (d.pin p).tNext + ns 1 : Nat)) d

/-- The block with the sequencers of the site stopped whose FIFOs are empty (R48, R83). -/
def Dev.endLanes (ls : List Nat) (d : Dev) : Dev := ls.foldl (fun d l => d.upLane l Lane.ended) d

/-- The block with the FIFOs of the pins with programs of their own at site `n` dropped. -/
def Dev.dropPrivate (d : Dev) (n : Nat) : Dev := (d.privatePins n).foldl (fun d p => d.dropFifo p) d

theorem Dev.endDrive_eq (d : Dev) (n t : Nat) : d.endDrive n t =
    ((((d.dropPrivate n).endLanes ((d.dropPrivate n).siteLanes n)).idlePins n t).fullSeam n).upSite n (fun S => { S with ended := true, endAt := some t, lastEnd := t }) := by
  unfold Dev.endDrive Dev.idlePins Dev.endLanes Dev.dropPrivate Lane.ended
  rfl

theorem Dev.siteLanes_of {d e : Dev} {L : List Fld} (rd : d.keepsFields e L) (member : .SITE_MEMBER_MASK ∉ L) (priv : .SITE_PRIVATE_MASK ∉ L) (n : Nat) :
    e.siteLanes n = d.siteLanes n := by
  unfold Dev.siteLanes Dev.privatePins Dev.privMask
  simp only [rd _ _ member, rd _ _ priv]

theorem Dev.endDrive_ended {d : Dev} (staged : d.cycNow.staged = []) (n t : Nat) : Dev.DriveEnded n t d (d.endDrive n t) := by
  rw [Dev.endDrive_eq]
  have dropped : ({ d.dropPrivate n with pins := [] } : Dev) = { d with pins := [] } :=
    foldl_keeps (fun d : Dev => ({ d with pins := [] } : Dev)) _ _ d fun _ _ _ => rfl
  generalize d.dropPrivate n = d1 at dropped
  have regs1 : d1.regs = d.regs := (congrArg Dev.regs dropped :)
  rw [Dev.siteLanes_of (Dev.keepsFields_of_regs regs1) (by simp) (by simp) n]
  have ended := Dev.endLanes_spec (d.siteLanes n) d1
  rw [← Dev.endLanes] at ended
  generalize d1.endLanes (d.siteLanes n) = d2 at ended
  have rest2 : d2.undriven = d.undriven := (ended 0).1.trans (congrArg (fun d : Dev => ({ d with lanes := [] } : Dev)) dropped :)
  have idle : Dev.Emits d2 (d2.idlePins n t) := Dev.Emits.foldl (fun d p => d.idleAt_emits p _) _ d2
  have staged3 : (d2.idlePins n t).cycNow.staged = d2.cycNow.staged := foldl_keeps (fun d : Dev => d.cycNow.staged) _ _ d2 fun d p _ => d.idleAt_staged p _
  generalize d2.idlePins n t = d3 at idle staged3
  have staged' : d3.cycNow.staged = [] := staged3.trans ((congrArg (fun d : Dev => d.cycNow.staged) rest2 :).trans staged)
  obtain ⟨rd, tracker, lanes, site⟩ := Dev.fullSeam_spec staged' n
  generalize d3.fullSeam n = e at rd tracker lanes site
  have regs2 : d2.regs = d.regs := (congrArg Dev.regs rest2 :)
  have sites3 : d3.sites = d.sites := (congrArg Dev.sites idle.rest :).trans (congrArg Dev.sites rest2 :)
  refine ⟨fun m => ?_, fun m hm => ?_, ?_, fun l hl => ?_, ?_⟩
  · exact (rd _ _ (by decide)).trans ((idle.rd _ _ (by decide)).trans (Dev.rd_congr regs2 _ _))
  · rw [Dev.upSite_site, if_neg hm, site, if_neg hm, Dev.site_congr sites3]
  · rw [Dev.upSite_site, if_pos rfl, site, if_pos rfl]
    exact ⟨rfl, rfl, rfl⟩
  · have lane1 : d1.lane l = d.lane l := Dev.lane_congr (congrArg Dev.lanes dropped :) l
    exact (Dev.lane_congr lanes l).trans ((idle.lane l).trans ((ended l).2.trans ((if_pos hl).trans (congrArg Lane.ended lane1))))
  · exact tracker.trans ((congrArg Dev.tracker idle.rest :).trans (congrArg Dev.tracker rest2 :))

end Sys2Proof.Machine
end

section
/-!
PROOF. The end of a burst and of its drain (R48, R49, R52, R108, R190, R222, R304, R307, R328).
-/
namespace Sys2Proof.Machine

/-! ### The end of the drive -/

theorem Dev.DriveEnded.sequencers {n t : Nat} {d e : Dev} (h : Dev.DriveEnded n t d e) :
    (∀ l, l ∈ d.siteLanes n → (d.lane l).upc = none → (e.lane l).phase = .stopped) ∧
      (∀ l, l ∈ d.siteLanes n → (d.lane l).upc ≠ none → (d.lane l).hand = some 0 → e.lane l = d.lane l) :=
  ⟨fun l hl native => by rw [h.lanes l hl, Lane.ended_plain native], fun l hl image hand => by rw [h.lanes l hl, Lane.ended_image image hand]⟩

/-- A halted program that asks for no seam ends without one. -/
theorem Dev.seamAt_halted {d : Dev} {n p : Nat} (hn : n < 64) (running : d.siteState n = SiteState.RUNNING) (first : d.lanePin n = some p)
    (empty : (d.pin p).fifo = []) (noSeam : (d.lane n).seamNext = 0) (rests : (d.lane n).rests = []) : d.seamAt n = d := by
  have owner : d.laneSite n = some n := if_pos hn
  have none_ : d.restSeams n n = d := by
    unfold Dev.restSeams
    simp [rests]
  unfold Dev.seamAt
  rw [owner, first]
  dsimp only
  rw [none_]
  simp [running, empty, noSeam]

theorem burstEnd_runs (s : State) (n p : Nat) (hn : n < 64) (running : s.dev.siteState n = SiteState.RUNNING) (free : s.dev.failStopDue n s.dev.bed = false)
    (first : s.dev.lanePin n = some p) (ended : s.dev.programEnded n = true) (noSeam : (s.dev.lane n).seamNext = 0) (rests : (s.dev.lane n).rests = [])
    (staged : s.dev.cycNow.staged = []) :
    Acts (.burstEnd n) s (fun e => e.siteState n = SiteState.DRAINING ∧ (e.site n).ended = true ∧ (e.site n).endAt = some (s.dev.pin p).tNext ∧
      (∀ l, l ∈ s.dev.siteLanes n → (s.dev.lane l).upc = none → (e.lane l).phase = .stopped) ∧
      (∀ l, l ∈ s.dev.siteLanes n → (s.dev.lane l).upc ≠ none → (s.dev.lane l).hand = some 0 → e.lane l = s.dev.lane l) ∧ (e.site n).condPend = false ∧
      (∀ m, m ≠ n → e.site m = s.dev.site m ∧ e.siteState m = s.dev.siteState m) ∧ e.tracker = s.dev.tracker) := by
  have empty : (s.dev.pin p).fifo = [] := by
    unfold Dev.programEnded at ended
    rw [first] at ended
    simp only [Bool.and_eq_true, List.isEmpty_iff] at ended
    exact ended.1.2
  refine acts_onDev rfl (decide_eq_true hn) ?_
  unfold Dev.burstEnd
  dsimp only
  rw [if_neg (fun h => by rw [running] at h; exact absurd h.1 (by decide)), if_neg (by simp [free]), if_pos ⟨running, ended⟩,
    Dev.seamAt_halted hn running first empty noSeam rests, if_pos running, first, Option.map_some, Option.getD_some]
  have state (f : Fld) (i : Nat) : (s.dev.wr .SITE_STATUS_STATE n SiteState.DRAINING).rd f i =
      if f = .SITE_STATUS_STATE ∧ i = n then SiteState.DRAINING else s.dev.rd f i := s.dev.wr_rd ..
  generalize hu : s.dev.wr .SITE_STATUS_STATE n SiteState.DRAINING = u at state
  have drive := Dev.endDrive_ended (d := u) (by rw [← hu]; exact staged) n (s.dev.pin p).tNext
  have lanes : u.siteLanes n = s.dev.siteLanes n := Dev.siteLanes_of (L := [.SITE_STATUS_STATE])
    (fun f i hf => (state f i).trans (if_neg fun h => hf (List.mem_singleton.mpr h.1))) (by simp) (by simp) n
  obtain ⟨stopped, kept⟩ := drive.sequencers
  obtain ⟨end_, at_, cond⟩ := drive.own
  rw [lanes] at stopped kept
  have lane (l : Nat) : u.lane l = s.dev.lane l := by rw [← hu]; rfl
  refine ⟨(drive.states n).trans ((state _ _).trans (if_pos ⟨rfl, rfl⟩)), end_, at_, fun l hl => ?_, fun l hl => ?_, cond, fun m hm => ⟨?_, ?_⟩, ?_⟩
  · exact lane l ▸ stopped l hl
  · exact lane l ▸ kept l hl
  · rw [drive.sites m hm, ← hu]; rfl
  · exact (drive.states m).trans ((state _ _).trans (if_neg fun h => hm h.2))
  · rw [drive.tracker, ← hu]; rfl

theorem burstEnd_drains (s : State) (n t : Nat) (hn : n < 64) (draining : s.dev.siteState n = SiteState.DRAINING) (open_ : (s.dev.site n).ended = false)
    (at_ : (s.dev.site n).endAt = some t) (due : t ≤ s.dev.bed) (staged : s.dev.cycNow.staged = []) :
    Acts (.burstEnd n) s (fun e => e.siteState n = SiteState.DRAINING ∧ (e.site n).ended = true ∧ (e.site n).endAt = some t ∧
      (∀ l, l ∈ s.dev.siteLanes n → (s.dev.lane l).upc = none → (e.lane l).phase = .stopped) ∧
      (∀ l, l ∈ s.dev.siteLanes n → (s.dev.lane l).upc ≠ none → (s.dev.lane l).hand = some 0 → e.lane l = s.dev.lane l) ∧ e.tracker = s.dev.tracker) := by
  refine acts_onDev rfl (decide_eq_true hn) ?_
  unfold Dev.burstEnd
  dsimp only
  rw [if_pos ⟨draining, by simp [open_]⟩, at_]
  dsimp only
  rw [if_pos due]
  have drive := Dev.endDrive_ended staged n t
  obtain ⟨stopped, kept⟩ := drive.sequencers
  exact ⟨(drive.states n).trans draining, drive.own.1, drive.own.2.1, stopped, kept, drive.tracker⟩

/-- A site that runs or is paused stops by draining. -/
theorem Dev.stopSite_runs {d : Dev} {n : Nat} (h : d.siteState n = SiteState.RUNNING ∨ d.siteState n = SiteState.PAUSED) (r st early : Nat) (b : Bool) :
    d.stopSite n r st early b = d.drain n r st b := by
  unfold Dev.stopSite
  obtain h | h := h <;> rw [h] <;> rfl

theorem Dev.drain_tracker (d : Dev) (n r st : Nat) (b : Bool) : (d.drain n r st b).tracker = d.tracker := by
  obtain ⟨_, drained⟩ := d.drain_unsequenced n r st b
  exact (congrArg Dev.tracker drained :)

theorem Dev.drain_keeps (d : Dev) (n r st : Nat) (b : Bool) : d.keepsBut (d.drain n r st b) [(.SITE_STATUS_STATE, n)] := by
  obtain ⟨_, drained⟩ := d.drain_unsequenced n r st b
  intro f i hf
  refine (Dev.rd_congr (congrArg Dev.regs drained :) f i).trans ((Dev.wr_rd d .SITE_STATUS_STATE f n i SiteState.DRAINING).trans (if_neg ?_))
  rintro ⟨rfl, rfl⟩
  exact hf (List.mem_singleton.mpr rfl)

theorem burstEnd_failStop (s : State) (n : Nat) (hn : n < 64) (runs : s.dev.siteState n = SiteState.RUNNING ∨ s.dev.siteState n = SiteState.PAUSED)
    (due : s.dev.failStopDue n s.dev.bed = true) :
    Acts (.burstEnd n) s (fun e => e.siteState n = SiteState.DRAINING ∧ (e.site n).cause = some (2, Status.FAIL_STOP) ∧
      e.tracker = s.dev.tracker ∧ s.dev.keepsBut e [(.SITE_STATUS_STATE, n)]) := by
  refine acts_onDev rfl (decide_eq_true hn) ?_
  unfold Dev.burstEnd
  dsimp only
  rw [if_neg (fun h => by obtain r | p := runs <;> simp [*, SiteState.RUNNING, SiteState.PAUSED, SiteState.DRAINING] at h), if_pos ⟨runs, due⟩, Dev.stopSite_runs runs]
  obtain ⟨-, state, cause⟩ := s.dev.drain_spec n 2 Status.FAIL_STOP false
  exact ⟨state, cause, s.dev.drain_tracker n 2 Status.FAIL_STOP false, s.dev.drain_keeps n 2 Status.FAIL_STOP false⟩

/-! ### The end of the drain -/

/-- What is done over a list and changes nothing. -/
theorem foldl_fixed {α β : Type} {g : α → β → α} {a : α} (l : List β) (h : ∀ b, b ∈ l → g a b = a) : l.foldl g a = a := by
  induction l with
  | nil => rfl
  | cons b t ih =>
    rw [List.foldl_cons, h b List.mem_cons_self]
    exact ih fun c hc => h c (List.mem_cons_of_mem _ hc)

/-- A site whose CSQs have judged and stored everything has nothing to close. -/
theorem Dev.closeOut_idle {d : Dev} {n : Nat} (h : ∀ p, p ∈ d.members n → (d.csq p).search = none ∧ (d.csq p).cap = none ∧ (d.csq p).endNow = false) :
    d.closeOut n = d := by
  refine foldl_fixed _ fun p hp => ?_
  obtain ⟨search, cap, endNow⟩ := h p hp
  simp [search, Dev.lateEnd, endNow, Dev.closeCap, cap]

theorem Dev.compareDone_idle {d : Dev} {n : Nat} (h : ∀ p, p ∈ d.members n → (d.csq p).exps = [] ∧ (d.csq p).search = none) : d.compareDone n = true := by
  unfold Dev.compareDone
  rw [List.all_eq_true]
  intro p hp
  obtain ⟨exps, search⟩ := h p hp
  simp [exps, search]

theorem Dev.putMark_none {d : Dev} {n : Nat} (h : (d.failSite n).run = none) : d.putMark n = ([], d) := by
  unfold Dev.putMark
  rw [h]

/-- The routines that had not taken their ABORT are lost (R87). -/
theorem Dev.dsqPartial_notes (d : Dev) (l : Nat) : Dev.Notes [.PIN_DSQ_STATUS_PARTIAL] d (d.dsqPartial l) := by
  unfold Dev.dsqPartial
  exact .ite (.refl _ d) (.foldl (fun d p => Dev.set1_notes d (List.mem_singleton.mpr rfl) p) _ d)

def Dev.loseRoutines (d : Dev) (ls : List Nat) : Dev := ls.foldl (fun d l => if (d.lane l).irqs.any (·.1 == 0) then d.dsqPartial l else d) d

theorem Dev.loseRoutines_notes (d : Dev) (ls : List Nat) : Dev.Notes [.PIN_DSQ_STATUS_PARTIAL] d (d.loseRoutines ls) :=
  .foldl (fun d l => .ite (d.dsqPartial_notes l) (.refl _ d)) ls d

def Dev.stopLanes (d : Dev) (ls : List Nat) : Dev := ls.foldl (fun d l => d.stopLane l) d

theorem Dev.stopLanes_spec (d : Dev) (ls : List Nat) (l : Nat) : ({ d.stopLanes ls with lanes := [] } : Dev) = { d with lanes := [] } ∧
    (d.stopLanes ls).lane l = if l ∈ ls then { phase := .stopped, waddr := (d.lane l).waddr } else d.lane l :=
  ⟨foldl_keeps (fun d : Dev => ({ d with lanes := [] } : Dev)) _ _ d fun _ _ _ => rfl,
    foldl_idem (v := Dev.lane) (G := fun L => { phase := .stopped, waddr := L.waddr }) (fun _ => rfl) (fun d l => by simp [Dev.stopLane])
      (fun d l k hk => by simp [Dev.stopLane, hk]) ls d l⟩

/-- The status of a RUN that has drained (R222, R328). -/
def Site.drainStatus (S : Site) : Nat :=
  match S.cause with
  | some c => c.2
  | none => if S.failStop.isSome then Status.FAIL_STOP else Status.OK

theorem Dev.stopsFollow_result (es : List Nat) (run : Option Nat) (n : Nat) (d : Dev) :
    es.foldl (fun d e => (d.finish e Status.OK (d.stopResult n)).upEntry e (fun x => { x with after := run })) d = d.stopsFollow es run (d.stopResult n) := by
  have all (e : Dev) (h : e.regs = d.regs) :
      es.foldl (fun d e => (d.finish e Status.OK (d.stopResult n)).upEntry e (fun x => { x with after := run })) e = e.stopsFollow es run (d.stopResult n) := by
    induction es generalizing e with
    | nil => rw [Dev.stopsFollow, List.foldl_nil, List.foldl_nil]
    | cons y t ih =>
      have same : e.stopResult n = d.stopResult n := by rw [Dev.stopResult, Dev.rd_congr h, Dev.stopResult]
      rw [Dev.stopsFollow, List.foldl_cons, List.foldl_cons, same]
      exact ih _ h
  exact all d rfl

theorem Dev.drained_eq {d : Dev} {n id : Nat} (run : (d.site n).run = some id) (resume : (d.site n).resume = none) :
    let d1 := (d.finish id (d.site n).drainStatus (d.runResult n)).report id
    let d2 := d1.stopsFollow (d.site n).stops (some id) (d1.stopResult n)
    let d4 := d2.loseRoutines (d2.siteLanes n)
    d.drained n = ((d4.stopLanes (d4.siteLanes n)).upSite n (fun S => { S with resume := none })).toIdle n := by
  intro d1 d2 d4
  unfold Dev.drained
  have status : (match (d.site n).cause with | some (_, s) => s | none => if (d.site n).failStop.isSome then Status.FAIL_STOP else Status.OK) = (d.site n).drainStatus := by
    unfold Site.drainStatus
    cases (d.site n).cause <;> rfl
  simp only [run, resume, d4, d2, d1, ← status]
  rw [← Dev.stopsFollow_result]
  rfl

theorem Dev.report_entry (d : Dev) (e k : Nat) :
    (d.report e).entry? k = if k = e then (d.entry? e).map (fun x => if x.done && !x.reported then { x with reported := true, time := d.bed } else x) else d.entry? k :=
  Dev.upEntry_entry d e k _ fun x => by split <;> rfl

/-- A RUN that ends and whose report is taken. -/
theorem Dev.reported_entry {d : Dev} {x : Entry} (hx : d.entry? x.id = some x) (undone : x.done = false) (st r : Nat) :
    (∃ y, ((d.finish x.id st r).report x.id).entry? x.id = some y ∧ y.done = true ∧ y.status = st ∧ y.result = r ∧ y.reported = true) ∧
      ∀ k, k ≠ x.id → ((d.finish x.id st r).report x.id).entry? k = d.entry? k := by
  refine ⟨?_, fun k hk => by rw [Dev.report_entry, if_neg hk, Dev.finish_entry, if_neg hk]⟩
  rw [Dev.report_entry, if_pos rfl, Dev.finish_entry, if_pos rfl, hx]
  cases taken : x.reported
  · exact ⟨_, rfl, by simp [undone, taken], by simp [undone, taken], by simp [undone, taken], by simp [undone, taken]⟩
  · exact ⟨_, rfl, by simp [undone, taken], by simp [undone, taken], by simp [undone, taken], by simp [undone, taken]⟩

/-- From `d` to `e` site `n` has drained: its RUN `id` and its STOPs complete, it is IDLE. -/
theorem Dev.drained_spec {d : Dev} {n : Nat} {x : Entry} (run : (d.site n).run = some x.id) (hx : d.entry? x.id = some x) (undone : x.done = false)
    (alone : x.id ∉ (d.site n).stops) (resume : (d.site n).resume = none) :
    let e := d.drained n
    e.siteState n = SiteState.IDLE ∧ (e.site n).run = none ∧ (e.site n).idleSince = d.now ∧ e.decided x.id (d.site n).drainStatus ∧
      (∀ l, l ∈ d.siteLanes n → (e.lane l).stack = [] ∧ (e.lane l).act = 0) ∧
      (∀ y, e.entry? x.id = some y → y.reported = true ∧ y.result = d.runResult n) ∧
      (∀ y, y.id ∈ (d.site n).stops → d.entry? y.id = some y → y.done = false → e.decided y.id Status.OK ∧
        ∀ z, e.entry? y.id = some z → z.after = some x.id) ∧
      (∀ m, m ≠ n → e.site m = d.site m ∧ e.siteState m = d.siteState m) ∧
      d.keepsFields e [.SITE_STATUS_STATE, .PIN_DSQ_STATUS_PARTIAL, .PIN_TF_STATUS_BAND, .PIN_TF_STATUS_TRIM_PENDING] := by
  intro e
  have he : e = d.drained n := rfl
  rw [Dev.drained_eq run resume] at he
  obtain ⟨⟨y, hy, done, status, result, reported⟩, others⟩ := Dev.reported_entry hx undone (d.site n).drainStatus (d.runResult n)
  have rest1 : ({ (d.finish x.id (d.site n).drainStatus (d.runResult n)).report x.id with tracker := [] } : Dev) = { d with tracker := [] } := rfl
  generalize (d.finish x.id (d.site n).drainStatus (d.runResult n)).report x.id = d1 at he hy others rest1
  have stops := Dev.stopsFollow_entry d1 (d.site n).stops (some x.id) (d1.stopResult n)
  have rest2 := Dev.stopsFollow_rest d1 (d.site n).stops (some x.id) (d1.stopResult n)
  generalize d1.stopsFollow (d.site n).stops (some x.id) (d1.stopResult n) = d2 at he stops rest2
  have lost := d2.loseRoutines_notes (d2.siteLanes n)
  generalize d2.loseRoutines (d2.siteLanes n) = d4 at he lost
  have stopped := Dev.stopLanes_spec d4 (d4.siteLanes n)
  generalize d4.stopLanes (d4.siteLanes n) = d5 at he stopped
  have idled := Dev.toIdle_idled (d5.upSite n (fun S => { S with resume := none })) n
  rw [← he] at idled
  have regs2 : d2.regs = d.regs := (congrArg Dev.regs rest2 :).trans (congrArg Dev.regs rest1 :)
  have regs5 : d5.regs = d4.regs := (congrArg Dev.regs (stopped 0).1 :)
  have rd5 : d.keepsFields d5 [.PIN_DSQ_STATUS_PARTIAL] := fun f i hf => (Dev.rd_congr regs5 f i).trans ((lost.rd f i hf).trans (Dev.rd_congr regs2 f i))
  have lanes4 : d4.siteLanes n = d.siteLanes n :=
    Dev.siteLanes_of (L := [.PIN_DSQ_STATUS_PARTIAL]) (fun f i hf => (lost.rd f i hf).trans (Dev.rd_congr regs2 f i)) (by simp) (by simp) n
  have sites5 : d5.sites = d.sites := (congrArg Dev.sites (stopped 0).1 :).trans ((congrArg Dev.sites lost.rest :).trans
    ((congrArg Dev.sites rest2 :).trans (congrArg Dev.sites rest1 :)))
  have now5 : d5.now = d.now := (congrArg Dev.now (stopped 0).1 :).trans ((congrArg Dev.now lost.rest :).trans
    ((congrArg Dev.now rest2 :).trans (congrArg Dev.now rest1 :)))
  have tracker : e.tracker = d2.tracker := (congrArg Dev.tracker idled.rest :).trans ((congrArg Dev.tracker (stopped 0).1 :).trans (congrArg Dev.tracker lost.rest :))
  have entry (k : Nat) := (Dev.entry_congr tracker k).trans (stops k)
  have own := (entry x.id).trans ((if_neg alone).trans hy)
  refine ⟨idled.state, idled.run.1, idled.run.2.trans now5, ⟨y, own, done, status⟩, fun l hl => ?_, fun z hz => ?_, fun z hz hd open_ => ?_, fun m hm => ⟨?_, ?_⟩, fun f i hf => ?_⟩
  · have lane : e.lane l = d5.lane l := Dev.lane_congr (congrArg Dev.lanes idled.rest :) l
    rw [lane, (stopped l).2, if_pos (lanes4 ▸ hl)]
    exact ⟨rfl, rfl⟩
  · obtain rfl := Option.some.inj (own.symm.trans hz)
    exact ⟨reported, result⟩
  · have at_z := entry z.id
    rw [if_pos hz, others z.id (fun h => alone (h ▸ hz)), hd] at at_z
    refine ⟨⟨_, at_z, by simp [Entry.stopped, open_], by simp [Entry.stopped, open_]⟩, fun w hw => ?_⟩
    rw [← Option.some.inj (at_z.symm.trans hw)]
    rfl
  · rw [idled.sites m hm, Dev.upSite_site, if_neg hm, Dev.site_congr sites5]
  · exact (idled.states m hm).trans (rd5 _ _ (by decide))
  · simp only [List.mem_cons, List.not_mem_nil, or_false, not_or] at hf
    obtain ⟨state, part, band, trim⟩ := hf
    exact (idled.rd f i (by simp [idleFields, state, band, trim])).trans (rd5 f i (by simpa using part))

theorem drainEnd_acts (s : State) (n : Nat) (x : Entry) (hn : n < 64) (draining : s.dev.siteState n = SiteState.DRAINING) (ended : (s.dev.site n).ended = true)
    (idle : ∀ p, p ∈ s.dev.members n → (s.dev.csq p).exps = [] ∧ (s.dev.csq p).search = none ∧ (s.dev.csq p).cap = none ∧ (s.dev.csq p).endNow = false)
    (queues : s.dev.queuesEmpty n = true) (mark : (s.dev.failSite n).run = none) (run : (s.dev.site n).run = some x.id) (hx : s.dev.entry? x.id = some x)
    (undone : x.done = false) (alone : x.id ∉ (s.dev.site n).stops) (resume : (s.dev.site n).resume = none) :
    Acts (.drainEnd n) s (fun e => e.siteState n = SiteState.IDLE ∧ (e.site n).run = none ∧ (e.site n).idleSince = s.dev.now ∧
      e.decided x.id (match (s.dev.site n).cause with
        | some c => c.2
        | none => if (s.dev.site n).failStop.isSome then Status.FAIL_STOP else Status.OK) ∧
      (∀ l, l ∈ s.dev.siteLanes n → (e.lane l).stack = [] ∧ (e.lane l).act = 0) ∧
      (∀ y, e.entry? x.id = some y → y.reported = true ∧ y.result = s.dev.runResult n) ∧
      (∀ y, y.id ∈ (s.dev.site n).stops → s.dev.entry? y.id = some y → y.done = false → e.decided y.id Status.OK ∧
        ∀ z, e.entry? y.id = some z → z.after = some x.id) ∧
      (∀ m, m ≠ n → e.site m = s.dev.site m ∧ e.siteState m = s.dev.siteState m) ∧
      s.dev.keepsFields e [.SITE_STATUS_STATE, .PIN_DSQ_STATUS_PARTIAL, .PIN_TF_STATUS_BAND, .PIN_TF_STATUS_TRIM_PENDING]) := by
  have way : s.dev.drainEnd n = ([], s.dev.drained n) := by
    unfold Dev.drainEnd
    rw [if_pos ⟨draining, ended, Dev.compareDone_idle fun p hp => ⟨(idle p hp).1, (idle p hp).2.1⟩⟩,
      Dev.closeOut_idle fun p hp => (idle p hp).2]
    dsimp only
    rw [if_pos queues, Dev.putMark_none mark]
  obtain ⟨state, ran, since, decided, lanes, report, stops, others, rd⟩ := Dev.drained_spec run hx undone alone resume
  refine acts_onMem rfl (decide_eq_true hn) (congrArg Prod.fst way) ?_
  rw [congrArg Prod.snd way]
  refine ⟨state, ran, since, ?_, lanes, report, stops, others, rd⟩
  unfold Site.drainStatus at decided
  cases hc : (s.dev.site n).cause with
  | none => rwa [hc] at decided
  | some c => rwa [hc] at decided

end Sys2Proof.Machine

open Sys2Proof Sys2Proof.Machine

/-- Settles O18: the end of the drive by what it leaves of the site, its sequencers and its seam; the end of the drain by what each step leaves. -/
theorem burstEndDrainsAndCompletesTheRun : Obligations.BurstEndDrainsAndCompletesTheRun :=
  ⟨⟨burstEnd_runs, burstEnd_drains, burstEnd_failStop⟩, drainEnd_acts⟩
end

section
/-!
SUPPORT. Seams at the boundaries of a burst: what moves at the pins of a lane, and what a pause takes with it (R50, R136 to R138, R188 to R190).
-/
namespace Sys2Proof.Machine

theorem Dev.act_congr {d e : Dev} (h : e.active = d.active) (f : Fld) (i : Nat) : e.act f i = d.act f i := by
  rw [Dev.act, h, Dev.act]

/-- The seam of one pin of a lane: its pending groups move, and its trims where it idles at the boundary. -/
def Dev.lanePinSeam (boundary : Bool) (d : Dev) (p : Nat) : Dev :=
  let d' := d.movePending p
  match (d.pin p).fifo.head? with
  | some v => if boundary ∧ (v.code = Code.X ∨ v.code = Code.K) then d'.takeTrims p else d'
  | none => d'

theorem Dev.lanePinSeam_cases (boundary : Bool) (d : Dev) (p : Nat) :
    Dev.lanePinSeam boundary d p = (d.movePending p).takeTrims p ∨ Dev.lanePinSeam boundary d p = d.movePending p := by
  unfold Dev.lanePinSeam
  dsimp only
  split
  · split
    · exact .inl rfl
    · exact .inr rfl
  · exact .inr rfl

/-- A seam of the pins `l` leaves all but their groups and bands. -/
structure Dev.SeamKeeps (l : List Nat) (d e : Dev) : Prop where
  rd : ∀ f i, (f ∉ seamFields ∨ i ∉ l) → e.rd f i = d.rd f i
  act : ∀ f i, (f ∈ deskewFields → i ∉ l) → (f ∈ tsFields → i / 32 ∉ l) → e.act f i = d.act f i
  fifo : ∀ q, (e.pin q).fifo = (d.pin q).fifo
  rest : ({ e.records with pins := [] } : Dev) = { d.records with pins := [] }

theorem Dev.SeamKeeps.trans {l : List Nat} {d e f : Dev} (h : Dev.SeamKeeps l d e) (k : Dev.SeamKeeps l e f) : Dev.SeamKeeps l d f where
  rd g i hg := (k.rd g i hg).trans (h.rd g i hg)
  act g i hd ht := (k.act g i hd ht).trans (h.act g i hd ht)
  fifo q := (k.fifo q).trans (h.fifo q)
  rest := k.rest.trans h.rest

theorem Dev.SeamKeeps.mono {l m : List Nat} {d e : Dev} (h : Dev.SeamKeeps l d e) (sub : l ⊆ m) : Dev.SeamKeeps m d e where
  rd g i hg := h.rd g i (hg.imp_right fun out mem => out (sub mem))
  act g i hd ht := h.act g i (fun hg mem => hd hg (sub mem)) (fun hg mem => ht hg (sub mem))
  fifo := h.fifo
  rest := h.rest

/-- Pin `p` has taken its pending groups. -/
def Dev.GroupsMoved (p : Nat) (d e : Dev) : Prop :=
  (d.on .PIN_TF_STATUS_DESKEW_PENDING p = true →
    (∀ f ∈ deskewFields, e.act f p = d.rd f p) ∧ e.on .PIN_TF_STATUS_DESKEW_PENDING p = false) ∧
  ∀ k, k < 32 → d.tsPending p k = true → d.loadingSets p k = false → d.tsCheck p k = 0 →
    (∀ f ∈ tsFields, e.act f (tsKey p k) = d.rd f (tsKey p k)) ∧ e.tsPending p k = false

/-- A seam of other pins before it. -/
theorem Dev.GroupsMoved.behind {p : Nat} {l : List Nat} {d e f : Dev} (h : Dev.GroupsMoved p e f) (k : Dev.SeamKeeps l d e) (hp : p ∉ l) :
    Dev.GroupsMoved p d f := by
  have tracker : e.tracker = d.tracker := (congrArg Dev.tracker k.rest :)
  have shadow (g : Fld) (hg : g ∈ tsFields ∨ g ∈ deskewFields) (i : Nat) : e.rd g i = d.rd g i :=
    k.rd g i (.inl (hg.elim (fun m => (seamFields_disjoint.1 g m).1) (fun m => (seamFields_disjoint.2 g m).1)))
  have loading (j : Nat) : e.loadingSets p j = d.loadingSets p j := by unfold Dev.loadingSets; rw [tracker]
  have check (j : Nat) : e.tsCheck p j = d.tsCheck p j := Dev.tsCheck_congr (fun g hg i => shadow g (.inl hg) i) p j
  refine ⟨fun on => ?_, fun j hj on load good => ?_⟩
  · obtain ⟨act, off⟩ := h.1 (by rw [Dev.on, k.rd _ _ (.inr hp)]; exact on)
    exact ⟨fun g hg => (act g hg).trans (shadow g (.inr hg) p), off⟩
  · obtain ⟨act, off⟩ := h.2 j hj (by rw [Dev.tsPending, k.rd _ _ (.inr hp)]; exact on) ((loading j).trans load) ((check j).trans good)
    exact ⟨fun g hg => (act g hg).trans (shadow g (.inl hg) (tsKey p j)), off⟩

/-- What leaves the pin's pending marks and active groups after it. -/
theorem Dev.GroupsMoved.before {p : Nat} {d e f : Dev} (h : Dev.GroupsMoved p d e)
    (rd : ∀ g ∈ [Fld.PIN_TF_STATUS_DESKEW_PENDING, .PIN_TS_PENDING_SET], f.rd g p = e.rd g p)
    (deskew : ∀ g ∈ deskewFields, f.act g p = e.act g p)
    (sets : ∀ g k, g ∈ tsFields → k < 32 → f.act g (tsKey p k) = e.act g (tsKey p k)) : Dev.GroupsMoved p d f := by
  refine ⟨fun on => ?_, fun j hj on load good => ?_⟩
  · obtain ⟨act, off⟩ := h.1 on
    refine ⟨fun g hg => (deskew g hg).trans (act g hg), ?_⟩
    rw [Dev.on, rd _ (by simp)]
    exact off
  · obtain ⟨act, off⟩ := h.2 j hj on load good
    refine ⟨fun g hg => (sets g j hg hj).trans (act g hg), ?_⟩
    rw [Dev.tsPending, rd _ (by simp)]
    exact off

theorem Dev.takeTrims_records (d : Dev) (p : Nat) : ({ (d.takeTrims p).records with pins := [] } : Dev) = { d.records with pins := [] } := by
  unfold Dev.takeTrims
  split <;> rfl

theorem Dev.lanePinSeam_moved (boundary : Bool) (d : Dev) (p : Nat) :
    Dev.SeamKeeps [p] d (Dev.lanePinSeam boundary d p) ∧ Dev.GroupsMoved p d (Dev.lanePinSeam boundary d p) := by
  have moved := d.seamPin_moved p
  obtain ⟨pins, -⟩ := Dev.units_of_records (d.movePending_records p)
  have rest := congrArg (fun d : Dev => ({ d with pins := [] } : Dev)) (d.movePending_records p)
  have groups : Dev.GroupsMoved p d ((d.movePending p).takeTrims p) :=
    ⟨moved.deskew p (List.mem_singleton_self p), moved.sets p (List.mem_singleton_self p)⟩
  obtain ⟨act, -⟩ := (d.movePending p).takeTrims_frame p
  have same (f : Fld) (i : Nat) (h : f ∉ [Fld.PIN_TF_STATUS_TRIM_PENDING, .PIN_TF_STATUS_BAND] ∨ i ≠ p) :=
    (d.movePending p).takeTrims_rd p f i h
  have trims : ∀ f, f ∈ [Fld.PIN_TF_STATUS_TRIM_PENDING, .PIN_TF_STATUS_BAND] → f ∈ seamFields := by decide
  rcases Dev.lanePinSeam_cases boundary d p with taken | plain
  · rw [taken]
    exact ⟨⟨moved.rd, moved.act, moved.fifo, ((d.movePending p).takeTrims_records p).trans rest⟩, groups⟩
  · rw [plain]
    refine ⟨⟨fun f i hf => ?_, fun f i hd ht => (act f i).symm.trans (moved.act f i hd ht), fun q => by rw [Dev.pin_congr pins], rest⟩,
      groups.before (fun g hg => (same g p (.inl ?_)).symm) (fun g _ => (act g p).symm) (fun g k _ _ => (act g (tsKey p k)).symm)⟩
    · exact (same f i (hf.imp (fun h m => h (trims f m)) (fun h e => h (List.mem_singleton.mpr e)))).symm.trans (moved.rd f i hf)
    · revert g
      decide

theorem Dev.lanePinSeams_moved (boundary : Bool) (l : List Nat) (nodup : l.Nodup) (d : Dev) :
    Dev.SeamKeeps l d (l.foldl (Dev.lanePinSeam boundary) d) ∧ ∀ p ∈ l, Dev.GroupsMoved p d (l.foldl (Dev.lanePinSeam boundary) d) := by
  induction l generalizing d with
  | nil => exact ⟨⟨fun _ _ _ => rfl, fun _ _ _ _ => rfl, fun _ => rfl, rfl⟩, fun _ h => nomatch h⟩
  | cons q t ih =>
    obtain ⟨fresh, nodup⟩ := List.nodup_cons.mp nodup
    obtain ⟨keeps, own⟩ := Dev.lanePinSeam_moved boundary d q
    obtain ⟨rest, others⟩ := ih nodup (Dev.lanePinSeam boundary d q)
    rw [List.foldl_cons]
    refine ⟨(keeps.mono (by simp)).trans (rest.mono (List.subset_cons_self q t)), fun p hp => ?_⟩
    rcases List.mem_cons.mp hp with rfl | hp
    · have unit (k : Nat) (hk : k < 32) : tsKey p k / 32 = p := by unfold tsKey; omega
      exact own.before (fun g _ => rest.rd g p (.inr fresh))
        (fun g hg => rest.act g p (fun _ => fresh) fun ht => absurd ht (seamFields_disjoint.2 g hg).2)
        (fun g k hg hk => rest.act g _ (fun hd => absurd hg (seamFields_disjoint.2 g hd).2) fun _ => by rw [unit k hk]; exact fresh)
    · exact (others p hp).behind keeps fun m => fresh (List.mem_singleton.mp m ▸ hp)

/-- The COND group moves at a seam of the site's shared lane. -/
def Dev.ownSeam (d : Dev) (n l : Nat) : Dev := if l < 64 ∧ (d.site n).condPend then d.moveCond n else d

/-- The seam of lane `l` but for the pause. -/
def Dev.laneSeam (d : Dev) (n l : Nat) (boundary : Bool) : Dev :=
  ((((d.lanePins l).foldl (Dev.lanePinSeam boundary) d).ownSeam n l).endSeamClock n).tally 0x13 n 1

theorem Dev.seamNow_plain {d : Dev} (staged : d.cycNow.staged = []) (n l : Nat) (boundary : Bool) :
    d.seamNow n l boundary =
      if l < 64 ∧ (d.site n).pausePend = true then (d.laneSeam n l boundary).pauseSite n l else d.laneSeam n l boundary := by
  unfold Dev.seamNow
  rw [Dev.withSeam_plain staged]
  exact Eq.refl (if l < 64 ∧ (d.site n).pausePend = true then (d.laneSeam n l boundary).pauseSite n l else d.laneSeam n l boundary)

theorem Dev.moveCond_now (d : Dev) (n : Nat) : (d.moveCond n).now = d.now := by
  simp only [Dev.moveCond, Dev.upSite_frame, Dev.move_frame]
  exact foldl_keeps Dev.now (fun d c => d.move .SITE_CSRC_SRC (n * 32 + c)) (List.range 32) d fun _ _ _ => rfl

theorem Dev.ownSeam_spec (d : Dev) (n l : Nat) : (∀ f i, (d.ownSeam n l).rd f i = d.rd f i) ∧ (d.ownSeam n l).pins = d.pins ∧
    (d.ownSeam n l).tracker = d.tracker ∧ (d.ownSeam n l).lanes = d.lanes ∧ (d.ownSeam n l).now = d.now ∧
    (∀ m, (d.ownSeam n l).site m = if l < 64 ∧ m = n then { d.site n with condPend := false } else d.site m) ∧
    ∀ f i, f ≠ .SITE_CSRC_SRC → f ≠ .SITE_SPAN_CMASK_CMASK → (d.ownSeam n l).act f i = d.act f i := by
  unfold Dev.ownSeam
  by_cases h : l < 64 ∧ (d.site n).condPend = true
  · rw [if_pos h]
    obtain ⟨pins, tracker⟩ := d.moveCond_frame n
    refine ⟨Dev.rd_congr (d.moveCond_regs n), pins, tracker, d.moveCond_lanes n, d.moveCond_now n, fun m => ?_, fun f i h1 h2 => ?_⟩
    · rw [Dev.moveCond_site]
      by_cases hm : m = n <;> simp [hm, h.1]
    · rw [Dev.moveCond_act, if_neg (by simp [h1, h2])]
  · rw [if_neg h]
    refine ⟨fun _ _ => rfl, rfl, rfl, rfl, rfl, fun m => ?_, fun _ _ _ _ => rfl⟩
    split
    · next own =>
      obtain ⟨low, rfl⟩ := own
      generalize d.site m = S at h
      cases S
      simp_all
    · rfl

/-- From `d` to `e` lane `l` of site `n` has had its seam. -/
structure Dev.LaneSeamed (n l : Nat) (d e : Dev) : Prop where
  groups : ∀ p, p ∈ d.lanePins l → Dev.GroupsMoved p d e
  stale : e.on .SITE_STATUS_STALE_ACTIVE n = false
  rd : d.keepsFields e siteSeamFields
  fifo : ∀ q, (e.pin q).fifo = (d.pin q).fifo
  site : e.site n = { d.site n with condPend := if l < 64 then false else (d.site n).condPend, seamClock := none, seamNoted := false }
  rest : e.tracker = d.tracker ∧ e.lanes = d.lanes ∧ e.now = d.now

theorem Dev.laneSeam_seamed (d : Dev) (n l : Nat) (boundary : Bool) : Dev.LaneSeamed n l d (d.laneSeam n l boundary) := by
  obtain ⟨keeps, moved⟩ := Dev.lanePinSeams_moved boundary (d.lanePins l) (d.lanePins_nodup l) d
  unfold Dev.laneSeam
  generalize (d.lanePins l).foldl (Dev.lanePinSeam boundary) d = d1 at keeps moved
  obtain ⟨rd2, pins2, tracker2, lanes2, now2, site2, act2⟩ := d1.ownSeam_spec n l
  generalize d1.ownSeam n l = d2 at rd2 pins2 tracker2 lanes2 now2 site2 act2
  obtain ⟨rd, pins, tracker, act, site⟩ := Dev.endSeam_spec d2 n _ rfl
  have rest : ((d2.endSeamClock n).tally 0x13 n 1).lanes = d2.lanes ∧ ((d2.endSeamClock n).tally 0x13 n 1).now = d2.now := ⟨rfl, rfl⟩
  have stale : ((d2.endSeamClock n).tally 0x13 n 1).on .SITE_STATUS_STALE_ACTIVE n = false := by
    have off : (d2.clr .SITE_STATUS_STALE_ACTIVE n).rd .SITE_STATUS_STALE_ACTIVE n = 0 := Dev.wr_rd_same ..
    exact beq_eq_false_iff_ne.mpr fun h => absurd (off.symm.trans h) (by decide)
  generalize (d2.endSeamClock n).tally 0x13 n 1 = e at rd pins tracker act site rest stale
  have acts : ∀ f, f ∈ deskewFields ++ tsFields → f ≠ .SITE_CSRC_SRC ∧ f ≠ .SITE_SPAN_CMASK_CMASK := by decide
  have kept (f : Fld) (i : Nat) (hf : f ∈ deskewFields ++ tsFields) : e.act f i = d1.act f i :=
    (act f i).trans (act2 f i (acts f hf).1 (acts f hf).2)
  have shadow (f : Fld) (i : Nat) (hf : f ≠ .SITE_STATUS_STALE_ACTIVE) : e.rd f i = d1.rd f i := (rd f i hf).trans (rd2 f i)
  have sites : d1.sites = d.sites := (congrArg Dev.sites keeps.rest :)
  refine ⟨fun p hp => ?_, stale, fun f i hf => ?_, fun q => ?_, ?_, ?_, ?_, ?_⟩
  · refine (moved p hp).before (fun g hg => shadow g p ?_) (fun g hg => kept g p (List.mem_append_left _ hg))
      (fun g k hg _ => kept g _ (List.mem_append_right _ hg))
    revert g
    decide
  · exact (shadow f i fun h => hf (h ▸ by decide)).trans (keeps.rd f i (.inl fun h => hf (List.mem_append_left _ h)))
  · rw [Dev.pin_congr (pins.trans pins2), keeps.fifo]
  · rw [site, if_pos rfl, site2, Dev.site_congr sites]
    by_cases hl : l < 64 <;> simp [hl]
  · exact tracker.trans (tracker2.trans (congrArg Dev.tracker keeps.rest :))
  · exact rest.1.trans (lanes2.trans (congrArg Dev.lanes keeps.rest :))
  · exact rest.2.trans (now2.trans (congrArg Dev.now keeps.rest :))

/-! ### The pause -/

theorem Dev.spacing_rd (d : Dev) (p n : Nat) : d.keepsFields (d.spacing p n) [.PIN_TF_STATUS_SPACING, .PIN_TF_STATUS_SPACING_COUNT] := by
  have noted : d.keepsFields ((d.count .PIN_TF_STATUS_SPACING_COUNT p n).set1 .PIN_TF_STATUS_SPACING p)
      [.PIN_TF_STATUS_SPACING, .PIN_TF_STATUS_SPACING_COUNT] := by
    intro f i hf
    simp only [List.mem_cons, List.not_mem_nil, or_false, not_or] at hf
    obtain ⟨spacing, count⟩ := hf
    rw [Dev.set1_rd, if_neg (fun h => spacing h.1)]
    exact Dev.wr_rd_ne _ _ _ _ _ _ count
  unfold Dev.spacing
  dsimp only
  split
  · exact fun _ _ _ => rfl
  · split
    · exact noted
    · exact noted

theorem Dev.settle_rd (d : Dev) (p : Nat) (hz : Int) : d.keepsFields (d.settle p hz) [.PIN_TF_STATUS_SPACING, .PIN_TF_STATUS_SPACING_COUNT] :=
  fun f i hf => (Dev.spacing_rd _ p _ f i hf :)

/-- The members of a site that pauses: what they were asked for is placed, their CSQs take the pause. -/
def Dev.pausePins (d : Dev) (n : Nat) (ps : List Nat) : Dev := ps.foldl (fun d p => (d.settle p (((d.pin p).tNext + 2 ^ 40 : Nat))).csqPause n p) d

theorem Dev.csqPause_rest (d : Dev) (n p : Nat) : ({ d.csqPause n p with csqs := [] } : Dev) = { d with csqs := [] } := by
  unfold Dev.csqPause
  split <;> rfl

theorem Dev.pausePins_spec (n : Nat) (ps : List Nat) (d : Dev) : (∀ q, ((d.pausePins n ps).pin q).fifo = (d.pin q).fifo) ∧
    (({ (d.pausePins n ps).unemitted with csqs := [] } : Dev) = { d.unemitted with csqs := [] }) ∧
    d.keepsFields (d.pausePins n ps) [.PIN_TF_STATUS_SPACING, .PIN_TF_STATUS_SPACING_COUNT] := by
  unfold Dev.pausePins
  induction ps generalizing d with
  | nil => exact ⟨fun _ => rfl, rfl, fun _ _ _ => rfl⟩
  | cons p t ih =>
    rw [List.foldl_cons]
    have settled := d.settle_emits p (((d.pin p).tNext + 2 ^ 40 : Nat))
    have fields := d.settle_rd p (((d.pin p).tNext + 2 ^ 40 : Nat))
    have paused := (d.settle p (((d.pin p).tNext + 2 ^ 40 : Nat))).csqPause_rest n p
    obtain ⟨fifo, rest, rd⟩ := ih ((d.settle p (((d.pin p).tNext + 2 ^ 40 : Nat))).csqPause n p)
    refine ⟨fun q => (fifo q).trans ((congrArg (fun d : Dev => (d.pin q).fifo) paused :).trans (settled.fifo q)),
      rest.trans ((congrArg Dev.unemitted paused :).trans (congrArg (fun d : Dev => ({ d with csqs := [] } : Dev)) settled.rest)),
      fun f i hf => (rd f i hf).trans ((Dev.rd_congr (congrArg Dev.regs paused :) f i).trans (fields f i hf))⟩

/-- STOPs that finish one after another with `st`. -/
theorem Dev.finishes_decided (st : Nat) (r : Dev → Nat) (es : List Nat) (d : Dev) (k : Nat)
    (h : d.decided k st ∨ k ∈ es ∧ ∃ x, d.entry? k = some x ∧ x.done = false) :
    (es.foldl (fun d e => d.finish e st (r d)) d).decided k st := by
  induction es generalizing d with
  | nil => exact h.resolve_right fun m => nomatch m.1
  | cons e t ih =>
    rw [List.foldl_cons]
    refine ih (d.finish e st (r d)) ?_
    rcases h with ⟨x, hx, done, status⟩ | ⟨mem, x, hx, open_⟩
    · refine .inl ⟨x, ?_, done, status⟩
      rw [Dev.finish_entry]
      split
      · next h => rw [← h, hx, Option.map_some, if_pos done]
      · exact hx
    · by_cases hk : k = e
      · refine .inl ⟨{ x with done := true, status := st, result := r d }, ?_, rfl, rfl⟩
        rw [Dev.finish_entry, if_pos hk, ← hk, hx, Option.map_some, if_neg (by simp [open_])]
      · exact .inr ⟨(List.mem_cons.mp mem).resolve_left hk, x, by rw [Dev.finish_entry, if_neg hk, hx], open_⟩

/-- From `d` to `e` site `n` has paused at a boundary of lane `l`. -/
structure Dev.Paused (n l : Nat) (d e : Dev) : Prop where
  state : e.siteState n = SiteState.PAUSED
  site : e.site n = { d.site n with stops := [], pausePend := false }
  lane : e.lane l = { d.lane l with irqs := (d.lane l).irqs ++ [(1, d.now)] }
  stops : ∀ x : Entry, x.id ∈ (d.site n).stops → d.entry? x.id = some x → x.done = false → e.decided x.id Status.OK
  fifo : ∀ q, (e.pin q).fifo = (d.pin q).fifo
  act : ∀ f i, e.act f i = d.act f i
  rd : d.keepsFields e [.SITE_STATUS_STATE, .PIN_TF_STATUS_SPACING, .PIN_TF_STATUS_SPACING_COUNT]

theorem Dev.pauseSite_paused (d : Dev) (n l : Nat) : Dev.Paused n l d (d.pauseSite n l) := by
  have eq : d.pauseSite n l = (((d.raiseIrq l 1).wr .SITE_STATUS_STATE n SiteState.PAUSED).pauseDone n).pausePins n
      ((((d.raiseIrq l 1).wr .SITE_STATUS_STATE n SiteState.PAUSED).pauseDone n).members n) := rfl
  rw [eq]
  have state (f : Fld) (i : Nat) : ((d.raiseIrq l 1).wr .SITE_STATUS_STATE n SiteState.PAUSED).rd f i =
      if f = .SITE_STATUS_STATE ∧ i = n then SiteState.PAUSED else d.rd f i := Dev.wr_rd ..
  have lane : ((d.raiseIrq l 1).wr .SITE_STATUS_STATE n SiteState.PAUSED).lane l = { d.lane l with irqs := (d.lane l).irqs ++ [(1, d.now)] } := by
    have own : (d.raiseIrq l 1).lane l = { d.lane l with irqs := (d.lane l).irqs ++ [(1, d.now)] } := (Dev.upLane_lane ..).trans (if_pos rfl)
    exact own
  have rest1 : ({ ((d.raiseIrq l 1).wr .SITE_STATUS_STATE n SiteState.PAUSED) with regs := [], cyc := { }, lanes := [] } : Dev) =
    { d with regs := [], cyc := { }, lanes := [] } := rfl
  generalize (d.raiseIrq l 1).wr .SITE_STATUS_STATE n SiteState.PAUSED = d1 at state lane rest1
  have site1 : d1.site n = d.site n := Dev.site_congr (congrArg Dev.sites rest1 :) n
  have stops := Dev.finishes_decided Status.OK (fun d => d.stopResult n) (d1.site n).stops d1
  have rest2 : ({ (d1.site n).stops.foldl (fun d e => d.finish e Status.OK (d.stopResult n)) d1 with tracker := [] } : Dev) =
      { d1 with tracker := [] } := foldl_keeps (fun d : Dev => ({ d with tracker := [] } : Dev)) _ _ d1 fun _ _ _ => rfl
  have eq2 : d1.pauseDone n = ((d1.site n).stops.foldl (fun d e => d.finish e Status.OK (d.stopResult n)) d1).upSite n
      (fun S => { S with stops := [], pausePend := false }) := rfl
  rw [eq2]
  generalize (d1.site n).stops.foldl (fun d e => d.finish e Status.OK (d.stopResult n)) d1 = d2 at stops rest2
  have site2 : (d2.upSite n (fun S => { S with stops := [], pausePend := false })).site n = { d.site n with stops := [], pausePend := false } := by
    have sites2 : d2.sites = d1.sites := (congrArg Dev.sites rest2 :)
    rw [Dev.upSite_site, if_pos rfl, Dev.site_congr sites2, site1]
  have rest3 : ({ d2.upSite n (fun S => { S with stops := [], pausePend := false }) with sites := [] } : Dev) = { d2 with sites := [] } := rfl
  generalize d2.upSite n (fun S => { S with stops := [], pausePend := false }) = d3 at site2 rest3
  obtain ⟨fifo, rest, rd⟩ := Dev.pausePins_spec n (d3.members n) d3
  generalize d3.pausePins n (d3.members n) = e at fifo rest rd
  have regs (f : Fld) (i : Nat) : d3.rd f i = d1.rd f i := Dev.rd_congr ((congrArg Dev.regs rest3 :).trans (congrArg Dev.regs rest2 :)) f i
  have lanes : e.lane l = d1.lane l :=
    Dev.lane_congr ((congrArg Dev.lanes rest :).trans ((congrArg Dev.lanes rest3 :).trans (congrArg Dev.lanes rest2 :))) l
  have pins : d3.pins = d.pins := (congrArg Dev.pins rest3 :).trans ((congrArg Dev.pins rest2 :).trans (congrArg Dev.pins rest1 :))
  have active : e.active = d.active :=
    (congrArg Dev.active rest :).trans ((congrArg Dev.active rest3 :).trans ((congrArg Dev.active rest2 :).trans (congrArg Dev.active rest1 :)))
  refine ⟨?_, (Dev.site_congr (congrArg Dev.sites rest :) n).trans site2, lanes.trans lane, fun x hx found open_ => ?_, fun q => ?_,
    Dev.act_congr active, fun f i hf => ?_⟩
  · exact (rd _ _ (by decide)).trans ((regs _ _).trans ((state _ _).trans (if_pos ⟨rfl, rfl⟩)))
  · have tracker1 : d1.tracker = d.tracker := (congrArg Dev.tracker rest1 :)
    have decided := stops x.id (.inr ⟨site1 ▸ hx, x, (Dev.entry_congr tracker1 _).trans found, open_⟩)
    have tracker : e.tracker = d2.tracker := (congrArg Dev.tracker rest :).trans (congrArg Dev.tracker rest3 :)
    rw [Dev.decided, Dev.entry_congr tracker]
    exact decided
  · rw [fifo, Dev.pin_congr pins]
  · simp only [List.mem_cons, List.not_mem_nil, or_false, not_or] at hf
    rw [rd f i (by simp [hf]), regs, state, if_neg fun h => hf.1 h.1]

end Sys2Proof.Machine
end

section
/-!
PROOF. Seams at the boundaries of a burst (R50, R136 to R138, R188).
-/
namespace Sys2Proof.Machine

/-- A seam of kind `k` is wanted at a boundary of lane `l` (R136, R137). -/
def Dev.seamAsked (d : Dev) (n l k : Nat) : Prop := k = 2 ∨ d.seamp n = true ∨ (l < 64 ∧ (d.site n).pausePend = true)

/-- The register fields that a seam within a burst writes. -/
def burstSeamFields : List Fld := [.PIN_TS_PENDING_SET, .PIN_TS_REJECT_VALID, .PIN_TS_REJECT_MORE, .PIN_TS_REJECT_REASON, .PIN_TS_REJECT_SET,
  .PIN_TF_STATUS_DESKEW_PENDING, .PIN_TF_STATUS_TRIM_PENDING, .PIN_TF_STATUS_BAND, .PIN_TF_STATUS_SPACING, .PIN_TF_STATUS_SPACING_COUNT,
  .SITE_STATUS_STALE_ACTIVE, .SITE_STATUS_STATE]

/-- From `d` to `e` a seam that is wanted has acted at lane `l` of the running site `n`. -/
structure Dev.SeamTaken (n l : Nat) (d e : Dev) : Prop where
  stale : e.on .SITE_STATUS_STALE_ACTIVE n = false
  clock : (e.site n).seamClock = none
  cond : l < 64 → (e.site n).condPend = false
  groups : ∀ q, q ∈ d.lanePins l → Dev.GroupsMoved q d e

/-- From `d` to `e` lane `l`, the shared one of site `n`, has paused the site. -/
structure Dev.PauseTaken (n l : Nat) (d e : Dev) : Prop where
  state : e.siteState n = SiteState.PAUSED
  pend : (e.site n).pausePend = false
  none_ : (e.site n).stops = []
  irq : (1, d.now) ∈ (e.lane l).irqs
  stops : ∀ x : Entry, x.id ∈ (d.site n).stops → d.entry? x.id = some x → x.done = false → e.decided x.id Status.OK

/-- From `d` to `e` a boundary of lane `l` has passed that asks for a seam of kind `k`; `u` is what the boundary found. -/
structure Dev.SeamActed (n l k : Nat) (d u e : Dev) : Prop where
  fifo : ∀ q, (e.pin q).fifo = (u.pin q).fifo
  lane : ∃ i, e.lane l = { u.lane l with irqs := i }
  taken : d.seamAsked n l k → Dev.SeamTaken n l d e
  paused : l < 64 → (d.site n).pausePend = true → Dev.PauseTaken n l d e
  runs : (64 ≤ l ∨ (d.site n).pausePend = false) → e.siteState n = SiteState.RUNNING
  act : ¬d.seamAsked n l k → ∀ f i, e.act f i = d.act f i
  rd : d.keepsFields e burstSeamFields

theorem Dev.LaneSeamed.taken {n l : Nat} {d e : Dev} (h : Dev.LaneSeamed n l d e) : Dev.SeamTaken n l d e where
  stale := h.stale
  clock := by rw [h.site]
  cond := fun hl => by rw [h.site]; exact if_pos hl
  groups := h.groups

/-- The pause after it leaves what the seam has done. -/
theorem Dev.SeamTaken.pause {n l : Nat} {d e f : Dev} (h : Dev.SeamTaken n l d e) (p : Dev.Paused n l e f) : Dev.SeamTaken n l d f where
  stale := by rw [Dev.on, p.rd _ _ (by decide)]; exact h.stale
  clock := by rw [p.site]; exact h.clock
  cond := fun hl => by rw [p.site]; exact h.cond hl
  groups := fun q hq => (h.groups q hq).before (fun g hg => p.rd g q (by revert g; decide)) (fun g _ => p.act g q) (fun g _ _ _ => p.act g _)

theorem Dev.seamNow_acts {d : Dev} {n l k : Nat} (staged : d.cycNow.staged = []) (running : d.siteState n = SiteState.RUNNING) (asked : d.seamAsked n l k)
    (boundary : Bool) : Dev.SeamActed n l k d d (d.seamNow n l boundary) := by
  rw [Dev.seamNow_plain staged]
  have seamed := d.laneSeam_seamed n l boundary
  generalize d.laneSeam n l boundary = u at seamed
  obtain ⟨tracker, lanes, now⟩ := seamed.rest
  have lane : u.lane l = d.lane l := Dev.lane_congr lanes l
  have sub (f : Fld) (h : f ∈ siteSeamFields) : f ∈ burstSeamFields := by revert f; decide
  have last (f : Fld) (h : f ∈ [Fld.SITE_STATUS_STATE, .PIN_TF_STATUS_SPACING, .PIN_TF_STATUS_SPACING_COUNT]) : f ∈ burstSeamFields := by revert f; decide
  split
  next pause =>
    have paused := u.pauseSite_paused n l
    generalize u.pauseSite n l = e at paused
    refine ⟨fun q => (paused.fifo q).trans (seamed.fifo q), ⟨_, by rw [paused.lane, lane]⟩, fun _ => seamed.taken.pause paused, fun _ _ => ?_, fun h => ?_,
      fun h => absurd asked h, fun f i hf => ?_⟩
    · refine ⟨paused.state, by rw [paused.site], by rw [paused.site], ?_, fun x hx found open_ => ?_⟩
      · rw [paused.lane, ← now]
        exact List.mem_append_right _ (List.mem_singleton_self _)
      · exact paused.stops x (by rw [seamed.site]; exact hx) ((Dev.entry_congr tracker _).trans found) open_
    · obtain ⟨hl, pend⟩ := pause
      exact absurd h (by simp [pend]; omega)
    · exact (paused.rd f i fun h => hf (last f h)).trans (seamed.rd f i fun h => hf (sub f h))
  next go =>
    refine ⟨seamed.fifo, ⟨_, lane⟩, fun _ => seamed.taken, fun hl pend => absurd ⟨hl, pend⟩ go, fun _ => ?_, fun h => absurd asked h,
      fun f i hf => seamed.rd f i fun h => hf (sub f h)⟩
    exact (seamed.rd _ _ (by decide)).trans running

/-- The seam's own block may differ from the one before the boundary in FIFOs and sequencers. -/
theorem Dev.SeamActed.of {n l k : Nat} {d u e : Dev} (same : ({ u with pins := [], lanes := [] } : Dev) = { d with pins := [], lanes := [] })
    (h : Dev.SeamActed n l k u u e) : Dev.SeamActed n l k d u e := by
  have regs : u.regs = d.regs := (congrArg Dev.regs same :)
  have tracker : u.tracker = d.tracker := (congrArg Dev.tracker same :)
  have now : u.now = d.now := (congrArg Dev.now same :)
  have site : u.site n = d.site n := Dev.site_congr (congrArg Dev.sites same :) n
  have seamp : u.seamp n = d.seamp n := by
    unfold Dev.seamp Dev.members Dev.on
    simp only [Dev.rd_congr regs, site]
  have asked : u.seamAsked n l k = d.seamAsked n l k := by rw [Dev.seamAsked, seamp, site, Dev.seamAsked]
  have groups (q : Nat) : Dev.GroupsMoved q u e = Dev.GroupsMoved q d e := by
    unfold Dev.GroupsMoved Dev.on Dev.tsPending Dev.loadingSets Dev.tsCheck
    simp only [Dev.rd_congr regs, tracker]
  refine ⟨h.fifo, h.lane, fun a => ?_, fun hl pend => ?_, fun p => h.runs (site ▸ p), fun a f i => ?_, fun f i hf => (h.rd f i hf).trans (Dev.rd_congr regs f i)⟩
  · obtain ⟨stale, clock, cond, moved⟩ := h.taken (asked ▸ a)
    exact ⟨stale, clock, cond, fun q hq => groups q ▸ moved q (Dev.lanePins_congr regs l ▸ hq)⟩
  · obtain ⟨state, pend, none_, irq, stops⟩ := h.paused hl (site ▸ pend)
    exact ⟨state, pend, none_, now ▸ irq, fun x hx found open_ => stops x (site ▸ hx) ((Dev.entry_congr tracker _).trans found) open_⟩
  · exact (h.act (asked ▸ a) f i).trans (Dev.act_congr (congrArg Dev.active same :) f i)

theorem Dev.seamIf_acts {d u : Dev} {n l k : Nat} (same : ({ u with pins := [], lanes := [] } : Dev) = { d with pins := [], lanes := [] })
    (staged : d.cycNow.staged = []) (running : d.siteState n = SiteState.RUNNING) (boundary : Bool) :
    Dev.SeamActed n l k d u (u.seamIf n l k boundary) := by
  have staged' : u.cycNow.staged = [] := (congrArg (fun d : Dev => d.cycNow.staged) same :).trans staged
  have running' : u.siteState n = SiteState.RUNNING := (congrArg (fun d : Dev => d.siteState n) same :).trans running
  refine .of same ?_
  unfold Dev.seamIf
  split
  next asked => exact Dev.seamNow_acts staged' running' asked boundary
  next quiet =>
    exact ⟨fun _ => rfl, ⟨_, rfl⟩, fun a => absurd a quiet, fun hl pend => absurd (.inr (.inr ⟨hl, pend⟩)) quiet, fun _ => running', fun _ _ _ => rfl, fun _ _ _ => rfl⟩

/-! ### The boundaries -/

/-- A pin whose FIFO's head is changed by `f`. -/
def Pin.atHead (f : Vec → Vec) (P : Pin) : Pin :=
  { P with fifo := match P.fifo with
      | v :: t => f v :: t
      | [] => [] }

theorem Dev.upHeads_spec (d : Dev) (l : Nat) (f : Vec → Vec) :
    (∀ q, (d.upHeads l f).pin q = if q ∈ d.lanePins l then (d.pin q).atHead f else d.pin q) ∧
    ({ d.upHeads l f with pins := [], lanes := [] } : Dev) = { d with pins := [], lanes := [] } :=
  ⟨foldl_once (v := Dev.pin) (g := fun d p => d.upPin p (Pin.atHead f)) (G := fun _ P => P.atHead f) (fun d p => by simp) (fun d p q hq => by simp [hq])
    _ (d.lanePins_nodup l) d, foldl_keeps (fun d : Dev => ({ d with pins := [], lanes := [] } : Dev)) _ _ d fun _ _ _ => rfl⟩

/-- A seam at the vector that is to launch. -/
theorem Dev.seamAt_head {d : Dev} {l n p k : Nat} (owner : d.laneSite l = some n) (first : d.lanePin l = some p) (running : d.siteState n = SiteState.RUNNING)
    (due : (d.pin p).tNext ≤ d.bed + ns 12) {v : Vec} (head : (d.pin p).fifo.head? = some v) (free : v.grid = none) (kind : v.seam = k) (seam : k ≠ 0) :
    d.seamAt l = (d.upHeads l (fun v => { v with seam := 0 })).seamIf n l k true := by
  have none_ : d.restSeams n l = d := by
    unfold Dev.restSeams
    dsimp only
    exact if_pos (.inr (by simp [first, head, free]))
  unfold Dev.seamAt
  rw [owner, first]
  dsimp only
  rw [if_neg (by simp [running]; omega), none_, if_neg (by simp [running]), head]
  dsimp only
  rw [if_pos ⟨by simp [kind, seam], by simp [free]⟩, kind]

/-- A seam before an RDV hold. -/
theorem Dev.seamAt_rest {d : Dev} {l n p k t : Nat} (owner : d.laneSite l = some n) (first : d.lanePin l = some p) (staged : d.cycNow.staged = [])
    (running : d.siteState n = SiteState.RUNNING) (due : (d.pin p).tNext ≤ d.bed + ns 12) (rests : (d.lane l).rests = [(t, k)]) (at_ : t ≤ d.bed + ns 12)
    (noSeam : (d.lane l).seamNext = 0) (held : ∀ v, (d.pin p).fifo.head? = some v → v.grid ≠ none) :
    d.seamAt l = (d.upLane l (fun L => { L with rests := [] })).seamIf n l k false := by
  have hold : (((d.lanePin l).bind (fun p => (d.pin p).fifo.head?)).map (·.grid.isNone)).getD false = false := by
    rw [first, Option.bind_some]
    cases hv : (d.pin p).fifo.head? with
    | none => rfl
    | some v => exact Option.isNone_eq_false_iff.mpr (Option.isSome_iff_ne_none.mpr (held v hv))
  have lane : d.upLane l (fun L => { L with rests := L.rests.filter (fun r => decide (d.bed + ns 12 < r.1)) }) = d.upLane l (fun L => { L with rests := [] }) := by
    unfold Dev.upLane
    dsimp only
    rw [rests]
    simp [at_]
  have way : d.restSeams n l = (d.upLane l (fun L => { L with rests := [] })).seamIf n l k false := by
    have kept : [(t, k)].filter (fun r => decide (r.1 ≤ d.bed + ns 12)) = [(t, k)] := by simp [at_]
    unfold Dev.restSeams
    dsimp only
    rw [lane, rests, kept, if_neg (by rw [hold]; simp)]
    exact if_pos running
  have acted := Dev.seamIf_acts (d := d) (u := d.upLane l (fun L => { L with rests := [] })) (l := l) (k := k) rfl staged running false
  unfold Dev.seamAt
  rw [owner, first]
  dsimp only
  rw [if_neg (by simp [running]; omega), way]
  have fifo : (((d.upLane l (fun L => { L with rests := [] })).seamIf n l k false).pin p).fifo = (d.pin p).fifo := acted.fifo p
  have next_ : (((d.upLane l (fun L => { L with rests := [] })).seamIf n l k false).lane l).seamNext = 0 := by
    obtain ⟨i, lane⟩ := acted.lane
    rw [lane, Dev.upLane_lane, if_pos rfl]
    exact noSeam
  generalize (d.upLane l (fun L => { L with rests := [] })).seamIf n l k false = e at fifo next_
  split
  · rfl
  · rw [fifo]
    cases hv : (d.pin p).fifo.head? with
    | none => simp [next_]
    | some v => simp [held v hv]

end Sys2Proof.Machine

open Sys2Proof Sys2Proof.Machine

/-- Settles O17: each kind of boundary leads to one conditional seam; what that leaves is said once, of the pins' groups and of the pause. -/
theorem seamAtBoundaryMovesGroupsOrPauses : Obligations.SeamAtBoundaryMovesGroupsOrPauses := by
  intro s l n p k hl owner first running due staged atHead atRest boundary asked
  obtain ⟨u, acted, heads, held⟩ : ∃ u, Dev.SeamActed n l k s.dev u (s.dev.seamAt l) ∧
      (∀ q w, atHead → q ∈ s.dev.lanePins l → (s.dev.pin q).fifo.head? = some w → (u.pin q).fifo = { w with seam := 0 } :: (s.dev.pin q).fifo.tail) ∧
      (atRest → (u.lane l).rests = [] ∧ ∀ q, (u.pin q).fifo = (s.dev.pin q).fifo) := by
    obtain ⟨v, head, free, kind, seam⟩ | ⟨t, rests, at_, noSeam, held⟩ := boundary
    · obtain ⟨pins, same⟩ := s.dev.upHeads_spec l (fun v => { v with seam := 0 })
      rw [Dev.seamAt_head owner first running due head free kind seam]
      refine ⟨_, Dev.seamIf_acts same staged running true, fun q w _ hq hw => ?_, fun ⟨_, _, _, _, held⟩ => absurd free (held v head)⟩
      obtain ⟨t, ht⟩ := List.head?_eq_some_iff.mp hw
      rw [pins, if_pos hq, Pin.atHead, ht]
      rfl
    · rw [Dev.seamAt_rest owner first staged running due rests at_ noSeam held]
      have pins (q : Nat) : (s.dev.upLane l (fun L => { L with rests := [] })).pin q = s.dev.pin q := rfl
      have lane : ((s.dev.upLane l (fun L => { L with rests := [] })).lane l).rests = [] := by rw [Dev.upLane_lane, if_pos rfl]
      have same : ({ s.dev.upLane l (fun L => { L with rests := [] }) with pins := [], lanes := [] } : Dev) = { s.dev with pins := [], lanes := [] } := rfl
      generalize s.dev.upLane l (fun L => { L with rests := [] }) = u at pins lane same
      exact ⟨u, Dev.seamIf_acts same staged running false, fun _ _ ⟨v, head, free, _⟩ => absurd free (held v head), fun _ => ⟨lane, fun q => by rw [pins]⟩⟩
  refine acts_onDev rfl (decide_eq_true hl) ⟨fun q w at_ hq hw => (acted.fifo q).trans (heads q w at_ hq hw), fun at_ => ⟨?_, fun q => ?_⟩, fun a => ?_,
    fun hl pend => ?_, acted.runs, acted.act, acted.rd⟩
  · obtain ⟨i, lane⟩ := acted.lane
    rw [lane]
    exact (held at_).1
  · exact (acted.fifo q).trans ((held at_).2 q)
  · obtain ⟨stale, clock, cond, groups⟩ := acted.taken a
    exact ⟨stale, clock, cond, fun q hq => (groups q hq).1, fun q k hq => (groups q hq).2 k⟩
  · obtain ⟨state, pend, none_, irq, stops⟩ := acted.paused hl pend
    exact ⟨state, pend, none_, irq, stops⟩
end

section
/-!
PROOF. STOP (R50 to R52, R83, R304, R328): what it finds, the drain, the way back to IDLE at the end of the engine cycle.
-/
namespace Sys2Proof.Machine

theorem Dev.stopOf_entry {d : Dev} {id mode : Nat} {x : Entry} (h : d.stopOf id mode = some x) : d.entry? id = some x ∧ x.done = false := by
  unfold Dev.stopOf at h
  split at h
  next y open_ =>
    split at h
    · exact nomatch h
    · exact Option.some.inj h ▸ Dev.open_entry open_
  next => exact nomatch h

/-- A site whose start time is still to come stays as it is. -/
theorem Dev.siteStart_waits {d : Dev} {n : Nat}
    (h : (d.siteState n = SiteState.PREPARING ∨ d.siteState n = SiteState.ARMED) → ∀ t, (d.site n).start = some t → d.bed < t) : d.siteStart n = d := by
  unfold Dev.siteStart
  split
  next t start => exact if_neg fun ⟨state, _, due⟩ => absurd due (Nat.not_le.mpr (h state t start))
  next => rfl

/-- From `d` to `e` the STOP in entry `id`, before `x`, has begun and stands in the list of site `n`. -/
structure Dev.StopStands (id n : Nat) (x : Entry) (d e : Dev) : Prop where
  entry : e.entry? id = some { x with begun := true, started := true }
  listed : id ∈ (e.site n).stops
  sites : ∀ m, m ≠ n → e.site m = d.site m

/-! ### Before vector 0 -/

theorem Dev.stopEarly_stands {d : Dev} {id n : Nat} {x : Entry} (hx : d.entry? id = some x) : Dev.StopStands id n x d (d.stopEarly n id) ∧
    (d.stopEarly n id).regs = d.regs ∧ ((d.site n).early = none → ((d.stopEarly n id).site n).early = some (5, Status.WITHDRAWN)) ∧
    ∀ r v, (d.site n).early = some (r, v) → r ≤ 5 → ((d.stopEarly n id).site n).early = some (r, v) := by
  have entry := (Dev.start_entry hx).1
  have site (m : Nat) : (d.start id).site m = d.site m := rfl
  have regs : (d.stopEarly n id).regs = d.regs := rfl
  have tracker : (d.stopEarly n id).tracker = (d.start id).tracker := rfl
  have own : ((d.stopEarly n id).site n).early = (((d.start id).stopSoon n 5 Status.WITHDRAWN).site n).early := by
    rw [Dev.stopEarly, Dev.upSite_site, if_pos rfl]
  refine ⟨⟨(Dev.entry_congr tracker id).trans entry, ?_, fun m hm => ?_⟩, regs, fun h => own.trans (Dev.stopSoon_early (.inl h) _), fun r v h low => own.trans ?_⟩
  · rw [Dev.stopEarly, Dev.upSite_site, if_pos rfl]
    exact List.mem_append_right _ (List.mem_singleton_self id)
  · rw [Dev.stopEarly, Dev.upSite_site, if_neg hm, Dev.stopSoon, Dev.upSite_site, if_neg hm, site]
  · rw [Dev.stopSoon, Dev.upSite_site, if_pos rfl, site]
    dsimp only
    rw [h]
    exact if_neg (Nat.not_lt.mpr low)

/-! ### The drain of a running site -/

theorem Dev.raiseIrqs_mem (k : Nat) (ls : List Nat) (d : Dev) (l : Nat) (h : l ∈ ls ∨ (k, d.now) ∈ (d.lane l).irqs) :
    (k, d.now) ∈ ((ls.foldl (fun d l => d.raiseIrq l k) d).lane l).irqs := by
  induction ls generalizing d with
  | nil => exact h.resolve_left List.not_mem_nil
  | cons a t ih =>
    have lane : (d.raiseIrq a k).lane l = if l = a then { d.lane a with irqs := (d.lane a).irqs ++ [(k, d.now)] } else d.lane l := Dev.upLane_lane ..
    have now : (d.raiseIrq a k).now = d.now := rfl
    rw [List.foldl_cons, ← now]
    refine ih _ ?_
    rw [lane, now]
    by_cases hl : l = a
    · subst hl
      simp
    · rw [if_neg hl]
      exact h.imp_left fun m => (List.mem_cons.mp m).resolve_left hl

/-- The pin with an empty Vector FIFO. -/
def Pin.dropped (P : Pin) : Pin := { P with fifo := [], rep := none }

/-- A drain that leaves the CSQs their judgements: an ABORT for every sequencer, no vector left, the lines as they were. -/
theorem Dev.drain_stops (d : Dev) (n r st : Nat) : (∀ l, l ∈ d.siteLanes n → (0, d.now) ∈ ((d.drain n r st false).lane l).irqs) ∧
    (∀ p, p ∈ d.members n → ((d.drain n r st false).pin p).fifo = []) ∧ d.sameLines (d.drain n r st false) := by
  have irqs := Dev.raiseIrqs_mem 0 (d.siteLanes n) d
  have rest1 : ({ (d.siteLanes n).foldl (fun d l => d.raiseIrq l 0) d with lanes := [] } : Dev) = { d with lanes := [] } :=
    foldl_keeps (fun d : Dev => ({ d with lanes := [] } : Dev)) _ _ d fun _ _ _ => rfl
  unfold Dev.drain
  dsimp only
  generalize (d.siteLanes n).foldl (fun d l => d.raiseIrq l 0) d = u at irqs rest1
  have regs : u.regs = d.regs := (congrArg Dev.regs rest1 :)
  have pins : u.pins = d.pins := (congrArg Dev.pins rest1 :)
  have members : u.members n = d.members n := Dev.members_congr (fun _ => Dev.rd_congr regs _ _) n
  have empty := foldl_idem (v := Dev.pin) (g := fun d p => d.dropFifo p) (G := Pin.dropped) (fun _ => rfl) (fun d p => by simp [Dev.dropFifo, Pin.dropped])
    (fun d p q hq => by simp [Dev.dropFifo, hq]) (u.members n) u
  have lines := Dev.sameLines_foldl (g := fun d p => d.dropFifo p) (fun d p => d.upPin_sameLines p _ fun _ => rfl) (u.members n) u
  have lanes : ((u.members n).foldl (fun d p => d.dropFifo p) u).lanes = u.lanes := foldl_keeps Dev.lanes _ _ u fun _ _ _ => rfl
  rw [if_neg (by simp)]
  generalize (u.members n).foldl (fun d p => d.dropFifo p) u = w at empty lines lanes
  refine ⟨fun l hl => ?_, fun p hp => ?_, (Dev.sameLines_of_pins pins).trans lines⟩
  · have same : w.lane l = u.lane l := Dev.lane_congr lanes l
    exact (congrArg (fun L : Lane => (0, d.now) ∈ L.irqs) same).mpr (irqs l (.inl hl))
  · exact congrArg Pin.fifo ((empty p).trans (if_pos (members.symm ▸ hp)))

/-- The block in which site `n` has been aborted by the STOP in entry `id`. -/
def Dev.stopRunning (d : Dev) (n id : Nat) : Dev := ((d.start id).abortSite n 5 false).upSite n (fun S => { S with stops := S.stops ++ [id] })

theorem Dev.stopRunning_state {d : Dev} {n : Nat} (id : Nat) (runs : d.siteState n = SiteState.RUNNING ∨ d.siteState n = SiteState.PAUSED) :
    (d.stopRunning n id).siteState n = SiteState.DRAINING ∧ ((d.stopRunning n id).site n).cause = some (5, Status.ABORTED_PARTIAL) ∧
      id ∈ ((d.stopRunning n id).site n).stops := by
  have runs' : (d.start id).siteState n = SiteState.RUNNING ∨ (d.start id).siteState n = SiteState.PAUSED := runs
  unfold Dev.stopRunning Dev.abortSite
  generalize d.start id = u at runs'
  rw [Dev.stopSite_runs runs']
  obtain ⟨-, state, cause⟩ := u.drain_spec n 5 Status.ABORTED_PARTIAL false
  generalize u.drain n 5 Status.ABORTED_PARTIAL false = e at state cause
  exact ⟨state, by simpa using cause, by simp⟩

theorem Dev.stopRunning_drains {d : Dev} {id n : Nat} {x : Entry} (hx : d.entry? id = some x)
    (runs : d.siteState n = SiteState.RUNNING ∨ d.siteState n = SiteState.PAUSED) : Dev.StopStands id n x d (d.stopRunning n id) ∧
    (d.stopRunning n id).siteState n = SiteState.DRAINING ∧ ((d.stopRunning n id).site n).cause = some (5, Status.ABORTED_PARTIAL) ∧
    (∀ l, l ∈ d.siteLanes n → (0, d.now) ∈ ((d.stopRunning n id).lane l).irqs) ∧ (∀ p, p ∈ d.members n → ((d.stopRunning n id).pin p).fifo = []) ∧
    (∀ p, ((d.stopRunning n id).pin p).placed = (d.pin p).placed ∧ ((d.stopRunning n id).pin p).trans = (d.pin p).trans) ∧
    d.keepsBut (d.stopRunning n id) [(.SITE_STATUS_STATE, n)] := by
  have entry := (Dev.start_entry hx).1
  obtain ⟨state, cause, listed⟩ := d.stopRunning_state id runs
  have started : (d.start id).now = d.now ∧ (d.start id).members n = d.members n ∧ (d.start id).siteLanes n = d.siteLanes n ∧
      (d.start id).sites = d.sites ∧ (d.start id).pins = d.pins ∧ (d.start id).regs = d.regs := ⟨rfl, rfl, rfl, rfl, rfl, rfl⟩
  have runs' : (d.start id).siteState n = SiteState.RUNNING ∨ (d.start id).siteState n = SiteState.PAUSED := runs
  unfold Dev.stopRunning Dev.abortSite at state cause listed ⊢
  rw [Dev.stopSite_runs runs'] at state cause listed ⊢
  generalize d.start id = u at entry started state cause listed runs'
  obtain ⟨now, members, siteLanes, sites, pins, regs⟩ := started
  obtain ⟨⟨-, others⟩, -, -⟩ := u.drain_spec n 5 Status.ABORTED_PARTIAL false
  obtain ⟨irqs, empty, lines⟩ := u.drain_stops n 5 Status.ABORTED_PARTIAL
  have tracker := u.drain_tracker n 5 Status.ABORTED_PARTIAL false
  have keeps := u.drain_keeps n 5 Status.ABORTED_PARTIAL false
  rw [now, siteLanes] at irqs
  rw [members] at empty
  generalize u.drain n 5 Status.ABORTED_PARTIAL false = e at others state cause listed irqs empty lines tracker keeps
  refine ⟨⟨(Dev.entry_congr tracker id).trans entry, listed, fun m hm => ?_⟩, state, cause, irqs, empty, fun p => ?_, fun f i hf =>
    (keeps f i hf).trans (Dev.rd_congr regs f i)⟩
  · rw [Dev.upSite_site, if_neg hm, (others m hm).2, Dev.site_congr sites]
  · have shown := lines p
    rw [Dev.pin_congr pins] at shown
    exact ⟨congrArg Prod.fst shown, congrArg (fun s : List Edge × List Trans × Bool × Bool => s.2.1) shown⟩

/-- A site that drains goes on with it. -/
theorem Dev.stopRunning_goesOn {d : Dev} {id n : Nat} {x : Entry} (hx : d.entry? id = some x) (draining : d.siteState n = SiteState.DRAINING) :
    Dev.StopStands id n x d (d.stopRunning n id) ∧ (d.stopRunning n id).regs = d.regs := by
  have entry := (Dev.start_entry hx).1
  have started : (d.start id).sites = d.sites ∧ (d.start id).regs = d.regs := ⟨rfl, rfl⟩
  have draining' : (d.start id).siteState n = SiteState.DRAINING := draining
  unfold Dev.stopRunning Dev.abortSite
  generalize d.start id = u at entry started draining'
  obtain ⟨⟨-, others⟩, -⟩ := u.stopSite_spec n 5 Status.ABORTED_PARTIAL Status.WITHDRAWN false
  have rest : (u.stopSite n 5 Status.ABORTED_PARTIAL Status.WITHDRAWN false).regs = u.regs ∧
      (u.stopSite n 5 Status.ABORTED_PARTIAL Status.WITHDRAWN false).tracker = u.tracker := by
    have up (f : Site → Site) : (u.upSite n f).regs = u.regs ∧ (u.upSite n f).tracker = u.tracker := ⟨rfl, rfl⟩
    have way : u.stopSite n 5 Status.ABORTED_PARTIAL Status.WITHDRAWN false = u ∨ ∃ f, u.stopSite n 5 Status.ABORTED_PARTIAL Status.WITHDRAWN false = u.upSite n f := by
      unfold Dev.stopSite
      simp only [draining', SiteState.DRAINING, SiteState.PREPARING, SiteState.ARMED, SiteState.RUNNING, SiteState.PAUSED]
      simp only [Nat.reduceEqDiff, decide_false, Bool.or_self, Bool.false_eq_true, if_false, if_true, false_and]
      split
      · split
        · exact .inr ⟨_, rfl⟩
        · exact .inl rfl
      · exact .inl rfl
    obtain same | ⟨f, changed⟩ := way
    · rw [same]; exact ⟨rfl, rfl⟩
    · rw [changed]; exact up f
  generalize u.stopSite n 5 Status.ABORTED_PARTIAL Status.WITHDRAWN false = e at others rest
  obtain ⟨sites, regs⟩ := started
  refine ⟨⟨(Dev.entry_congr rest.2 id).trans entry, by simp, fun m hm => ?_⟩, rest.1.trans regs⟩
  rw [Dev.upSite_site, if_neg hm, (others m hm).2, Dev.site_congr sites]

/-! ### A STOP in ABORT mode -/

/-- A STOP that is decided at once. -/
theorem Dev.stop_done {d : Dev} {id : Nat} {x : Entry} (hx : d.entry? id = some x) (undone : x.done = false) (st r : Nat) :
    ((d.start id).finish id st r).decided id st ∧ ((d.start id).finish id st r).sites = d.sites ∧ ((d.start id).finish id st r).regs = d.regs :=
  ⟨(Dev.finish_decided (Dev.start_entry hx).1 undone st r).1, rfl, rfl⟩

end Sys2Proof.Machine
end

section
/-!
PROOF. The STOPs themselves, and the engine cycle that ends a preparation (R50 to R52, R83, R304, R328).
-/
namespace Sys2Proof.Machine

theorem stopAbort_acts (s : State) (id : Nat) (x : Entry) (stop : s.dev.stopOf id 0 = some x) :
    let n := descTarget x.desc
    let st := s.dev.siteState n
    ((st = SiteState.PREPARING ∨ st = SiteState.ARMED) → ∀ t, (s.dev.site n).start = some t → s.dev.bed < t) →
    Acts (.stopAbort id) s (fun e =>
      ((st = SiteState.PREPARING ∨ st = SiteState.ARMED) → e.siteState n = st ∧ id ∈ (e.site n).stops ∧ s.dev.keepsBut e [] ∧
        e.entry? id = some { x with begun := true, started := true } ∧
        ((s.dev.site n).early = none → (e.site n).early = some (5, Status.WITHDRAWN)) ∧
        (∀ r v, (s.dev.site n).early = some (r, v) → r ≤ 5 → (e.site n).early = some (r, v))) ∧
      ((st = SiteState.RUNNING ∨ st = SiteState.PAUSED) → e.siteState n = SiteState.DRAINING ∧ (e.site n).cause = some (5, Status.ABORTED_PARTIAL) ∧
        e.entry? id = some { x with begun := true, started := true } ∧ id ∈ (e.site n).stops ∧
        (∀ l, l ∈ s.dev.siteLanes n → (0, s.dev.now) ∈ (e.lane l).irqs) ∧ (∀ p, p ∈ s.dev.members n → (e.pin p).fifo = []) ∧
        (∀ p, (e.pin p).placed = (s.dev.pin p).placed ∧ (e.pin p).trans = (s.dev.pin p).trans) ∧ s.dev.keepsBut e [(.SITE_STATUS_STATE, n)]) ∧
      (st = SiteState.DRAINING → e.siteState n = SiteState.DRAINING ∧ id ∈ (e.site n).stops ∧
        e.entry? id = some { x with begun := true, started := true } ∧ s.dev.keepsBut e []) ∧
      (st ≤ SiteState.DOZE → e.siteState n = st ∧ e.decided id Status.OK ∧ e.sites = s.dev.sites ∧ s.dev.keepsBut e []) ∧
      (∀ m, m ≠ n → e.site m = s.dev.site m ∧ e.siteState m = s.dev.siteState m) ∧
      s.dev.keepsFields e [.SITE_STATUS_STATE, .PIN_TF_STATUS_BAND, .PIN_TF_STATUS_TRIM_PENDING]) := by
  intro n st waits
  obtain ⟨hx, undone⟩ := Dev.stopOf_entry stop
  refine acts_onDev rfl rfl ?_
  unfold Dev.stopAbort
  rw [stop]
  dsimp only
  rw [Dev.siteStart_waits waits]
  have names : SiteState.DOZE = 2 ∧ SiteState.PREPARING = 3 ∧ SiteState.ARMED = 4 ∧ SiteState.RUNNING = 5 ∧ SiteState.PAUSED = 6 ∧ SiteState.DRAINING = 7 :=
    ⟨rfl, rfl, rfl, rfl, rfl, rfl⟩
  obtain ⟨doze, preparing, armed, running, paused, draining⟩ := names
  split
  next before =>
    obtain ⟨stands, regs, none_, some_⟩ := Dev.stopEarly_stands (n := n) hx
    have rd := Dev.rd_congr regs
    have early : st = SiteState.PREPARING ∨ st = SiteState.ARMED := before
    exact ⟨fun _ => ⟨rd _ _, stands.listed, fun f i _ => rd f i, stands.entry, none_, some_⟩, fun _ => by omega, fun _ => by omega, fun _ => by omega,
      fun m hm => ⟨stands.sites m hm, rd _ _⟩, fun f i _ => rd f i⟩
  next past =>
    have late : ¬(st = SiteState.PREPARING ∨ st = SiteState.ARMED) := past
    split
    next on =>
      have on : st = SiteState.RUNNING ∨ st = SiteState.PAUSED ∨ st = SiteState.DRAINING := on
      by_cases h : st = SiteState.DRAINING
      · obtain ⟨stands, regs⟩ := Dev.stopRunning_goesOn hx h
        have rd := Dev.rd_congr regs
        exact ⟨fun h => absurd h late, fun _ => by omega, fun _ => ⟨(rd _ _).trans h, stands.listed, stands.entry, fun f i _ => rd f i⟩, fun _ => by omega,
          fun m hm => ⟨stands.sites m hm, rd _ _⟩, fun f i _ => rd f i⟩
      · obtain ⟨stands, state, cause, irqs, empty, lines, keeps⟩ := Dev.stopRunning_drains hx (n := n) (by omega)
        refine ⟨fun h => absurd h late, fun _ => ⟨state, cause, stands.entry, stands.listed, irqs, empty, lines, keeps⟩, fun k => absurd k h, fun _ => by omega,
          fun m hm => ⟨stands.sites m hm, keeps _ _ (by simp [hm])⟩, fun f i hf => keeps f i fun h => hf ?_⟩
        rw [(Prod.mk.inj (List.mem_singleton.mp h)).1]
        exact List.mem_cons_self
    next off =>
      have off : ¬(st = SiteState.RUNNING ∨ st = SiteState.PAUSED ∨ st = SiteState.DRAINING) := off
      obtain ⟨decided, sites, regs⟩ := Dev.stop_done hx undone Status.OK (s.dev.stopResult n)
      have rd := Dev.rd_congr regs
      exact ⟨fun h => absurd h late, fun _ => by omega, fun _ => by omega, fun _ => ⟨rd _ _, decided, sites, fun f i _ => rd f i⟩,
        fun m _ => ⟨Dev.site_congr sites m, rd _ _⟩, fun f i _ => rd f i⟩

/-! ### From the start time on -/

/-- Vector 0 finds its site running, whatever RUN it has. -/
theorem Dev.startBurst_state (d : Dev) (n t : Nat) : (d.startBurst n t).siteState n = SiteState.RUNNING := by
  cases run : (d.site n).run with
  | some id => exact (Dev.startBurst_spec run rfl).1
  | none =>
    have begun : d.startBurst n t = (List.range 8).foldl (fun d e => d.postCond n (0x30 + e) (bitAt d.evLevel e) t)
        (((d.burstNoted n t).members n).foldl (fun d p => d.csqStart p) ((d.burstNoted n t).wr .SITE_COND_C n 0)) := by
      unfold Dev.startBurst
      rw [run]
      rfl
    have state : (d.burstNoted n t).rd .SITE_STATUS_STATE n = SiteState.RUNNING := by
      simp [Dev.burstNoted, Dev.wr_rd]
      rfl
    rw [begun]
    generalize d.burstNoted n t = u at state
    obtain ⟨quiet, -⟩ := Dev.evConds (List.range 8) ((u.members n).foldl (fun d p => d.csqStart p) (u.wr .SITE_COND_C n 0)) n (fun d e => bitAt d.evLevel e) t
    obtain ⟨rd, -⟩ := Dev.csqStarts (u.members n) (u.wr .SITE_COND_C n 0) _ rfl
    exact (Dev.rd_of_quiet quiet (by decide) n).trans ((rd _ _ (.inl (by decide))).trans ((Dev.wr_rd_ne _ _ _ _ _ _ (by decide)).trans state))

/-- A site whose start time has come runs, where its heads are good. -/
theorem Dev.siteStart_begins {d : Dev} {n t : Nat} (waits : d.siteState n = SiteState.PREPARING ∨ d.siteState n = SiteState.ARMED)
    (staged : d.cycNow.staged = []) (early : (d.site n).early = none) (start : (d.site n).start = some t) (due : t ≤ d.bed) (good : d.badHeads (d.members n) = []) :
    (d.siteStart n).siteState n = SiteState.RUNNING := by
  obtain ⟨rd, fifo, -, -, -⟩ := Dev.startSeam_kept waits early start (by omega) staged rfl
  have members : (d.startSeam n).members n = d.members n := Dev.members_congr (fun k => rd _ k (by decide)) n
  have good' : (d.startSeam n).badHeads ((d.startSeam n).members n) = [] := by
    rw [members, ← good]
    simp only [Dev.badHeads, fifo]
  have begins : d.siteStart n = (d.startSeam n).startBurst n t := by
    unfold Dev.siteStart
    rw [start]
    exact (if_pos ⟨waits, by simp [early], due⟩).trans (if_pos good')
  rw [begins]
  exact Dev.startBurst_state _ n t

theorem stopAbort_started (s : State) (id t : Nat) (x : Entry) (stop : s.dev.stopOf id 0 = some x) (staged : s.dev.cycNow.staged = [])
    (waits : s.dev.siteState (descTarget x.desc) = SiteState.PREPARING ∨ s.dev.siteState (descTarget x.desc) = SiteState.ARMED)
    (early : (s.dev.site (descTarget x.desc)).early = none) (start : (s.dev.site (descTarget x.desc)).start = some t) (due : t ≤ s.dev.bed)
    (good : s.dev.badHeads (s.dev.members (descTarget x.desc)) = []) :
    Acts (.stopAbort id) s (fun e => e.siteState (descTarget x.desc) = SiteState.DRAINING ∧
      (e.site (descTarget x.desc)).cause = some (5, Status.ABORTED_PARTIAL) ∧ id ∈ (e.site (descTarget x.desc)).stops) := by
  have running := Dev.siteStart_begins waits staged early start due good
  refine acts_onDev rfl rfl ?_
  unfold Dev.stopAbort
  rw [stop]
  dsimp only
  rw [if_neg (by rw [running]; decide), if_pos (.inl running)]
  exact Dev.stopRunning_state id (.inl running)

/-! ### The end of the engine cycle -/

/-- What the end of an engine cycle leaves of the sites: their states, their records, the descriptors, the pins. -/
def Dev.cycleView (d : Dev) : (Nat → Nat) × Tab Site × List Entry × Tab Pin := (fun m => d.siteState m, d.sites, d.tracker, d.pins)

theorem Dev.wr_cycleView (d : Dev) {f : Fld} (hf : f ≠ .SITE_STATUS_STATE) (i v : Nat) : (d.wr f i v).cycleView = d.cycleView := by
  have state (m : Nat) : (d.wr f i v).siteState m = d.siteState m := Dev.wr_rd_ne _ _ _ _ _ _ (Ne.symm hf)
  unfold Dev.cycleView
  simp only [state]
  rfl

theorem Dev.safeDrops_cycleView (d : Dev) : d.safeDrops.cycleView = d.cycleView := by
  have records (e : Dev) (q : Req) : (match q.who with
      | .spill n => e.count .FR_SITE_DROPPED_RECORDS n 1
      | .capture n => e.count .FR_SITE_DROPPED_BLOCKS n 1
      | _ => e).cycleView = e.cycleView := by
    split
    · exact Dev.wr_cycleView _ (by decide) _ _
    · exact Dev.wr_cycleView _ (by decide) _ _
    · rfl
  have up (e : Dev) (f : Fc → Fc) : (e.upFc f).cycleView = e.cycleView := rfl
  unfold Dev.safeDrops
  split
  · rfl
  · dsimp only
    rw [up]
    refine (foldl_keeps Dev.cycleView _ _ _ ?_).trans (foldl_keeps Dev.cycleView _ _ d ?_)
    · exact fun _ _ _ => rfl
    · exact fun e q _ => records e q

theorem Dev.tallyCycle_cycleView (d : Dev) : d.tallyCycle.cycleView = d.cycleView := by
  have tally (e : Dev) (k i n : Nat) : (e.tally k i n).cycleView = e.cycleView := by
    unfold Dev.tally
    split <;> rfl
  have add (e : Dev) (i n : Nat) : (e.addCount i n).cycleView = e.cycleView := by
    unfold Dev.addCount
    dsimp only
    have counted := e.wr_cycleView (f := .TL_CNT_COUNT) (by decide) i (e.rd .TL_CNT_COUNT i + n)
    split
    · exact counted
    · exact counted
  have up (e : Dev) (f : Tl → Tl) : (e.upTl f).cycleView = e.cycleView := rfl
  unfold Dev.tallyCycle
  split
  · rfl
  · dsimp only
    rw [up]
    refine (foldl_keeps Dev.cycleView _ _ _ fun e i _ => ?_).trans ?_
    · split
      · rfl
      · exact add e i _
    · split
      · exact (tally _ _ _ _).trans (tally d _ _ _)
      · exact tally d _ _ _

theorem Dev.engineCycle_cycleView (d : Dev) : d.engineCycle.cycleView = d.spanHalts.earlyStops.cycleView := by
  have tick (e : Dev) : e.tick.cycleView = e.cycleView := rfl
  unfold Dev.engineCycle
  rw [tick, Dev.tallyCycle_cycleView, Dev.safeDrops_cycleView]

/-- An engine cycle in which one preparation ends. -/
theorem Dev.earlyStops_one {d : Dev} {n r v : Nat} (quiet : ∀ m, m < 64 → d.spanHaltDue m d.bed = false)
    (one : d.sites.filter (fun x => x.2.early.isSome) = [(n, d.site n)]) (early : (d.site n).early = some (r, v)) : d.spanHalts.earlyStops = d.abandon n v := by
  have none_ : d.spanHalts = d := by
    have empty : (List.range 64).filter (fun n => d.spanHaltDue n d.bed) = [] := by
      simpa [List.filter_eq_nil_iff] using quiet
    unfold Dev.spanHalts
    rw [empty]
    rfl
  rw [none_]
  unfold Dev.earlyStops
  rw [one, List.foldl_cons, List.foldl_nil, early]

theorem idle_ends (s : State) (n r v : Nat) (y : Entry) (idle : s.pending = []) (quiet : ∀ m, m < 64 → s.dev.spanHaltDue m s.dev.bed = false)
    (one : s.dev.sites.filter (fun x => x.2.early.isSome) = [(n, s.dev.site n)]) (early : (s.dev.site n).early = some (r, v))
    (run : (s.dev.site n).run = some y.id) (hy : s.dev.entry? y.id = some y) (undone : y.done = false) (alone : y.id ∉ (s.dev.site n).stops) :
    ∃ t, step s = .next t ∧ t.dev.siteState n = SiteState.IDLE ∧ (t.dev.site n).run = none ∧ t.dev.decided y.id v ∧
      (∀ z, z.id ∈ (s.dev.site n).stops → s.dev.entry? z.id = some z → z.done = false → t.dev.decided z.id Status.OK ∧
        ∀ w, t.dev.entry? z.id = some w → w.after = some y.id) ∧
      (∀ p, (t.dev.pin p).placed = (s.dev.pin p).placed ∧ (t.dev.pin p).trans = (s.dev.pin p).trans) ∧
      (∀ m, m ≠ n → t.dev.site m = s.dev.site m ∧ t.dev.siteState m = s.dev.siteState m) := by
  refine ⟨s.idle, by rw [step, idle], ?_⟩
  have view : s.idle.dev.cycleView = (s.dev.abandon n v).cycleView := by
    rw [← Dev.earlyStops_one quiet one early]
    exact s.dev.engineCycle_cycleView
  generalize s.idle.dev = e at view
  have abandoned := s.dev.abandon_spec n v
  generalize s.dev.abandon n v = u at view abandoned
  have state (m : Nat) : e.siteState m = u.siteState m := congrFun (congrArg Prod.fst view) m
  have rest := congrArg Prod.snd view
  have site (m : Nat) : e.site m = u.site m := Dev.site_congr (congrArg Prod.fst rest) m
  have entry (k : Nat) : e.entry? k = u.entry? k := Dev.entry_congr (congrArg (fun x : Tab Site × List Entry × Tab Pin => x.2.1) rest) k
  have pin (p : Nat) : e.pin p = u.pin p := Dev.pin_congr (congrArg (fun x : Tab Site × List Entry × Tab Pin => x.2.2) rest) p
  have decided (k st : Nat) (h : u.decided k st) : e.decided k st := by rw [Dev.decided, entry]; exact h
  refine ⟨(state n).trans abandoned.state, (congrArg Site.run (site n)).trans abandoned.run, decided _ _ (abandoned.decided _ _ run hy undone), fun z hz found open_ => ?_,
    fun p => ?_, fun m hm => ⟨(site m).trans (abandoned.sites m hm), (state m).trans (abandoned.states m hm)⟩⟩
  · have other : (s.dev.site n).run ≠ some z.id := fun h => alone (Option.some.inj (run.symm.trans h) ▸ hz)
    obtain ⟨ok, follows⟩ := abandoned.stops y.id z other hz found open_
    exact ⟨decided _ _ ok, fun w hw => follows w run ((entry _).symm.trans hw)⟩
  · have shown := abandoned.lines p
    rw [pin]
    exact ⟨congrArg Prod.fst shown, congrArg (fun s : List Edge × List Trans × Bool × Bool => s.2.1) shown⟩

/-! ### A STOP in PAUSE mode -/

theorem stopPause_acts (s : State) (id : Nat) (x : Entry) (stop : s.dev.stopOf id 1 = some x) :
    let n := descTarget x.desc
    let st := s.dev.siteState n
    let plain := s.dev.privatePins n = [] ∧ s.dev.inSpan n = false
    ((st = SiteState.PREPARING ∨ st = SiteState.ARMED) → ∀ t, (s.dev.site n).start = some t → s.dev.bed < t) →
    Acts (.stopPause id) s (fun e =>
      (st = SiteState.RUNNING → plain → e.siteState n = SiteState.RUNNING ∧
        (e.site n).pausePend = true ∧ id ∈ (e.site n).stops ∧ e.entry? id = some { x with begun := true, started := true }) ∧
      (st ≠ SiteState.PREPARING → st ≠ SiteState.ARMED → ¬plain → e.decided id Status.INVALID ∧ e.sites = s.dev.sites) ∧
      (st = SiteState.DRAINING → plain → id ∈ (e.site n).stops ∧ e.entry? id = some { x with begun := true, started := true }) ∧
      ((st = SiteState.PAUSED ∨ st ≤ SiteState.DOZE) → plain → e.decided id Status.OK ∧ e.sites = s.dev.sites) ∧
      ((st = SiteState.PREPARING ∨ st = SiteState.ARMED) → e.siteState n = st ∧ id ∈ (e.site n).stops ∧
        e.entry? id = some { x with begun := true, started := true } ∧
        ((s.dev.site n).early = none → (e.site n).early = some (5, Status.WITHDRAWN)) ∧
        (∀ r v, (s.dev.site n).early = some (r, v) → r ≤ 5 → (e.site n).early = some (r, v))) ∧
      (∀ m, m ≠ n → e.site m = s.dev.site m ∧ e.siteState m = s.dev.siteState m) ∧ s.dev.keepsBut e []) := by
  intro n st plain waits
  obtain ⟨hx, undone⟩ := Dev.stopOf_entry stop
  refine acts_onDev rfl rfl ?_
  unfold Dev.stopPause
  rw [stop]
  dsimp only
  rw [Dev.siteStart_waits waits]
  have names : SiteState.DOZE = 2 ∧ SiteState.PREPARING = 3 ∧ SiteState.ARMED = 4 ∧ SiteState.RUNNING = 5 ∧ SiteState.PAUSED = 6 ∧ SiteState.DRAINING = 7 :=
    ⟨rfl, rfl, rfl, rfl, rfl, rfl⟩
  obtain ⟨doze, preparing, armed, running, paused, draining⟩ := names
  have started := (Dev.start_entry hx).1
  split
  next before =>
    obtain ⟨stands, regs, none_, some_⟩ := Dev.stopEarly_stands (n := n) hx
    have rd := Dev.rd_congr regs
    have early : st = SiteState.PREPARING ∨ st = SiteState.ARMED := before
    exact ⟨fun _ => by omega, fun _ _ => by omega, fun _ => by omega, fun _ => by omega, fun _ => ⟨rd _ _, stands.listed, stands.entry, none_, some_⟩,
      fun m hm => ⟨stands.sites m hm, rd _ _⟩, fun f i _ => rd f i⟩
  next past =>
    have late : ¬(st = SiteState.PREPARING ∨ st = SiteState.ARMED) := past
    have isPlain : (!(s.dev.privatePins n).isEmpty || s.dev.inSpan n) = true ↔ ¬plain := by
      simp [plain, Classical.or_iff_not_imp_left]
    have done := fun v r => Dev.stop_done (r := r) hx undone v
    have same : ∀ m, (s.dev.start id).site m = s.dev.site m := fun _ => rfl
    split
    next bad =>
      obtain ⟨decided, sites, regs⟩ := done Status.INVALID 0
      have rd := Dev.rd_congr regs
      have bad := isPlain.mp bad
      exact ⟨fun _ h => absurd h bad, fun _ _ _ => ⟨decided, sites⟩, fun _ h => absurd h bad, fun _ h => absurd h bad, fun h => absurd h late,
        fun m _ => ⟨Dev.site_congr sites m, rd _ _⟩, fun f i _ => rd f i⟩
    next good =>
      have good : plain := Classical.not_not.mp fun h => good (isPlain.mpr h)
      split
      next runs =>
        have runs : st = SiteState.RUNNING := runs
        exact ⟨fun _ _ => ⟨runs, by rw [Dev.upSite_site, if_pos rfl], by rw [Dev.upSite_site, if_pos rfl]; simp, started⟩, fun _ _ h => absurd good h, fun _ => by omega, fun _ => by omega, fun h => absurd h late,
          fun m hm => ⟨by rw [Dev.upSite_site, if_neg hm, same], rfl⟩, fun _ _ _ => rfl⟩
      next rests =>
        have rests : st ≠ SiteState.RUNNING := rests
        split
        next drains =>
          have drains : st = SiteState.DRAINING := drains
          exact ⟨fun h => absurd h rests, fun _ _ h => absurd good h, fun _ _ => ⟨by rw [Dev.upSite_site, if_pos rfl]; simp, started⟩, fun _ => by omega, fun h => absurd h late,
            fun m hm => ⟨by rw [Dev.upSite_site, if_neg hm, same], rfl⟩, fun _ _ _ => rfl⟩
        next other =>
          obtain ⟨decided, sites, regs⟩ := done Status.OK (s.dev.stopResult n)
          have rd := Dev.rd_congr regs
          exact ⟨fun h => absurd h rests, fun _ _ h => absurd good h, fun h => absurd h other, fun _ _ => ⟨decided, sites⟩, fun h => absurd h late,
            fun m _ => ⟨Dev.site_congr sites m, rd _ _⟩, fun f i _ => rd f i⟩

end Sys2Proof.Machine

open Sys2Proof Sys2Proof.Machine

/-- Settles O15: by the state in which the STOP finds its site; the engine cycle then ends the one preparation that stands stopped. -/
theorem stopWithdrawsDrainsOrPauses : Obligations.StopWithdrawsDrainsOrPauses :=
  ⟨⟨stopAbort_acts, stopAbort_started, fun s n r v y idle _ quiet one early => idle_ends s n r v y idle quiet one early⟩, stopPause_acts⟩
end

section
/-!
SUPPORT. What filling the Vector FIFOs of a sequencer leaves (R103, R109, R110), while its site runs.
-/
namespace Sys2Proof.Machine

/-- Where a pin stands in its burst: the boundary of its next vector, the vectors launched, the last of them. -/
def Pin.beat (P : Pin) : Nat × Nat × Option Vec := (P.tNext, P.vcount, P.prev)

/-- Between `d` and `e` lane `l` has filled its FIFOs: they have grown, and nothing else but the lane, its pins' streams and requests has changed. -/
structure Dev.Feeds (l : Nat) (d e : Dev) : Prop where
  rest : e.unplaced = d.unplaced
  others : ∀ k, k ≠ l → e.lane k = d.lane k
  fifo : ∀ q, (d.pin q).fifo <+: (e.pin q).fifo
  beat : ∀ q, (e.pin q).beat = (d.pin q).beat

theorem Dev.Feeds.refl (l : Nat) (d : Dev) : Dev.Feeds l d d := ⟨rfl, fun _ _ => rfl, fun _ => List.prefix_rfl, fun _ => rfl⟩

theorem Dev.Feeds.trans {l : Nat} {d e f : Dev} (h : Dev.Feeds l d e) (k : Dev.Feeds l e f) : Dev.Feeds l d f :=
  ⟨k.rest.trans h.rest, fun m hm => (k.others m hm).trans (h.others m hm), fun q => (h.fifo q).trans (k.fifo q), fun q => (k.beat q).trans (h.beat q)⟩

theorem Dev.LaneIs.feeds {l : Nat} {L : Lane} {d e : Dev} (h : Dev.LaneIs l L d e) : Dev.Feeds l d e := by
  have pin (q : Nat) : e.pin q = d.pin q := Dev.pin_congr (congrArg Dev.pins h.view) q
  exact ⟨h.placed, h.others, fun q => by rw [pin], fun q => by rw [pin]⟩

theorem Dev.upLane_feeds (d : Dev) (l : Nat) (f : Lane → Lane) : Dev.Feeds l d (d.upLane l f) := (d.upLane_laneIs l f).feeds

theorem Dev.upPin_feeds (d : Dev) (l p : Nat) {f : Pin → Pin} (fifo : (d.pin p).fifo <+: (f (d.pin p)).fifo) (beat : (f (d.pin p)).beat = (d.pin p).beat) :
    Dev.Feeds l d (d.upPin p f) := by
  refine ⟨rfl, fun _ _ => rfl, fun q => ?_, fun q => ?_⟩ <;>
  · rw [Dev.upPin_pin]
    split
    · subst_vars; assumption
    · rfl

/-! ### One vector drawn and placed -/

theorem Pin.growHolds_keeps (P : Pin) (mx k : Nat) : (P.growHolds mx k).fifo = P.fifo ∧ (P.growHolds mx k).beat = P.beat := by
  unfold Pin.growHolds
  split
  · exact ⟨rfl, rfl⟩
  · split <;> exact ⟨rfl, rfl⟩

/-- A vector drawn: the pin's stream goes on. -/
theorem Dev.drewAt_up (m : Mems) (d : Dev) (p : Nat) (pos : Pos) :
    ∃ f : Pin → Pin, Dev.drewAt m d p pos = d.upPin p f ∧ ∀ P, (f P).fifo = P.fifo ∧ (f P).beat = P.beat := by
  unfold Dev.drewAt
  split
  · exact ⟨_, rfl, fun _ => ⟨rfl, rfl⟩⟩
  · dsimp only
    split
    · exact ⟨_, rfl, fun _ => ⟨rfl, rfl⟩⟩
    · refine ⟨_, rfl, fun P => ?_⟩
      split
      · exact ⟨rfl, rfl⟩
      · have grown (s : Option (Nat × Line)) : (match s with
            | some s => P.growHolds (d.holdMax p) s.1
            | none => P).fifo = P.fifo ∧ (match s with
            | some s => P.growHolds (d.holdMax p) s.1
            | none => P).beat = P.beat := by
          cases s
          · exact ⟨rfl, rfl⟩
          · exact P.growHolds_keeps _ _
        generalize hl : P.slotOf P.pos.entry _ = slot
        specialize grown slot
        split
        · exact grown
        · exact grown

/-- The vector that lane `L` makes of what it has drawn. -/
def Lane.drawn (L : Lane) (w code side ui : Nat) (burst : Bool) : Vec :=
  L.vecOf w code ui (if L.kind = .side then (wTset w + side) % 32 else wTset w) burst false

/-- A pin draws and places a vector, to repeat it where it is to `keep` it; none while its data is missing. -/
def Dev.draw (m : Mems) (w : Nat) (L : Lane) (p : Nat) (d : Dev) (keep : Bool) : Option Dev :=
  match Dev.peek m d p with
  | (.missing, _) => none
  | (.bad, _) => some (d.push (L.vecOf w Code.X 0 (wTset w) false true) p)
  | (.ok code side ui burst, pos) =>
    some (if keep then ((Dev.drewAt m d p pos).push (L.drawn w code side ui burst) p).upPin p (fun P => { P with rep := some (L.drawn w code side ui burst) })
      else (Dev.drewAt m d p pos).push (L.drawn w code side ui burst) p)

/-- Pin `p` has placed a vector, its FIFO has grown by it. -/
def Dev.Placed (l p : Nat) (d e : Dev) : Prop := Dev.Feeds l d e ∧ (e.pin p).fifo ≠ []

theorem Dev.push_placed (l p : Nat) (v : Vec) {d u : Dev} (h : Dev.Feeds l d u) : Dev.Placed l p d (u.push v p) := by
  refine ⟨h.trans (u.upPin_feeds l p ⟨[v], rfl⟩ rfl), ?_⟩
  rw [Dev.push, Dev.upPin_pin, if_pos rfl]
  simp

theorem Dev.draw_placed {m : Mems} {w l p : Nat} {L : Lane} {d e : Dev} {keep : Bool} (h : Dev.draw m w L p d keep = some e) : Dev.Placed l p d e := by
  have drew (pos : Pos) : Dev.Feeds l d (Dev.drewAt m d p pos) := by
    obtain ⟨f, way, keeps⟩ := Dev.drewAt_up m d p pos
    rw [way]
    exact d.upPin_feeds l p (by rw [(keeps _).1]) (keeps _).2
  unfold Dev.draw at h
  split at h
  · exact nomatch h
  · exact Option.some.inj h ▸ Dev.push_placed l p _ (.refl l d)
  next pos _ =>
    rw [← Option.some.inj h]
    have placed (v : Vec) := Dev.push_placed l p v (drew pos)
    split
    · obtain ⟨fed, grown⟩ := placed (L.drawn w _ _ _ _)
      refine ⟨fed.trans (Dev.upPin_feeds _ l p List.prefix_rfl rfl), ?_⟩
      rw [Dev.upPin_pin, if_pos rfl]
      exact grown
    · exact placed _

theorem Dev.placePin_placed {m : Mems} {w l p : Nat} {L : Lane} {d e : Dev} (h : Dev.placePin m w L p d = some e) : Dev.Placed l p d e := by
  have draws (keep : Bool) (h : Dev.draw m w L p d keep = some e) : Dev.Placed l p d e := Dev.draw_placed h
  have pushes (v : Vec) (h : some (d.push v p) = some e) : Dev.Placed l p d e := Option.some.inj h ▸ Dev.push_placed l p v (.refl l d)
  unfold Dev.placePin at h
  dsimp only at h
  split at h
  · exact draws false h
  · exact draws false h
  · split at h
    · exact pushes _ h
    · split at h
      · exact pushes _ h
      · exact draws true h
  · exact pushes _ h
  · exact pushes _ h

theorem Dev.placePins_feeds {m : Mems} {w l : Nat} {L : Lane} {ps : List Nat} {d e : Dev} (h : Dev.placePins m w L ps d = some e) :
    Dev.Feeds l d e ∧ ∀ p, p ∈ ps → (e.pin p).fifo ≠ [] := by
  induction ps generalizing d with
  | nil => exact Option.some.inj h ▸ ⟨.refl l d, fun _ h => nomatch h⟩
  | cons q t ih =>
    rw [Dev.placePins] at h
    split at h
    next u hu =>
      obtain ⟨fed, grown⟩ := Dev.placePin_placed (l := l) hu
      obtain ⟨rest, others⟩ := ih h
      refine ⟨fed.trans rest, fun p hp => ?_⟩
      rcases List.mem_cons.mp hp with rfl | hp
      · exact fun none_ => grown (List.prefix_nil.mp (none_ ▸ rest.fifo p))
      · exact others p hp
    next => exact nomatch h

/-! ### The end of a placement -/

/-- The site of lane `l` has begun its burst: a fault waits for its boundary. -/
def Dev.begun (d : Dev) (l : Nat) : Prop := SiteState.ARMED < d.siteState ((d.laneSite l).getD 0)

theorem Dev.Feeds.regs {l : Nat} {d e : Dev} (h : Dev.Feeds l d e) : e.regs = d.regs := (congrArg Dev.regs h.rest :)

theorem Dev.Feeds.begun {l : Nat} {d e : Dev} (h : Dev.Feeds l d e) (k : d.begun l) : e.begun l := by
  have rd := Dev.rd_congr h.regs
  unfold Dev.begun Dev.siteState at k ⊢
  rw [Dev.laneSite_congr h.regs, rd]
  exact k

theorem Dev.laneFault_feeds {d : Dev} {l : Nat} (h : d.begun l) (v : Nat) : Dev.Feeds l d (d.laneFault l v) := by
  unfold Dev.laneFault
  dsimp only
  rw [if_neg (by simp [Nat.not_le.mpr h])]
  exact d.upLane_feeds l _

theorem Dev.wordTo_feeds {d : Dev} {l : Nat} (h : d.begun l) (w t c : Nat) : Dev.Feeds l d (d.wordTo l w t c) := by
  unfold Dev.wordTo
  split
  · exact d.upLane_feeds l _
  · dsimp only
    have passed (f : Lane → Lane) : Dev.Feeds l d ((d.upLane l f).fillWindow l) := (d.upLane_feeds l f).trans ((d.upLane l f).fillWindow_laneIs l).feeds
    split
    · exact (passed _).trans (Dev.laneFault_feeds ((passed _).begun h) 2)
    · exact passed _

theorem Dev.placed_feeds {d : Dev} {l : Nat} (h : d.begun l) (w : Nat) : Dev.Feeds l d (d.placed l w) := by
  have unrep : Dev.Feeds l d (d.unrep (d.lanePins l)) := by
    unfold Dev.unrep
    generalize d.lanePins l = ps
    induction ps generalizing d with
    | nil => exact .refl l d
    | cons p t ih =>
      have one : Dev.Feeds l d (d.upPin p (fun P => { P with rep := none })) := d.upPin_feeds l p List.prefix_rfl rfl
      exact one.trans (ih (one.begun h))
  unfold Dev.placed
  dsimp only
  rw [← Dev.unrep]
  generalize d.unrep (d.lanePins l) = u at unrep
  split
  · exact unrep.trans (u.upLane_feeds l _)
  · split
    · exact unrep.trans (u.upLane_feeds l _)
    · split
      · exact unrep.trans (u.upLane_feeds l _)
      · exact (unrep.trans (Dev.wordTo_feeds (unrep.begun h) w _ 0)).trans (Dev.upLane_feeds _ l _)

/-! ### The placement -/

/-- A lane that waits for room or data. -/
def Dev.waitsHeld (l : Nat) (d e : Dev) : Prop := e = d ∨ ∃ r, e = d.upLane l (fun L => { L with held := true, heldData := r })

/-- A placement: FIFOs that grow; where one of them stays empty, nothing has been placed. -/
theorem Dev.place_feeds (m : Mems) (l k : Nat) {d : Dev} (h : d.begun l) : Dev.Feeds l d (Dev.place m l k d) ∧
    ∀ p, p ∈ d.lanePins l → ((Dev.place m l k d).pin p).fifo = [] → Dev.waitsHeld l d (Dev.place m l k d) := by
  induction k generalizing d with
  | zero => exact ⟨.refl l d, fun _ _ _ => .inl rfl⟩
  | succ k ih =>
    have waits (r : Option Nat) : Dev.Feeds l d (d.upLane l (fun L => { L with held := true, heldData := r })) ∧ ∀ p, p ∈ d.lanePins l →
        ((d.upLane l (fun L => { L with held := true, heldData := r })).pin p).fifo = [] → Dev.waitsHeld l d (d.upLane l (fun L => { L with held := true, heldData := r })) :=
      ⟨d.upLane_feeds l _, fun _ _ _ => .inr ⟨r, rfl⟩⟩
    unfold Dev.place
    dsimp only
    split
    · split
      · split
        · exact waits _
        next u hu =>
          obtain ⟨fed, grown⟩ := Dev.placePins_feeds (l := l) hu
          have full {e : Dev} (fills : Dev.Feeds l u e) : Dev.Feeds l d e ∧ ∀ p, p ∈ d.lanePins l → (e.pin p).fifo = [] → Dev.waitsHeld l d e :=
            ⟨fed.trans fills, fun p hp none_ => absurd (List.prefix_nil.mp (none_ ▸ fills.fifo p)) (grown p hp)⟩
          have counted (f : Lane → Lane) : Dev.Feeds l u (u.upLane l f) := u.upLane_feeds l f
          split
          · exact full ((counted _).trans (Dev.placed_feeds ((counted _).begun (fed.begun h)) _))
          · exact full ((counted _).trans (ih ((counted _).begun (fed.begun h))).1)
      · exact waits _
    · exact ⟨.refl l d, fun _ _ _ => .inl rfl⟩

/-- The lane that goes on placing from `t`. -/
def Lane.resumed (L : Lane) (t : Nat) : Lane :=
  if L.held then { L with held := false, placeT := max t (L.placeT + L.placeK / 4 * cycleTicks), placeK := 0 } else L

/-- Filling the FIFOs of a site that runs. -/
theorem Dev.feed_feeds (m : Mems) {d : Dev} {l : Nat} (h : d.begun l) (running : ∀ n, d.laneSite l = some n → d.siteState n = SiteState.RUNNING) (t : Nat) :
    Dev.Feeds l d (Dev.feed m d l t) ∧ ∀ p, p ∈ d.lanePins l → ((Dev.feed m d l t).pin p).fifo = [] →
      Dev.waitsHeld l (d.upLane l (fun L => L.resumed t)) (Dev.feed m d l t) := by
  have resumed := d.upLane_feeds l (fun L => L.resumed t)
  obtain ⟨fed, waits⟩ := Dev.place_feeds m l 64 (resumed.begun h)
  have way : Dev.feed m d l t = Dev.place m l 64 (d.upLane l (fun L => L.resumed t)) := by
    unfold Dev.feed
    split
    next n owner =>
      have state : (Dev.place m l 64 (d.upLane l (fun L => L.resumed t))).siteState n = SiteState.RUNNING :=
        (Dev.rd_congr (resumed.trans fed).regs _ _).trans (running n owner)
      generalize hu : Dev.place m l 64 _ = u
      have state : u.siteState n = SiteState.RUNNING := hu ▸ state
      unfold Dev.earlyError
      rw [if_neg (by rw [state]; simp [SiteState.RUNNING, SiteState.PREPARING, SiteState.ARMED])]
      exact hu.symm
    next => rfl
  rw [way]
  exact ⟨resumed.trans fed, waits⟩

end Sys2Proof.Machine
end

section
/-!
SUPPORT. The launch of a vector, and its repetition (R109, R165, R169, R175 to R178, R193).
-/
namespace Sys2Proof.Machine

/-- The fields that a vector driven on a pin may write: a code that it cannot drive, events moved apart. -/
def driveFields : List Fld := [.PIN_STREAM_STATUS_BADCODE, .PIN_TF_STATUS_SPACING, .PIN_TF_STATUS_SPACING_COUNT]

/-- The block but for what leaves it and the comparison sequencers. -/
def Dev.unfired (d : Dev) : Dev := { d.unemitted with csqs := [] }

/-- Between `d` and `e` the pins `ps` have driven vectors: they and their comparison sequencers alone have changed. -/
structure Dev.Fires (ps : List Nat) (d e : Dev) : Prop where
  rest : e.unfired = d.unfired
  pins : ∀ q, q ∉ ps → e.pin q = d.pin q
  csqs : ∀ q, q ∉ ps → e.csq q = d.csq q
  rd : d.keepsFields e driveFields
  raised : d.raised <+: e.raised

theorem Dev.Fires.refl (ps : List Nat) (d : Dev) : Dev.Fires ps d d := ⟨rfl, fun _ _ => rfl, fun _ _ => rfl, fun _ _ _ => rfl, List.prefix_rfl⟩

theorem Dev.Fires.trans {ps : List Nat} {d e f : Dev} (h : Dev.Fires ps d e) (k : Dev.Fires ps e f) : Dev.Fires ps d f :=
  ⟨k.rest.trans h.rest, fun q hq => (k.pins q hq).trans (h.pins q hq), fun q hq => (k.csqs q hq).trans (h.csqs q hq), fun f i hf => (k.rd f i hf).trans (h.rd f i hf),
    h.raised.trans k.raised⟩

theorem Dev.Fires.mono {ps qs : List Nat} {d e : Dev} (h : Dev.Fires ps d e) (sub : ps ⊆ qs) : Dev.Fires qs d e :=
  ⟨h.rest, fun q hq => h.pins q fun m => hq (sub m), fun q hq => h.csqs q fun m => hq (sub m), h.rd, h.raised⟩

theorem Dev.Fires.foldl {g : Dev → Nat → Dev} (h : ∀ d p, Dev.Fires [p] d (g d p)) (ps : List Nat) (d : Dev) : Dev.Fires ps d (ps.foldl g d) := by
  induction ps generalizing d with
  | nil => exact .refl [] d
  | cons p t ih => exact ((h d p).mono (by simp)).trans ((ih _).mono (List.subset_cons_self p t))

theorem Dev.Fires.active {ps : List Nat} {d e : Dev} (h : Dev.Fires ps d e) : e.active = d.active := (congrArg Dev.active h.rest :)

theorem Dev.csq_congr {d e : Dev} (h : e.csqs = d.csqs) (p : Nat) : e.csq p = d.csq p := by rw [Dev.csq, h, Dev.csq]

theorem Dev.Emits.csq {d e : Dev} (h : Dev.Emits d e) (p : Nat) : e.csq p = d.csq p := by
  have same : e.csqs = d.csqs := (congrArg Dev.csqs h.rest :)
  exact Dev.csq_congr same p

theorem Dev.upPin_fires (d : Dev) (p : Nat) (f : Pin → Pin) : Dev.Fires [p] d (d.upPin p f) :=
  ⟨rfl, fun _ hq => (Dev.upPin_pin ..).trans (if_neg fun h => hq (List.mem_singleton.mpr h)), fun _ _ => rfl, fun _ _ _ => rfl,
    List.prefix_rfl⟩

theorem Dev.upCsq_fires (d : Dev) (p : Nat) (f : Csq → Csq) : Dev.Fires [p] d (d.upCsq p f) :=
  ⟨rfl, fun _ _ => rfl, fun _ hq => (Dev.upCsq_csq ..).trans (if_neg fun h => hq (List.mem_singleton.mpr h)), fun _ _ _ => rfl,
    List.prefix_rfl⟩

theorem Dev.settle_raised (d : Dev) (p : Nat) (hz : Int) : d.raised <+: (d.settle p hz).raised := by
  have noted (e : Dev) (n : Nat) : e.raised <+: (e.spacing p n).raised := by
    unfold Dev.spacing
    dsimp only
    split
    · exact List.prefix_rfl
    · split
      · exact List.prefix_rfl
      · exact ⟨_, rfl⟩
  exact noted (d.upPin p _) _

theorem Dev.settle_fires (d : Dev) (p : Nat) (hz : Int) : Dev.Fires [p] d (d.settle p hz) := by
  have emits := d.settle_emits p hz
  exact ⟨congrArg (fun d : Dev => { d with csqs := [] }) emits.rest, fun q hq => Dev.settle_pin (fun h => hq (List.mem_singleton.mpr h)) d hz,
    fun q _ => emits.csq q, fun f i hf => d.settle_rd p hz f i fun h => hf (List.mem_cons_of_mem _ h), d.settle_raised p hz⟩

/-- A pin's place in its burst and what waits in its FIFO. -/
def Pin.queue (P : Pin) : List Vec × Nat × Nat := (P.fifo, P.tNext, P.vcount)

theorem Dev.settle_queue (d : Dev) (p : Nat) (hz : Int) : ((d.settle p hz).pin p).queue = (d.pin p).queue ∧ ((d.settle p hz).pin p).prev = (d.pin p).prev := by
  have fed := (d.settle_emits p hz).fed p
  exact ⟨(congrArg Pin.queue fed :), (congrArg Pin.prev fed :)⟩

/-! ### The formatter -/

theorem askBurst_queue (t : Int) (u v k : Nat) (P : Pin) : (askBurst t u v k P).queue = P.queue := by
  induction k generalizing P with
  | zero => rfl
  | succ k ih =>
    unfold askBurst
    rw [ih]
    split <;> rfl

theorem asks_queue (when_ : Nat → Int) (l : List (Nat × Bool)) (P : Pin) : (l.foldl (fun Q e => Q.ask (when_ e.1) false e.2) P).queue = P.queue :=
  foldl_keeps Pin.queue _ l P fun _ _ _ => rfl

/-- A vector formatted: the pin asks for its events and remembers it. -/
theorem Dev.format_spec (d : Dev) (p : Nat) (v : Vec) (S : Nat) (rep : Bool) : Dev.Fires [p] d (d.format p v S rep) ∧
    ((d.format p v S rep).pin p).queue = (d.pin p).queue ∧ ((d.format p v S rep).pin p).prev = some v ∧ (d.format p v S rep).csqs = d.csqs := by
  unfold Dev.format
  extract_lets k P burstOn a fmt at_ don ddat dret doff when_ lvl drv D burst rtz gated driven P1 d1 d2
  have asked (Q : Pin) (t : Int) (e y : Bool) : (Q.ask t e y).queue = Q.queue := rfl
  have qBurst : burst.queue = P.queue := askBurst_queue _ _ _ _ _
  have qRtz : rtz.queue = P.queue := ((asked _ _ _ _).trans (asked _ _ _ _)).trans (asked P _ _ _)
  have qGated : gated.queue = P.queue := asked P _ _ _
  have qDriven : driven.queue = P.queue := (asks_queue _ _ _).trans (asked P _ _ _)
  clear_value burst rtz gated driven
  have queue : P1.queue = P.queue := by
    unfold P1
    split
    · exact qBurst
    · split
      · exact qRtz
      · split
        · rfl
        · split
          · exact qGated
          · split
            · exact qDriven
            · exact qGated
  have own : d1.pin p = { P1 with vecNo := P1.vecNo + 1, prev := some v } := (Dev.upPin_pin ..).trans (if_pos rfl)
  have fires : Dev.Fires [p] d d1 := d.upPin_fires p _
  have csqs : d1.csqs = d.csqs := rfl
  clear_value d1
  have noted : Dev.Fires [p] d1 d2 :=
    ⟨rfl, fun _ _ => rfl, fun _ _ => rfl, fun f i hf => (d1.set1_rd _ f p i).trans (if_neg fun (h : f = .PIN_STREAM_STATUS_BADCODE ∧ i = p) => hf (h.1 ▸ List.mem_cons_self)),
      List.prefix_rfl⟩
  have own2 : d2.pin p = d1.pin p := rfl
  have csqs2 : d2.csqs = d1.csqs := rfl
  clear_value d2
  split
  · split
    · exact ⟨fires.trans noted, by rw [own2, own]; exact queue, by rw [own2, own], csqs2.trans csqs⟩
    · have once := d2.upPin_fires p (fun Q => { Q with once := setBit Q.once 0 true })
      have own3 : (d2.upPin p (fun Q => { Q with once := setBit Q.once 0 true })).pin p = { d2.pin p with once := setBit (d2.pin p).once 0 true } :=
        (Dev.upPin_pin ..).trans (if_pos rfl)
      have csqs3 : (d2.upPin p (fun Q => { Q with once := setBit Q.once 0 true })).csqs = d2.csqs := rfl
      generalize d2.upPin p (fun Q => { Q with once := setBit Q.once 0 true }) = d3 at once own3 csqs3
      have raised : Dev.Fires [p] d3 (d3.raise 0x1D8 p) := ⟨rfl, fun _ _ => rfl, fun _ _ => rfl, fun _ _ _ => rfl, _, rfl⟩
      have own4 : (d3.raise 0x1D8 p).pin p = { d2.pin p with once := setBit (d2.pin p).once 0 true } := own3
      refine ⟨((fires.trans noted).trans once).trans raised, ?_, ?_, csqs3.trans (csqs2.trans csqs)⟩
      · rw [own4, own2, own]
        exact queue
      · rw [own4, own2, own]
  · exact ⟨fires, by rw [own]; exact queue, by rw [own], csqs⟩

/-! ### The launch -/

/-- Pin `q` has launched vector `w`; `r` stays in its FIFO. -/
def Dev.Launched (q : Nat) (w : Vec) (r : List Vec) (d e : Dev) : Prop :=
  (e.pin q).tNext = (d.pin q).tNext + d.period q w.tset ∧ (e.pin q).fifo = r ∧ (e.pin q).prev = some w ∧ (e.pin q).vcount = (d.pin q).vcount + 1 ∧
    (e.csq q).exps = (d.csq q).exps ++ (if (d.csq q).dead then [] else [d.expOf q w (d.csq q).slotNo (d.pin q).vcount])

theorem Dev.pushExp_spec (d : Dev) (p : Nat) (v : Vec) (S per k : Nat) : Dev.Fires [p] d (d.pushExp p v S per k) ∧ (d.pushExp p v S per k).pins = d.pins ∧
    ((d.pushExp p v S per k).csq p).exps = (d.csq p).exps ++ (if (d.csq p).dead then [] else [d.expOf p v (d.csq p).slotNo k]) := by
  unfold Dev.pushExp
  dsimp only
  have slot : (d.pushSlot p S per).csq p = { d.csq p with slots := (d.csq p).slots ++ [((d.csq p).slotNo, S)], slotNo := (d.csq p).slotNo + 1, lastS := S, lastPer := per } :=
    (Dev.upCsq_csq ..).trans (if_pos rfl)
  have fires : Dev.Fires [p] d (d.pushSlot p S per) := d.upCsq_fires p _
  have pins : (d.pushSlot p S per).pins = d.pins := rfl
  generalize d.pushSlot p S per = u at slot fires pins
  refine ⟨fires.trans (u.upCsq_fires p _), pins, ?_⟩
  rw [Dev.upCsq_csq, if_pos rfl, slot]
  dsimp only
  split <;> simp

theorem Dev.launchPin_spec {d : Dev} {p : Nat} {v : Vec} {r : List Vec} (fifo : (d.pin p).fifo = v :: r) : Dev.Fires [p] d (d.launchPin p v) ∧
    Dev.Launched p v r d (d.launchPin p v) := by
  unfold Dev.launchPin
  dsimp only
  obtain ⟨fires1, pins1, exps1⟩ := d.pushExp_spec p v (d.pin p).tNext (d.period p v.tset) (d.pin p).vcount
  generalize d.pushExp p v (d.pin p).tNext (d.period p v.tset) (d.pin p).vcount = d1 at fires1 pins1 exps1
  obtain ⟨fires2, queue2, prev2, csqs2⟩ := d1.format_spec p v (d.pin p).tNext false
  generalize d1.format p v (d.pin p).tNext false = d2 at fires2 queue2 prev2 csqs2
  have fires3 := d2.upPin_fires p (fun P => { P with fifo := P.fifo.drop 1, tNext := (d.pin p).tNext + d.period p v.tset, vcount := P.vcount + 1 })
  have own3 : (d2.upPin p (fun P => { P with fifo := P.fifo.drop 1, tNext := (d.pin p).tNext + d.period p v.tset, vcount := P.vcount + 1 })).pin p =
      { d2.pin p with fifo := (d2.pin p).fifo.drop 1, tNext := (d.pin p).tNext + d.period p v.tset, vcount := (d2.pin p).vcount + 1 } :=
    (Dev.upPin_pin ..).trans (if_pos rfl)
  have csqs3 : (d2.upPin p (fun P => { P with fifo := P.fifo.drop 1, tNext := (d.pin p).tNext + d.period p v.tset, vcount := P.vcount + 1 })).csqs = d2.csqs := rfl
  generalize d2.upPin p (fun P => { P with fifo := P.fifo.drop 1, tNext := (d.pin p).tNext + d.period p v.tset, vcount := P.vcount + 1 }) = d3 at fires3 own3 csqs3
  obtain ⟨queue, prev⟩ := d3.settle_queue p (((d.pin p).tNext + d.period p v.tset : Nat) - 8192)
  have csqs := (d3.settle_emits p (((d.pin p).tNext + d.period p v.tset : Nat) - 8192)).csq p
  refine ⟨((fires1.trans fires2).trans fires3).trans (d3.settle_fires p _), ?_⟩
  have same : (d1.pin p).queue = (d.pin p).queue := by rw [Dev.pin_congr pins1]
  obtain ⟨fifo1, rest1⟩ := Prod.mk.inj (queue2.trans same)
  obtain ⟨-, vcount1⟩ := Prod.mk.inj rest1
  obtain ⟨fifo2, rest2⟩ := Prod.mk.inj queue
  obtain ⟨next2, vcount2⟩ := Prod.mk.inj rest2
  refine ⟨next2.trans (by rw [own3]), fifo2.trans (by rw [own3, fifo1, fifo]; rfl), prev.trans (by rw [own3, prev2]), vcount2.trans (by rw [own3, vcount1]), ?_⟩
  rw [csqs, Dev.csq_congr csqs3, Dev.csq_congr csqs2, exps1]

theorem Dev.expOf_congr {d e : Dev} (active : e.active = d.active) (p : Nat) (v : Vec) (k c : Nat) : e.expOf p v k c = d.expOf p v k c := by
  unfold Dev.expOf Dev.edge Dev.deskew Dev.period
  simp only [Dev.act_congr active]

/-- What a launch on pin `q` is of depends on that pin, its comparison sequencer and the active timing. -/
theorem Dev.Launched.congr {q : Nat} {w : Vec} {r : List Vec} {d e d' e' : Dev} (h : Dev.Launched q w r d e) (active : d'.active = d.active) (pin : d'.pin q = d.pin q)
    (csq : d'.csq q = d.csq q) (pin' : e'.pin q = e.pin q) (csq' : e'.csq q = e.csq q) : Dev.Launched q w r d' e' := by
  have per : d'.period q w.tset = d.period q w.tset := Dev.act_congr active _ _
  unfold Dev.Launched at h ⊢
  rw [pin, csq, pin', csq', per, Dev.expOf_congr active]
  exact h

/-- The pin launches the vector at the head of its FIFO, where one is there. -/
def Dev.launchHead (d : Dev) (p : Nat) : Dev :=
  match (d.pin p).fifo.head? with
  | some x => d.launchPin p x
  | none => d

theorem Dev.launchHead_spec (d : Dev) (p : Nat) : Dev.Fires [p] d (d.launchHead p) ∧
    ∀ w r, (d.pin p).fifo = w :: r → Dev.Launched p w r d (d.launchHead p) := by
  unfold Dev.launchHead
  cases fifo : (d.pin p).fifo with
  | nil => exact ⟨.refl [p] d, fun _ _ h => nomatch h⟩
  | cons v t =>
    obtain ⟨fires, launched⟩ := Dev.launchPin_spec fifo
    exact ⟨fires, fun w r h => by obtain ⟨rfl, rfl⟩ := List.cons.inj h; exact launched⟩

/-- The pins of a list that names each once launch together. -/
theorem Dev.launchHeads_spec (ps : List Nat) (nodup : ps.Nodup) (d : Dev) : Dev.Fires ps d (ps.foldl Dev.launchHead d) ∧
    ∀ q w r, q ∈ ps → (d.pin q).fifo = w :: r → Dev.Launched q w r d (ps.foldl Dev.launchHead d) := by
  refine ⟨.foldl (fun d p => (d.launchHead_spec p).1) ps d, ?_⟩
  induction ps generalizing d with
  | nil => exact fun _ _ _ h => nomatch h
  | cons p t ih =>
    obtain ⟨fresh, nodup⟩ := List.nodup_cons.mp nodup
    obtain ⟨fires, own⟩ := d.launchHead_spec p
    have later : Dev.Fires t (d.launchHead p) (t.foldl Dev.launchHead (d.launchHead p)) := .foldl (fun d p => (d.launchHead_spec p).1) t _
    intro q w r hq fifo
    rw [List.foldl_cons]
    rcases List.mem_cons.mp hq with rfl | hq
    · exact (own w r fifo).congr rfl rfl rfl (later.pins q fresh) (later.csqs q fresh)
    · have other : q ∉ [p] := fun m => fresh (List.mem_singleton.mp m ▸ hq)
      exact (ih nodup _ q w r hq ((fires.pins q other).symm ▸ fifo)).congr fires.active.symm (fires.pins q other).symm (fires.csqs q other).symm rfl rfl

/-! ### A repetition -/

/-- The period of a repetition on pin `p`: that of the vector before it, else that of set `k`. -/
def Dev.repeatPeriod (d : Dev) (p k : Nat) : Nat := d.period p (match (d.pin p).prev with | some v => v.tset | none => k)

theorem Dev.pushSlot_spec (d : Dev) (p S per : Nat) : Dev.Fires [p] d (d.pushSlot p S per) ∧ (d.pushSlot p S per).pins = d.pins := ⟨d.upCsq_fires p _, rfl⟩

theorem Dev.repeatPin_spec (d : Dev) (p k : Nat) : Dev.Fires [p] d (d.repeatPin p k) ∧
    ((d.repeatPin p k).pin p).tNext = (d.pin p).tNext + d.repeatPeriod p k := by
  have moved {u : Dev} (fires : Dev.Fires [p] d u) (per : Nat) :
      Dev.Fires [p] d ((u.upPin p (fun P => { P with tNext := (d.pin p).tNext + per })).settle p (((d.pin p).tNext + per : Nat) - 8192)) ∧
      (((u.upPin p (fun P => { P with tNext := (d.pin p).tNext + per })).settle p (((d.pin p).tNext + per : Nat) - 8192)).pin p).tNext = (d.pin p).tNext + per := by
    refine ⟨(fires.trans (u.upPin_fires p _)).trans (Dev.settle_fires _ p _), ?_⟩
    have own : ((u.upPin p (fun P => { P with tNext := (d.pin p).tNext + per })).pin p).tNext = (d.pin p).tNext + per := by rw [Dev.upPin_pin, if_pos rfl]
    generalize u.upPin p (fun P => { P with tNext := (d.pin p).tNext + per }) = v at own
    obtain ⟨queue, -⟩ := v.settle_queue p (((d.pin p).tNext + per : Nat) - 8192)
    exact (Prod.mk.inj (Prod.mk.inj queue).2).1.trans own
  have slot (per : Nat) := (d.pushSlot_spec p (d.pin p).tNext per).1
  unfold Dev.repeatPin Dev.repeatPeriod
  dsimp only
  cases (d.pin p).prev with
  | some v => exact moved ((slot _).trans (Dev.format_spec _ p _ _ true).1) (d.period p v.tset)
  | none => exact moved (slot _) (d.period p k)

theorem Dev.repeatPins_spec (ps : List Nat) (nodup : ps.Nodup) (d : Dev) (k : Nat) : Dev.Fires ps d (ps.foldl (fun d p => d.repeatPin p k) d) ∧
    ∀ q, q ∈ ps → ((ps.foldl (fun d p => d.repeatPin p k) d).pin q).tNext = (d.pin q).tNext + d.repeatPeriod q k := by
  refine ⟨.foldl (fun d p => (d.repeatPin_spec p k).1) ps d, ?_⟩
  induction ps generalizing d with
  | nil => exact fun _ h => nomatch h
  | cons p t ih =>
    obtain ⟨fresh, nodup⟩ := List.nodup_cons.mp nodup
    obtain ⟨fires, own⟩ := d.repeatPin_spec p k
    have later : Dev.Fires t (d.repeatPin p k) (t.foldl (fun d p => d.repeatPin p k) (d.repeatPin p k)) := .foldl (fun d p => (d.repeatPin_spec p k).1) t _
    intro q hq
    rw [List.foldl_cons]
    rcases List.mem_cons.mp hq with rfl | hq
    · rw [later.pins q fresh, own]
    · have pin := fires.pins q fun m => fresh (List.mem_singleton.mp m ▸ hq)
      have per : (d.repeatPin p k).repeatPeriod q k = d.repeatPeriod q k := by
        unfold Dev.repeatPeriod Dev.period
        rw [pin, Dev.act_congr fires.active]
      rw [ih nodup _ q hq, pin, per]

end Sys2Proof.Machine
end

section
/-!
PROOF. Vectors driven (R109, R119, R120, R169, R194).
-/
namespace Sys2Proof.Machine

/-- What follows the launch of a vector: FIFOs may grow, comparison sequencers and descriptors stay. -/
structure Dev.Follows (d e : Dev) : Prop where
  fifo : ∀ q, (d.pin q).fifo <+: (e.pin q).fifo
  beat : ∀ q, (e.pin q).beat = (d.pin q).beat
  csqs : e.csqs = d.csqs
  tracker : e.tracker = d.tracker

theorem Dev.Follows.trans {d e f : Dev} (h : Dev.Follows d e) (k : Dev.Follows e f) : Dev.Follows d f :=
  ⟨fun q => (h.fifo q).trans (k.fifo q), fun q => (k.beat q).trans (h.beat q), k.csqs.trans h.csqs, k.tracker.trans h.tracker⟩

theorem Dev.Follows.of {d e : Dev} (pins : e.pins = d.pins) (csqs : e.csqs = d.csqs) (tracker : e.tracker = d.tracker) : Dev.Follows d e :=
  ⟨fun q => by rw [Dev.pin_congr pins], fun q => by rw [Dev.pin_congr pins], csqs, tracker⟩

theorem Pin.beat_of_fed {P Q : Pin} (h : P.fed = Q.fed) : P.beat = Q.beat := (congrArg Pin.beat h :)

theorem Dev.Emits.follows {d e : Dev} (h : Dev.Emits d e) : Dev.Follows d e :=
  ⟨fun q => by rw [h.fifo], fun q => Pin.beat_of_fed (h.fed q), (congrArg Dev.csqs h.rest :), (congrArg Dev.tracker h.rest :)⟩

theorem Dev.WordEmits.follows {l : Nat} {d e : Dev} (h : Dev.WordEmits l d e) : Dev.Follows d e :=
  ⟨fun q => by rw [h.fifo], fun q => Pin.beat_of_fed (h.fed q), (congrArg Dev.csqs h.rest :), (congrArg Dev.tracker h.rest :)⟩

theorem Dev.Feeds.follows {l : Nat} {d e : Dev} (h : Dev.Feeds l d e) : Dev.Follows d e :=
  ⟨h.fifo, h.beat, (congrArg Dev.csqs h.rest :), (congrArg Dev.tracker h.rest :)⟩

/-- A vector of lane `l` counts for site `n`, where the lane is the site's shared one. -/
def Dev.countVec (d : Dev) (n l : Nat) : Dev :=
  if l < 64 then (d.wr .SITE_VCOUNT_COUNT n (d.rd .SITE_VCOUNT_COUNT n + 1)).tally 0x10 n 1 else d

/-- A stretch of site `n` ends with a vector of its shared lane. -/
def Dev.endStretch (d : Dev) (n l k : Nat) : Dev :=
  if l < 64 ∧ k ≠ 0 then (d.set1 .SITE_STATUS_STRETCHED n).upSite n (fun S => { S with stretching := 0, stretched := true, underPin := none }) else d

theorem Dev.launchAll_eq (m : Mems) (d : Dev) (n l : Nat) (v : Vec) (S : Nat) : Dev.launchAll m d n l v S =
    ((Dev.feed m (((v.marks.foldl (fun d k => d.marker n l k S) ((d.lanePins l).foldl Dev.launchHead d)).countVec n l).endStretch n l (d.site n).stretching) l
      (S - ns 12)).holdHead l).tailActs l := rfl

/-- The fields that a launch writes beside the vector count. -/
def launchFields : List Fld := [.SITE_STATUS_STRETCHED, .PIN_TF_STATUS_SPACING, .PIN_TF_STATUS_SPACING_COUNT, .PIN_STREAM_STATUS_BADCODE, .RN_PORT_COUNT_FWD]

theorem launchFields_sub : driveFields ⊆ launchFields ∧ emitFields ⊆ launchFields := by decide

theorem Dev.laneSite_of {d e : Dev} {L : List Fld} (rd : d.keepsFields e L) (member : .SITE_MEMBER_MASK ∉ L) (l : Nat) : e.laneSite l = d.laneSite l := by
  unfold Dev.laneSite Dev.siteOf Dev.isMember
  simp only [rd _ _ member]

theorem Dev.countVec_spec (d : Dev) (n l : Nat) : Dev.Follows d (d.countVec n l) ∧ ∀ f i, (d.countVec n l).rd f i =
    if l < 64 ∧ f = .SITE_VCOUNT_COUNT ∧ i = n then (d.rd .SITE_VCOUNT_COUNT n + 1) % 2 ^ 48 else d.rd f i := by
  unfold Dev.countVec
  by_cases hl : l < 64
  · rw [if_pos hl]
    refine ⟨.of rfl rfl rfl, fun f i => ?_⟩
    have counted : ((d.wr .SITE_VCOUNT_COUNT n (d.rd .SITE_VCOUNT_COUNT n + 1)).tally 0x10 n 1).rd f i =
        (d.wr .SITE_VCOUNT_COUNT n (d.rd .SITE_VCOUNT_COUNT n + 1)).rd f i := rfl
    have width : Fld.SITE_VCOUNT_COUNT.spec.width = 48 := rfl
    rw [counted, Dev.wr_rd, width]
    simp only [hl, true_and]
  · rw [if_neg hl]
    exact ⟨.of rfl rfl rfl, fun f i => (if_neg fun h => hl h.1).symm⟩

theorem Dev.endStretch_spec (d : Dev) (n l k : Nat) : Dev.Follows d (d.endStretch n l k) ∧ d.keepsFields (d.endStretch n l k) [.SITE_STATUS_STRETCHED] := by
  unfold Dev.endStretch
  split
  · exact ⟨.of rfl rfl rfl, fun f i hf => (d.set1_rd .SITE_STATUS_STRETCHED f n i).trans (if_neg fun h => hf (List.mem_singleton.mpr h.1))⟩
  · exact ⟨.of rfl rfl rfl, fun _ _ _ => rfl⟩

/-- From `d` to `e` lane `l` of site `n` has launched its vectors. -/
structure Dev.LaneLaunched (n l : Nat) (d e : Dev) : Prop where
  pins : ∀ q w r, q ∈ d.lanePins l → (d.pin q).fifo = w :: r → (e.pin q).tNext = (d.pin q).tNext + d.period q w.tset ∧ r <+: (e.pin q).fifo ∧
    (e.pin q).prev = some w ∧ (e.pin q).vcount = (d.pin q).vcount + 1 ∧
    (e.csq q).exps = (d.csq q).exps ++ (if (d.csq q).dead then [] else [d.expOf q w (d.csq q).slotNo (d.pin q).vcount])
  rd : ∀ f i, f ∉ launchFields → e.rd f i =
    if l < 64 ∧ f = .SITE_VCOUNT_COUNT ∧ i = n then (d.rd .SITE_VCOUNT_COUNT n + 1) % 2 ^ 48 else d.rd f i
  tracker : e.tracker = d.tracker

theorem Dev.launchAll_launched (m : Mems) {d : Dev} {n l : Nat} (owner : d.laneSite l = some n) (running : d.siteState n = SiteState.RUNNING) (v : Vec) (S : Nat) :
    Dev.LaneLaunched n l d (Dev.launchAll m d n l v S) := by
  rw [Dev.launchAll_eq]
  obtain ⟨fires, launched⟩ := Dev.launchHeads_spec (d.lanePins l) (d.lanePins_nodup l) d
  generalize (d.lanePins l).foldl Dev.launchHead d = d1 at fires launched
  have marked : Dev.Emits d1 (v.marks.foldl (fun d k => d.marker n l k S) d1) := .foldl (fun d k => d.marker_emits n l k S) v.marks d1
  generalize v.marks.foldl (fun d k => d.marker n l k S) d1 = d2 at marked
  obtain ⟨follows3, rd3⟩ := d2.countVec_spec n l
  generalize d2.countVec n l = d3 at follows3 rd3
  obtain ⟨follows4, rd4⟩ := d3.endStretch_spec n l (d.site n).stretching
  generalize d3.endStretch n l (d.site n).stretching = d4 at follows4 rd4
  have before (f : Fld) (i : Nat) (hf : f ∉ launchFields) : d4.rd f i =
      if l < 64 ∧ f = .SITE_VCOUNT_COUNT ∧ i = n then (d.rd .SITE_VCOUNT_COUNT n + 1) % 2 ^ 48 else d.rd f i := by
    have first (g : Fld) (j : Nat) (hg : g ∉ launchFields) : d2.rd g j = d.rd g j :=
      (marked.rd g j fun h => hg (launchFields_sub.2 h)).trans (fires.rd g j fun h => hg (launchFields_sub.1 h))
    rw [rd4 f i fun h => hf (List.mem_singleton.mp h ▸ List.mem_cons_self), rd3, first _ _ hf, first _ _ (by decide)]
  have site4 : d4.laneSite l = some n := by
    refine (Dev.laneSite_of (L := .SITE_VCOUNT_COUNT :: launchFields) (fun f i hf => ?_) (by decide) l).trans owner
    obtain ⟨other, hf⟩ := not_or.mp (mt List.mem_cons.mpr hf)
    exact (before f i hf).trans (if_neg fun h => other h.2.1)
  have state4 : d4.siteState n = SiteState.RUNNING := (before _ _ (by decide)).trans ((if_neg (by simp)).trans running)
  have fed := (Dev.feed_feeds m (d := d4) (l := l) (by rw [Dev.begun, site4, Option.getD_some, state4]; decide)
    (fun k hk => Option.some.inj (site4.symm.trans hk) ▸ state4) (S - ns 12)).1
  generalize Dev.feed m d4 l (S - ns 12) = d5 at fed
  have held := d5.holdHead_emits l
  generalize d5.holdHead l = d6 at held
  have tail := (d6.tailActs_emits l).1
  generalize d6.tailActs l = e at tail
  have follows : Dev.Follows d1 e := marked.follows.trans (follows3.trans (follows4.trans (fed.follows.trans (held.follows.trans tail.follows))))
  refine ⟨fun q w r hq fifo => ?_, fun f i hf => ?_, follows.tracker.trans (congrArg Dev.tracker fires.rest :)⟩
  · obtain ⟨next, rest, prev, vcount, exps⟩ := launched q w r hq fifo
    obtain ⟨next', beat⟩ := Prod.mk.inj (follows.beat q)
    obtain ⟨vcount', prev'⟩ := Prod.mk.inj beat
    exact ⟨next'.trans next, rest ▸ follows.fifo q, prev'.trans prev, vcount'.trans vcount, by rw [Dev.csq_congr follows.csqs, exps]⟩
  · exact (tail.rd f i fun h => hf (launchFields_sub.2 h)).trans ((held.rd f i fun h => hf (launchFields_sub.2 h)).trans
      ((Dev.rd_congr fed.regs f i).trans (before f i hf)))

/-! ### The boundary -/

/-- Nothing stands against a vector that is in its FIFO in time and in no error. -/
theorem Dev.boundaryCause_none {m : Mems} {d : Dev} {l p T : Nat} {v : Vec} (first : d.lanePin l = some p) (head : (d.pin p).fifo.head? = some v)
    (good : d.badHeads (d.lanePins l) = []) (inTime : v.enter / cycleTicks ≤ (T - ns 12) / cycleTicks) : Dev.boundaryCause m d l T = none := by
  unfold Dev.boundaryCause
  rw [first, Option.bind_some, head]
  dsimp only
  split
  · rfl
  · rw [if_neg (by simp [good]), if_neg (Nat.not_lt.mpr inTime)]

/-- A boundary of a running site that is due, and not past its end or a halt. -/
structure Dev.boundaryDue (d : Dev) (n l p T : Nat) : Prop where
  owner : d.laneSite l = some n
  first : d.lanePin l = some p
  running : d.siteState n = SiteState.RUNNING
  boundary : d.nextAt l p = T
  due : T ≤ d.bed + ns 12
  open_ : d.endedBy n l T = false
  noFail : d.failStopDue n (T - ns 12) = false
  noHalt : d.spanHaltDue n (T - ns 12) = false

/-- What a due boundary at `T` does with the FIFOs filled. -/
def Dev.atBoundary (m : Mems) (d : Dev) (n l p T : Nat) : Dev :=
  match Dev.boundaryCause m d l T with
  | some c => Dev.boundaryHalt m d n l T c
  | none =>
    match (d.pin p).fifo.head? with
    | some v => if v.seam ≠ 0 ∨ v.grid.isSome then d else Dev.launchAll m d n l v T
    | none => d

theorem Dev.launch_due {m : Mems} {d : Dev} {n l p T : Nat} (h : d.boundaryDue n l p T) :
    Dev.launch m d l = Dev.atBoundary m (Dev.feed m d l d.bed) n l p T := by
  obtain ⟨owner, first, running, boundary, due, open_, noFail, noHalt⟩ := h
  have started : d.startsAt n = none := by
    unfold Dev.startsAt
    simp [running, SiteState.RUNNING, SiteState.PREPARING, SiteState.ARMED, SiteState.PAUSED]
  unfold Dev.launch
  rw [owner, first]
  dsimp only
  rw [boundary, started]
  dsimp only
  rw [if_neg (by simp [running, open_]; omega), if_neg (by simp [noFail]), if_neg (by simp [noHalt])]
  rfl

/-- Filling the FIFOs at a boundary that is due. -/
theorem Dev.boundaryDue.feeds {m : Mems} {d : Dev} {n l p T : Nat} (h : d.boundaryDue n l p T) : Dev.Feeds l d (Dev.feed m d l d.bed) ∧
    ∀ p, p ∈ d.lanePins l → ((Dev.feed m d l d.bed).pin p).fifo = [] → Dev.waitsHeld l (d.upLane l (fun L => L.resumed d.bed)) (Dev.feed m d l d.bed) :=
  Dev.feed_feeds m (by rw [Dev.begun, h.owner, Option.getD_some, h.running]; decide) (fun k hk => Option.some.inj (h.owner.symm.trans hk) ▸ h.running) d.bed

theorem vectorLaunch_drives (s : State) (l n p : Nat) (v : Vec) (hl : l < 320) (owner : s.dev.laneSite l = some n) (first : s.dev.lanePin l = some p)
    (running : s.dev.siteState n = SiteState.RUNNING) (due : (s.dev.pin p).tNext ≤ s.dev.bed + ns 12) (open_ : s.dev.endedBy n l (s.dev.pin p).tNext = false)
    (noFail : s.dev.failStopDue n ((s.dev.pin p).tNext - ns 12) = false) (noHalt : s.dev.spanHaltDue n ((s.dev.pin p).tNext - ns 12) = false)
    (head : (s.dev.pin p).fifo.head? = some v) (noSeam : v.seam = 0) (free : v.grid = none)
    (inTime : v.enter / cycleTicks ≤ ((s.dev.pin p).tNext - ns 12) / cycleTicks) (good : s.dev.badHeads (s.dev.lanePins l) = [])
    (full : ∀ q, q ∈ s.dev.lanePins l → (s.dev.pin q).fifo ≠ []) :
    Acts (.vectorLaunch l) s (fun e =>
      (∀ q w r, q ∈ s.dev.lanePins l → (s.dev.pin q).fifo = w :: r →
        (e.pin q).tNext = (s.dev.pin q).tNext + s.dev.period q w.tset ∧ r <+: (e.pin q).fifo ∧ (e.pin q).prev = some w ∧
        (e.pin q).vcount = (s.dev.pin q).vcount + 1 ∧
        (e.csq q).exps = (s.dev.csq q).exps ++ (if (s.dev.csq q).dead then [] else [s.dev.expOf q w (s.dev.csq q).slotNo (s.dev.pin q).vcount])) ∧
      e.rd .SITE_VCOUNT_COUNT n = (if l < 64 then (s.dev.rd .SITE_VCOUNT_COUNT n + 1) % 2 ^ 48 else s.dev.rd .SITE_VCOUNT_COUNT n) ∧
      e.siteState n = SiteState.RUNNING ∧ e.tracker = s.dev.tracker ∧
      s.dev.keepsFields e [.SITE_VCOUNT_COUNT, .SITE_STATUS_STRETCHED, .PIN_TF_STATUS_SPACING, .PIN_TF_STATUS_SPACING_COUNT,
        .PIN_STREAM_STATUS_BADCODE, .RN_PORT_COUNT_FWD]) := by
  have some_ : (s.dev.pin p).fifo ≠ [] := fun h => by simp [h] at head
  have boundary : s.dev.boundaryDue n l p (s.dev.pin p).tNext := ⟨owner, first, running, if_neg some_, due, open_, noFail, noHalt⟩
  have fed := (boundary.feeds (m := s.mem)).1
  refine acts_onDevM rfl (decide_eq_true hl) ?_
  rw [Dev.launch_due boundary]
  generalize Dev.feed s.mem s.dev l s.dev.bed = d at fed
  have regs := fed.regs
  have pins : d.lanePins l = s.dev.lanePins l := Dev.lanePins_congr regs l
  have heads (q : Nat) (w : Vec) (r : List Vec) (hq : (s.dev.pin q).fifo = w :: r) : ∃ t, (d.pin q).fifo = w :: (r ++ t) := by
    obtain ⟨t, ht⟩ := fed.fifo q
    exact ⟨t, by rw [← ht, hq]; rfl⟩
  have head' (q : Nat) (hq : (s.dev.pin q).fifo ≠ []) : (d.pin q).fifo.head? = (s.dev.pin q).fifo.head? := by
    obtain ⟨w, r, hw⟩ := List.exists_cons_of_ne_nil hq
    obtain ⟨t, ht⟩ := heads q w r hw
    rw [ht, hw]
    rfl
  have first' : d.lanePin l = some p := by rw [Dev.lanePin, pins]; exact first
  have good' : d.badHeads (d.lanePins l) = [] := by
    rw [pins]
    unfold Dev.badHeads at good ⊢
    rw [List.filter_eq_nil_iff] at good ⊢
    exact fun q hq => by rw [head' q (full q hq)]; exact good q hq
  unfold Dev.atBoundary
  rw [Dev.boundaryCause_none first' ((head' p some_).trans head) good' inTime, (head' p some_).trans head]
  dsimp only
  rw [if_neg (by simp [noSeam, free])]
  have launched := Dev.launchAll_launched s.mem ((Dev.laneSite_congr regs l).trans owner) ((Dev.rd_congr regs _ _).trans running) v (s.dev.pin p).tNext
  generalize Dev.launchAll s.mem d n l v (s.dev.pin p).tNext = e at launched
  have rd := launched.rd
  simp only [Dev.rd_congr regs] at rd
  refine ⟨fun q w r hq fifo => ?_, ?_, ?_, launched.tracker.trans fed.follows.tracker, fun f i hf => ?_⟩
  · obtain ⟨t, ht⟩ := heads q w r fifo
    obtain ⟨next, rest, prev, vcount, exps⟩ := launched.pins q w (r ++ t) (pins ▸ hq) ht
    have active : d.active = s.dev.active := (congrArg Dev.active fed.rest :)
    have csq : d.csq q = s.dev.csq q := Dev.csq_congr fed.follows.csqs q
    have per : d.period q w.tset = s.dev.period q w.tset := Dev.act_congr active _ _
    obtain ⟨next', beat⟩ := Prod.mk.inj (fed.beat q)
    obtain ⟨vcount', -⟩ := Prod.mk.inj beat
    rw [csq, Dev.expOf_congr active, vcount'] at exps
    exact ⟨by rw [next, next', per], (List.prefix_append r t).trans rest, prev, vcount.trans (by rw [vcount']), exps⟩
  · rw [rd _ _ (by decide)]
    simp
  · exact (rd _ _ (by decide)).trans ((if_neg (by simp)).trans running)
  · obtain ⟨count, hf⟩ := not_or.mp (mt List.mem_cons.mpr hf)
    exact (rd f i hf).trans (if_neg fun h => count h.2.1)

end Sys2Proof.Machine
end

section
/-!
PROOF. Data missing at its boundary (R67 to R69, R163 to R165, R167, R328).
-/
namespace Sys2Proof.Machine

/-! ### A lane that waits -/

/-- Between `d` and `e` lane `l` has only waited for room or data. -/
structure Dev.Stalled (l : Nat) (d e : Dev) : Prop where
  rest : ({ e with lanes := [] } : Dev) = { d with lanes := [] }
  others : ∀ k, k ≠ l → e.lane k = d.lane k
  own : ∃ h t k r, e.lane l = { d.lane l with held := h, placeT := t, placeK := k, heldData := r }

theorem Dev.Stalled.regs {l : Nat} {d e : Dev} (h : Dev.Stalled l d e) : e.regs = d.regs := (congrArg Dev.regs h.rest :)

theorem Dev.Stalled.pin {l : Nat} {d e : Dev} (h : Dev.Stalled l d e) (p : Nat) : e.pin p = d.pin p := by
  have pins : e.pins = d.pins := (congrArg Dev.pins h.rest :)
  exact Dev.pin_congr pins p

theorem Lane.resumed_waits (L : Lane) (t : Nat) : ∃ h u k r, L.resumed t = { L with held := h, placeT := u, placeK := k, heldData := r } := by
  unfold Lane.resumed
  split
  · exact ⟨_, _, _, _, rfl⟩
  · exact ⟨L.held, L.placeT, L.placeK, L.heldData, rfl⟩

theorem Dev.waitsHeld.stalled {l t : Nat} {d e : Dev} (h : Dev.waitsHeld l (d.upLane l (fun L => L.resumed t)) e) : Dev.Stalled l d e := by
  obtain ⟨b, u, k, r, way⟩ := (d.lane l).resumed_waits t
  have first : (d.upLane l (fun L => L.resumed t)).lane l = { d.lane l with held := b, placeT := u, placeK := k, heldData := r } :=
    (Dev.upLane_lane ..).trans ((if_pos rfl).trans way)
  have others (j : Nat) (hj : j ≠ l) : (d.upLane l (fun L => L.resumed t)).lane j = d.lane j := (Dev.upLane_lane ..).trans (if_neg hj)
  have rest : ({ d.upLane l (fun L => L.resumed t) with lanes := [] } : Dev) = { d with lanes := [] } := rfl
  generalize d.upLane l (fun L => L.resumed t) = v at h first others rest
  obtain rfl | ⟨q, rfl⟩ := h
  · exact ⟨rest, others, _, _, _, _, first⟩
  · refine ⟨rest, fun j hj => ((Dev.upLane_lane ..).trans (if_neg hj)).trans (others j hj), true, u, k, q, ?_⟩
    rw [Dev.upLane_lane, if_pos rfl, first]

/-- The word of a lane that waits for data is what its boundary lacks. -/
theorem Dev.Stalled.cause {m : Mems} {d e : Dev} {l p q T : Nat} {r : List Nat} (h : Dev.Stalled l d e) (first : d.lanePin l = some p) (empty : (d.pin p).fifo = [])
    (noFault : (d.lane l).fault = none) (emits : (d.lane l).phase = .emit) (notK : (d.lane l).kind ≠ .k) (notIdle : (d.lane l).kind ≠ .idle)
    (missing : Dev.missing m d l = q :: r) : Dev.boundaryCause m e l T = some (.data q (Dev.curWord m d l)) := by
  have pins : e.lanePins l = d.lanePins l := Dev.lanePins_congr h.regs l
  have first' : e.lanePin l = some p := by rw [Dev.lanePin, pins]; exact first
  have peek (p : Nat) : Dev.peek m e p = Dev.peek m d p := (congrArg (fun d => Dev.peek m d p) h.rest :)
  have missing' : Dev.missing m e l = q :: r := by
    rw [← missing, Dev.missing, Dev.missing, pins]
    simp only [peek]
  obtain ⟨a, t, k, x, own⟩ := h.own
  have word : Dev.curWord m e l = Dev.curWord m d l := Dev.curWord_congr h.regs own rfl rfl rfl rfl rfl m
  have head : (e.lanePin l).bind (fun p => (e.pin p).fifo.head?) = none := by rw [first', Option.bind_some, h.pin, empty]; rfl
  unfold Dev.boundaryCause
  dsimp only
  rw [head]
  dsimp only
  rw [own]
  dsimp only
  rw [noFault]
  dsimp only
  rw [emits]
  dsimp only
  rw [if_neg (not_or.mpr ⟨notK, notIdle⟩), missing', word]
  rfl

/-! ### The grid point with nothing placed -/

/-- The pins of lane `l` have reached the grid point it waits for. -/
structure Dev.Gridded (l : Nat) (d e : Dev) : Prop where
  rest : ({ e with lanes := [], pins := [] } : Dev) = { d with lanes := [], pins := [] }
  prev : ∀ q, (e.pin q).prev = (d.pin q).prev

theorem Dev.toGrid_gridded (d : Dev) (l : Nat) : Dev.Gridded l d (d.toGrid l) ∧ ∀ p, d.lanePin l = some p → (d.pin p).fifo = [] →
    ∀ q, q ∈ d.lanePins l → ((d.toGrid l).pin q).tNext = (d.lane l).gridNext.getD (d.pin q).tNext := by
  have moved (g : Nat) := foldl_idem (v := Dev.pin) (g := fun d p => d.upPin p (fun P => { P with tNext := g })) (G := fun P => { P with tNext := g }) (fun _ => rfl)
    (fun d p => by simp) (fun d p q hq => by simp [hq]) (d.lanePins l) d
  have rest (g : Nat) : ({ (d.lanePins l).foldl (fun d p => d.upPin p (fun P => { P with tNext := g })) d with pins := [] } : Dev) = { d with pins := [] } :=
    foldl_keeps (fun d : Dev => ({ d with pins := [] } : Dev)) _ _ d fun _ _ _ => rfl
  unfold Dev.toGrid
  split
  next g empty grid =>
    specialize moved g
    specialize rest g
    generalize (d.lanePins l).foldl (fun d p => d.upPin p (fun P => { P with tNext := g })) d = u at moved rest
    refine ⟨⟨(congrArg (fun d : Dev => ({ d with lanes := [] } : Dev)) rest :), fun q => ?_⟩, fun p _ _ q hq => ?_⟩
    · have pin : (u.upLane l (fun L => { L with gridNext := none })).pin q = u.pin q := rfl
      rw [pin, moved]
      split <;> rfl
    · have pin : (u.upLane l (fun L => { L with gridNext := none })).pin q = u.pin q := rfl
      rw [pin, moved, if_pos hq, grid]
      rfl
  next off =>
    refine ⟨⟨rfl, fun _ => rfl⟩, fun p first empty q _ => ?_⟩
    cases grid : (d.lane l).gridNext with
    | none => rfl
    | some g => exact absurd grid (off g (by rw [first, Option.map_some, empty]))

theorem Dev.Gridded.regs {l : Nat} {d e : Dev} (h : Dev.Gridded l d e) : e.regs = d.regs := (congrArg Dev.regs h.rest :)

/-! ### The stretch -/

/-- An underrun at word `w` may be bridged by repetitions (R67, R165). -/
def Dev.mayStretch (d : Dev) (n l w : Nat) : Bool :=
  decide (l < 64) && d.on .SITE_CTRL_UNDERRUN_POL n && wStretch w && (d.privatePins n).isEmpty && !d.inSpan n &&
    decide ((d.site n).stretching < d.rd .SITE_STRETCH_MAX_COUNT n)

theorem Dev.mayStretch_congr {d e : Dev} (regs : e.regs = d.regs) (sites : e.sites = d.sites) (n l w : Nat) : e.mayStretch n l w = d.mayStretch n l w := by
  unfold Dev.mayStretch Dev.on Dev.privatePins Dev.privMask Dev.inSpan
  simp only [Dev.rd_congr regs, Dev.site_congr sites]

/-- From `d` to `e` the pins of lane `l` have repeated their vectors for missing data of pin `q`. -/
structure Dev.Stretched (n l q w : Nat) (d e : Dev) : Prop where
  states : ∀ m, e.siteState m = d.siteState m
  count : (e.site n).stretching = (d.site n).stretching + 1
  sites : ∀ m, (e.site m).cause = (d.site m).cause
  rd : d.keepsFields e (.PIN_STREAM_STATUS_STRETCHED :: .PIN_STREAM_COUNT_STRETCH_REPS :: driveFields)
  pin : e.on .PIN_STREAM_STATUS_STRETCHED ((d.site n).underPin.getD q) = true
  next : ∀ k, k ∈ d.lanePins l → (e.pin k).tNext = (d.pin k).tNext + d.repeatPeriod k (wTset w)
  raised : d.raised <+: e.raised

theorem Dev.underrun_stretches {d : Dev} {n l w : Nat} (may : d.mayStretch n l w = true) (q : Nat) : Dev.Stretched n l q w d (d.underrun n l q w) := by
  unfold Dev.underrun
  dsimp only
  rw [← Dev.mayStretch, if_pos may]
  have irq : ∃ u, (if (d.site n).stretching = 0 then d.raiseIrq l 2 else d) = u ∧ ({ u with lanes := [] } : Dev) = { d with lanes := [] } := by
    split <;> exact ⟨_, rfl, rfl⟩
  obtain ⟨u, hu, same⟩ := irq
  rw [hu]
  have regs1 : u.regs = d.regs := (congrArg Dev.regs same :)
  have sites1 : u.sites = d.sites := (congrArg Dev.sites same :)
  have pins1 : u.pins = d.pins := (congrArg Dev.pins same :)
  have active1 : u.active = d.active := (congrArg Dev.active same :)
  have raised1 : u.raised = d.raised := (congrArg Dev.raised same :)
  rw [Dev.lanePins_congr regs1 l]
  obtain ⟨fires, next⟩ := Dev.repeatPins_spec (d.lanePins l) (d.lanePins_nodup l) u (wTset w)
  generalize (d.lanePins l).foldl (fun d p => d.repeatPin p (wTset w)) u = v at fires next
  have sites2 : v.sites = u.sites := (congrArg Dev.sites fires.rest :)
  generalize hj : (d.site n).underPin.getD q = j
  have notes : Dev.Notes [.PIN_STREAM_STATUS_STRETCHED, .PIN_STREAM_COUNT_STRETCH_REPS] v
      ((v.set1 .PIN_STREAM_STATUS_STRETCHED j).count .PIN_STREAM_COUNT_STRETCH_REPS j 1) :=
    (v.set1_notes (by simp) j).trans (Dev.wr_notes _ (by simp) j _)
  have mark : ((v.set1 .PIN_STREAM_STATUS_STRETCHED j).count .PIN_STREAM_COUNT_STRETCH_REPS j 1).rd .PIN_STREAM_STATUS_STRETCHED j = 1 :=
    (Dev.wr_rd_ne _ _ _ _ _ _ (by decide)).trans ((v.set1_rd _ _ j j).trans (if_pos ⟨rfl, rfl⟩))
  generalize (v.set1 .PIN_STREAM_STATUS_STRETCHED j).count .PIN_STREAM_COUNT_STRETCH_REPS j 1 = x at notes mark
  have sites : x.sites = d.sites := (congrArg Dev.sites notes.rest :).trans (sites2.trans sites1)
  have pins : x.pins = v.pins := (congrArg Dev.pins notes.rest :)
  have raised : x.raised = v.raised := (congrArg Dev.raised notes.rest :)
  have tallied : (x.tally 0x12 n 1).sites = x.sites ∧ (x.tally 0x12 n 1).pins = x.pins ∧ (x.tally 0x12 n 1).raised = x.raised ∧ (x.tally 0x12 n 1).regs = x.regs :=
    ⟨rfl, rfl, rfl, rfl⟩
  generalize x.tally 0x12 n 1 = y at tallied
  obtain ⟨sites', pins', raised', regs'⟩ := tallied
  have site (m : Nat) : y.site m = d.site m := Dev.site_congr (sites'.trans sites) m
  have rd (f : Fld) (i : Nat) (hf : f ∉ Fld.PIN_STREAM_STATUS_STRETCHED :: .PIN_STREAM_COUNT_STRETCH_REPS :: driveFields) : y.rd f i = d.rd f i := by
    simp only [List.mem_cons, not_or] at hf
    obtain ⟨stretched, reps, drive⟩ := hf
    exact (Dev.rd_congr regs' f i).trans ((notes.rd f i (by simp [stretched, reps])).trans ((fires.rd f i (by simpa [driveFields] using drive)).trans (Dev.rd_congr regs1 f i)))
  have on : y.on .PIN_STREAM_STATUS_STRETCHED j = true := by
    rw [Dev.on, Dev.rd_congr regs', mark]
    rfl
  refine ⟨fun m => rd _ _ (by decide), ?_, fun m => ?_, rd, by rw [hj]; exact on, fun k hk => ?_, ?_⟩
  · rw [Dev.upSite_site, if_pos rfl, site]
  · rw [Dev.upSite_site, site, site]
    split
    · subst_vars; rfl
    · rfl
  · have pin : y.pin k = v.pin k := Dev.pin_congr (pins'.trans pins) k
    have per : u.repeatPeriod k (wTset w) = d.repeatPeriod k (wTset w) := by
      unfold Dev.repeatPeriod Dev.period
      rw [Dev.pin_congr pins1, Dev.act_congr active1]
    exact (congrArg Pin.tNext pin :).trans ((next k hk).trans (by rw [Dev.pin_congr pins1, per]))
  · have same : y.raised = v.raised := raised'.trans raised
    have whole := fires.raised
    rw [raised1, ← same] at whole
    exact whole

/-! ### The halt -/

/-- A stop of a site that does not stop its CSQs at once writes its state alone of the registers, and raises nothing. -/
theorem Dev.stopSite_keeps (d : Dev) (n r st early : Nat) : d.keepsBut (d.stopSite n r st early false) [(.SITE_STATUS_STATE, n)] ∧
    (d.stopSite n r st early false).raised = d.raised := by
  refine ⟨?_, (Dev.alarms_iff.mp (d.stopSite_spec n r st early false).1.1).2⟩
  unfold Dev.stopSite
  dsimp only
  split
  · exact fun _ _ _ => rfl
  · split
    · exact d.drain_keeps n r st false
    · split
      · rw [if_neg (by simp)]
        split
        · split
          · exact fun _ _ _ => rfl
          · exact fun _ _ _ => rfl
        · exact fun _ _ _ => rfl
      · exact fun _ _ _ => rfl

/-- A site that drains goes on draining; a cause of lower rank may take its place. -/
theorem Dev.stopSite_drains {d : Dev} {n : Nat} (draining : d.siteState n = SiteState.DRAINING) (r st early : Nat) {q v : Nat} (cause : (d.site n).cause = some (q, v)) :
    (d.stopSite n r st early false).siteState n = SiteState.DRAINING ∧ ∃ q' v', ((d.stopSite n r st early false).site n).cause = some (q', v') ∧ q' ≤ q := by
  unfold Dev.stopSite
  simp only [draining, SiteState.DRAINING, SiteState.PREPARING, SiteState.ARMED, SiteState.RUNNING, SiteState.PAUSED]
  simp only [Nat.reduceEqDiff, decide_false, Bool.or_self, Bool.false_eq_true, if_false, if_true, false_and, cause]
  split
  next low => exact ⟨draining, r, st, by rw [Dev.upSite_site, if_pos rfl], Nat.le_of_lt low.2⟩
  next => exact ⟨draining, q, v, cause, Nat.le_refl q⟩

/-- Site `n` drains for missing data of pin `q`, noted in cycle `c`, with `v` vectors counted. -/
structure Dev.Underran (n q c v : Nat) (e : Dev) : Prop where
  state : e.siteState n = SiteState.DRAINING
  site : e.on .SITE_STATUS_UNDERRUN n = true
  pin : e.on .PIN_STREAM_STATUS_UNDERRUN q = true
  raised : ⟨0x1C2, n, 0, c⟩ ∈ e.raised
  cause : ∃ r st, (e.site n).cause = some (r, st) ∧ r ≤ 2
  vcount : e.rd .SITE_VCOUNT_COUNT n = v

/-- The fields that say so. -/
def underranFields : List Fld := [.SITE_STATUS_STATE, .SITE_STATUS_UNDERRUN, .PIN_STREAM_STATUS_UNDERRUN, .SITE_VCOUNT_COUNT]

theorem Dev.Underran.of {n q c v : Nat} {d e : Dev} (h : Dev.Underran n q c v d) (rd : ∀ f i, f ∈ underranFields → e.rd f i = d.rd f i)
    (raised : ⟨0x1C2, n, 0, c⟩ ∈ e.raised) (cause : (e.site n).cause = (d.site n).cause) : Dev.Underran n q c v e := by
  refine ⟨(rd _ _ (by decide)).trans h.state, ?_, ?_, raised, cause ▸ h.cause, (rd _ _ (by decide)).trans h.vcount⟩
  · rw [Dev.on, rd _ _ (by decide)]
    exact h.site
  · rw [Dev.on, rd _ _ (by decide)]
    exact h.pin

/-- A later stop of any site leaves it so. -/
theorem Dev.Underran.stop {n q c v : Nat} {d : Dev} (h : Dev.Underran n q c v d) (m r st early : Nat) : Dev.Underran n q c v (d.stopSite m r st early false) := by
  obtain ⟨keeps, raised⟩ := d.stopSite_keeps m r st early
  obtain ⟨⟨-, others⟩, -⟩ := d.stopSite_spec m r st early false
  have rd (f : Fld) (i : Nat) (hf : f ≠ .SITE_STATUS_STATE) : (d.stopSite m r st early false).rd f i = d.rd f i :=
    keeps f i fun k => hf (Prod.mk.inj (List.mem_singleton.mp k)).1
  obtain ⟨a, b, cause, low⟩ := h.cause
  have stands : (d.stopSite m r st early false).siteState n = SiteState.DRAINING ∧
      ∃ a b, ((d.stopSite m r st early false).site n).cause = some (a, b) ∧ a ≤ 2 := by
    by_cases hm : n = m
    · subst hm
      obtain ⟨state, a', b', cause', low'⟩ := Dev.stopSite_drains h.state r st early cause
      exact ⟨state, a', b', cause', low'.trans low⟩
    · exact ⟨(others n hm).1.trans h.state, a, b, by rw [(others n hm).2, cause], low⟩
  refine ⟨stands.1, ?_, ?_, raised ▸ h.raised, stands.2, (rd _ _ (by decide)).trans h.vcount⟩
  · rw [Dev.on, rd _ _ (by decide)]
    exact h.site
  · rw [Dev.on, rd _ _ (by decide)]
    exact h.pin

theorem Dev.Notes.underran {L : List Fld} {n q c v : Nat} {d e : Dev} (k : Dev.Notes L d e) (other : ∀ f, f ∈ underranFields → f ∉ L) (h : Dev.Underran n q c v d) :
    Dev.Underran n q c v e := by
  have raised : e.raised = d.raised := (congrArg Dev.raised k.rest :)
  have sites : e.sites = d.sites := (congrArg Dev.sites k.rest :)
  exact h.of (fun f i hf => k.rd f i (other f hf)) (raised ▸ h.raised) (by rw [Dev.site_congr sites])

theorem Dev.Underran.raise {n q c v : Nat} {d : Dev} (h : Dev.Underran n q c v d) (s i : Nat) : Dev.Underran n q c v (d.raise s i) :=
  h.of (fun _ _ _ => rfl) (List.mem_append_left _ h.raised) rfl

theorem Dev.set1_on {d : Dev} {f g : Fld} {i j : Nat} (h : d.on f i = true) (bit : 1 % 2 ^ g.spec.width = 1) : (d.set1 g j).on f i = true := by
  rw [Dev.on, Dev.set1_rd, bit]
  split
  · rfl
  · exact h

/-- The marks of an underrun of pin `j`. -/
def Dev.markUnderrun (d : Dev) (n j : Nat) : Dev := ((d.set1 .PIN_STREAM_STATUS_UNDERRUN j).set1 .SITE_STATUS_UNDERRUN n).raise 0x1C2 n

theorem Dev.underrun_halts {d : Dev} {n l w : Nat} (may : d.mayStretch n l w = false) (q : Nat) :
    d.underrun n l q w = (d.markUnderrun n ((d.site n).underPin.getD q)).stopSite n 2 Status.UNDERRUN Status.WITHDRAWN false := by
  unfold Dev.underrun
  dsimp only
  rw [← Dev.mayStretch, may]
  rfl

theorem Dev.markUnderrun_spec (d : Dev) (n j : Nat) : d.keepsFields (d.markUnderrun n j) [.PIN_STREAM_STATUS_UNDERRUN, .SITE_STATUS_UNDERRUN] ∧
    (d.markUnderrun n j).on .SITE_STATUS_UNDERRUN n = true ∧ (d.markUnderrun n j).on .PIN_STREAM_STATUS_UNDERRUN j = true ∧
    (∀ f i, d.on f i = true → (d.markUnderrun n j).on f i = true) ∧ (d.markUnderrun n j).sites = d.sites ∧
    (d.markUnderrun n j).raised = d.raised ++ [⟨0x1C2, n, 0, d.cycle⟩] := by
  have notes : Dev.Notes [.PIN_STREAM_STATUS_UNDERRUN, .SITE_STATUS_UNDERRUN] d ((d.set1 .PIN_STREAM_STATUS_UNDERRUN j).set1 .SITE_STATUS_UNDERRUN n) :=
    (d.set1_notes (by simp) j).trans (Dev.set1_notes _ (by simp) n)
  have own {g : Fld} (e : Dev) (i : Nat) (bit : 1 % 2 ^ g.spec.width = 1) : (e.set1 g i).on g i = true := by
    rw [Dev.on, Dev.set1_rd, if_pos ⟨rfl, rfl⟩, bit]
    rfl
  have site := own (g := .SITE_STATUS_UNDERRUN) (d.set1 .PIN_STREAM_STATUS_UNDERRUN j) n rfl
  have pin := Dev.set1_on (g := .SITE_STATUS_UNDERRUN) (j := n) (own (g := .PIN_STREAM_STATUS_UNDERRUN) d j rfl) rfl
  have kept (f : Fld) (i : Nat) (h : d.on f i = true) := Dev.set1_on (g := .SITE_STATUS_UNDERRUN) (j := n)
    (Dev.set1_on (g := .PIN_STREAM_STATUS_UNDERRUN) (j := j) h rfl) rfl
  have cycle : ((d.set1 .PIN_STREAM_STATUS_UNDERRUN j).set1 .SITE_STATUS_UNDERRUN n).cycle = d.cycle := rfl
  unfold Dev.markUnderrun
  generalize (d.set1 .PIN_STREAM_STATUS_UNDERRUN j).set1 .SITE_STATUS_UNDERRUN n = u at notes site pin kept cycle
  refine ⟨notes.rd, site, pin, kept, (congrArg Dev.sites notes.rest :), ?_⟩
  have raised : u.raised = d.raised := (congrArg Dev.raised notes.rest :)
  rw [Dev.raise, Dev.raiseK, raised, cycle]

/-- An event against the lowest pin leaves those of another source. -/
theorem Dev.Underran.raiseLow {n q c v : Nat} {d : Dev} (h : Dev.Underran n q c v d) (m p : Nat) {s : Nat} (hs : s ≠ 0x1C2) : Dev.Underran n q c v (d.raiseLow m s p) := by
  unfold Dev.raiseLow
  dsimp only
  split
  · refine h.of (fun _ _ _ => rfl) (List.mem_map.mpr ⟨_, h.raised, if_neg ?_⟩) rfl
    simp [Ne.symm hs]
  · exact h.raise s p

/-- A cause of another lane that takes effect as well leaves the site as it drains. -/
theorem Dev.Underran.applyCause {n q c v : Nat} {d : Dev} (h : Dev.Underran n q c v d) (k : Nat) (x : Cause) : Dev.Underran n q c v (d.applyCause n k x) := by
  have grid := (d.toGrid_gridded k).1
  have here : Dev.Underran n q c v (d.toGrid k) := by
    have raised : (d.toGrid k).raised = d.raised := (congrArg Dev.raised grid.rest :)
    have sites : (d.toGrid k).sites = d.sites := (congrArg Dev.sites grid.rest :)
    exact h.of (fun f i _ => Dev.rd_congr grid.regs f i) (raised ▸ h.raised) (by rw [Dev.site_congr sites])
  unfold Dev.applyCause
  generalize d.toGrid k = u at here
  have marked {L : List Fld} {e : Dev} (notes : Dev.Notes L u e) (other : ∀ f, f ∈ underranFields → f ∉ L) := notes.underran other here
  split
  next a =>
    unfold Dev.laneFaultNow
    split
    · split
      · exact ((here.raise _ _).of (fun f i hf => (Dev.set1_rd _ _ _ _ _).trans (if_neg fun h => by rw [h.1] at hf; exact absurd hf (by decide)))
          (here.raise _ _).raised rfl).stop _ _ _ _
      · exact here
    · unfold Dev.seqFaultNow
      split
      · exact ((marked (u.dsqFault_notes k a) (by decide)).raiseLow _ _ (by omega)).stop _ _ _ _
      · exact here
  next ps =>
    have bad : Dev.Notes [.PIN_STREAM_STATUS_BAD_STREAM] u (ps.foldl (fun d p => d.set1 .PIN_STREAM_STATUS_BAD_STREAM p) u) :=
      .foldl (fun d p => d.set1_notes (List.mem_singleton.mpr rfl) p) ps u
    exact ((marked bad (by decide)).raiseLow _ _ (by decide)).stop _ _ _ _
  next p w =>
    by_cases may : u.mayStretch n k w = true
    · have stretched := Dev.underrun_stretches may p
      refine here.of (fun f i hf => stretched.rd f i ?_) (stretched.raised.subset here.raised) (stretched.sites n)
      revert f
      decide
    · rw [Dev.underrun_halts (Bool.eq_false_iff.mpr may)]
      obtain ⟨rd, -, -, kept, sites, raised⟩ := u.markUnderrun_spec n ((u.site n).underPin.getD p)
      refine Dev.Underran.stop ⟨(rd _ _ (by decide)).trans here.state, kept _ _ here.site, kept _ _ here.pin, ?_, ?_, (rd _ _ (by decide)).trans here.vcount⟩ _ _ _ _
      · rw [raised]
        exact List.mem_append_left _ here.raised
      · rw [Dev.site_congr sites]
        exact here.cause

end Sys2Proof.Machine
end

section
/-!
PROOF. A boundary whose data is missing (R67 to R69, R163 to R165, R167, R328).
-/
namespace Sys2Proof.Machine

theorem Dev.nextAt_congr {l : Nat} {d e : Dev} (h : Dev.Stalled l d e) {k : Nat} (hk : k ≠ l) (j : Nat) : e.nextAt k j = d.nextAt k j := by
  rw [Dev.nextAt, h.pin, h.others k hk, Dev.nextAt]

/-- The causes of other lanes that take effect with that of lane `l` at `T`. -/
def Dev.joinCauses (m : Mems) (d : Dev) (n l T : Nat) (u : Dev) : Dev :=
  ((d.siteLanes n).filter (fun k => k != l && ((d.lanePin k).map (fun p =>
      decide (d.nextAt k p ≤ d.bed + ns 12) && (d.nextAt k p - ns 12) / cycleTicks == (T - ns 12) / cycleTicks)).getD false)).foldl (fun e k =>
    match Dev.boundaryCause m d k (((d.lanePin k).map (d.nextAt k)).getD T) with
    | some c => e.applyCause n k c
    | none => e) u

theorem Dev.boundaryHalt_runs {m : Mems} {d : Dev} {n l T : Nat} {c : Cause} (h : (d.applyCause n l c).siteState n = SiteState.RUNNING) :
    Dev.boundaryHalt m d n l T c = d.applyCause n l c := if_pos h

theorem Dev.boundaryHalt_halts {m : Mems} {d : Dev} {n l T : Nat} {c : Cause} (h : (d.applyCause n l c).siteState n ≠ SiteState.RUNNING) :
    Dev.boundaryHalt m d n l T c = Dev.joinCauses m d n l T (d.applyCause n l c) := if_neg h

theorem Dev.Underran.join {n q c v : Nat} {u : Dev} (h : Dev.Underran n q c v u) (m : Mems) (d : Dev) (l T : Nat) :
    Dev.Underran n q c v (Dev.joinCauses m d n l T u) := by
  unfold Dev.joinCauses
  refine List.foldlRecOn _ _ h fun e he k _ => ?_
  split
  · exact he.applyCause k _
  · exact he

/-- No other lane has a boundary in the same engine cycle. -/
theorem Dev.joinCauses_alone {m : Mems} {d : Dev} {n l T : Nat}
    (alone : ∀ k j, k ∈ d.siteLanes n → k ≠ l → d.lanePin k = some j → (d.nextAt k j - ns 12) / cycleTicks ≠ (T - ns 12) / cycleTicks) (u : Dev) :
    Dev.joinCauses m d n l T u = u := by
  unfold Dev.joinCauses
  rw [List.filter_eq_nil_iff.mpr ?_, List.foldl_nil]
  intro k hk
  by_cases hl : k = l
  · simp [hl]
  · cases hp : d.lanePin k with
    | none => simp
    | some j => simp [alone k j hk hl hp]

/-- From `d` to `e` site `n` has halted for missing data of lane `l`. -/
theorem Dev.underrun_underran {d : Dev} {n l w : Nat} (running : d.siteState n = SiteState.RUNNING) (may : d.mayStretch n l w = false) (q : Nat) :
    Dev.Underran n ((d.site n).underPin.getD q) d.cycle (d.rd .SITE_VCOUNT_COUNT n) (d.underrun n l q w) ∧
      ((d.underrun n l q w).site n).cause = some (2, Status.UNDERRUN) ∧ (d.underrun n l q w).raised = d.raised ++ [⟨0x1C2, n, 0, d.cycle⟩] := by
  rw [Dev.underrun_halts may]
  obtain ⟨rd, site, pin, -, -, raised⟩ := d.markUnderrun_spec n ((d.site n).underPin.getD q)
  generalize d.markUnderrun n ((d.site n).underPin.getD q) = u at rd site pin raised
  obtain ⟨keeps, same⟩ := u.stopSite_keeps n 2 Status.UNDERRUN Status.WITHDRAWN
  obtain ⟨state, cause⟩ := (u.stopSite_spec n 2 Status.UNDERRUN Status.WITHDRAWN false).2 ((rd _ _ (by decide)).trans running)
  have kept (f : Fld) (i : Nat) (hf : f ≠ .SITE_STATUS_STATE) := keeps f i fun k => hf (Prod.mk.inj (List.mem_singleton.mp k)).1
  refine ⟨⟨state, ?_, ?_, ?_, ⟨2, _, cause, Nat.le_refl 2⟩, (kept _ _ (by decide)).trans (rd _ _ (by decide))⟩, cause, same.trans raised⟩
  · rw [Dev.on, kept _ _ (by decide)]
    exact site
  · rw [Dev.on, kept _ _ (by decide)]
    exact pin
  · rw [same, raised]
    exact List.mem_append_right _ (List.mem_singleton_self _)

theorem vectorLaunch_underruns (s : State) (l n p q : Nat) (r : List Nat) (hl : l < 320) (owner : s.dev.laneSite l = some n) (first : s.dev.lanePin l = some p) :
    let T := s.dev.nextAt l p
    s.dev.siteState n = SiteState.RUNNING → T ≤ s.dev.bed + ns 12 → s.dev.endedBy n l T = false →
    s.dev.failStopDue n (T - ns 12) = false → s.dev.spanHaltDue n (T - ns 12) = false →
    ((Dev.feed s.mem s.dev l s.dev.bed).pin p).fifo = [] → (s.dev.pin p).fifo = [] → (s.dev.lane l).fault = none → (s.dev.lane l).phase = .emit →
    (s.dev.lane l).kind ≠ .k → (s.dev.lane l).kind ≠ .idle → Dev.missing s.mem s.dev l = q :: r →
    let w := Dev.curWord s.mem s.dev l
    let may : Bool := decide (l < 64) && s.dev.on .SITE_CTRL_UNDERRUN_POL n && wStretch w && (s.dev.privatePins n).isEmpty && !s.dev.inSpan n &&
      decide ((s.dev.site n).stretching < s.dev.rd .SITE_STRETCH_MAX_COUNT n)
    Acts (.vectorLaunch l) s (fun e =>
      (may = true → e.siteState n = SiteState.RUNNING ∧ (e.site n).stretching = (s.dev.site n).stretching + 1 ∧
        e.rd .SITE_VCOUNT_COUNT n = s.dev.rd .SITE_VCOUNT_COUNT n ∧ e.on .PIN_STREAM_STATUS_STRETCHED ((s.dev.site n).underPin.getD q) = true ∧
        (∀ k, k ∈ s.dev.lanePins l → (e.pin k).tNext = (s.dev.lane l).gridNext.getD (s.dev.pin k).tNext +
          s.dev.period k (match (s.dev.pin k).prev with | some v => v.tset | none => wTset w))) ∧
      (may = false → e.siteState n = SiteState.DRAINING ∧ e.on .SITE_STATUS_UNDERRUN n = true ∧
        e.on .PIN_STREAM_STATUS_UNDERRUN ((s.dev.site n).underPin.getD q) = true ∧ ⟨0x1C2, n, 0, s.dev.cycle⟩ ∈ e.raised ∧
        (∃ r st, (e.site n).cause = some (r, st) ∧ r ≤ 2) ∧
        ((∀ k j, k ∈ s.dev.siteLanes n → k ≠ l → s.dev.lanePin k = some j → (s.dev.nextAt k j - ns 12) / cycleTicks ≠ (T - ns 12) / cycleTicks) →
          (e.site n).cause = some (2, Status.UNDERRUN) ∧ e.raised = s.dev.raised ++ [⟨0x1C2, n, 0, s.dev.cycle⟩]) ∧
        e.rd .SITE_VCOUNT_COUNT n = s.dev.rd .SITE_VCOUNT_COUNT n)) := by
  intro T running due open_ noFail noHalt emptied empty noFault emits notK notIdle missing w may
  have boundary : s.dev.boundaryDue n l p T := ⟨owner, first, running, rfl, due, open_, noFail, noHalt⟩
  have stalled := ((boundary.feeds (m := s.mem)).2 p (List.mem_of_mem_head? first) emptied).stalled
  refine acts_onDevM rfl (decide_eq_true hl) ?_
  rw [Dev.launch_due boundary]
  clear emptied
  generalize Dev.feed s.mem s.dev l s.dev.bed = d at stalled
  unfold Dev.atBoundary
  rw [stalled.cause first empty noFault emits notK notIdle missing]
  dsimp only
  have way : d.applyCause n l (.data q (Dev.curWord s.mem s.dev l)) = (d.toGrid l).underrun n l q w := rfl
  obtain ⟨grid, next⟩ := d.toGrid_gridded l
  have pins : d.lanePins l = s.dev.lanePins l := Dev.lanePins_congr stalled.regs l
  specialize next p (by rw [Dev.lanePin, pins]; exact first) (by rw [stalled.pin]; exact empty)
  generalize d.toGrid l = u at way grid next
  have regs : u.regs = s.dev.regs := grid.regs.trans stalled.regs
  have same : ({ u with lanes := [], pins := [] } : Dev) = { s.dev with lanes := [], pins := [] } :=
    grid.rest.trans (congrArg (fun d : Dev => ({ d with pins := [] } : Dev)) stalled.rest)
  have sites : u.sites = s.dev.sites := (congrArg Dev.sites same :)
  have site : u.site n = s.dev.site n := Dev.site_congr sites n
  have raised : u.raised = s.dev.raised := (congrArg Dev.raised same :)
  have cycle : u.cycle = s.dev.cycle := (congrArg Dev.cycle same :)
  have active : u.active = s.dev.active := (congrArg Dev.active same :)
  have rd := Dev.rd_congr regs
  have may' : u.mayStretch n l w = may := Dev.mayStretch_congr regs sites n l w
  have running' : u.siteState n = SiteState.RUNNING := (rd _ _).trans running
  cases hm : may with
  | true =>
    have stretched := Dev.underrun_stretches (may'.trans hm) q
    have runs : (d.applyCause n l (.data q (Dev.curWord s.mem s.dev l))).siteState n = SiteState.RUNNING := way ▸ (stretched.states n).trans running'
    rw [Dev.boundaryHalt_runs runs, way]
    refine ⟨fun _ => ⟨(stretched.states n).trans running', stretched.count.trans (by rw [site]), (stretched.rd _ _ (by decide)).trans (rd _ _), site ▸ stretched.pin,
      fun k hk => ?_⟩, fun h => nomatch h⟩
    have member : k ∈ d.lanePins l := pins ▸ hk
    have period : u.repeatPeriod k (wTset w) = s.dev.repeatPeriod k (wTset w) := by
      unfold Dev.repeatPeriod Dev.period
      rw [grid.prev, stalled.pin, Dev.act_congr active]
    obtain ⟨_, _, _, _, own⟩ := stalled.own
    have gridNext : (d.lane l).gridNext = (s.dev.lane l).gridNext := by rw [own]
    rw [stretched.next k (by rw [Dev.lanePins_congr grid.regs]; exact member), next k member, gridNext, stalled.pin, period]
    rfl
  | false =>
    obtain ⟨underran, cause, fault⟩ := Dev.underrun_underran running' (may'.trans hm) q
    rw [site, cycle, rd] at underran
    rw [raised, cycle] at fault
    rw [← way] at underran cause fault
    rw [Dev.boundaryHalt_halts (by rw [underran.state]; decide)]
    have joined := underran.join s.mem d l T
    refine ⟨(fun h => nomatch h), fun _ => ⟨joined.state, joined.site, joined.pin, joined.raised, joined.cause, fun alone => ?_, joined.vcount⟩⟩
    have lanes : d.siteLanes n = s.dev.siteLanes n :=
      Dev.siteLanes_of (L := []) (Dev.keepsFields_of_regs stalled.regs) (by simp) (by simp) n
    rw [Dev.joinCauses_alone fun k j hk other hj => ?_]
    · exact ⟨cause, fault⟩
    · rw [Dev.nextAt_congr stalled other]
      exact alone k j (lanes ▸ hk) other ((by rw [Dev.lanePin, Dev.lanePin, Dev.lanePins_congr stalled.regs] : d.lanePin k = s.dev.lanePin k) ▸ hj)

end Sys2Proof.Machine

open Sys2Proof Sys2Proof.Machine

/-- Settles O19: the FIFOs are filled first; what stands at their heads launches on each pin, or the lane has only waited and its cause takes effect. -/
theorem vectorsAreDrivenStretchedOrHalted : Obligations.VectorsAreDrivenStretchedOrHalted :=
  ⟨vectorLaunch_drives, vectorLaunch_underruns⟩
end

section
/-!
PROOF. A RUN that reaches the Site Fabric (R49, R100, R317, R418).
-/
namespace Sys2Proof.Machine

/-- What the reach of a RUN leaves: the tracker alone is written, and there the RUN's own entry. -/
structure Dev.Reached (id : Nat) (d e : Dev) : Prop where
  rd : d.keepsBut e []
  entries : d.entriesBut e id
  sites : e.sites = d.sites

theorem Dev.finish_reached {d : Dev} {id : Nat} {x : Entry} (hx : d.entry? id = some x) (undone : x.done = false) (v : Nat) :
    (d.finish id v 0).decided id v ∧ Dev.Reached id d (d.finish id v 0) :=
  let ⟨decided, others⟩ := Dev.finish_decided hx undone v 0
  ⟨decided, fun _ _ _ => rfl, others, rfl⟩

/-- The RUN waits in the tracker: it can act from the next engine cycle on. -/
def Dev.runWaits (d : Dev) (id : Nat) : Dev := (d.begin_ id).upEntry id (fun x => { x with reach := d.cycle + 1 })

theorem Dev.runWaits_reached {d : Dev} {id : Nat} {x : Entry} (hx : d.entry? id = some x) :
    (d.runWaits id).entry? id = some { x with begun := true, reach := d.cycle + 1 } ∧ Dev.Reached id d (d.runWaits id) :=
  let ⟨begun, others⟩ := Dev.begin_entry hx
  let ⟨reached, others'⟩ := Dev.upEntry_one begun (fun x => { x with reach := d.cycle + 1 }) (fun _ => rfl)
  ⟨reached, fun _ _ _ => rfl, fun k hk => (others' k hk).trans (others k hk), rfl⟩

theorem Dev.runReach_eq {d : Dev} {id : Nat} {x : Entry} (hx : d.open? id 0x21 = some x) :
    d.runReach id =
      if d.siteState (descTarget x.desc) = SiteState.EMPTY then d.finish id Status.INVALID 0
      else if (d.siteState (descTarget x.desc) = SiteState.IDLE ∨ d.siteState (descTarget x.desc) = SiteState.DOZE) ∧ d.cs.load.isNone then
        match d.runStatus (descTarget x.desc) x with
        | some v => if v = Status.UNIT_DOWN then d.runWaits id else d.finish id v 0
        | none => d.runWaits id
      else d.runWaits id := by
  unfold Dev.runReach
  rw [hx]
  rfl

theorem runReach_acts (s : State) (id : Nat) (x : Entry) (hx : s.dev.open? id 0x21 = some x) :
    let n := descTarget x.desc
    let st := s.dev.siteState n
    let now_ := (st = SiteState.IDLE ∨ st = SiteState.DOZE) ∧ s.dev.cs.load = none
    Acts (.run id) s (fun e => s.dev.keepsBut e [] ∧ s.dev.entriesBut e id ∧ e.sites = s.dev.sites ∧
      (st = SiteState.EMPTY → e.decided id Status.INVALID) ∧
      (∀ v, now_ → s.dev.runStatus n x = some v → v ≠ Status.UNIT_DOWN → e.decided id v) ∧
      (st ≠ SiteState.EMPTY → (now_ → s.dev.runStatus n x = none ∨ s.dev.runStatus n x = some Status.UNIT_DOWN) →
        e.entry? id = some { x with begun := true, reach := s.dev.cycle + 1 })) := by
  intro n st now_
  obtain ⟨held, undone⟩ := Dev.open_entry hx
  obtain ⟨waits, frame⟩ := Dev.runWaits_reached held
  have done (v : Nat) := Dev.finish_reached held undone v
  refine acts_onDev rfl rfl ?_
  rw [Dev.runReach_eq hx]
  split
  next empty =>
    obtain ⟨decided, frame⟩ := done Status.INVALID
    refine ⟨frame.rd, frame.entries, frame.sites, fun _ => decided, fun v now => ?_, fun other => absurd empty other⟩
    have filled : st ≠ SiteState.EMPTY := by obtain ⟨h | h, -⟩ := now <;> rw [h] <;> decide
    exact absurd empty filled
  next filled =>
    split
    next now =>
      replace now : now_ := ⟨now.1, Option.isNone_iff_eq_none.mp now.2⟩
      split
      next v hv =>
        split
        next down =>
          exact ⟨frame.rd, frame.entries, frame.sites, fun h => absurd h filled, fun w _ hw other => absurd (Option.some.inj (hw.symm.trans hv) ▸ down) other, fun _ _ => waits⟩
        next up =>
          obtain ⟨decided, frame⟩ := done v
          refine ⟨frame.rd, frame.entries, frame.sites, fun h => absurd h filled, fun w _ hw _ => Option.some.inj (hv.symm.trans hw) ▸ decided, fun _ h => ?_⟩
          rcases h now with h | h
          · exact nomatch hv.symm.trans h
          · exact absurd (Option.some.inj (hv.symm.trans h)) up
      next hv =>
        exact ⟨frame.rd, frame.entries, frame.sites, fun h => absurd h filled, (fun w _ hw => nomatch hv.symm.trans hw), fun _ _ => waits⟩
    next later =>
      exact ⟨frame.rd, frame.entries, frame.sites, fun h => absurd h filled, fun _ now => absurd ⟨now.1, Option.isNone_iff_eq_none.mpr now.2⟩ later, fun _ _ => waits⟩

end Sys2Proof.Machine
end

section
/-!
PROOF. The stages of a preparation's begin (R46, R47, R49, R103, R218).
-/
namespace Sys2Proof.Machine

/-- The block but for the edge PLLs, the memory's operating point and register fields. -/
def Dev.unwakened (d : Dev) : Dev := { d with regs := [], cyc := {}, plls := [], mc := {} }

theorem Dev.keepsBut_of_keys {d e : Dev} {L M : List (Fld × Nat)} (h : d.keepsBut e L) (sub : ∀ k, k ∈ L → k ∈ M) : d.keepsBut e M :=
  fun f i hf => h f i fun hm => hf (sub _ hm)

theorem Dev.wr_keepsBut (d : Dev) (f : Fld) (i v : Nat) : d.keepsBut (d.wr f i v) [(f, i)] := by
  intro g j hg
  rw [Dev.wr_rd, if_neg]
  rintro ⟨rfl, rfl⟩
  exact hg (List.mem_singleton.mpr rfl)

theorem Dev.set1_keepsBut (d : Dev) (f : Fld) (i : Nat) : d.keepsBut (d.set1 f i) [(f, i)] := d.wr_keepsBut f i 1

theorem Dev.keepsBut_trans {d e f : Dev} {L M : List (Fld × Nat)} (h : d.keepsBut e L) (k : e.keepsBut f M) : d.keepsBut f (L ++ M) :=
  fun g i hg => (k g i fun m => hg (List.mem_append_right _ m)).trans (h g i fun m => hg (List.mem_append_left _ m))

theorem Dev.startPll_spec (d : Dev) (q : Nat) : (d.startPll q).regs = d.regs ∧ (d.startPll q).unwakened = d.unwakened := by
  unfold Dev.startPll
  extract_lets ready ok
  split <;> exact ⟨rfl, rfl⟩

/-- The fields of the memory's operating point that a waking site may write. -/
def wakeKeys : List (Fld × Nat) := [(.MC_CTRL_OPPOINT, 0), (.MC_STATUS_OP_PENDING, 0)]

theorem Dev.opFull_spec (d : Dev) : d.keepsBut d.opFull wakeKeys ∧ d.opFull.unwakened = d.unwakened := by
  unfold Dev.opFull Dev.opWritten
  have low := d.wr_keepsBut .MC_CTRL_OPPOINT 0 0
  change d.keepsBut (d.clr .MC_CTRL_OPPOINT 0) _ at low
  have same : (d.clr .MC_CTRL_OPPOINT 0).unwakened = d.unwakened := rfl
  have lowered : d.keepsBut (d.clr .MC_CTRL_OPPOINT 0) wakeKeys := Dev.keepsBut_of_keys low fun _ h => List.mem_cons.mpr (.inl (List.mem_singleton.mp h))
  generalize d.clr .MC_CTRL_OPPOINT 0 = u at low lowered same
  split
  · split
    · exact ⟨lowered, same⟩
    · split
      · exact ⟨lowered, same⟩
      · exact ⟨Dev.keepsBut_trans low (f := u.set1 .MC_STATUS_OP_PENDING 0) (u.set1_keepsBut .MC_STATUS_OP_PENDING 0), Eq.trans rfl same⟩
  · exact ⟨fun _ _ _ => rfl, rfl⟩

theorem Dev.wakeFor_spec (d : Dev) (n : Nat) : d.keepsBut (d.wakeFor n) wakeKeys ∧ (d.wakeFor n).unwakened = d.unwakened := by
  unfold Dev.wakeFor
  have regs := foldl_keeps Dev.regs (fun d q => d.startPll q) (d.quads n) d (fun d q _ => (d.startPll_spec q).1)
  have rest := foldl_keeps Dev.unwakened (fun d q => d.startPll q) (d.quads n) d (fun d q _ => (d.startPll_spec q).2)
  generalize List.foldl _ d (d.quads n) = u at regs rest
  dsimp only
  split
  · exact ⟨fun f i _ => Dev.rd_congr regs f i, rest⟩
  · obtain ⟨keeps, rest'⟩ := u.opFull_spec
    exact ⟨fun f i hf => (keeps f i hf).trans (Dev.rd_congr regs f i), rest'.trans rest⟩

theorem Dev.askTable_unasked (d : Dev) (n : Nat) : (d.askTable n).unasked = d.unasked := by
  unfold Dev.askTable
  dsimp only
  split
  · rfl
  · exact foldl_keeps Dev.unasked _ _ d (fun _ _ _ => Dev.hbm_unasked ..)

/-- The fields that a preparation's begin writes. -/
def prepKeys (n : Nat) : List (Fld × Nat) :=
  [(.SITE_STATUS_STATE, n), (.SITE_COND_C, n), (.FR_SITE_RECORDS_COUNT, n), (.FR_SITE_CAPTURED_COUNT, n), (.FR_SITE_DROPPED_BLOCKS, n),
    (.FR_SITE_DROPPED_RECORDS, n), (.MC_CTRL_OPPOINT, 0), (.MC_STATUS_OP_PENDING, 0)]

/-- The site as the RUN `x` takes it into PREPARING from `d`; it was dozing where `dozing`, and something had to wake where `woke`. -/
def Site.taken (d : Dev) (x : Entry) (dozing woke : Bool) (S : Site) : Site :=
  { idleSince := S.idleSince, conds := S.conds, condPend := S.condPend, spanHalt := S.spanHalt, lastEnd := S.lastEnd, seamClock := S.seamClock,
    seamNoted := S.seamNoted, rested := if S.idleSince + us d.windowUs ≤ d.now then d.now else S.rested, run := some x.id,
    mode := descField x.desc 20 0 2, prepAt := d.now, woke := woke, dozed := dozing, slept := d.kl.wokeUs }

/-- The site is PREPARING for the RUN `x`, its conditions are 0 and what the site needs wakes. -/
def Dev.prepWoken (d : Dev) (n : Nat) (x : Entry) : Dev :=
  ((((d.wr .SITE_STATUS_STATE n SiteState.PREPARING).start x.id).wr .SITE_COND_C n 0).upKl (fun K => { K with wokeUs := 0 })).wakeFor n

/-- Its records are gone as well, and the table of its pins' own programs is asked for. -/
def Dev.prepBegun (d : Dev) (n : Nat) (x : Entry) : Dev :=
  let d1 := d.prepWoken n x
  let dozing := decide (d.siteState n = SiteState.DOZE)
  let d2 := d1.upSite n (Site.taken d x dozing (dozing || !d1.awake n))
  (((d2.frClear n).wr .FR_SITE_DROPPED_BLOCKS n 0).wr .FR_SITE_DROPPED_RECORDS n 0).askTable n

/-- A pin and its Compare Sequencer begin a burst. -/
def Dev.beginPin (d : Dev) (p : Nat) : Dev := (d.startPin p).startCsq p

/-- The lane of pin `p`, which has a program of its own, begins the program that its table entry in `u` gives. -/
def Dev.beginPrivate (m : Mems) (u : Dev) (n : Nat) (d : Dev) (p : Nat) : Dev :=
  d.startLane (64 + p) (pptAddr (Dev.pptEntry m u n p)) (pptLen (Dev.pptEntry m u n p))

/-- The sequencers and pins of site `n` begin the RUN `x`. -/
def Dev.beginRun (m : Mems) (u : Dev) (n : Nat) (x : Entry) : Dev :=
  (u.members n).foldl Dev.beginPin
    ((u.privatePins n).foldl (Dev.beginPrivate m u n) (u.startLane n (descField x.desc 8 0 64) (descField x.desc 16 0 32)))

theorem Dev.prepare_eq (m : Mems) (d : Dev) (n : Nat) (x : Entry) :
    Dev.prepare m d n x =
      if Dev.prepBad m (d.prepBegun n x) n x then (d.prepBegun n x).abandon n Status.INVALID else Dev.beginRun m (d.prepBegun n x) n x := by
  unfold Dev.prepare
  extract_lets dozing d0 d1 d2 d3 d4 d5
  have woken : d1 = d.prepWoken n x := rfl
  clear_value d1
  subst woken
  have begun : d3 = d.prepBegun n x := rfl
  clear_value d3
  rw [← begun]
  rfl

end Sys2Proof.Machine
end

section
/-!
PROOF. The begin of a preparation (R46, R47, R49, R218).
-/
namespace Sys2Proof.Machine

/-- What the begin of a preparation of site `n` for the RUN `x` leaves of the block, before its address checks. -/
structure Dev.PrepBegun (n : Nat) (x : Entry) (d e : Dev) : Prop where
  rd : d.keepsBut e (prepKeys n)
  state : e.siteState n = SiteState.PREPARING
  conds : e.rd .SITE_COND_C n = 0
  records : e.rd .FR_SITE_RECORDS_COUNT n = 0
  dropped : e.rd .FR_SITE_DROPPED_RECORDS n = 0
  tracker : e.tracker = (d.start x.id).tracker
  cs : e.cs = d.cs
  sites : ∀ m, m ≠ n → e.site m = d.site m
  run : (e.site n).run = some x.id
  start : (e.site n).start = none
  stops : (e.site n).stops = []

theorem Dev.prepWoken_spec (d : Dev) (n : Nat) (x : Entry) :
    d.keepsBut (d.prepWoken n x) ((.SITE_STATUS_STATE, n) :: (.SITE_COND_C, n) :: wakeKeys) ∧
      (d.prepWoken n x).siteState n = SiteState.PREPARING ∧ (d.prepWoken n x).rd .SITE_COND_C n = 0 ∧
      (d.prepWoken n x).tracker = (d.start x.id).tracker ∧ (d.prepWoken n x).cs = d.cs ∧ (d.prepWoken n x).sites = d.sites := by
  unfold Dev.prepWoken
  generalize hu : Dev.upKl _ _ = u
  have rd (f : Fld) (i : Nat) : u.rd f i = if f = .SITE_COND_C ∧ i = n then 0 else if f = .SITE_STATUS_STATE ∧ i = n then SiteState.PREPARING else d.rd f i := by
    rw [← hu]
    change (((d.wr .SITE_STATUS_STATE n SiteState.PREPARING).start x.id).wr .SITE_COND_C n 0).rd f i = _
    rw [Dev.wr_rd]
    change (if _ then _ else (d.wr .SITE_STATUS_STATE n SiteState.PREPARING).rd f i) = _
    rw [Dev.wr_rd]
    rfl
  have tracker : u.tracker = (d.start x.id).tracker := by subst hu; rfl
  have cs : u.cs = d.cs := by subst hu; rfl
  have sites : u.sites = d.sites := by subst hu; rfl
  obtain ⟨keeps, rest⟩ := u.wakeFor_spec n
  refine ⟨fun f i hf => ?_, (keeps _ _ (by simp [wakeKeys])).trans ((rd _ _).trans (by simp)), (keeps _ _ (by simp [wakeKeys])).trans ((rd _ _).trans (by simp)),
    (congrArg Dev.tracker rest :).trans tracker, (congrArg Dev.cs rest :).trans cs, (congrArg Dev.sites rest :).trans sites⟩
  simp only [List.mem_cons, Prod.mk.injEq, not_or] at hf
  obtain ⟨state, cond, wake⟩ := hf
  rw [keeps f i (by simpa [wakeKeys] using wake), rd, if_neg cond, if_neg state]

/-- The fields of a site's fail records that its preparation clears. -/
def recordFields : List Fld := [.FR_SITE_RECORDS_COUNT, .FR_SITE_CAPTURED_COUNT, .FR_SITE_DROPPED_BLOCKS, .FR_SITE_DROPPED_RECORDS]

theorem Dev.clearRecords_rd (d : Dev) (n : Nat) (f : Fld) (i : Nat) :
    (((d.frClear n).wr .FR_SITE_DROPPED_BLOCKS n 0).wr .FR_SITE_DROPPED_RECORDS n 0).rd f i = if f ∈ recordFields ∧ i = n then 0 else d.rd f i := by
  have same : (d.upFailSite n fun _ => {}).rd f i = d.rd f i := rfl
  rw [Dev.wr_rd, Dev.wr_rd, Dev.frClear, Dev.wr_rd, Dev.wr_rd, same]
  by_cases hi : i = n
  · simp only [hi, and_true, recordFields, List.mem_cons, List.not_mem_nil, or_false, Nat.zero_mod]
    split_ifs <;> grind
  · simp [hi]

theorem Dev.prepBegun_spec (d : Dev) (n : Nat) (x : Entry) : Dev.PrepBegun n x d (d.prepBegun n x) := by
  unfold Dev.prepBegun
  obtain ⟨keeps, state, conds, tracker, cs, sites⟩ := d.prepWoken_spec n x
  generalize d.prepWoken n x = u at keeps state conds tracker cs sites
  extract_lets woken dozing v
  have site (m : Nat) : v.site m = if m = n then Site.taken d x dozing (dozing || !u.awake n) (u.site n) else u.site m := u.upSite_site n m _
  have regs : v.regs = u.regs := rfl
  have tracker' : v.tracker = u.tracker := rfl
  have cs' : v.cs = u.cs := rfl
  clear_value v
  have rd := v.clearRecords_rd n
  have rest : (((v.frClear n).wr .FR_SITE_DROPPED_BLOCKS n 0).wr .FR_SITE_DROPPED_RECORDS n 0).tracker = v.tracker ∧
      (((v.frClear n).wr .FR_SITE_DROPPED_BLOCKS n 0).wr .FR_SITE_DROPPED_RECORDS n 0).cs = v.cs ∧
      (((v.frClear n).wr .FR_SITE_DROPPED_BLOCKS n 0).wr .FR_SITE_DROPPED_RECORDS n 0).sites = v.sites := ⟨rfl, rfl, rfl⟩
  generalize Dev.wr (Dev.wr (v.frClear n) _ n 0) _ n 0 = w at rd rest
  obtain ⟨tracker3, cs3, sites3⟩ := rest
  have asked := w.askTable_unasked n
  generalize w.askTable n = e at asked
  have all (f : Fld) (i : Nat) : e.rd f i = if f ∈ recordFields ∧ i = n then 0 else u.rd f i :=
    (Dev.rd_congr (congrArg Dev.regs asked :) f i).trans ((rd f i).trans (by rw [Dev.rd_congr regs]))
  have sites_e : e.sites = w.sites := (congrArg Dev.sites asked :)
  have site_e (m : Nat) : e.site m = v.site m := (Dev.site_congr sites_e m).trans (Dev.site_congr sites3 m)
  refine ⟨fun f i hf => ?_, ?_, ?_, ?_, ?_, ?_, ?_, fun m hm => ?_, ?_, ?_, ?_⟩
  · simp only [prepKeys, List.mem_cons, Prod.mk.injEq, List.not_mem_nil, or_false, not_or] at hf
    obtain ⟨h1, h2, h3, h4, h5, h6, h7, h8⟩ := hf
    rw [all, if_neg, keeps f i]
    · simp only [List.mem_cons, Prod.mk.injEq, List.not_mem_nil, or_false, not_or, wakeKeys]
      exact ⟨h1, h2, h7, h8⟩
    · simp only [recordFields, List.mem_cons, List.not_mem_nil, or_false]
      rintro ⟨h | h | h | h, hi⟩
      · exact h3 ⟨h, hi⟩
      · exact h4 ⟨h, hi⟩
      · exact h5 ⟨h, hi⟩
      · exact h6 ⟨h, hi⟩
  · exact (all _ _).trans ((if_neg (by simp [recordFields])).trans state)
  · exact (all _ _).trans ((if_neg (by simp [recordFields])).trans conds)
  · exact (all _ _).trans (if_pos (by simp [recordFields]))
  · exact (all _ _).trans (if_pos (by simp [recordFields]))
  · exact (congrArg Dev.tracker asked :).trans (tracker3.trans (tracker'.trans tracker))
  · exact (congrArg Dev.cs asked :).trans (cs3.trans (cs'.trans cs))
  · rw [site_e, site, if_neg hm, Dev.site_congr sites]
  all_goals rw [site_e, site, if_pos rfl]; rfl

/-! ### The address checks read what the begin keeps (R47, R48, R215) -/

/-- The register fields that the address checks of a preparation read. -/
def checkFields : List Fld :=
  [.DEV_UNITS_MODE, .DEV_UNITS_HBM_OK, .SITE_MEMBER_MASK, .SITE_PRIVATE_MASK, .SITE_PPT_ADDR_ADDR, .FR_SITE_CTRL_SPILL_EN, .FR_SITE_SPILL_BASE_ADDR,
    .FR_SITE_SPILL_SIZE_RECORDS, .FR_SITE_CAP_BASE_ADDR, .FR_SITE_CAP_SIZE_BLOCKS]

theorem Dev.prepBad_congr {d e : Dev} (rd : ∀ f i, f ∈ checkFields → e.rd f i = d.rd f i) (m : Mems) (n : Nat) (x : Entry) :
    Dev.prepBad m e n x = Dev.prepBad m d n x := by
  have local_ : e.localMode = d.localMode := by rw [Dev.localMode, rd _ _ (by decide), Dev.localMode]
  have ok (a len : Nat) : e.hbmOk a len = d.hbmOk a len := by
    unfold Dev.hbmOk Dev.ctxBase Dev.memEnd
    rw [rd .DEV_UNITS_HBM_OK 0 (by decide)]
  have fail : e.frBad n = d.frBad n := by
    simp only [Dev.frBad, local_, ok, Dev.on, rd .FR_SITE_CTRL_SPILL_EN _ (by decide), rd .FR_SITE_SPILL_BASE_ADDR _ (by decide),
      rd .FR_SITE_SPILL_SIZE_RECORDS _ (by decide), rd .FR_SITE_CAP_BASE_ADDR _ (by decide), rd .FR_SITE_CAP_SIZE_BLOCKS _ (by decide)]
  have ownPins : e.privatePins n = d.privatePins n := by
    unfold Dev.privatePins Dev.privMask
    simp only [rd .SITE_MEMBER_MASK _ (by decide), rd .SITE_PRIVATE_MASK _ (by decide)]
  have entry (p : Nat) : Dev.pptEntry m e n p = Dev.pptEntry m d n p := by
    simp only [Dev.pptEntry, local_, rd .SITE_PPT_ADDR_ADDR _ (by decide)]
  have bad : Dev.privBad m e n = Dev.privBad m d n := by
    funext p
    simp only [Dev.privBad, entry, local_, ok, rd .SITE_PPT_ADDR_ADDR _ (by decide)]
  rw [Dev.prepBad, local_, ok, fail, ownPins, bad, Dev.prepBad]

/-- A field that no key names keeps its value at every index. -/
theorem Dev.keepsBut_field {d e : Dev} {L : List (Fld × Nat)} (h : d.keepsBut e L) {f : Fld} (hf : f ∉ L.map Prod.fst) (i : Nat) : e.rd f i = d.rd f i :=
  h f i fun m => hf (List.mem_map_of_mem (f := Prod.fst) m)

theorem Dev.PrepBegun.field {n : Nat} {x : Entry} {d e : Dev} (h : Dev.PrepBegun n x d e) {f : Fld} (hf : f ∉ (prepKeys 0).map Prod.fst) (i : Nat) :
    e.rd f i = d.rd f i := Dev.keepsBut_field h.rd hf i

theorem checkFields_kept {f : Fld} (hf : f ∈ checkFields) : f ∉ (prepKeys 0).map Prod.fst := by
  simp only [checkFields, List.mem_cons, List.not_mem_nil, or_false] at hf
  rcases hf with rfl | rfl | rfl | rfl | rfl | rfl | rfl | rfl | rfl | rfl <;> decide

theorem Dev.PrepBegun.prepBad {n : Nat} {x : Entry} {d e : Dev} (h : Dev.PrepBegun n x d e) (m : Mems) : Dev.prepBad m e n x = Dev.prepBad m d n x :=
  Dev.prepBad_congr (fun _ i hf => h.field (checkFields_kept hf) i) m n x

end Sys2Proof.Machine
end

section
/-!
PROOF. A RUN begins its programs (R46, R47, R78, R103).
-/
namespace Sys2Proof.Machine

/-- The program of a lane at its word 0 as `d` starts it. -/
def Dev.laneStarted (d : Dev) (l a len : Nat) : Lane := { phase := .ready, base := a, len := len, freeAt := d.bed, upc := if d.native l then none else some 0 }

theorem Dev.startLane_laneIs (d : Dev) (l a len : Nat) : Dev.LaneIs l (d.laneStarted l a len) d (d.startLane l a len) := by
  unfold Dev.startLane
  have started : Dev.LaneIs l (d.laneStarted l a len) d (d.upLane l fun _ => d.laneStarted l a len) := d.upLane_laneIs l (fun _ => d.laneStarted l a len)
  change Dev.LaneIs l _ d (((d.upLane l fun _ => d.laneStarted l a len).hbm false (.prog l) a (8 * min len 2048)).fillWindow l)
  generalize d.upLane l _ = u at started
  have asked := u.hbm_unasked false (.prog l) a (8 * min len 2048)
  generalize u.hbm _ _ _ _ = v at asked
  have lanes : v.lanes = u.lanes := (congrArg Dev.lanes asked :)
  obtain ⟨view, others, ps, ws, own⟩ := started
  have begun : Dev.LaneIs l (d.laneStarted l a len) d v :=
    ⟨(Dev.unlaned_of_unasked asked).trans view, fun k hk => (Dev.lane_congr lanes k).trans (others k hk), ps, ws, (Dev.lane_congr lanes l).trans own⟩
  exact begun.trans (v.fillWindow_laneIs l)

theorem Dev.beginPrivates_keeps (m : Mems) (u : Dev) {n : Nat} (hn : n < 64) (ps : List Nat) (d : Dev) :
    (ps.foldl (Dev.beginPrivate m u n) d).unlaned = d.unlaned ∧ (ps.foldl (Dev.beginPrivate m u n) d).lane n = d.lane n :=
  ⟨foldl_keeps Dev.unlaned _ ps d fun d _ _ => (d.startLane_laneIs _ _ _).view,
    foldl_keeps (fun d : Dev => d.lane n) _ ps d fun d p _ => (d.startLane_laneIs (64 + p) _ _).others n (by omega)⟩

/-- The block but for its pins and their Compare Sequencers. -/
def Dev.unstarted (d : Dev) : Dev := { d with pins := [], csqs := [] }

theorem Dev.startCsq_unstarted (d : Dev) (p : Nat) : (d.startCsq p).unstarted = d.unstarted := rfl

theorem Dev.beginPins_unstarted (ps : List Nat) (d : Dev) : (ps.foldl Dev.beginPin d).unstarted = d.unstarted :=
  foldl_keeps Dev.unstarted _ ps d fun d p _ => (d.startPin p).startCsq_unstarted p

theorem Dev.beginPins_pin (ps : List Nat) (d : Dev) (p : Nat) :
    (((ps.foldl Dev.beginPin d).pin p).fifo, ((ps.foldl Dev.beginPin d).pin p).pos) = if p ∈ ps then ([], {}) else ((d.pin p).fifo, (d.pin p).pos) := by
  refine foldl_idem (v := fun (d : Dev) p => ((d.pin p).fifo, (d.pin p).pos)) (g := Dev.beginPin) (G := fun _ => ([], {})) (fun _ => rfl) (fun d q => ?_) (fun d q r hr => ?_) ps d p
  · change (((d.startPin q).pin q).fifo, ((d.startPin q).pin q).pos) = _
    simp [Dev.startPin]
  · change (((d.startPin q).pin r).fifo, ((d.startPin q).pin r).pos) = _
    simp [Dev.startPin, hr]

/-- What the begin of the programs of site `n` leaves of the block. -/
structure Dev.RunBegun (n : Nat) (L : Lane) (d e : Dev) : Prop where
  regs : e.regs = d.regs
  sites : e.sites = d.sites
  tracker : e.tracker = d.tracker
  lane : ∃ ps ws, e.lane n = { L with pages := ps, words := ws }
  pins : ∀ p, p ∈ d.members n → (e.pin p).fifo = [] ∧ (e.pin p).pos = {}

theorem Dev.beginRun_spec (m : Mems) (d : Dev) {n : Nat} (hn : n < 64) (x : Entry) :
    Dev.RunBegun n (d.laneStarted n (descField x.desc 8 0 64) (descField x.desc 16 0 32)) d (Dev.beginRun m d n x) := by
  unfold Dev.beginRun
  obtain ⟨view1, -, lane1⟩ := d.startLane_laneIs n (descField x.desc 8 0 64) (descField x.desc 16 0 32)
  generalize d.startLane n _ _ = u at view1 lane1
  obtain ⟨view2, lane2⟩ := Dev.beginPrivates_keeps m d hn (d.privatePins n) u
  generalize List.foldl _ u _ = v at view2 lane2
  have rest := Dev.beginPins_unstarted (d.members n) v
  have pins := Dev.beginPins_pin (d.members n) v
  generalize List.foldl _ v _ = e at rest pins
  have view : v.unlaned = d.unlaned := view2.trans view1
  have lanes : e.lanes = v.lanes := (congrArg Dev.lanes rest :)
  refine ⟨(congrArg Dev.regs rest :).trans (congrArg Dev.regs view :), (congrArg Dev.sites rest :).trans (congrArg Dev.sites view :),
    (congrArg Dev.tracker rest :).trans (congrArg Dev.tracker view :), ?_, fun p hp => ?_⟩
  · rw [Dev.lane_congr lanes, lane2]
    exact lane1
  · have own := (pins p).trans (if_pos hp)
    exact ⟨congrArg Prod.fst own, congrArg Prod.snd own⟩

theorem Dev.native_congr {d e : Dev} {L : List Fld} (rd : d.keepsFields e L) (hL : ∀ f ∈ [Fld.SITE_MEMBER_MASK, .SITE_PRIVATE_MASK, .CS_IMAGE_SLOT, .CS_IMAGE_MAJOR, .CS_IMAGE_MINOR], f ∉ L)
    (cs : e.cs = d.cs) (l : Nat) : e.native l = d.native l := by
  have pins := Dev.lanePins_of rd (hL _ (by decide)) (hL _ (by decide)) l
  simp only [Dev.native, Dev.ssiImage, pins, cs, rd _ _ (hL .CS_IMAGE_SLOT (by decide)), rd _ _ (hL .CS_IMAGE_MAJOR (by decide)), rd _ _ (hL .CS_IMAGE_MINOR (by decide))]

end Sys2Proof.Machine
end

section
/-!
PROOF. A waiting RUN acts (R47, R49, R102, R103, R303).
-/
namespace Sys2Proof.Machine

/-- The descriptor that acts next has not been decided. -/
theorem Dev.nextRun_undone {d : Dev} {n : Nat} {x : Entry} (h : d.nextRun n = some x) : x.done = false := by
  have chosen := List.find?_some h
  simp only [Bool.and_eq_true, Bool.not_eq_true'] at chosen
  obtain ⟨⟨⟨⟨⟨⟨⟨-, undone⟩, -⟩, -⟩, -⟩, -⟩, -⟩, -⟩ := chosen
  exact undone

theorem Dev.preparing_eq {m : Mems} {d : Dev} {n : Nat} {x : Entry} (rests : d.siteState n = SiteState.IDLE ∨ d.siteState n = SiteState.DOZE)
    (next : d.nextRun n = some x) (run : descOp x.desc = 0x21) :
    Dev.preparing m d n = match d.runStatus n x with
      | some st => d.finish x.id st 0
      | none => Dev.prepare m d n x := by
  unfold Dev.preparing
  rw [if_pos rests, next]
  dsimp only
  exact if_neg (not_not.mpr run)

theorem preparing_refuses (s : State) (n v : Nat) (x : Entry) (hn : n < 64)
    (rests : s.dev.siteState n = SiteState.IDLE ∨ s.dev.siteState n = SiteState.DOZE) (next : s.dev.nextRun n = some x) (run : descOp x.desc = 0x21)
    (hv : s.dev.runStatus n x = some v) (hx : s.dev.entry? x.id = some x) :
    Acts (.preparingEntry n) s (fun e => e.decided x.id v ∧ e.sites = s.dev.sites ∧ s.dev.entriesBut e x.id ∧ s.dev.keepsBut e []) := by
  refine acts_onDevM rfl (decide_eq_true hn) ?_
  rw [Dev.preparing_eq rests next run, hv]
  obtain ⟨decided, frame⟩ := Dev.finish_reached hx (Dev.nextRun_undone next) v
  exact ⟨decided, frame.sites, frame.entries, frame.rd⟩

theorem prepKeys_mono {n : Nat} {f : Fld} {i : Nat} (h : (f, i) ∈ prepKeys n) : f ∈ (prepKeys 0).map Prod.fst := by
  have same : (prepKeys n).map Prod.fst = (prepKeys 0).map Prod.fst := rfl
  exact same ▸ List.mem_map_of_mem (f := Prod.fst) h

theorem preparing_begins (s : State) (n : Nat) (x : Entry) (hn : n < 64)
    (rests : s.dev.siteState n = SiteState.IDLE ∨ s.dev.siteState n = SiteState.DOZE) (next : s.dev.nextRun n = some x) (run : descOp x.desc = 0x21)
    (none_ : s.dev.runStatus n x = none) (hx : s.dev.entry? x.id = some x) :
    Acts (.preparingEntry n) s (fun e =>
      (Dev.prepBad s.mem s.dev n x = false → e.siteState n = SiteState.PREPARING ∧ (e.site n).run = some x.id ∧ (e.site n).start = none ∧
        e.entry? x.id = some { x with begun := true, started := true } ∧ (e.lane n).phase = .ready ∧ (e.lane n).waddr = 0 ∧
        (e.lane n).base = descField x.desc 8 0 64 ∧ (e.lane n).len = descField x.desc 16 0 32 ∧
        (e.lane n).upc = (if s.dev.native n then none else some 0) ∧
        (∀ p, p ∈ s.dev.members n → (e.pin p).fifo = [] ∧ (e.pin p).pos = {}) ∧ s.dev.keepsBut e (prepKeys n)) ∧
      (Dev.prepBad s.mem s.dev n x = true → e.siteState n = SiteState.IDLE ∧ e.decided x.id Status.INVALID ∧
        s.dev.keepsFields e ((prepKeys 0).map Prod.fst ++ [.PIN_TF_STATUS_BAND, .PIN_TF_STATUS_TRIM_PENDING])) ∧
      e.rd .SITE_COND_C n = 0 ∧ e.rd .FR_SITE_RECORDS_COUNT n = 0 ∧ e.rd .FR_SITE_DROPPED_RECORDS n = 0 ∧ s.dev.entriesBut e x.id ∧
      (∀ m, m ≠ n → e.site m = s.dev.site m)) := by
  refine acts_onDevM rfl (decide_eq_true hn) ?_
  rw [Dev.preparing_eq rests next run, none_]
  dsimp only
  rw [Dev.prepare_eq]
  have undone := Dev.nextRun_undone next
  have begun := s.dev.prepBegun_spec n x
  generalize s.dev.prepBegun n x = u at begun
  obtain ⟨started, others⟩ := Dev.start_entry hx
  have entry : u.entry? x.id = some { x with begun := true, started := true } := (Dev.entry_congr begun.tracker x.id).trans started
  have others' : s.dev.entriesBut u x.id := fun k hk => (Dev.entry_congr begun.tracker k).trans (others k hk)
  rw [begun.prepBad]
  split
  next bad =>
    have spec := u.abandon_spec n Status.INVALID
    generalize u.abandon n Status.INVALID = e at spec
    refine ⟨fun good => absurd (good.symm.trans bad) (by decide), fun _ => ⟨spec.state, spec.decided x.id _ begun.run entry undone, fun f i hf => ?_⟩,
      (spec.rd _ _ (by decide)).trans begun.conds, (spec.rd _ _ (by decide)).trans begun.records, (spec.rd _ _ (by decide)).trans begun.dropped,
      fun k hk => (spec.others begun.stops x.id begun.run k hk).trans (others' k hk), fun m hm => (spec.sites m hm).trans (begun.sites m hm)⟩
    refine (spec.rd f i fun h => hf ?_).trans (begun.rd f i fun h => hf (List.mem_append_left _ (prepKeys_mono h)))
    simp only [idleFields, List.mem_cons, List.not_mem_nil, or_false] at h
    rcases h with rfl | rfl | rfl <;> decide
  next good =>
    have spec := Dev.beginRun_spec s.mem u hn x
    generalize Dev.beginRun s.mem u n x = e at spec
    have rd (f : Fld) (i : Nat) : e.rd f i = u.rd f i := Dev.rd_congr spec.regs f i
    have members : u.members n = s.dev.members n := Dev.members_congr (fun k => begun.field (by decide) k) n
    have native : u.native n = s.dev.native n :=
      Dev.native_congr (L := (prepKeys 0).map Prod.fst) (fun f i hf => begun.field hf i) (by decide) begun.cs n
    obtain ⟨ps, ws, lane⟩ := spec.lane
    refine ⟨fun _ => ⟨(rd _ _).trans begun.state, ?_, ?_, (Dev.entry_congr spec.tracker _).trans entry, ?_, ?_, ?_, ?_, ?_, fun p hp => spec.pins p (members ▸ hp),
        fun f i hf => (rd f i).trans (begun.rd f i hf)⟩, fun bad => absurd bad good, (rd _ _).trans begun.conds, (rd _ _).trans begun.records,
      (rd _ _).trans begun.dropped, fun k hk => (Dev.entry_congr spec.tracker k).trans (others' k hk), fun m hm => (Dev.site_congr spec.sites m).trans (begun.sites m hm)⟩
    · rw [Dev.site_congr spec.sites, begun.run]
    · rw [Dev.site_congr spec.sites, begun.start]
    all_goals rw [lane]
    case refine_7 => rw [Dev.laneStarted, native]
    all_goals rfl

end Sys2Proof.Machine

open Sys2Proof Sys2Proof.Machine

/-- Settles O12: the reach by its branches; the begin of the preparation by what each of its stages leaves, the address checks reading only what those keep. -/
theorem runsWaitAreRefusedOrPrepare : Obligations.RunsWaitAreRefusedOrPrepare :=
  ⟨runReach_acts, preparing_refuses, preparing_begins⟩
end

section
/-!
SUPPORT. Rein ports between their states (R374 to R377): what a port leaves behind with UP.
-/
namespace Sys2Proof.Machine

/-! ### What stops aside -/

/-- The status fields that the stop of the span sites and a twin's change of role may write. -/
def asideFields : List Fld :=
  [.SITE_STATUS_STATE, .SITE_STATUS_SPAN_LATE, .RN_PORT_COUNT_FWD, .TW_STATUS_OWN, .TW_STATUS_ROLE]

/-- Between `d` and `e` span sites may have stopped and a twin changed its role: those status fields alone are written, alarms are only added. -/
structure Dev.Aside (d e : Dev) : Prop where
  rd : d.keepsFields e asideFields
  raised : d.raised <+: e.raised

theorem Dev.Aside.refl (d : Dev) : Dev.Aside d d := ⟨fun _ _ _ => rfl, List.prefix_rfl⟩

theorem Dev.Aside.trans {d e f : Dev} (h : Dev.Aside d e) (k : Dev.Aside e f) : Dev.Aside d f :=
  ⟨fun g i hg => (k.rd g i hg).trans (h.rd g i hg), h.raised.trans k.raised⟩

theorem Dev.Aside.foldl {β : Type} {g : Dev → β → Dev} (h : ∀ d b, Dev.Aside d (g d b)) (l : List β) (d : Dev) : Dev.Aside d (l.foldl g d) := by
  induction l generalizing d with
  | nil => exact Dev.Aside.refl d
  | cons b t ih => exact (h d b).trans (ih _)

theorem Dev.wr_aside (d : Dev) {f : Fld} (hf : f ∈ asideFields) (i v : Nat) : Dev.Aside d (d.wr f i v) :=
  ⟨fun g j hg => Dev.wr_rd_ne d f g i j v fun h => hg (h ▸ hf), List.prefix_rfl⟩

theorem Dev.spanLate_aside (d : Dev) (n : Nat) : Dev.Aside d (d.spanLate n) := by
  unfold Dev.spanLate Dev.spanStop
  generalize hu : (d.raise 0x1C4 n).set1 .SITE_STATUS_SPAN_LATE n = u
  have raised : d.raised <+: u.raised := by rw [← hu]; exact List.prefix_append ..
  have late : Dev.Aside d u := ⟨hu ▸ ((d.raise 0x1C4 n).wr_aside (f := .SITE_STATUS_SPAN_LATE) (by decide) n 1).rd, raised⟩
  obtain ⟨state, same⟩ := u.stopSite_keeps n 2 Status.SPAN_LATE Status.SPAN_LATE
  generalize u.stopSite n 2 Status.SPAN_LATE Status.SPAN_LATE false = v at state same
  have stopped : Dev.Aside u (v.upSite n fun S => { S with spanHalt := none }) :=
    ⟨fun f i hf => state f i fun h => hf (by obtain ⟨rfl, -⟩ := Prod.mk.inj (List.mem_singleton.mp h); decide),
      by rw [show (v.upSite n fun S => { S with spanHalt := none }).raised = u.raised from same]⟩
  generalize v.upSite n _ = w at stopped
  have quiet := w.originate_quiet ⟨.halt, d.rd .SITE_SPAN_SPAN_TAG n, 0, d.bed⟩
  generalize w.originate _ = e at quiet
  obtain ⟨-, -, raised, -⟩ := Dev.units_of_quiet quiet
  exact (late.trans stopped).trans ⟨Dev.keepsFields_mono (Dev.keepsFields_of_quiet quiet) (by decide), raised ▸ List.prefix_rfl⟩

theorem Dev.haltSpans_aside (d : Dev) : Dev.Aside d d.haltSpans := Dev.Aside.foldl (fun d n => d.spanLate_aside n) _ d

/-- A part that seeks a twin again lets go of its pins. -/
theorem Dev.roleTo_seeking (d : Dev) : Dev.Aside d (d.roleTo 1) := by
  have owns : Dev.Aside d ((d.wr .TW_STATUS_ROLE 0 1).own false) :=
    (d.wr_aside (f := .TW_STATUS_ROLE) (by decide) 0 1).trans ((d.wr .TW_STATUS_ROLE 0 1).wr_aside (f := .TW_STATUS_OWN) (by decide) 0 0)
  unfold Dev.roleTo
  extract_lets d1 tw d2 d3
  rw [if_pos (by decide)]
  have same : d3.regs = d1.regs ∧ d3.raised = d1.raised := by
    unfold d3
    split <;> exact ⟨rfl, rfl⟩
  have first : d1 = (d.wr .TW_STATUS_ROLE 0 1).own false := rfl
  clear_value d3
  rw [first] at same
  obtain ⟨regs, raised⟩ := same
  have off := foldl_keeps (fun d : Dev => (d.regs, d.raised)) (fun d p => d.deOff p) (List.range 256) d3 (fun _ _ _ => rfl)
  generalize List.foldl (fun (d : Dev) p => d.deOff p) _ _ = u at off
  have out := foldl_keeps (fun d : Dev => (d.regs, d.raised)) (fun d w => d.upWave w (fun W => { W with out := 0 })) (List.range 8) u (fun _ _ _ => rfl)
  generalize List.foldl _ u _ = e at out
  have all : (e.regs, e.raised) = (d3.regs, d3.raised) := out.trans off
  obtain ⟨regs', raised'⟩ := Prod.mk.inj all
  exact ⟨fun f i hf => (Dev.rd_congr (regs'.trans regs) f i).trans (owns.rd f i hf), (raised'.trans raised) ▸ owns.raised⟩

theorem Dev.twinLeft_aside (d : Dev) : Dev.Aside d d.twinLeft := by
  unfold Dev.twinLeft
  split
  · exact d.roleTo_seeking
  · exact Dev.Aside.refl d

theorem Dev.seekAgain_aside (d : Dev) : Dev.Aside d d.seekAgain := by
  unfold Dev.seekAgain
  split
  · exact d.roleTo_seeking
  · exact Dev.Aside.refl d

/-! ### A port's state -/

/-- The status fields that a port leaves behind with UP. -/
def leftFields : List Fld := asideFields ++ [.RN_LANE_STATUS_USED, .RN_LANE_STATUS_SNAP, .RN_PORT_STATUS_LINK_LOSS, .RN_PORT_STATUS_LANES]

/-- Lane `l` is no longer in use. -/
def Dev.laneLeft (d : Dev) (l : Nat) : Dev :=
  ((d.clr .RN_LANE_STATUS_USED l).wr .RN_LANE_STATUS_SNAP l 0).upRnLane l (fun L => { L with lowAt := none })

theorem Dev.laneLeft_keeps (d : Dev) (l : Nat) : d.keepsFields (d.laneLeft l) [.RN_LANE_STATUS_SNAP, .RN_LANE_STATUS_USED] := by
  intro f i hf
  simp only [List.mem_cons, List.not_mem_nil, or_false, not_or] at hf
  change ((d.wr .RN_LANE_STATUS_USED l 0).wr .RN_LANE_STATUS_SNAP l 0).rd f i = _
  rw [Dev.wr_rd_ne _ _ _ _ _ _ hf.1, Dev.wr_rd_ne _ _ _ _ _ _ hf.2]

theorem Dev.lanesLeft_spec (ls : List Nat) (d : Dev) : d.keepsFields (ls.foldl Dev.laneLeft d) [.RN_LANE_STATUS_SNAP, .RN_LANE_STATUS_USED] ∧
    (ls.foldl Dev.laneLeft d).raised = d.raised :=
  ⟨keepsFields_of_view (foldl_keeps (fun d : Dev => viewBut [.RN_LANE_STATUS_SNAP, .RN_LANE_STATUS_USED] d.regs) _ ls d fun d l _ =>
    view_of_keepsFields (d.laneLeft_keeps l)), foldl_keeps Dev.raised _ ls d fun _ _ _ => rfl⟩

/-- Port `p` without its lanes and PRIORITY frames, `u` being the block after its lanes have left use. -/
def Dev.portLeft (u : Dev) (p : Nat) : Dev :=
  ((u.set1 .RN_PORT_STATUS_LINK_LOSS p).wr .RN_PORT_STATUS_LANES p 0).upPort p (fun P => { P with txP := [], t1 := none })

theorem Dev.portLeft_rd (u : Dev) (p : Nat) (f : Fld) (i : Nat) : (u.portLeft p).rd f i =
    if f = .RN_PORT_STATUS_LANES ∧ i = p then 0 else if f = .RN_PORT_STATUS_LINK_LOSS ∧ i = p then 1 else u.rd f i := by
  change ((u.set1 .RN_PORT_STATUS_LINK_LOSS p).wr .RN_PORT_STATUS_LANES p 0).rd f i = _
  rw [Dev.wr_rd, Dev.set1_rd]
  rfl

theorem Dev.leftUp_eq (d : Dev) (p : Nat) : d.leftUp p =
    if d.rd .RN_PORT_CTRL_ROLE p = 0 then (((portLanes p).foldl Dev.laneLeft d).portLeft p).haltSpans
    else if d.twinPort = p then (((portLanes p).foldl Dev.laneLeft d).portLeft p).twinLeft else ((portLanes p).foldl Dev.laneLeft d).portLeft p := rfl

theorem Dev.leftUp_spec (d : Dev) (p : Nat) : d.keepsFields (d.leftUp p) leftFields ∧ d.raised <+: (d.leftUp p).raised ∧
    (d.leftUp p).on .RN_PORT_STATUS_LINK_LOSS p = true := by
  rw [Dev.leftUp_eq]
  obtain ⟨lanes, raised⟩ := Dev.lanesLeft_spec (portLanes p) d
  generalize (portLanes p).foldl Dev.laneLeft d = u at lanes raised
  have rd := u.portLeft_rd p
  have raised' : (u.portLeft p).raised = d.raised := raised
  generalize u.portLeft p = v at rd raised'
  have aside (e : Dev) (h : Dev.Aside v e) : d.keepsFields e leftFields ∧ d.raised <+: e.raised ∧ e.on .RN_PORT_STATUS_LINK_LOSS p = true := by
    refine ⟨fun f i hf => ?_, raised' ▸ h.raised, ?_⟩
    · simp only [leftFields, List.mem_append, List.mem_cons, List.not_mem_nil, or_false, not_or] at hf
      obtain ⟨kept, used, snap, loss, mask⟩ := hf
      rw [h.rd f i kept, rd, if_neg (fun h => mask h.1), if_neg (fun h => loss h.1)]
      exact lanes f i (by simp [used, snap])
    · rw [Dev.on, h.rd _ _ (by decide), rd]
      simp
  split
  · exact aside _ v.haltSpans_aside
  · split
    · exact aside _ v.twinLeft_aside
    · exact aside _ (Dev.Aside.refl v)

/-- What port `p` leaves of the block as it goes to state `st`. -/
structure Dev.PortMoved (p st : Nat) (d e : Dev) : Prop where
  state : e.lstate p = st
  rd : d.keepsFields e (.RN_PORT_STATUS_LSTATE :: leftFields)
  others : ∀ q, q ≠ p → e.lstate q = d.lstate q
  raised : d.raised <+: e.raised
  loss : d.lstate p = Lst.UP → e.on .RN_PORT_STATUS_LINK_LOSS p = true
  down : d.lstate p ≠ Lst.UP → e = d.wr .RN_PORT_STATUS_LSTATE p st

theorem Dev.portTo_moved (d : Dev) (p : Nat) {st : Nat} (hst : st < 8) : Dev.PortMoved p st d (d.portTo p st) := by
  unfold Dev.portTo
  have rd (f : Fld) (i : Nat) : (d.wr .RN_PORT_STATUS_LSTATE p st).rd f i = if f = .RN_PORT_STATUS_LSTATE ∧ i = p then st else d.rd f i := by
    rw [Dev.wr_rd]
    change (if _ then st % 8 else _) = _
    rw [Nat.mod_eq_of_lt hst]
  have raised : (d.wr .RN_PORT_STATUS_LSTATE p st).raised = d.raised := rfl
  dsimp only
  split
  next up =>
    generalize d.wr .RN_PORT_STATUS_LSTATE p st = u at rd raised
    obtain ⟨keeps, raised', loss⟩ := u.leftUp_spec p
    refine ⟨(keeps _ _ (by decide)).trans ((rd _ _).trans (if_pos ⟨rfl, rfl⟩)), fun f i hf => ?_, fun q hq => (keeps _ _ (by decide)).trans ((rd _ _).trans (if_neg fun h => hq h.2)),
      raised ▸ raised', fun _ => loss, fun h => absurd up h⟩
    simp only [List.mem_cons, not_or] at hf
    rw [keeps f i hf.2, rd, if_neg fun h => hf.1 h.1]
  next down =>
    exact ⟨(rd _ _).trans (if_pos ⟨rfl, rfl⟩), fun f i hf => (rd f i).trans (if_neg fun h => hf (List.mem_cons.mpr (.inl h.1))),
      fun q hq => (rd _ _).trans (if_neg fun h => hq h.2), List.prefix_rfl, fun h => absurd h down, fun _ => rfl⟩

end Sys2Proof.Machine
end

section
/-!
SUPPORT. Rein ports that train and detect (R374 to R376).
-/
namespace Sys2Proof.Machine

/-- Port `p` has gone from `d` to state `st` at rate `rate`, its own record by `f`. -/
structure Dev.PortAt (p st rate : Nat) (f : RnPort → RnPort) (d e : Dev) : Prop where
  state : e.lstate p = st
  rate : e.rd .RN_PORT_STATUS_RATE_NOW p = rate
  rd : d.keepsFields e (.RN_PORT_STATUS_RATE_NOW :: .RN_PORT_STATUS_LSTATE :: leftFields)
  others : ∀ q, q ≠ p → e.lstate q = d.lstate q
  raised : d.raised <+: e.raised
  loss : d.lstate p = Lst.UP → e.on .RN_PORT_STATUS_LINK_LOSS p = true
  own : d.lstate p ≠ Lst.UP → e.port p = f (d.port p)
  ports : d.lstate p ≠ Lst.UP → ∀ q, q ≠ p → e.port q = d.port q
  tracker : d.lstate p ≠ Lst.UP → e.tracker = d.tracker

theorem Dev.portTo_portAt (d : Dev) (p : Nat) {st : Nat} (hst : st < 8) (rate : Nat) (f : RnPort → RnPort) :
    Dev.PortAt p st (rate % 4) f d (((d.portTo p st).wr .RN_PORT_STATUS_RATE_NOW p rate).upPort p f) := by
  obtain ⟨state, rd, others, raised, loss, down⟩ := d.portTo_moved p hst
  generalize d.portTo p st = u at state rd others raised loss down
  have rd' (g : Fld) (i : Nat) : ((u.wr .RN_PORT_STATUS_RATE_NOW p rate).upPort p f).rd g i = if g = .RN_PORT_STATUS_RATE_NOW ∧ i = p then rate % 4 else u.rd g i := by
    change (u.wr .RN_PORT_STATUS_RATE_NOW p rate).rd g i = _
    rw [Dev.wr_rd]
    rfl
  have port (q : Nat) : ((u.wr .RN_PORT_STATUS_RATE_NOW p rate).upPort p f).port q = if q = p then f (u.port p) else u.port q := Dev.upPort_port ..
  have lists : ((u.wr .RN_PORT_STATUS_RATE_NOW p rate).upPort p f).raised = u.raised ∧ ((u.wr .RN_PORT_STATUS_RATE_NOW p rate).upPort p f).tracker = u.tracker := ⟨rfl, rfl⟩
  generalize (u.wr .RN_PORT_STATUS_RATE_NOW p rate).upPort p f = e at rd' port lists
  have ports (h : d.lstate p ≠ Lst.UP) (q : Nat) : u.port q = d.port q := by rw [down h]; rfl
  refine ⟨?_, (rd' _ _).trans (if_pos ⟨rfl, rfl⟩), fun g i hg => ?_, fun q hq => ?_, lists.1 ▸ raised, fun h => ?_, fun h => ?_, fun h q hq => ?_, fun h => ?_⟩
  · exact (rd' _ _).trans ((if_neg (by simp)).trans state)
  · simp only [List.mem_cons, not_or] at hg
    rw [rd', if_neg fun h => hg.1 h.1]
    exact rd g i (by simpa using hg.2)
  · exact (rd' _ _).trans ((if_neg (by simp)).trans (others q hq))
  · rw [Dev.on, rd', if_neg (by simp)]
    exact loss h
  · rw [port, if_pos rfl, ports h]
  · rw [port, if_neg hq, ports h]
  · rw [lists.2, down h]
    rfl

/-- The record of a port that trains from now on. -/
def RnPort.training (now : Nat) (P : RnPort) : RnPort := { P with step := some now }
/-- The record of a port that detects from `t` on. -/
def RnPort.detecting (t : Nat) (P : RnPort) : RnPort := { P with step := none, good := none, detectAt := t }

theorem Dev.trainAt_spec (d : Dev) (p rate : Nat) : Dev.PortAt p Lst.TRAIN (rate % 4) (RnPort.training d.now) d (d.trainAt p rate) :=
  d.portTo_portAt p (by decide) rate _

theorem Dev.toDetect_spec (d : Dev) (p t : Nat) : Dev.PortAt p Lst.DETECT 0 (RnPort.detecting t) d (d.toDetect p t) :=
  d.portTo_portAt p (by decide) 0 _

/-- A port in UP that retrains: the loss is an alarm. -/
theorem Dev.retrainAt_spec {d : Dev} {p : Nat} (up : d.lstate p = Lst.UP) (rate : Nat) : ∃ f,
    Dev.PortAt p Lst.TRAIN (rate % 4) f (d.raise 0x303 p) (d.retrainAt p rate) ∧ ⟨0x303, p, 0, d.cycle⟩ ∈ (d.retrainAt p rate).raised := by
  unfold Dev.retrainAt
  rw [if_neg (not_not.mpr up)]
  have spec := (d.raise 0x303 p).trainAt_spec p rate
  exact ⟨_, spec, spec.raised.subset (List.mem_append_right _ (List.mem_singleton.mpr rfl))⟩

end Sys2Proof.Machine
end

section
/-!
PROOF. The control register of a Rein port (R374, R376).
-/
namespace Sys2Proof.Machine

/-- The register RN_PORT_CTRL of port `p`. -/
def portReg (p : Nat) : RegAt := regAt .rnport .RN_PORT_CTRL p 0

theorem portReg_parts (p : Nat) : (portReg p).parts = [(.RN_PORT_CTRL_EN, p, 31), (.RN_PORT_CTRL_UPSTREAM, p, 30), (.RN_PORT_CTRL_FWD, p, 29),
    (.RN_PORT_CTRL_FOM_MIN, p, 16), (.RN_PORT_CTRL_ROLE, p, 8), (.RN_PORT_CTRL_WIDTH_MAX, p, 4), (.RN_PORT_CTRL_RATE_MAX, p, 0)] := by
  have inst : (portReg p).inst = p := by
    have bi : (portReg p).inst = p * 1 + 0 := rfl
    omega
  have fields : (portReg p).card.fields = [.RN_PORT_CTRL_EN, .RN_PORT_CTRL_UPSTREAM, .RN_PORT_CTRL_FWD, .RN_PORT_CTRL_FOM_MIN, .RN_PORT_CTRL_ROLE,
    .RN_PORT_CTRL_WIDTH_MAX, .RN_PORT_CTRL_RATE_MAX] := rfl
  have one : ∀ f ∈ (portReg p).card.fields, f.spec.rep = 1 := by rw [fields]; decide
  have place : (portReg p).parts = (portReg p).card.fields.map (fun f => (f, p, f.spec.lo)) := by
    unfold RegAt.parts
    rw [inst, List.map_eq_flatMap]
    refine List.flatMap_congr (fun f hf => ?_)
    rw [one f hf]
    simp
  rw [place, fields]
  rfl

theorem portReg_keys_nodup (p : Nat) : ((portReg p).parts.map (fun y => (y.1, y.2.1))).Nodup := by
  rw [portReg_parts]
  simp

/-- What a write of RN_PORT_CTRL may change besides: the record of a refusal. -/
def portCtrlFields : List Fld :=
  [.RN_PORT_CTRL_EN, .RN_PORT_CTRL_UPSTREAM, .RN_PORT_CTRL_FWD, .RN_PORT_CTRL_FOM_MIN, .RN_PORT_CTRL_ROLE, .RN_PORT_CTRL_WIDTH_MAX, .RN_PORT_CTRL_RATE_MAX,
    .DEV_REFUSED_VALID, .DEV_REFUSED_MORE, .DEV_REFUSED_KIND, .DEV_REFUSED_ADDR]

/-- A write of RN_PORT_CTRL: EN and RATE_MAX take their bits, ROLE does while the port is OFF (R20). -/
structure Dev.PortWritten (p v : Nat) (run : Bool) (d w : Dev) : Prop where
  enabled : w.rd .RN_PORT_CTRL_EN p = bits v 31 1
  rateMax : w.rd .RN_PORT_CTRL_RATE_MAX p = bits v 0 2
  role : run = false → w.rd .RN_PORT_CTRL_ROLE p = bits v 8 2
  rd : d.keepsFields w portCtrlFields
  records : w.records = d.records

theorem bits_word (v i n : Nat) (h : i + n ≤ 32) : bits (v % 2 ^ 32 % 2 ^ 64) i n = bits v i n := by
  rw [bits_mod (by omega), bits_mod h]

theorem Dev.portWrite_spec (d : Dev) (p v : Nat) (run : Bool) : Dev.PortWritten p v run d (d.writeReg (portReg p) .whole (v % 2 ^ 32) run) := by
  have hreg : ((portReg p).card.reg == Reg.BR_CTRL) = false := rfl
  have rd (f : Fld) (lo : Nat) (hx : (f, p, lo) ∈ (portReg p).parts) (hn : f ∉ notedFields) :=
    Dev.writeReg_rd d (portReg p) .whole (v % 2 ^ 32) run (portReg_keys_nodup p) (f, p, lo) hx hn
  rw [portReg_parts] at rd
  simp only [hreg, Bool.or_false] at rd
  refine ⟨(rd .RN_PORT_CTRL_EN 31 (by simp) (by decide)).trans (bits_word v 31 1 (by decide)),
    (rd .RN_PORT_CTRL_RATE_MAX 0 (by simp) (by decide)).trans (bits_word v 0 2 (by decide)), fun idle => ?_, fun f i hf => ?_, Dev.writeReg_records ..⟩
  · rw [rd .RN_PORT_CTRL_ROLE 8 (by simp) (by decide), idle]
    exact bits_word v 8 2 (by decide)
  · simp only [portCtrlFields, List.mem_cons, List.not_mem_nil, or_false, not_or] at hf
    refine Dev.writeReg_other d (portReg p) .whole (v % 2 ^ 32) run (portReg_keys_nodup p) f i (fun m => ?_) (.inr ?_)
    · rw [portReg_parts] at m
      simp [hf] at m
    · simp [hf]

theorem Dev.reinOn_congr {d e : Dev} {L : List Fld} (rd : d.keepsFields e L)
    (hL : ∀ f ∈ [Fld.DEV_UNITS_FINAL, .DEV_UNITS_MODE, .KL_STATUS_PSTATE, .DEV_UNITS_REIN_OK], f ∉ L) (kl : e.kl.shut = d.kl.shut) (p : Nat) :
    e.reinOn p = d.reinOn p := by
  simp only [Dev.reinOn, Dev.serves, Dev.on, kl, rd _ _ (hL .DEV_UNITS_FINAL (by decide)), rd _ _ (hL .DEV_UNITS_MODE (by decide)),
    rd _ _ (hL .KL_STATUS_PSTATE (by decide)), rd _ _ (hL .DEV_UNITS_REIN_OK (by decide))]

/-- A write of RN_PORT_CTRL that leaves the port enabled: the port leaves OFF where it may, and a new RATE_MAX takes effect. -/
theorem Dev.portCtrl_enabled {d w : Dev} {p v : Nat} (hw : w = d.writeReg (portReg p) .whole v (d.lstate p != 0)) (on_ : w.on .RN_PORT_CTRL_EN p = true) :
    d.portCtrl p v = if (w.portUp p).rd .RN_PORT_CTRL_RATE_MAX p = d.rd .RN_PORT_CTRL_RATE_MAX p then w.portUp p else (w.portUp p).rateWritten p := by
  unfold Dev.portCtrl
  rw [show regAt .rnport .RN_PORT_CTRL p 0 = portReg p from rfl, ← hw]
  dsimp only
  rw [on_, Bool.not_true, Bool.and_false]
  rfl

/-- What the enable of port `p` by a write of `v` leaves of the block `d`. -/
def Dev.PortEnabled (p v : Nat) (d e : Dev) : Prop :=
  e.on .RN_PORT_CTRL_EN p = true ∧ e.rd .RN_PORT_CTRL_ROLE p = bits v 8 2 ∧ e.rd .RN_PORT_CTRL_RATE_MAX p = bits v 0 2 ∧ e.lstate p = Lst.DETECT ∧
    e.rd .RN_PORT_STATUS_RATE_NOW p = 0 ∧ (e.port p).detectAt = d.now ∧ (e.port p).failed = 0 ∧
    (∀ q, q ≠ p → e.lstate q = d.lstate q ∧ e.port q = d.port q)

theorem portEnable_acts (s : State) (p : Nat) (v : Word) (hp : p < 4) (ready : s.dev.hostReady = true) (off : s.dev.lstate p = Lst.OFF)
    (enable : bitAt v.toNat 31 = true) (role : bits v.toNat 8 2 < 2) (rein : s.dev.reinOn p = true) :
    Acts (.portEnable p v) s (Dev.PortEnabled p v.toNat s.dev) := by
  refine acts_hosted rfl (decide_eq_true hp) ready ?_
  have read (f : Fld) (i : Nat) : s.dev.reached.rd f i = s.dev.rd f i := s.dev.reached_frame.1 f i
  have units : s.dev.reached.ports = s.dev.ports ∧ s.dev.reached.now = s.dev.now ∧ s.dev.reached.kl.shut = s.dev.kl.shut := ⟨rfl, rfl, rfl⟩
  generalize s.dev.reached = r at read units
  obtain ⟨ports, now, shut⟩ := units
  have idle : (r.lstate p != 0) = false := by rw [Dev.lstate, read, show s.dev.rd .RN_PORT_STATUS_LSTATE p = 0 from off]; rfl
  have written := r.portWrite_spec p v.toNat (r.lstate p != 0)
  generalize hw : r.writeReg (portReg p) .whole (v.toNat % 2 ^ 32) (r.lstate p != 0) = w at written
  obtain ⟨enabled, rateMax, role', rd, records⟩ := written
  have on_ : w.on .RN_PORT_CTRL_EN p = true := by rw [Dev.on, enabled, bits_one, enable]; rfl
  have wstate (q : Nat) : w.lstate q = s.dev.lstate q := (rd _ _ (by decide)).trans (read _ _)
  have wrole := role' idle
  have wports : w.ports = s.dev.ports := (congrArg Dev.ports records :).trans ports
  have wport (q : Nat) : w.port q = s.dev.port q := by rw [Dev.port, wports, Dev.port]
  have wnow : w.now = s.dev.now := (congrArg Dev.now records :).trans now
  have wkl : w.kl = r.kl := (congrArg Dev.kl records :)
  have wrein : w.reinOn p = true := by
    rw [Dev.reinOn_congr rd (by decide) (by rw [wkl]) p, Dev.reinOn_congr (L := []) (fun f i _ => read f i) (by decide) shut p, rein]
  rw [Dev.portCtrl_enabled hw.symm on_]
  have detects := w.toDetect_spec p w.now
  have up : w.portUp p = (w.toDetect p w.now).upPort p (fun P => { P with failed := 0 }) := by
    unfold Dev.portUp
    rw [if_pos ⟨(wstate p).trans off, on_, wrein, wrole ▸ role⟩]
  rw [up]
  have down : w.lstate p ≠ Lst.UP := by rw [wstate, off]; decide
  generalize w.toDetect p w.now = u at detects
  have port (q : Nat) : (u.upPort p fun P => { P with failed := 0 }).port q = if q = p then { u.port p with failed := 0 } else u.port q := Dev.upPort_port ..
  have regs : (u.upPort p fun P => { P with failed := 0 }).regs = u.regs := rfl
  generalize u.upPort p _ = x at port regs
  have state (q : Nat) (hq : q ≠ p) : x.lstate q = s.dev.lstate q := (Dev.rd_congr regs _ _).trans ((detects.others q hq).trans (wstate q))
  have detect : x.lstate p = Lst.DETECT := (Dev.rd_congr regs _ _).trans detects.state
  have all (e : Dev) (h : x.keepsFields e [.RN_PORT_STATUS_DEFER_US]) (hports : e.ports = x.ports) :
      Dev.PortEnabled p v.toNat s.dev e := by
    have eport (q : Nat) : e.port q = x.port q := by rw [Dev.port, hports, Dev.port]
    refine ⟨?_, ?_, ?_, (h _ _ (by decide)).trans detect, ?_, ?_, ?_, fun q hq => ⟨(h _ _ (by decide)).trans (state q hq), ?_⟩⟩
    · rw [Dev.on, h _ _ (by decide), Dev.rd_congr regs, detects.rd _ _ (by decide)]
      exact on_
    · rw [h _ _ (by decide), Dev.rd_congr regs, detects.rd _ _ (by decide), wrole]
    · rw [h _ _ (by decide), Dev.rd_congr regs, detects.rd _ _ (by decide), rateMax]
    · rw [h _ _ (by decide), Dev.rd_congr regs, detects.rate]
    · rw [eport, port, if_pos rfl, detects.own down, ← wnow]
      rfl
    · rw [eport, port, if_pos rfl]
    · rw [eport, port, if_neg hq, detects.ports down q hq, wport]
  split
  · exact all x (fun _ _ _ => rfl) rfl
  · unfold Dev.rateWritten
    rw [detect, if_neg (by decide), if_neg (by rintro ⟨h, -⟩; exact absurd h (by decide))]
    exact all _ (fun f i hf => Dev.wr_rd_ne _ _ _ _ _ _ (by simpa using hf)) rfl

theorem Dev.rateWritten_rateMax (d : Dev) (p : Nat) : (d.rateWritten p).rd .RN_PORT_CTRL_RATE_MAX p = d.rd .RN_PORT_CTRL_RATE_MAX p := by
  unfold Dev.rateWritten
  have cleared : (d.wr .RN_PORT_STATUS_DEFER_US p 0).rd .RN_PORT_CTRL_RATE_MAX p = d.rd .RN_PORT_CTRL_RATE_MAX p := Dev.wr_rd_ne _ _ _ _ _ _ (by decide)
  split
  next up =>
    have still : (d.wr .RN_PORT_STATUS_DEFER_US p 0).lstate p = Lst.UP := (Dev.wr_rd_ne _ _ _ _ _ _ (by decide)).trans up
    obtain ⟨f, spec, -⟩ := Dev.retrainAt_spec still (d.rateTop p)
    exact (spec.rd _ _ (by decide)).trans cleared
  · split
    · exact Dev.wr_rd_ne d .RN_PORT_STATUS_RATE_PENDING _ p p 1 (by decide)
    · exact cleared

/-- A port that is not OFF stays as it is where it could leave OFF. -/
theorem Dev.portUp_same {d : Dev} {p : Nat} (h : d.lstate p ≠ Lst.OFF) : d.portUp p = d := by
  unfold Dev.portUp
  exact if_neg fun k => h k.1

theorem rateMaxWrite_acts (s : State) (p : Nat) (v : Word) (hp : p < 4) (ready : s.dev.hostReady = true)
    (enable : bitAt v.toNat 31 = true) (change : bits v.toNat 0 2 ≠ s.dev.rd .RN_PORT_CTRL_RATE_MAX p) :
    let top := min (bits v.toNat 0 2) (s.dev.rd .RN_PORT_PEER_PEER_RATE p)
    Acts (.rateMaxWrite p v) s (fun e => e.rd .RN_PORT_CTRL_RATE_MAX p = bits v.toNat 0 2 ∧
      (s.dev.lstate p = Lst.UP → e.lstate p = Lst.TRAIN ∧ e.rd .RN_PORT_STATUS_RATE_NOW p = top ∧ ⟨0x303, p, 0, s.dev.cycle⟩ ∈ e.raised) ∧
      (s.dev.lstate p = Lst.TRAIN → (s.dev.port p).step.isSome = true → e.lstate p = Lst.TRAIN ∧ e.on .RN_PORT_STATUS_RATE_PENDING p = true ∧
        (e.port p).pendAt = some s.dev.now ∧ e.rd .RN_PORT_STATUS_RATE_NOW p = s.dev.rd .RN_PORT_STATUS_RATE_NOW p)) := by
  intro top
  refine acts_hosted rfl (decide_eq_true hp) ready ?_
  have read (f : Fld) (i : Nat) : s.dev.reached.rd f i = s.dev.rd f i := s.dev.reached_frame.1 f i
  have units : s.dev.reached.ports = s.dev.ports ∧ s.dev.reached.now = s.dev.now := ⟨rfl, rfl⟩
  generalize s.dev.reached = r at read units
  obtain ⟨ports, now⟩ := units
  have written := r.portWrite_spec p v.toNat (r.lstate p != 0)
  generalize hw : r.writeReg (portReg p) .whole (v.toNat % 2 ^ 32) (r.lstate p != 0) = w at written
  obtain ⟨enabled, rateMax, -, rd, records⟩ := written
  have on_ : w.on .RN_PORT_CTRL_EN p = true := by rw [Dev.on, enabled, bits_one, enable]; rfl
  have wrd (f : Fld) (hf : f ∉ portCtrlFields) (i : Nat) : w.rd f i = s.dev.rd f i := (rd f i hf).trans (read f i)
  have wports : w.ports = s.dev.ports := (congrArg Dev.ports records :).trans ports
  have wport (q : Nat) : w.port q = s.dev.port q := by rw [Dev.port, wports, Dev.port]
  have wnow : w.now = s.dev.now := (congrArg Dev.now records :).trans now
  have wcycle : w.cycle = s.dev.cycle := by rw [Dev.cycle, wnow, Dev.cycle]
  have wstate (q : Nat) : w.lstate q = s.dev.lstate q := wrd _ (by decide) q
  rw [Dev.portCtrl_enabled hw.symm on_]
  have kept : (w.portUp p).rd .RN_PORT_CTRL_RATE_MAX p = bits v.toNat 0 2 := by
    unfold Dev.portUp
    split
    · exact ((w.toDetect_spec p w.now).rd _ _ (by decide)).trans rateMax
    · exact rateMax
  rw [kept, read, if_neg change]
  refine ⟨(Dev.rateWritten_rateMax ..).trans kept, fun up => ?_, fun train step => ?_⟩
  · rw [Dev.portUp_same (by rw [wstate, up]; decide)]
    unfold Dev.rateWritten
    rw [if_pos ((wstate p).trans up)]
    have cleared : (w.wr .RN_PORT_STATUS_DEFER_US p 0).lstate p = Lst.UP := (Dev.wr_rd_ne _ _ _ _ _ _ (by decide)).trans ((wstate p).trans up)
    have ccycle : (w.wr .RN_PORT_STATUS_DEFER_US p 0).cycle = s.dev.cycle := wcycle
    have rate : w.rateTop p = top := by rw [Dev.rateTop, rateMax, wrd _ (by decide)]
    have small : top % 4 = top := Nat.mod_eq_of_lt (Nat.lt_of_le_of_lt (Nat.min_le_left ..) (Nat.mod_lt _ (by decide)))
    generalize w.wr .RN_PORT_STATUS_DEFER_US p 0 = c at cleared ccycle
    obtain ⟨f, spec, loss⟩ := Dev.retrainAt_spec cleared (w.rateTop p)
    exact ⟨spec.state, by rw [spec.rate, rate, small], ccycle ▸ loss⟩
  · rw [Dev.portUp_same (by rw [wstate, train]; decide)]
    unfold Dev.rateWritten
    rw [if_neg (by rw [wstate, train]; decide), if_pos ⟨(wstate p).trans train, by rw [wport]; exact step⟩]
    have set_ (f : Fld) (i : Nat) : ((w.set1 .RN_PORT_STATUS_RATE_PENDING p).upPort p (fun P => { P with pendAt := some w.now })).rd f i =
        if f = .RN_PORT_STATUS_RATE_PENDING ∧ i = p then 1 else w.rd f i := Dev.set1_rd w .RN_PORT_STATUS_RATE_PENDING f p i
    have pend : (((w.set1 .RN_PORT_STATUS_RATE_PENDING p).upPort p (fun P => { P with pendAt := some w.now })).port p).pendAt = some w.now := by
      rw [Dev.upPort_port, if_pos rfl]
    generalize Dev.upPort _ p _ = e at set_ pend
    refine ⟨?_, ?_, pend.trans (by rw [wnow]), ?_⟩
    · rw [Dev.lstate, set_, if_neg (by simp)]
      exact (wstate p).trans train
    · rw [Dev.on, set_, if_pos ⟨rfl, rfl⟩]
      rfl
    · rw [set_, if_neg (by simp), wrd _ (by decide)]

end Sys2Proof.Machine
end

section
/-!
PROOF. Training of Rein ports: a TRAIN block, the end of a step, the loss of block lock (R374, R376, R377).
-/
namespace Sys2Proof.Machine

theorem train_acts (s : State) (p rate : Nat) (hp : p < 4) :
    Acts (.train p rate) s (fun e => (s.dev.lstate p = Lst.OFF → e = s.dev) ∧
      (s.dev.lstate p = Lst.DETECT → (s.dev.port p).detectAt ≤ s.dev.now → e.lstate p = Lst.TRAIN ∧ e.rd .RN_PORT_STATUS_RATE_NOW p = 0 ∧
        e.rd .RN_PORT_PEER_PEER_RATE p = rate % 4 ∧ (e.port p).step = some s.dev.now) ∧
      (s.dev.lstate p = Lst.UP → e.lstate p = Lst.TRAIN ∧ e.on .RN_PORT_STATUS_LINK_LOSS p = true ∧ ⟨0x303, p, 0, s.dev.cycle⟩ ∈ e.raised)) := by
  refine acts_onDev rfl (decide_eq_true hp) ?_
  unfold Dev.trainBlock
  dsimp only
  have peer (f : Fld) (i : Nat) : (s.dev.wr .RN_PORT_PEER_PEER_RATE p rate).rd f i = if f = .RN_PORT_PEER_PEER_RATE ∧ i = p then rate % 4 else s.dev.rd f i := by
    rw [Dev.wr_rd]
    rfl
  have units : (s.dev.wr .RN_PORT_PEER_PEER_RATE p rate).ports = s.dev.ports ∧ (s.dev.wr .RN_PORT_PEER_PEER_RATE p rate).now = s.dev.now := ⟨rfl, rfl⟩
  generalize s.dev.wr .RN_PORT_PEER_PEER_RATE p rate = u at peer units
  obtain ⟨ports, now⟩ := units
  have state : u.lstate p = s.dev.lstate p := (peer _ _).trans (if_neg (by simp))
  refine ⟨fun off => if_pos off, fun detect due => ?_, fun up => ?_⟩
  · rw [if_neg (by rw [detect]; decide), if_pos detect, if_neg (Nat.not_lt.mpr due)]
    have spec := u.trainAt_spec p 0
    refine ⟨spec.state, spec.rate, ?_, ?_⟩
    · rw [spec.rd _ _ (by decide), peer, if_pos ⟨rfl, rfl⟩]
    · rw [spec.own (by rw [state, detect]; decide), ← now]
      rfl
  · rw [if_neg (by rw [up]; decide), if_neg (by rw [up]; decide)]
    obtain ⟨f, spec, loss⟩ := Dev.retrainAt_spec (state.trans up) (u.rd .RN_PORT_STATUS_RATE_NOW p)
    have cycle : u.cycle = s.dev.cycle := by rw [Dev.cycle, now, Dev.cycle]
    exact ⟨spec.state, spec.loss (state.trans up), cycle ▸ loss⟩

/-! ### The end of a step -/

/-- A rate that was written while the port trained is taken. -/
structure Dev.RateTaken (p : Nat) (d e : Dev) : Prop where
  state : e.lstate p = Lst.TRAIN
  rate : e.rd .RN_PORT_STATUS_RATE_NOW p = d.rateTop p % 4
  pending : e.on .RN_PORT_STATUS_RATE_PENDING p = false
  port : e.port p = { d.port p with pendAt := none, step := some d.now }
  tracker : e.tracker = (d.stepOver (2 + p) d.now).tracker

theorem Dev.takeRate_spec {d : Dev} {p : Nat} (train : d.lstate p = Lst.TRAIN) (t : Nat) : Dev.RateTaken p d (d.takeRate p t) := by
  unfold Dev.takeRate
  generalize hu : Dev.upPort _ p (fun P => { P with pendAt := none }) = u
  have rd (f : Fld) (hf : f ≠ .RN_PORT_STATUS_DEFER_US) (i : Nat) : u.rd f i = if f = .RN_PORT_STATUS_RATE_PENDING ∧ i = p then 0 else d.rd f i := by
    rw [← hu]
    change ((d.wr .RN_PORT_STATUS_RATE_PENDING p 0).wr .RN_PORT_STATUS_DEFER_US p _).rd f i = _
    rw [Dev.wr_rd_ne _ _ _ _ _ _ hf, Dev.wr_rd]
    rfl
  have port : u.port p = { d.port p with pendAt := none } := by
    rw [← hu, Dev.upPort_port, if_pos rfl]
    rfl
  have tracker : u.tracker = (d.stepOver (2 + p) d.now).tracker := by
    rw [← hu]
    rfl
  have now : u.now = d.now := by
    rw [← hu]
    rfl
  have down : u.lstate p ≠ Lst.UP := by
    rw [Dev.lstate, rd _ (by decide), if_neg (by simp), show d.rd .RN_PORT_STATUS_LSTATE p = Lst.TRAIN from train]
    decide
  have spec := u.trainAt_spec p (d.rateTop p)
  refine ⟨spec.state, spec.rate, ?_, ?_, (spec.tracker down).trans tracker⟩
  · rw [Dev.on, spec.rd _ _ (by decide), rd _ (by decide), if_pos ⟨rfl, rfl⟩]
    rfl
  · rw [spec.own down, port, ← now]
    rfl

theorem trainingStepEnd_acts (s : State) (p : Nat) (hp : p < 4) (train : s.dev.lstate p = Lst.TRAIN) :
    Acts (.trainingStepEnd p) s (fun e => e.lstate p = Lst.TRAIN ∧ (e.port p).step = some s.dev.now ∧ (e.port p).pendAt = none ∧
      e.tracker = (if (s.dev.port p).pendAt.isSome then s.dev.stepOver (2 + p) s.dev.now else s.dev).tracker ∧
      ((s.dev.port p).pendAt.isSome = true → e.on .RN_PORT_STATUS_RATE_PENDING p = false ∧ e.rd .RN_PORT_STATUS_RATE_NOW p = s.dev.rateTop p % 4) ∧
      ((s.dev.port p).pendAt = none → s.dev.keepsBut e [])) := by
  refine acts_onDev rfl (decide_eq_true hp) ?_
  unfold Dev.stepEnd
  rw [if_neg (not_not.mpr train)]
  cases pend : (s.dev.port p).pendAt with
  | some t =>
    obtain ⟨state, rate, pending, port, tracker⟩ := Dev.takeRate_spec train t
    exact ⟨state, by rw [port], by rw [port], tracker, fun _ => ⟨pending, rate⟩, nofun⟩
  | none =>
    have port : (s.dev.upPort p fun P => { P with step := some s.dev.now }).port p = { s.dev.port p with step := some s.dev.now } := by
      rw [Dev.upPort_port, if_pos rfl]
    exact ⟨train, by rw [port], by rw [port, ← pend], rfl, nofun, fun _ _ _ _ => rfl⟩

/-! ### Block lock -/

theorem Dev.unlock_rd (ls : List Nat) (d : Dev) (f : Fld) (i : Nat) :
    (ls.foldl (fun d l => d.clr .RN_LANE_STATUS_LOCK l) d).rd f i = if f = .RN_LANE_STATUS_LOCK ∧ i ∈ ls then 0 else d.rd f i := by
  induction ls generalizing d with
  | nil => simp
  | cons l t ih =>
    rw [List.foldl_cons, ih, Dev.clr, Dev.wr_rd]
    by_cases hf : f = .RN_LANE_STATUS_LOCK <;> by_cases ht : i ∈ t <;> by_cases hl : i = l <;> simp [hf, ht, hl]

theorem Dev.unlock_raised (ls : List Nat) (d : Dev) : (ls.foldl (fun d l => d.clr .RN_LANE_STATUS_LOCK l) d).raised = d.raised :=
  foldl_keeps Dev.raised _ ls d fun _ _ _ => rfl

theorem mem_portLanes {p i : Nat} (hi : i < 4) : 4 * p + i ∈ portLanes p :=
  List.mem_map.mpr ⟨i, List.mem_range.mpr hi, Nat.add_comm ..⟩

/-- A rate that waits for the end of a step that does not come. -/
def Dev.rateDropped (u : Dev) (p now t : Nat) : Dev :=
  (((u.clr .RN_PORT_STATUS_RATE_PENDING p).stepOver (2 + p) now).wr .RN_PORT_STATUS_DEFER_US p (min ((now - t) / us 1) 65535)).upPort p
    (fun P => { P with pendAt := none })

theorem Dev.rateDropped_keeps (u : Dev) (p now t i : Nat) : (u.rateDropped p now t).rd .RN_LANE_STATUS_LOCK i = u.rd .RN_LANE_STATUS_LOCK i ∧
    (u.rateDropped p now t).raised = u.raised := by
  refine ⟨?_, rfl⟩
  change ((u.wr .RN_PORT_STATUS_RATE_PENDING p 0).wr .RN_PORT_STATUS_DEFER_US p _).rd .RN_LANE_STATUS_LOCK i = _
  rw [Dev.wr_rd_ne _ _ _ _ _ _ (by decide), Dev.wr_rd_ne _ _ _ _ _ _ (by decide)]

/-- The lanes of port `p` have lost block lock. -/
def Dev.unlocked (d : Dev) (p : Nat) : Dev := (portLanes p).foldl (fun d l => d.clr .RN_LANE_STATUS_LOCK l) (d.raise 0x303 p)

theorem Dev.unlocked_spec (d : Dev) (p : Nat) : (∀ i, i < 4 → (d.unlocked p).rd .RN_LANE_STATUS_LOCK (4 * p + i) = 0) ∧
    ⟨0x303, p, 0, d.cycle⟩ ∈ (d.unlocked p).raised := by
  unfold Dev.unlocked
  rw [Dev.unlock_raised, Dev.raise_raised]
  exact ⟨fun i hi => by rw [Dev.unlock_rd, if_pos ⟨rfl, mem_portLanes hi⟩], List.mem_append_right _ (List.mem_singleton.mpr rfl)⟩

theorem Dev.lockLost_eq {d : Dev} {p : Nat} (late : 2 ≤ d.lstate p) : ∃ x : Dev, d.lockLost p = x.toDetect p d.now ∧
    (∀ i, x.rd .RN_LANE_STATUS_LOCK i = (d.unlocked p).rd .RN_LANE_STATUS_LOCK i) ∧ x.raised = (d.unlocked p).raised := by
  unfold Dev.lockLost
  rw [if_neg (Nat.not_lt.mpr late)]
  cases (d.port p).pendAt with
  | some t => exact ⟨(d.unlocked p).rateDropped p d.now t, rfl, fun i => ((d.unlocked p).rateDropped_keeps p d.now t i).1, ((d.unlocked p).rateDropped_keeps p d.now t 0).2⟩
  | none => exact ⟨d.unlocked p, rfl, fun _ => rfl, rfl⟩

theorem blockLockLoss_acts (s : State) (p : Nat) (hp : p < 4) :
    Acts (.blockLockLoss p) s (fun e => (s.dev.lstate p < 2 → e = s.dev) ∧
      (2 ≤ s.dev.lstate p → e.lstate p = Lst.DETECT ∧ e.rd .RN_PORT_STATUS_RATE_NOW p = 0 ∧ ⟨0x303, p, 0, s.dev.cycle⟩ ∈ e.raised ∧
        (∀ i, i < 4 → e.on .RN_LANE_STATUS_LOCK (4 * p + i) = false))) := by
  refine acts_onDev rfl (decide_eq_true hp) ⟨fun early => if_pos early, fun late => ?_⟩
  obtain ⟨x, lost, lock, raised⟩ := Dev.lockLost_eq late
  obtain ⟨unlocked, alarm⟩ := s.dev.unlocked_spec p
  rw [lost]
  have spec := x.toDetect_spec p s.dev.now
  refine ⟨spec.state, spec.rate, spec.raised.subset (raised ▸ alarm), fun i hi => ?_⟩
  rw [Dev.on, spec.rd _ _ (by decide), lock, unlocked i hi]
  rfl

end Sys2Proof.Machine
end

section
/-!
PROOF. The end of a training (R371, R373, R374, R375).
-/
namespace Sys2Proof.Machine

/-! ### Locks and figures of merit of the lanes -/

/-- The lanes of port `p` report their block lock and figure of merit. -/
def Dev.lanesTrained (p lanes : Nat) (fom : List Nat) (d : Dev) (i : Nat) : Dev :=
  (d.wr .RN_LANE_STATUS_LOCK (4 * p + i) (b2n (bitAt lanes i))).wr .RN_LANE_STATUS_FOM (4 * p + i) (min (fom.getD i 0) 4095)

theorem Dev.lanesTrained_rd (p lanes : Nat) (fom : List Nat) (d : Dev) (i : Nat) (f : Fld) (j : Nat) : (Dev.lanesTrained p lanes fom d i).rd f j =
    if f = .RN_LANE_STATUS_FOM ∧ j = 4 * p + i then min (fom.getD i 0) 4095
    else if f = .RN_LANE_STATUS_LOCK ∧ j = 4 * p + i then b2n (bitAt lanes i) else d.rd f j := by
  have fits : min (fom.getD i 0) 4095 % 2 ^ Fld.RN_LANE_STATUS_FOM.spec.width = min (fom.getD i 0) 4095 :=
    Nat.mod_eq_of_lt (Nat.lt_of_le_of_lt (Nat.min_le_right ..) (by decide))
  have bit : b2n (bitAt lanes i) % 2 ^ Fld.RN_LANE_STATUS_LOCK.spec.width = b2n (bitAt lanes i) := by cases bitAt lanes i <;> rfl
  rw [Dev.lanesTrained, Dev.wr_rd, Dev.wr_rd, fits, bit]

/-- What the lanes report at the end of a training, and nothing else. -/
structure Dev.LanesReport (p lanes : Nat) (fom : List Nat) (d e : Dev) : Prop where
  lane : ∀ i, i < 4 → e.on .RN_LANE_STATUS_LOCK (4 * p + i) = bitAt lanes i ∧ e.rd .RN_LANE_STATUS_FOM (4 * p + i) = min (fom.getD i 0) 4095
  rd : d.keepsFields e [.RN_LANE_STATUS_LOCK, .RN_LANE_STATUS_FOM, .RN_PORT_PEER_PEER_LANES]
  records : e.records = d.records
  raised : e.raised = d.raised

theorem Dev.lanesReport (d : Dev) (p lanes : Nat) (fom : List Nat) (peerLanes : Nat) :
    Dev.LanesReport p lanes fom d (((List.range 4).foldl (Dev.lanesTrained p lanes fom) d).wr .RN_PORT_PEER_PEER_LANES p peerLanes) := by
  have once := foldl_once (v := fun (d : Dev) i => (d.rd .RN_LANE_STATUS_LOCK (4 * p + i), d.rd .RN_LANE_STATUS_FOM (4 * p + i))) (g := Dev.lanesTrained p lanes fom)
    (G := fun i _ => (b2n (bitAt lanes i), min (fom.getD i 0) 4095))
    (fun d i => by simp [Dev.lanesTrained_rd]) (fun d i j hj => by simp [Dev.lanesTrained_rd, hj]) (List.range 4) List.nodup_range d
  have view : viewBut [.RN_LANE_STATUS_LOCK, .RN_LANE_STATUS_FOM] ((List.range 4).foldl (Dev.lanesTrained p lanes fom) d).regs = viewBut _ d.regs :=
    foldl_keeps (fun d : Dev => viewBut [.RN_LANE_STATUS_LOCK, .RN_LANE_STATUS_FOM] d.regs) _ _ d fun d i _ => view_of_keepsFields fun f j hf => by
      simp only [List.mem_cons, List.not_mem_nil, or_false, not_or] at hf
      rw [Dev.lanesTrained_rd, if_neg fun h => hf.2 h.1, if_neg fun h => hf.1 h.1]
  have rest : ((List.range 4).foldl (Dev.lanesTrained p lanes fom) d).records = d.records := foldl_keeps Dev.records _ _ d fun _ _ _ => rfl
  have raised : ((List.range 4).foldl (Dev.lanesTrained p lanes fom) d).raised = d.raised := foldl_keeps Dev.raised _ _ d fun _ _ _ => rfl
  generalize List.foldl (Dev.lanesTrained p lanes fom) d _ = u at once view rest raised
  have keeps := keepsFields_of_view view
  refine ⟨fun i hi => ?_, fun f i hf => ?_, rest, raised⟩
  · have own := (once i).trans (if_pos (List.mem_range.mpr hi))
    obtain ⟨lock, fom⟩ := Prod.mk.inj own
    rw [Dev.on, Dev.wr_rd_ne _ _ _ _ _ _ (by decide), Dev.wr_rd_ne _ _ _ _ _ _ (by decide), lock, fom]
    exact ⟨by cases bitAt lanes i <;> rfl, rfl⟩
  · simp only [List.mem_cons, List.not_mem_nil, or_false, not_or] at hf
    rw [Dev.wr_rd_ne _ _ _ _ _ _ hf.2.2, keeps f i (by simp [hf.1, hf.2.1])]

/-! ### The port goes up -/

theorem Dev.twinPump_keeps (k : Nat) (d : Dev) : (Dev.twinPump k d).regs = d.regs ∧ (Dev.twinPump k d).raised = d.raised := by
  induction k generalizing d with
  | zero => exact ⟨rfl, rfl⟩
  | succ k ih =>
    unfold Dev.twinPump
    dsimp only
    split
    · exact ⟨rfl, rfl⟩
    · split
      · exact ⟨rfl, rfl⟩
      · exact ⟨(ih _).1, (ih _).2⟩

/-- The status fields that a port's way to UP may write. -/
def upFields : List Fld :=
  [.RN_PORT_STATUS_LSTATE, .RN_PORT_STATUS_WIDTH_NOW, .RN_PORT_STATUS_LANES, .RN_PORT_STATUS_REPLAYS, .RN_LANE_STATUS_USED, .RN_LANE_STATUS_SNAP] ++ asideFields

/-- What a port leaves of the block as it goes UP with `w` lanes. -/
structure Dev.PortUp (p w : Nat) (d e : Dev) : Prop where
  state : e.lstate p = Lst.UP
  width : e.rd .RN_PORT_STATUS_WIDTH_NOW p = w / 2
  lanes : e.rd .RN_PORT_STATUS_LANES p = 2 ^ w - 1
  replay : (d.port p).txN ≠ [] → ⟨0x300, p, 0, d.cycle⟩ ∈ e.raised
  rd : d.keepsFields e upFields

/-- The port is UP and its unacknowledged NORMAL frames go again. -/
def Dev.portRises (d : Dev) (p w : Nat) : Dev :=
  (((d.wr .RN_PORT_STATUS_LSTATE p Lst.UP).wr .RN_PORT_STATUS_WIDTH_NOW p (w / 2)).wr .RN_PORT_STATUS_LANES p (2 ^ w - 1)).upPort p
    (fun P => { P with step := none, exAt := none, txN := P.txN.map (fun f => { f with at_ := d.now, sent := 1 }) })

/-- Those frames count as replays. -/
def Dev.portReplays (d u : Dev) (p : Nat) : Dev :=
  if (d.port p).txN.length = 0 then u
  else ((u.count .RN_PORT_STATUS_REPLAYS p (d.port p).txN.length).tally 0x51 p (d.port p).txN.length).raise 0x300 p

/-- Lane `i` of the port comes into use. -/
def Dev.laneUsed (p : Nat) (d : Dev) (i : Nat) : Dev :=
  ((d.set1 .RN_LANE_STATUS_USED (4 * p + i)).wr .RN_LANE_STATUS_SNAP (4 * p + i) 0).upRnLane (4 * p + i) (fun _ => {})

/-- A narrow port is an alarm; the twin's port sends on. -/
def Dev.portServes (d u : Dev) (p w peerW : Nat) : Dev :=
  let v := if w < widthOf (d.rd .RN_PORT_CTRL_WIDTH_MAX p) ∧ w < peerW then u.raise 0x302 p else u
  if d.twinPort = p ∧ d.rd .RN_PORT_CTRL_ROLE p = 1 then (v.twinPump 64).seekAgain else v

theorem Dev.portIsUp_eq (d : Dev) (p w peerW : Nat) :
    d.portIsUp p w peerW = d.portServes ((List.range w).foldl (Dev.laneUsed p) (d.portReplays (d.portRises p w) p)) p w peerW := rfl

theorem Dev.portRises_rd (d : Dev) {p w : Nat} (hw : w ≤ 4) (f : Fld) (i : Nat) : (d.portRises p w).rd f i =
    if f = .RN_PORT_STATUS_LANES ∧ i = p then 2 ^ w - 1 else if f = .RN_PORT_STATUS_WIDTH_NOW ∧ i = p then w / 2
    else if f = .RN_PORT_STATUS_LSTATE ∧ i = p then Lst.UP else d.rd f i := by
  have mask : (2 ^ w - 1) % 2 ^ Fld.RN_PORT_STATUS_LANES.spec.width = 2 ^ w - 1 := by
    change (2 ^ w - 1) % 16 = _
    exact Nat.mod_eq_of_lt (Nat.lt_of_lt_of_le (Nat.sub_lt (Nat.two_pow_pos w) (by decide)) (Nat.pow_le_pow_right (by decide) hw))
  have half : w / 2 % 2 ^ Fld.RN_PORT_STATUS_WIDTH_NOW.spec.width = w / 2 := by
    change w / 2 % 4 = _
    omega
  change (((d.wr .RN_PORT_STATUS_LSTATE p Lst.UP).wr .RN_PORT_STATUS_WIDTH_NOW p (w / 2)).wr .RN_PORT_STATUS_LANES p (2 ^ w - 1)).rd f i = _
  rw [Dev.wr_rd, Dev.wr_rd, Dev.wr_rd, mask, half]
  rfl

theorem Dev.portReplays_spec (d u : Dev) (p : Nat) : u.keepsFields (d.portReplays u p) [.RN_PORT_STATUS_REPLAYS] ∧
    ((d.port p).txN ≠ [] → ⟨0x300, p, 0, u.cycle⟩ ∈ (d.portReplays u p).raised) := by
  unfold Dev.portReplays
  split
  next none_ => exact ⟨fun _ _ _ => rfl, fun h => absurd (List.length_eq_zero_iff.mp none_) h⟩
  next some_ =>
    rw [Dev.tally, if_neg some_]
    exact ⟨fun f i hf => Dev.wr_rd_ne u _ f p i _ (by simpa using hf), fun _ => List.mem_append_right _ (List.mem_singleton.mpr rfl)⟩

theorem Dev.lanesUsed_spec (p : Nat) (ls : List Nat) (d : Dev) : d.keepsFields (ls.foldl (Dev.laneUsed p) d) [.RN_LANE_STATUS_USED, .RN_LANE_STATUS_SNAP] ∧
    (ls.foldl (Dev.laneUsed p) d).raised = d.raised := by
  refine ⟨keepsFields_of_view (foldl_keeps (fun d : Dev => viewBut [.RN_LANE_STATUS_USED, .RN_LANE_STATUS_SNAP] d.regs) _ ls d fun d i _ =>
    view_of_keepsFields fun f j hf => ?_), foldl_keeps Dev.raised _ ls d fun _ _ _ => rfl⟩
  simp only [List.mem_cons, List.not_mem_nil, or_false, not_or] at hf
  change ((d.set1 .RN_LANE_STATUS_USED (4 * p + i)).wr .RN_LANE_STATUS_SNAP (4 * p + i) 0).rd f j = _
  rw [Dev.wr_rd_ne _ _ _ _ _ _ hf.2, Dev.set1_rd, if_neg fun h => hf.1 h.1]

theorem Dev.portServes_aside (d u : Dev) (p w peerW : Nat) : Dev.Aside u (d.portServes u p w peerW) := by
  unfold Dev.portServes
  extract_lets v
  have noted : Dev.Aside u v := by
    unfold v
    split
    · exact ⟨fun _ _ _ => rfl, List.prefix_append ..⟩
    · exact Dev.Aside.refl u
  clear_value v
  split
  · obtain ⟨regs, raised⟩ := Dev.twinPump_keeps 64 v
    have pumped : Dev.Aside v (v.twinPump 64) := ⟨fun f i _ => Dev.rd_congr regs f i, raised ▸ List.prefix_rfl⟩
    exact (noted.trans pumped).trans (Dev.seekAgain_aside _)
  · exact noted

theorem Dev.portIsUp_spec (d : Dev) {p w : Nat} (hw : w ≤ 4) (peerW : Nat) : Dev.PortUp p w d (d.portIsUp p w peerW) := by
  rw [Dev.portIsUp_eq]
  have rises := d.portRises_rd (p := p) hw
  have cycle : (d.portRises p w).cycle = d.cycle := rfl
  generalize d.portRises p w = u at rises cycle
  obtain ⟨replays, alarm⟩ := d.portReplays_spec u p
  generalize d.portReplays u p = v at replays alarm
  obtain ⟨used, raised⟩ := Dev.lanesUsed_spec p (List.range w) v
  generalize (List.range w).foldl (Dev.laneUsed p) v = x at used raised
  have serves := d.portServes_aside x p w peerW
  generalize d.portServes x p w peerW = e at serves
  have rd (f : Fld) (i : Nat) (h1 : f ∉ asideFields) (h2 : f ∉ [Fld.RN_LANE_STATUS_USED, .RN_LANE_STATUS_SNAP]) (h3 : f ∉ [Fld.RN_PORT_STATUS_REPLAYS]) :
      e.rd f i = u.rd f i := (serves.rd f i h1).trans ((used f i h2).trans (replays f i h3))
  refine ⟨?_, ?_, ?_, fun h => ?_, fun f i hf => ?_⟩
  · rw [Dev.lstate, rd _ _ (by decide) (by decide) (by decide), rises]
    simp
  · rw [rd _ _ (by decide) (by decide) (by decide), rises]
    simp
  · rw [rd _ _ (by decide) (by decide) (by decide), rises]
    simp
  · exact serves.raised.subset (raised ▸ cycle ▸ alarm h)
  · simp only [upFields, List.mem_append, List.mem_cons, List.not_mem_nil, or_false, not_or] at hf
    obtain ⟨⟨state, width, lanes, replays', use, snap⟩, aside⟩ := hf
    rw [rd f i aside (by simp [use, snap]) (by simpa using replays'), rises, if_neg fun h => lanes h.1, if_neg fun h => width h.1, if_neg fun h => state h.1]

end Sys2Proof.Machine
end

section
/-!
PROOF. What a port does at the end of a training (R374, R375).
-/
namespace Sys2Proof.Machine

/-- The port has been better off at a lower rate. -/
def RnPort.narrows (P : RnPort) (r w : Nat) : Bool :=
  match P.good with
  | some (r0, w0) => decide (r0 < r ∧ w < w0)
  | none => false

theorem RnPort.narrows_iff {P : RnPort} {r w : Nat} : P.narrows r w = true ↔ ∃ r0 w0, P.good = some (r0, w0) ∧ r0 < r ∧ w < w0 := by
  unfold RnPort.narrows
  split
  next r0 w0 good => simp [good]
  next none_ => simp [none_]

/-- The port falls back from rate `r`. -/
def Dev.fellBack (d : Dev) (p r : Nat) : Dev :=
  ((d.upPort p (fun P => { P with failed := setBit P.failed r true })).set1 .RN_PORT_STATUS_FALLBACK p).raise 0x304 p

/-- The port trains again below the rate `r` that failed in `d`. -/
def Dev.trainLower (d u : Dev) (p r : Nat) : Dev :=
  match (d.port p).good with
  | some (r0, _) => if r0 < r then u.trainAt p r0 else u.trainAt p ((u.rateDown p r).getD 0)
  | none => u.trainAt p ((u.rateDown p r).getD 0)

/-- The port tries a higher rate than `r` or is UP. -/
def Dev.trainHigher (d : Dev) (p r w peerW : Nat) : Dev :=
  match d.rateUp p r with
  | some x => d.trainAt p x
  | none => d.portIsUp p w peerW

theorem Dev.negotiate_eq (d : Dev) (p w peerW : Nat) :
    let r := d.rd .RN_PORT_STATUS_RATE_NOW p
    d.negotiate p w peerW =
      if w = 0 ∧ r = 0 then (d.raise 0x30A p).toDetect p (d.now + ms 10)
      else if w = 0 ∨ (d.port p).narrows r w = true then d.trainLower (d.fellBack p r) p r
      else Dev.trainHigher (d.upPort p (fun P => { P with good := some (r, w) })) p r w peerW := rfl

theorem Dev.trainLower_eq (d u : Dev) (p r : Nat) : ∃ x, d.trainLower u p r = u.trainAt p x ∧ ∀ r0 w0, (d.port p).good = some (r0, w0) → r0 < r → x = r0 := by
  unfold Dev.trainLower
  cases (d.port p).good with
  | none => exact ⟨_, rfl, nofun⟩
  | some g =>
    obtain ⟨r0, w0⟩ := g
    dsimp only
    split
    · exact ⟨r0, rfl, fun a b h _ => (Prod.mk.inj (Option.some.inj h)).1⟩
    next high => exact ⟨_, rfl, fun a b h low => absurd ((Prod.mk.inj (Option.some.inj h)).1 ▸ low) high⟩

/-- What a port does with `w` usable lanes at the end of its training. -/
structure Dev.Negotiated (p w : Nat) (d e : Dev) : Prop where
  rd : d.keepsFields e ([.RN_PORT_STATUS_RATE_NOW, .RN_PORT_STATUS_FALLBACK, .RN_PORT_STATUS_LINK_LOSS] ++ upFields)
  dead : w = 0 → d.rd .RN_PORT_STATUS_RATE_NOW p = 0 → e.lstate p = Lst.DETECT ∧ ⟨0x30A, p, 0, d.cycle⟩ ∈ e.raised
  falls : ¬ (w = 0 ∧ d.rd .RN_PORT_STATUS_RATE_NOW p = 0) → (w = 0 ∨ (d.port p).narrows (d.rd .RN_PORT_STATUS_RATE_NOW p) w = true) →
    e.lstate p = Lst.TRAIN ∧ e.on .RN_PORT_STATUS_FALLBACK p = true ∧ ⟨0x304, p, 0, d.cycle⟩ ∈ e.raised ∧
      bitAt (e.port p).failed (d.rd .RN_PORT_STATUS_RATE_NOW p) = true ∧
      (∀ r0 w0, (d.port p).good = some (r0, w0) → r0 < d.rd .RN_PORT_STATUS_RATE_NOW p → e.rd .RN_PORT_STATUS_RATE_NOW p = r0 % 4)
  rises : ∀ x, w ≠ 0 → (d.port p).narrows (d.rd .RN_PORT_STATUS_RATE_NOW p) w = false → d.rateUp p (d.rd .RN_PORT_STATUS_RATE_NOW p) = some x →
    e.lstate p = Lst.TRAIN ∧ e.rd .RN_PORT_STATUS_RATE_NOW p = x ∧ (e.port p).good = some (d.rd .RN_PORT_STATUS_RATE_NOW p, w)
  serves : w ≠ 0 → (d.port p).narrows (d.rd .RN_PORT_STATUS_RATE_NOW p) w = false → d.rateUp p (d.rd .RN_PORT_STATUS_RATE_NOW p) = none →
    ((d.port p).txN ≠ [] → ⟨0x300, p, 0, d.cycle⟩ ∈ e.raised) ∧ e.lstate p = Lst.UP ∧ e.rd .RN_PORT_STATUS_WIDTH_NOW p = w / 2 ∧
      e.rd .RN_PORT_STATUS_LANES p = 2 ^ w - 1

theorem Dev.rateUp_lt {d : Dev} {p r x : Nat} (h : d.rateUp p r = some x) : x < 4 := List.mem_range.mp (List.mem_of_find?_eq_some h)

theorem Dev.rateUp_congr {d e : Dev} {p : Nat} (top : e.rateTop p = d.rateTop p) (failed : (e.port p).failed = (d.port p).failed) (r : Nat) :
    e.rateUp p r = d.rateUp p r := by
  simp only [Dev.rateUp, top, failed]

theorem trainFields_sub {f : Fld} (hf : f ∉ [Fld.RN_PORT_STATUS_RATE_NOW, .RN_PORT_STATUS_FALLBACK, .RN_PORT_STATUS_LINK_LOSS] ++ upFields) :
    f ≠ .RN_PORT_STATUS_FALLBACK ∧ f ∉ Fld.RN_PORT_STATUS_RATE_NOW :: .RN_PORT_STATUS_LSTATE :: leftFields ∧ f ∉ upFields := by
  simp only [upFields, leftFields, List.mem_append, List.mem_cons, List.not_mem_nil, or_false, not_or] at hf ⊢
  obtain ⟨⟨rate, back, loss⟩, ⟨state, width, lanes, replays, used, snap⟩, aside⟩ := hf
  exact ⟨back, ⟨rate, state, aside, used, snap, loss, lanes⟩, ⟨state, width, lanes, replays, used, snap⟩, aside⟩

theorem Dev.negotiate_spec {d : Dev} {p : Nat} (train : d.lstate p = Lst.TRAIN) {w : Nat} (hw : w ≤ 4) (peerW : Nat) :
    Dev.Negotiated p w d (d.negotiate p w peerW) := by
  rw [Dev.negotiate_eq]
  generalize hr : d.rd .RN_PORT_STATUS_RATE_NOW p = r
  have down : d.lstate p ≠ Lst.UP := by rw [train]; decide
  split
  next dead =>
    obtain ⟨w0, r0⟩ := dead
    have spec := (d.raise 0x30A p).toDetect_spec p (d.now + ms 10)
    exact ⟨fun f i hf => spec.rd f i (trainFields_sub hf).2.1, fun _ _ => ⟨spec.state, spec.raised.subset (List.mem_append_right _ (List.mem_singleton.mpr rfl))⟩,
      fun h => absurd ⟨w0, hr.trans r0⟩ h, fun _ h => absurd w0 h, fun h => absurd w0 h⟩
  next alive =>
    split
    next falls =>
      obtain ⟨x, lower, rate⟩ := d.trainLower_eq (d.fellBack p r) p r
      rw [lower]
      have rd (f : Fld) (i : Nat) : (d.fellBack p r).rd f i = if f = .RN_PORT_STATUS_FALLBACK ∧ i = p then 1 else d.rd f i := by
        change ((d.upPort p _).set1 .RN_PORT_STATUS_FALLBACK p).rd f i = _
        rw [Dev.set1_rd]
        rfl
      have port : (d.fellBack p r).port p = { d.port p with failed := setBit (d.port p).failed r true } :=
        (Dev.upPort_port d p p (fun P => { P with failed := setBit P.failed r true })).trans (if_pos rfl)
      have raised : ⟨0x304, p, 0, d.cycle⟩ ∈ (d.fellBack p r).raised := List.mem_append_right _ (List.mem_singleton.mpr rfl)
      generalize d.fellBack p r = u at rd port raised
      have spec := u.trainAt_spec p x
      refine ⟨fun f i hf => ?_, fun w0 r0 => absurd ⟨w0, hr.symm.trans r0⟩ alive, fun _ _ => ⟨spec.state, ?_, spec.raised.subset raised, ?_, fun r0 w0 good low => ?_⟩,
        fun _ h narrow => absurd falls (by rw [← hr, narrow]; simp [h]), fun h narrow => absurd falls (by rw [← hr, narrow]; simp [h])⟩
      · obtain ⟨back, trains, -⟩ := trainFields_sub hf
        rw [spec.rd f i trains, rd, if_neg fun h => back h.1]
      · rw [Dev.on, spec.rd _ _ (by decide), rd, if_pos ⟨rfl, rfl⟩]
        rfl
      · rw [spec.own (by rw [Dev.lstate, rd, if_neg (by simp)]; exact down), port, hr]
        exact (bitAt_setBit ..).trans (if_pos rfl)
      · rw [spec.rate, rate r0 w0 good (hr ▸ low)]
    next holds =>
      obtain ⟨w0, wide⟩ := not_or.mp holds
      rw [Bool.not_eq_true] at wide
      have rd (f : Fld) (i : Nat) : (d.upPort p (fun P => { P with good := some (r, w) })).rd f i = d.rd f i := rfl
      have port : (d.upPort p (fun P => { P with good := some (r, w) })).port p = { d.port p with good := some (r, w) } := by
        rw [Dev.upPort_port, if_pos rfl]
      have cycle : (d.upPort p (fun P => { P with good := some (r, w) })).cycle = d.cycle := rfl
      generalize d.upPort p (fun P => { P with good := some (r, w) }) = u at rd port cycle
      have top : u.rateTop p = d.rateTop p := by rw [Dev.rateTop, rd, rd, Dev.rateTop]
      have next : u.rateUp p r = d.rateUp p r := Dev.rateUp_congr top (by rw [port]) r
      unfold Dev.trainHigher
      rw [next]
      cases up : d.rateUp p r with
      | some x =>
        have spec := u.trainAt_spec p x
        refine ⟨fun f i hf => (spec.rd f i (trainFields_sub hf).2.1).trans (rd f i), fun h => absurd h w0, fun _ h => absurd (hr ▸ h) holds, fun y _ _ h => ⟨spec.state, ?_, ?_⟩,
          fun _ _ h => by rw [hr, up] at h; exact nomatch h⟩
        · rw [hr, up] at h
          rw [spec.rate, Nat.mod_eq_of_lt (Dev.rateUp_lt up)]
          exact Option.some.inj h
        · rw [spec.own (by rw [Dev.lstate, rd]; exact down), port, hr]
          rfl
      | none =>
        have spec := u.portIsUp_spec (p := p) hw peerW
        refine ⟨fun f i hf => (spec.rd f i (trainFields_sub hf).2.2).trans (rd f i), fun h => absurd h w0, fun _ h => absurd (hr ▸ h) holds,
          (fun y _ _ h => by rw [hr, up] at h; exact (nomatch h)), fun _ _ _ => ⟨fun some_ => ?_, spec.state, spec.width, spec.lanes⟩⟩
        exact cycle ▸ spec.replay (by rw [port]; exact some_)

theorem widthFit_le (mask top : Nat) : widthFit mask top ≤ 4 := by
  unfold widthFit
  (repeat' split) <;> decide

theorem Dev.trainingEnd_eq {d : Dev} {p : Nat} (train : d.lstate p = Lst.TRAIN) (pend : (d.port p).pendAt = none) (lanes : Nat) (fom : List Nat) (peerLanes pw : Nat) :
    d.trainingEnd p lanes fom peerLanes pw =
      (((List.range 4).foldl (Dev.lanesTrained p lanes fom) d).wr .RN_PORT_PEER_PEER_LANES p peerLanes).negotiate p
        (widthFit (d.goodLanes p lanes fom &&& peerLanes) (min (widthOf (d.rd .RN_PORT_CTRL_WIDTH_MAX p)) (widthOf pw))) (widthOf pw) := by
  unfold Dev.trainingEnd
  rw [if_neg (not_not.mpr train), pend]
  rfl

theorem trainingEnd_acts (s : State) (p lanes peerLanes pw : Nat) (fom : List Nat) (hp : p < 4) (train : s.dev.lstate p = Lst.TRAIN)
    (pend : (s.dev.port p).pendAt = none) :
    let r := s.dev.rd .RN_PORT_STATUS_RATE_NOW p
    let w := widthFit (s.dev.goodLanes p lanes fom &&& peerLanes) (min (widthOf (s.dev.rd .RN_PORT_CTRL_WIDTH_MAX p)) (widthOf pw))
    let less := ∃ r0 w0, (s.dev.port p).good = some (r0, w0) ∧ r0 < r ∧ w < w0
    Acts (.trainingEnd p lanes fom peerLanes pw) s (fun e =>
      (∀ i, i < 4 → e.on .RN_LANE_STATUS_LOCK (4 * p + i) = bitAt lanes i ∧ e.rd .RN_LANE_STATUS_FOM (4 * p + i) = min (fom.getD i 0) 4095) ∧
      (w = 0 → r = 0 → e.lstate p = Lst.DETECT ∧ ⟨0x30A, p, 0, s.dev.cycle⟩ ∈ e.raised) ∧
      (¬ (w = 0 ∧ r = 0) → (w = 0 ∨ less) → e.lstate p = Lst.TRAIN ∧ e.on .RN_PORT_STATUS_FALLBACK p = true ∧
        ⟨0x304, p, 0, s.dev.cycle⟩ ∈ e.raised ∧ bitAt (e.port p).failed r = true ∧
        (∀ r0 w0, (s.dev.port p).good = some (r0, w0) → r0 < r → e.rd .RN_PORT_STATUS_RATE_NOW p = r0 % 2 ^ Fld.RN_PORT_STATUS_RATE_NOW.spec.width)) ∧
      (∀ x, w ≠ 0 → ¬ less → s.dev.rateUp p r = some x → e.lstate p = Lst.TRAIN ∧ e.rd .RN_PORT_STATUS_RATE_NOW p = x ∧ (e.port p).good = some (r, w)) ∧
      (w ≠ 0 → ¬ less → s.dev.rateUp p r = none → ((s.dev.port p).txN ≠ [] → ⟨0x300, p, 0, s.dev.cycle⟩ ∈ e.raised) ∧ e.lstate p = Lst.UP ∧
        e.rd .RN_PORT_STATUS_WIDTH_NOW p = w / 2 ∧ e.rd .RN_PORT_STATUS_LANES p = 2 ^ w - 1)) := by
  intro r w less
  refine acts_onDev rfl (decide_eq_true hp) ?_
  rw [Dev.trainingEnd_eq train pend]
  have report := s.dev.lanesReport p lanes fom peerLanes
  generalize Dev.wr (List.foldl _ s.dev _) .RN_PORT_PEER_PEER_LANES p peerLanes = u at report
  obtain ⟨lane, rd, records, raised⟩ := report
  have ports : u.ports = s.dev.ports := (congrArg Dev.ports records :)
  have now : u.now = s.dev.now := (congrArg Dev.now records :)
  have port : u.port p = s.dev.port p := by rw [Dev.port, ports, Dev.port]
  have cycle : u.cycle = s.dev.cycle := by rw [Dev.cycle, now, Dev.cycle]
  have rate : u.rd .RN_PORT_STATUS_RATE_NOW p = r := rd _ _ (by decide)
  have top : u.rateTop p = s.dev.rateTop p := by rw [Dev.rateTop, rd _ _ (by decide), rd _ _ (by decide), Dev.rateTop]
  have next : u.rateUp p r = s.dev.rateUp p r := Dev.rateUp_congr top (by rw [port]) r
  have spec := Dev.negotiate_spec ((rd _ _ (by decide)).trans train : u.lstate p = Lst.TRAIN) (widthFit_le _ _ : w ≤ 4) (widthOf pw)
  change _ ∧ _
  change (∀ i, i < 4 → (u.negotiate p w (widthOf pw)).on .RN_LANE_STATUS_LOCK (4 * p + i) = _ ∧ _) ∧ _
  generalize u.negotiate p w (widthOf pw) = e at spec
  obtain ⟨keeps, dead, falls, rises, serves⟩ := spec
  rw [rate] at dead falls rises serves
  rw [port] at falls rises serves
  rw [cycle] at dead falls serves
  rw [next] at rises serves
  have broad (h : ¬ less) : (s.dev.port p).narrows r w = false := Bool.eq_false_iff.mpr fun k => h (RnPort.narrows_iff.mp k)
  refine ⟨fun i hi => ?_, dead, fun alive h => falls alive (h.imp_right RnPort.narrows_iff.mpr), fun x some_ h => rises x some_ (broad h),
    fun some_ h => serves some_ (broad h)⟩
  obtain ⟨lock, fom⟩ := lane i hi
  exact ⟨by rw [Dev.on, keeps _ _ (by decide)]; exact lock, (keeps _ _ (by decide)).trans fom⟩

end Sys2Proof.Machine
end

section
/-!
PROOF. Figures of merit and FAULT blocks (R379, R389).
-/
namespace Sys2Proof.Machine

theorem Dev.upRnLane_calmTo {d : Dev} {l : Nat} (f : RnLane → RnLane) (hf : ∀ L, (f L).calmTo = L.calmTo) : ((d.upRnLane l f).rnLane l).calmTo = (d.rnLane l).calmTo := by
  have own : (d.upRnLane l f).rnLane l = f (d.rnLane l) := (tget_tset ..).trans (if_pos rfl)
  rw [own, hf]

/-- The figure of merit `f` and the silence of lane `l` are noted. -/
def Dev.fomNoted (d : Dev) (l f : Nat) (quiet : Bool) : Dev :=
  let d0 := (d.wr .RN_LANE_STATUS_FOM l f).wr .RN_LANE_STATUS_FROZEN l (b2n quiet)
  if d.rd .RN_LANE_STATUS_SNAP l < f then d0.wr .RN_LANE_STATUS_SNAP l f else d0

/-- A lane whose figure of merit has dropped reverts, unless it has done so lately. -/
def Dev.fomReverted (d u : Dev) (l f : Nat) : Dev :=
  if 10 * f < 9 * d.rd .RN_LANE_STATUS_SNAP l ∧ (d.rnLane l).calmTo ≤ d.now then
    (((u.count .RN_LANE_STATUS_REVERTS l 1).set1 .RN_LANE_STATUS_REVERTED l).raise 0x301 l).upRnLane l (fun L => { L with calmTo := d.now + us 100 })
  else u

theorem Dev.fomSample_eq {d : Dev} {l f : Nat} (up : d.lstate (l / 4) = Lst.UP) (good : d.rd .RN_PORT_CTRL_FOM_MIN (l / 4) ≤ f) (quiet : Bool) :
    d.fomSample l f quiet =
      if !d.on .RN_LANE_STATUS_USED l then d.fomReverted (d.fomNoted l f quiet) l f
      else (d.fomReverted (d.fomNoted l f quiet) l f).upRnLane l (fun L => { L with lowAt := none }) := by
  unfold Dev.fomSample
  dsimp only
  rw [if_neg (by rw [up]; decide), if_neg (not_not.mpr up), if_pos good]
  rfl

theorem Dev.fomNoted_rd (d : Dev) (l : Nat) {f : Nat} (hf : f < 4096) (quiet : Bool) (g : Fld) (i : Nat) : (d.fomNoted l f quiet).rd g i =
    if g = .RN_LANE_STATUS_SNAP ∧ i = l then max (d.rd .RN_LANE_STATUS_SNAP l) f
    else if g = .RN_LANE_STATUS_FROZEN ∧ i = l then b2n quiet else if g = .RN_LANE_STATUS_FOM ∧ i = l then f else d.rd g i := by
  have snap : f % 2 ^ Fld.RN_LANE_STATUS_SNAP.spec.width = f := Nat.mod_eq_of_lt hf
  have fom : f % 2 ^ Fld.RN_LANE_STATUS_FOM.spec.width = f := Nat.mod_eq_of_lt hf
  have bit : b2n quiet % 2 ^ Fld.RN_LANE_STATUS_FROZEN.spec.width = b2n quiet := by cases quiet <;> rfl
  unfold Dev.fomNoted
  dsimp only
  split
  next low =>
    rw [Dev.wr_rd, Dev.wr_rd, Dev.wr_rd, snap, fom, bit, Nat.max_eq_right (Nat.le_of_lt low)]
  next high =>
    rw [Dev.wr_rd, Dev.wr_rd, fom, bit, Nat.max_eq_left (Nat.not_lt.mp high)]
    by_cases h : g = .RN_LANE_STATUS_SNAP ∧ i = l
    · obtain ⟨rfl, rfl⟩ := h
      simp
    · rw [if_neg h]

/-- What a sample of the figure of merit `f` of lane `l` leaves of the block `d`, where it reverts by `revert`. -/
def Dev.FomTaken (l f : Nat) (quiet : Bool) (revert : Prop) (d e : Dev) : Prop :=
  e.rd .RN_LANE_STATUS_FOM l = f ∧ e.on .RN_LANE_STATUS_FROZEN l = quiet ∧ e.rd .RN_LANE_STATUS_SNAP l = max (d.rd .RN_LANE_STATUS_SNAP l) f ∧
    (revert → e.on .RN_LANE_STATUS_REVERTED l = true ∧ e.raised = d.raised ++ [⟨0x301, l, 0, d.cycle⟩] ∧ (e.rnLane l).calmTo = d.now + us 100) ∧
    (¬ revert → e.raised = d.raised) ∧
    d.keepsBut e [(.RN_LANE_STATUS_FOM, l), (.RN_LANE_STATUS_FROZEN, l), (.RN_LANE_STATUS_SNAP, l), (.RN_LANE_STATUS_REVERTED, l), (.RN_LANE_STATUS_REVERTS, l)]

theorem fomSample_acts (s : State) (l fom : Nat) (quiet : Bool) (hl : l < 16) (up : s.dev.lstate (l / 4) = Lst.UP)
    (good : s.dev.rd .RN_PORT_CTRL_FOM_MIN (l / 4) ≤ min fom 4095) :
    let f := min fom 4095
    let snap := s.dev.rd .RN_LANE_STATUS_SNAP l
    let revert := 10 * f < 9 * snap ∧ (s.dev.rnLane l).calmTo ≤ s.dev.now
    Acts (.fomSample l fom quiet) s (Dev.FomTaken l f quiet revert s.dev) := by
  intro f snap revert
  refine acts_onDev rfl (decide_eq_true hl) ?_
  rw [Dev.fomSample_eq up good]
  have noted := s.dev.fomNoted_rd l (Nat.lt_of_le_of_lt (Nat.min_le_right ..) (by decide) : f < 4096) quiet
  have raised : (s.dev.fomNoted l f quiet).raised = s.dev.raised ∧ (s.dev.fomNoted l f quiet).cycle = s.dev.cycle := by
    unfold Dev.fomNoted
    dsimp only
    split <;> exact ⟨rfl, rfl⟩
  generalize s.dev.fomNoted l (min fom 4095) quiet = u at noted raised
  obtain ⟨raised, cycle⟩ := raised
  have reverted (g : Fld) (i : Nat) (h : (g, i) ∉ [(Fld.RN_LANE_STATUS_REVERTED, l), (.RN_LANE_STATUS_REVERTS, l)]) : (s.dev.fomReverted u l f).rd g i = u.rd g i := by
    simp only [List.mem_cons, List.not_mem_nil, or_false, Prod.mk.injEq, not_or] at h
    unfold Dev.fomReverted
    split
    · change ((u.count .RN_LANE_STATUS_REVERTS l 1).set1 .RN_LANE_STATUS_REVERTED l).rd g i = _
      rw [Dev.set1_rd, if_neg h.1, Dev.count, Dev.wr_rd, if_neg h.2]
    · rfl
  have alarm : (revert → (s.dev.fomReverted u l f).on .RN_LANE_STATUS_REVERTED l = true ∧
      (s.dev.fomReverted u l f).raised = s.dev.raised ++ [⟨0x301, l, 0, s.dev.cycle⟩] ∧ ((s.dev.fomReverted u l f).rnLane l).calmTo = s.dev.now + us 100) ∧
      (¬ revert → (s.dev.fomReverted u l f).raised = s.dev.raised) := by
    unfold Dev.fomReverted
    refine ⟨fun h => ?_, fun h => ?_⟩
    · rw [if_pos h]
      refine ⟨?_, ?_, ?_⟩
      · have bit := Dev.set1_rd (u.count .RN_LANE_STATUS_REVERTS l 1) .RN_LANE_STATUS_REVERTED .RN_LANE_STATUS_REVERTED l l
        rw [if_pos ⟨rfl, rfl⟩] at bit
        change (Dev.rd ((u.count .RN_LANE_STATUS_REVERTS l 1).set1 .RN_LANE_STATUS_REVERTED l) _ _ == 1) = true
        rw [bit]
        rfl
      · rw [← raised, ← cycle]
        rfl
      · exact congrArg RnLane.calmTo ((tget_tset ..).trans (if_pos rfl))
    · rw [if_neg h]
      exact raised
  generalize s.dev.fomReverted u l f = v at reverted alarm
  have all (e : Dev) (regs : e.regs = v.regs) (list : e.raised = v.raised) (calm : (e.rnLane l).calmTo = (v.rnLane l).calmTo) :
      Dev.FomTaken l f quiet revert s.dev e := by
    have rd := Dev.rd_congr regs
    obtain ⟨yes, no⟩ := alarm
    refine ⟨?_, ?_, ?_, fun h => ?_, fun h => list.trans (no h), fun g i hg => ?_⟩
    · rw [rd, reverted _ _ (by simp), noted]
      simp
    · rw [Dev.on, rd, reverted _ _ (by simp), noted, if_neg (by simp), if_pos ⟨rfl, rfl⟩]
      cases quiet <;> rfl
    · rw [rd, reverted _ _ (by simp), noted]
      simp
    · obtain ⟨bit, raise, calm'⟩ := yes h
      exact ⟨by rw [Dev.on, rd]; exact bit, list.trans raise, calm.trans calm'⟩
    · simp only [List.mem_cons, List.not_mem_nil, or_false, Prod.mk.injEq, not_or] at hg
      obtain ⟨h1, h2, h3, h4, h5⟩ := hg
      rw [rd, reverted _ _ (by simp [h4, h5]), noted, if_neg h3, if_neg h2, if_neg h1]
  split
  · exact all v rfl rfl rfl
  · exact all _ rfl rfl (Dev.upRnLane_calmTo _ fun _ => rfl)

/-! ### Lanes that thaw -/

theorem Dev.thaw_keeps (d : Dev) (l : Nat) : d.keepsBut (d.thaw l) [(.RN_LANE_STATUS_FROZEN, l)] := d.wr_keepsBut _ l 0

/-- Between `d` and `e` lanes may have thawed, nothing else. -/
structure Dev.Thawed (d e : Dev) : Prop where
  rd : d.keepsFields e [.RN_LANE_STATUS_FROZEN]
  records : e.records = d.records
  raised : e.raised = d.raised

theorem Dev.Thawed.refl (d : Dev) : Dev.Thawed d d := ⟨fun _ _ _ => rfl, rfl, rfl⟩

theorem Dev.Thawed.trans {d e f : Dev} (h : Dev.Thawed d e) (k : Dev.Thawed e f) : Dev.Thawed d f :=
  ⟨fun g i hg => (k.rd g i hg).trans (h.rd g i hg), k.records.trans h.records, k.raised.trans h.raised⟩

theorem Dev.thaw_thawed (d : Dev) (l : Nat) : Dev.Thawed d (d.thaw l) := ⟨fun f i hf => Dev.wr_rd_ne d _ f l i 0 (by simpa using hf), rfl, rfl⟩

theorem Dev.Thawed.foldl {β : Type} {g : Dev → β → Dev} (h : ∀ d b, Dev.Thawed d (g d b)) (ls : List β) (d : Dev) : Dev.Thawed d (ls.foldl g d) := by
  induction ls generalizing d with
  | nil => exact Dev.Thawed.refl d
  | cons b t ih => exact (h d b).trans (ih _)

theorem Dev.Thawed.port {d e : Dev} (h : Dev.Thawed d e) (p : Nat) : e.port p = d.port p := by
  have ports : e.ports = d.ports := (congrArg Dev.ports h.records :)
  rw [Dev.port, ports, Dev.port]

theorem Dev.Thawed.cycle {d e : Dev} (h : Dev.Thawed d e) : e.cycle = d.cycle := by
  have now : e.now = d.now := (congrArg Dev.now h.records :)
  rw [Dev.cycle, now, Dev.cycle]

theorem Dev.width_congr {d e : Dev} {L : List Fld} (rd : d.keepsFields e L) (hL : .RN_LANE_STATUS_USED ∉ L) (p : Nat) : e.width p = d.width p := by
  have used : e.on .RN_LANE_STATUS_USED = d.on .RN_LANE_STATUS_USED := funext fun l => by rw [Dev.on, rd _ _ hL, Dev.on]
  rw [Dev.width, Dev.usedLanes, used, Dev.width, Dev.usedLanes]

theorem Dev.Thawed.width {d e : Dev} (h : Dev.Thawed d e) (p : Nat) : e.width p = d.width p := Dev.width_congr h.rd (by decide) p

/-- The lanes `4 p + i` of the list thaw. -/
theorem Dev.thaws_rd (p : Nat) (ls : List Nat) (d : Dev) (f : Fld) (j : Nat) :
    (ls.foldl (fun d i => d.thaw (4 * p + i)) d).rd f j = if f = .RN_LANE_STATUS_FROZEN ∧ ∃ i ∈ ls, j = 4 * p + i then 0 else d.rd f j := by
  induction ls generalizing d with
  | nil => simp
  | cons i t ih =>
    rw [List.foldl_cons, ih, Dev.thaw, Dev.clr, Dev.wr_rd]
    by_cases hf : f = .RN_LANE_STATUS_FROZEN <;> by_cases ht : ∃ i ∈ t, j = 4 * p + i <;> by_cases hi : j = 4 * p + i <;> simp [hf, ht, hi]

/-! ### FAULT blocks -/

theorem faultBlock_acts (s : State) (p : Nat) (hp : p < 4) (up : s.dev.lstate p = Lst.UP) :
    Acts (.faultBlock p) s (fun e => e.on .RN_PORT_STATUS_PEER_FAULT_NOW p = true ∧
      (s.dev.on .RN_PORT_STATUS_PEER_FAULT_NOW p = true → e.raised = s.dev.raised ∧ s.dev.keepsFields e [.RN_LANE_STATUS_FROZEN] ∧
        (∀ i, i < s.dev.width p → e.on .RN_LANE_STATUS_FROZEN (4 * p + i) = false)) ∧ (s.dev.on .RN_PORT_STATUS_PEER_FAULT_NOW p = false →
        e.on .RN_PORT_STATUS_PEER_FAULT p = true ∧ ⟨0x305, p, 0, s.dev.cycle⟩ ∈ e.raised)) := by
  refine acts_onDev rfl (decide_eq_true hp) ?_
  unfold Dev.faultIn
  rw [if_pos up]
  dsimp only
  have frozen := Dev.thaws_rd p (List.range (s.dev.width p)) s.dev
  have thawed : Dev.Thawed s.dev ((List.range (s.dev.width p)).foldl (fun d i => d.thaw (4 * p + i)) s.dev) := Dev.Thawed.foldl (fun d i => d.thaw_thawed _) _ _
  generalize List.foldl _ s.dev _ = u at frozen thawed
  have still : u.lstate p = Lst.UP := (thawed.rd _ _ (by decide)).trans up
  have noted : u.on .RN_PORT_STATUS_PEER_FAULT_NOW p = s.dev.on .RN_PORT_STATUS_PEER_FAULT_NOW p := by rw [Dev.on, thawed.rd _ _ (by decide), Dev.on]
  by_cases now_ : s.dev.on .RN_PORT_STATUS_PEER_FAULT_NOW p = true
  · rw [if_pos (.inr (noted.trans now_))]
    refine ⟨noted.trans now_, fun _ => ⟨thawed.raised, thawed.rd, fun i hi => ?_⟩, fun h => absurd (now_.symm.trans h) (by decide)⟩
    rw [Dev.on, frozen, if_pos ⟨rfl, i, List.mem_range.mpr hi, rfl⟩]
    rfl
  · rw [if_neg (not_or.mpr ⟨not_not.mpr still, by rw [noted]; exact now_⟩)]
    have fault := Dev.set1_rd (u.set1 .RN_PORT_STATUS_PEER_FAULT p) .RN_PORT_STATUS_PEER_FAULT_NOW
    have first := Dev.set1_rd u .RN_PORT_STATUS_PEER_FAULT .RN_PORT_STATUS_PEER_FAULT p p
    have aside := (((u.set1 .RN_PORT_STATUS_PEER_FAULT p).set1 .RN_PORT_STATUS_PEER_FAULT_NOW p).raise 0x305 p).haltSpans_aside
    refine ⟨?_, fun h => absurd h now_, fun _ => ⟨?_, aside.raised.subset (List.mem_append_right _ (thawed.cycle ▸ List.mem_singleton.mpr rfl))⟩⟩
    · rw [Dev.on, aside.rd _ _ (by decide)]
      change (Dev.rd ((u.set1 .RN_PORT_STATUS_PEER_FAULT p).set1 .RN_PORT_STATUS_PEER_FAULT_NOW p) _ _ == 1) = true
      rw [fault, if_pos ⟨rfl, rfl⟩]
      rfl
    · rw [Dev.on, aside.rd _ _ (by decide)]
      change (Dev.rd ((u.set1 .RN_PORT_STATUS_PEER_FAULT p).set1 .RN_PORT_STATUS_PEER_FAULT_NOW p) _ _ == 1) = true
      rw [fault, if_neg (by simp), first, if_pos ⟨rfl, rfl⟩]
      rfl

theorem peerFaultClear_acts (s : State) (p : Nat) (hp : p < 4) (up : s.dev.lstate p = Lst.UP) :
    Acts (.peerFaultClear p) s (fun e => e.on .RN_PORT_STATUS_PEER_FAULT_NOW p = false ∧ s.dev.keepsBut e [(.RN_PORT_STATUS_PEER_FAULT_NOW, p)]) := by
  refine acts_onDev rfl (decide_eq_true hp) ?_
  rw [if_pos up]
  refine ⟨?_, s.dev.wr_keepsBut _ p 0⟩
  rw [Dev.on, Dev.clr, Dev.wr_rd, if_pos ⟨rfl, rfl⟩]
  rfl

end Sys2Proof.Machine
end

section
/-!
PROOF. Frames of a Rein port (R371, R372, R373).
-/
namespace Sys2Proof.Machine

theorem RnPort.setRx_rx (P : RnPort) (pri : Bool) (n : Nat) (gap : Bool) (o : List (List Nat)) :
    ({ P.setRx pri n gap with out := o } : RnPort).rx pri = n ∧ ({ P.setRx pri n gap with out := o } : RnPort).gap pri = gap := by
  cases pri <;> exact ⟨rfl, rfl⟩

/-- A record with frames of a class expected from `n` on, and `blocks` sent. -/
def RnPort.answers (P : RnPort) (pri : Bool) (n : Nat) (gap : Bool) (blocks : List (List Nat)) : RnPort := { P.setRx pri n gap with out := blocks }

theorem RnPort.answers_spec (P : RnPort) (pri : Bool) (n : Nat) (gap : Bool) (o : List (List Nat)) :
    (P.answers pri n gap o).rx pri = n ∧ (P.answers pri n gap o).gap pri = gap ∧ (P.answers pri n gap o).out = o :=
  ⟨(P.setRx_rx pri n gap o).1, (P.setRx_rx pri n gap o).2, rfl⟩

/-- The stream that carries one ACK or NAK block. -/
def Dev.answer1 (d : Dev) (p ty : Nat) (pri : Bool) (seq : Nat) : List (List Nat) := stripe (d.width p) [replyBlock ty pri seq]

/-- A port has answered a frame: its own record is by `P`, nothing else of the sites and the registers changed. -/
structure Dev.Answered (p : Nat) (P : RnPort) (d e : Dev) : Prop where
  port : e.port p = P
  regs : e.regs = d.regs
  sites : e.sites = d.sites

theorem Dev.reply_answered (d : Dev) (p ty : Nat) (pri : Bool) (seq : Nat) :
    Dev.Answered p { d.port p with out := d.answer1 p ty pri seq } d (d.reply p ty pri seq) :=
  ⟨(Dev.upPort_port ..).trans (if_pos rfl), rfl, rfl⟩

theorem Dev.setRx_answered (d : Dev) (p ty : Nat) (pri : Bool) (n seq : Nat) (gap : Bool) :
    Dev.Answered p ((d.port p).answers pri n gap (d.answer1 p ty pri seq)) d ((d.upPort p (fun P => P.setRx pri n gap)).reply p ty pri seq) := by
  have same : (d.upPort p (fun P => P.setRx pri n gap)).answer1 p ty pri seq = d.answer1 p ty pri seq :=
    congrArg (fun w => stripe w [replyBlock ty pri seq])
      (Dev.width_congr (d := d) (e := d.upPort p (fun P => P.setRx pri n gap)) (L := []) (fun _ _ _ => rfl) (by simp) p)
  have port : (d.upPort p (fun P => P.setRx pri n gap)).port p = (d.port p).setRx pri n gap := (Dev.upPort_port ..).trans (if_pos rfl)
  have units : (d.upPort p (fun P => P.setRx pri n gap)).regs = d.regs ∧ (d.upPort p (fun P => P.setRx pri n gap)).sites = d.sites := ⟨rfl, rfl⟩
  generalize d.upPort p (fun P => P.setRx pri n gap) = u at same port units
  obtain ⟨port', regs, sites⟩ := u.reply_answered p ty pri seq
  exact ⟨by rw [port', same, port]; rfl, regs.trans units.1, sites.trans units.2⟩

theorem Dev.askAgain_answered (d : Dev) (p : Nat) (pri : Bool) :
    Dev.Answered p ((d.port p).answers pri ((d.port p).rx pri) true (d.answer1 p Blk.NAK pri ((d.port p).rx pri))) d (d.askAgain p pri) :=
  d.setRx_answered p Blk.NAK pri _ _ true

theorem Dev.twinHeard_keeps (d : Dev) (p : Nat) : (d.twinHeard p).regs = d.regs ∧ (d.twinHeard p).sites = d.sites ∧ (d.twinHeard p).ports = d.ports := by
  unfold Dev.twinHeard
  split <;> exact ⟨rfl, rfl, rfl⟩

/-- A block in which the twin has been heard stands for the one before. -/
theorem Dev.Answered.heard {p : Nat} {f : RnPort → List (List Nat) → RnPort} {ty : Nat} {pri : Bool} {seq : Nat} {d e : Dev}
    (h : Dev.Answered p (f ((d.twinHeard p).port p) ((d.twinHeard p).answer1 p ty pri seq)) (d.twinHeard p) e) :
    Dev.Answered p (f (d.port p) (d.answer1 p ty pri seq)) d e := by
  obtain ⟨regs, sites, ports⟩ := d.twinHeard_keeps p
  have port : (d.twinHeard p).port p = d.port p := by rw [Dev.port, ports, Dev.port]
  have same : (d.twinHeard p).answer1 p ty pri seq = d.answer1 p ty pri seq := by
    rw [Dev.answer1, Dev.width_congr (Dev.keepsFields_of_regs regs) (by simp), Dev.answer1]
  rw [port, same] at h
  exact ⟨h.port, h.regs.trans regs, h.sites.trans sites⟩

/-- What port `p` does with frame `f`, by its place in the class's sequence. -/
structure Dev.FrameTaken (p : Nat) (f : RxFrame) (ok : Bool) (d e : Dev) : Prop where
  bad : ok = false → Dev.Answered p ((d.port p).answers f.pri ((d.port p).rx f.pri) true (d.answer1 p Blk.NAK f.pri ((d.port p).rx f.pri))) d e
  next : ok = true → f.seq = (d.port p).rx f.pri → ∃ u : Dev,
    Dev.Answered p ((d.port p).answers f.pri (((d.port p).rx f.pri + 1) % 4096) false (d.answer1 p Blk.ACK f.pri ((d.port p).rx f.pri))) d u ∧
      e = if f.pri = true ∧ d.rd .RN_PORT_CTRL_ROLE p = 0 then (pktsOf f.data).foldl (fun d k => d.delivered p k) u else u
  ahead : ok = true → f.seq ≠ (d.port p).rx f.pri → seqFrom f.seq ((d.port p).rx f.pri) = true →
    Dev.Answered p ((d.port p).answers f.pri ((d.port p).rx f.pri) true (d.answer1 p Blk.NAK f.pri ((d.port p).rx f.pri))) d e
  again : ok = true → f.seq ≠ (d.port p).rx f.pri → seqFrom f.seq ((d.port p).rx f.pri) = false →
    Dev.Answered p { d.port p with out := d.answer1 p Blk.ACK f.pri (((d.port p).rx f.pri + 4095) % 4096) } d e

theorem Dev.takeFrame_spec (d : Dev) (p : Nat) (f : RxFrame) (ok : Bool) : Dev.FrameTaken p f ok d (d.takeFrame p f ok) := by
  unfold Dev.takeFrame
  dsimp only
  have heard (g : RnPort → List (List Nat) → RnPort) {ty seq : Nat} {e : Dev} := Dev.Answered.heard (d := d) (p := p) (pri := f.pri) (f := g) (ty := ty) (seq := seq) (e := e)
  obtain ⟨regs, sites, ports⟩ := d.twinHeard_keeps p
  have port : (d.twinHeard p).port p = d.port p := by rw [Dev.port, ports, Dev.port]
  cases ok with
  | false => exact ⟨fun _ => d.askAgain_answered p f.pri, nofun, nofun, nofun⟩
  | true =>
    rw [if_neg (by simp)]
    by_cases next : f.seq = (d.port p).rx f.pri
    · rw [if_pos next]
      exact ⟨nofun, fun _ _ => ⟨_, heard (fun P o => P.answers f.pri (((d.port p).rx f.pri + 1) % 4096) false o)
        ((d.twinHeard p).setRx_answered p Blk.ACK f.pri _ _ false), rfl⟩, fun _ h => absurd next h, fun _ h => absurd next h⟩
    · rw [if_neg next]
      by_cases ahead : seqFrom f.seq ((d.port p).rx f.pri) = true
      · rw [if_pos ahead]
        have spec := (d.twinHeard p).askAgain_answered p f.pri
        rw [show ((d.twinHeard p).port p).rx f.pri = (d.port p).rx f.pri by rw [port]] at spec
        exact ⟨nofun, fun _ h => absurd h next, fun _ _ _ => heard (fun P o => P.answers f.pri ((d.port p).rx f.pri) true o) spec,
          fun _ _ h => absurd (ahead.symm.trans h) (by decide)⟩
      · rw [if_neg ahead]
        exact ⟨nofun, fun _ h => absurd h next, fun _ _ h => absurd h ahead,
          fun _ _ _ => heard (fun P o => { P with out := o }) ((d.twinHeard p).reply_answered p Blk.ACK f.pri _)⟩

end Sys2Proof.Machine
end

section
/-!
PROOF. A FRAME that ends on a Rein port (R370 to R373).
-/
namespace Sys2Proof.Machine

/-- The blocks that stir thaw their lanes. -/
def Dev.framed (d : Dev) (p : Nat) (lanes : List Nat) : Dev :=
  (List.range (d.width p)).foldl (fun d i => if (laneBlocks (lanes.getD i 0)).any stirs then d.thaw (4 * p + i) else d) d

theorem Dev.framed_thawed (d : Dev) (p : Nat) (lanes : List Nat) : Dev.Thawed d (d.framed p lanes) :=
  Dev.Thawed.foldl (fun d i => by split <;> [exact d.thaw_thawed _; exact Dev.Thawed.refl d]) _ d

/-- The frame `n` of a class that the port's lanes carried. -/
def Dev.frameOf (d : Dev) (p : Nat) (pri : Bool) (n : Nat) (lanes : List Nat) : Option RxFrame :=
  (laneFrames ((lanes.take (d.width p)).map laneBlocks)).find? (fun f => f.pri == pri && f.seq == n)

theorem Dev.frameOf_some {d : Dev} {p n : Nat} {pri : Bool} {lanes : List Nat} {f : RxFrame} (h : d.frameOf p pri n lanes = some f) : f.pri = pri ∧ f.seq = n := by
  have chosen := List.find?_some h
  simpa only [Bool.and_eq_true, beq_iff_eq] using chosen

theorem Dev.frameIn_lost {d : Dev} {p n : Nat} {pri : Bool} {lanes : List Nat} (up : d.lstate p = Lst.UP) (none_ : d.frameOf p pri n lanes = none) (crc : Bool) :
    d.frameIn p pri n crc true lanes = (d.framed p lanes).askAgain p pri := by
  unfold Dev.frameOf at none_
  unfold Dev.frameIn
  rw [if_neg (not_not.mpr up), if_neg (by simp), none_]
  exact Eq.refl ((d.framed p lanes).askAgain p pri)

theorem Dev.frameIn_taken {d : Dev} {p n : Nat} {pri : Bool} {lanes : List Nat} {f : RxFrame} (up : d.lstate p = Lst.UP) (some_ : d.frameOf p pri n lanes = some f)
    (crc : Bool) : d.frameIn p pri n crc true lanes = (d.framed p lanes).takeFrame p f (crc && f.ok) := by
  unfold Dev.frameOf at some_
  unfold Dev.frameIn
  rw [if_neg (not_not.mpr up), if_neg (by simp), some_]
  exact Eq.refl ((d.framed p lanes).takeFrame p f (crc && f.ok))

/-- An answer of a block whose lanes have thawed, seen from the block before. -/
theorem Dev.Answered.keeps {p : Nat} {P : RnPort} {d u e : Dev} (h : Dev.Answered p P u e) (t : Dev.Thawed d u) : d.keepsFields e [.RN_LANE_STATUS_FROZEN] :=
  fun f i hf => (Dev.rd_congr h.regs f i).trans (t.rd f i hf)

theorem frame_acts (s : State) (p seq : Nat) (pri crc elastic : Bool) (lanes : List Nat) (hp : p < 4) :
    let want := (s.dev.port p).rx pri
    let n := seq % 4096
    let nak := stripe (s.dev.width p) [replyBlock Blk.NAK pri want]
    let F := (laneFrames ((lanes.take (s.dev.width p)).map laneBlocks)).find? (fun f => f.pri == pri && f.seq == n)
    Acts (.frame p pri seq crc elastic lanes) s (fun e => (s.dev.lstate p ≠ Lst.UP → e = s.dev) ∧
      (s.dev.lstate p = Lst.UP → elastic = false → e.on .RN_PORT_STATUS_ELASTIC p = true ∧ e.lstate p = Lst.TRAIN ∧
        ⟨0x308, p, 0, s.dev.cycle⟩ ∈ e.raised) ∧
      (s.dev.lstate p = Lst.UP → elastic = true → F = none → (e.port p).rx pri = want ∧ (e.port p).gap pri = true ∧
        (e.port p).out = nak ∧ s.dev.keepsFields e [.RN_LANE_STATUS_FROZEN]) ∧
      (∀ f, s.dev.lstate p = Lst.UP → elastic = true → F = some f →
        let ok := (crc && f.ok) = true
        (¬ (ok ∧ n = want) → s.dev.keepsFields e [.RN_LANE_STATUS_FROZEN]) ∧
        (¬ ok → (e.port p).rx pri = want ∧ (e.port p).gap pri = true ∧ (e.port p).out = nak) ∧
        (ok → n = want → (pri = false ∨ s.dev.rd .RN_PORT_CTRL_ROLE p ≠ 0 ∨ pktsOf f.data = []) →
          (e.port p).rx pri = (want + 1) % 4096 ∧ (e.port p).gap pri = false ∧
            (e.port p).out = stripe (s.dev.width p) [replyBlock Blk.ACK pri want] ∧ s.dev.keepsFields e [.RN_LANE_STATUS_FROZEN]) ∧
        (∀ k, ok → n = want → pri = true → s.dev.rd .RN_PORT_CTRL_ROLE p = 0 → pktsOf f.data = [k] →
          ∃ d, e = d.delivered p k ∧ (d.port p).rx true = (want + 1) % 4096 ∧ (d.port p).gap true = false ∧ d.sites = s.dev.sites ∧
            s.dev.keepsFields d [.RN_LANE_STATUS_FROZEN]) ∧
        (ok → n ≠ want → seqFrom n want = true → (e.port p).rx pri = want ∧ (e.port p).gap pri = true ∧ (e.port p).out = nak) ∧
        (ok → n ≠ want → seqFrom n want = false → e.port p =
          { s.dev.port p with out := stripe (s.dev.width p) [replyBlock Blk.ACK pri ((want + 4095) % 4096)] }))) := by
  intro want n nak F
  refine acts_onDev rfl (decide_eq_true hp) ⟨fun down => if_pos down, fun up stretched => ?_, fun up held none_ => ?_, fun f up held some_ => ?_⟩
  · unfold Dev.frameIn
    rw [if_neg (not_not.mpr up), stretched, Bool.not_false, if_pos rfl]
    have set_ := Dev.set1_rd s.dev .RN_PORT_STATUS_ELASTIC
    have still : ((s.dev.set1 .RN_PORT_STATUS_ELASTIC p).raise 0x308 p).lstate p = Lst.UP := (set_ _ _ _).trans ((if_neg (by simp)).trans up)
    have bit : ((s.dev.set1 .RN_PORT_STATUS_ELASTIC p).raise 0x308 p).rd .RN_PORT_STATUS_ELASTIC p = 1 := (set_ _ _ _).trans (if_pos ⟨rfl, rfl⟩)
    have alarm : ⟨0x308, p, 0, s.dev.cycle⟩ ∈ ((s.dev.set1 .RN_PORT_STATUS_ELASTIC p).raise 0x308 p).raised :=
      List.mem_append_right _ (List.mem_singleton.mpr rfl)
    generalize (s.dev.set1 .RN_PORT_STATUS_ELASTIC p).raise 0x308 p = u at still bit alarm
    obtain ⟨g, spec, -⟩ := Dev.retrainAt_spec still (u.rd .RN_PORT_STATUS_RATE_NOW p)
    refine ⟨?_, spec.state, spec.raised.subset (List.mem_append_left _ alarm)⟩
    rw [Dev.on, Dev.retrainPort, spec.rd _ _ (by decide)]
    exact beq_iff_eq.mpr bit
  · rw [held, Dev.frameIn_lost up none_]
    have thawed := s.dev.framed_thawed p lanes
    have spec := (s.dev.framed p lanes).askAgain_answered p pri
    rw [thawed.port, Dev.answer1, thawed.width] at spec
    obtain ⟨rx, gap, out⟩ := (s.dev.port p).answers_spec pri want true nak
    exact ⟨by rw [spec.port]; exact rx, by rw [spec.port]; exact gap, by rw [spec.port]; exact out, spec.keeps thawed⟩
  · rw [held, Dev.frameIn_taken up some_]
    obtain ⟨hpri, hseq⟩ := Dev.frameOf_some some_
    have thawed := s.dev.framed_thawed p lanes
    obtain ⟨bad, next, ahead, again⟩ := (s.dev.framed p lanes).takeFrame_spec p f (crc && f.ok)
    have sites : (s.dev.framed p lanes).sites = s.dev.sites := (congrArg Dev.sites thawed.records :)
    have role := thawed.rd .RN_PORT_CTRL_ROLE p (by decide)
    simp only [thawed.port, Dev.answer1, thawed.width, hpri, hseq, role] at bad next ahead again
    generalize (s.dev.framed p lanes).takeFrame p f (crc && f.ok) = e at bad next ahead again
    intro ok
    have nakked (h : Dev.Answered p ((s.dev.port p).answers pri want true nak) (s.dev.framed p lanes) e) :
        (e.port p).rx pri = want ∧ (e.port p).gap pri = true ∧ (e.port p).out = nak := by
      rw [h.port]
      exact (s.dev.port p).answers_spec pri want true nak
    obtain ⟨rx, gap, out⟩ := (s.dev.port p).answers_spec pri ((want + 1) % 4096) false (stripe (s.dev.width p) [replyBlock Blk.ACK pri want])
    refine ⟨fun other => ?_, fun h => nakked (bad (Bool.eq_false_iff.mpr h)), fun h here plain => ?_, fun k h here class_ zero one => ?_,
      fun h other from_ => nakked (ahead h other from_), fun h other before => (again h other before).port⟩
    · by_cases h : (crc && f.ok) = true
      · have other : n ≠ want := fun k => other ⟨h, k⟩
        cases from_ : seqFrom n want with
        | true => exact (ahead h other from_).keeps thawed
        | false => exact (again h other from_).keeps thawed
      · exact (bad (Bool.eq_false_iff.mpr h)).keeps thawed
    · obtain ⟨u, spec, he⟩ := next h here
      have same : e = u := by
        rw [he]
        split
        next deliver =>
          obtain ⟨class_, zero⟩ := deliver
          rw [(plain.resolve_left (by simp [class_])).resolve_left (not_not.mpr zero)]
          rfl
        · rfl
      subst same
      exact ⟨by rw [spec.port]; exact rx, by rw [spec.port]; exact gap, by rw [spec.port]; exact out, spec.keeps thawed⟩
    · obtain ⟨u, spec, he⟩ := next h here
      rw [if_pos ⟨class_, zero⟩, one] at he
      exact ⟨u, he, by rw [spec.port]; exact class_ ▸ rx, by rw [spec.port]; exact class_ ▸ gap, spec.sites.trans sites, spec.keeps thawed⟩

end Sys2Proof.Machine
end

section
/-!
PROOF. ACK, NAK and the replay timeout (R373).
-/
namespace Sys2Proof.Machine

theorem RnPort.setTx_tx (P : RnPort) (pri : Bool) (l : List TxFrame) : (P.setTx pri l).tx pri = l ∧ (P.setTx pri l).tx (!pri) = P.tx (!pri) := by
  cases pri <;> exact ⟨rfl, rfl⟩

theorem Dev.thawOne_keeps (d : Dev) (p : Nat) : d.keepsFields (d.thawOne p) [.RN_LANE_STATUS_FROZEN] ∧ (d.thawOne p).ports = d.ports ∧
    (d.thawOne p).raised = d.raised ∧ (d.thawOne p).now = d.now :=
  ⟨fun f i hf => Dev.wr_rd_ne d .RN_LANE_STATUS_FROZEN f (4 * p + d.openVal 2 % max 1 (d.width p)) i 0 (by simpa using hf), rfl, rfl, rfl⟩

theorem ack_acts (s : State) (p seq : Nat) (pri : Bool) (hp : p < 4) (up : s.dev.lstate p = Lst.UP) (plain : pri = true ∨ s.dev.twinPort ≠ p) :
    Acts (.ack p pri seq) s (fun e => (e.port p).tx pri = ((s.dev.port p).tx pri).filter (fun f => !seqFrom (seq % 4096) f.seq) ∧
      (e.port p).tx (!pri) = (s.dev.port p).tx (!pri) ∧ (∀ q, q ≠ p → e.port q = s.dev.port q) ∧ s.dev.keepsFields e [.RN_LANE_STATUS_FROZEN]) := by
  refine acts_onDev rfl (decide_eq_true hp) ?_
  unfold Dev.ackIn
  rw [if_neg (not_not.mpr up)]
  dsimp only
  have alone : ¬ ((!pri) = true ∧ s.dev.twinPort = p ∧ s.dev.rd .RN_PORT_CTRL_ROLE p = 1) := by
    rintro ⟨normal, twin, -⟩
    exact plain.elim (fun h => by simp [h] at normal) (fun h => h twin)
  rw [if_neg alone]
  obtain ⟨rd, ports, -, -⟩ := s.dev.thawOne_keeps p
  generalize s.dev.thawOne p = u at rd ports
  have port (q : Nat) : u.port q = s.dev.port q := by rw [Dev.port, ports, Dev.port]
  have own : (u.upPort p (fun P => P.setTx pri ((P.tx pri).filter (fun f => !seqFrom (seq % 4096) f.seq)))).port p = _ :=
    (Dev.upPort_port ..).trans (if_pos rfl)
  obtain ⟨tx, other⟩ := (u.port p).setTx_tx pri (((u.port p).tx pri).filter (fun f => !seqFrom (seq % 4096) f.seq))
  exact ⟨by rw [own, tx, port], by rw [own, other, port], fun q hq => ((Dev.upPort_port ..).trans (if_neg hq)).trans (port q), rd⟩

/-! ### Frames sent again -/

/-- The frames that `sel` names count one more send. -/
def resent (now : Nat) (sel : TxFrame → Bool) (l : List TxFrame) : List TxFrame := l.map (fun f => if sel f then { f with at_ := now, sent := f.sent + 1 } else f)

/-- What a replay of the frames that `sel` names leaves of the block. -/
structure Dev.Replayed (p : Nat) (pri : Bool) (sel : TxFrame → Bool) (d e : Dev) : Prop where
  lost : ((d.port p).tx pri).any (fun f => sel f && decide (8 ≤ f.sent)) = true → e.lstate p = Lst.TRAIN ∧ ⟨0x307, p, 0, d.cycle⟩ ∈ e.raised
  again : ((d.port p).tx pri).any (fun f => sel f && decide (8 ≤ f.sent)) = false → e.raised = d.raised ++ [⟨0x300, p, 0, d.cycle⟩] ∧
    (e.port p).tx pri = resent d.now sel ((d.port p).tx pri) ∧ (e.port p).tx (!pri) = (d.port p).tx (!pri) ∧
    e.rd .RN_PORT_STATUS_REPLAYS p = min (d.rd .RN_PORT_STATUS_REPLAYS p + (((d.port p).tx pri).filter sel).length) (2 ^ 16 - 1) ∧
    d.keepsFields e [.RN_PORT_STATUS_REPLAYS]

/-- The record of a port whose class `pri` holds `l`, which sends `blocks` for it where it is the PRIORITY class. -/
def RnPort.resends (P : RnPort) (pri : Bool) (l : List TxFrame) (blocks : List (List Nat)) : RnPort :=
  if pri then { P.setTx pri l with out := blocks } else P.setTx pri l

theorem RnPort.resends_tx (P : RnPort) (pri : Bool) (l : List TxFrame) (o : List (List Nat)) :
    (P.resends pri l o).tx pri = l ∧ (P.resends pri l o).tx (!pri) = P.tx (!pri) := by
  cases pri <;> exact ⟨rfl, rfl⟩

/-- The frames that `sel` names go again, counted. -/
def Dev.resendsCounted (d : Dev) (p : Nat) (pri : Bool) (sel : TxFrame → Bool) (o : List (List Nat)) : Dev :=
  (((d.upPort p (fun P => P.resends pri (resent d.now sel ((d.port p).tx pri)) o)).count .RN_PORT_STATUS_REPLAYS p (((d.port p).tx pri).filter sel).length).tally 0x51 p
    (((d.port p).tx pri).filter sel).length).raise 0x300 p

theorem Dev.replay_eq {d : Dev} {p : Nat} {pri : Bool} {sel : TxFrame → Bool} (sends : d.sends p = true) (some_ : ((d.port p).tx pri).any sel = true) :
    ∃ o, d.replay p pri sel = if ((d.port p).tx pri).any (fun f => sel f && decide (8 ≤ f.sent)) = true then (d.raise 0x307 p).retrainPort p
      else d.resendsCounted p pri sel o := by
  unfold Dev.replay
  dsimp only
  rw [if_neg (by rw [sends, some_]; decide)]
  exact ⟨_, rfl⟩

theorem Dev.resendsCounted_spec (d : Dev) (p : Nat) (pri : Bool) (sel : TxFrame → Bool) (o : List (List Nat)) :
    (d.resendsCounted p pri sel o).raised = d.raised ++ [⟨0x300, p, 0, d.cycle⟩] ∧
      (d.resendsCounted p pri sel o).port p = (d.port p).resends pri (resent d.now sel ((d.port p).tx pri)) o ∧
      ∀ f i, (d.resendsCounted p pri sel o).rd f i = if f = .RN_PORT_STATUS_REPLAYS ∧ i = p then
        min (d.rd .RN_PORT_STATUS_REPLAYS p + (((d.port p).tx pri).filter sel).length) (2 ^ 16 - 1) else d.rd f i := by
  unfold Dev.resendsCounted
  generalize (((d.port p).tx pri).filter sel).length = n
  have own : (d.upPort p (fun P => P.resends pri (resent d.now sel ((d.port p).tx pri)) o)).port p = _ := (Dev.upPort_port ..).trans (if_pos rfl)
  have same : (d.upPort p (fun P => P.resends pri (resent d.now sel ((d.port p).tx pri)) o)).raised = d.raised ∧
    (d.upPort p (fun P => P.resends pri (resent d.now sel ((d.port p).tx pri)) o)).regs = d.regs ∧
    (d.upPort p (fun P => P.resends pri (resent d.now sel ((d.port p).tx pri)) o)).cycle = d.cycle := ⟨rfl, rfl, rfl⟩
  generalize d.upPort p _ = u at own same
  obtain ⟨raised, regs, cycle⟩ := same
  have counted (f : Fld) (i : Nat) : (u.count .RN_PORT_STATUS_REPLAYS p n).rd f i = if f = .RN_PORT_STATUS_REPLAYS ∧ i = p then
      min (d.rd .RN_PORT_STATUS_REPLAYS p + n) (2 ^ 16 - 1) else d.rd f i := by
    have fits : min (d.rd .RN_PORT_STATUS_REPLAYS p + n) (2 ^ 16 - 1) % 2 ^ 16 = min (d.rd .RN_PORT_STATUS_REPLAYS p + n) (2 ^ 16 - 1) :=
      Nat.mod_eq_of_lt (Nat.lt_of_le_of_lt (Nat.min_le_right ..) (by decide))
    rw [Dev.count, Dev.wr_rd, Dev.rd_congr regs, Dev.rd_congr regs]
    change (if _ then min (d.rd .RN_PORT_STATUS_REPLAYS p + n) (2 ^ 16 - 1) % 2 ^ 16 else _) = _
    rw [fits]
  have units : (u.count .RN_PORT_STATUS_REPLAYS p n).port p = u.port p ∧ (u.count .RN_PORT_STATUS_REPLAYS p n).raised = u.raised ∧
    (u.count .RN_PORT_STATUS_REPLAYS p n).cycle = u.cycle := ⟨rfl, rfl, rfl⟩
  generalize u.count .RN_PORT_STATUS_REPLAYS p n = v at counted units
  obtain ⟨port, raised', cycle'⟩ := units
  have last : (v.tally 0x51 p n).regs = v.regs ∧ (v.tally 0x51 p n).port p = v.port p ∧ (v.tally 0x51 p n).raised = v.raised ∧ (v.tally 0x51 p n).cycle = v.cycle := by
    unfold Dev.tally
    split <;> exact ⟨rfl, rfl, rfl, rfl⟩
  generalize v.tally 0x51 p n = w at last
  obtain ⟨regs3, port3, raised3, cycle3⟩ := last
  refine ⟨?_, ?_, fun f i => ?_⟩
  · rw [Dev.raise_raised, raised3, raised', raised, cycle3, cycle', cycle]
  · exact (port3.trans port).trans own
  · exact (Dev.rd_congr regs3 f i).trans (counted f i)

theorem Dev.replay_spec {d : Dev} {p : Nat} {pri : Bool} {sel : TxFrame → Bool} (sends : d.sends p = true) (some_ : ((d.port p).tx pri).any sel = true) :
    Dev.Replayed p pri sel d (d.replay p pri sel) := by
  obtain ⟨o, he⟩ := Dev.replay_eq sends some_
  rw [he]
  have up : d.lstate p = Lst.UP := by
    simp only [Dev.sends, Bool.and_eq_true, beq_iff_eq] at sends
    exact sends.1
  split
  next lost =>
    have still : (d.raise 0x307 p).lstate p = Lst.UP := up
    have alarm : ⟨0x307, p, 0, d.cycle⟩ ∈ (d.raise 0x307 p).raised := List.mem_append_right _ (List.mem_singleton.mpr rfl)
    generalize d.raise 0x307 p = u at still alarm
    obtain ⟨f, spec, -⟩ := Dev.retrainAt_spec still (u.rd .RN_PORT_STATUS_RATE_NOW p)
    exact ⟨fun _ => ⟨spec.state, spec.raised.subset (List.mem_append_left _ alarm)⟩, fun h => absurd (lost.symm.trans h) (by decide)⟩
  next timely =>
    obtain ⟨raised, port, rd⟩ := d.resendsCounted_spec p pri sel o
    obtain ⟨tx, other⟩ := (d.port p).resends_tx pri (resent d.now sel ((d.port p).tx pri)) o
    exact ⟨fun h => absurd h timely, fun _ => ⟨raised, by rw [port, tx], by rw [port, other], (rd _ _).trans (if_pos ⟨rfl, rfl⟩),
      fun f i hf => (rd f i).trans (if_neg fun h => hf (List.mem_singleton.mpr h.1))⟩⟩

theorem Dev.replay_none {d : Dev} {p : Nat} {pri : Bool} {sel : TxFrame → Bool} (none_ : ((d.port p).tx pri).any sel = false) : d.replay p pri sel = d := by
  unfold Dev.replay
  exact if_pos (by rw [none_]; simp)

theorem nak_acts (s : State) (p seq : Nat) (pri : Bool) (hp : p < 4) (up : s.dev.lstate p = Lst.UP) (sends : s.dev.sends p = true) :
    let l := (s.dev.port p).tx pri
    let sel := fun (f : TxFrame) => seqFrom f.seq (seq % 4096)
    l.any sel = true →
    Acts (.nak p pri seq) s (fun e =>
      (l.any (fun f => sel f && decide (8 ≤ f.sent)) = true → e.lstate p = Lst.TRAIN ∧ ⟨0x307, p, 0, s.dev.cycle⟩ ∈ e.raised) ∧
      (l.any (fun f => sel f && decide (8 ≤ f.sent)) = false → e.raised = s.dev.raised ++ [⟨0x300, p, 0, s.dev.cycle⟩] ∧
        (e.port p).tx pri = l.map (fun f => if sel f then { f with at_ := s.dev.now, sent := f.sent + 1 } else f) ∧
        e.rd .RN_PORT_STATUS_REPLAYS p = min (s.dev.rd .RN_PORT_STATUS_REPLAYS p + (l.filter sel).length) (2 ^ 16 - 1) ∧
        s.dev.keepsFields e [.RN_PORT_STATUS_REPLAYS, .RN_LANE_STATUS_FROZEN])) := by
  intro l sel some_
  refine acts_onDev rfl (decide_eq_true hp) ?_
  rw [if_pos up]
  obtain ⟨rd, ports, raised, now⟩ := s.dev.thawOne_keeps p
  generalize s.dev.thawOne p = u at rd ports raised now
  have port : u.port p = s.dev.port p := by rw [Dev.port, ports, Dev.port]
  have cycle : u.cycle = s.dev.cycle := by rw [Dev.cycle, now, Dev.cycle]
  have sends' : u.sends p = true := by
    simp only [Dev.sends, Dev.on, rd _ _ (show Fld.RN_PORT_STATUS_LSTATE ∉ _ by decide), rd _ _ (show Fld.FC_STATE_SAFE ∉ _ by decide)]
    exact sends
  have spec := Dev.replay_spec (pri := pri) (sel := sel) sends' (by rw [port]; exact some_)
  obtain ⟨lost, again⟩ := spec
  rw [port, cycle] at lost again
  rw [raised, now, rd _ _ (by decide)] at again
  refine ⟨lost, fun h => ?_⟩
  obtain ⟨alarm, tx, -, count, keeps⟩ := again h
  exact ⟨alarm, tx, count, fun f i hf => (keeps f i fun m => hf (List.mem_cons.mpr (.inl (List.mem_singleton.mp m)))).trans (rd f i fun m => hf (List.mem_cons_of_mem _ m))⟩

theorem replayTimeout_acts (s : State) (p : Nat) (hp : p < 4) (sends : s.dev.sends p = true) :
    let late := fun (f : TxFrame) => decide (f.at_ + us 8 ≤ s.dev.now)
    (s.dev.port p).txN.any late = false → (s.dev.port p).txP.any (fun f => late f && decide (8 ≤ f.sent)) = false →
    Acts (.replayTimeout p) s (fun e => ((s.dev.port p).txP.any late = false → e = s.dev) ∧
      ((s.dev.port p).txP.any late = true → e.raised = s.dev.raised ++ [⟨0x300, p, 0, s.dev.cycle⟩] ∧
        (e.port p).txP = (s.dev.port p).txP.map (fun f => if late f then { f with at_ := s.dev.now, sent := f.sent + 1 } else f))) := by
  intro late normal few
  refine acts_onDev rfl (decide_eq_true hp) ⟨fun none_ => ?_, fun some_ => ?_⟩
  · have first : s.dev.replay p true late = s.dev := Dev.replay_none none_
    have second : s.dev.replay p false late = s.dev := Dev.replay_none normal
    exact (congrArg (fun d : Dev => d.replay p false late) first).trans second
  · have spec := Dev.replay_spec (pri := true) (sel := late) sends some_
    obtain ⟨alarm, tx, other, -, -⟩ := spec.again few
    have second : (s.dev.replay p true late).replay p false late = s.dev.replay p true late :=
      Dev.replay_none (by rw [show false = !true from rfl, other]; exact normal)
    change ((s.dev.replay p true late).replay p false late).raised = _ ∧ (((s.dev.replay p true late).replay p false late).port p).txP = _
    rw [second]
    exact ⟨alarm, tx⟩

end Sys2Proof.Machine
end

section
/-!
PROOF. The time exchange of Rein ports (R380, R381).
-/
namespace Sys2Proof.Machine

/-- An exchange rejected: the count and the alarm. -/
theorem Dev.exReject_spec (d : Dev) (p : Nat) : d.keepsBut (d.exReject p) [(.RN_PORT_PEER_REJECTS, p)] ∧
    (d.exReject p).raised = d.raised ++ [⟨0x306, p, 0, d.cycle⟩] ∧ (∀ q, (d.exReject p).port q = if q = p then { d.port p with t1 := none } else d.port q) ∧
    (d.exReject p).width p = d.width p := by
  have keeps : d.keepsBut (d.exReject p) [(.RN_PORT_PEER_REJECTS, p)] := d.wr_keepsBut _ p (min (d.rd .RN_PORT_PEER_REJECTS p + 1) (2 ^ 16 - 1))
  refine ⟨keeps, rfl, fun q => Dev.upPort_port .., Dev.width_congr (L := [.RN_PORT_PEER_REJECTS]) (fun f i hf => keeps f i fun m => hf ?_) (by decide) p⟩
  exact List.mem_singleton.mpr (Prod.mk.inj (List.mem_singleton.mp m)).1

theorem timeExchangeStart_acts (s : State) (p : Nat) (hp : p < 4) (up : s.dev.lstate p = Lst.UP) (upstream : s.dev.on .RN_PORT_CTRL_UPSTREAM p = true)
    (due : (s.dev.port p).exAt = none ∨ ∃ t, (s.dev.port p).exAt = some t ∧ t + us 16 ≤ s.dev.now) :
    Acts (.timeExchangeStart p) s (fun e => (e.port p).ex = ((s.dev.port p).ex + 1) % 256 ∧ (e.port p).t1 = some s.dev.stamp16 ∧
      (e.port p).exAt = some s.dev.now ∧ (∀ q, q ≠ p → e.port q = s.dev.port q) ∧ s.dev.keepsBut e [(.RN_PORT_PEER_REJECTS, p)] ∧
      ((s.dev.port p).t1 = none → e.raised = s.dev.raised ∧ s.dev.keepsBut e []) ∧
      ((s.dev.port p).t1.isSome = true → e.raised = s.dev.raised ++ [⟨0x306, p, 0, s.dev.cycle⟩])) := by
  refine acts_onDev rfl (decide_eq_true hp) ?_
  unfold Dev.exStart
  extract_lets due_
  have due_ : due_ = true := by
    unfold due_
    rcases due with h | ⟨t, h, past⟩
    · rw [h]
    · rw [h]
      exact decide_eq_true past
  rw [if_pos ⟨up, upstream, due_⟩]
  obtain ⟨keeps, alarm, port, -⟩ := s.dev.exReject_spec p
  have open_ (u : Dev) (f : RnPort → RnPort) (q : Nat) : (u.upPort p f).port q = if q = p then f (u.port p) else u.port q := Dev.upPort_port ..
  cases ht : (s.dev.port p).t1 with
  | some t =>
    rw [if_pos (Option.isSome_some : (some t).isSome = true)]
    generalize s.dev.exReject p = u at keeps alarm port
    have own : u.port p = { s.dev.port p with t1 := none } := (port p).trans (if_pos rfl)
    refine ⟨?_, ?_, ?_, fun q hq => ?_, keeps, nofun, fun _ => alarm⟩
    · rw [open_, if_pos rfl, own]
    · rw [open_, if_pos rfl]
    · rw [open_, if_pos rfl]
    · rw [open_, if_neg hq, port, if_neg hq]
  | none =>
    rw [if_neg (by simp)]
    refine ⟨?_, ?_, ?_, fun q hq => ?_, fun _ _ _ => rfl, fun _ => ⟨rfl, fun _ _ _ => rfl⟩, nofun⟩
    · rw [open_, if_pos rfl]
    · rw [open_, if_pos rfl]
    · rw [open_, if_pos rfl]
    · rw [open_, if_neg hq]

theorem treq_acts (s : State) (p n : Nat) (hp : p < 4) (up : s.dev.lstate p = Lst.UP) :
    Acts (.treq p n) s (fun e => (∃ t3, s.dev.stamp16 ≤ t3 ∧ t3 % 16 = 0 ∧ (e.port p).answered = some (n % 256, s.dev.stamp16, t3)) ∧
      (∀ q, q ≠ p → e.port q = s.dev.port q) ∧ s.dev.keepsBut e [(.RN_LANE_STATUS_FROZEN, 4 * p)]) := by
  refine acts_onDev rfl (decide_eq_true hp) ?_
  unfold Dev.treqIn
  rw [if_neg (not_not.mpr up)]
  dsimp only
  have keeps := s.dev.thaw_keeps (4 * p)
  have port (q : Nat) : (s.dev.thaw (4 * p)).port q = s.dev.port q := rfl
  generalize s.dev.thaw (4 * p) = u at keeps port
  have open_ (f : RnPort → RnPort) (q : Nat) : (u.upPort p f).took.port q = if q = p then f (u.port p) else u.port q := Dev.upPort_port u p q f
  refine ⟨⟨s.dev.stamp16 + u.openVal 32 / 16 * 16, Nat.le_add_right .., ?_, ?_⟩, fun q hq => ?_, keeps⟩
  · rw [Dev.stamp16]
    omega
  · rw [open_, if_pos rfl]
  · rw [open_, if_neg hq, port]

/-! ### The end of an exchange -/

/-- An accepted exchange on a port that does not serve the servo. -/
theorem Dev.exAccept_spec {d : Dev} (mode : d.rd .BR_CTRL_MODE 0 ≠ 2) (p : Nat) (rt asym : Int) (err : Rat) :
    ((d.exAccept p rt asym err).port p = { d.port p with t1 := none, rts := (rt :: (d.port p).rts).take 16, accepts := (d.port p).accepts + 1 }) ∧
      (d.exAccept p rt asym err).rd .RN_PORT_TIME_THETA p = unsgn 32 (clampInt (-(2 ^ 31)) (2 ^ 31 - 1) (ratRound err)) % 2 ^ 32 ∧
      (d.exAccept p rt asym err).rd .RN_PORT_PEER_ASYM p = unsgn 32 asym % 2 ^ 32 ∧
      d.keepsBut (d.exAccept p rt asym err) [(.RN_PORT_TIME_THETA, p), (.RN_PORT_TIME_DELAY, p), (.RN_PORT_PEER_ASYM, p)] := by
  unfold Dev.exAccept
  dsimp only
  rw [if_neg fun h => mode h.1]
  have port : (d.upPort p (fun P => { P with t1 := none, rts := (rt :: (d.port p).rts).take 16, accepts := P.accepts + 1 })).port p = _ :=
    (Dev.upPort_port ..).trans (if_pos rfl)
  have regs : (d.upPort p (fun P => { P with t1 := none, rts := (rt :: (d.port p).rts).take 16, accepts := P.accepts + 1 })).regs = d.regs := rfl
  generalize d.upPort p _ = u at port regs
  generalize (ratRound (meanOf _ / 2)).toNat = delay
  have written (f : Fld) (i : Nat) : (((u.wr .RN_PORT_TIME_THETA p (unsgn 32 (clampInt (-(2 ^ 31)) (2 ^ 31 - 1) (ratRound err)))).wr .RN_PORT_TIME_DELAY p delay).wr
      .RN_PORT_PEER_ASYM p (unsgn 32 asym)).rd f i = if f = .RN_PORT_PEER_ASYM ∧ i = p then unsgn 32 asym % 2 ^ 32
        else if f = .RN_PORT_TIME_DELAY ∧ i = p then delay % 2 ^ 32
        else if f = .RN_PORT_TIME_THETA ∧ i = p then unsgn 32 (clampInt (-(2 ^ 31)) (2 ^ 31 - 1) (ratRound err)) % 2 ^ 32 else d.rd f i := by
    rw [Dev.wr_rd, Dev.wr_rd, Dev.wr_rd, Dev.rd_congr regs]
    rfl
  refine ⟨port, (written _ _).trans (by simp), (written _ _).trans (if_pos ⟨rfl, rfl⟩), fun f i hf => ?_⟩
  simp only [List.mem_cons, Prod.mk.injEq, List.not_mem_nil, or_false, not_or] at hf
  obtain ⟨theta, delay', asym'⟩ := hf
  rw [written, if_neg asym', if_neg delay', if_neg theta]

/-- What an exchange that is open on the port decides, `u` being the block once its lane has thawed. -/
def Dev.exJudged (u : Dev) (p t1 t2 turn dly t4 : Nat) (intact : Bool) (P : RnPort) : Dev :=
  if !intact then u.exReject p
  else
    let asym : Int := ((bits dly 26 26 : Int) + u.rnDelay p 1) - (u.rnDelay p 0 + (bits dly 0 26 : Int)) + sgn 16 (u.rd .RN_PORT_TIMECAL_BOARD_ASYM p)
    let rt : Int := ((t4 : Int) - t1) - turn
    let err : Rat := ((((t1 : Int) - t2) + ((t4 : Int) - (t2 + turn : Nat)) - asym : Int) : Rat) / 2
    let off := (rt : Rat) - meanOf P.rts
    if 16 ≤ P.accepts ∧ ((ns 2 : Rat) < off ∨ off < -(ns 2 : Rat)) then u.exReject p else u.exAccept p rt asym err

theorem Dev.exDone_eq {d : Dev} {p n t1 : Nat} (up : d.lstate p = Lst.UP) (same : n = (d.port p).ex) (ht : (d.port p).t1 = some t1) (t2 turn dly t4 : Nat) (intact : Bool) :
    d.exDone p n t2 turn dly t4 intact = (d.thaw (4 * p)).exJudged p t1 t2 turn dly (t4 / 16 * 16) intact (d.port p) := by
  unfold Dev.exDone
  dsimp only
  rw [if_neg (not_or.mpr ⟨not_not.mpr up, not_not.mpr same⟩), ht]
  exact Eq.refl ((d.thaw (4 * p)).exJudged p t1 t2 turn dly (t4 / 16 * 16) intact (d.port p))

theorem Dev.rnDelay_thaw (d : Dev) (l p dir : Nat) : (d.thaw l).rnDelay p dir = d.rnDelay p dir := by
  have band : (d.thaw l).rd .KL_BAND_REGION 5 = d.rd .KL_BAND_REGION 5 := Dev.wr_rd_ne d .RN_LANE_STATUS_FROZEN _ _ _ _ (by decide)
  have cal : (d.thaw l).calUnit 3 p = d.calUnit 3 p := rfl
  unfold Dev.rnDelay
  rw [band, cal]

theorem timeExchangeComplete_acts (s : State) (p n t1 t2 turn dly tin : Nat) (intact : Bool) (hp : p < 4) (up : s.dev.lstate p = Lst.UP)
    (same : n % 256 = (s.dev.port p).ex) (ht : (s.dev.port p).t1 = some t1) (few : intact = false ∨ (s.dev.port p).accepts < 16)
    (mode : s.dev.rd .BR_CTRL_MODE 0 ≠ 2) :
    let t4 := tin / 16 * 16
    let rt : Int := ((t4 : Int) - t1) - turn
    let asym : Int := ((bits dly 26 26 : Int) + s.dev.rnDelay p 1) - (s.dev.rnDelay p 0 + (bits dly 0 26 : Int)) + sgn 16 (s.dev.rd .RN_PORT_TIMECAL_BOARD_ASYM p)
    let err : Rat := ((((t1 : Int) - t2) + ((t4 : Int) - (t2 + turn : Nat)) - asym : Int) : Rat) / 2
    Acts (.timeExchangeComplete p n t2 turn dly tin intact) s (fun e => (e.port p).t1 = none ∧
      (intact = false → e.raised = s.dev.raised ++ [⟨0x306, p, 0, s.dev.cycle⟩] ∧ s.dev.keepsBut e [(.RN_PORT_PEER_REJECTS, p), (.RN_LANE_STATUS_FROZEN, 4 * p)]) ∧
      (intact = true → (e.port p).rts = (rt :: (s.dev.port p).rts).take 16 ∧ (e.port p).accepts = (s.dev.port p).accepts + 1 ∧
        e.rd .RN_PORT_TIME_THETA p = unsgn 32 (clampInt (-(2 ^ 31)) (2 ^ 31 - 1) (ratRound err)) % 2 ^ 32 ∧
        e.rd .RN_PORT_PEER_ASYM p = unsgn 32 asym % 2 ^ 32 ∧
        s.dev.keepsBut e [(.RN_PORT_TIME_THETA, p), (.RN_PORT_TIME_DELAY, p), (.RN_PORT_PEER_ASYM, p), (.RN_LANE_STATUS_FROZEN, 4 * p)])) := by
  intro t4 rt asym err
  refine acts_onDev rfl (decide_eq_true hp) ?_
  rw [Dev.exDone_eq up same ht]
  have keeps := s.dev.thaw_keeps (4 * p)
  have port (q : Nat) : (s.dev.thaw (4 * p)).port q = s.dev.port q := rfl
  have units : (s.dev.thaw (4 * p)).raised = s.dev.raised ∧ (s.dev.thaw (4 * p)).cycle = s.dev.cycle := ⟨rfl, rfl⟩
  have delay := s.dev.rnDelay_thaw (4 * p) p
  generalize s.dev.thaw (4 * p) = u at keeps port units delay
  have board : u.rd .RN_PORT_TIMECAL_BOARD_ASYM p = s.dev.rd .RN_PORT_TIMECAL_BOARD_ASYM p := keeps _ _ (by simp)
  obtain ⟨raised, cycle⟩ := units
  cases intact with
  | false =>
    obtain ⟨rejects, alarm, ports, -⟩ := u.exReject_spec p
    change ((u.exReject p).port p).t1 = none ∧ (false = false → (u.exReject p).raised = _ ∧ s.dev.keepsBut (u.exReject p) _) ∧ (false = true → _)
    refine ⟨by rw [ports, if_pos rfl], fun _ => ⟨by rw [alarm, raised, cycle], fun f i hf => ?_⟩, nofun⟩
    simp only [List.mem_cons, List.not_mem_nil, or_false, not_or] at hf
    rw [rejects f i (by simpa using hf.1), keeps f i (by simpa using hf.2)]
  | true =>
    have spec := Dev.exAccept_spec (d := u) (by rw [keeps _ _ (by simp)]; exact mode) p rt asym err
    have judged : u.exJudged p t1 t2 turn dly (tin / 16 * 16) true (s.dev.port p) = u.exAccept p rt asym err := by
      unfold Dev.exJudged
      dsimp only
      rw [if_neg (by simp), if_neg fun h => absurd h.1 (Nat.not_le.mpr (few.resolve_left (by simp))), delay, delay, board]
    rw [judged]
    obtain ⟨own, theta, asym', rest⟩ := spec
    refine ⟨by rw [own], nofun, fun _ => ⟨by rw [own, port], by rw [own, port], theta, asym', fun f i hf => ?_⟩⟩
    simp only [List.mem_cons, List.not_mem_nil, or_false, not_or] at hf
    rw [rest f i (by simp [hf]), keeps f i (by simpa using hf.2.2.2)]

end Sys2Proof.Machine
end

section
/-!
PROOF. Span packets (R61, R64, R280, R385 to R387).
-/
namespace Sys2Proof.Machine

/-! ### A packet is noted and forwarded -/

/-- Port `p` notes packet `k` and forwards it, unless it has been seen before. -/
def Dev.pktNoted (d : Dev) (p : Nat) (k : SpanPkt) : Dev :=
  if d.seenPkt k then d.count .RN_PORT_COUNT_DUP p 1
  else if d.spanPort p then (d.notePkt p k).sendSpan k (some p) else d.notePkt p k

/-- What the note of a packet leaves of the block. -/
structure Dev.PktNoted (d e : Dev) : Prop where
  rd : d.keepsFields e [.RN_PORT_COUNT_DUP, .RN_PORT_COUNT_FWD]
  sites : e.sites = d.sites
  slots : e.slots = d.slots
  active : e.active = d.active
  now : e.now = d.now
  bed : e.bed = d.bed

theorem Dev.pktNoted_spec (d : Dev) (p : Nat) (k : SpanPkt) : Dev.PktNoted d (d.pktNoted p k) := by
  unfold Dev.pktNoted
  split
  · exact ⟨Dev.keepsFields_mono (d.wr_keepsFields .RN_PORT_COUNT_DUP p _) (by decide), rfl, rfl, rfl, rfl, rfl⟩
  · have noted : Dev.PktNoted d (d.notePkt p k) := ⟨fun _ _ _ => rfl, rfl, rfl, rfl, rfl, rfl⟩
    generalize d.notePkt p k = u at noted
    split
    · have quiet : (u.sendSpan k (some p)).quiet = u.quiet := Dev.foldl_quiet _ _ u fun d q => d.sendOn_quiet q k
      have sites : (u.sendSpan k (some p)).sites = u.sites := foldl_keeps Dev.sites _ _ u fun _ _ _ => rfl
      generalize u.sendSpan k (some p) = v at quiet sites
      obtain ⟨-, -, -, slots, -, active, now, bedOff⟩ := Dev.units_of_quiet quiet
      have rd := Dev.keepsFields_of_quiet quiet
      exact ⟨fun f i hf => (rd f i fun h => hf (List.mem_cons_of_mem _ h)).trans (noted.rd f i hf), sites.trans noted.sites, slots.trans noted.slots,
        active.trans noted.active, now.trans noted.now, by rw [← noted.bed, Dev.bed, now, bedOff, Dev.bed]⟩
    · exact noted

theorem Dev.PktNoted.spanWide {d e : Dev} (h : Dev.PktNoted d e) (n c : Nat) : e.spanWide n c = d.spanWide n c := by
  simp only [Dev.spanWide, Dev.inSpan, Dev.act, h.active, h.rd _ _ (show Fld.SITE_CTRL_SPAN_ROLE ∉ _ by decide)]

theorem Dev.PktNoted.site {d e : Dev} (h : Dev.PktNoted d e) (n : Nat) : e.site n = d.site n := Dev.site_congr h.sites n

theorem Dev.takePkt_eq (d : Dev) (p : Nat) (k : SpanPkt) : d.takePkt p k =
    if k.kind = .trig then
      (if d.trigTagged k.tag (k.arg % 16) = [] then (d.pktNoted p k).noMatch p else (d.pktNoted p k).trigArrives k.tag (k.arg % 16) (d.fullTime k.t))
    else if d.tagged k.tag = [] then (d.pktNoted p k).noMatch p else (d.tagged k.tag).foldl (fun e n => e.pktSite k (d.fullTime k.t) n) (d.pktNoted p k) := by
  unfold Dev.takePkt Dev.pktNoted
  dsimp only

/-- A packet that is not a trigger and that one site's tag matches acts there. -/
theorem Dev.delivered_one {d : Dev} {p n : Nat} {k : SpanPkt} (spanIn : d.spanIn p = true) (kind : k.kind ≠ .trig) (tagged : d.tagged k.tag = [n]) :
    d.delivered p k = (d.pktNoted p k).pktSite k (d.fullTime k.t) n := by
  rw [Dev.delivered, if_pos spanIn, Dev.takePkt_eq, if_neg kind, tagged, if_neg (List.cons_ne_nil n []), List.foldl_cons, List.foldl_nil]

/-! ### What a packet does in time -/

/-- A packet of origin time `t` comes in time at site `n`. -/
def Dev.inTime (d : Dev) (t n : Nat) : Prop := d.bed + ns 20 ≤ t + ns (d.rd .SITE_SPAN_LAT_LAT n)

theorem Dev.PktNoted.inTime {d e : Dev} (h : Dev.PktNoted d e) {t n : Nat} (timely : d.inTime t n) : ¬ (t + ns (e.rd .SITE_SPAN_LAT_LAT n) < e.bed + ns 20) := by
  rw [h.rd _ _ (by decide), h.bed]
  exact Nat.not_lt.mpr timely

theorem condArg (c : Nat) (v : Bool) : (c % 32 + 32 * b2n v) % 32 = c % 32 ∧ bitAt (c % 32 + 32 * b2n v) 5 = v := by
  have small : c % 32 < 32 := Nat.mod_lt _ (by decide)
  cases v with
  | false => exact ⟨by simp [b2n], by simp [bitAt, b2n, Nat.div_eq_of_lt small]⟩
  | true =>
    have high : (c % 32 + 32 * 1) / 2 ^ 5 = 1 := by omega
    exact ⟨by simp [b2n], by simp only [bitAt, b2n, if_true]; rw [high]; rfl⟩

theorem condPacket_acts (s : State) (p tag n c t : Nat) (v : Bool) (hp : p < 4) (spanIn : s.dev.spanIn p = true) (tagged : s.dev.tagged tag = [n])
    (timely : s.dev.inTime (s.dev.fullTime (t % 2 ^ 64)) n) :
    let at_ := s.dev.fullTime (t % 2 ^ 64) + ns (s.dev.rd .SITE_SPAN_LAT_LAT n)
    Acts (.condPacket p tag c v t) s (fun e => (∀ j, j ≠ n → e.site j = s.dev.site j) ∧
      (s.dev.spanWide n (c % 32) = true → (e.site n).conds = (s.dev.site n).conds ++ [⟨cycleAfter at_, 256 + c % 32, v, true, t % 2 ^ 64⟩])) := by
  intro at_
  refine acts_onDev rfl (decide_eq_true hp) ?_
  rw [Dev.delivered_one spanIn (fun h => PktKind.noConfusion h) tagged]
  have noted := s.dev.pktNoted_spec p ⟨.cond, tag, c % 32 + 32 * b2n v, t % 2 ^ 64⟩
  generalize s.dev.pktNoted p _ = u at noted
  unfold Dev.pktSite
  dsimp only
  rw [if_neg (noted.inTime timely)]
  obtain ⟨arg, bit⟩ := condArg c v
  rw [arg, bit, noted.spanWide, noted.rd _ _ (show Fld.SITE_SPAN_LAT_LAT ∉ _ by decide)]
  split
  next wide =>
    unfold Dev.queueCond
    refine ⟨fun j hj => ?_, fun _ => ?_⟩
    · rw [Dev.upSite_site, if_neg hj, noted.site]
    · rw [Dev.upSite_site, if_pos rfl, noted.site]
  next narrow => exact ⟨fun j _ => noted.site j, fun h => absurd h narrow⟩

theorem haltPacket_acts (s : State) (p tag n t : Nat) (hp : p < 4) (spanIn : s.dev.spanIn p = true) (tagged : s.dev.tagged tag = [n])
    (timely : s.dev.inTime (s.dev.fullTime (t % 2 ^ 64)) n) :
    let at_ := s.dev.fullTime (t % 2 ^ 64) + ns (s.dev.rd .SITE_SPAN_LAT_LAT n)
    Acts (.haltPacket p tag t) s (fun e => (∀ j, j ≠ n → e.site j = s.dev.site j) ∧
      (e.site n).spanHalt = some (match (s.dev.site n).spanHalt with | some x => min x at_ | none => at_)) := by
  intro at_
  refine acts_onDev rfl (decide_eq_true hp) ?_
  rw [Dev.delivered_one spanIn (fun h => PktKind.noConfusion h) tagged]
  have noted := s.dev.pktNoted_spec p ⟨.halt, tag, 0, t % 2 ^ 64⟩
  generalize s.dev.pktNoted p _ = u at noted
  unfold Dev.pktSite
  dsimp only
  rw [if_neg (noted.inTime timely), noted.rd _ _ (show Fld.SITE_SPAN_LAT_LAT ∉ _ by decide)]
  refine ⟨fun j hj => ?_, ?_⟩
  · rw [Dev.upSite_site, if_neg hj, noted.site]
  · rw [Dev.upSite_site, if_pos rfl]
    exact congrArg (fun S : Site => some (match S.spanHalt with | some x => min x at_ | none => at_)) (noted.site n)

theorem Dev.pktSite_mark {d : Dev} {t n : Nat} (timely : ¬ (t + ns (d.rd .SITE_SPAN_LAT_LAT n) < d.bed + ns 20)) (tag a l : Nat) :
    d.pktSite ⟨.mark, tag, a, l⟩ t n = d.signal .mark (t + ns (d.rd .SITE_SPAN_LAT_LAT n)) n (a % 16) true := by
  unfold Dev.pktSite
  generalize d.signal = emit
  exact if_neg timely

theorem markPacket_acts (s : State) (p tag n m t : Nat) (hp : p < 4) (spanIn : s.dev.spanIn p = true) (tagged : s.dev.tagged tag = [n])
    (timely : s.dev.inTime (s.dev.fullTime (t % 2 ^ 64)) n) :
    let at_ := s.dev.fullTime (t % 2 ^ 64) + ns (s.dev.rd .SITE_SPAN_LAT_LAT n)
    Acts (.markPacket p tag m t) s (fun e => ∃ g, e.signals.head? = some g ∧ g.kind = .mark ∧ g.t = at_ ∧ g.unit = n ∧ g.idx = m % 16 ∧ g.level = true) := by
  intro at_
  refine acts_onDev rfl (decide_eq_true hp) ?_
  rw [Dev.delivered_one spanIn (fun h => PktKind.noConfusion h) tagged]
  have noted := s.dev.pktNoted_spec p ⟨.mark, tag, m % 16, t % 2 ^ 64⟩
  generalize s.dev.pktNoted p _ = u at noted
  rw [Dev.pktSite_mark (noted.inTime timely), noted.rd _ _ (show Fld.SITE_SPAN_LAT_LAT ∉ _ by decide), Nat.mod_mod]
  have origin : s.dev.fullTime (t % 2 ^ 64) + ns (s.dev.rd .SITE_SPAN_LAT_LAT n) = at_ := rfl
  rw [origin]
  clear_value at_
  exact ⟨⟨u.sigNo, .mark, at_, n, m % 16, true⟩, by rw [Dev.signal_signals, List.head?_cons], rfl, rfl, rfl, rfl, rfl⟩

theorem startPacket_acts (s : State) (p tag n t : Nat) (hp : p < 4) (spanIn : s.dev.spanIn p = true) (tagged : s.dev.tagged tag = [n])
    (timely : s.dev.inTime (s.dev.fullTime (t % 2 ^ 64)) n) (armed : s.dev.siteState n = SiteState.ARMED) (mode : (s.dev.site n).mode = 3) :
    let at_ := s.dev.fullTime (t % 2 ^ 64) + ns (s.dev.rd .SITE_SPAN_LAT_LAT n)
    Acts (.startPacket p tag t) s (fun e => (e.site n).start = some at_ ∧ (∀ j, j ≠ n → e.site j = s.dev.site j)) := by
  intro at_
  refine acts_onDev rfl (decide_eq_true hp) ?_
  rw [Dev.delivered_one spanIn (fun h => PktKind.noConfusion h) tagged]
  have noted := s.dev.pktNoted_spec p ⟨.start, tag, 0, t % 2 ^ 64⟩
  generalize s.dev.pktNoted p _ = u at noted
  unfold Dev.pktSite
  dsimp only
  rw [if_neg (noted.inTime timely), if_pos ⟨(noted.rd _ _ (by decide)).trans armed, by rw [noted.site]; exact mode⟩, noted.rd _ _ (by decide)]
  obtain ⟨-, others, own⟩ := u.setStart_spec n at_
  exact ⟨by rw [own], fun j hj => (others j hj).trans (noted.site j)⟩

/-! ### Triggers -/

/-- The slots that take a trigger packet of origin `o`. -/
def Dev.remoteSlots (d : Dev) (o : Nat) : List Nat :=
  (List.range 16).filter (fun k => d.slotLive k && d.rd .TA_SLOT_CTRL_SRC k == 6 && d.rd .TA_SLOT_CTRL_SEL k % 16 == o)

theorem Dev.PktNoted.remoteSlots {d e : Dev} (h : Dev.PktNoted d e) (o : Nat) : e.remoteSlots o = d.remoteSlots o := by
  have live (k : Nat) : e.slotLive k = d.slotLive k := by
    have bad : e.badSlot k = d.badSlot k := Dev.badSlot_congr (fun f hf => h.rd f k (by revert f; decide)) (h.rd _ _ (by decide))
    simp only [Dev.slotLive, Dev.on, bad, h.rd _ _ (show Fld.TA_SLOT_CTRL_EN ∉ _ by decide), h.rd _ _ (show Fld.TA_SLOT_STATUS_BADCFG ∉ _ by decide),
      h.rd _ _ (show Fld.DEV_UNITS_TAU_OK ∉ _ by decide)]
  simp only [Dev.remoteSlots, live, h.rd _ _ (show Fld.TA_SLOT_CTRL_SRC ∉ _ by decide), h.rd _ _ (show Fld.TA_SLOT_CTRL_SEL ∉ _ by decide)]

/-- The event of a trigger packet of time `t`. -/
def Dev.remoteEvent (d : Dev) (t : Nat) : TrigEv := ⟨pointAfter t, t, false, true, decide (t + ns (d.rd .TA_SPAN_LAT 0) < d.bed + ns 20)⟩

theorem Dev.trigArrives_slot {d : Dev} {tag o k : Nat} (mine : tag = d.rd .TA_SPAN_TAG 0) (named : k ∈ d.remoteSlots o) (t : Nat) :
    ((d.trigArrives tag o t).slot k).evs = (d.slot k).evs ++ [d.remoteEvent t] := by
  unfold Dev.trigArrives
  rw [if_neg (not_not.mpr mine)]
  have slots := Dev.slotEvents (d.remoteSlots o) (List.nodup_range.filter _) d (fun d => d.remoteEvent t) (fun _ _ _ => rfl) k
  rw [if_pos named] at slots
  exact congrArg Slot.evs slots

theorem trigPacket_acts (s : State) (p tag m t k : Nat) (hp : p < 4) (spanIn : s.dev.spanIn p = true) (mine : tag = s.dev.rd .TA_SPAN_TAG 0)
    (named : k ∈ s.dev.trigTagged tag (m % 16)) :
    Acts (.trigPacket p tag m t) s (fun e => ∃ x, (e.slot k).evs = (s.dev.slot k).evs ++ [x] ∧ x.t = s.dev.fullTime (t % 2 ^ 64) ∧ x.remote = true) := by
  refine acts_onDev rfl (decide_eq_true hp) ?_
  have slots : s.dev.trigTagged tag (m % 16) = s.dev.remoteSlots (m % 16) := by
    unfold Dev.trigTagged
    exact if_neg (not_not.mpr mine)
  have some_ : s.dev.trigTagged tag (m % 16 % 16) ≠ [] := by
    rw [Nat.mod_mod]
    exact List.ne_nil_of_mem named
  have noted := s.dev.pktNoted_spec p ⟨.trig, tag, m % 16, t % 2 ^ 64⟩
  have taken : s.dev.delivered p ⟨.trig, tag, m % 16, t % 2 ^ 64⟩ =
      (s.dev.pktNoted p ⟨.trig, tag, m % 16, t % 2 ^ 64⟩).trigArrives tag (m % 16 % 16) (s.dev.fullTime (t % 2 ^ 64)) := by
    rw [Dev.delivered, if_pos spanIn, Dev.takePkt_eq, if_pos rfl, if_neg some_]
  rw [taken, Nat.mod_mod]
  generalize s.dev.pktNoted p _ = u at noted
  have slot : u.slot k = s.dev.slot k := by rw [Dev.slot, noted.slots, Dev.slot]
  refine ⟨_, (Dev.trigArrives_slot (mine.trans (noted.rd _ _ (by decide)).symm) ?_ _).trans (by rw [slot]), rfl, rfl⟩
  rw [noted.remoteSlots, ← slots]
  exact named

/-! ### No match -/

theorem unmatchedPacket_acts (s : State) (p tag c t : Nat) (v : Bool) (hp : p < 4) (spanIn : s.dev.spanIn p = true) (tagged : s.dev.tagged tag = []) :
    Acts (.condPacket p tag c v t) s (fun e => e.sites = s.dev.sites ∧ ⟨0x309, p, 0, s.dev.cycle⟩ ∈ e.raised ∧
      s.dev.keepsFields e [.RN_PORT_COUNT_NOMATCH, .RN_PORT_COUNT_DUP, .RN_PORT_COUNT_FWD]) := by
  refine acts_onDev rfl (decide_eq_true hp) ?_
  have noted := s.dev.pktNoted_spec p ⟨.cond, tag, c % 32 + 32 * b2n v, t % 2 ^ 64⟩
  have taken : s.dev.delivered p ⟨.cond, tag, c % 32 + 32 * b2n v, t % 2 ^ 64⟩ = (s.dev.pktNoted p ⟨.cond, tag, c % 32 + 32 * b2n v, t % 2 ^ 64⟩).noMatch p := by
    rw [Dev.delivered, if_pos spanIn, Dev.takePkt_eq, if_neg fun h => PktKind.noConfusion h, if_pos tagged]
  rw [taken]
  generalize s.dev.pktNoted p _ = u at noted
  have cycle : u.cycle = s.dev.cycle := by rw [Dev.cycle, noted.now, Dev.cycle]
  refine ⟨noted.sites, cycle ▸ List.mem_append_right _ (List.mem_singleton.mpr rfl), fun f i hf => ?_⟩
  simp only [List.mem_cons, List.not_mem_nil, or_false, not_or] at hf
  have counted : (u.noMatch p).rd f i = u.rd f i := Dev.wr_rd_ne u .RN_PORT_COUNT_NOMATCH f p i _ hf.1
  exact counted.trans (noted.rd f i (by simp [hf.2.1, hf.2.2]))

end Sys2Proof.Machine

open Sys2Proof Sys2Proof.Machine

/-- Settles O53: ports go between their states by one rule that every training, detection and loss uses; frames and replays by what each leaves of the
port's record; the time exchange and the packets by their branches. -/
theorem portsTrainCarryFramesAndTime : Obligations.PortsTrainCarryFramesAndTime := by
  unfold Obligations.PortsTrainCarryFramesAndTime
  refine ⟨⟨fun s p v hp ready _ off enable role rein => portEnable_acts s p v hp ready off enable role rein,
      fun s p v hp ready _ enable change => rateMaxWrite_acts s p v hp ready enable change, train_acts, trainingStepEnd_acts, trainingEnd_acts,
      blockLockLoss_acts⟩,
    ⟨fomSample_acts, frame_acts, ack_acts, nak_acts, replayTimeout_acts, faultBlock_acts, peerFaultClear_acts⟩,
    timeExchangeStart_acts, treq_acts, timeExchangeComplete_acts, ?_, unmatchedPacket_acts⟩
  intro s p tag n c t m k v hp spanIn tagged low at_ timely
  exact ⟨condPacket_acts s p tag n c t v hp spanIn tagged timely, haltPacket_acts s p tag n t hp spanIn tagged timely,
    markPacket_acts s p tag n m t hp spanIn tagged timely, startPacket_acts s p tag n t hp spanIn tagged timely,
    fun _ mine named => trigPacket_acts s p tag m t k hp spanIn mine named⟩
end
